-- ==== Sys2Proof/Word.lean ====
section
/-! DEFINITION. The words of the device: 64-bit scalar words, 32-bit instruction words, bytes (R28). -/

namespace Sys2Proof

/-- A 64-bit scalar register or control register value. -/
abbrev Word := BitVec 64

/-- An instruction word (R29). -/
abbrev IWord := BitVec 32

/-- The smallest addressable unit of memory (R28). -/
abbrev Byte := BitVec 8

end Sys2Proof
end

