-- ==== Sys2Proof/Machine/Num.lean ====
section
/-! DEFINITION. Numbers and bit fields: R5 ranges, signed readings, little-endian bytes (R28), saturation. -/

namespace Sys2Proof.Machine

/-- Bits `lo` to `lo + n - 1` of a number. -/
def bits (x lo n : Nat) : Nat := x / 2 ^ lo % 2 ^ n

/-- One bit of a number. -/
def bit (x i : Nat) : Bool := x / 2 ^ i % 2 == 1

/-- A number with bits `lo` to `lo + n - 1` replaced. -/
def setBits (x lo n v : Nat) : Nat := x - bits x lo n * 2 ^ lo + v % 2 ^ n * 2 ^ lo

/-- A number with one bit replaced. -/
def setBit (x i : Nat) (b : Bool) : Nat := setBits x i 1 b.toNat

/-- The two's-complement reading of the low `n` bits. -/
def sgn (x n : Nat) : Int :=
  let y := x % 2 ^ n
  if y < 2 ^ (n - 1) then (y : Int) else (y : Int) - (2 ^ n : Nat)

/-- An integer reduced to `n` bits. -/
def unsg (x : Int) (n : Nat) : Nat := (x % ((2 ^ n : Nat) : Int)).toNat

/-- A number as a 64-bit word, reduced modulo 2^64. -/
def word (x : Nat) : Word := BitVec.ofNat 64 x

/-- An integer clamped to a range. -/
def clamp (x lo hi : Int) : Int := if x < lo then lo else if hi < x then hi else x

/-- The little-endian number that a list of bytes spells, lowest address first (R28). -/
def leNat : List Byte → Nat
  | [] => 0
  | b :: r => b.toNat + 256 * leNat r

/-- The `n` bytes of a number, lowest address first (R28). -/
def leBytes : Nat → Nat → List Byte
  | 0, _ => []
  | n + 1, x => BitVec.ofNat 8 x :: leBytes n (x / 256)

/-- The number of one bits among the low `n`. -/
def popcount : Nat → Nat → Nat
  | 0, _ => 0
  | n + 1, x => x % 2 + popcount n (x / 2)

/-- The lowest index below `n` whose bit is one, or none. -/
def lowestBit : Nat → Nat → Option Nat
  | 0, _ => none
  | n + 1, x => if x % 2 == 1 then some 0 else (lowestBit n (x / 2)).map (· + 1)

/-- The bit length of a number. -/
def bitLen (x : Nat) : Nat := if x = 0 then 0 else Nat.log2 x + 1

/-- Saturating increment of a counter of `n` bits. -/
def satInc (x n : Nat) : Nat := if x + 1 < 2 ^ n then x + 1 else 2 ^ n - 1

end Sys2Proof.Machine
end

