-- ==== Sys2Proof/Machine/Flags.lean ====
section
/-! DEFINITION. The flags of FXF (R195), their trap enables (R198), and the rounding modes (R194). -/

namespace Sys2Proof.Machine

/-- The flag bits of FXF (R195). -/
def flNV : Nat := 1
def flDZ : Nat := 2
def flOF : Nat := 4
def flUF : Nat := 8
def flNX : Nat := 16
def flDS : Nat := 32
def flIS : Nat := 64
def flQN : Nat := 128
def flQR : Nat := 256
def flXC : Nat := 512

/-- Flag sets joined. -/
def flOr (a b : Nat) : Nat := a ||| b

/-- The flags of a list joined. -/
def flAll (l : List Nat) : Nat := l.foldl flOr 0

/-- Whether a flag is set. -/
def flHas (f x : Nat) : Bool := f &&& x != 0

/-- The flags that a trap enable field covers: FEN bits 28 to 24 stand for NV, DZ, OF, UF and NX in that order (R195). -/
def fenFlags (fen : BitVec 5) : Nat :=
  (if fen.getLsbD 4 then flNV else 0) + (if fen.getLsbD 3 then flDZ else 0) + (if fen.getLsbD 2 then flOF else 0)
    + (if fen.getLsbD 1 then flUF else 0) + (if fen.getLsbD 0 then flNX else 0)

/-- An enabled flag is among those raised (R198). -/
def flTraps (fen : BitVec 5) (f : Nat) : Bool := flHas f (fenFlags fen)

/-- FEN of FXF (R195). -/
def fxfFen (fxf : Word) : BitVec 5 := fxf.extractLsb' 24 5

/-- RM of FXF (R195). -/
def fxfRm (fxf : Word) : BitVec 3 := fxf.extractLsb' 16 3

end Sys2Proof.Machine
end

