-- ==== Sys2Proof/Machine/Fp.lean ====
section
/-! DEFINITION. Floating values and their exact arithmetic, rounded once (R192-R194, R232-R236), the decimal-marker formats
(R200-R203), and conversions (R238). A value is a NaN, an infinity, a signed zero, or an exact ratio. -/

namespace Sys2Proof.Machine

/-- A floating format (R192): the widths of exponent and fraction. -/
structure Fmt where
  ebits : Nat
  fbits : Nat
deriving DecidableEq, Repr

def fp64 : Fmt := ⟨11, 52⟩
def fp32 : Fmt := ⟨8, 23⟩
def fp16 : Fmt := ⟨5, 10⟩
def bf16 : Fmt := ⟨8, 7⟩

/-- The bits of a format, sign included. -/
def Fmt.width (f : Fmt) : Nat := 1 + f.ebits + f.fbits

/-- The exponent bias (R192). -/
def Fmt.bias (f : Fmt) : Nat := 2 ^ (f.ebits - 1) - 1

/-- The sign bit. -/
def Fmt.sign (f : Fmt) (neg : Bool) : Nat := if neg then 2 ^ (f.ebits + f.fbits) else 0

/-- Infinity. -/
def Fmt.infBits (f : Fmt) (neg : Bool) : Nat := f.sign neg + (2 ^ f.ebits - 1) * 2 ^ f.fbits

/-- The largest finite value. -/
def Fmt.maxBits (f : Fmt) (neg : Bool) : Nat := f.infBits neg - 1

/-- The canonical NaN (R192). -/
def Fmt.nanBits (f : Fmt) : Nat := f.infBits false + 2 ^ (f.fbits - 1)

/-- A value. A ratio is nonzero, and its denominator is positive. -/
inductive FVal where
  | nan (signalling : Bool)
  | inf (neg : Bool)
  | zero (neg : Bool)
  | rat (n : Int) (d : Nat)
deriving DecidableEq, Repr

/-- 2 to an integer power, as a ratio of naturals. -/
def pow2 (e : Int) : Nat × Nat := if 0 ≤ e then (2 ^ e.toNat, 1) else (1, 2 ^ (-e).toNat)

/-- 10 to an integer power, as a ratio of naturals. -/
def pow10 (e : Int) : Nat × Nat := if 0 ≤ e then (10 ^ e.toNat, 1) else (1, 10 ^ (-e).toNat)

/-- A natural with a sign. -/
def signed (neg : Bool) (m : Nat) : Int := if neg then -(m : Int) else m

/-- The value of a word in a format (R192, R193): subnormals as they are. -/
def Fmt.val (f : Fmt) (x : Nat) : FVal :=
  let neg := bit x (f.ebits + f.fbits)
  let e := bits x f.fbits f.ebits
  let m := bits x 0 f.fbits
  if e = 2 ^ f.ebits - 1 then (if m = 0 then .inf neg else .nan (!bit x (f.fbits - 1)))
  else if e = 0 && m = 0 then .zero neg
  else
    let p := pow2 ((if e = 0 then 1 else e : Nat) - (f.bias : Int) - f.fbits)
    .rat (signed neg ((if e = 0 then m else m + 2 ^ f.fbits) * p.1)) p.2

/-- A value that is negative, by its sign. -/
def FVal.neg : FVal → Bool
  | .nan _ => false
  | .inf s => s
  | .zero s => s
  | .rat n _ => n < 0

/-- A value with its sign changed. -/
def FVal.opp : FVal → FVal
  | .nan s => .nan s
  | .inf s => .inf (!s)
  | .zero s => .zero (!s)
  | .rat n d => .rat (-n) d

/-- The value is a signalling NaN. -/
def FVal.snan : FVal → Bool
  | .nan s => s
  | _ => false

/-- The value is a NaN. -/
def FVal.isNan : FVal → Bool
  | .nan _ => true
  | _ => false

/-- NV when any of the operands is a signalling NaN (R193). -/
def nvOf (l : List FVal) : Nat := if l.any FVal.snan then flNV else 0

/-- The magnitude `n`/`d` rounded to an integer by a mode, with the sign that directed modes look at (R194). -/
def roundMag (rm : BitVec 3) (neg : Bool) (n d : Nat) : Nat :=
  let q := n / d
  let r := n % d
  let up : Bool :=
    match rm with
    | 0#3 => decide (d < 2 * r) || (2 * r == d && q % 2 == 1)
    | 1#3 => false
    | 2#3 => neg && r != 0
    | 3#3 => !neg && r != 0
    | _ => decide (d ≤ 2 * r)
  if up then q + 1 else q

/-- A ratio rounded to an integer by a mode. -/
def roundInt (rm : BitVec 3) (n : Int) (d : Nat) : Int := signed (n < 0) (roundMag rm (n < 0) n.natAbs d)

/-- The exponent E with 2^E ≤ n/d < 2^(E+1). -/
def ratLog (n d : Nat) : Int :=
  let e : Int := (Nat.log2 n : Int) - Nat.log2 d
  let p := pow2 e
  if n * p.2 < d * p.1 then e - 1 else e

/-- n/d in units of 2^q, rounded by a mode. -/
def roundAt (rm : BitVec 3) (neg : Bool) (n d : Nat) (q : Int) : Nat :=
  roundMag rm neg (n * (pow2 q).2) (d * (pow2 q).1)

/-- The overflow result of a mode (R193): infinity, or the largest finite value. -/
def Fmt.overflow (f : Fmt) (rm : BitVec 3) (neg : Bool) : Nat :=
  match rm with
  | 1#3 => f.maxBits neg
  | 2#3 => if neg then f.infBits neg else f.maxBits neg
  | 3#3 => if neg then f.maxBits neg else f.infBits neg
  | _ => f.infBits neg

/-- A nonzero ratio rounded once into a format: the bits and the flags. Tininess is detected after rounding (R193). The exponent
and fraction fields add up, so a carry out of the fraction is the next exponent. -/
def Fmt.roundRat (f : Fmt) (rm : BitVec 3) (neg : Bool) (n d : Nat) : Nat × Nat :=
  let emin : Int := 1 - f.bias
  let e := ratLog n d
  let q := max (e - f.fbits) (emin - f.fbits)
  let m := roundAt rm neg n d q
  let exact := m * (pow2 q).1 * d == n * (pow2 q).2
  let tiny := decide (e < emin) && decide (roundAt rm neg n d (e - f.fbits) < 2 ^ ((emin - e).toNat + f.fbits))
  let nx := if exact then 0 else flNX
  let base := (q - (emin - f.fbits)).toNat * 2 ^ f.fbits + m
  if (2 ^ f.ebits - 1) * 2 ^ f.fbits ≤ base then (f.overflow rm neg, flOF + flNX)
  else (f.sign neg + base, nx + (if tiny && !exact then flUF else 0))

/-- A value rounded once into a format (R193): NaNs become canonical, and no flag comes of one. -/
def Fmt.round (f : Fmt) (rm : BitVec 3) : FVal → Nat × Nat
  | .nan _ => (f.nanBits, 0)
  | .inf s => (f.infBits s, 0)
  | .zero s => (f.sign s, 0)
  | .rat n d => if n = 0 then (0, 0) else f.roundRat rm (n < 0) n.natAbs d

/-- A ratio as a value: an exact zero takes the sign given. -/
def mkRat' (z : Bool) (n : Int) (d : Nat) : FVal := if n = 0 then .zero z else .rat n d

/-- The exact sum, with its NV (R233): an exact zero sum of opposite signs is +0, or -0 under RDN. -/
def FVal.add (rm : BitVec 3) (a b : FVal) : FVal × Nat :=
  match a, b with
  | .nan _, _ => (.nan false, nvOf [a, b])
  | _, .nan _ => (.nan false, nvOf [a, b])
  | .inf s, .inf t => if s = t then (.inf s, 0) else (.nan false, flNV)
  | .inf s, _ => (.inf s, 0)
  | _, .inf t => (.inf t, 0)
  | .zero s, .zero t => (.zero (if s = t then s else rm == 2#3), 0)
  | .zero _, .rat n d => (.rat n d, 0)
  | .rat n d, .zero _ => (.rat n d, 0)
  | .rat n d, .rat m e => (mkRat' (rm == 2#3) (n * e + m * d) (d * e), 0)

/-- The exact product, with its NV (R233). -/
def FVal.mul (a b : FVal) : FVal × Nat :=
  let s := a.neg != b.neg
  match a, b with
  | .nan _, _ => (.nan false, nvOf [a, b])
  | _, .nan _ => (.nan false, nvOf [a, b])
  | .inf _, .zero _ => (.nan false, flNV)
  | .zero _, .inf _ => (.nan false, flNV)
  | .inf _, _ => (.inf s, 0)
  | _, .inf _ => (.inf s, 0)
  | .zero _, _ => (.zero s, 0)
  | _, .zero _ => (.zero s, 0)
  | .rat n d, .rat m e => (.rat (n * m) (d * e), 0)

/-- The exact quotient, with NV or DZ (R233). -/
def FVal.div (a b : FVal) : FVal × Nat :=
  let s := a.neg != b.neg
  match a, b with
  | .nan _, _ => (.nan false, nvOf [a, b])
  | _, .nan _ => (.nan false, nvOf [a, b])
  | .inf _, .inf _ => (.nan false, flNV)
  | .zero _, .zero _ => (.nan false, flNV)
  | .inf _, _ => (.inf s, 0)
  | _, .inf _ => (.zero s, 0)
  | .zero _, _ => (.zero s, 0)
  | .rat _ _, .zero _ => (.inf s, flDZ)
  | .rat n d, .rat m e => (.rat (signed s (n.natAbs * e)) (d * m.natAbs), 0)

/-- The integer square root, bit by bit from bit `k`. -/
def isqrt : Nat → Nat → Nat → Nat
  | 0, _, r => r
  | k + 1, n, r => isqrt k n (if (r + 2 ^ k) * (r + 2 ^ k) ≤ n then r + 2 ^ k else r)

/-- The square root of a positive ratio to 80 bits and a sticky bit below them: enough for one correct rounding in every
format. -/
def sqrtRat (n d : Nat) : FVal :=
  -- n/d = (n d) / d^2, so the root is isqrt(n d 2^(2k)) / (d 2^k).
  let k := 80 + bitLen d
  let x := n * d * 2 ^ (2 * k)
  let r := isqrt (bitLen x / 2 + 1) x 0
  if r * r = x then .rat r (d * 2 ^ k) else .rat (2 * r + 1 : Nat) (2 * d * 2 ^ k)

/-- The square root (R233): below -0 it is the canonical NaN with NV, of -0 it is -0. -/
def FVal.sqrt (a : FVal) : FVal × Nat :=
  match a with
  | .nan _ => (.nan false, nvOf [a])
  | .inf s => if s then (.nan false, flNV) else (.inf false, 0)
  | .zero s => (.zero s, 0)
  | .rat n d => if n < 0 then (.nan false, flNV) else (sqrtRat n.toNat d, 0)

/-- The fused a x b + c (R234): 0 x infinity sets NV even when c is a quiet NaN. -/
def FVal.fma (rm : BitVec 3) (a b c : FVal) : FVal × Nat :=
  let p := a.mul b
  let r := p.1.add rm c
  (r.1, flOr (flOr p.2 r.2) (nvOf [a, b, c]))

/-- A value and its flags, rounded once into a format. -/
def Fmt.finish (f : Fmt) (rm : BitVec 3) (r : FVal × Nat) : Nat × Nat :=
  let o := f.round rm r.1
  (o.1, flOr r.2 o.2)

def Fmt.add (f : Fmt) (rm : BitVec 3) (a b : Nat) : Nat × Nat := f.finish rm ((f.val a).add rm (f.val b))
def Fmt.sub (f : Fmt) (rm : BitVec 3) (a b : Nat) : Nat × Nat := f.finish rm ((f.val a).add rm (f.val b).opp)
def Fmt.mul (f : Fmt) (rm : BitVec 3) (a b : Nat) : Nat × Nat := f.finish rm ((f.val a).mul (f.val b))
def Fmt.div (f : Fmt) (rm : BitVec 3) (a b : Nat) : Nat × Nat := f.finish rm ((f.val a).div (f.val b))
def Fmt.sqrt (f : Fmt) (rm : BitVec 3) (a : Nat) : Nat × Nat := f.finish rm (f.val a).sqrt

/-- a x b + c with the signs of the product and of c that the suffix gives (R234). -/
def Fmt.fma (f : Fmt) (rm : BitVec 3) (negP negC : Bool) (a b c : Nat) : Nat × Nat :=
  let x := if negP then (f.val a).opp else f.val a
  let z := if negC then (f.val c).opp else f.val c
  f.finish rm (x.fma rm (f.val b) z)

/-- Strictly less, for values that are not NaNs; the two zeros are equal. -/
def FVal.lt (a b : FVal) : Bool :=
  match a, b with
  | .inf s, .inf t => s && !t
  | .inf s, _ => s
  | _, .inf t => !t
  | .zero _, .zero _ => false
  | .zero _, .rat m _ => 0 < m
  | .rat n _, .zero _ => n < 0
  | .rat n d, .rat m e => n * e < m * d
  | _, _ => false

/-- Equal, for values that are not NaNs. -/
def FVal.eqv (a b : FVal) : Bool := !a.isNan && !b.isNan && !a.lt b && !b.lt a

/-- `fmin` and `fmax` of R123: -0 below +0; of one NaN the other operand, of two the canonical NaN; NV for a signalling
NaN alone. -/
def Fmt.minmax (f : Fmt) (wantMax : Bool) (a b : Nat) : Nat × Nat :=
  let x := f.val a
  let y := f.val b
  let less := if x.lt y then true else if y.lt x then false else x.neg && !y.neg
  let v :=
    if x.isNan && y.isNan then f.nanBits
    else if x.isNan then b
    else if y.isNan then a
    else if less != wantMax then a else b
  (v, nvOf [x, y])

/-- Sign injection (R233): |a| with a sign; a NaN gives the canonical NaN, with NV if it is signalling. -/
def Fmt.inject (f : Fmt) (a : Nat) (neg : Bool) : Nat × Nat :=
  let x := f.val a
  if x.isNan then (f.nanBits, nvOf [x]) else (f.sign neg + bits a 0 (f.ebits + f.fbits), 0)

/-- The sign bit of a word. -/
def Fmt.signOf (f : Fmt) (x : Nat) : Bool := bit x (f.ebits + f.fbits)

def Fmt.sgnj (f : Fmt) (a b : Nat) : Nat × Nat := f.inject a (f.signOf b)
def Fmt.sgnjn (f : Fmt) (a b : Nat) : Nat × Nat := f.inject a (!f.signOf b)
def Fmt.sgnjx (f : Fmt) (a b : Nat) : Nat × Nat := f.inject a (f.signOf a != f.signOf b)

/-- The kind code (R236). -/
def Fmt.kind (f : Fmt) (x : Nat) : Nat :=
  match f.val x with
  | .nan s => if s then 9 else 8
  | .inf s => 3 + (if s then 4 else 0)
  | .zero s => if s then 4 else 0
  | .rat n _ => (if bits x f.fbits f.ebits = 0 then 1 else 2) + (if n < 0 then 4 else 0)

/-- The conditions of the compares (R234). -/
inductive Cmp where
  | eq | lt | le | gt | ge | ne | un
deriving DecidableEq, Repr

/-- A compare (R235): the bit and the flags. -/
def Fmt.cmp (f : Fmt) (c : Cmp) (a b : Nat) : Bool × Nat :=
  let x := f.val a
  let y := f.val b
  let un := x.isNan || y.isNan
  let quiet := nvOf [x, y]
  let loud := if un then flNV else 0
  match c with
  | .eq => (x.eqv y, quiet)
  | .ne => (!x.eqv y, quiet)
  | .un => (un, quiet)
  | .lt => (!un && x.lt y, loud)
  | .le => (!un && !y.lt x, loud)
  | .gt => (!un && y.lt x, loud)
  | .ge => (!un && !x.lt y, loud)

/-! The decimal-marker formats -/

/-- The length of the run of bits equal to `b` downward from bit `n - 1` (R200). -/
def runLen (p : Nat) (b : Bool) : Nat → Nat
  | 0 => 0
  | n + 1 => if bit p n = b then runLen p b n + 1 else 0

/-- The magnitude of a nonzero code `p` of `n` bits at scale 0: numerator and denominator (R200). -/
def dmag (p n : Nat) : Nat × Nat :=
  let b := bit p (n - 1)
  let k := runLen p b n
  let fw := if k = n then 0 else n - 1 - k
  let fr := bits p 0 fw
  let e : Int := if b then (k : Int) - 1 else -(k : Int)
  ((2 ^ fw + 9 * fr) * (pow10 e).1, 2 ^ fw * (pow10 e).2)

/-- The value of a d code of `n + 1` bits at a scale (R200); NaR reads as a quiet NaN. -/
def dval (code n : Nat) (sc : Int) : FVal :=
  let s := bit code n
  let p := bits code 0 n
  if p = 0 then (if s then .nan false else .zero false)
  else
    let m := dmag p n
    let t := pow10 sc
    .rat (signed s (m.1 * t.1)) (m.2 * t.2)

/-- The magnitude of a code with zero included. -/
def dmag0 (p n : Nat) : Nat × Nat := if p = 0 then (0, 1) else dmag p n

/-- The distance of a code's magnitude from `a`/`b`. -/
def ddist (p n a b : Nat) : Nat × Nat :=
  let m := dmag0 p n
  (((m.1 * b : Nat) - (a * m.2 : Nat) : Int).natAbs, m.2 * b)

/-- The better of two codes for a magnitude: the nearer, and on a tie the one with bit 0 clear (R203). -/
def dbetter (n a b p q : Nat) : Nat :=
  let x := ddist p n a b
  let y := ddist q n a b
  if x.1 * y.2 < y.1 * x.2 then p else if y.1 * x.2 < x.1 * y.2 then q else if p % 2 = 0 then p else q

/-- The nearest code of `n` bits to a magnitude (R203). -/
def dnearest (n a b : Nat) : Nat := (List.range (2 ^ n)).foldl (dbetter n a b) 0

/-- The conversion of a value into a d code of `n + 1` bits at a scale (R203): the code and the flags. -/
def dcode (x : FVal) (n : Nat) (sc : Int) : Nat × Nat :=
  match x with
  | .nan s => (2 ^ n, if s then flNV else 0)
  | .inf s => (2 ^ n - 1 + (if s then 2 ^ n else 0), flDS + flNX)
  | .zero _ => (0, 0)
  | .rat v d =>
    let t := pow10 (-sc)
    let a := v.natAbs * t.1
    let b := d * t.2
    let neg : Bool := v < 0
    if 10 ^ (n - 1) * b < a then (2 ^ n - 1 + (if neg then 2 ^ n else 0), flDS + flNX)
    else
      let c := dnearest n a b
      let m := dmag0 c n
      (c + (if neg && c != 0 then 2 ^ n else 0),
        (if c = 0 then flUF else 0) + (if m.1 * b = a * m.2 then 0 else flNX))

/-! Conversions -/

/-- A value converted to an integer in a range (R238). -/
def toIntFlags (rm : BitVec 3) (lo hi : Int) (x : FVal) : Int × Nat :=
  match x with
  | .nan _ => (0, flNV)
  | .inf s => (if s then lo else hi, flIS)
  | .zero _ => (0, 0)
  | .rat n d =>
    let t := roundInt rm n d
    if t < lo then (lo, flIS) else if hi < t then (hi, flIS)
    else (t, if t * d = n then 0 else flNX)

/-- An integer as a value. -/
def intVal (x : Int) : FVal := if x = 0 then .zero false else .rat x 1

end Sys2Proof.Machine
end

