-- ==== Sys2Proof/Machine/Kinds.lean ====
section
/-! DEFINITION. The small named sets that the syntax and the machine share, and `Op`, the encoded operations by name. -/

namespace Sys2Proof

/-- A side of a hart (R281): the forager runs the scalar stream, the vector side runs blocks. -/
inductive Side where
  | forager
  | vector
deriving DecidableEq, Repr

/-- What one run of a word yields for an element (R431): its value, for `vqdec` the numerator and then the denominator (R257), its poison bit
and its flag bits. -/
structure RunRes where
  bits : Nat
  den : Nat
  psn : Bool
  flags : Nat
deriving DecidableEq, Repr

/-- What the recheck of a queued word finds (R431): every run of its active elements agrees, or the first run, the recheck and the third
run of one element, each as the word computes it (none) or with another result. -/
inductive Vote where
  | agree
  | runs (first second third : Option RunRes)
deriving DecidableEq, Repr

/-- The management space that a register write goes to (R6, R26, R70, R265, R391, R410, R438, R454, R457). -/
inductive MgmtSpace where
  | hub
  | die (d : Nat)
  | field (f : Nat)
  | core (n : Nat)
  | tenantPf (tag : Nat)
  | tenantVf (tag : Nat)
deriving DecidableEq, Repr

/-- A request to the physical function over SPDM (R459). -/
inductive SpdmReq where
  | certificate
  | measurement
deriving DecidableEq, Repr

/-- A Bolco frame as received (R461): the header fields and the payload. `secTag` says that the SecTAG is valid. -/
structure Frame where
  secTag : Bool
  ver : Nat
  kind : Nat
  dst : Nat
  src : Nat
  inc : BitVec 12
  tag : Nat
  seq : Nat
  target : Nat
  data : List Byte
deriving DecidableEq, Repr

/-- The encoded operations by name: one for each word pattern of the opcode table. -/
inductive Op where
  | add | sub | and | or | xor | sll | srl | sra | sltS | sltU | mul | mulhiSs | mulhiUu | mulhiSu | quoS | quoU
  | remS | remU | minS | maxS | minU | maxU | addi | andi | ori | xori | slti | sltiu | slli | srli | srai | lhi
  | ldB | ldH | ldW | ldD | ldBu | ldHu | ldWu | stB | stH | stW | stD | amoSwap | amoCas | amoAdd | amoAnd | amoOr
  | amoXor | amoSmin | amoSmax | amoUmin | amoUmax | amoLd | amoFadd | amoFmin | amoFmax | amoQadd | amoQmul | fadd
  | fsub | fmul | fdiv | fsqrt | fmin | fmax | fmacc | fsgnj | fsgnjn | fsgnjx | feq | flt | fle | fkind | fcvtF
  | fcvtI | fcvtIRtz | fcvtIu | fcvtIuRtz | fcvtFi | fcvtFiu | beq | bne | blt | bge | bltu | bgeu | jal | jalr
  | sptest | spcastChk | spcastMk | spcastOff | vrun | rqpop | vsync | vrel | spawn | exit | onewSwarm | onewLatch
  | onewChan | ofree | swjoin | swleave | swbar | step | acq | rel | mend | adopt | send | recv | nap | eleaseCopy
  | eleaseComp | eleaseColl | eleaseRenew | efree | ecopy | ecopyTfill | ecomp | ecoll | estat | ewait | tstat
  | twait | tsetEmpty | tsetReady | tdrain | fence | fenceAcq | fenceRel | cfgrd | cfgwr | trap | tret | brk | tmark
  | cregNew | cregFree | cregFind | vcfg | vsetl | vsetlMax | vloop | vloopR | vlend | vexit | vreply | vend | sadd
  | ssub | sand | sor | sxor | ssll | ssrl | smul | sminu | smaxu | saddi | sli | vcfgrd | vld | vldBo | vldS | vldT
  | vldFf | vldFfBo | vldx | vldd | vlddX | vst | vstS | vstT | vstApp | vstx | vstd | vbopAdd | vbopAnd | vbopOr
  | vbopXor | vbopSmin | vbopSmax | vbopFadd | vbopQadd | vaddVv | vaddVi | vaddVx | vsubVv | vsubVx | vrsubVx
  | vrsubVi | vmulVv | vmulVx | vmulh | vmulhuVv | vmulhuVx | vmulhsu | vsadd | vsaddu | vssub | vandVv | vandVx
  | vorVv | vorVx | vxorVv | vxorVi | vxorVx | vandn | vmergeVv | vmergeVx | vmergeVi | vmin | vminu | vmax | vmaxu
  | vssubu | vsllVv | vsllVi | vsrlVv | vsrlVi | vsraVv | vsraVi | vmseqVv | vmseqVx | vmsne | vmslt | vmsltuVv
  | vmsle | vmsleu | vmsgt | vmsgtu | vmsltuVx | vbslVx | vbslVi | vbsrVx | vbsrVi | vfsl | vfsr | vpopc | vclz
  | vctz | vbrev | vxchVx | vxchVi | vslideupVx | vslideupVi | vslidednVx | vslidednVi | vslide1up | vslide1dn
  | vpullVv | vpullVx | vpush | vcompress | vextr | vredsum | vredsums | vredmax | vredmaxu | vredmin | vredminu
  | vredand | vredor | vredxor | vscansum | vscanmax | vscanmin | vxscansum | vscanmaxu | vscanminu | mkand | mkor
  | mkxor | mkandn | mknot | mkfill | mkspreadI | mkspreadX | mkparity | mkfirst | mkcount | mkfind | mkfindL | vrank
  | vfaddVv | vfaddVx | vfsubVv | vfsubVx | vfrsub | vfmulVv | vfmulVx | vfdivVv | vfdivVx | vfrdiv | vfsqrt | vfmin
  | vfmax | vfsgnj | vfsgnjn | vfsgnjx | vfmacPpVv | vfmacPpVx | vfmacNn | vfmacPn | vfmacNp | vfmad | vfcmpEqVv
  | vfcmpEqVx | vfcmpLtVv | vfcmpLe | vfcmpGt | vfcmpGe | vfcmpLtVx | vfcmpNe | vfkind | vfcmpUn | vfcvt | vfcvtU
  | vfcvtRtz | vfcvtURtz | vdrescale | vfsumO | vfsumT | vfredmax | vfredmin | vrand | vqaddVv | vqaddVx | vqsubVv
  | vqsubVx | vqrsub | vqmulVv | vqmulVx | vqdivVv | vqdivVx | vqrdiv | vqneg | vqinv | vqmaccVv | vqmaccVx | vqeqVv
  | vqeqVx | vqencVv | vqencVx | vqencVi | vqdec | vqdigVx | vqdigVi | vqval | mmrow | mwld | mwclr | vpclr | vpmclr
  | vpmask | vid | vmvR | vstBo
deriving DecidableEq, Repr

end Sys2Proof
end

