-- ==== Sys2Proof/Syntax.lean ====
section
/-! DEFINITION. The abstract syntax: one constructor for each row of the opcode table (R29-R40 and the chapters that
own the majors), and one for each event of the package (the rows without an encoding, spec/95_what_each_step_holds.md).
The arguments of an encoded instruction are its fields, most significant first, at the widths of the word
(`c` is bit 25 of a vector word; `d`, `a`, `b` the register fields; `x` a scalar-side code; `m` the mask field).
`VST_BO` has no word in the table; R151 gives it one. -/

namespace Sys2Proof

/-- Every instruction and event of the part. -/
inductive Instr where
  /-- `COLD_START` (R448). -/
  | coldStart
  /-- `WARM_START` (R448). -/
  | warmStart
  /-- `DIE_CORE_RESET` (R436). -/
  | dieCoreReset (die : Nat)
  /-- `DIE_LEAVES_RESET` (R26). -/
  | dieLeavesReset (die : Nat)
  /-- `FIELD_DIE_RESET` (R68). -/
  | fieldDieReset (f : Nat)
  /-- `PTP_LOCK_LOSS` (R23). -/
  | ptpLockLoss
  /-- `PTP_LOCK_ACQUIRE` (R449). -/
  | ptpLockAcquire
  /-- `NEGOTIATION_CLOSE` (R449). -/
  | negotiationClose
  /-- `GTBSET_WRITE` (R454). -/
  | gtbsetWrite (v : Word)
  /-- `FTMAP_WRITE` (R64). -/
  | ftmapWrite (v : Word)
  /-- `HCHIP_WRITE` (R454). -/
  | hchipWrite (v : Word)
  /-- `MGMT_REGISTER_WRITE` (R6). -/
  | mgmtRegisterWrite (sp : MgmtSpace) (off : Nat) (v : Word)
  /-- `BLOCK_START` (R282). -/
  | blockStart
  /-- `CONVOY_ISSUE` (R49). -/
  | convoyIssue
  /-- `VECTOR_TRAP_DELIVERY` (R397). -/
  | vectorTrapDelivery
  /-- `PF_ANSWER_TIMEOUT` (R452). -/
  | pfAnswerTimeout (hid : Nat)
  /-- `HOST_PF_ANSWER` (R455). -/
  | hostPfAnswer (tag : Nat) (v : Word)
  /-- `IWL_EXPIRY` (R334). -/
  | iwlExpiry (hid : Nat) (side : Side)
  /-- `WAIT_ANSWER_TIMEOUT` (R332). -/
  | waitAnswerTimeout (hid : Nat)
  /-- `RQPOP_EXPIRY` (R307). -/
  | rqpopExpiry (hid : Nat)
  /-- `VSYNC_EXPIRY` (R308). -/
  | vsyncExpiry (hid : Nat)
  /-- `NAP_EXPIRY` (R359). -/
  | napExpiry (hid : Nat)
  /-- `TWAIT_EXPIRY` (R150). -/
  | twaitExpiry (hid : Nat)
  /-- `EWAIT_EXPIRY` (R147). -/
  | ewaitExpiry (hid : Nat)
  /-- `ELEASE_EXPIRY` (R135). -/
  | eleaseExpiry (hid : Nat)
  /-- `ENGINE_SLOT_EXPIRY` (R138). -/
  | engineSlotExpiry (hid : Nat)
  /-- `SWARM_DEADLINE_CLOSE` (R344). -/
  | swarmDeadlineClose (rec : Nat)
  /-- `SWJOIN_EXPIRY` (R347). -/
  | swjoinExpiry (hid : Nat)
  /-- `ACQ_EXPIRY` (R352). -/
  | acqExpiry (hid : Nat)
  /-- `SEND_EXPIRY` (R357). -/
  | sendExpiry (hid : Nat)
  /-- `RECV_EXPIRY` (R358). -/
  | recvExpiry (hid : Nat)
  /-- `PLANE_FLIP` (R111). -/
  | planeFlip (region bank : Nat)
  /-- `PATROL_SCRUB` (R74). -/
  | patrolScrub (sector : Nat)
  /-- `COMB_PATROL_SCRUB` (R99). -/
  | combPatrolScrub (off : Nat)
  /-- `ZREQ_GO` (R76). -/
  | zreqGo (v : Word)
  /-- `ZREQ_COMPLETE` (R76). -/
  | zreqComplete
  /-- `TINV_GO` (R90). -/
  | tinvGo (tag : Nat) (v : Word)
  /-- `TINV_COMPLETE` (R90). -/
  | tinvComplete (tag : Nat)
  /-- `ROREQ_GO` (R421). -/
  | roreqGo (tag : Nat) (v : Word)
  /-- `ROREQ_COMPLETE` (R421). -/
  | roreqComplete (tag : Nat)
  /-- `TENBOOT_GO` (R291). -/
  | tenbootGo (tag : Nat) (v : Word)
  /-- `TENANT_ACTIVATE` (R419). -/
  | tenantActivate (tag : Nat) (v : Word)
  /-- `TENANT_FREEZE` (R420). -/
  | tenantFreeze (tag : Nat) (v : Word)
  /-- `TENANT_FROZEN` (R420). -/
  | tenantFrozen (tag : Nat)
  /-- `TENANT_THAW` (R419). -/
  | tenantThaw (tag : Nat) (v : Word)
  /-- `TENANT_RELEASE` (R423). -/
  | tenantRelease (tag : Nat) (v : Word)
  /-- `TENANT_RELEASED` (R423). -/
  | tenantReleased (tag : Nat)
  /-- `PMAP_WRITE` (R413). -/
  | pmapWrite (core idx : Nat) (v : Word)
  /-- `WEIGHT_SLOT_FREE_MGMT` (R265). -/
  | weightSlotFreeMgmt (core slot : Nat)
  /-- `BIND_RECORD_SUBMIT` (R382). -/
  | bindRecordSubmit (core slot : Nat) (d0 : Word) (byHost : Bool)
  /-- `BIND_RECORD_REMOVE` (R382). -/
  | bindRecordRemove (core slot : Nat) (byHost : Bool)
  /-- `QUANTUM_END` (R384). -/
  | quantumEnd (core slot : Nat)
  /-- `APIARY_WAITING_REMOVAL` (R386). -/
  | apiaryWaitingRemoval (core slot : Nat)
  /-- `POWER_SAMPLE` (R388). -/
  | powerSample (watts : Nat)
  /-- `WATCHDOG_EXPIRY` (R391). -/
  | watchdogExpiry (hid : Nat)
  /-- `LEASE_GRANT` (R131). -/
  | leaseGrant (engine : Nat)
  /-- `LEASE_EXPIRY` (R132). -/
  | leaseExpiry (engine : Nat)
  /-- `LEASE_REVOKE` (R132). -/
  | leaseRevoke (engine : Nat)
  /-- `ENGINE_COMMAND_START` (R143). -/
  | engineCommandStart (engine : Nat)
  /-- `ENGINE_COMMAND_END` (R142). -/
  | engineCommandEnd (engine : Nat)
  /-- `COLLECTIVE_CLOSE` (R145). -/
  | collectiveClose (rec : Nat)
  /-- `PLOUGH_MOVE_GO` (R69). -/
  | ploughMoveGo (f : Nat) (v : Word)
  /-- `PLOUGH_MOVE_COMPLETE` (R67). -/
  | ploughMoveComplete (f : Nat)
  /-- `PLOUGH_EPOCH_END` (R66). -/
  | ploughEpochEnd (f : Nat)
  /-- `RECHECK_RUN` (R432). -/
  | recheckRun (hid elem : Nat) (vote : Vote)
  /-- `DEBUG_RESUME` (R440). -/
  | debugResume (core slot : Nat)
  /-- `DEBUG_STEP` (R440). -/
  | debugStep (core slot : Nat)
  /-- `FABRIC_PUT` (R461). -/
  | fabricPut (fr : Frame)
  /-- `FABRIC_GET` (R461). -/
  | fabricGet (fr : Frame)
  /-- `FABRIC_GET_RESPONSE` (R461). -/
  | fabricGetResponse (fr : Frame)
  /-- `FABRIC_CHANNEL_SEND` (R461). -/
  | fabricChannelSend (fr : Frame)
  /-- `FABRIC_SWARM_ARRIVAL` (R349). -/
  | fabricSwarmArrival (fr : Frame)
  /-- `FABRIC_SWARM_RESULT` (R461). -/
  | fabricSwarmResult (fr : Frame)
  /-- `FABRIC_COLLECTIVE_DATA` (R461). -/
  | fabricCollectiveData (fr : Frame)
  /-- `FABRIC_CREDIT_RETURN` (R461). -/
  | fabricCreditReturn (fr : Frame)
  /-- `FABRIC_TRIGGER` (R445). -/
  | fabricTrigger (fr : Frame)
  /-- `REPLAY_DELIVERY` (R446). -/
  | replayDelivery (tag : Nat)
  /-- `HOST_SEND` (R457). -/
  | hostSend (tag : Nat)
  /-- `HOST_MEMORY_WRITE` (R457). -/
  | hostMemoryWrite (tag bar off : Nat) (data : List (BitVec 8))
  /-- `HOST_MEMORY_READ` (R457). -/
  | hostMemoryRead (tag bar off size : Nat)
  /-- `JOB_RECORD_POST` (R460). -/
  | jobRecordPost (job : Word)
  /-- `SPDM_REQUEST` (R459). -/
  | spdmRequest (req : SpdmReq)
  /-- `add` (R292). -/
  | add (d a b : BitVec 5)
  /-- `sub` (R292). -/
  | sub (d a b : BitVec 5)
  /-- `and` (R292). -/
  | and (d a b : BitVec 5)
  /-- `or` (R292). -/
  | or (d a b : BitVec 5)
  /-- `xor` (R292). -/
  | xor (d a b : BitVec 5)
  /-- `sll` (R292). -/
  | sll (d a b : BitVec 5)
  /-- `srl` (R292). -/
  | srl (d a b : BitVec 5)
  /-- `sra` (R292). -/
  | sra (d a b : BitVec 5)
  /-- `slt.s` (R292). -/
  | sltS (d a b : BitVec 5)
  /-- `slt.u` (R292). -/
  | sltU (d a b : BitVec 5)
  /-- `mul` (R292). -/
  | mul (d a b : BitVec 5)
  /-- `mulhi.ss` (R292). -/
  | mulhiSs (d a b : BitVec 5)
  /-- `mulhi.uu` (R292). -/
  | mulhiUu (d a b : BitVec 5)
  /-- `mulhi.su` (R292). -/
  | mulhiSu (d a b : BitVec 5)
  /-- `quo.s` (R293). -/
  | quoS (d a b : BitVec 5)
  /-- `quo.u` (R293). -/
  | quoU (d a b : BitVec 5)
  /-- `rem.s` (R293). -/
  | remS (d a b : BitVec 5)
  /-- `rem.u` (R293). -/
  | remU (d a b : BitVec 5)
  /-- `min.s` (R292). -/
  | minS (d a b : BitVec 5)
  /-- `max.s` (R292). -/
  | maxS (d a b : BitVec 5)
  /-- `min.u` (R292). -/
  | minU (d a b : BitVec 5)
  /-- `max.u` (R292). -/
  | maxU (d a b : BitVec 5)
  /-- `addi` (R294). -/
  | addi (d a : BitVec 5) (i : BitVec 16)
  /-- `andi` (R294). -/
  | andi (d a : BitVec 5) (i : BitVec 16)
  /-- `ori` (R294). -/
  | ori (d a : BitVec 5) (i : BitVec 16)
  /-- `xori` (R294). -/
  | xori (d a : BitVec 5) (i : BitVec 16)
  /-- `slti` (R294). -/
  | slti (d a : BitVec 5) (i : BitVec 16)
  /-- `sltiu` (R294). -/
  | sltiu (d a : BitVec 5) (i : BitVec 16)
  /-- `slli` (R295). -/
  | slli (d a : BitVec 5) (s : BitVec 6)
  /-- `srli` (R295). -/
  | srli (d a : BitVec 5) (s : BitVec 6)
  /-- `srai` (R295). -/
  | srai (d a : BitVec 5) (s : BitVec 6)
  /-- `lhi` (R294). -/
  | lhi (d a : BitVec 5) (i : BitVec 16)
  /-- `ld.b` (R85). -/
  | ldB (d a : BitVec 5) (o : BitVec 13)
  /-- `ld.h` (R85). -/
  | ldH (d a : BitVec 5) (o : BitVec 13)
  /-- `ld.w` (R85). -/
  | ldW (d a : BitVec 5) (o : BitVec 13)
  /-- `ld.d` (R85). -/
  | ldD (d a : BitVec 5) (o : BitVec 13)
  /-- `ld.bu` (R85). -/
  | ldBu (d a : BitVec 5) (o : BitVec 13)
  /-- `ld.hu` (R85). -/
  | ldHu (d a : BitVec 5) (o : BitVec 13)
  /-- `ld.wu` (R85). -/
  | ldWu (d a : BitVec 5) (o : BitVec 13)
  /-- `st.b` (R85). -/
  | stB (d a : BitVec 5) (o : BitVec 13)
  /-- `st.h` (R85). -/
  | stH (d a : BitVec 5) (o : BitVec 13)
  /-- `st.w` (R85). -/
  | stW (d a : BitVec 5) (o : BitVec 13)
  /-- `st.d` (R85). -/
  | stD (d a : BitVec 5) (o : BitVec 13)
  /-- `amo.swap` (R123). -/
  | amoSwap (d a b : BitVec 5) (w : BitVec 1) (q : BitVec 2) (s : BitVec 3)
  /-- `amo.cas` (R123). -/
  | amoCas (d a b : BitVec 5) (w : BitVec 1) (q : BitVec 2) (s : BitVec 3)
  /-- `amo.add` (R123). -/
  | amoAdd (d a b : BitVec 5) (w : BitVec 1) (q : BitVec 2) (s : BitVec 3)
  /-- `amo.and` (R123). -/
  | amoAnd (d a b : BitVec 5) (w : BitVec 1) (q : BitVec 2) (s : BitVec 3)
  /-- `amo.or` (R123). -/
  | amoOr (d a b : BitVec 5) (w : BitVec 1) (q : BitVec 2) (s : BitVec 3)
  /-- `amo.xor` (R123). -/
  | amoXor (d a b : BitVec 5) (w : BitVec 1) (q : BitVec 2) (s : BitVec 3)
  /-- `amo.smin` (R123). -/
  | amoSmin (d a b : BitVec 5) (w : BitVec 1) (q : BitVec 2) (s : BitVec 3)
  /-- `amo.smax` (R123). -/
  | amoSmax (d a b : BitVec 5) (w : BitVec 1) (q : BitVec 2) (s : BitVec 3)
  /-- `amo.umin` (R123). -/
  | amoUmin (d a b : BitVec 5) (w : BitVec 1) (q : BitVec 2) (s : BitVec 3)
  /-- `amo.umax` (R123). -/
  | amoUmax (d a b : BitVec 5) (w : BitVec 1) (q : BitVec 2) (s : BitVec 3)
  /-- `amo.ld` (R123). -/
  | amoLd (d a : BitVec 5) (w : BitVec 1) (q : BitVec 2) (s : BitVec 3)
  /-- `amo.fadd` (R123). -/
  | amoFadd (d a b : BitVec 5) (w : BitVec 1) (q : BitVec 2) (s : BitVec 3)
  /-- `amo.fmin` (R123). -/
  | amoFmin (d a b : BitVec 5) (w : BitVec 1) (q : BitVec 2) (s : BitVec 3)
  /-- `amo.fmax` (R123). -/
  | amoFmax (d a b : BitVec 5) (w : BitVec 1) (q : BitVec 2) (s : BitVec 3)
  /-- `amo.qadd` (R123). -/
  | amoQadd (d a b : BitVec 5) (q : BitVec 2) (s : BitVec 3)
  /-- `amo.qmul` (R123). -/
  | amoQmul (d a b : BitVec 5) (q : BitVec 2) (s : BitVec 3)
  /-- `fadd` (R245). -/
  | fadd (d a b : BitVec 5) (f : BitVec 2)
  /-- `fsub` (R245). -/
  | fsub (d a b : BitVec 5) (f : BitVec 2)
  /-- `fmul` (R245). -/
  | fmul (d a b : BitVec 5) (f : BitVec 2)
  /-- `fdiv` (R245). -/
  | fdiv (d a b : BitVec 5) (f : BitVec 2)
  /-- `fsqrt` (R245). -/
  | fsqrt (d a : BitVec 5) (f : BitVec 2)
  /-- `fmin` (R244). -/
  | fmin (d a b : BitVec 5) (f : BitVec 2)
  /-- `fmax` (R244). -/
  | fmax (d a b : BitVec 5) (f : BitVec 2)
  /-- `fmacc` (R244). -/
  | fmacc (d a b : BitVec 5) (f : BitVec 2)
  /-- `fsgnj` (R244). -/
  | fsgnj (d a b : BitVec 5) (f : BitVec 2)
  /-- `fsgnjn` (R244). -/
  | fsgnjn (d a b : BitVec 5) (f : BitVec 2)
  /-- `fsgnjx` (R244). -/
  | fsgnjx (d a b : BitVec 5) (f : BitVec 2)
  /-- `feq` (R244). -/
  | feq (d a b : BitVec 5) (f : BitVec 2)
  /-- `flt` (R244). -/
  | flt (d a b : BitVec 5) (f : BitVec 2)
  /-- `fle` (R244). -/
  | fle (d a b : BitVec 5) (f : BitVec 2)
  /-- `fkind` (R244). -/
  | fkind (d a : BitVec 5) (f : BitVec 2)
  /-- `fcvt.f` (R244). -/
  | fcvtF (d a : BitVec 5) (f s : BitVec 2)
  /-- `fcvt.i` (R244). -/
  | fcvtI (d a : BitVec 5) (f : BitVec 2)
  /-- `fcvt.i.rtz` (R244). -/
  | fcvtIRtz (d a : BitVec 5) (f : BitVec 2)
  /-- `fcvt.iu` (R244). -/
  | fcvtIu (d a : BitVec 5) (f : BitVec 2)
  /-- `fcvt.iu.rtz` (R244). -/
  | fcvtIuRtz (d a : BitVec 5) (f : BitVec 2)
  /-- `fcvt.fi` (R244). -/
  | fcvtFi (d a : BitVec 5) (f : BitVec 2)
  /-- `fcvt.fiu` (R244). -/
  | fcvtFiu (d a : BitVec 5) (f : BitVec 2)
  /-- `beq` (R296). -/
  | beq (a b : BitVec 5) (o : BitVec 13)
  /-- `bne` (R296). -/
  | bne (a b : BitVec 5) (o : BitVec 13)
  /-- `blt` (R296). -/
  | blt (a b : BitVec 5) (o : BitVec 13)
  /-- `bge` (R296). -/
  | bge (a b : BitVec 5) (o : BitVec 13)
  /-- `bltu` (R296). -/
  | bltu (a b : BitVec 5) (o : BitVec 13)
  /-- `bgeu` (R296). -/
  | bgeu (a b : BitVec 5) (o : BitVec 13)
  /-- `jal` (R297). -/
  | jal (d : BitVec 5) (o : BitVec 21)
  /-- `jalr` (R297). -/
  | jalr (d a : BitVec 5) (i : BitVec 16)
  /-- `sptest` (R83). -/
  | sptest (d a : BitVec 5)
  /-- `spcast.chk` (R83). -/
  | spcastChk (d a : BitVec 5) (w : BitVec 2)
  /-- `spcast.mk` (R83). -/
  | spcastMk (d a : BitVec 5) (w : BitVec 2)
  /-- `spcast.off` (R83). -/
  | spcastOff (d a : BitVec 5) (w : BitVec 2)
  /-- `vrun` (R306). -/
  | vrun (d a : BitVec 5)
  /-- `rqpop` (R307). -/
  | rqpop (d t : BitVec 5) (r : BitVec 1)
  /-- `vsync` (R308). -/
  | vsync (d t : BitVec 5) (r : BitVec 1)
  /-- `vrel` (R285). -/
  | vrel (d : BitVec 5)
  /-- `spawn` (R310). -/
  | spawn (d a : BitVec 5)
  /-- `exit` (R286). -/
  | exit
  /-- `onew.swarm` (R341). -/
  | onewSwarm (d a : BitVec 5)
  /-- `onew.latch` (R341). -/
  | onewLatch (d a : BitVec 5)
  /-- `onew.chan` (R341). -/
  | onewChan (d a : BitVec 5)
  /-- `ofree` (R342). -/
  | ofree (d a : BitVec 5)
  /-- `swjoin` (R347). -/
  | swjoin (d a t : BitVec 5) (r : BitVec 1)
  /-- `swleave` (R348). -/
  | swleave (d a : BitVec 5)
  /-- `swbar` (R345). -/
  | swbar (d a t : BitVec 5) (r : BitVec 1)
  /-- `step` (R345). -/
  | step (d a t : BitVec 5) (r : BitVec 1)
  /-- `acq` (R352). -/
  | acq (d a t : BitVec 5) (r : BitVec 1)
  /-- `rel` (R353). -/
  | rel (d a : BitVec 5)
  /-- `mend` (R354). -/
  | mend (d a : BitVec 5)
  /-- `adopt` (R354). -/
  | adopt (d a : BitVec 5)
  /-- `send` (R357). -/
  | send (d a t : BitVec 5) (r : BitVec 1)
  /-- `recv` (R358). -/
  | recv (d a t : BitVec 5) (r : BitVec 1)
  /-- `nap` (R359). -/
  | nap (d t : BitVec 5) (r : BitVec 1)
  /-- `elease.copy` (R135). -/
  | eleaseCopy (d a t : BitVec 5) (r : BitVec 1)
  /-- `elease.comp` (R135). -/
  | eleaseComp (d a t : BitVec 5) (r : BitVec 1)
  /-- `elease.coll` (R135). -/
  | eleaseColl (d a t : BitVec 5) (r : BitVec 1)
  /-- `elease.renew` (R135). -/
  | eleaseRenew (d a t : BitVec 5) (r : BitVec 1)
  /-- `efree` (R136). -/
  | efree (d a : BitVec 5)
  /-- `ecopy` (R143). -/
  | ecopy (d a t : BitVec 5) (r : BitVec 1)
  /-- `ecopy.tfill` (R143). -/
  | ecopyTfill (d a t : BitVec 5) (r : BitVec 1)
  /-- `ecomp` (R144). -/
  | ecomp (d a t : BitVec 5) (r : BitVec 1)
  /-- `ecoll` (R145). -/
  | ecoll (d a t : BitVec 5) (r : BitVec 1)
  /-- `estat` (R147). -/
  | estat (d a : BitVec 5)
  /-- `ewait` (R147). -/
  | ewait (d a t : BitVec 5) (r : BitVec 1)
  /-- `tstat` (R148). -/
  | tstat (d : BitVec 5) (n : BitVec 4)
  /-- `twait` (R150). -/
  | twait (d : BitVec 5) (n : BitVec 4) (t : BitVec 5) (r : BitVec 1)
  /-- `tset.empty` (R149). -/
  | tsetEmpty (d : BitVec 5) (n : BitVec 4)
  /-- `tset.ready` (R149). -/
  | tsetReady (d : BitVec 5) (n : BitVec 4)
  /-- `tdrain` (R150). -/
  | tdrain (d a t : BitVec 5) (r : BitVec 1)
  /-- `fence` (R368). -/
  | fence (s : BitVec 3)
  /-- `fence.acq` (R368). -/
  | fenceAcq (s : BitVec 3)
  /-- `fence.rel` (R368). -/
  | fenceRel (s : BitVec 3)
  /-- `cfgrd` (R301). -/
  | cfgrd (d : BitVec 5) (i : BitVec 12)
  /-- `cfgwr` (R301). -/
  | cfgwr (a : BitVec 5) (i : BitVec 12)
  /-- `trap` (R304). -/
  | trap (c : BitVec 12)
  /-- `tret` (R399). -/
  | tret
  /-- `brk` (R304). -/
  | brk (c : BitVec 12)
  /-- `tmark` (R304). -/
  | tmark (a : BitVec 5) (c : BitVec 12)
  /-- `creg.new` (R107). -/
  | cregNew (d a : BitVec 5)
  /-- `creg.free` (R108). -/
  | cregFree (d a : BitVec 5)
  /-- `creg.find` (R108). -/
  | cregFind (d a : BitVec 5)
  /-- `vcfg` (R182). -/
  | vcfg (d : BitVec 5) (n : BitVec 2)
  /-- `vsetl` (R184). -/
  | vsetl (c : BitVec 1) (d : BitVec 4) (a : BitVec 6) (g : BitVec 2) (y s : BitVec 3)
  /-- `vsetl.max` (R184). -/
  | vsetlMax (c : BitVec 1) (d : BitVec 4) (g : BitVec 2) (y s : BitVec 3)
  /-- `vloop` (R314). -/
  | vloop (c : BitVec 1) (l : BitVec 2) (f : BitVec 10) (n : BitVec 6)
  /-- `vloop.r` (R315). -/
  | vloopR (c : BitVec 1) (l : BitVec 2) (f : BitVec 10) (n : BitVec 6) (s : BitVec 2)
  /-- `vlend` (R314). -/
  | vlend (c : BitVec 1) (l : BitVec 2) (b : BitVec 10)
  /-- `vexit` (R316). -/
  | vexit (c : BitVec 1) (l : BitVec 2) (m : BitVec 3)
  /-- `vreply` (R316). -/
  | vreply (c : BitVec 1) (r k : BitVec 6)
  /-- `vend` (R283). -/
  | vend (c : BitVec 1)
  /-- `sadd` (R317). -/
  | sadd (c : BitVec 1) (d : BitVec 4) (a b : BitVec 6)
  /-- `ssub` (R317). -/
  | ssub (c : BitVec 1) (d : BitVec 4) (a b : BitVec 6)
  /-- `sand` (R317). -/
  | sand (c : BitVec 1) (d : BitVec 4) (a b : BitVec 6)
  /-- `sor` (R317). -/
  | sor (c : BitVec 1) (d : BitVec 4) (a b : BitVec 6)
  /-- `sxor` (R317). -/
  | sxor (c : BitVec 1) (d : BitVec 4) (a b : BitVec 6)
  /-- `ssll` (R317). -/
  | ssll (c : BitVec 1) (d : BitVec 4) (a b : BitVec 6)
  /-- `ssrl` (R317). -/
  | ssrl (c : BitVec 1) (d : BitVec 4) (a b : BitVec 6)
  /-- `smul` (R317). -/
  | smul (c : BitVec 1) (d : BitVec 4) (a b : BitVec 6)
  /-- `sminu` (R317). -/
  | sminu (c : BitVec 1) (d : BitVec 4) (a b : BitVec 6)
  /-- `smaxu` (R317). -/
  | smaxu (c : BitVec 1) (d : BitVec 4) (a b : BitVec 6)
  /-- `saddi` (R317). -/
  | saddi (c : BitVec 1) (d : BitVec 4) (a i : BitVec 6)
  /-- `sli` (R317). -/
  | sli (c : BitVec 1) (d : BitVec 4) (i : BitVec 12)
  /-- `vcfgrd` (R318). -/
  | vcfgrd (c : BitVec 1) (d : BitVec 4) (r : BitVec 12)
  /-- `vld` (R158). -/
  | vld (c : BitVec 1) (v : BitVec 6) (b : BitVec 5) (m : BitVec 3) (h : BitVec 1)
  /-- `vld.bo` (R156). -/
  | vldBo (c : BitVec 1) (v : BitVec 6) (b : BitVec 5) (o : BitVec 6) (m : BitVec 3) (h : BitVec 1)
  /-- `vld.s` (R155). -/
  | vldS (c : BitVec 1) (v : BitVec 6) (b : BitVec 5) (s : BitVec 6) (m : BitVec 3) (h : BitVec 1)
  /-- `vld.t` (R155). -/
  | vldT (c : BitVec 1) (v : BitVec 6) (b : BitVec 5) (t : BitVec 4) (m : BitVec 3) (h : BitVec 1)
  /-- `vld.ff` (R162). -/
  | vldFf (c : BitVec 1) (v : BitVec 6) (b : BitVec 5) (m : BitVec 3) (h : BitVec 1)
  /-- `vld.ff.bo` (R162). -/
  | vldFfBo (c : BitVec 1) (v : BitVec 6) (b : BitVec 5) (o : BitVec 6) (m : BitVec 3) (h : BitVec 1)
  /-- `vldx` (R155). -/
  | vldx (c : BitVec 1) (v : BitVec 6) (b : BitVec 5) (i : BitVec 6) (m : BitVec 3) (w : BitVec 2) (s : BitVec 1)
  /-- `vldd` (R168). -/
  | vldd (c : BitVec 1) (v : BitVec 6) (b : BitVec 5) (m : BitVec 3)
  /-- `vldd.x` (R168). -/
  | vlddX (c : BitVec 1) (v : BitVec 6) (b : BitVec 5) (i : BitVec 6) (m : BitVec 3) (w : BitVec 2)
  /-- `vst` (R158). -/
  | vst (c : BitVec 1) (v : BitVec 6) (b : BitVec 5) (m : BitVec 3) (h : BitVec 1)
  /-- `vst.s` (R155). -/
  | vstS (c : BitVec 1) (v : BitVec 6) (b : BitVec 5) (s : BitVec 6) (m : BitVec 3) (h : BitVec 1)
  /-- `vst.t` (R155). -/
  | vstT (c : BitVec 1) (v : BitVec 6) (b : BitVec 5) (t : BitVec 4) (m : BitVec 3) (h : BitVec 1)
  /-- `vst.app` (R171). -/
  | vstApp (c : BitVec 1) (v : BitVec 6) (b : BitVec 5) (r m : BitVec 3) (h : BitVec 1)
  /-- `vstx` (R155). -/
  | vstx (c : BitVec 1) (v : BitVec 6) (b : BitVec 5) (i : BitVec 6) (m : BitVec 3) (w : BitVec 2) (s : BitVec 1)
  /-- `vstd` (R169). -/
  | vstd (c : BitVec 1) (v : BitVec 6) (b : BitVec 5) (f : BitVec 3)
  /-- `vbop.add` (R127). -/
  | vbopAdd (c : BitVec 1) (v : BitVec 6) (b : BitVec 5) (i : BitVec 6) (m : BitVec 3) (p : BitVec 2)
  /-- `vbop.and` (R127). -/
  | vbopAnd (c : BitVec 1) (v : BitVec 6) (b : BitVec 5) (i : BitVec 6) (m : BitVec 3) (p : BitVec 2)
  /-- `vbop.or` (R127). -/
  | vbopOr (c : BitVec 1) (v : BitVec 6) (b : BitVec 5) (i : BitVec 6) (m : BitVec 3) (p : BitVec 2)
  /-- `vbop.xor` (R127). -/
  | vbopXor (c : BitVec 1) (v : BitVec 6) (b : BitVec 5) (i : BitVec 6) (m : BitVec 3) (p : BitVec 2)
  /-- `vbop.smin` (R127). -/
  | vbopSmin (c : BitVec 1) (v : BitVec 6) (b : BitVec 5) (i : BitVec 6) (m : BitVec 3) (p : BitVec 2)
  /-- `vbop.smax` (R127). -/
  | vbopSmax (c : BitVec 1) (v : BitVec 6) (b : BitVec 5) (i : BitVec 6) (m : BitVec 3) (p : BitVec 2)
  /-- `vbop.fadd` (R127). -/
  | vbopFadd (c : BitVec 1) (v : BitVec 6) (b : BitVec 5) (i : BitVec 6) (m : BitVec 3) (p : BitVec 2)
  /-- `vbop.qadd` (R127). -/
  | vbopQadd (c : BitVec 1) (v : BitVec 6) (b : BitVec 5) (i : BitVec 6) (m : BitVec 3) (p : BitVec 2)
  /-- `vadd` (R213). -/
  | vaddVv (c : BitVec 1) (d a b : BitVec 6) (m : BitVec 3)
  /-- `vadd` (R213). -/
  | vaddVi (c : BitVec 1) (d a i : BitVec 6) (m : BitVec 3)
  /-- `vadd` (R213). -/
  | vaddVx (c : BitVec 1) (d a x : BitVec 6) (m : BitVec 3)
  /-- `vsub` (R213). -/
  | vsubVv (c : BitVec 1) (d a b : BitVec 6) (m : BitVec 3)
  /-- `vsub` (R213). -/
  | vsubVx (c : BitVec 1) (d a x : BitVec 6) (m : BitVec 3)
  /-- `vrsub` (R213). -/
  | vrsubVx (c : BitVec 1) (d a x : BitVec 6) (m : BitVec 3)
  /-- `vrsub` (R213). -/
  | vrsubVi (c : BitVec 1) (d a i : BitVec 6) (m : BitVec 3)
  /-- `vmul` (R213). -/
  | vmulVv (c : BitVec 1) (d a b : BitVec 6) (m : BitVec 3)
  /-- `vmul` (R213). -/
  | vmulVx (c : BitVec 1) (d a x : BitVec 6) (m : BitVec 3)
  /-- `vmulh` (R213). -/
  | vmulh (c : BitVec 1) (d a b : BitVec 6) (m : BitVec 3)
  /-- `vmulhu` (R213). -/
  | vmulhuVv (c : BitVec 1) (d a b : BitVec 6) (m : BitVec 3)
  /-- `vmulhu` (R213). -/
  | vmulhuVx (c : BitVec 1) (d a x : BitVec 6) (m : BitVec 3)
  /-- `vmulhsu` (R213). -/
  | vmulhsu (c : BitVec 1) (d a b : BitVec 6) (m : BitVec 3)
  /-- `vsadd` (R213). -/
  | vsadd (c : BitVec 1) (d a b : BitVec 6) (m : BitVec 3)
  /-- `vsaddu` (R213). -/
  | vsaddu (c : BitVec 1) (d a b : BitVec 6) (m : BitVec 3)
  /-- `vssub` (R213). -/
  | vssub (c : BitVec 1) (d a b : BitVec 6) (m : BitVec 3)
  /-- `vand` (R214). -/
  | vandVv (c : BitVec 1) (d a b : BitVec 6) (m : BitVec 3)
  /-- `vand` (R214). -/
  | vandVx (c : BitVec 1) (d a x : BitVec 6) (m : BitVec 3)
  /-- `vor` (R214). -/
  | vorVv (c : BitVec 1) (d a b : BitVec 6) (m : BitVec 3)
  /-- `vor` (R214). -/
  | vorVx (c : BitVec 1) (d a x : BitVec 6) (m : BitVec 3)
  /-- `vxor` (R214). -/
  | vxorVv (c : BitVec 1) (d a b : BitVec 6) (m : BitVec 3)
  /-- `vxor` (R214). -/
  | vxorVi (c : BitVec 1) (d a i : BitVec 6) (m : BitVec 3)
  /-- `vxor` (R214). -/
  | vxorVx (c : BitVec 1) (d a x : BitVec 6) (m : BitVec 3)
  /-- `vandn` (R214). -/
  | vandn (c : BitVec 1) (d a b : BitVec 6) (m : BitVec 3)
  /-- `vmerge` (R215). -/
  | vmergeVv (c : BitVec 1) (d a b : BitVec 6) (m : BitVec 3)
  /-- `vmerge` (R215). -/
  | vmergeVx (c : BitVec 1) (d a x : BitVec 6) (m : BitVec 3)
  /-- `vmerge` (R215). -/
  | vmergeVi (c : BitVec 1) (d a i : BitVec 6) (m : BitVec 3)
  /-- `vmin` (R214). -/
  | vmin (c : BitVec 1) (d a b : BitVec 6) (m : BitVec 3)
  /-- `vminu` (R214). -/
  | vminu (c : BitVec 1) (d a b : BitVec 6) (m : BitVec 3)
  /-- `vmax` (R214). -/
  | vmax (c : BitVec 1) (d a b : BitVec 6) (m : BitVec 3)
  /-- `vmaxu` (R214). -/
  | vmaxu (c : BitVec 1) (d a b : BitVec 6) (m : BitVec 3)
  /-- `vssubu` (R214). -/
  | vssubu (c : BitVec 1) (d a b : BitVec 6) (m : BitVec 3)
  /-- `vsll` (R216). -/
  | vsllVv (c : BitVec 1) (d a b : BitVec 6) (m : BitVec 3)
  /-- `vsll` (R216). -/
  | vsllVi (c : BitVec 1) (d a : BitVec 6) (i : BitVec 5) (m : BitVec 3)
  /-- `vsrl` (R216). -/
  | vsrlVv (c : BitVec 1) (d a b : BitVec 6) (m : BitVec 3)
  /-- `vsrl` (R216). -/
  | vsrlVi (c : BitVec 1) (d a : BitVec 6) (i : BitVec 5) (m : BitVec 3)
  /-- `vsra` (R216). -/
  | vsraVv (c : BitVec 1) (d a b : BitVec 6) (m : BitVec 3)
  /-- `vsra` (R216). -/
  | vsraVi (c : BitVec 1) (d a : BitVec 6) (i : BitVec 5) (m : BitVec 3)
  /-- `vmseq` (R217). -/
  | vmseqVv (c : BitVec 1) (d : BitVec 3) (a b : BitVec 6) (m : BitVec 3)
  /-- `vmseq` (R217). -/
  | vmseqVx (c : BitVec 1) (d : BitVec 3) (a x : BitVec 6) (m : BitVec 3)
  /-- `vmsne` (R217). -/
  | vmsne (c : BitVec 1) (d : BitVec 3) (a b : BitVec 6) (m : BitVec 3)
  /-- `vmslt` (R217). -/
  | vmslt (c : BitVec 1) (d : BitVec 3) (a b : BitVec 6) (m : BitVec 3)
  /-- `vmsltu` (R217). -/
  | vmsltuVv (c : BitVec 1) (d : BitVec 3) (a b : BitVec 6) (m : BitVec 3)
  /-- `vmsle` (R217). -/
  | vmsle (c : BitVec 1) (d : BitVec 3) (a b : BitVec 6) (m : BitVec 3)
  /-- `vmsleu` (R217). -/
  | vmsleu (c : BitVec 1) (d : BitVec 3) (a b : BitVec 6) (m : BitVec 3)
  /-- `vmsgt` (R217). -/
  | vmsgt (c : BitVec 1) (d : BitVec 3) (a x : BitVec 6) (m : BitVec 3)
  /-- `vmsgtu` (R217). -/
  | vmsgtu (c : BitVec 1) (d : BitVec 3) (a x : BitVec 6) (m : BitVec 3)
  /-- `vmsltu` (R217). -/
  | vmsltuVx (c : BitVec 1) (d : BitVec 3) (a x : BitVec 6) (m : BitVec 3)
  /-- `vbsl` (R219). -/
  | vbslVx (c : BitVec 1) (d a x : BitVec 6)
  /-- `vbsl` (R219). -/
  | vbslVi (c : BitVec 1) (d a : BitVec 6) (i : BitVec 5)
  /-- `vbsr` (R219). -/
  | vbsrVx (c : BitVec 1) (d a x : BitVec 6)
  /-- `vbsr` (R219). -/
  | vbsrVi (c : BitVec 1) (d a : BitVec 6) (i : BitVec 5)
  /-- `vfsl` (R219). -/
  | vfsl (c : BitVec 1) (d a x : BitVec 6)
  /-- `vfsr` (R219). -/
  | vfsr (c : BitVec 1) (d a x : BitVec 6)
  /-- `vpopc` (R220). -/
  | vpopc (c : BitVec 1) (d a : BitVec 6) (m : BitVec 3)
  /-- `vclz` (R220). -/
  | vclz (c : BitVec 1) (d a : BitVec 6) (m : BitVec 3)
  /-- `vctz` (R220). -/
  | vctz (c : BitVec 1) (d a : BitVec 6) (m : BitVec 3)
  /-- `vbrev` (R220). -/
  | vbrev (c : BitVec 1) (d a : BitVec 6) (m : BitVec 3)
  /-- `vxch` (R222). -/
  | vxchVx (c : BitVec 1) (d a x : BitVec 6) (m : BitVec 3)
  /-- `vxch` (R222). -/
  | vxchVi (c : BitVec 1) (d a : BitVec 6) (i : BitVec 4) (m : BitVec 3)
  /-- `vslideup` (R222). -/
  | vslideupVx (c : BitVec 1) (d a x : BitVec 6) (m : BitVec 3)
  /-- `vslideup` (R222). -/
  | vslideupVi (c : BitVec 1) (d a : BitVec 6) (i : BitVec 5) (m : BitVec 3)
  /-- `vslidedn` (R222). -/
  | vslidednVx (c : BitVec 1) (d a x : BitVec 6) (m : BitVec 3)
  /-- `vslidedn` (R222). -/
  | vslidednVi (c : BitVec 1) (d a : BitVec 6) (i : BitVec 5) (m : BitVec 3)
  /-- `vslide1up` (R222). -/
  | vslide1up (c : BitVec 1) (d a x : BitVec 6) (m : BitVec 3)
  /-- `vslide1dn` (R222). -/
  | vslide1dn (c : BitVec 1) (d a x : BitVec 6) (m : BitVec 3)
  /-- `vpull` (R223). -/
  | vpullVv (c : BitVec 1) (d a b : BitVec 6) (m : BitVec 3)
  /-- `vpull` (R223). -/
  | vpullVx (c : BitVec 1) (d a x : BitVec 6) (m : BitVec 3)
  /-- `vpush` (R223). -/
  | vpush (c : BitVec 1) (d a b : BitVec 6) (m : BitVec 3)
  /-- `vcompress` (R224). -/
  | vcompress (c : BitVec 1) (d a : BitVec 6) (m : BitVec 3)
  /-- `vextr` (R224). -/
  | vextr (c : BitVec 1) (d : BitVec 4) (a x : BitVec 6)
  /-- `vredsum` (R225). -/
  | vredsum (c : BitVec 1) (d a b : BitVec 6) (m : BitVec 3)
  /-- `vredsums` (R225). -/
  | vredsums (c : BitVec 1) (d a b : BitVec 6) (m : BitVec 3)
  /-- `vredmax` (R225). -/
  | vredmax (c : BitVec 1) (d a b : BitVec 6) (m : BitVec 3)
  /-- `vredmaxu` (R225). -/
  | vredmaxu (c : BitVec 1) (d a b : BitVec 6) (m : BitVec 3)
  /-- `vredmin` (R225). -/
  | vredmin (c : BitVec 1) (d a b : BitVec 6) (m : BitVec 3)
  /-- `vredminu` (R225). -/
  | vredminu (c : BitVec 1) (d a b : BitVec 6) (m : BitVec 3)
  /-- `vredand` (R225). -/
  | vredand (c : BitVec 1) (d a b : BitVec 6) (m : BitVec 3)
  /-- `vredor` (R225). -/
  | vredor (c : BitVec 1) (d a b : BitVec 6) (m : BitVec 3)
  /-- `vredxor` (R225). -/
  | vredxor (c : BitVec 1) (d a b : BitVec 6) (m : BitVec 3)
  /-- `vscansum` (R226). -/
  | vscansum (c : BitVec 1) (d a b : BitVec 6) (m : BitVec 3)
  /-- `vscanmax` (R226). -/
  | vscanmax (c : BitVec 1) (d a b : BitVec 6) (m : BitVec 3)
  /-- `vscanmin` (R226). -/
  | vscanmin (c : BitVec 1) (d a b : BitVec 6) (m : BitVec 3)
  /-- `vxscansum` (R226). -/
  | vxscansum (c : BitVec 1) (d a b : BitVec 6) (m : BitVec 3)
  /-- `vscanmaxu` (R226). -/
  | vscanmaxu (c : BitVec 1) (d a b : BitVec 6) (m : BitVec 3)
  /-- `vscanminu` (R226). -/
  | vscanminu (c : BitVec 1) (d a b : BitVec 6) (m : BitVec 3)
  /-- `mkand` (R227). -/
  | mkand (c : BitVec 1) (d a b m : BitVec 3)
  /-- `mkor` (R227). -/
  | mkor (c : BitVec 1) (d a b m : BitVec 3)
  /-- `mkxor` (R227). -/
  | mkxor (c : BitVec 1) (d a b m : BitVec 3)
  /-- `mkandn` (R227). -/
  | mkandn (c : BitVec 1) (d a b m : BitVec 3)
  /-- `mknot` (R227). -/
  | mknot (c : BitVec 1) (d a m : BitVec 3)
  /-- `mkfill` (R227). -/
  | mkfill (c : BitVec 1) (d m : BitVec 3)
  /-- `mkspread.i` (R228). -/
  | mkspreadI (c : BitVec 1) (d a m : BitVec 3)
  /-- `mkspread.x` (R228). -/
  | mkspreadX (c : BitVec 1) (d a m : BitVec 3)
  /-- `mkparity` (R228). -/
  | mkparity (c : BitVec 1) (d a m : BitVec 3)
  /-- `mkfirst` (R228). -/
  | mkfirst (c : BitVec 1) (d a m : BitVec 3)
  /-- `mkcount` (R228). -/
  | mkcount (c : BitVec 1) (d : BitVec 4) (a m : BitVec 3)
  /-- `mkfind` (R228). -/
  | mkfind (c : BitVec 1) (d : BitVec 4) (a m : BitVec 3)
  /-- `mkfind.l` (R228). -/
  | mkfindL (c : BitVec 1) (d : BitVec 4) (a m : BitVec 3)
  /-- `vrank` (R228). -/
  | vrank (c : BitVec 1) (d : BitVec 6) (a m : BitVec 3)
  /-- `vfadd` (R233). -/
  | vfaddVv (c : BitVec 1) (d a b : BitVec 6) (m : BitVec 3)
  /-- `vfadd` (R233). -/
  | vfaddVx (c : BitVec 1) (d a x : BitVec 6) (m : BitVec 3)
  /-- `vfsub` (R233). -/
  | vfsubVv (c : BitVec 1) (d a b : BitVec 6) (m : BitVec 3)
  /-- `vfsub` (R233). -/
  | vfsubVx (c : BitVec 1) (d a x : BitVec 6) (m : BitVec 3)
  /-- `vfrsub` (R233). -/
  | vfrsub (c : BitVec 1) (d a x : BitVec 6) (m : BitVec 3)
  /-- `vfmul` (R233). -/
  | vfmulVv (c : BitVec 1) (d a b : BitVec 6) (m : BitVec 3)
  /-- `vfmul` (R233). -/
  | vfmulVx (c : BitVec 1) (d a x : BitVec 6) (m : BitVec 3)
  /-- `vfdiv` (R233). -/
  | vfdivVv (c : BitVec 1) (d a b : BitVec 6) (m : BitVec 3)
  /-- `vfdiv` (R233). -/
  | vfdivVx (c : BitVec 1) (d a x : BitVec 6) (m : BitVec 3)
  /-- `vfrdiv` (R233). -/
  | vfrdiv (c : BitVec 1) (d a x : BitVec 6) (m : BitVec 3)
  /-- `vfsqrt` (R233). -/
  | vfsqrt (c : BitVec 1) (d a : BitVec 6) (m : BitVec 3)
  /-- `vfmin` (R233). -/
  | vfmin (c : BitVec 1) (d a b : BitVec 6) (m : BitVec 3)
  /-- `vfmax` (R233). -/
  | vfmax (c : BitVec 1) (d a b : BitVec 6) (m : BitVec 3)
  /-- `vfsgnj` (R233). -/
  | vfsgnj (c : BitVec 1) (d a b : BitVec 6) (m : BitVec 3)
  /-- `vfsgnjn` (R233). -/
  | vfsgnjn (c : BitVec 1) (d a b : BitVec 6) (m : BitVec 3)
  /-- `vfsgnjx` (R233). -/
  | vfsgnjx (c : BitVec 1) (d a b : BitVec 6) (m : BitVec 3)
  /-- `vfmac.pp` (R234). -/
  | vfmacPpVv (c : BitVec 1) (d a b : BitVec 6) (m : BitVec 3)
  /-- `vfmac.pp` (R234). -/
  | vfmacPpVx (c : BitVec 1) (d a x : BitVec 6) (m : BitVec 3)
  /-- `vfmac.nn` (R234). -/
  | vfmacNn (c : BitVec 1) (d a b : BitVec 6) (m : BitVec 3)
  /-- `vfmac.pn` (R234). -/
  | vfmacPn (c : BitVec 1) (d a b : BitVec 6) (m : BitVec 3)
  /-- `vfmac.np` (R234). -/
  | vfmacNp (c : BitVec 1) (d a b : BitVec 6) (m : BitVec 3)
  /-- `vfmad` (R234). -/
  | vfmad (c : BitVec 1) (d a b : BitVec 6) (m : BitVec 3)
  /-- `vfcmp.eq` (R235). -/
  | vfcmpEqVv (c : BitVec 1) (d : BitVec 3) (a b : BitVec 6) (m : BitVec 3)
  /-- `vfcmp.eq` (R235). -/
  | vfcmpEqVx (c : BitVec 1) (d : BitVec 3) (a x : BitVec 6) (m : BitVec 3)
  /-- `vfcmp.lt` (R235). -/
  | vfcmpLtVv (c : BitVec 1) (d : BitVec 3) (a b : BitVec 6) (m : BitVec 3)
  /-- `vfcmp.le` (R235). -/
  | vfcmpLe (c : BitVec 1) (d : BitVec 3) (a b : BitVec 6) (m : BitVec 3)
  /-- `vfcmp.gt` (R235). -/
  | vfcmpGt (c : BitVec 1) (d : BitVec 3) (a x : BitVec 6) (m : BitVec 3)
  /-- `vfcmp.ge` (R235). -/
  | vfcmpGe (c : BitVec 1) (d : BitVec 3) (a x : BitVec 6) (m : BitVec 3)
  /-- `vfcmp.lt` (R235). -/
  | vfcmpLtVx (c : BitVec 1) (d : BitVec 3) (a x : BitVec 6) (m : BitVec 3)
  /-- `vfcmp.ne` (R235). -/
  | vfcmpNe (c : BitVec 1) (d : BitVec 3) (a b : BitVec 6) (m : BitVec 3)
  /-- `vfkind` (R236). -/
  | vfkind (c : BitVec 1) (d a : BitVec 6) (m : BitVec 3)
  /-- `vfcmp.un` (R235). -/
  | vfcmpUn (c : BitVec 1) (d : BitVec 3) (a b : BitVec 6) (m : BitVec 3)
  /-- `vfcvt` (R238). -/
  | vfcvt (c : BitVec 1) (d a : BitVec 6) (y z m : BitVec 3)
  /-- `vfcvt.u` (R238). -/
  | vfcvtU (c : BitVec 1) (d a : BitVec 6) (y z m : BitVec 3)
  /-- `vfcvt.rtz` (R238). -/
  | vfcvtRtz (c : BitVec 1) (d a : BitVec 6) (y z m : BitVec 3)
  /-- `vfcvt.u.rtz` (R238). -/
  | vfcvtURtz (c : BitVec 1) (d a : BitVec 6) (y z m : BitVec 3)
  /-- `vdrescale` (R240). -/
  | vdrescale (c : BitVec 1) (d a x : BitVec 6) (m : BitVec 3)
  /-- `vfsum.o` (R241). -/
  | vfsumO (c : BitVec 1) (d a b : BitVec 6) (m : BitVec 3)
  /-- `vfsum.t` (R241). -/
  | vfsumT (c : BitVec 1) (d a b : BitVec 6) (m : BitVec 3)
  /-- `vfredmax` (R241). -/
  | vfredmax (c : BitVec 1) (d a b : BitVec 6) (m : BitVec 3)
  /-- `vfredmin` (R241). -/
  | vfredmin (c : BitVec 1) (d a b : BitVec 6) (m : BitVec 3)
  /-- `vrand` (R242). -/
  | vrand (c : BitVec 1) (d : BitVec 6) (m : BitVec 3)
  /-- `vqadd` (R252). -/
  | vqaddVv (c : BitVec 1) (d a b : BitVec 6) (m : BitVec 3)
  /-- `vqadd` (R252). -/
  | vqaddVx (c : BitVec 1) (d a x : BitVec 6) (m : BitVec 3)
  /-- `vqsub` (R252). -/
  | vqsubVv (c : BitVec 1) (d a b : BitVec 6) (m : BitVec 3)
  /-- `vqsub` (R252). -/
  | vqsubVx (c : BitVec 1) (d a x : BitVec 6) (m : BitVec 3)
  /-- `vqrsub` (R252). -/
  | vqrsub (c : BitVec 1) (d a x : BitVec 6) (m : BitVec 3)
  /-- `vqmul` (R252). -/
  | vqmulVv (c : BitVec 1) (d a b : BitVec 6) (m : BitVec 3)
  /-- `vqmul` (R252). -/
  | vqmulVx (c : BitVec 1) (d a x : BitVec 6) (m : BitVec 3)
  /-- `vqdiv` (R252). -/
  | vqdivVv (c : BitVec 1) (d a b : BitVec 6) (m : BitVec 3)
  /-- `vqdiv` (R252). -/
  | vqdivVx (c : BitVec 1) (d a x : BitVec 6) (m : BitVec 3)
  /-- `vqrdiv` (R252). -/
  | vqrdiv (c : BitVec 1) (d a x : BitVec 6) (m : BitVec 3)
  /-- `vqneg` (R252). -/
  | vqneg (c : BitVec 1) (d a : BitVec 6) (m : BitVec 3)
  /-- `vqinv` (R252). -/
  | vqinv (c : BitVec 1) (d a : BitVec 6) (m : BitVec 3)
  /-- `vqmacc` (R252). -/
  | vqmaccVv (c : BitVec 1) (d a b : BitVec 6) (m : BitVec 3)
  /-- `vqmacc` (R252). -/
  | vqmaccVx (c : BitVec 1) (d a x : BitVec 6) (m : BitVec 3)
  /-- `vqeq` (R254). -/
  | vqeqVv (c : BitVec 1) (d : BitVec 3) (a b : BitVec 6) (m : BitVec 3)
  /-- `vqeq` (R254). -/
  | vqeqVx (c : BitVec 1) (d : BitVec 3) (a x : BitVec 6) (m : BitVec 3)
  /-- `vqenc` (R256). -/
  | vqencVv (c : BitVec 1) (d a b : BitVec 6) (m : BitVec 3)
  /-- `vqenc` (R256). -/
  | vqencVx (c : BitVec 1) (d a x : BitVec 6) (m : BitVec 3)
  /-- `vqenc` (R256). -/
  | vqencVi (c : BitVec 1) (d a : BitVec 6) (i : BitVec 5) (m : BitVec 3)
  /-- `vqdec` (R257). -/
  | vqdec (c : BitVec 1) (d a : BitVec 6) (m : BitVec 3)
  /-- `vqdig` (R258). -/
  | vqdigVx (c : BitVec 1) (d a x : BitVec 6) (m : BitVec 3)
  /-- `vqdig` (R258). -/
  | vqdigVi (c : BitVec 1) (d a : BitVec 6) (i : BitVec 5) (m : BitVec 3)
  /-- `vqval` (R258). -/
  | vqval (c : BitVec 1) (d a : BitVec 6) (m : BitVec 3)
  /-- `mmrow` (R268). -/
  | mmrow (c : BitVec 1) (d a : BitVec 6) (s l : BitVec 2) (o : BitVec 5) (f : BitVec 4)
  /-- `mwld` (R271). -/
  | mwld (c : BitVec 1) (t : BitVec 4) (s : BitVec 2) (f : BitVec 4)
  /-- `mwclr` (R271). -/
  | mwclr (c : BitVec 1) (s : BitVec 2)
  /-- `vpclr` (R190). -/
  | vpclr (c : BitVec 1) (d : BitVec 6)
  /-- `vpmclr` (R190). -/
  | vpmclr (c : BitVec 1)
  /-- `vpmask` (R190). -/
  | vpmask (c : BitVec 1) (d : BitVec 3) (a : BitVec 6)
  /-- `vid` (R190). -/
  | vid (c : BitVec 1) (d : BitVec 6)
  /-- `vmv.r` (R190). -/
  | vmvR (c : BitVec 1) (d a : BitVec 6) (n : BitVec 2)
  /-- `vst.bo` (R156). -/
  | vstBo (c : BitVec 1) (v : BitVec 6) (b : BitVec 5) (o : BitVec 6) (m : BitVec 3) (h : BitVec 1)
  /-- `BAD_WORD` (R41). -/
  | badWord (w : BitVec 32) (unc : Bool)
  /-- `FETCH_FAULT` (R297). -/
  | fetchFault
  /-- `HART_KILL` (R287). -/
  | hartKill (hid : Nat)
  /-- `CHIP_INCARNATION_ANNOUNCEMENT` (R26). -/
  | chipIncarnationAnnouncement (chip : Nat) (inc : BitVec 12)
  /-- `FABRIC_FRAME_DROP` (R461). -/
  | fabricFrameDrop (fr : Frame)
  /-- `TENBOOT_COMPLETE` (R291). -/
  | tenbootComplete (tag : Nat)
  /-- `UNBINDING_COMPLETE` (R384). -/
  | unbindingComplete (core slot : Nat)
deriving DecidableEq, Repr

end Sys2Proof
end

