-- ==== Sys2Proof/WellFormed.lean ====
section
/-! DEFINITION. Which field values an instruction may hold (R41, check 5): the reserved values that the fields of an
encoding still allow. A term that fails a check here has no word that decodes to it. -/

namespace Sys2Proof

/-- A scalar-side code names a register (R36). -/
def codeOk (x : BitVec 6) : Bool := x.toNat < 20

/-- A base code of format V-M names a register (R36). -/
def baseOk (b : BitVec 5) : Bool := b.toNat < 20

/-- A scope code is assigned (R122, R368). -/
def scopeOk (s : BitVec 3) : Bool := s.toNat < 5

/-- A pair of type class and width code is one of the thirteen types (R183). -/
def typeOk (y s : BitVec 3) : Bool :=
  [(0, 4), (0, 0), (0, 1), (0, 2), (0, 3), (1, 1), (1, 2), (1, 3), (2, 1), (3, 4), (3, 5), (3, 0), (4, 3)].contains
    (y.toNat, s.toNat)

/-- A source type of a conversion: a type other than q (R230, R237). -/
def cvtTypeOk (y s : BitVec 3) : Bool := typeOk y s && y != 4

/-- The addressing of a bank operation: 3 is reserved, and the index field is 0 unless indexed (R126). -/
def bopOk (p : BitVec 2) (i : BitVec 6) : Bool := p != 3 && (p == 1 || i == 0)

/-- An unmasked merge leaves its va field 0 (R215). -/
def mergeOk (m : BitVec 3) (a : BitVec 6) : Bool := m != 0 || a == 0

/-- A matrix format code is assigned (R266). -/
def fmtOk (f : BitVec 4) : Bool := f.toNat < 12

/-- The instruction holds no reserved field value. -/
def wellFormed : Instr → Bool
  | .amoSwap _ _ _ _ _ s => scopeOk s
  | .amoCas _ _ _ _ _ s => scopeOk s
  | .amoAdd _ _ _ _ _ s => scopeOk s
  | .amoAnd _ _ _ _ _ s => scopeOk s
  | .amoOr _ _ _ _ _ s => scopeOk s
  | .amoXor _ _ _ _ _ s => scopeOk s
  | .amoSmin _ _ _ _ _ s => scopeOk s
  | .amoSmax _ _ _ _ _ s => scopeOk s
  | .amoUmin _ _ _ _ _ s => scopeOk s
  | .amoUmax _ _ _ _ _ s => scopeOk s
  | .amoLd _ _ _ _ s => scopeOk s
  | .amoFadd _ _ _ _ _ s => scopeOk s
  | .amoFmin _ _ _ _ _ s => scopeOk s
  | .amoFmax _ _ _ _ _ s => scopeOk s
  | .amoQadd _ _ _ _ s => scopeOk s
  | .amoQmul _ _ _ _ s => scopeOk s
  | .fence s => scopeOk s
  | .fenceAcq s => scopeOk s
  | .fenceRel s => scopeOk s
  | .vsetl _ _ a _ y s => codeOk a && typeOk y s
  | .vsetlMax _ _ _ y s => typeOk y s
  | .vloop _ _ f n => f != 0 && codeOk n
  | .vloopR _ _ f n s => f != 0 && codeOk n && s != 0
  | .vlend _ _ b => b != 0
  | .vreply _ r _ => codeOk r
  | .sadd _ _ a b => codeOk a && codeOk b
  | .ssub _ _ a b => codeOk a && codeOk b
  | .sand _ _ a b => codeOk a && codeOk b
  | .sor _ _ a b => codeOk a && codeOk b
  | .sxor _ _ a b => codeOk a && codeOk b
  | .ssll _ _ a b => codeOk a && codeOk b
  | .ssrl _ _ a b => codeOk a && codeOk b
  | .smul _ _ a b => codeOk a && codeOk b
  | .sminu _ _ a b => codeOk a && codeOk b
  | .smaxu _ _ a b => codeOk a && codeOk b
  | .saddi _ _ a _ => codeOk a
  | .vld _ _ b _ _ => baseOk b
  | .vldBo _ _ b o _ _ => baseOk b && codeOk o
  | .vldS _ _ b s _ _ => baseOk b && codeOk s
  | .vldT _ _ b _ _ _ => baseOk b
  | .vldFf _ _ b _ _ => baseOk b
  | .vldFfBo _ _ b o _ _ => baseOk b && codeOk o
  | .vldx _ _ b _ _ _ _ => baseOk b
  | .vldd _ _ b _ => baseOk b
  | .vlddX _ _ b _ _ w => baseOk b && w != 0
  | .vst _ _ b _ _ => baseOk b
  | .vstS _ _ b s _ _ => baseOk b && codeOk s
  | .vstT _ _ b _ _ _ => baseOk b
  | .vstApp _ _ b _ _ _ => baseOk b
  | .vstx _ _ b _ _ _ _ => baseOk b
  | .vstd _ _ b f => baseOk b && f != 0
  | .vbopAdd _ _ b i _ p => baseOk b && bopOk p i
  | .vbopAnd _ _ b i _ p => baseOk b && bopOk p i
  | .vbopOr _ _ b i _ p => baseOk b && bopOk p i
  | .vbopXor _ _ b i _ p => baseOk b && bopOk p i
  | .vbopSmin _ _ b i _ p => baseOk b && bopOk p i
  | .vbopSmax _ _ b i _ p => baseOk b && bopOk p i
  | .vbopFadd _ _ b i _ p => baseOk b && bopOk p i
  | .vbopQadd _ _ b i _ p => baseOk b && bopOk p i
  | .vaddVx _ _ _ x _ => codeOk x
  | .vsubVx _ _ _ x _ => codeOk x
  | .vrsubVx _ _ _ x _ => codeOk x
  | .vmulVx _ _ _ x _ => codeOk x
  | .vmulhuVx _ _ _ x _ => codeOk x
  | .vandVx _ _ _ x _ => codeOk x
  | .vorVx _ _ _ x _ => codeOk x
  | .vxorVx _ _ _ x _ => codeOk x
  | .vmergeVv _ _ a _ m => mergeOk m a
  | .vmergeVx _ _ a x m => codeOk x && mergeOk m a
  | .vmergeVi _ _ a _ m => mergeOk m a
  | .vmseqVv _ d _ _ _ => d != 0
  | .vmseqVx _ d _ x _ => codeOk x && d != 0
  | .vmsne _ d _ _ _ => d != 0
  | .vmslt _ d _ _ _ => d != 0
  | .vmsltuVv _ d _ _ _ => d != 0
  | .vmsle _ d _ _ _ => d != 0
  | .vmsleu _ d _ _ _ => d != 0
  | .vmsgt _ d _ x _ => codeOk x && d != 0
  | .vmsgtu _ d _ x _ => codeOk x && d != 0
  | .vmsltuVx _ d _ x _ => codeOk x && d != 0
  | .vbslVx _ _ _ x => codeOk x
  | .vbsrVx _ _ _ x => codeOk x
  | .vfsl _ _ _ x => codeOk x
  | .vfsr _ _ _ x => codeOk x
  | .vxchVx _ _ _ x _ => codeOk x
  | .vslideupVx _ _ _ x _ => codeOk x
  | .vslidednVx _ _ _ x _ => codeOk x
  | .vslide1up _ _ _ x _ => codeOk x
  | .vslide1dn _ _ _ x _ => codeOk x
  | .vpullVx _ _ _ x _ => codeOk x
  | .vextr _ _ _ x => codeOk x
  | .mkand _ d a b _ => d != 0 && a != 0 && b != 0
  | .mkor _ d a b _ => d != 0 && a != 0 && b != 0
  | .mkxor _ d a b _ => d != 0 && a != 0 && b != 0
  | .mkandn _ d a b _ => d != 0 && a != 0 && b != 0
  | .mknot _ d a _ => d != 0 && a != 0
  | .mkfill _ d _ => d != 0
  | .mkspreadI _ d a _ => d != 0 && a != 0
  | .mkspreadX _ d a _ => d != 0 && a != 0
  | .mkparity _ d a _ => d != 0 && a != 0
  | .mkfirst _ d a _ => d != 0 && a != 0
  | .mkcount _ _ a _ => a != 0
  | .mkfind _ _ a _ => a != 0
  | .mkfindL _ _ a _ => a != 0
  | .vrank _ _ a _ => a != 0
  | .vfaddVx _ _ _ x _ => codeOk x
  | .vfsubVx _ _ _ x _ => codeOk x
  | .vfrsub _ _ _ x _ => codeOk x
  | .vfmulVx _ _ _ x _ => codeOk x
  | .vfdivVx _ _ _ x _ => codeOk x
  | .vfrdiv _ _ _ x _ => codeOk x
  | .vfmacPpVx _ _ _ x _ => codeOk x
  | .vfcmpEqVv _ d _ _ _ => d != 0
  | .vfcmpEqVx _ d _ x _ => codeOk x && d != 0
  | .vfcmpLtVv _ d _ _ _ => d != 0
  | .vfcmpLe _ d _ _ _ => d != 0
  | .vfcmpGt _ d _ x _ => codeOk x && d != 0
  | .vfcmpGe _ d _ x _ => codeOk x && d != 0
  | .vfcmpLtVx _ d _ x _ => codeOk x && d != 0
  | .vfcmpNe _ d _ _ _ => d != 0
  | .vfcmpUn _ d _ _ _ => d != 0
  | .vfcvt _ _ _ y z _ => cvtTypeOk y z
  | .vfcvtU _ _ _ y z _ => cvtTypeOk y z
  | .vfcvtRtz _ _ _ y z _ => cvtTypeOk y z
  | .vfcvtURtz _ _ _ y z _ => cvtTypeOk y z
  | .vdrescale _ _ _ x _ => codeOk x
  | .vqaddVx _ _ _ x _ => codeOk x
  | .vqsubVx _ _ _ x _ => codeOk x
  | .vqrsub _ _ _ x _ => codeOk x
  | .vqmulVx _ _ _ x _ => codeOk x
  | .vqdivVx _ _ _ x _ => codeOk x
  | .vqrdiv _ _ _ x _ => codeOk x
  | .vqmaccVx _ _ _ x _ => codeOk x
  | .vqeqVv _ d _ _ _ => d != 0
  | .vqeqVx _ d _ x _ => codeOk x && d != 0
  | .vqencVx _ _ _ x _ => codeOk x
  | .vqdigVx _ _ _ x _ => codeOk x
  | .mmrow _ _ _ _ _ _ f => fmtOk f
  | .mwld _ _ _ f => fmtOk f
  | .vpmask _ d _ => d != 0
  | .vstBo _ _ b o _ _ => baseOk b && codeOk o
  | _ => true

end Sys2Proof
end

