-- ==== Sys2Proof/Decode.lean ====
section
/-! DEFINITION. The decoder, total on every word and rejecting by name, and the encoder. Majors and minors follow the
opcode tables of R39 and R40 and of the owning chapters. `opOf` names the operation of a word, `valuesOk` looks at its
reserved values, and `build` takes the fields. (`build` and what calls it are marked noncomputable only because Lean's
code generator takes no constructor numbered above 244 that has fields; the kernel evaluates them.) -/

namespace Sys2Proof

/-- The operations of major 0x01. -/
def opXop (w : IWord) : Option Op :=
  match w.extractLsb' 0 11 with
  | 0#11 => some .add
  | 1#11 => some .sub
  | 2#11 => some .and
  | 3#11 => some .or
  | 4#11 => some .xor
  | 5#11 => some .sll
  | 6#11 => some .srl
  | 7#11 => some .sra
  | 8#11 => some .sltS
  | 9#11 => some .sltU
  | 16#11 => some .mul
  | 17#11 => some .mulhiSs
  | 18#11 => some .mulhiUu
  | 19#11 => some .mulhiSu
  | 24#11 => some .quoS
  | 25#11 => some .quoU
  | 26#11 => some .remS
  | 27#11 => some .remU
  | 32#11 => some .minS
  | 33#11 => some .maxS
  | 34#11 => some .minU
  | 35#11 => some .maxU
  | _ => none

/-- The operations of major 0x08. -/
def opXshi (w : IWord) : Option Op :=
  match w.extractLsb' 14 2 with
  | 0#2 => if w.extractLsb' 6 8 == 0#8 then some .slli else none
  | 1#2 => if w.extractLsb' 6 8 == 0#8 then some .srli else none
  | 2#2 => if w.extractLsb' 6 8 == 0#8 then some .srai else none
  | _ => none

/-- The operations of major 0x0A. -/
def opLd (w : IWord) : Option Op :=
  match w.extractLsb' 13 3 with
  | 0#3 => some .ldB
  | 1#3 => some .ldH
  | 2#3 => some .ldW
  | 3#3 => some .ldD
  | 4#3 => some .ldBu
  | 5#3 => some .ldHu
  | 6#3 => some .ldWu
  | _ => none

/-- The operations of major 0x0B. -/
def opSt (w : IWord) : Option Op :=
  match w.extractLsb' 13 3 with
  | 0#3 => some .stB
  | 1#3 => some .stH
  | 2#3 => some .stW
  | 3#3 => some .stD
  | _ => none

/-- The operations of major 0x0C. -/
def opAmo (w : IWord) : Option Op :=
  match w.extractLsb' 6 5 with
  | 0#5 => some .amoSwap
  | 1#5 => some .amoCas
  | 2#5 => some .amoAdd
  | 3#5 => some .amoAnd
  | 4#5 => some .amoOr
  | 5#5 => some .amoXor
  | 6#5 => some .amoSmin
  | 7#5 => some .amoSmax
  | 8#5 => some .amoUmin
  | 9#5 => some .amoUmax
  | 10#5 => if w.extractLsb' 11 5 == 0#5 then some .amoLd else none
  | 11#5 => some .amoFadd
  | 12#5 => some .amoFmin
  | 13#5 => some .amoFmax
  | 14#5 => if w.extractLsb' 5 1 == 1#1 then some .amoQadd else none
  | 15#5 => if w.extractLsb' 5 1 == 1#1 then some .amoQmul else none
  | _ => none

/-- The operations of major 0x0D. -/
def opFop (w : IWord) : Option Op :=
  match w.extractLsb' 6 5 with
  | 0#5 => if w.extractLsb' 0 4 == 0#4 then some .fadd else none
  | 1#5 => if w.extractLsb' 0 4 == 0#4 then some .fsub else none
  | 2#5 => if w.extractLsb' 0 4 == 0#4 then some .fmul else none
  | 3#5 => if w.extractLsb' 0 4 == 0#4 then some .fdiv else none
  | 4#5 => if w.extractLsb' 11 5 == 0#5 && w.extractLsb' 0 4 == 0#4 then some .fsqrt else none
  | 5#5 => if w.extractLsb' 0 4 == 0#4 then some .fmin else none
  | 6#5 => if w.extractLsb' 0 4 == 0#4 then some .fmax else none
  | 7#5 => if w.extractLsb' 0 4 == 0#4 then some .fmacc else none
  | 8#5 => if w.extractLsb' 0 4 == 0#4 then some .fsgnj else none
  | 9#5 => if w.extractLsb' 0 4 == 0#4 then some .fsgnjn else none
  | 10#5 => if w.extractLsb' 0 4 == 0#4 then some .fsgnjx else none
  | 11#5 => if w.extractLsb' 0 4 == 0#4 then some .feq else none
  | 12#5 => if w.extractLsb' 0 4 == 0#4 then some .flt else none
  | 13#5 => if w.extractLsb' 0 4 == 0#4 then some .fle else none
  | 14#5 => if w.extractLsb' 11 5 == 0#5 && w.extractLsb' 0 4 == 0#4 then some .fkind else none
  | 15#5 => if w.extractLsb' 11 5 == 0#5 && w.extractLsb' 2 2 == 0#2 then some .fcvtF else none
  | 16#5 =>
    match w.extractLsb' 0 4 with
    | 0#4 => if w.extractLsb' 11 5 == 0#5 then some .fcvtI else none
    | 1#4 => if w.extractLsb' 11 5 == 0#5 then some .fcvtIRtz else none
    | 2#4 => if w.extractLsb' 11 5 == 0#5 then some .fcvtIu else none
    | 3#4 => if w.extractLsb' 11 5 == 0#5 then some .fcvtIuRtz else none
    | _ => none
  | 17#5 =>
    match w.extractLsb' 0 4 with
    | 0#4 => if w.extractLsb' 11 5 == 0#5 then some .fcvtFi else none
    | 2#4 => if w.extractLsb' 11 5 == 0#5 then some .fcvtFiu else none
    | _ => none
  | _ => none

/-- The operations of major 0x0E. -/
def opBr (w : IWord) : Option Op :=
  match w.extractLsb' 13 3 with
  | 0#3 => some .beq
  | 1#3 => some .bne
  | 2#3 => some .blt
  | 3#3 => some .bge
  | 4#3 => some .bltu
  | 5#3 => some .bgeu
  | _ => none

/-- The operations of major 0x11. -/
def opSpace (w : IWord) : Option Op :=
  match w.extractLsb' 8 3 with
  | 0#3 => if w.extractLsb' 11 5 == 0#5 && w.extractLsb' 0 8 == 0#8 then some .sptest else none
  | 1#3 => if w.extractLsb' 11 5 == 0#5 && w.extractLsb' 6 2 == 0#2 && w.extractLsb' 0 4 == 0#4 then some .spcastChk else none
  | 2#3 => if w.extractLsb' 11 5 == 0#5 && w.extractLsb' 6 2 == 0#2 && w.extractLsb' 0 4 == 0#4 then some .spcastMk else none
  | 3#3 => if w.extractLsb' 11 5 == 0#5 && w.extractLsb' 6 2 == 0#2 && w.extractLsb' 0 4 == 0#4 then some .spcastOff else none
  | _ => none

/-- The operations of major 0x12. -/
def opVctl (w : IWord) : Option Op :=
  match w.extractLsb' 7 4 with
  | 0#4 => if w.extractLsb' 11 5 == 0#5 && w.extractLsb' 0 7 == 0#7 then some .vrun else none
  | 1#4 => if w.extractLsb' 16 5 == 0#5 && w.extractLsb' 0 6 == 0#6 then some .rqpop else none
  | 2#4 => if w.extractLsb' 16 5 == 0#5 && w.extractLsb' 0 6 == 0#6 then some .vsync else none
  | 3#4 => if w.extractLsb' 11 10 == 0#10 && w.extractLsb' 0 7 == 0#7 then some .vrel else none
  | _ => none

/-- The operations of major 0x13. -/
def opHart (w : IWord) : Option Op :=
  match w.extractLsb' 0 11 with
  | 0#11 => if w.extractLsb' 11 5 == 0#5 then some .spawn else none
  | 1#11 => if w.extractLsb' 11 15 == 0#15 then some .exit else none
  | _ => none

/-- The operations of major 0x14. -/
def opWait (w : IWord) : Option Op :=
  match w.extractLsb' 7 4 with
  | 0#4 =>
    match w.extractLsb' 0 6 with
    | 0#6 => if w.extractLsb' 11 5 == 0#5 && w.extractLsb' 6 1 == 0#1 then some .onewSwarm else none
    | 1#6 => if w.extractLsb' 11 5 == 0#5 && w.extractLsb' 6 1 == 0#1 then some .onewLatch else none
    | 2#6 => if w.extractLsb' 11 5 == 0#5 && w.extractLsb' 6 1 == 0#1 then some .onewChan else none
    | _ => none
  | 1#4 => if w.extractLsb' 11 5 == 0#5 && w.extractLsb' 6 1 == 0#1 && w.extractLsb' 0 6 == 0#6 then some .ofree else none
  | 2#4 => if w.extractLsb' 0 6 == 0#6 then some .swjoin else none
  | 3#4 => if w.extractLsb' 11 5 == 0#5 && w.extractLsb' 6 1 == 0#1 && w.extractLsb' 0 6 == 0#6 then some .swleave else none
  | 4#4 => if w.extractLsb' 0 6 == 0#6 then some .swbar else none
  | 5#4 => if w.extractLsb' 0 6 == 0#6 then some .step else none
  | 6#4 => if w.extractLsb' 0 6 == 0#6 then some .acq else none
  | 7#4 => if w.extractLsb' 11 5 == 0#5 && w.extractLsb' 6 1 == 0#1 && w.extractLsb' 0 6 == 0#6 then some .rel else none
  | 8#4 => if w.extractLsb' 11 5 == 0#5 && w.extractLsb' 6 1 == 0#1 && w.extractLsb' 0 6 == 0#6 then some .mend else none
  | 9#4 => if w.extractLsb' 11 5 == 0#5 && w.extractLsb' 6 1 == 0#1 && w.extractLsb' 0 6 == 0#6 then some .adopt else none
  | 10#4 => if w.extractLsb' 0 6 == 0#6 then some .send else none
  | 11#4 => if w.extractLsb' 0 6 == 0#6 then some .recv else none
  | 12#4 => if w.extractLsb' 16 5 == 0#5 && w.extractLsb' 0 6 == 0#6 then some .nap else none
  | _ => none

/-- The operations of major 0x15. -/
def opEng (w : IWord) : Option Op :=
  match w.extractLsb' 7 4 with
  | 0#4 =>
    match w.extractLsb' 0 6 with
    | 0#6 => some .eleaseCopy
    | 1#6 => some .eleaseComp
    | 2#6 => some .eleaseColl
    | 4#6 => some .eleaseRenew
    | _ => none
  | 1#4 => if w.extractLsb' 11 5 == 0#5 && w.extractLsb' 6 1 == 0#1 && w.extractLsb' 0 6 == 0#6 then some .efree else none
  | 2#4 =>
    match w.extractLsb' 0 6 with
    | 0#6 => some .ecopy
    | 1#6 => some .ecopyTfill
    | _ => none
  | 3#4 => if w.extractLsb' 0 6 == 0#6 then some .ecomp else none
  | 4#4 => if w.extractLsb' 0 6 == 0#6 then some .ecoll else none
  | 5#4 => if w.extractLsb' 11 5 == 0#5 && w.extractLsb' 6 1 == 0#1 && w.extractLsb' 0 6 == 0#6 then some .estat else none
  | 6#4 => if w.extractLsb' 0 6 == 0#6 then some .ewait else none
  | 7#4 => if w.extractLsb' 20 1 == 0#1 && w.extractLsb' 11 5 == 0#5 && w.extractLsb' 6 1 == 0#1 && w.extractLsb' 0 6 == 0#6 then some .tstat else none
  | 8#4 => if w.extractLsb' 20 1 == 0#1 && w.extractLsb' 0 6 == 0#6 then some .twait else none
  | 9#4 =>
    match w.extractLsb' 0 6 with
    | 0#6 => if w.extractLsb' 20 1 == 0#1 && w.extractLsb' 11 5 == 0#5 && w.extractLsb' 6 1 == 0#1 then some .tsetEmpty else none
    | 2#6 => if w.extractLsb' 20 1 == 0#1 && w.extractLsb' 11 5 == 0#5 && w.extractLsb' 6 1 == 0#1 then some .tsetReady else none
    | _ => none
  | 10#4 => if w.extractLsb' 0 6 == 0#6 then some .tdrain else none
  | _ => none

/-- The operations of major 0x16. -/
def opFence (w : IWord) : Option Op :=
  match w.extractLsb' 3 2 with
  | 0#2 => if w.extractLsb' 5 21 == 0#21 then some .fence else none
  | 1#2 => if w.extractLsb' 5 21 == 0#21 then some .fenceAcq else none
  | 2#2 => if w.extractLsb' 5 21 == 0#21 then some .fenceRel else none
  | _ => none

/-- The operations of major 0x17. -/
def opCfg (w : IWord) : Option Op :=
  match w.extractLsb' 12 4 with
  | 0#4 => if w.extractLsb' 16 5 == 0#5 then some .cfgrd else none
  | 1#4 => if w.extractLsb' 21 5 == 0#5 then some .cfgwr else none
  | _ => none

/-- The operations of major 0x18. -/
def opSys (w : IWord) : Option Op :=
  match w.extractLsb' 12 4 with
  | 0#4 => if w.extractLsb' 16 10 == 0#10 then some .trap else none
  | 1#4 => if w.extractLsb' 16 10 == 0#10 && w.extractLsb' 0 12 == 0#12 then some .tret else none
  | 2#4 => if w.extractLsb' 16 10 == 0#10 then some .brk else none
  | 3#4 => if w.extractLsb' 21 5 == 0#5 then some .tmark else none
  | _ => none

/-- The operations of major 0x19. -/
def opCreg (w : IWord) : Option Op :=
  match w.extractLsb' 8 3 with
  | 0#3 => if w.extractLsb' 11 5 == 0#5 && w.extractLsb' 0 8 == 0#8 then some .cregNew else none
  | 1#3 => if w.extractLsb' 11 5 == 0#5 && w.extractLsb' 0 8 == 0#8 then some .cregFree else none
  | 2#3 => if w.extractLsb' 11 5 == 0#5 && w.extractLsb' 0 8 == 0#8 then some .cregFind else none
  | _ => none

/-- The operations of major 0x1A. -/
def opVcfg (w : IWord) : Option Op :=
  if w.extractLsb' 2 19 == 0#19 then some .vcfg else none

/-- The operations of major 0x20. -/
def opVset (w : IWord) : Option Op :=
  match w.extractLsb' 3 1 with
  | 0#1 => if w.extractLsb' 23 2 == 0#2 && w.extractLsb' 7 1 == 0#1 && w.extractLsb' 0 3 == 0#3 then some .vsetl else none
  | 1#1 => if w.extractLsb' 23 2 == 0#2 && w.extractLsb' 13 6 == 0#6 && w.extractLsb' 7 1 == 0#1 && w.extractLsb' 0 3 == 0#3 then some .vsetlMax else none
  | _ => none

/-- The operations of major 0x21. -/
def opVblk (w : IWord) : Option Op :=
  match w.extractLsb' 2 5 with
  | 0#5 =>
    match w.extractLsb' 0 2 with
    | 0#2 => some .vloop
    | _ => some .vloopR
  | 2#5 =>
    match w.extractLsb' 0 2 with
    | 0#2 => if w.extractLsb' 7 6 == 0#6 then some .vlend else none
    | 1#2 => if w.extractLsb' 10 13 == 0#13 then some .vexit else none
    | 2#2 => if w.extractLsb' 13 6 == 0#6 then some .vreply else none
    | _ => none
  | 4#5 => if w.extractLsb' 7 18 == 0#18 && w.extractLsb' 0 2 == 0#2 then some .vend else none
  | 8#5 =>
    match w.extractLsb' 0 2 with
    | 0#2 => if w.extractLsb' 23 2 == 0#2 then some .sadd else none
    | 1#2 => if w.extractLsb' 23 2 == 0#2 then some .ssub else none
    | 2#2 => if w.extractLsb' 23 2 == 0#2 then some .sand else none
    | 3#2 => if w.extractLsb' 23 2 == 0#2 then some .sor else none
    | _ => none
  | 9#5 =>
    match w.extractLsb' 0 2 with
    | 0#2 => if w.extractLsb' 23 2 == 0#2 then some .sxor else none
    | 1#2 => if w.extractLsb' 23 2 == 0#2 then some .ssll else none
    | 2#2 => if w.extractLsb' 23 2 == 0#2 then some .ssrl else none
    | 3#2 => if w.extractLsb' 23 2 == 0#2 then some .smul else none
    | _ => none
  | 10#5 =>
    match w.extractLsb' 0 2 with
    | 0#2 => if w.extractLsb' 23 2 == 0#2 then some .sminu else none
    | 1#2 => if w.extractLsb' 23 2 == 0#2 then some .smaxu else none
    | _ => none
  | 12#5 =>
    match w.extractLsb' 0 2 with
    | 0#2 => if w.extractLsb' 23 2 == 0#2 then some .saddi else none
    | 1#2 => if w.extractLsb' 23 2 == 0#2 then some .sli else none
    | _ => none
  | 16#5 => if w.extractLsb' 23 2 == 0#2 && w.extractLsb' 0 2 == 0#2 then some .vcfgrd else none
  | _ => none

/-- The operations of major 0x22. -/
def opVld (w : IWord) : Option Op :=
  match w.extractLsb' 2 3 with
  | 0#3 => if w.extractLsb' 8 6 == 0#6 && w.extractLsb' 1 1 == 0#1 then some .vld else none
  | 1#3 => if w.extractLsb' 1 1 == 0#1 then some .vldBo else none
  | 2#3 => if w.extractLsb' 1 1 == 0#1 then some .vldS else none
  | 4#3 => if w.extractLsb' 12 2 == 0#2 && w.extractLsb' 1 1 == 0#1 then some .vldT else none
  | 6#3 => if w.extractLsb' 8 6 == 0#6 && w.extractLsb' 1 1 == 0#1 then some .vldFf else none
  | 7#3 => if w.extractLsb' 1 1 == 0#1 then some .vldFfBo else none
  | _ => none

/-- The operations of major 0x23. -/
def opVldx (w : IWord) : Option Op :=
  if w.extractLsb' 3 2 == 0#2 then some .vldx else none

/-- The operations of major 0x24. -/
def opVldd (w : IWord) : Option Op :=
  match w.extractLsb' 3 2 with
  | 0#2 => if w.extractLsb' 8 6 == 0#6 && w.extractLsb' 0 3 == 0#3 then some .vldd else none
  | 1#2 => if w.extractLsb' 0 1 == 0#1 then some .vlddX else none
  | _ => none

/-- The operations of major 0x25. -/
def opVst (w : IWord) : Option Op :=
  match w.extractLsb' 2 3 with
  | 0#3 => if w.extractLsb' 8 6 == 0#6 && w.extractLsb' 1 1 == 0#1 then some .vst else none
  | 2#3 => if w.extractLsb' 1 1 == 0#1 then some .vstS else none
  | 4#3 => if w.extractLsb' 12 2 == 0#2 && w.extractLsb' 1 1 == 0#1 then some .vstT else none
  | 6#3 => if w.extractLsb' 11 3 == 1#3 && w.extractLsb' 1 1 == 0#1 then some .vstApp else none
  | 1#3 => if w.extractLsb' 1 1 == 0#1 then some .vstBo else none
  | _ => none

/-- The operations of major 0x26. -/
def opVstx (w : IWord) : Option Op :=
  if w.extractLsb' 3 2 == 0#2 then some .vstx else none

/-- The operations of major 0x27. -/
def opVstd (w : IWord) : Option Op :=
  if w.extractLsb' 3 11 == 0#11 then some .vstd else none

/-- The operations of major 0x28. -/
def opVbop (w : IWord) : Option Op :=
  match w.extractLsb' 0 3 with
  | 0#3 => some .vbopAdd
  | 1#3 => some .vbopAnd
  | 2#3 => some .vbopOr
  | 3#3 => some .vbopXor
  | 4#3 => some .vbopSmin
  | 5#3 => some .vbopSmax
  | 6#3 => some .vbopFadd
  | 7#3 => some .vbopQadd
  | _ => none

/-- The operations of major 0x29. -/
def opVint (w : IWord) : Option Op :=
  match w.extractLsb' 0 4 with
  | 0#4 => some .vaddVv
  | 1#4 => some .vaddVi
  | 2#4 => some .vaddVx
  | 3#4 => some .vsubVv
  | 4#4 => some .vsubVx
  | 5#4 => some .vrsubVx
  | 6#4 => some .vrsubVi
  | 7#4 => some .vmulVv
  | 8#4 => some .vmulVx
  | 9#4 => some .vmulh
  | 10#4 => some .vmulhuVv
  | 11#4 => some .vmulhuVx
  | 12#4 => some .vmulhsu
  | 13#4 => some .vsadd
  | 14#4 => some .vsaddu
  | 15#4 => some .vssub
  | _ => none

/-- The operations of major 0x2A. -/
def opVlogic (w : IWord) : Option Op :=
  match w.extractLsb' 0 4 with
  | 0#4 => some .vandVv
  | 1#4 => some .vandVx
  | 2#4 => some .vorVv
  | 3#4 => some .vorVx
  | 4#4 => some .vxorVv
  | 5#4 => some .vxorVi
  | 6#4 => some .vxorVx
  | 7#4 => some .vandn
  | 8#4 => some .vmergeVv
  | 9#4 => some .vmergeVx
  | 10#4 => some .vmergeVi
  | 11#4 => some .vmin
  | 12#4 => some .vminu
  | 13#4 => some .vmax
  | 14#4 => some .vmaxu
  | 15#4 => some .vssubu
  | _ => none

/-- The operations of major 0x2B. -/
def opVshift (w : IWord) : Option Op :=
  match w.extractLsb' 0 4 with
  | 0#4 => some .vsllVv
  | 1#4 => if w.extractLsb' 12 1 == 0#1 then some .vsllVi else none
  | 2#4 => some .vsrlVv
  | 3#4 => if w.extractLsb' 12 1 == 0#1 then some .vsrlVi else none
  | 4#4 => some .vsraVv
  | 5#4 => if w.extractLsb' 12 1 == 0#1 then some .vsraVi else none
  | 6#4 => if w.extractLsb' 22 3 == 0#3 then some .vmseqVv else none
  | 7#4 => if w.extractLsb' 22 3 == 0#3 then some .vmseqVx else none
  | 8#4 => if w.extractLsb' 22 3 == 0#3 then some .vmsne else none
  | 9#4 => if w.extractLsb' 22 3 == 0#3 then some .vmslt else none
  | 10#4 => if w.extractLsb' 22 3 == 0#3 then some .vmsltuVv else none
  | 11#4 => if w.extractLsb' 22 3 == 0#3 then some .vmsle else none
  | 12#4 => if w.extractLsb' 22 3 == 0#3 then some .vmsleu else none
  | 13#4 => if w.extractLsb' 22 3 == 0#3 then some .vmsgt else none
  | 14#4 => if w.extractLsb' 22 3 == 0#3 then some .vmsgtu else none
  | 15#4 => if w.extractLsb' 22 3 == 0#3 then some .vmsltuVx else none
  | _ => none

/-- The operations of major 0x2C. -/
def opVbits (w : IWord) : Option Op :=
  match w.extractLsb' 0 4 with
  | 0#4 => if w.extractLsb' 4 3 == 0#3 then some .vbslVx else none
  | 1#4 => if w.extractLsb' 12 1 == 0#1 && w.extractLsb' 4 3 == 0#3 then some .vbslVi else none
  | 2#4 => if w.extractLsb' 4 3 == 0#3 then some .vbsrVx else none
  | 3#4 => if w.extractLsb' 12 1 == 0#1 && w.extractLsb' 4 3 == 0#3 then some .vbsrVi else none
  | 4#4 => if w.extractLsb' 4 3 == 0#3 then some .vfsl else none
  | 5#4 => if w.extractLsb' 4 3 == 0#3 then some .vfsr else none
  | 6#4 => if w.extractLsb' 7 6 == 0#6 then some .vpopc else none
  | 7#4 => if w.extractLsb' 7 6 == 0#6 then some .vclz else none
  | 8#4 => if w.extractLsb' 7 6 == 0#6 then some .vctz else none
  | 9#4 => if w.extractLsb' 7 6 == 0#6 then some .vbrev else none
  | _ => none

/-- The operations of major 0x2D. -/
def opVperm (w : IWord) : Option Op :=
  match w.extractLsb' 0 4 with
  | 0#4 => some .vxchVx
  | 1#4 => if w.extractLsb' 11 2 == 0#2 then some .vxchVi else none
  | 2#4 => some .vslideupVx
  | 3#4 => if w.extractLsb' 12 1 == 0#1 then some .vslideupVi else none
  | 4#4 => some .vslidednVx
  | 5#4 => if w.extractLsb' 12 1 == 0#1 then some .vslidednVi else none
  | 6#4 => some .vslide1up
  | 7#4 => some .vslide1dn
  | 8#4 => some .vpullVv
  | 9#4 => some .vpullVx
  | 10#4 => some .vpush
  | 11#4 => if w.extractLsb' 7 6 == 0#6 then some .vcompress else none
  | 12#4 => if w.extractLsb' 23 2 == 0#2 && w.extractLsb' 4 3 == 0#3 then some .vextr else none
  | _ => none

/-- The operations of major 0x2E. -/
def opVred (w : IWord) : Option Op :=
  match w.extractLsb' 0 4 with
  | 0#4 => some .vredsum
  | 1#4 => some .vredsums
  | 2#4 => some .vredmax
  | 3#4 => some .vredmaxu
  | 4#4 => some .vredmin
  | 5#4 => some .vredminu
  | 6#4 => some .vredand
  | 7#4 => some .vredor
  | 8#4 => some .vredxor
  | 9#4 => some .vscansum
  | 10#4 => some .vscanmax
  | 11#4 => some .vscanmin
  | 12#4 => some .vxscansum
  | 13#4 => some .vscanmaxu
  | 14#4 => some .vscanminu
  | _ => none

/-- The operations of major 0x2F. -/
def opVmask (w : IWord) : Option Op :=
  match w.extractLsb' 0 4 with
  | 0#4 => if w.extractLsb' 22 3 == 0#3 && w.extractLsb' 16 3 == 0#3 && w.extractLsb' 10 3 == 0#3 then some .mkand else none
  | 1#4 => if w.extractLsb' 22 3 == 0#3 && w.extractLsb' 16 3 == 0#3 && w.extractLsb' 10 3 == 0#3 then some .mkor else none
  | 2#4 => if w.extractLsb' 22 3 == 0#3 && w.extractLsb' 16 3 == 0#3 && w.extractLsb' 10 3 == 0#3 then some .mkxor else none
  | 3#4 => if w.extractLsb' 22 3 == 0#3 && w.extractLsb' 16 3 == 0#3 && w.extractLsb' 10 3 == 0#3 then some .mkandn else none
  | 4#4 => if w.extractLsb' 22 3 == 0#3 && w.extractLsb' 16 3 == 0#3 && w.extractLsb' 7 6 == 0#6 then some .mknot else none
  | 5#4 => if w.extractLsb' 22 3 == 0#3 && w.extractLsb' 7 12 == 0#12 then some .mkfill else none
  | 6#4 => if w.extractLsb' 22 3 == 0#3 && w.extractLsb' 16 3 == 0#3 && w.extractLsb' 7 6 == 0#6 then some .mkspreadI else none
  | 7#4 => if w.extractLsb' 22 3 == 0#3 && w.extractLsb' 16 3 == 0#3 && w.extractLsb' 7 6 == 0#6 then some .mkspreadX else none
  | 8#4 => if w.extractLsb' 22 3 == 0#3 && w.extractLsb' 16 3 == 0#3 && w.extractLsb' 7 6 == 0#6 then some .mkparity else none
  | 9#4 => if w.extractLsb' 22 3 == 0#3 && w.extractLsb' 16 3 == 0#3 && w.extractLsb' 7 6 == 0#6 then some .mkfirst else none
  | 10#4 => if w.extractLsb' 23 2 == 0#2 && w.extractLsb' 16 3 == 0#3 && w.extractLsb' 7 6 == 0#6 then some .mkcount else none
  | 11#4 => if w.extractLsb' 23 2 == 0#2 && w.extractLsb' 16 3 == 0#3 && w.extractLsb' 7 6 == 0#6 then some .mkfind else none
  | 12#4 => if w.extractLsb' 23 2 == 0#2 && w.extractLsb' 16 3 == 0#3 && w.extractLsb' 7 6 == 0#6 then some .mkfindL else none
  | 13#4 => if w.extractLsb' 16 3 == 0#3 && w.extractLsb' 7 6 == 0#6 then some .vrank else none
  | _ => none

/-- The operations of major 0x30. -/
def opVfarith (w : IWord) : Option Op :=
  match w.extractLsb' 0 4 with
  | 0#4 => some .vfaddVv
  | 1#4 => some .vfaddVx
  | 2#4 => some .vfsubVv
  | 3#4 => some .vfsubVx
  | 4#4 => some .vfrsub
  | 5#4 => some .vfmulVv
  | 6#4 => some .vfmulVx
  | 7#4 => some .vfdivVv
  | 8#4 => some .vfdivVx
  | 9#4 => some .vfrdiv
  | 10#4 => if w.extractLsb' 7 6 == 0#6 then some .vfsqrt else none
  | 11#4 => some .vfmin
  | 12#4 => some .vfmax
  | 13#4 => some .vfsgnj
  | 14#4 => some .vfsgnjn
  | 15#4 => some .vfsgnjx
  | _ => none

/-- The operations of major 0x31. -/
def opVfmac (w : IWord) : Option Op :=
  match w.extractLsb' 0 4 with
  | 0#4 => some .vfmacPpVv
  | 1#4 => some .vfmacPpVx
  | 2#4 => some .vfmacNn
  | 3#4 => some .vfmacPn
  | 4#4 => some .vfmacNp
  | 5#4 => some .vfmad
  | 6#4 => if w.extractLsb' 22 3 == 0#3 then some .vfcmpEqVv else none
  | 7#4 => if w.extractLsb' 22 3 == 0#3 then some .vfcmpEqVx else none
  | 8#4 => if w.extractLsb' 22 3 == 0#3 then some .vfcmpLtVv else none
  | 9#4 => if w.extractLsb' 22 3 == 0#3 then some .vfcmpLe else none
  | 10#4 => if w.extractLsb' 22 3 == 0#3 then some .vfcmpGt else none
  | 11#4 => if w.extractLsb' 22 3 == 0#3 then some .vfcmpGe else none
  | 12#4 => if w.extractLsb' 22 3 == 0#3 then some .vfcmpLtVx else none
  | 13#4 => if w.extractLsb' 22 3 == 0#3 then some .vfcmpNe else none
  | 14#4 => if w.extractLsb' 7 6 == 0#6 then some .vfkind else none
  | 15#4 => if w.extractLsb' 22 3 == 0#3 then some .vfcmpUn else none
  | _ => none

/-- The operations of major 0x32. -/
def opVfcvt (w : IWord) : Option Op :=
  match w.extractLsb' 0 4 with
  | 0#4 => some .vfcvt
  | 1#4 => some .vfcvtU
  | 2#4 => some .vfcvtRtz
  | 3#4 => some .vfcvtURtz
  | 4#4 => some .vdrescale
  | _ => none

/-- The operations of major 0x33. -/
def opVfred (w : IWord) : Option Op :=
  match w.extractLsb' 0 4 with
  | 0#4 => some .vfsumO
  | 1#4 => some .vfsumT
  | 2#4 => some .vfredmax
  | 3#4 => some .vfredmin
  | 4#4 => if w.extractLsb' 7 12 == 0#12 then some .vrand else none
  | _ => none

/-- The operations of major 0x34. -/
def opVqarith (w : IWord) : Option Op :=
  match w.extractLsb' 0 4 with
  | 0#4 => some .vqaddVv
  | 1#4 => some .vqaddVx
  | 2#4 => some .vqsubVv
  | 3#4 => some .vqsubVx
  | 4#4 => some .vqrsub
  | 5#4 => some .vqmulVv
  | 6#4 => some .vqmulVx
  | 7#4 => some .vqdivVv
  | 8#4 => some .vqdivVx
  | 9#4 => some .vqrdiv
  | 10#4 => if w.extractLsb' 7 6 == 0#6 then some .vqneg else none
  | 11#4 => if w.extractLsb' 7 6 == 0#6 then some .vqinv else none
  | 12#4 => some .vqmaccVv
  | 13#4 => some .vqmaccVx
  | 14#4 => if w.extractLsb' 22 3 == 0#3 then some .vqeqVv else none
  | 15#4 => if w.extractLsb' 22 3 == 0#3 then some .vqeqVx else none
  | _ => none

/-- The operations of major 0x35. -/
def opVqcode (w : IWord) : Option Op :=
  match w.extractLsb' 0 4 with
  | 0#4 => some .vqencVv
  | 1#4 => some .vqencVx
  | 2#4 => if w.extractLsb' 12 1 == 0#1 then some .vqencVi else none
  | 3#4 => if w.extractLsb' 7 6 == 0#6 then some .vqdec else none
  | 4#4 => some .vqdigVx
  | 5#4 => if w.extractLsb' 12 1 == 0#1 then some .vqdigVi else none
  | 6#4 => if w.extractLsb' 7 6 == 0#6 then some .vqval else none
  | _ => none

/-- The operations of major 0x37. -/
def opMslot (w : IWord) : Option Op :=
  match w.extractLsb' 19 6 with
  | 0#6 => if w.extractLsb' 17 2 == 0#2 && w.extractLsb' 4 7 == 0#7 then some .mwld else none
  | 1#6 => if w.extractLsb' 13 6 == 0#6 && w.extractLsb' 0 11 == 0#11 then some .mwclr else none
  | _ => none

/-- The operations of major 0x38. -/
def opVmisc (w : IWord) : Option Op :=
  match w.extractLsb' 0 7 with
  | 0#7 => if w.extractLsb' 7 12 == 0#12 then some .vpclr else none
  | 1#7 => if w.extractLsb' 7 18 == 0#18 then some .vpmclr else none
  | 2#7 => if w.extractLsb' 22 3 == 0#3 && w.extractLsb' 7 6 == 0#6 then some .vpmask else none
  | 3#7 => if w.extractLsb' 7 12 == 0#12 then some .vid else none
  | 4#7 => if w.extractLsb' 9 4 == 0#4 then some .vmvR else none
  | _ => none

/-- The operation that a word names, before reserved field values are looked at (R29, R39, R40): none where the major or
the minor is unassigned or a reserved field is not zero. -/
def opOf (w : IWord) : Option Op :=
  match w.extractLsb' 26 6 with
  | 1#6 => opXop w
  | 2#6 => some .addi
  | 3#6 => some .andi
  | 4#6 => some .ori
  | 5#6 => some .xori
  | 6#6 => some .slti
  | 7#6 => some .sltiu
  | 8#6 => opXshi w
  | 9#6 => some .lhi
  | 10#6 => opLd w
  | 11#6 => opSt w
  | 12#6 => opAmo w
  | 13#6 => opFop w
  | 14#6 => opBr w
  | 15#6 => some .jal
  | 16#6 => some .jalr
  | 17#6 => opSpace w
  | 18#6 => opVctl w
  | 19#6 => opHart w
  | 20#6 => opWait w
  | 21#6 => opEng w
  | 22#6 => opFence w
  | 23#6 => opCfg w
  | 24#6 => opSys w
  | 25#6 => opCreg w
  | 26#6 => opVcfg w
  | 32#6 => opVset w
  | 33#6 => opVblk w
  | 34#6 => opVld w
  | 35#6 => opVldx w
  | 36#6 => opVldd w
  | 37#6 => opVst w
  | 38#6 => opVstx w
  | 39#6 => opVstd w
  | 40#6 => opVbop w
  | 41#6 => opVint w
  | 42#6 => opVlogic w
  | 43#6 => opVshift w
  | 44#6 => opVbits w
  | 45#6 => opVperm w
  | 46#6 => opVred w
  | 47#6 => opVmask w
  | 48#6 => opVfarith w
  | 49#6 => opVfmac w
  | 50#6 => opVfcvt w
  | 51#6 => opVfred w
  | 52#6 => opVqarith w
  | 53#6 => opVqcode w
  | 54#6 => some .mmrow
  | 55#6 => opMslot w
  | 56#6 => opVmisc w
  | _ => none

/-- The fields of a word that names an operation hold no reserved value (R41, check 5). -/
def valuesOk (w : IWord) : Op → Bool
  | .amoSwap | .amoCas | .amoAdd | .amoAnd | .amoOr | .amoXor | .amoSmin | .amoSmax | .amoUmin | .amoUmax | .amoLd
  | .amoFadd | .amoFmin | .amoFmax | .amoQadd | .amoQmul | .fence | .fenceAcq | .fenceRel =>
    scopeOk (w.extractLsb' 0 3)
  | .vsetl =>
    codeOk (w.extractLsb' 13 6) && typeOk (w.extractLsb' 8 3) (w.extractLsb' 4 3)
  | .vsetlMax =>
    typeOk (w.extractLsb' 8 3) (w.extractLsb' 4 3)
  | .vloop =>
    (w.extractLsb' 13 10) != 0 && codeOk (w.extractLsb' 7 6)
  | .vloopR =>
    (w.extractLsb' 13 10) != 0 && codeOk (w.extractLsb' 7 6) && (w.extractLsb' 0 2) != 0
  | .vlend =>
    (w.extractLsb' 13 10) != 0
  | .vreply =>
    codeOk (w.extractLsb' 19 6)
  | .sadd | .ssub | .sand | .sor | .sxor | .ssll | .ssrl | .smul | .sminu | .smaxu =>
    codeOk (w.extractLsb' 13 6) && codeOk (w.extractLsb' 7 6)
  | .saddi =>
    codeOk (w.extractLsb' 13 6)
  | .vld | .vldT | .vldFf | .vldx | .vldd | .vst | .vstT | .vstApp | .vstx =>
    baseOk (w.extractLsb' 14 5)
  | .vldBo | .vldS | .vldFfBo | .vstS | .vstBo =>
    baseOk (w.extractLsb' 14 5) && codeOk (w.extractLsb' 8 6)
  | .vlddX =>
    baseOk (w.extractLsb' 14 5) && (w.extractLsb' 1 2) != 0
  | .vstd =>
    baseOk (w.extractLsb' 14 5) && (w.extractLsb' 0 3) != 0
  | .vbopAdd | .vbopAnd | .vbopOr | .vbopXor | .vbopSmin | .vbopSmax | .vbopFadd | .vbopQadd =>
    baseOk (w.extractLsb' 14 5) && bopOk (w.extractLsb' 3 2) (w.extractLsb' 8 6)
  | .vaddVx | .vsubVx | .vrsubVx | .vmulVx | .vmulhuVx | .vandVx | .vorVx | .vxorVx | .vbslVx | .vbsrVx | .vfsl
  | .vfsr | .vxchVx | .vslideupVx | .vslidednVx | .vslide1up | .vslide1dn | .vpullVx | .vextr | .vfaddVx | .vfsubVx
  | .vfrsub | .vfmulVx | .vfdivVx | .vfrdiv | .vfmacPpVx | .vdrescale | .vqaddVx | .vqsubVx | .vqrsub | .vqmulVx
  | .vqdivVx | .vqrdiv | .vqmaccVx | .vqencVx | .vqdigVx =>
    codeOk (w.extractLsb' 7 6)
  | .vmergeVv | .vmergeVi =>
    mergeOk (w.extractLsb' 4 3) (w.extractLsb' 13 6)
  | .vmergeVx =>
    codeOk (w.extractLsb' 7 6) && mergeOk (w.extractLsb' 4 3) (w.extractLsb' 13 6)
  | .vmseqVv | .vmsne | .vmslt | .vmsltuVv | .vmsle | .vmsleu | .mkfill | .vfcmpEqVv | .vfcmpLtVv | .vfcmpLe
  | .vfcmpNe | .vfcmpUn | .vqeqVv | .vpmask =>
    (w.extractLsb' 19 3) != 0
  | .vmseqVx | .vmsgt | .vmsgtu | .vmsltuVx | .vfcmpEqVx | .vfcmpGt | .vfcmpGe | .vfcmpLtVx | .vqeqVx =>
    codeOk (w.extractLsb' 7 6) && (w.extractLsb' 19 3) != 0
  | .mkand | .mkor | .mkxor | .mkandn =>
    (w.extractLsb' 19 3) != 0 && (w.extractLsb' 13 3) != 0 && (w.extractLsb' 7 3) != 0
  | .mknot | .mkspreadI | .mkspreadX | .mkparity | .mkfirst =>
    (w.extractLsb' 19 3) != 0 && (w.extractLsb' 13 3) != 0
  | .mkcount | .mkfind | .mkfindL | .vrank =>
    (w.extractLsb' 13 3) != 0
  | .vfcvt | .vfcvtU | .vfcvtRtz | .vfcvtURtz =>
    cvtTypeOk (w.extractLsb' 10 3) (w.extractLsb' 7 3)
  | .mmrow | .mwld =>
    fmtOk (w.extractLsb' 0 4)
  | _ => true

/-- The instruction of a named operation, its fields taken from the word. -/
noncomputable def build (w : IWord) : Op → Instr
  | .add => .add (w.extractLsb' 21 5) (w.extractLsb' 16 5) (w.extractLsb' 11 5)
  | .sub => .sub (w.extractLsb' 21 5) (w.extractLsb' 16 5) (w.extractLsb' 11 5)
  | .and => .and (w.extractLsb' 21 5) (w.extractLsb' 16 5) (w.extractLsb' 11 5)
  | .or => .or (w.extractLsb' 21 5) (w.extractLsb' 16 5) (w.extractLsb' 11 5)
  | .xor => .xor (w.extractLsb' 21 5) (w.extractLsb' 16 5) (w.extractLsb' 11 5)
  | .sll => .sll (w.extractLsb' 21 5) (w.extractLsb' 16 5) (w.extractLsb' 11 5)
  | .srl => .srl (w.extractLsb' 21 5) (w.extractLsb' 16 5) (w.extractLsb' 11 5)
  | .sra => .sra (w.extractLsb' 21 5) (w.extractLsb' 16 5) (w.extractLsb' 11 5)
  | .sltS => .sltS (w.extractLsb' 21 5) (w.extractLsb' 16 5) (w.extractLsb' 11 5)
  | .sltU => .sltU (w.extractLsb' 21 5) (w.extractLsb' 16 5) (w.extractLsb' 11 5)
  | .mul => .mul (w.extractLsb' 21 5) (w.extractLsb' 16 5) (w.extractLsb' 11 5)
  | .mulhiSs => .mulhiSs (w.extractLsb' 21 5) (w.extractLsb' 16 5) (w.extractLsb' 11 5)
  | .mulhiUu => .mulhiUu (w.extractLsb' 21 5) (w.extractLsb' 16 5) (w.extractLsb' 11 5)
  | .mulhiSu => .mulhiSu (w.extractLsb' 21 5) (w.extractLsb' 16 5) (w.extractLsb' 11 5)
  | .quoS => .quoS (w.extractLsb' 21 5) (w.extractLsb' 16 5) (w.extractLsb' 11 5)
  | .quoU => .quoU (w.extractLsb' 21 5) (w.extractLsb' 16 5) (w.extractLsb' 11 5)
  | .remS => .remS (w.extractLsb' 21 5) (w.extractLsb' 16 5) (w.extractLsb' 11 5)
  | .remU => .remU (w.extractLsb' 21 5) (w.extractLsb' 16 5) (w.extractLsb' 11 5)
  | .minS => .minS (w.extractLsb' 21 5) (w.extractLsb' 16 5) (w.extractLsb' 11 5)
  | .maxS => .maxS (w.extractLsb' 21 5) (w.extractLsb' 16 5) (w.extractLsb' 11 5)
  | .minU => .minU (w.extractLsb' 21 5) (w.extractLsb' 16 5) (w.extractLsb' 11 5)
  | .maxU => .maxU (w.extractLsb' 21 5) (w.extractLsb' 16 5) (w.extractLsb' 11 5)
  | .addi => .addi (w.extractLsb' 21 5) (w.extractLsb' 16 5) (w.extractLsb' 0 16)
  | .andi => .andi (w.extractLsb' 21 5) (w.extractLsb' 16 5) (w.extractLsb' 0 16)
  | .ori => .ori (w.extractLsb' 21 5) (w.extractLsb' 16 5) (w.extractLsb' 0 16)
  | .xori => .xori (w.extractLsb' 21 5) (w.extractLsb' 16 5) (w.extractLsb' 0 16)
  | .slti => .slti (w.extractLsb' 21 5) (w.extractLsb' 16 5) (w.extractLsb' 0 16)
  | .sltiu => .sltiu (w.extractLsb' 21 5) (w.extractLsb' 16 5) (w.extractLsb' 0 16)
  | .slli => .slli (w.extractLsb' 21 5) (w.extractLsb' 16 5) (w.extractLsb' 0 6)
  | .srli => .srli (w.extractLsb' 21 5) (w.extractLsb' 16 5) (w.extractLsb' 0 6)
  | .srai => .srai (w.extractLsb' 21 5) (w.extractLsb' 16 5) (w.extractLsb' 0 6)
  | .lhi => .lhi (w.extractLsb' 21 5) (w.extractLsb' 16 5) (w.extractLsb' 0 16)
  | .ldB => .ldB (w.extractLsb' 21 5) (w.extractLsb' 16 5) (w.extractLsb' 0 13)
  | .ldH => .ldH (w.extractLsb' 21 5) (w.extractLsb' 16 5) (w.extractLsb' 0 13)
  | .ldW => .ldW (w.extractLsb' 21 5) (w.extractLsb' 16 5) (w.extractLsb' 0 13)
  | .ldD => .ldD (w.extractLsb' 21 5) (w.extractLsb' 16 5) (w.extractLsb' 0 13)
  | .ldBu => .ldBu (w.extractLsb' 21 5) (w.extractLsb' 16 5) (w.extractLsb' 0 13)
  | .ldHu => .ldHu (w.extractLsb' 21 5) (w.extractLsb' 16 5) (w.extractLsb' 0 13)
  | .ldWu => .ldWu (w.extractLsb' 21 5) (w.extractLsb' 16 5) (w.extractLsb' 0 13)
  | .stB => .stB (w.extractLsb' 21 5) (w.extractLsb' 16 5) (w.extractLsb' 0 13)
  | .stH => .stH (w.extractLsb' 21 5) (w.extractLsb' 16 5) (w.extractLsb' 0 13)
  | .stW => .stW (w.extractLsb' 21 5) (w.extractLsb' 16 5) (w.extractLsb' 0 13)
  | .stD => .stD (w.extractLsb' 21 5) (w.extractLsb' 16 5) (w.extractLsb' 0 13)
  | .amoSwap => .amoSwap (w.extractLsb' 21 5) (w.extractLsb' 16 5) (w.extractLsb' 11 5) (w.extractLsb' 5 1) (w.extractLsb' 3 2) (w.extractLsb' 0 3)
  | .amoCas => .amoCas (w.extractLsb' 21 5) (w.extractLsb' 16 5) (w.extractLsb' 11 5) (w.extractLsb' 5 1) (w.extractLsb' 3 2) (w.extractLsb' 0 3)
  | .amoAdd => .amoAdd (w.extractLsb' 21 5) (w.extractLsb' 16 5) (w.extractLsb' 11 5) (w.extractLsb' 5 1) (w.extractLsb' 3 2) (w.extractLsb' 0 3)
  | .amoAnd => .amoAnd (w.extractLsb' 21 5) (w.extractLsb' 16 5) (w.extractLsb' 11 5) (w.extractLsb' 5 1) (w.extractLsb' 3 2) (w.extractLsb' 0 3)
  | .amoOr => .amoOr (w.extractLsb' 21 5) (w.extractLsb' 16 5) (w.extractLsb' 11 5) (w.extractLsb' 5 1) (w.extractLsb' 3 2) (w.extractLsb' 0 3)
  | .amoXor => .amoXor (w.extractLsb' 21 5) (w.extractLsb' 16 5) (w.extractLsb' 11 5) (w.extractLsb' 5 1) (w.extractLsb' 3 2) (w.extractLsb' 0 3)
  | .amoSmin => .amoSmin (w.extractLsb' 21 5) (w.extractLsb' 16 5) (w.extractLsb' 11 5) (w.extractLsb' 5 1) (w.extractLsb' 3 2) (w.extractLsb' 0 3)
  | .amoSmax => .amoSmax (w.extractLsb' 21 5) (w.extractLsb' 16 5) (w.extractLsb' 11 5) (w.extractLsb' 5 1) (w.extractLsb' 3 2) (w.extractLsb' 0 3)
  | .amoUmin => .amoUmin (w.extractLsb' 21 5) (w.extractLsb' 16 5) (w.extractLsb' 11 5) (w.extractLsb' 5 1) (w.extractLsb' 3 2) (w.extractLsb' 0 3)
  | .amoUmax => .amoUmax (w.extractLsb' 21 5) (w.extractLsb' 16 5) (w.extractLsb' 11 5) (w.extractLsb' 5 1) (w.extractLsb' 3 2) (w.extractLsb' 0 3)
  | .amoLd => .amoLd (w.extractLsb' 21 5) (w.extractLsb' 16 5) (w.extractLsb' 5 1) (w.extractLsb' 3 2) (w.extractLsb' 0 3)
  | .amoFadd => .amoFadd (w.extractLsb' 21 5) (w.extractLsb' 16 5) (w.extractLsb' 11 5) (w.extractLsb' 5 1) (w.extractLsb' 3 2) (w.extractLsb' 0 3)
  | .amoFmin => .amoFmin (w.extractLsb' 21 5) (w.extractLsb' 16 5) (w.extractLsb' 11 5) (w.extractLsb' 5 1) (w.extractLsb' 3 2) (w.extractLsb' 0 3)
  | .amoFmax => .amoFmax (w.extractLsb' 21 5) (w.extractLsb' 16 5) (w.extractLsb' 11 5) (w.extractLsb' 5 1) (w.extractLsb' 3 2) (w.extractLsb' 0 3)
  | .amoQadd => .amoQadd (w.extractLsb' 21 5) (w.extractLsb' 16 5) (w.extractLsb' 11 5) (w.extractLsb' 3 2) (w.extractLsb' 0 3)
  | .amoQmul => .amoQmul (w.extractLsb' 21 5) (w.extractLsb' 16 5) (w.extractLsb' 11 5) (w.extractLsb' 3 2) (w.extractLsb' 0 3)
  | .fadd => .fadd (w.extractLsb' 21 5) (w.extractLsb' 16 5) (w.extractLsb' 11 5) (w.extractLsb' 4 2)
  | .fsub => .fsub (w.extractLsb' 21 5) (w.extractLsb' 16 5) (w.extractLsb' 11 5) (w.extractLsb' 4 2)
  | .fmul => .fmul (w.extractLsb' 21 5) (w.extractLsb' 16 5) (w.extractLsb' 11 5) (w.extractLsb' 4 2)
  | .fdiv => .fdiv (w.extractLsb' 21 5) (w.extractLsb' 16 5) (w.extractLsb' 11 5) (w.extractLsb' 4 2)
  | .fsqrt => .fsqrt (w.extractLsb' 21 5) (w.extractLsb' 16 5) (w.extractLsb' 4 2)
  | .fmin => .fmin (w.extractLsb' 21 5) (w.extractLsb' 16 5) (w.extractLsb' 11 5) (w.extractLsb' 4 2)
  | .fmax => .fmax (w.extractLsb' 21 5) (w.extractLsb' 16 5) (w.extractLsb' 11 5) (w.extractLsb' 4 2)
  | .fmacc => .fmacc (w.extractLsb' 21 5) (w.extractLsb' 16 5) (w.extractLsb' 11 5) (w.extractLsb' 4 2)
  | .fsgnj => .fsgnj (w.extractLsb' 21 5) (w.extractLsb' 16 5) (w.extractLsb' 11 5) (w.extractLsb' 4 2)
  | .fsgnjn => .fsgnjn (w.extractLsb' 21 5) (w.extractLsb' 16 5) (w.extractLsb' 11 5) (w.extractLsb' 4 2)
  | .fsgnjx => .fsgnjx (w.extractLsb' 21 5) (w.extractLsb' 16 5) (w.extractLsb' 11 5) (w.extractLsb' 4 2)
  | .feq => .feq (w.extractLsb' 21 5) (w.extractLsb' 16 5) (w.extractLsb' 11 5) (w.extractLsb' 4 2)
  | .flt => .flt (w.extractLsb' 21 5) (w.extractLsb' 16 5) (w.extractLsb' 11 5) (w.extractLsb' 4 2)
  | .fle => .fle (w.extractLsb' 21 5) (w.extractLsb' 16 5) (w.extractLsb' 11 5) (w.extractLsb' 4 2)
  | .fkind => .fkind (w.extractLsb' 21 5) (w.extractLsb' 16 5) (w.extractLsb' 4 2)
  | .fcvtF => .fcvtF (w.extractLsb' 21 5) (w.extractLsb' 16 5) (w.extractLsb' 4 2) (w.extractLsb' 0 2)
  | .fcvtI => .fcvtI (w.extractLsb' 21 5) (w.extractLsb' 16 5) (w.extractLsb' 4 2)
  | .fcvtIRtz => .fcvtIRtz (w.extractLsb' 21 5) (w.extractLsb' 16 5) (w.extractLsb' 4 2)
  | .fcvtIu => .fcvtIu (w.extractLsb' 21 5) (w.extractLsb' 16 5) (w.extractLsb' 4 2)
  | .fcvtIuRtz => .fcvtIuRtz (w.extractLsb' 21 5) (w.extractLsb' 16 5) (w.extractLsb' 4 2)
  | .fcvtFi => .fcvtFi (w.extractLsb' 21 5) (w.extractLsb' 16 5) (w.extractLsb' 4 2)
  | .fcvtFiu => .fcvtFiu (w.extractLsb' 21 5) (w.extractLsb' 16 5) (w.extractLsb' 4 2)
  | .beq => .beq (w.extractLsb' 21 5) (w.extractLsb' 16 5) (w.extractLsb' 0 13)
  | .bne => .bne (w.extractLsb' 21 5) (w.extractLsb' 16 5) (w.extractLsb' 0 13)
  | .blt => .blt (w.extractLsb' 21 5) (w.extractLsb' 16 5) (w.extractLsb' 0 13)
  | .bge => .bge (w.extractLsb' 21 5) (w.extractLsb' 16 5) (w.extractLsb' 0 13)
  | .bltu => .bltu (w.extractLsb' 21 5) (w.extractLsb' 16 5) (w.extractLsb' 0 13)
  | .bgeu => .bgeu (w.extractLsb' 21 5) (w.extractLsb' 16 5) (w.extractLsb' 0 13)
  | .jal => .jal (w.extractLsb' 21 5) (w.extractLsb' 0 21)
  | .jalr => .jalr (w.extractLsb' 21 5) (w.extractLsb' 16 5) (w.extractLsb' 0 16)
  | .sptest => .sptest (w.extractLsb' 21 5) (w.extractLsb' 16 5)
  | .spcastChk => .spcastChk (w.extractLsb' 21 5) (w.extractLsb' 16 5) (w.extractLsb' 4 2)
  | .spcastMk => .spcastMk (w.extractLsb' 21 5) (w.extractLsb' 16 5) (w.extractLsb' 4 2)
  | .spcastOff => .spcastOff (w.extractLsb' 21 5) (w.extractLsb' 16 5) (w.extractLsb' 4 2)
  | .vrun => .vrun (w.extractLsb' 21 5) (w.extractLsb' 16 5)
  | .rqpop => .rqpop (w.extractLsb' 21 5) (w.extractLsb' 11 5) (w.extractLsb' 6 1)
  | .vsync => .vsync (w.extractLsb' 21 5) (w.extractLsb' 11 5) (w.extractLsb' 6 1)
  | .vrel => .vrel (w.extractLsb' 21 5)
  | .spawn => .spawn (w.extractLsb' 21 5) (w.extractLsb' 16 5)
  | .exit => .exit
  | .onewSwarm => .onewSwarm (w.extractLsb' 21 5) (w.extractLsb' 16 5)
  | .onewLatch => .onewLatch (w.extractLsb' 21 5) (w.extractLsb' 16 5)
  | .onewChan => .onewChan (w.extractLsb' 21 5) (w.extractLsb' 16 5)
  | .ofree => .ofree (w.extractLsb' 21 5) (w.extractLsb' 16 5)
  | .swjoin => .swjoin (w.extractLsb' 21 5) (w.extractLsb' 16 5) (w.extractLsb' 11 5) (w.extractLsb' 6 1)
  | .swleave => .swleave (w.extractLsb' 21 5) (w.extractLsb' 16 5)
  | .swbar => .swbar (w.extractLsb' 21 5) (w.extractLsb' 16 5) (w.extractLsb' 11 5) (w.extractLsb' 6 1)
  | .step => .step (w.extractLsb' 21 5) (w.extractLsb' 16 5) (w.extractLsb' 11 5) (w.extractLsb' 6 1)
  | .acq => .acq (w.extractLsb' 21 5) (w.extractLsb' 16 5) (w.extractLsb' 11 5) (w.extractLsb' 6 1)
  | .rel => .rel (w.extractLsb' 21 5) (w.extractLsb' 16 5)
  | .mend => .mend (w.extractLsb' 21 5) (w.extractLsb' 16 5)
  | .adopt => .adopt (w.extractLsb' 21 5) (w.extractLsb' 16 5)
  | .send => .send (w.extractLsb' 21 5) (w.extractLsb' 16 5) (w.extractLsb' 11 5) (w.extractLsb' 6 1)
  | .recv => .recv (w.extractLsb' 21 5) (w.extractLsb' 16 5) (w.extractLsb' 11 5) (w.extractLsb' 6 1)
  | .nap => .nap (w.extractLsb' 21 5) (w.extractLsb' 11 5) (w.extractLsb' 6 1)
  | .eleaseCopy => .eleaseCopy (w.extractLsb' 21 5) (w.extractLsb' 16 5) (w.extractLsb' 11 5) (w.extractLsb' 6 1)
  | .eleaseComp => .eleaseComp (w.extractLsb' 21 5) (w.extractLsb' 16 5) (w.extractLsb' 11 5) (w.extractLsb' 6 1)
  | .eleaseColl => .eleaseColl (w.extractLsb' 21 5) (w.extractLsb' 16 5) (w.extractLsb' 11 5) (w.extractLsb' 6 1)
  | .eleaseRenew => .eleaseRenew (w.extractLsb' 21 5) (w.extractLsb' 16 5) (w.extractLsb' 11 5) (w.extractLsb' 6 1)
  | .efree => .efree (w.extractLsb' 21 5) (w.extractLsb' 16 5)
  | .ecopy => .ecopy (w.extractLsb' 21 5) (w.extractLsb' 16 5) (w.extractLsb' 11 5) (w.extractLsb' 6 1)
  | .ecopyTfill => .ecopyTfill (w.extractLsb' 21 5) (w.extractLsb' 16 5) (w.extractLsb' 11 5) (w.extractLsb' 6 1)
  | .ecomp => .ecomp (w.extractLsb' 21 5) (w.extractLsb' 16 5) (w.extractLsb' 11 5) (w.extractLsb' 6 1)
  | .ecoll => .ecoll (w.extractLsb' 21 5) (w.extractLsb' 16 5) (w.extractLsb' 11 5) (w.extractLsb' 6 1)
  | .estat => .estat (w.extractLsb' 21 5) (w.extractLsb' 16 5)
  | .ewait => .ewait (w.extractLsb' 21 5) (w.extractLsb' 16 5) (w.extractLsb' 11 5) (w.extractLsb' 6 1)
  | .tstat => .tstat (w.extractLsb' 21 5) (w.extractLsb' 16 4)
  | .twait => .twait (w.extractLsb' 21 5) (w.extractLsb' 16 4) (w.extractLsb' 11 5) (w.extractLsb' 6 1)
  | .tsetEmpty => .tsetEmpty (w.extractLsb' 21 5) (w.extractLsb' 16 4)
  | .tsetReady => .tsetReady (w.extractLsb' 21 5) (w.extractLsb' 16 4)
  | .tdrain => .tdrain (w.extractLsb' 21 5) (w.extractLsb' 16 5) (w.extractLsb' 11 5) (w.extractLsb' 6 1)
  | .fence => .fence (w.extractLsb' 0 3)
  | .fenceAcq => .fenceAcq (w.extractLsb' 0 3)
  | .fenceRel => .fenceRel (w.extractLsb' 0 3)
  | .cfgrd => .cfgrd (w.extractLsb' 21 5) (w.extractLsb' 0 12)
  | .cfgwr => .cfgwr (w.extractLsb' 16 5) (w.extractLsb' 0 12)
  | .trap => .trap (w.extractLsb' 0 12)
  | .tret => .tret
  | .brk => .brk (w.extractLsb' 0 12)
  | .tmark => .tmark (w.extractLsb' 16 5) (w.extractLsb' 0 12)
  | .cregNew => .cregNew (w.extractLsb' 21 5) (w.extractLsb' 16 5)
  | .cregFree => .cregFree (w.extractLsb' 21 5) (w.extractLsb' 16 5)
  | .cregFind => .cregFind (w.extractLsb' 21 5) (w.extractLsb' 16 5)
  | .vcfg => .vcfg (w.extractLsb' 21 5) (w.extractLsb' 0 2)
  | .vsetl => .vsetl (w.extractLsb' 25 1) (w.extractLsb' 19 4) (w.extractLsb' 13 6) (w.extractLsb' 11 2) (w.extractLsb' 8 3) (w.extractLsb' 4 3)
  | .vsetlMax => .vsetlMax (w.extractLsb' 25 1) (w.extractLsb' 19 4) (w.extractLsb' 11 2) (w.extractLsb' 8 3) (w.extractLsb' 4 3)
  | .vloop => .vloop (w.extractLsb' 25 1) (w.extractLsb' 23 2) (w.extractLsb' 13 10) (w.extractLsb' 7 6)
  | .vloopR => .vloopR (w.extractLsb' 25 1) (w.extractLsb' 23 2) (w.extractLsb' 13 10) (w.extractLsb' 7 6) (w.extractLsb' 0 2)
  | .vlend => .vlend (w.extractLsb' 25 1) (w.extractLsb' 23 2) (w.extractLsb' 13 10)
  | .vexit => .vexit (w.extractLsb' 25 1) (w.extractLsb' 23 2) (w.extractLsb' 7 3)
  | .vreply => .vreply (w.extractLsb' 25 1) (w.extractLsb' 19 6) (w.extractLsb' 7 6)
  | .vend => .vend (w.extractLsb' 25 1)
  | .sadd => .sadd (w.extractLsb' 25 1) (w.extractLsb' 19 4) (w.extractLsb' 13 6) (w.extractLsb' 7 6)
  | .ssub => .ssub (w.extractLsb' 25 1) (w.extractLsb' 19 4) (w.extractLsb' 13 6) (w.extractLsb' 7 6)
  | .sand => .sand (w.extractLsb' 25 1) (w.extractLsb' 19 4) (w.extractLsb' 13 6) (w.extractLsb' 7 6)
  | .sor => .sor (w.extractLsb' 25 1) (w.extractLsb' 19 4) (w.extractLsb' 13 6) (w.extractLsb' 7 6)
  | .sxor => .sxor (w.extractLsb' 25 1) (w.extractLsb' 19 4) (w.extractLsb' 13 6) (w.extractLsb' 7 6)
  | .ssll => .ssll (w.extractLsb' 25 1) (w.extractLsb' 19 4) (w.extractLsb' 13 6) (w.extractLsb' 7 6)
  | .ssrl => .ssrl (w.extractLsb' 25 1) (w.extractLsb' 19 4) (w.extractLsb' 13 6) (w.extractLsb' 7 6)
  | .smul => .smul (w.extractLsb' 25 1) (w.extractLsb' 19 4) (w.extractLsb' 13 6) (w.extractLsb' 7 6)
  | .sminu => .sminu (w.extractLsb' 25 1) (w.extractLsb' 19 4) (w.extractLsb' 13 6) (w.extractLsb' 7 6)
  | .smaxu => .smaxu (w.extractLsb' 25 1) (w.extractLsb' 19 4) (w.extractLsb' 13 6) (w.extractLsb' 7 6)
  | .saddi => .saddi (w.extractLsb' 25 1) (w.extractLsb' 19 4) (w.extractLsb' 13 6) (w.extractLsb' 7 6)
  | .sli => .sli (w.extractLsb' 25 1) (w.extractLsb' 19 4) (w.extractLsb' 7 12)
  | .vcfgrd => .vcfgrd (w.extractLsb' 25 1) (w.extractLsb' 19 4) (w.extractLsb' 7 12)
  | .vld => .vld (w.extractLsb' 25 1) (w.extractLsb' 19 6) (w.extractLsb' 14 5) (w.extractLsb' 5 3) (w.extractLsb' 0 1)
  | .vldBo => .vldBo (w.extractLsb' 25 1) (w.extractLsb' 19 6) (w.extractLsb' 14 5) (w.extractLsb' 8 6) (w.extractLsb' 5 3) (w.extractLsb' 0 1)
  | .vldS => .vldS (w.extractLsb' 25 1) (w.extractLsb' 19 6) (w.extractLsb' 14 5) (w.extractLsb' 8 6) (w.extractLsb' 5 3) (w.extractLsb' 0 1)
  | .vldT => .vldT (w.extractLsb' 25 1) (w.extractLsb' 19 6) (w.extractLsb' 14 5) (w.extractLsb' 8 4) (w.extractLsb' 5 3) (w.extractLsb' 0 1)
  | .vldFf => .vldFf (w.extractLsb' 25 1) (w.extractLsb' 19 6) (w.extractLsb' 14 5) (w.extractLsb' 5 3) (w.extractLsb' 0 1)
  | .vldFfBo => .vldFfBo (w.extractLsb' 25 1) (w.extractLsb' 19 6) (w.extractLsb' 14 5) (w.extractLsb' 8 6) (w.extractLsb' 5 3) (w.extractLsb' 0 1)
  | .vldx => .vldx (w.extractLsb' 25 1) (w.extractLsb' 19 6) (w.extractLsb' 14 5) (w.extractLsb' 8 6) (w.extractLsb' 5 3) (w.extractLsb' 1 2) (w.extractLsb' 0 1)
  | .vldd => .vldd (w.extractLsb' 25 1) (w.extractLsb' 19 6) (w.extractLsb' 14 5) (w.extractLsb' 5 3)
  | .vlddX => .vlddX (w.extractLsb' 25 1) (w.extractLsb' 19 6) (w.extractLsb' 14 5) (w.extractLsb' 8 6) (w.extractLsb' 5 3) (w.extractLsb' 1 2)
  | .vst => .vst (w.extractLsb' 25 1) (w.extractLsb' 19 6) (w.extractLsb' 14 5) (w.extractLsb' 5 3) (w.extractLsb' 0 1)
  | .vstS => .vstS (w.extractLsb' 25 1) (w.extractLsb' 19 6) (w.extractLsb' 14 5) (w.extractLsb' 8 6) (w.extractLsb' 5 3) (w.extractLsb' 0 1)
  | .vstT => .vstT (w.extractLsb' 25 1) (w.extractLsb' 19 6) (w.extractLsb' 14 5) (w.extractLsb' 8 4) (w.extractLsb' 5 3) (w.extractLsb' 0 1)
  | .vstApp => .vstApp (w.extractLsb' 25 1) (w.extractLsb' 19 6) (w.extractLsb' 14 5) (w.extractLsb' 8 3) (w.extractLsb' 5 3) (w.extractLsb' 0 1)
  | .vstx => .vstx (w.extractLsb' 25 1) (w.extractLsb' 19 6) (w.extractLsb' 14 5) (w.extractLsb' 8 6) (w.extractLsb' 5 3) (w.extractLsb' 1 2) (w.extractLsb' 0 1)
  | .vstd => .vstd (w.extractLsb' 25 1) (w.extractLsb' 19 6) (w.extractLsb' 14 5) (w.extractLsb' 0 3)
  | .vbopAdd => .vbopAdd (w.extractLsb' 25 1) (w.extractLsb' 19 6) (w.extractLsb' 14 5) (w.extractLsb' 8 6) (w.extractLsb' 5 3) (w.extractLsb' 3 2)
  | .vbopAnd => .vbopAnd (w.extractLsb' 25 1) (w.extractLsb' 19 6) (w.extractLsb' 14 5) (w.extractLsb' 8 6) (w.extractLsb' 5 3) (w.extractLsb' 3 2)
  | .vbopOr => .vbopOr (w.extractLsb' 25 1) (w.extractLsb' 19 6) (w.extractLsb' 14 5) (w.extractLsb' 8 6) (w.extractLsb' 5 3) (w.extractLsb' 3 2)
  | .vbopXor => .vbopXor (w.extractLsb' 25 1) (w.extractLsb' 19 6) (w.extractLsb' 14 5) (w.extractLsb' 8 6) (w.extractLsb' 5 3) (w.extractLsb' 3 2)
  | .vbopSmin => .vbopSmin (w.extractLsb' 25 1) (w.extractLsb' 19 6) (w.extractLsb' 14 5) (w.extractLsb' 8 6) (w.extractLsb' 5 3) (w.extractLsb' 3 2)
  | .vbopSmax => .vbopSmax (w.extractLsb' 25 1) (w.extractLsb' 19 6) (w.extractLsb' 14 5) (w.extractLsb' 8 6) (w.extractLsb' 5 3) (w.extractLsb' 3 2)
  | .vbopFadd => .vbopFadd (w.extractLsb' 25 1) (w.extractLsb' 19 6) (w.extractLsb' 14 5) (w.extractLsb' 8 6) (w.extractLsb' 5 3) (w.extractLsb' 3 2)
  | .vbopQadd => .vbopQadd (w.extractLsb' 25 1) (w.extractLsb' 19 6) (w.extractLsb' 14 5) (w.extractLsb' 8 6) (w.extractLsb' 5 3) (w.extractLsb' 3 2)
  | .vaddVv => .vaddVv (w.extractLsb' 25 1) (w.extractLsb' 19 6) (w.extractLsb' 13 6) (w.extractLsb' 7 6) (w.extractLsb' 4 3)
  | .vaddVi => .vaddVi (w.extractLsb' 25 1) (w.extractLsb' 19 6) (w.extractLsb' 13 6) (w.extractLsb' 7 6) (w.extractLsb' 4 3)
  | .vaddVx => .vaddVx (w.extractLsb' 25 1) (w.extractLsb' 19 6) (w.extractLsb' 13 6) (w.extractLsb' 7 6) (w.extractLsb' 4 3)
  | .vsubVv => .vsubVv (w.extractLsb' 25 1) (w.extractLsb' 19 6) (w.extractLsb' 13 6) (w.extractLsb' 7 6) (w.extractLsb' 4 3)
  | .vsubVx => .vsubVx (w.extractLsb' 25 1) (w.extractLsb' 19 6) (w.extractLsb' 13 6) (w.extractLsb' 7 6) (w.extractLsb' 4 3)
  | .vrsubVx => .vrsubVx (w.extractLsb' 25 1) (w.extractLsb' 19 6) (w.extractLsb' 13 6) (w.extractLsb' 7 6) (w.extractLsb' 4 3)
  | .vrsubVi => .vrsubVi (w.extractLsb' 25 1) (w.extractLsb' 19 6) (w.extractLsb' 13 6) (w.extractLsb' 7 6) (w.extractLsb' 4 3)
  | .vmulVv => .vmulVv (w.extractLsb' 25 1) (w.extractLsb' 19 6) (w.extractLsb' 13 6) (w.extractLsb' 7 6) (w.extractLsb' 4 3)
  | .vmulVx => .vmulVx (w.extractLsb' 25 1) (w.extractLsb' 19 6) (w.extractLsb' 13 6) (w.extractLsb' 7 6) (w.extractLsb' 4 3)
  | .vmulh => .vmulh (w.extractLsb' 25 1) (w.extractLsb' 19 6) (w.extractLsb' 13 6) (w.extractLsb' 7 6) (w.extractLsb' 4 3)
  | .vmulhuVv => .vmulhuVv (w.extractLsb' 25 1) (w.extractLsb' 19 6) (w.extractLsb' 13 6) (w.extractLsb' 7 6) (w.extractLsb' 4 3)
  | .vmulhuVx => .vmulhuVx (w.extractLsb' 25 1) (w.extractLsb' 19 6) (w.extractLsb' 13 6) (w.extractLsb' 7 6) (w.extractLsb' 4 3)
  | .vmulhsu => .vmulhsu (w.extractLsb' 25 1) (w.extractLsb' 19 6) (w.extractLsb' 13 6) (w.extractLsb' 7 6) (w.extractLsb' 4 3)
  | .vsadd => .vsadd (w.extractLsb' 25 1) (w.extractLsb' 19 6) (w.extractLsb' 13 6) (w.extractLsb' 7 6) (w.extractLsb' 4 3)
  | .vsaddu => .vsaddu (w.extractLsb' 25 1) (w.extractLsb' 19 6) (w.extractLsb' 13 6) (w.extractLsb' 7 6) (w.extractLsb' 4 3)
  | .vssub => .vssub (w.extractLsb' 25 1) (w.extractLsb' 19 6) (w.extractLsb' 13 6) (w.extractLsb' 7 6) (w.extractLsb' 4 3)
  | .vandVv => .vandVv (w.extractLsb' 25 1) (w.extractLsb' 19 6) (w.extractLsb' 13 6) (w.extractLsb' 7 6) (w.extractLsb' 4 3)
  | .vandVx => .vandVx (w.extractLsb' 25 1) (w.extractLsb' 19 6) (w.extractLsb' 13 6) (w.extractLsb' 7 6) (w.extractLsb' 4 3)
  | .vorVv => .vorVv (w.extractLsb' 25 1) (w.extractLsb' 19 6) (w.extractLsb' 13 6) (w.extractLsb' 7 6) (w.extractLsb' 4 3)
  | .vorVx => .vorVx (w.extractLsb' 25 1) (w.extractLsb' 19 6) (w.extractLsb' 13 6) (w.extractLsb' 7 6) (w.extractLsb' 4 3)
  | .vxorVv => .vxorVv (w.extractLsb' 25 1) (w.extractLsb' 19 6) (w.extractLsb' 13 6) (w.extractLsb' 7 6) (w.extractLsb' 4 3)
  | .vxorVi => .vxorVi (w.extractLsb' 25 1) (w.extractLsb' 19 6) (w.extractLsb' 13 6) (w.extractLsb' 7 6) (w.extractLsb' 4 3)
  | .vxorVx => .vxorVx (w.extractLsb' 25 1) (w.extractLsb' 19 6) (w.extractLsb' 13 6) (w.extractLsb' 7 6) (w.extractLsb' 4 3)
  | .vandn => .vandn (w.extractLsb' 25 1) (w.extractLsb' 19 6) (w.extractLsb' 13 6) (w.extractLsb' 7 6) (w.extractLsb' 4 3)
  | .vmergeVv => .vmergeVv (w.extractLsb' 25 1) (w.extractLsb' 19 6) (w.extractLsb' 13 6) (w.extractLsb' 7 6) (w.extractLsb' 4 3)
  | .vmergeVx => .vmergeVx (w.extractLsb' 25 1) (w.extractLsb' 19 6) (w.extractLsb' 13 6) (w.extractLsb' 7 6) (w.extractLsb' 4 3)
  | .vmergeVi => .vmergeVi (w.extractLsb' 25 1) (w.extractLsb' 19 6) (w.extractLsb' 13 6) (w.extractLsb' 7 6) (w.extractLsb' 4 3)
  | .vmin => .vmin (w.extractLsb' 25 1) (w.extractLsb' 19 6) (w.extractLsb' 13 6) (w.extractLsb' 7 6) (w.extractLsb' 4 3)
  | .vminu => .vminu (w.extractLsb' 25 1) (w.extractLsb' 19 6) (w.extractLsb' 13 6) (w.extractLsb' 7 6) (w.extractLsb' 4 3)
  | .vmax => .vmax (w.extractLsb' 25 1) (w.extractLsb' 19 6) (w.extractLsb' 13 6) (w.extractLsb' 7 6) (w.extractLsb' 4 3)
  | .vmaxu => .vmaxu (w.extractLsb' 25 1) (w.extractLsb' 19 6) (w.extractLsb' 13 6) (w.extractLsb' 7 6) (w.extractLsb' 4 3)
  | .vssubu => .vssubu (w.extractLsb' 25 1) (w.extractLsb' 19 6) (w.extractLsb' 13 6) (w.extractLsb' 7 6) (w.extractLsb' 4 3)
  | .vsllVv => .vsllVv (w.extractLsb' 25 1) (w.extractLsb' 19 6) (w.extractLsb' 13 6) (w.extractLsb' 7 6) (w.extractLsb' 4 3)
  | .vsllVi => .vsllVi (w.extractLsb' 25 1) (w.extractLsb' 19 6) (w.extractLsb' 13 6) (w.extractLsb' 7 5) (w.extractLsb' 4 3)
  | .vsrlVv => .vsrlVv (w.extractLsb' 25 1) (w.extractLsb' 19 6) (w.extractLsb' 13 6) (w.extractLsb' 7 6) (w.extractLsb' 4 3)
  | .vsrlVi => .vsrlVi (w.extractLsb' 25 1) (w.extractLsb' 19 6) (w.extractLsb' 13 6) (w.extractLsb' 7 5) (w.extractLsb' 4 3)
  | .vsraVv => .vsraVv (w.extractLsb' 25 1) (w.extractLsb' 19 6) (w.extractLsb' 13 6) (w.extractLsb' 7 6) (w.extractLsb' 4 3)
  | .vsraVi => .vsraVi (w.extractLsb' 25 1) (w.extractLsb' 19 6) (w.extractLsb' 13 6) (w.extractLsb' 7 5) (w.extractLsb' 4 3)
  | .vmseqVv => .vmseqVv (w.extractLsb' 25 1) (w.extractLsb' 19 3) (w.extractLsb' 13 6) (w.extractLsb' 7 6) (w.extractLsb' 4 3)
  | .vmseqVx => .vmseqVx (w.extractLsb' 25 1) (w.extractLsb' 19 3) (w.extractLsb' 13 6) (w.extractLsb' 7 6) (w.extractLsb' 4 3)
  | .vmsne => .vmsne (w.extractLsb' 25 1) (w.extractLsb' 19 3) (w.extractLsb' 13 6) (w.extractLsb' 7 6) (w.extractLsb' 4 3)
  | .vmslt => .vmslt (w.extractLsb' 25 1) (w.extractLsb' 19 3) (w.extractLsb' 13 6) (w.extractLsb' 7 6) (w.extractLsb' 4 3)
  | .vmsltuVv => .vmsltuVv (w.extractLsb' 25 1) (w.extractLsb' 19 3) (w.extractLsb' 13 6) (w.extractLsb' 7 6) (w.extractLsb' 4 3)
  | .vmsle => .vmsle (w.extractLsb' 25 1) (w.extractLsb' 19 3) (w.extractLsb' 13 6) (w.extractLsb' 7 6) (w.extractLsb' 4 3)
  | .vmsleu => .vmsleu (w.extractLsb' 25 1) (w.extractLsb' 19 3) (w.extractLsb' 13 6) (w.extractLsb' 7 6) (w.extractLsb' 4 3)
  | .vmsgt => .vmsgt (w.extractLsb' 25 1) (w.extractLsb' 19 3) (w.extractLsb' 13 6) (w.extractLsb' 7 6) (w.extractLsb' 4 3)
  | .vmsgtu => .vmsgtu (w.extractLsb' 25 1) (w.extractLsb' 19 3) (w.extractLsb' 13 6) (w.extractLsb' 7 6) (w.extractLsb' 4 3)
  | .vmsltuVx => .vmsltuVx (w.extractLsb' 25 1) (w.extractLsb' 19 3) (w.extractLsb' 13 6) (w.extractLsb' 7 6) (w.extractLsb' 4 3)
  | .vbslVx => .vbslVx (w.extractLsb' 25 1) (w.extractLsb' 19 6) (w.extractLsb' 13 6) (w.extractLsb' 7 6)
  | .vbslVi => .vbslVi (w.extractLsb' 25 1) (w.extractLsb' 19 6) (w.extractLsb' 13 6) (w.extractLsb' 7 5)
  | .vbsrVx => .vbsrVx (w.extractLsb' 25 1) (w.extractLsb' 19 6) (w.extractLsb' 13 6) (w.extractLsb' 7 6)
  | .vbsrVi => .vbsrVi (w.extractLsb' 25 1) (w.extractLsb' 19 6) (w.extractLsb' 13 6) (w.extractLsb' 7 5)
  | .vfsl => .vfsl (w.extractLsb' 25 1) (w.extractLsb' 19 6) (w.extractLsb' 13 6) (w.extractLsb' 7 6)
  | .vfsr => .vfsr (w.extractLsb' 25 1) (w.extractLsb' 19 6) (w.extractLsb' 13 6) (w.extractLsb' 7 6)
  | .vpopc => .vpopc (w.extractLsb' 25 1) (w.extractLsb' 19 6) (w.extractLsb' 13 6) (w.extractLsb' 4 3)
  | .vclz => .vclz (w.extractLsb' 25 1) (w.extractLsb' 19 6) (w.extractLsb' 13 6) (w.extractLsb' 4 3)
  | .vctz => .vctz (w.extractLsb' 25 1) (w.extractLsb' 19 6) (w.extractLsb' 13 6) (w.extractLsb' 4 3)
  | .vbrev => .vbrev (w.extractLsb' 25 1) (w.extractLsb' 19 6) (w.extractLsb' 13 6) (w.extractLsb' 4 3)
  | .vxchVx => .vxchVx (w.extractLsb' 25 1) (w.extractLsb' 19 6) (w.extractLsb' 13 6) (w.extractLsb' 7 6) (w.extractLsb' 4 3)
  | .vxchVi => .vxchVi (w.extractLsb' 25 1) (w.extractLsb' 19 6) (w.extractLsb' 13 6) (w.extractLsb' 7 4) (w.extractLsb' 4 3)
  | .vslideupVx => .vslideupVx (w.extractLsb' 25 1) (w.extractLsb' 19 6) (w.extractLsb' 13 6) (w.extractLsb' 7 6) (w.extractLsb' 4 3)
  | .vslideupVi => .vslideupVi (w.extractLsb' 25 1) (w.extractLsb' 19 6) (w.extractLsb' 13 6) (w.extractLsb' 7 5) (w.extractLsb' 4 3)
  | .vslidednVx => .vslidednVx (w.extractLsb' 25 1) (w.extractLsb' 19 6) (w.extractLsb' 13 6) (w.extractLsb' 7 6) (w.extractLsb' 4 3)
  | .vslidednVi => .vslidednVi (w.extractLsb' 25 1) (w.extractLsb' 19 6) (w.extractLsb' 13 6) (w.extractLsb' 7 5) (w.extractLsb' 4 3)
  | .vslide1up => .vslide1up (w.extractLsb' 25 1) (w.extractLsb' 19 6) (w.extractLsb' 13 6) (w.extractLsb' 7 6) (w.extractLsb' 4 3)
  | .vslide1dn => .vslide1dn (w.extractLsb' 25 1) (w.extractLsb' 19 6) (w.extractLsb' 13 6) (w.extractLsb' 7 6) (w.extractLsb' 4 3)
  | .vpullVv => .vpullVv (w.extractLsb' 25 1) (w.extractLsb' 19 6) (w.extractLsb' 13 6) (w.extractLsb' 7 6) (w.extractLsb' 4 3)
  | .vpullVx => .vpullVx (w.extractLsb' 25 1) (w.extractLsb' 19 6) (w.extractLsb' 13 6) (w.extractLsb' 7 6) (w.extractLsb' 4 3)
  | .vpush => .vpush (w.extractLsb' 25 1) (w.extractLsb' 19 6) (w.extractLsb' 13 6) (w.extractLsb' 7 6) (w.extractLsb' 4 3)
  | .vcompress => .vcompress (w.extractLsb' 25 1) (w.extractLsb' 19 6) (w.extractLsb' 13 6) (w.extractLsb' 4 3)
  | .vextr => .vextr (w.extractLsb' 25 1) (w.extractLsb' 19 4) (w.extractLsb' 13 6) (w.extractLsb' 7 6)
  | .vredsum => .vredsum (w.extractLsb' 25 1) (w.extractLsb' 19 6) (w.extractLsb' 13 6) (w.extractLsb' 7 6) (w.extractLsb' 4 3)
  | .vredsums => .vredsums (w.extractLsb' 25 1) (w.extractLsb' 19 6) (w.extractLsb' 13 6) (w.extractLsb' 7 6) (w.extractLsb' 4 3)
  | .vredmax => .vredmax (w.extractLsb' 25 1) (w.extractLsb' 19 6) (w.extractLsb' 13 6) (w.extractLsb' 7 6) (w.extractLsb' 4 3)
  | .vredmaxu => .vredmaxu (w.extractLsb' 25 1) (w.extractLsb' 19 6) (w.extractLsb' 13 6) (w.extractLsb' 7 6) (w.extractLsb' 4 3)
  | .vredmin => .vredmin (w.extractLsb' 25 1) (w.extractLsb' 19 6) (w.extractLsb' 13 6) (w.extractLsb' 7 6) (w.extractLsb' 4 3)
  | .vredminu => .vredminu (w.extractLsb' 25 1) (w.extractLsb' 19 6) (w.extractLsb' 13 6) (w.extractLsb' 7 6) (w.extractLsb' 4 3)
  | .vredand => .vredand (w.extractLsb' 25 1) (w.extractLsb' 19 6) (w.extractLsb' 13 6) (w.extractLsb' 7 6) (w.extractLsb' 4 3)
  | .vredor => .vredor (w.extractLsb' 25 1) (w.extractLsb' 19 6) (w.extractLsb' 13 6) (w.extractLsb' 7 6) (w.extractLsb' 4 3)
  | .vredxor => .vredxor (w.extractLsb' 25 1) (w.extractLsb' 19 6) (w.extractLsb' 13 6) (w.extractLsb' 7 6) (w.extractLsb' 4 3)
  | .vscansum => .vscansum (w.extractLsb' 25 1) (w.extractLsb' 19 6) (w.extractLsb' 13 6) (w.extractLsb' 7 6) (w.extractLsb' 4 3)
  | .vscanmax => .vscanmax (w.extractLsb' 25 1) (w.extractLsb' 19 6) (w.extractLsb' 13 6) (w.extractLsb' 7 6) (w.extractLsb' 4 3)
  | .vscanmin => .vscanmin (w.extractLsb' 25 1) (w.extractLsb' 19 6) (w.extractLsb' 13 6) (w.extractLsb' 7 6) (w.extractLsb' 4 3)
  | .vxscansum => .vxscansum (w.extractLsb' 25 1) (w.extractLsb' 19 6) (w.extractLsb' 13 6) (w.extractLsb' 7 6) (w.extractLsb' 4 3)
  | .vscanmaxu => .vscanmaxu (w.extractLsb' 25 1) (w.extractLsb' 19 6) (w.extractLsb' 13 6) (w.extractLsb' 7 6) (w.extractLsb' 4 3)
  | .vscanminu => .vscanminu (w.extractLsb' 25 1) (w.extractLsb' 19 6) (w.extractLsb' 13 6) (w.extractLsb' 7 6) (w.extractLsb' 4 3)
  | .mkand => .mkand (w.extractLsb' 25 1) (w.extractLsb' 19 3) (w.extractLsb' 13 3) (w.extractLsb' 7 3) (w.extractLsb' 4 3)
  | .mkor => .mkor (w.extractLsb' 25 1) (w.extractLsb' 19 3) (w.extractLsb' 13 3) (w.extractLsb' 7 3) (w.extractLsb' 4 3)
  | .mkxor => .mkxor (w.extractLsb' 25 1) (w.extractLsb' 19 3) (w.extractLsb' 13 3) (w.extractLsb' 7 3) (w.extractLsb' 4 3)
  | .mkandn => .mkandn (w.extractLsb' 25 1) (w.extractLsb' 19 3) (w.extractLsb' 13 3) (w.extractLsb' 7 3) (w.extractLsb' 4 3)
  | .mknot => .mknot (w.extractLsb' 25 1) (w.extractLsb' 19 3) (w.extractLsb' 13 3) (w.extractLsb' 4 3)
  | .mkfill => .mkfill (w.extractLsb' 25 1) (w.extractLsb' 19 3) (w.extractLsb' 4 3)
  | .mkspreadI => .mkspreadI (w.extractLsb' 25 1) (w.extractLsb' 19 3) (w.extractLsb' 13 3) (w.extractLsb' 4 3)
  | .mkspreadX => .mkspreadX (w.extractLsb' 25 1) (w.extractLsb' 19 3) (w.extractLsb' 13 3) (w.extractLsb' 4 3)
  | .mkparity => .mkparity (w.extractLsb' 25 1) (w.extractLsb' 19 3) (w.extractLsb' 13 3) (w.extractLsb' 4 3)
  | .mkfirst => .mkfirst (w.extractLsb' 25 1) (w.extractLsb' 19 3) (w.extractLsb' 13 3) (w.extractLsb' 4 3)
  | .mkcount => .mkcount (w.extractLsb' 25 1) (w.extractLsb' 19 4) (w.extractLsb' 13 3) (w.extractLsb' 4 3)
  | .mkfind => .mkfind (w.extractLsb' 25 1) (w.extractLsb' 19 4) (w.extractLsb' 13 3) (w.extractLsb' 4 3)
  | .mkfindL => .mkfindL (w.extractLsb' 25 1) (w.extractLsb' 19 4) (w.extractLsb' 13 3) (w.extractLsb' 4 3)
  | .vrank => .vrank (w.extractLsb' 25 1) (w.extractLsb' 19 6) (w.extractLsb' 13 3) (w.extractLsb' 4 3)
  | .vfaddVv => .vfaddVv (w.extractLsb' 25 1) (w.extractLsb' 19 6) (w.extractLsb' 13 6) (w.extractLsb' 7 6) (w.extractLsb' 4 3)
  | .vfaddVx => .vfaddVx (w.extractLsb' 25 1) (w.extractLsb' 19 6) (w.extractLsb' 13 6) (w.extractLsb' 7 6) (w.extractLsb' 4 3)
  | .vfsubVv => .vfsubVv (w.extractLsb' 25 1) (w.extractLsb' 19 6) (w.extractLsb' 13 6) (w.extractLsb' 7 6) (w.extractLsb' 4 3)
  | .vfsubVx => .vfsubVx (w.extractLsb' 25 1) (w.extractLsb' 19 6) (w.extractLsb' 13 6) (w.extractLsb' 7 6) (w.extractLsb' 4 3)
  | .vfrsub => .vfrsub (w.extractLsb' 25 1) (w.extractLsb' 19 6) (w.extractLsb' 13 6) (w.extractLsb' 7 6) (w.extractLsb' 4 3)
  | .vfmulVv => .vfmulVv (w.extractLsb' 25 1) (w.extractLsb' 19 6) (w.extractLsb' 13 6) (w.extractLsb' 7 6) (w.extractLsb' 4 3)
  | .vfmulVx => .vfmulVx (w.extractLsb' 25 1) (w.extractLsb' 19 6) (w.extractLsb' 13 6) (w.extractLsb' 7 6) (w.extractLsb' 4 3)
  | .vfdivVv => .vfdivVv (w.extractLsb' 25 1) (w.extractLsb' 19 6) (w.extractLsb' 13 6) (w.extractLsb' 7 6) (w.extractLsb' 4 3)
  | .vfdivVx => .vfdivVx (w.extractLsb' 25 1) (w.extractLsb' 19 6) (w.extractLsb' 13 6) (w.extractLsb' 7 6) (w.extractLsb' 4 3)
  | .vfrdiv => .vfrdiv (w.extractLsb' 25 1) (w.extractLsb' 19 6) (w.extractLsb' 13 6) (w.extractLsb' 7 6) (w.extractLsb' 4 3)
  | .vfsqrt => .vfsqrt (w.extractLsb' 25 1) (w.extractLsb' 19 6) (w.extractLsb' 13 6) (w.extractLsb' 4 3)
  | .vfmin => .vfmin (w.extractLsb' 25 1) (w.extractLsb' 19 6) (w.extractLsb' 13 6) (w.extractLsb' 7 6) (w.extractLsb' 4 3)
  | .vfmax => .vfmax (w.extractLsb' 25 1) (w.extractLsb' 19 6) (w.extractLsb' 13 6) (w.extractLsb' 7 6) (w.extractLsb' 4 3)
  | .vfsgnj => .vfsgnj (w.extractLsb' 25 1) (w.extractLsb' 19 6) (w.extractLsb' 13 6) (w.extractLsb' 7 6) (w.extractLsb' 4 3)
  | .vfsgnjn => .vfsgnjn (w.extractLsb' 25 1) (w.extractLsb' 19 6) (w.extractLsb' 13 6) (w.extractLsb' 7 6) (w.extractLsb' 4 3)
  | .vfsgnjx => .vfsgnjx (w.extractLsb' 25 1) (w.extractLsb' 19 6) (w.extractLsb' 13 6) (w.extractLsb' 7 6) (w.extractLsb' 4 3)
  | .vfmacPpVv => .vfmacPpVv (w.extractLsb' 25 1) (w.extractLsb' 19 6) (w.extractLsb' 13 6) (w.extractLsb' 7 6) (w.extractLsb' 4 3)
  | .vfmacPpVx => .vfmacPpVx (w.extractLsb' 25 1) (w.extractLsb' 19 6) (w.extractLsb' 13 6) (w.extractLsb' 7 6) (w.extractLsb' 4 3)
  | .vfmacNn => .vfmacNn (w.extractLsb' 25 1) (w.extractLsb' 19 6) (w.extractLsb' 13 6) (w.extractLsb' 7 6) (w.extractLsb' 4 3)
  | .vfmacPn => .vfmacPn (w.extractLsb' 25 1) (w.extractLsb' 19 6) (w.extractLsb' 13 6) (w.extractLsb' 7 6) (w.extractLsb' 4 3)
  | .vfmacNp => .vfmacNp (w.extractLsb' 25 1) (w.extractLsb' 19 6) (w.extractLsb' 13 6) (w.extractLsb' 7 6) (w.extractLsb' 4 3)
  | .vfmad => .vfmad (w.extractLsb' 25 1) (w.extractLsb' 19 6) (w.extractLsb' 13 6) (w.extractLsb' 7 6) (w.extractLsb' 4 3)
  | .vfcmpEqVv => .vfcmpEqVv (w.extractLsb' 25 1) (w.extractLsb' 19 3) (w.extractLsb' 13 6) (w.extractLsb' 7 6) (w.extractLsb' 4 3)
  | .vfcmpEqVx => .vfcmpEqVx (w.extractLsb' 25 1) (w.extractLsb' 19 3) (w.extractLsb' 13 6) (w.extractLsb' 7 6) (w.extractLsb' 4 3)
  | .vfcmpLtVv => .vfcmpLtVv (w.extractLsb' 25 1) (w.extractLsb' 19 3) (w.extractLsb' 13 6) (w.extractLsb' 7 6) (w.extractLsb' 4 3)
  | .vfcmpLe => .vfcmpLe (w.extractLsb' 25 1) (w.extractLsb' 19 3) (w.extractLsb' 13 6) (w.extractLsb' 7 6) (w.extractLsb' 4 3)
  | .vfcmpGt => .vfcmpGt (w.extractLsb' 25 1) (w.extractLsb' 19 3) (w.extractLsb' 13 6) (w.extractLsb' 7 6) (w.extractLsb' 4 3)
  | .vfcmpGe => .vfcmpGe (w.extractLsb' 25 1) (w.extractLsb' 19 3) (w.extractLsb' 13 6) (w.extractLsb' 7 6) (w.extractLsb' 4 3)
  | .vfcmpLtVx => .vfcmpLtVx (w.extractLsb' 25 1) (w.extractLsb' 19 3) (w.extractLsb' 13 6) (w.extractLsb' 7 6) (w.extractLsb' 4 3)
  | .vfcmpNe => .vfcmpNe (w.extractLsb' 25 1) (w.extractLsb' 19 3) (w.extractLsb' 13 6) (w.extractLsb' 7 6) (w.extractLsb' 4 3)
  | .vfkind => .vfkind (w.extractLsb' 25 1) (w.extractLsb' 19 6) (w.extractLsb' 13 6) (w.extractLsb' 4 3)
  | .vfcmpUn => .vfcmpUn (w.extractLsb' 25 1) (w.extractLsb' 19 3) (w.extractLsb' 13 6) (w.extractLsb' 7 6) (w.extractLsb' 4 3)
  | .vfcvt => .vfcvt (w.extractLsb' 25 1) (w.extractLsb' 19 6) (w.extractLsb' 13 6) (w.extractLsb' 10 3) (w.extractLsb' 7 3) (w.extractLsb' 4 3)
  | .vfcvtU => .vfcvtU (w.extractLsb' 25 1) (w.extractLsb' 19 6) (w.extractLsb' 13 6) (w.extractLsb' 10 3) (w.extractLsb' 7 3) (w.extractLsb' 4 3)
  | .vfcvtRtz => .vfcvtRtz (w.extractLsb' 25 1) (w.extractLsb' 19 6) (w.extractLsb' 13 6) (w.extractLsb' 10 3) (w.extractLsb' 7 3) (w.extractLsb' 4 3)
  | .vfcvtURtz => .vfcvtURtz (w.extractLsb' 25 1) (w.extractLsb' 19 6) (w.extractLsb' 13 6) (w.extractLsb' 10 3) (w.extractLsb' 7 3) (w.extractLsb' 4 3)
  | .vdrescale => .vdrescale (w.extractLsb' 25 1) (w.extractLsb' 19 6) (w.extractLsb' 13 6) (w.extractLsb' 7 6) (w.extractLsb' 4 3)
  | .vfsumO => .vfsumO (w.extractLsb' 25 1) (w.extractLsb' 19 6) (w.extractLsb' 13 6) (w.extractLsb' 7 6) (w.extractLsb' 4 3)
  | .vfsumT => .vfsumT (w.extractLsb' 25 1) (w.extractLsb' 19 6) (w.extractLsb' 13 6) (w.extractLsb' 7 6) (w.extractLsb' 4 3)
  | .vfredmax => .vfredmax (w.extractLsb' 25 1) (w.extractLsb' 19 6) (w.extractLsb' 13 6) (w.extractLsb' 7 6) (w.extractLsb' 4 3)
  | .vfredmin => .vfredmin (w.extractLsb' 25 1) (w.extractLsb' 19 6) (w.extractLsb' 13 6) (w.extractLsb' 7 6) (w.extractLsb' 4 3)
  | .vrand => .vrand (w.extractLsb' 25 1) (w.extractLsb' 19 6) (w.extractLsb' 4 3)
  | .vqaddVv => .vqaddVv (w.extractLsb' 25 1) (w.extractLsb' 19 6) (w.extractLsb' 13 6) (w.extractLsb' 7 6) (w.extractLsb' 4 3)
  | .vqaddVx => .vqaddVx (w.extractLsb' 25 1) (w.extractLsb' 19 6) (w.extractLsb' 13 6) (w.extractLsb' 7 6) (w.extractLsb' 4 3)
  | .vqsubVv => .vqsubVv (w.extractLsb' 25 1) (w.extractLsb' 19 6) (w.extractLsb' 13 6) (w.extractLsb' 7 6) (w.extractLsb' 4 3)
  | .vqsubVx => .vqsubVx (w.extractLsb' 25 1) (w.extractLsb' 19 6) (w.extractLsb' 13 6) (w.extractLsb' 7 6) (w.extractLsb' 4 3)
  | .vqrsub => .vqrsub (w.extractLsb' 25 1) (w.extractLsb' 19 6) (w.extractLsb' 13 6) (w.extractLsb' 7 6) (w.extractLsb' 4 3)
  | .vqmulVv => .vqmulVv (w.extractLsb' 25 1) (w.extractLsb' 19 6) (w.extractLsb' 13 6) (w.extractLsb' 7 6) (w.extractLsb' 4 3)
  | .vqmulVx => .vqmulVx (w.extractLsb' 25 1) (w.extractLsb' 19 6) (w.extractLsb' 13 6) (w.extractLsb' 7 6) (w.extractLsb' 4 3)
  | .vqdivVv => .vqdivVv (w.extractLsb' 25 1) (w.extractLsb' 19 6) (w.extractLsb' 13 6) (w.extractLsb' 7 6) (w.extractLsb' 4 3)
  | .vqdivVx => .vqdivVx (w.extractLsb' 25 1) (w.extractLsb' 19 6) (w.extractLsb' 13 6) (w.extractLsb' 7 6) (w.extractLsb' 4 3)
  | .vqrdiv => .vqrdiv (w.extractLsb' 25 1) (w.extractLsb' 19 6) (w.extractLsb' 13 6) (w.extractLsb' 7 6) (w.extractLsb' 4 3)
  | .vqneg => .vqneg (w.extractLsb' 25 1) (w.extractLsb' 19 6) (w.extractLsb' 13 6) (w.extractLsb' 4 3)
  | .vqinv => .vqinv (w.extractLsb' 25 1) (w.extractLsb' 19 6) (w.extractLsb' 13 6) (w.extractLsb' 4 3)
  | .vqmaccVv => .vqmaccVv (w.extractLsb' 25 1) (w.extractLsb' 19 6) (w.extractLsb' 13 6) (w.extractLsb' 7 6) (w.extractLsb' 4 3)
  | .vqmaccVx => .vqmaccVx (w.extractLsb' 25 1) (w.extractLsb' 19 6) (w.extractLsb' 13 6) (w.extractLsb' 7 6) (w.extractLsb' 4 3)
  | .vqeqVv => .vqeqVv (w.extractLsb' 25 1) (w.extractLsb' 19 3) (w.extractLsb' 13 6) (w.extractLsb' 7 6) (w.extractLsb' 4 3)
  | .vqeqVx => .vqeqVx (w.extractLsb' 25 1) (w.extractLsb' 19 3) (w.extractLsb' 13 6) (w.extractLsb' 7 6) (w.extractLsb' 4 3)
  | .vqencVv => .vqencVv (w.extractLsb' 25 1) (w.extractLsb' 19 6) (w.extractLsb' 13 6) (w.extractLsb' 7 6) (w.extractLsb' 4 3)
  | .vqencVx => .vqencVx (w.extractLsb' 25 1) (w.extractLsb' 19 6) (w.extractLsb' 13 6) (w.extractLsb' 7 6) (w.extractLsb' 4 3)
  | .vqencVi => .vqencVi (w.extractLsb' 25 1) (w.extractLsb' 19 6) (w.extractLsb' 13 6) (w.extractLsb' 7 5) (w.extractLsb' 4 3)
  | .vqdec => .vqdec (w.extractLsb' 25 1) (w.extractLsb' 19 6) (w.extractLsb' 13 6) (w.extractLsb' 4 3)
  | .vqdigVx => .vqdigVx (w.extractLsb' 25 1) (w.extractLsb' 19 6) (w.extractLsb' 13 6) (w.extractLsb' 7 6) (w.extractLsb' 4 3)
  | .vqdigVi => .vqdigVi (w.extractLsb' 25 1) (w.extractLsb' 19 6) (w.extractLsb' 13 6) (w.extractLsb' 7 5) (w.extractLsb' 4 3)
  | .vqval => .vqval (w.extractLsb' 25 1) (w.extractLsb' 19 6) (w.extractLsb' 13 6) (w.extractLsb' 4 3)
  | .mmrow => .mmrow (w.extractLsb' 25 1) (w.extractLsb' 19 6) (w.extractLsb' 13 6) (w.extractLsb' 11 2) (w.extractLsb' 9 2) (w.extractLsb' 4 5) (w.extractLsb' 0 4)
  | .mwld => .mwld (w.extractLsb' 25 1) (w.extractLsb' 13 4) (w.extractLsb' 11 2) (w.extractLsb' 0 4)
  | .mwclr => .mwclr (w.extractLsb' 25 1) (w.extractLsb' 11 2)
  | .vpclr => .vpclr (w.extractLsb' 25 1) (w.extractLsb' 19 6)
  | .vpmclr => .vpmclr (w.extractLsb' 25 1)
  | .vpmask => .vpmask (w.extractLsb' 25 1) (w.extractLsb' 19 3) (w.extractLsb' 13 6)
  | .vid => .vid (w.extractLsb' 25 1) (w.extractLsb' 19 6)
  | .vmvR => .vmvR (w.extractLsb' 25 1) (w.extractLsb' 19 6) (w.extractLsb' 13 6) (w.extractLsb' 7 2)
  | .vstBo => .vstBo (w.extractLsb' 25 1) (w.extractLsb' 19 6) (w.extractLsb' 14 5) (w.extractLsb' 8 6) (w.extractLsb' 5 3) (w.extractLsb' 0 1)

/-- The fates that the word itself decides: checks 2 to 5 of R41. -/
inductive WordFate where
  | illop
  | illstream
deriving DecidableEq, Repr

/-- Checks 2 to 5 of R41, in order, for a word reached in a stream (`vec` is the vector stream). -/
def wordFate (vec : Bool) (w : IWord) : Option WordFate :=
  let major := (w.extractLsb' 26 6).toNat
  if major == 0 || major == 0x3F then some .illop
  else if vec != (32 ≤ major : Bool) then some .illstream
  else
    match opOf w with
    | none => some .illop
    | some op => if valuesOk w op then none else some .illop

/-- Why a word decodes to no instruction. -/
inductive Undecoded where
  | unassigned
  | reservedValue (op : Op)
deriving DecidableEq, Repr

/-- The instruction of a word, or why there is none. -/
noncomputable def decodeWord (w : IWord) : Except Undecoded Instr :=
  match opOf w with
  | none => .error .unassigned
  | some op => if valuesOk w op then .ok (build w op) else .error (.reservedValue op)

/-- The instruction of a word, if it has one. -/
noncomputable def decode (w : IWord) : Option Instr := (decodeWord w).toOption

/-- The four bytes of a word, lowest address first (R28). -/
def wordBytes (w : IWord) : List Byte :=
  [w.extractLsb' 0 8, w.extractLsb' 8 8, w.extractLsb' 16 8, w.extractLsb' 24 8]

/-- A word from its four bytes, lowest address first (R28). -/
def wordOfBytes (b0 b1 b2 b3 : Byte) : IWord := b3 ++ b2 ++ b1 ++ b0

/-- Decoding a run of bytes: the instruction of the first four and the bytes after them. -/
noncomputable def decodeBytes : List Byte → Option (Instr × List Byte)
  | b0 :: b1 :: b2 :: b3 :: rest => (decode (wordOfBytes b0 b1 b2 b3)).map (·, rest)
  | _ => none

/-- The instruction that the decoder reads from the bits of one opcode-table row: every row is one 32-bit word. -/
noncomputable def decodeTableWord (nbits w : Nat) : Option Instr :=
  if nbits ≤ 32 then
    match decodeBytes (wordBytes (BitVec.ofNat 32 (w % 2 ^ nbits))) with
    | some (i, _) => some i
    | none => none
  else none

/-- A word from the number that its fields spell. -/
def wordOf (n : Nat) : IWord := BitVec.ofNat 32 n

/-- The next field below the fields already put down. -/
def put {k : Nat} (x : BitVec k) (acc : Nat) : Nat := acc * 2 ^ k + x.toNat

/-- The word of an instruction, field by field from the encoding tables of the chapters; an event has no word. -/
def encode : Instr → Option IWord
  | .coldStart => none
  | .warmStart => none
  | .dieCoreReset _ => none
  | .dieLeavesReset _ => none
  | .fieldDieReset _ => none
  | .ptpLockLoss => none
  | .ptpLockAcquire => none
  | .negotiationClose => none
  | .gtbsetWrite _ => none
  | .ftmapWrite _ => none
  | .hchipWrite _ => none
  | .mgmtRegisterWrite _ _ _ => none
  | .blockStart => none
  | .convoyIssue => none
  | .vectorTrapDelivery => none
  | .pfAnswerTimeout _ => none
  | .hostPfAnswer _ _ => none
  | .iwlExpiry _ _ => none
  | .waitAnswerTimeout _ => none
  | .rqpopExpiry _ => none
  | .vsyncExpiry _ => none
  | .napExpiry _ => none
  | .twaitExpiry _ => none
  | .ewaitExpiry _ => none
  | .eleaseExpiry _ => none
  | .engineSlotExpiry _ => none
  | .swarmDeadlineClose _ => none
  | .swjoinExpiry _ => none
  | .acqExpiry _ => none
  | .sendExpiry _ => none
  | .recvExpiry _ => none
  | .planeFlip _ _ => none
  | .patrolScrub _ => none
  | .combPatrolScrub _ => none
  | .zreqGo _ => none
  | .zreqComplete => none
  | .tinvGo _ _ => none
  | .tinvComplete _ => none
  | .roreqGo _ _ => none
  | .roreqComplete _ => none
  | .tenbootGo _ _ => none
  | .tenantActivate _ _ => none
  | .tenantFreeze _ _ => none
  | .tenantFrozen _ => none
  | .tenantThaw _ _ => none
  | .tenantRelease _ _ => none
  | .tenantReleased _ => none
  | .pmapWrite _ _ _ => none
  | .weightSlotFreeMgmt _ _ => none
  | .bindRecordSubmit _ _ _ _ => none
  | .bindRecordRemove _ _ _ => none
  | .quantumEnd _ _ => none
  | .apiaryWaitingRemoval _ _ => none
  | .powerSample _ => none
  | .watchdogExpiry _ => none
  | .leaseGrant _ => none
  | .leaseExpiry _ => none
  | .leaseRevoke _ => none
  | .engineCommandStart _ => none
  | .engineCommandEnd _ => none
  | .collectiveClose _ => none
  | .ploughMoveGo _ _ => none
  | .ploughMoveComplete _ => none
  | .ploughEpochEnd _ => none
  | .recheckRun _ _ _ => none
  | .debugResume _ _ => none
  | .debugStep _ _ => none
  | .fabricPut _ => none
  | .fabricGet _ => none
  | .fabricGetResponse _ => none
  | .fabricChannelSend _ => none
  | .fabricSwarmArrival _ => none
  | .fabricSwarmResult _ => none
  | .fabricCollectiveData _ => none
  | .fabricCreditReturn _ => none
  | .fabricTrigger _ => none
  | .replayDelivery _ => none
  | .hostSend _ => none
  | .hostMemoryWrite _ _ _ _ => none
  | .hostMemoryRead _ _ _ _ => none
  | .jobRecordPost _ => none
  | .spdmRequest _ => none
  | .add d a b => some (wordOf (0 |> put 1#6 |> put d |> put a |> put b |> put 0#11))
  | .sub d a b => some (wordOf (0 |> put 1#6 |> put d |> put a |> put b |> put 1#11))
  | .and d a b => some (wordOf (0 |> put 1#6 |> put d |> put a |> put b |> put 2#11))
  | .or d a b => some (wordOf (0 |> put 1#6 |> put d |> put a |> put b |> put 3#11))
  | .xor d a b => some (wordOf (0 |> put 1#6 |> put d |> put a |> put b |> put 4#11))
  | .sll d a b => some (wordOf (0 |> put 1#6 |> put d |> put a |> put b |> put 5#11))
  | .srl d a b => some (wordOf (0 |> put 1#6 |> put d |> put a |> put b |> put 6#11))
  | .sra d a b => some (wordOf (0 |> put 1#6 |> put d |> put a |> put b |> put 7#11))
  | .sltS d a b => some (wordOf (0 |> put 1#6 |> put d |> put a |> put b |> put 8#11))
  | .sltU d a b => some (wordOf (0 |> put 1#6 |> put d |> put a |> put b |> put 9#11))
  | .mul d a b => some (wordOf (0 |> put 1#6 |> put d |> put a |> put b |> put 16#11))
  | .mulhiSs d a b => some (wordOf (0 |> put 1#6 |> put d |> put a |> put b |> put 17#11))
  | .mulhiUu d a b => some (wordOf (0 |> put 1#6 |> put d |> put a |> put b |> put 18#11))
  | .mulhiSu d a b => some (wordOf (0 |> put 1#6 |> put d |> put a |> put b |> put 19#11))
  | .quoS d a b => some (wordOf (0 |> put 1#6 |> put d |> put a |> put b |> put 24#11))
  | .quoU d a b => some (wordOf (0 |> put 1#6 |> put d |> put a |> put b |> put 25#11))
  | .remS d a b => some (wordOf (0 |> put 1#6 |> put d |> put a |> put b |> put 26#11))
  | .remU d a b => some (wordOf (0 |> put 1#6 |> put d |> put a |> put b |> put 27#11))
  | .minS d a b => some (wordOf (0 |> put 1#6 |> put d |> put a |> put b |> put 32#11))
  | .maxS d a b => some (wordOf (0 |> put 1#6 |> put d |> put a |> put b |> put 33#11))
  | .minU d a b => some (wordOf (0 |> put 1#6 |> put d |> put a |> put b |> put 34#11))
  | .maxU d a b => some (wordOf (0 |> put 1#6 |> put d |> put a |> put b |> put 35#11))
  | .addi d a i => some (wordOf (0 |> put 2#6 |> put d |> put a |> put i))
  | .andi d a i => some (wordOf (0 |> put 3#6 |> put d |> put a |> put i))
  | .ori d a i => some (wordOf (0 |> put 4#6 |> put d |> put a |> put i))
  | .xori d a i => some (wordOf (0 |> put 5#6 |> put d |> put a |> put i))
  | .slti d a i => some (wordOf (0 |> put 6#6 |> put d |> put a |> put i))
  | .sltiu d a i => some (wordOf (0 |> put 7#6 |> put d |> put a |> put i))
  | .slli d a s => some (wordOf (0 |> put 8#6 |> put d |> put a |> put 0#2 |> put 0#8 |> put s))
  | .srli d a s => some (wordOf (0 |> put 8#6 |> put d |> put a |> put 1#2 |> put 0#8 |> put s))
  | .srai d a s => some (wordOf (0 |> put 8#6 |> put d |> put a |> put 2#2 |> put 0#8 |> put s))
  | .lhi d a i => some (wordOf (0 |> put 9#6 |> put d |> put a |> put i))
  | .ldB d a o => some (wordOf (0 |> put 10#6 |> put d |> put a |> put 0#3 |> put o))
  | .ldH d a o => some (wordOf (0 |> put 10#6 |> put d |> put a |> put 1#3 |> put o))
  | .ldW d a o => some (wordOf (0 |> put 10#6 |> put d |> put a |> put 2#3 |> put o))
  | .ldD d a o => some (wordOf (0 |> put 10#6 |> put d |> put a |> put 3#3 |> put o))
  | .ldBu d a o => some (wordOf (0 |> put 10#6 |> put d |> put a |> put 4#3 |> put o))
  | .ldHu d a o => some (wordOf (0 |> put 10#6 |> put d |> put a |> put 5#3 |> put o))
  | .ldWu d a o => some (wordOf (0 |> put 10#6 |> put d |> put a |> put 6#3 |> put o))
  | .stB d a o => some (wordOf (0 |> put 11#6 |> put d |> put a |> put 0#3 |> put o))
  | .stH d a o => some (wordOf (0 |> put 11#6 |> put d |> put a |> put 1#3 |> put o))
  | .stW d a o => some (wordOf (0 |> put 11#6 |> put d |> put a |> put 2#3 |> put o))
  | .stD d a o => some (wordOf (0 |> put 11#6 |> put d |> put a |> put 3#3 |> put o))
  | .amoSwap d a b w q s => some (wordOf (0 |> put 12#6 |> put d |> put a |> put b |> put 0#5 |> put w |> put q |> put s))
  | .amoCas d a b w q s => some (wordOf (0 |> put 12#6 |> put d |> put a |> put b |> put 1#5 |> put w |> put q |> put s))
  | .amoAdd d a b w q s => some (wordOf (0 |> put 12#6 |> put d |> put a |> put b |> put 2#5 |> put w |> put q |> put s))
  | .amoAnd d a b w q s => some (wordOf (0 |> put 12#6 |> put d |> put a |> put b |> put 3#5 |> put w |> put q |> put s))
  | .amoOr d a b w q s => some (wordOf (0 |> put 12#6 |> put d |> put a |> put b |> put 4#5 |> put w |> put q |> put s))
  | .amoXor d a b w q s => some (wordOf (0 |> put 12#6 |> put d |> put a |> put b |> put 5#5 |> put w |> put q |> put s))
  | .amoSmin d a b w q s => some (wordOf (0 |> put 12#6 |> put d |> put a |> put b |> put 6#5 |> put w |> put q |> put s))
  | .amoSmax d a b w q s => some (wordOf (0 |> put 12#6 |> put d |> put a |> put b |> put 7#5 |> put w |> put q |> put s))
  | .amoUmin d a b w q s => some (wordOf (0 |> put 12#6 |> put d |> put a |> put b |> put 8#5 |> put w |> put q |> put s))
  | .amoUmax d a b w q s => some (wordOf (0 |> put 12#6 |> put d |> put a |> put b |> put 9#5 |> put w |> put q |> put s))
  | .amoLd d a w q s => some (wordOf (0 |> put 12#6 |> put d |> put a |> put 0#5 |> put 10#5 |> put w |> put q |> put s))
  | .amoFadd d a b w q s => some (wordOf (0 |> put 12#6 |> put d |> put a |> put b |> put 11#5 |> put w |> put q |> put s))
  | .amoFmin d a b w q s => some (wordOf (0 |> put 12#6 |> put d |> put a |> put b |> put 12#5 |> put w |> put q |> put s))
  | .amoFmax d a b w q s => some (wordOf (0 |> put 12#6 |> put d |> put a |> put b |> put 13#5 |> put w |> put q |> put s))
  | .amoQadd d a b q s => some (wordOf (0 |> put 12#6 |> put d |> put a |> put b |> put 14#5 |> put 1#1 |> put q |> put s))
  | .amoQmul d a b q s => some (wordOf (0 |> put 12#6 |> put d |> put a |> put b |> put 15#5 |> put 1#1 |> put q |> put s))
  | .fadd d a b f => some (wordOf (0 |> put 13#6 |> put d |> put a |> put b |> put 0#5 |> put f |> put 0#4))
  | .fsub d a b f => some (wordOf (0 |> put 13#6 |> put d |> put a |> put b |> put 1#5 |> put f |> put 0#4))
  | .fmul d a b f => some (wordOf (0 |> put 13#6 |> put d |> put a |> put b |> put 2#5 |> put f |> put 0#4))
  | .fdiv d a b f => some (wordOf (0 |> put 13#6 |> put d |> put a |> put b |> put 3#5 |> put f |> put 0#4))
  | .fsqrt d a f => some (wordOf (0 |> put 13#6 |> put d |> put a |> put 0#5 |> put 4#5 |> put f |> put 0#4))
  | .fmin d a b f => some (wordOf (0 |> put 13#6 |> put d |> put a |> put b |> put 5#5 |> put f |> put 0#4))
  | .fmax d a b f => some (wordOf (0 |> put 13#6 |> put d |> put a |> put b |> put 6#5 |> put f |> put 0#4))
  | .fmacc d a b f => some (wordOf (0 |> put 13#6 |> put d |> put a |> put b |> put 7#5 |> put f |> put 0#4))
  | .fsgnj d a b f => some (wordOf (0 |> put 13#6 |> put d |> put a |> put b |> put 8#5 |> put f |> put 0#4))
  | .fsgnjn d a b f => some (wordOf (0 |> put 13#6 |> put d |> put a |> put b |> put 9#5 |> put f |> put 0#4))
  | .fsgnjx d a b f => some (wordOf (0 |> put 13#6 |> put d |> put a |> put b |> put 10#5 |> put f |> put 0#4))
  | .feq d a b f => some (wordOf (0 |> put 13#6 |> put d |> put a |> put b |> put 11#5 |> put f |> put 0#4))
  | .flt d a b f => some (wordOf (0 |> put 13#6 |> put d |> put a |> put b |> put 12#5 |> put f |> put 0#4))
  | .fle d a b f => some (wordOf (0 |> put 13#6 |> put d |> put a |> put b |> put 13#5 |> put f |> put 0#4))
  | .fkind d a f => some (wordOf (0 |> put 13#6 |> put d |> put a |> put 0#5 |> put 14#5 |> put f |> put 0#4))
  | .fcvtF d a f s => some (wordOf (0 |> put 13#6 |> put d |> put a |> put 0#5 |> put 15#5 |> put f |> put 0#2 |> put s))
  | .fcvtI d a f => some (wordOf (0 |> put 13#6 |> put d |> put a |> put 0#5 |> put 16#5 |> put f |> put 0#4))
  | .fcvtIRtz d a f => some (wordOf (0 |> put 13#6 |> put d |> put a |> put 0#5 |> put 16#5 |> put f |> put 1#4))
  | .fcvtIu d a f => some (wordOf (0 |> put 13#6 |> put d |> put a |> put 0#5 |> put 16#5 |> put f |> put 2#4))
  | .fcvtIuRtz d a f => some (wordOf (0 |> put 13#6 |> put d |> put a |> put 0#5 |> put 16#5 |> put f |> put 3#4))
  | .fcvtFi d a f => some (wordOf (0 |> put 13#6 |> put d |> put a |> put 0#5 |> put 17#5 |> put f |> put 0#4))
  | .fcvtFiu d a f => some (wordOf (0 |> put 13#6 |> put d |> put a |> put 0#5 |> put 17#5 |> put f |> put 2#4))
  | .beq a b o => some (wordOf (0 |> put 14#6 |> put a |> put b |> put 0#3 |> put o))
  | .bne a b o => some (wordOf (0 |> put 14#6 |> put a |> put b |> put 1#3 |> put o))
  | .blt a b o => some (wordOf (0 |> put 14#6 |> put a |> put b |> put 2#3 |> put o))
  | .bge a b o => some (wordOf (0 |> put 14#6 |> put a |> put b |> put 3#3 |> put o))
  | .bltu a b o => some (wordOf (0 |> put 14#6 |> put a |> put b |> put 4#3 |> put o))
  | .bgeu a b o => some (wordOf (0 |> put 14#6 |> put a |> put b |> put 5#3 |> put o))
  | .jal d o => some (wordOf (0 |> put 15#6 |> put d |> put o))
  | .jalr d a i => some (wordOf (0 |> put 16#6 |> put d |> put a |> put i))
  | .sptest d a => some (wordOf (0 |> put 17#6 |> put d |> put a |> put 0#5 |> put 0#3 |> put 0#8))
  | .spcastChk d a w => some (wordOf (0 |> put 17#6 |> put d |> put a |> put 0#5 |> put 1#3 |> put 0#2 |> put w |> put 0#4))
  | .spcastMk d a w => some (wordOf (0 |> put 17#6 |> put d |> put a |> put 0#5 |> put 2#3 |> put 0#2 |> put w |> put 0#4))
  | .spcastOff d a w => some (wordOf (0 |> put 17#6 |> put d |> put a |> put 0#5 |> put 3#3 |> put 0#2 |> put w |> put 0#4))
  | .vrun d a => some (wordOf (0 |> put 18#6 |> put d |> put a |> put 0#5 |> put 0#4 |> put 0#7))
  | .rqpop d t r => some (wordOf (0 |> put 18#6 |> put d |> put 0#5 |> put t |> put 1#4 |> put r |> put 0#6))
  | .vsync d t r => some (wordOf (0 |> put 18#6 |> put d |> put 0#5 |> put t |> put 2#4 |> put r |> put 0#6))
  | .vrel d => some (wordOf (0 |> put 18#6 |> put d |> put 0#10 |> put 3#4 |> put 0#7))
  | .spawn d a => some (wordOf (0 |> put 19#6 |> put d |> put a |> put 0#5 |> put 0#11))
  | .exit => some (wordOf (0 |> put 19#6 |> put 0#15 |> put 1#11))
  | .onewSwarm d a => some (wordOf (0 |> put 20#6 |> put d |> put a |> put 0#5 |> put 0#4 |> put 0#1 |> put 0#6))
  | .onewLatch d a => some (wordOf (0 |> put 20#6 |> put d |> put a |> put 0#5 |> put 0#4 |> put 0#1 |> put 1#6))
  | .onewChan d a => some (wordOf (0 |> put 20#6 |> put d |> put a |> put 0#5 |> put 0#4 |> put 0#1 |> put 2#6))
  | .ofree d a => some (wordOf (0 |> put 20#6 |> put d |> put a |> put 0#5 |> put 1#4 |> put 0#1 |> put 0#6))
  | .swjoin d a t r => some (wordOf (0 |> put 20#6 |> put d |> put a |> put t |> put 2#4 |> put r |> put 0#6))
  | .swleave d a => some (wordOf (0 |> put 20#6 |> put d |> put a |> put 0#5 |> put 3#4 |> put 0#1 |> put 0#6))
  | .swbar d a t r => some (wordOf (0 |> put 20#6 |> put d |> put a |> put t |> put 4#4 |> put r |> put 0#6))
  | .step d a t r => some (wordOf (0 |> put 20#6 |> put d |> put a |> put t |> put 5#4 |> put r |> put 0#6))
  | .acq d a t r => some (wordOf (0 |> put 20#6 |> put d |> put a |> put t |> put 6#4 |> put r |> put 0#6))
  | .rel d a => some (wordOf (0 |> put 20#6 |> put d |> put a |> put 0#5 |> put 7#4 |> put 0#1 |> put 0#6))
  | .mend d a => some (wordOf (0 |> put 20#6 |> put d |> put a |> put 0#5 |> put 8#4 |> put 0#1 |> put 0#6))
  | .adopt d a => some (wordOf (0 |> put 20#6 |> put d |> put a |> put 0#5 |> put 9#4 |> put 0#1 |> put 0#6))
  | .send d a t r => some (wordOf (0 |> put 20#6 |> put d |> put a |> put t |> put 10#4 |> put r |> put 0#6))
  | .recv d a t r => some (wordOf (0 |> put 20#6 |> put d |> put a |> put t |> put 11#4 |> put r |> put 0#6))
  | .nap d t r => some (wordOf (0 |> put 20#6 |> put d |> put 0#5 |> put t |> put 12#4 |> put r |> put 0#6))
  | .eleaseCopy d a t r => some (wordOf (0 |> put 21#6 |> put d |> put a |> put t |> put 0#4 |> put r |> put 0#6))
  | .eleaseComp d a t r => some (wordOf (0 |> put 21#6 |> put d |> put a |> put t |> put 0#4 |> put r |> put 1#6))
  | .eleaseColl d a t r => some (wordOf (0 |> put 21#6 |> put d |> put a |> put t |> put 0#4 |> put r |> put 2#6))
  | .eleaseRenew d a t r => some (wordOf (0 |> put 21#6 |> put d |> put a |> put t |> put 0#4 |> put r |> put 4#6))
  | .efree d a => some (wordOf (0 |> put 21#6 |> put d |> put a |> put 0#5 |> put 1#4 |> put 0#1 |> put 0#6))
  | .ecopy d a t r => some (wordOf (0 |> put 21#6 |> put d |> put a |> put t |> put 2#4 |> put r |> put 0#6))
  | .ecopyTfill d a t r => some (wordOf (0 |> put 21#6 |> put d |> put a |> put t |> put 2#4 |> put r |> put 1#6))
  | .ecomp d a t r => some (wordOf (0 |> put 21#6 |> put d |> put a |> put t |> put 3#4 |> put r |> put 0#6))
  | .ecoll d a t r => some (wordOf (0 |> put 21#6 |> put d |> put a |> put t |> put 4#4 |> put r |> put 0#6))
  | .estat d a => some (wordOf (0 |> put 21#6 |> put d |> put a |> put 0#5 |> put 5#4 |> put 0#1 |> put 0#6))
  | .ewait d a t r => some (wordOf (0 |> put 21#6 |> put d |> put a |> put t |> put 6#4 |> put r |> put 0#6))
  | .tstat d n => some (wordOf (0 |> put 21#6 |> put d |> put 0#1 |> put n |> put 0#5 |> put 7#4 |> put 0#1 |> put 0#6))
  | .twait d n t r => some (wordOf (0 |> put 21#6 |> put d |> put 0#1 |> put n |> put t |> put 8#4 |> put r |> put 0#6))
  | .tsetEmpty d n => some (wordOf (0 |> put 21#6 |> put d |> put 0#1 |> put n |> put 0#5 |> put 9#4 |> put 0#1 |> put 0#6))
  | .tsetReady d n => some (wordOf (0 |> put 21#6 |> put d |> put 0#1 |> put n |> put 0#5 |> put 9#4 |> put 0#1 |> put 2#6))
  | .tdrain d a t r => some (wordOf (0 |> put 21#6 |> put d |> put a |> put t |> put 10#4 |> put r |> put 0#6))
  | .fence s => some (wordOf (0 |> put 22#6 |> put 0#21 |> put 0#2 |> put s))
  | .fenceAcq s => some (wordOf (0 |> put 22#6 |> put 0#21 |> put 1#2 |> put s))
  | .fenceRel s => some (wordOf (0 |> put 22#6 |> put 0#21 |> put 2#2 |> put s))
  | .cfgrd d i => some (wordOf (0 |> put 23#6 |> put d |> put 0#5 |> put 0#4 |> put i))
  | .cfgwr a i => some (wordOf (0 |> put 23#6 |> put 0#5 |> put a |> put 1#4 |> put i))
  | .trap c => some (wordOf (0 |> put 24#6 |> put 0#10 |> put 0#4 |> put c))
  | .tret => some (wordOf (0 |> put 24#6 |> put 0#10 |> put 1#4 |> put 0#12))
  | .brk c => some (wordOf (0 |> put 24#6 |> put 0#10 |> put 2#4 |> put c))
  | .tmark a c => some (wordOf (0 |> put 24#6 |> put 0#5 |> put a |> put 3#4 |> put c))
  | .cregNew d a => some (wordOf (0 |> put 25#6 |> put d |> put a |> put 0#5 |> put 0#3 |> put 0#8))
  | .cregFree d a => some (wordOf (0 |> put 25#6 |> put d |> put a |> put 0#5 |> put 1#3 |> put 0#8))
  | .cregFind d a => some (wordOf (0 |> put 25#6 |> put d |> put a |> put 0#5 |> put 2#3 |> put 0#8))
  | .vcfg d n => some (wordOf (0 |> put 26#6 |> put d |> put 0#19 |> put n))
  | .vsetl c d a g y s => some (wordOf (0 |> put 32#6 |> put c |> put 0#2 |> put d |> put a |> put g |> put y |> put 0#1 |> put s |> put 0#1 |> put 0#3))
  | .vsetlMax c d g y s => some (wordOf (0 |> put 32#6 |> put c |> put 0#2 |> put d |> put 0#6 |> put g |> put y |> put 0#1 |> put s |> put 1#1 |> put 0#3))
  | .vloop c l f n => some (wordOf (0 |> put 33#6 |> put c |> put l |> put f |> put n |> put 0#5 |> put 0#2))
  | .vloopR c l f n s => some (wordOf (0 |> put 33#6 |> put c |> put l |> put f |> put n |> put 0#5 |> put s))
  | .vlend c l b => some (wordOf (0 |> put 33#6 |> put c |> put l |> put b |> put 0#6 |> put 2#5 |> put 0#2))
  | .vexit c l m => some (wordOf (0 |> put 33#6 |> put c |> put l |> put 0#13 |> put m |> put 2#5 |> put 1#2))
  | .vreply c r k => some (wordOf (0 |> put 33#6 |> put c |> put r |> put 0#6 |> put k |> put 2#5 |> put 2#2))
  | .vend c => some (wordOf (0 |> put 33#6 |> put c |> put 0#18 |> put 4#5 |> put 0#2))
  | .sadd c d a b => some (wordOf (0 |> put 33#6 |> put c |> put 0#2 |> put d |> put a |> put b |> put 8#5 |> put 0#2))
  | .ssub c d a b => some (wordOf (0 |> put 33#6 |> put c |> put 0#2 |> put d |> put a |> put b |> put 8#5 |> put 1#2))
  | .sand c d a b => some (wordOf (0 |> put 33#6 |> put c |> put 0#2 |> put d |> put a |> put b |> put 8#5 |> put 2#2))
  | .sor c d a b => some (wordOf (0 |> put 33#6 |> put c |> put 0#2 |> put d |> put a |> put b |> put 8#5 |> put 3#2))
  | .sxor c d a b => some (wordOf (0 |> put 33#6 |> put c |> put 0#2 |> put d |> put a |> put b |> put 9#5 |> put 0#2))
  | .ssll c d a b => some (wordOf (0 |> put 33#6 |> put c |> put 0#2 |> put d |> put a |> put b |> put 9#5 |> put 1#2))
  | .ssrl c d a b => some (wordOf (0 |> put 33#6 |> put c |> put 0#2 |> put d |> put a |> put b |> put 9#5 |> put 2#2))
  | .smul c d a b => some (wordOf (0 |> put 33#6 |> put c |> put 0#2 |> put d |> put a |> put b |> put 9#5 |> put 3#2))
  | .sminu c d a b => some (wordOf (0 |> put 33#6 |> put c |> put 0#2 |> put d |> put a |> put b |> put 10#5 |> put 0#2))
  | .smaxu c d a b => some (wordOf (0 |> put 33#6 |> put c |> put 0#2 |> put d |> put a |> put b |> put 10#5 |> put 1#2))
  | .saddi c d a i => some (wordOf (0 |> put 33#6 |> put c |> put 0#2 |> put d |> put a |> put i |> put 12#5 |> put 0#2))
  | .sli c d i => some (wordOf (0 |> put 33#6 |> put c |> put 0#2 |> put d |> put i |> put 12#5 |> put 1#2))
  | .vcfgrd c d r => some (wordOf (0 |> put 33#6 |> put c |> put 0#2 |> put d |> put r |> put 16#5 |> put 0#2))
  | .vld c v b m h => some (wordOf (0 |> put 34#6 |> put c |> put v |> put b |> put 0#6 |> put m |> put 0#3 |> put 0#1 |> put h))
  | .vldBo c v b o m h => some (wordOf (0 |> put 34#6 |> put c |> put v |> put b |> put o |> put m |> put 1#3 |> put 0#1 |> put h))
  | .vldS c v b s m h => some (wordOf (0 |> put 34#6 |> put c |> put v |> put b |> put s |> put m |> put 2#3 |> put 0#1 |> put h))
  | .vldT c v b t m h => some (wordOf (0 |> put 34#6 |> put c |> put v |> put b |> put 0#2 |> put t |> put m |> put 4#3 |> put 0#1 |> put h))
  | .vldFf c v b m h => some (wordOf (0 |> put 34#6 |> put c |> put v |> put b |> put 0#6 |> put m |> put 6#3 |> put 0#1 |> put h))
  | .vldFfBo c v b o m h => some (wordOf (0 |> put 34#6 |> put c |> put v |> put b |> put o |> put m |> put 7#3 |> put 0#1 |> put h))
  | .vldx c v b i m w s => some (wordOf (0 |> put 35#6 |> put c |> put v |> put b |> put i |> put m |> put 0#2 |> put w |> put s))
  | .vldd c v b m => some (wordOf (0 |> put 36#6 |> put c |> put v |> put b |> put 0#6 |> put m |> put 0#2 |> put 0#3))
  | .vlddX c v b i m w => some (wordOf (0 |> put 36#6 |> put c |> put v |> put b |> put i |> put m |> put 1#2 |> put w |> put 0#1))
  | .vst c v b m h => some (wordOf (0 |> put 37#6 |> put c |> put v |> put b |> put 0#6 |> put m |> put 0#3 |> put 0#1 |> put h))
  | .vstS c v b s m h => some (wordOf (0 |> put 37#6 |> put c |> put v |> put b |> put s |> put m |> put 2#3 |> put 0#1 |> put h))
  | .vstT c v b t m h => some (wordOf (0 |> put 37#6 |> put c |> put v |> put b |> put 0#2 |> put t |> put m |> put 4#3 |> put 0#1 |> put h))
  | .vstApp c v b r m h => some (wordOf (0 |> put 37#6 |> put c |> put v |> put b |> put 1#3 |> put r |> put m |> put 6#3 |> put 0#1 |> put h))
  | .vstx c v b i m w s => some (wordOf (0 |> put 38#6 |> put c |> put v |> put b |> put i |> put m |> put 0#2 |> put w |> put s))
  | .vstd c v b f => some (wordOf (0 |> put 39#6 |> put c |> put v |> put b |> put 0#11 |> put f))
  | .vbopAdd c v b i m p => some (wordOf (0 |> put 40#6 |> put c |> put v |> put b |> put i |> put m |> put p |> put 0#3))
  | .vbopAnd c v b i m p => some (wordOf (0 |> put 40#6 |> put c |> put v |> put b |> put i |> put m |> put p |> put 1#3))
  | .vbopOr c v b i m p => some (wordOf (0 |> put 40#6 |> put c |> put v |> put b |> put i |> put m |> put p |> put 2#3))
  | .vbopXor c v b i m p => some (wordOf (0 |> put 40#6 |> put c |> put v |> put b |> put i |> put m |> put p |> put 3#3))
  | .vbopSmin c v b i m p => some (wordOf (0 |> put 40#6 |> put c |> put v |> put b |> put i |> put m |> put p |> put 4#3))
  | .vbopSmax c v b i m p => some (wordOf (0 |> put 40#6 |> put c |> put v |> put b |> put i |> put m |> put p |> put 5#3))
  | .vbopFadd c v b i m p => some (wordOf (0 |> put 40#6 |> put c |> put v |> put b |> put i |> put m |> put p |> put 6#3))
  | .vbopQadd c v b i m p => some (wordOf (0 |> put 40#6 |> put c |> put v |> put b |> put i |> put m |> put p |> put 7#3))
  | .vaddVv c d a b m => some (wordOf (0 |> put 41#6 |> put c |> put d |> put a |> put b |> put m |> put 0#4))
  | .vaddVi c d a i m => some (wordOf (0 |> put 41#6 |> put c |> put d |> put a |> put i |> put m |> put 1#4))
  | .vaddVx c d a x m => some (wordOf (0 |> put 41#6 |> put c |> put d |> put a |> put x |> put m |> put 2#4))
  | .vsubVv c d a b m => some (wordOf (0 |> put 41#6 |> put c |> put d |> put a |> put b |> put m |> put 3#4))
  | .vsubVx c d a x m => some (wordOf (0 |> put 41#6 |> put c |> put d |> put a |> put x |> put m |> put 4#4))
  | .vrsubVx c d a x m => some (wordOf (0 |> put 41#6 |> put c |> put d |> put a |> put x |> put m |> put 5#4))
  | .vrsubVi c d a i m => some (wordOf (0 |> put 41#6 |> put c |> put d |> put a |> put i |> put m |> put 6#4))
  | .vmulVv c d a b m => some (wordOf (0 |> put 41#6 |> put c |> put d |> put a |> put b |> put m |> put 7#4))
  | .vmulVx c d a x m => some (wordOf (0 |> put 41#6 |> put c |> put d |> put a |> put x |> put m |> put 8#4))
  | .vmulh c d a b m => some (wordOf (0 |> put 41#6 |> put c |> put d |> put a |> put b |> put m |> put 9#4))
  | .vmulhuVv c d a b m => some (wordOf (0 |> put 41#6 |> put c |> put d |> put a |> put b |> put m |> put 10#4))
  | .vmulhuVx c d a x m => some (wordOf (0 |> put 41#6 |> put c |> put d |> put a |> put x |> put m |> put 11#4))
  | .vmulhsu c d a b m => some (wordOf (0 |> put 41#6 |> put c |> put d |> put a |> put b |> put m |> put 12#4))
  | .vsadd c d a b m => some (wordOf (0 |> put 41#6 |> put c |> put d |> put a |> put b |> put m |> put 13#4))
  | .vsaddu c d a b m => some (wordOf (0 |> put 41#6 |> put c |> put d |> put a |> put b |> put m |> put 14#4))
  | .vssub c d a b m => some (wordOf (0 |> put 41#6 |> put c |> put d |> put a |> put b |> put m |> put 15#4))
  | .vandVv c d a b m => some (wordOf (0 |> put 42#6 |> put c |> put d |> put a |> put b |> put m |> put 0#4))
  | .vandVx c d a x m => some (wordOf (0 |> put 42#6 |> put c |> put d |> put a |> put x |> put m |> put 1#4))
  | .vorVv c d a b m => some (wordOf (0 |> put 42#6 |> put c |> put d |> put a |> put b |> put m |> put 2#4))
  | .vorVx c d a x m => some (wordOf (0 |> put 42#6 |> put c |> put d |> put a |> put x |> put m |> put 3#4))
  | .vxorVv c d a b m => some (wordOf (0 |> put 42#6 |> put c |> put d |> put a |> put b |> put m |> put 4#4))
  | .vxorVi c d a i m => some (wordOf (0 |> put 42#6 |> put c |> put d |> put a |> put i |> put m |> put 5#4))
  | .vxorVx c d a x m => some (wordOf (0 |> put 42#6 |> put c |> put d |> put a |> put x |> put m |> put 6#4))
  | .vandn c d a b m => some (wordOf (0 |> put 42#6 |> put c |> put d |> put a |> put b |> put m |> put 7#4))
  | .vmergeVv c d a b m => some (wordOf (0 |> put 42#6 |> put c |> put d |> put a |> put b |> put m |> put 8#4))
  | .vmergeVx c d a x m => some (wordOf (0 |> put 42#6 |> put c |> put d |> put a |> put x |> put m |> put 9#4))
  | .vmergeVi c d a i m => some (wordOf (0 |> put 42#6 |> put c |> put d |> put a |> put i |> put m |> put 10#4))
  | .vmin c d a b m => some (wordOf (0 |> put 42#6 |> put c |> put d |> put a |> put b |> put m |> put 11#4))
  | .vminu c d a b m => some (wordOf (0 |> put 42#6 |> put c |> put d |> put a |> put b |> put m |> put 12#4))
  | .vmax c d a b m => some (wordOf (0 |> put 42#6 |> put c |> put d |> put a |> put b |> put m |> put 13#4))
  | .vmaxu c d a b m => some (wordOf (0 |> put 42#6 |> put c |> put d |> put a |> put b |> put m |> put 14#4))
  | .vssubu c d a b m => some (wordOf (0 |> put 42#6 |> put c |> put d |> put a |> put b |> put m |> put 15#4))
  | .vsllVv c d a b m => some (wordOf (0 |> put 43#6 |> put c |> put d |> put a |> put b |> put m |> put 0#4))
  | .vsllVi c d a i m => some (wordOf (0 |> put 43#6 |> put c |> put d |> put a |> put 0#1 |> put i |> put m |> put 1#4))
  | .vsrlVv c d a b m => some (wordOf (0 |> put 43#6 |> put c |> put d |> put a |> put b |> put m |> put 2#4))
  | .vsrlVi c d a i m => some (wordOf (0 |> put 43#6 |> put c |> put d |> put a |> put 0#1 |> put i |> put m |> put 3#4))
  | .vsraVv c d a b m => some (wordOf (0 |> put 43#6 |> put c |> put d |> put a |> put b |> put m |> put 4#4))
  | .vsraVi c d a i m => some (wordOf (0 |> put 43#6 |> put c |> put d |> put a |> put 0#1 |> put i |> put m |> put 5#4))
  | .vmseqVv c d a b m => some (wordOf (0 |> put 43#6 |> put c |> put 0#3 |> put d |> put a |> put b |> put m |> put 6#4))
  | .vmseqVx c d a x m => some (wordOf (0 |> put 43#6 |> put c |> put 0#3 |> put d |> put a |> put x |> put m |> put 7#4))
  | .vmsne c d a b m => some (wordOf (0 |> put 43#6 |> put c |> put 0#3 |> put d |> put a |> put b |> put m |> put 8#4))
  | .vmslt c d a b m => some (wordOf (0 |> put 43#6 |> put c |> put 0#3 |> put d |> put a |> put b |> put m |> put 9#4))
  | .vmsltuVv c d a b m => some (wordOf (0 |> put 43#6 |> put c |> put 0#3 |> put d |> put a |> put b |> put m |> put 10#4))
  | .vmsle c d a b m => some (wordOf (0 |> put 43#6 |> put c |> put 0#3 |> put d |> put a |> put b |> put m |> put 11#4))
  | .vmsleu c d a b m => some (wordOf (0 |> put 43#6 |> put c |> put 0#3 |> put d |> put a |> put b |> put m |> put 12#4))
  | .vmsgt c d a x m => some (wordOf (0 |> put 43#6 |> put c |> put 0#3 |> put d |> put a |> put x |> put m |> put 13#4))
  | .vmsgtu c d a x m => some (wordOf (0 |> put 43#6 |> put c |> put 0#3 |> put d |> put a |> put x |> put m |> put 14#4))
  | .vmsltuVx c d a x m => some (wordOf (0 |> put 43#6 |> put c |> put 0#3 |> put d |> put a |> put x |> put m |> put 15#4))
  | .vbslVx c d a x => some (wordOf (0 |> put 44#6 |> put c |> put d |> put a |> put x |> put 0#3 |> put 0#4))
  | .vbslVi c d a i => some (wordOf (0 |> put 44#6 |> put c |> put d |> put a |> put 0#1 |> put i |> put 0#3 |> put 1#4))
  | .vbsrVx c d a x => some (wordOf (0 |> put 44#6 |> put c |> put d |> put a |> put x |> put 0#3 |> put 2#4))
  | .vbsrVi c d a i => some (wordOf (0 |> put 44#6 |> put c |> put d |> put a |> put 0#1 |> put i |> put 0#3 |> put 3#4))
  | .vfsl c d a x => some (wordOf (0 |> put 44#6 |> put c |> put d |> put a |> put x |> put 0#3 |> put 4#4))
  | .vfsr c d a x => some (wordOf (0 |> put 44#6 |> put c |> put d |> put a |> put x |> put 0#3 |> put 5#4))
  | .vpopc c d a m => some (wordOf (0 |> put 44#6 |> put c |> put d |> put a |> put 0#6 |> put m |> put 6#4))
  | .vclz c d a m => some (wordOf (0 |> put 44#6 |> put c |> put d |> put a |> put 0#6 |> put m |> put 7#4))
  | .vctz c d a m => some (wordOf (0 |> put 44#6 |> put c |> put d |> put a |> put 0#6 |> put m |> put 8#4))
  | .vbrev c d a m => some (wordOf (0 |> put 44#6 |> put c |> put d |> put a |> put 0#6 |> put m |> put 9#4))
  | .vxchVx c d a x m => some (wordOf (0 |> put 45#6 |> put c |> put d |> put a |> put x |> put m |> put 0#4))
  | .vxchVi c d a i m => some (wordOf (0 |> put 45#6 |> put c |> put d |> put a |> put 0#2 |> put i |> put m |> put 1#4))
  | .vslideupVx c d a x m => some (wordOf (0 |> put 45#6 |> put c |> put d |> put a |> put x |> put m |> put 2#4))
  | .vslideupVi c d a i m => some (wordOf (0 |> put 45#6 |> put c |> put d |> put a |> put 0#1 |> put i |> put m |> put 3#4))
  | .vslidednVx c d a x m => some (wordOf (0 |> put 45#6 |> put c |> put d |> put a |> put x |> put m |> put 4#4))
  | .vslidednVi c d a i m => some (wordOf (0 |> put 45#6 |> put c |> put d |> put a |> put 0#1 |> put i |> put m |> put 5#4))
  | .vslide1up c d a x m => some (wordOf (0 |> put 45#6 |> put c |> put d |> put a |> put x |> put m |> put 6#4))
  | .vslide1dn c d a x m => some (wordOf (0 |> put 45#6 |> put c |> put d |> put a |> put x |> put m |> put 7#4))
  | .vpullVv c d a b m => some (wordOf (0 |> put 45#6 |> put c |> put d |> put a |> put b |> put m |> put 8#4))
  | .vpullVx c d a x m => some (wordOf (0 |> put 45#6 |> put c |> put d |> put a |> put x |> put m |> put 9#4))
  | .vpush c d a b m => some (wordOf (0 |> put 45#6 |> put c |> put d |> put a |> put b |> put m |> put 10#4))
  | .vcompress c d a m => some (wordOf (0 |> put 45#6 |> put c |> put d |> put a |> put 0#6 |> put m |> put 11#4))
  | .vextr c d a x => some (wordOf (0 |> put 45#6 |> put c |> put 0#2 |> put d |> put a |> put x |> put 0#3 |> put 12#4))
  | .vredsum c d a b m => some (wordOf (0 |> put 46#6 |> put c |> put d |> put a |> put b |> put m |> put 0#4))
  | .vredsums c d a b m => some (wordOf (0 |> put 46#6 |> put c |> put d |> put a |> put b |> put m |> put 1#4))
  | .vredmax c d a b m => some (wordOf (0 |> put 46#6 |> put c |> put d |> put a |> put b |> put m |> put 2#4))
  | .vredmaxu c d a b m => some (wordOf (0 |> put 46#6 |> put c |> put d |> put a |> put b |> put m |> put 3#4))
  | .vredmin c d a b m => some (wordOf (0 |> put 46#6 |> put c |> put d |> put a |> put b |> put m |> put 4#4))
  | .vredminu c d a b m => some (wordOf (0 |> put 46#6 |> put c |> put d |> put a |> put b |> put m |> put 5#4))
  | .vredand c d a b m => some (wordOf (0 |> put 46#6 |> put c |> put d |> put a |> put b |> put m |> put 6#4))
  | .vredor c d a b m => some (wordOf (0 |> put 46#6 |> put c |> put d |> put a |> put b |> put m |> put 7#4))
  | .vredxor c d a b m => some (wordOf (0 |> put 46#6 |> put c |> put d |> put a |> put b |> put m |> put 8#4))
  | .vscansum c d a b m => some (wordOf (0 |> put 46#6 |> put c |> put d |> put a |> put b |> put m |> put 9#4))
  | .vscanmax c d a b m => some (wordOf (0 |> put 46#6 |> put c |> put d |> put a |> put b |> put m |> put 10#4))
  | .vscanmin c d a b m => some (wordOf (0 |> put 46#6 |> put c |> put d |> put a |> put b |> put m |> put 11#4))
  | .vxscansum c d a b m => some (wordOf (0 |> put 46#6 |> put c |> put d |> put a |> put b |> put m |> put 12#4))
  | .vscanmaxu c d a b m => some (wordOf (0 |> put 46#6 |> put c |> put d |> put a |> put b |> put m |> put 13#4))
  | .vscanminu c d a b m => some (wordOf (0 |> put 46#6 |> put c |> put d |> put a |> put b |> put m |> put 14#4))
  | .mkand c d a b m => some (wordOf (0 |> put 47#6 |> put c |> put 0#3 |> put d |> put 0#3 |> put a |> put 0#3 |> put b |> put m |> put 0#4))
  | .mkor c d a b m => some (wordOf (0 |> put 47#6 |> put c |> put 0#3 |> put d |> put 0#3 |> put a |> put 0#3 |> put b |> put m |> put 1#4))
  | .mkxor c d a b m => some (wordOf (0 |> put 47#6 |> put c |> put 0#3 |> put d |> put 0#3 |> put a |> put 0#3 |> put b |> put m |> put 2#4))
  | .mkandn c d a b m => some (wordOf (0 |> put 47#6 |> put c |> put 0#3 |> put d |> put 0#3 |> put a |> put 0#3 |> put b |> put m |> put 3#4))
  | .mknot c d a m => some (wordOf (0 |> put 47#6 |> put c |> put 0#3 |> put d |> put 0#3 |> put a |> put 0#6 |> put m |> put 4#4))
  | .mkfill c d m => some (wordOf (0 |> put 47#6 |> put c |> put 0#3 |> put d |> put 0#12 |> put m |> put 5#4))
  | .mkspreadI c d a m => some (wordOf (0 |> put 47#6 |> put c |> put 0#3 |> put d |> put 0#3 |> put a |> put 0#6 |> put m |> put 6#4))
  | .mkspreadX c d a m => some (wordOf (0 |> put 47#6 |> put c |> put 0#3 |> put d |> put 0#3 |> put a |> put 0#6 |> put m |> put 7#4))
  | .mkparity c d a m => some (wordOf (0 |> put 47#6 |> put c |> put 0#3 |> put d |> put 0#3 |> put a |> put 0#6 |> put m |> put 8#4))
  | .mkfirst c d a m => some (wordOf (0 |> put 47#6 |> put c |> put 0#3 |> put d |> put 0#3 |> put a |> put 0#6 |> put m |> put 9#4))
  | .mkcount c d a m => some (wordOf (0 |> put 47#6 |> put c |> put 0#2 |> put d |> put 0#3 |> put a |> put 0#6 |> put m |> put 10#4))
  | .mkfind c d a m => some (wordOf (0 |> put 47#6 |> put c |> put 0#2 |> put d |> put 0#3 |> put a |> put 0#6 |> put m |> put 11#4))
  | .mkfindL c d a m => some (wordOf (0 |> put 47#6 |> put c |> put 0#2 |> put d |> put 0#3 |> put a |> put 0#6 |> put m |> put 12#4))
  | .vrank c d a m => some (wordOf (0 |> put 47#6 |> put c |> put d |> put 0#3 |> put a |> put 0#6 |> put m |> put 13#4))
  | .vfaddVv c d a b m => some (wordOf (0 |> put 48#6 |> put c |> put d |> put a |> put b |> put m |> put 0#4))
  | .vfaddVx c d a x m => some (wordOf (0 |> put 48#6 |> put c |> put d |> put a |> put x |> put m |> put 1#4))
  | .vfsubVv c d a b m => some (wordOf (0 |> put 48#6 |> put c |> put d |> put a |> put b |> put m |> put 2#4))
  | .vfsubVx c d a x m => some (wordOf (0 |> put 48#6 |> put c |> put d |> put a |> put x |> put m |> put 3#4))
  | .vfrsub c d a x m => some (wordOf (0 |> put 48#6 |> put c |> put d |> put a |> put x |> put m |> put 4#4))
  | .vfmulVv c d a b m => some (wordOf (0 |> put 48#6 |> put c |> put d |> put a |> put b |> put m |> put 5#4))
  | .vfmulVx c d a x m => some (wordOf (0 |> put 48#6 |> put c |> put d |> put a |> put x |> put m |> put 6#4))
  | .vfdivVv c d a b m => some (wordOf (0 |> put 48#6 |> put c |> put d |> put a |> put b |> put m |> put 7#4))
  | .vfdivVx c d a x m => some (wordOf (0 |> put 48#6 |> put c |> put d |> put a |> put x |> put m |> put 8#4))
  | .vfrdiv c d a x m => some (wordOf (0 |> put 48#6 |> put c |> put d |> put a |> put x |> put m |> put 9#4))
  | .vfsqrt c d a m => some (wordOf (0 |> put 48#6 |> put c |> put d |> put a |> put 0#6 |> put m |> put 10#4))
  | .vfmin c d a b m => some (wordOf (0 |> put 48#6 |> put c |> put d |> put a |> put b |> put m |> put 11#4))
  | .vfmax c d a b m => some (wordOf (0 |> put 48#6 |> put c |> put d |> put a |> put b |> put m |> put 12#4))
  | .vfsgnj c d a b m => some (wordOf (0 |> put 48#6 |> put c |> put d |> put a |> put b |> put m |> put 13#4))
  | .vfsgnjn c d a b m => some (wordOf (0 |> put 48#6 |> put c |> put d |> put a |> put b |> put m |> put 14#4))
  | .vfsgnjx c d a b m => some (wordOf (0 |> put 48#6 |> put c |> put d |> put a |> put b |> put m |> put 15#4))
  | .vfmacPpVv c d a b m => some (wordOf (0 |> put 49#6 |> put c |> put d |> put a |> put b |> put m |> put 0#4))
  | .vfmacPpVx c d a x m => some (wordOf (0 |> put 49#6 |> put c |> put d |> put a |> put x |> put m |> put 1#4))
  | .vfmacNn c d a b m => some (wordOf (0 |> put 49#6 |> put c |> put d |> put a |> put b |> put m |> put 2#4))
  | .vfmacPn c d a b m => some (wordOf (0 |> put 49#6 |> put c |> put d |> put a |> put b |> put m |> put 3#4))
  | .vfmacNp c d a b m => some (wordOf (0 |> put 49#6 |> put c |> put d |> put a |> put b |> put m |> put 4#4))
  | .vfmad c d a b m => some (wordOf (0 |> put 49#6 |> put c |> put d |> put a |> put b |> put m |> put 5#4))
  | .vfcmpEqVv c d a b m => some (wordOf (0 |> put 49#6 |> put c |> put 0#3 |> put d |> put a |> put b |> put m |> put 6#4))
  | .vfcmpEqVx c d a x m => some (wordOf (0 |> put 49#6 |> put c |> put 0#3 |> put d |> put a |> put x |> put m |> put 7#4))
  | .vfcmpLtVv c d a b m => some (wordOf (0 |> put 49#6 |> put c |> put 0#3 |> put d |> put a |> put b |> put m |> put 8#4))
  | .vfcmpLe c d a b m => some (wordOf (0 |> put 49#6 |> put c |> put 0#3 |> put d |> put a |> put b |> put m |> put 9#4))
  | .vfcmpGt c d a x m => some (wordOf (0 |> put 49#6 |> put c |> put 0#3 |> put d |> put a |> put x |> put m |> put 10#4))
  | .vfcmpGe c d a x m => some (wordOf (0 |> put 49#6 |> put c |> put 0#3 |> put d |> put a |> put x |> put m |> put 11#4))
  | .vfcmpLtVx c d a x m => some (wordOf (0 |> put 49#6 |> put c |> put 0#3 |> put d |> put a |> put x |> put m |> put 12#4))
  | .vfcmpNe c d a b m => some (wordOf (0 |> put 49#6 |> put c |> put 0#3 |> put d |> put a |> put b |> put m |> put 13#4))
  | .vfkind c d a m => some (wordOf (0 |> put 49#6 |> put c |> put d |> put a |> put 0#6 |> put m |> put 14#4))
  | .vfcmpUn c d a b m => some (wordOf (0 |> put 49#6 |> put c |> put 0#3 |> put d |> put a |> put b |> put m |> put 15#4))
  | .vfcvt c d a y z m => some (wordOf (0 |> put 50#6 |> put c |> put d |> put a |> put y |> put z |> put m |> put 0#4))
  | .vfcvtU c d a y z m => some (wordOf (0 |> put 50#6 |> put c |> put d |> put a |> put y |> put z |> put m |> put 1#4))
  | .vfcvtRtz c d a y z m => some (wordOf (0 |> put 50#6 |> put c |> put d |> put a |> put y |> put z |> put m |> put 2#4))
  | .vfcvtURtz c d a y z m => some (wordOf (0 |> put 50#6 |> put c |> put d |> put a |> put y |> put z |> put m |> put 3#4))
  | .vdrescale c d a x m => some (wordOf (0 |> put 50#6 |> put c |> put d |> put a |> put x |> put m |> put 4#4))
  | .vfsumO c d a b m => some (wordOf (0 |> put 51#6 |> put c |> put d |> put a |> put b |> put m |> put 0#4))
  | .vfsumT c d a b m => some (wordOf (0 |> put 51#6 |> put c |> put d |> put a |> put b |> put m |> put 1#4))
  | .vfredmax c d a b m => some (wordOf (0 |> put 51#6 |> put c |> put d |> put a |> put b |> put m |> put 2#4))
  | .vfredmin c d a b m => some (wordOf (0 |> put 51#6 |> put c |> put d |> put a |> put b |> put m |> put 3#4))
  | .vrand c d m => some (wordOf (0 |> put 51#6 |> put c |> put d |> put 0#12 |> put m |> put 4#4))
  | .vqaddVv c d a b m => some (wordOf (0 |> put 52#6 |> put c |> put d |> put a |> put b |> put m |> put 0#4))
  | .vqaddVx c d a x m => some (wordOf (0 |> put 52#6 |> put c |> put d |> put a |> put x |> put m |> put 1#4))
  | .vqsubVv c d a b m => some (wordOf (0 |> put 52#6 |> put c |> put d |> put a |> put b |> put m |> put 2#4))
  | .vqsubVx c d a x m => some (wordOf (0 |> put 52#6 |> put c |> put d |> put a |> put x |> put m |> put 3#4))
  | .vqrsub c d a x m => some (wordOf (0 |> put 52#6 |> put c |> put d |> put a |> put x |> put m |> put 4#4))
  | .vqmulVv c d a b m => some (wordOf (0 |> put 52#6 |> put c |> put d |> put a |> put b |> put m |> put 5#4))
  | .vqmulVx c d a x m => some (wordOf (0 |> put 52#6 |> put c |> put d |> put a |> put x |> put m |> put 6#4))
  | .vqdivVv c d a b m => some (wordOf (0 |> put 52#6 |> put c |> put d |> put a |> put b |> put m |> put 7#4))
  | .vqdivVx c d a x m => some (wordOf (0 |> put 52#6 |> put c |> put d |> put a |> put x |> put m |> put 8#4))
  | .vqrdiv c d a x m => some (wordOf (0 |> put 52#6 |> put c |> put d |> put a |> put x |> put m |> put 9#4))
  | .vqneg c d a m => some (wordOf (0 |> put 52#6 |> put c |> put d |> put a |> put 0#6 |> put m |> put 10#4))
  | .vqinv c d a m => some (wordOf (0 |> put 52#6 |> put c |> put d |> put a |> put 0#6 |> put m |> put 11#4))
  | .vqmaccVv c d a b m => some (wordOf (0 |> put 52#6 |> put c |> put d |> put a |> put b |> put m |> put 12#4))
  | .vqmaccVx c d a x m => some (wordOf (0 |> put 52#6 |> put c |> put d |> put a |> put x |> put m |> put 13#4))
  | .vqeqVv c d a b m => some (wordOf (0 |> put 52#6 |> put c |> put 0#3 |> put d |> put a |> put b |> put m |> put 14#4))
  | .vqeqVx c d a x m => some (wordOf (0 |> put 52#6 |> put c |> put 0#3 |> put d |> put a |> put x |> put m |> put 15#4))
  | .vqencVv c d a b m => some (wordOf (0 |> put 53#6 |> put c |> put d |> put a |> put b |> put m |> put 0#4))
  | .vqencVx c d a x m => some (wordOf (0 |> put 53#6 |> put c |> put d |> put a |> put x |> put m |> put 1#4))
  | .vqencVi c d a i m => some (wordOf (0 |> put 53#6 |> put c |> put d |> put a |> put 0#1 |> put i |> put m |> put 2#4))
  | .vqdec c d a m => some (wordOf (0 |> put 53#6 |> put c |> put d |> put a |> put 0#6 |> put m |> put 3#4))
  | .vqdigVx c d a x m => some (wordOf (0 |> put 53#6 |> put c |> put d |> put a |> put x |> put m |> put 4#4))
  | .vqdigVi c d a i m => some (wordOf (0 |> put 53#6 |> put c |> put d |> put a |> put 0#1 |> put i |> put m |> put 5#4))
  | .vqval c d a m => some (wordOf (0 |> put 53#6 |> put c |> put d |> put a |> put 0#6 |> put m |> put 6#4))
  | .mmrow c d a s l o f => some (wordOf (0 |> put 54#6 |> put c |> put d |> put a |> put s |> put l |> put o |> put f))
  | .mwld c t s f => some (wordOf (0 |> put 55#6 |> put c |> put 0#6 |> put 0#2 |> put t |> put s |> put 0#7 |> put f))
  | .mwclr c s => some (wordOf (0 |> put 55#6 |> put c |> put 1#6 |> put 0#6 |> put s |> put 0#11))
  | .vpclr c d => some (wordOf (0 |> put 56#6 |> put c |> put d |> put 0#12 |> put 0#7))
  | .vpmclr c => some (wordOf (0 |> put 56#6 |> put c |> put 0#18 |> put 1#7))
  | .vpmask c d a => some (wordOf (0 |> put 56#6 |> put c |> put 0#3 |> put d |> put a |> put 0#6 |> put 2#7))
  | .vid c d => some (wordOf (0 |> put 56#6 |> put c |> put d |> put 0#12 |> put 3#7))
  | .vmvR c d a n => some (wordOf (0 |> put 56#6 |> put c |> put d |> put a |> put 0#4 |> put n |> put 4#7))
  | .vstBo c v b o m h => some (wordOf (0 |> put 37#6 |> put c |> put v |> put b |> put o |> put m |> put 1#3 |> put 0#1 |> put h))
  | .badWord _ _ => none
  | .fetchFault => none
  | .hartKill _ => none
  | .chipIncarnationAnnouncement _ _ => none
  | .fabricFrameDrop _ => none
  | .tenbootComplete _ => none
  | .unbindingComplete _ _ => none

end Sys2Proof
end

