-- ==== Sys2Proof/Config.lean ====
section
/-! DEFINITION. What an implementation fixes and the spec does not state: constants without a body, so that no proof can
see their values (entries 7 and 8), and the sizes that the spec gives as figures of the part. -/

namespace Sys2Proof.Config

/-- Cores of the package (R14): 25 on each of 8 compute dies. -/
def cores : Nat := 200

/-- The bytes of the raw DEFLATE stream that `ecomp` with OP 0 writes for an input: the same on every device, but the spec
gives no choice of blocks and matches (R144; entry 7). -/
opaque deflate : List Byte → List Byte

/-- A free value, one for each number, for a result that the spec leaves open (entry 7). -/
opaque freeWord : Nat → Word

/-- A byte that another key than the one it was written under decrypts (R77; entry 4): the numbers of the two keys, the place, and the
16-byte block as it was written. -/
opaque otherKey : Nat → Nat → Nat → List Byte → Byte

/-- Where in the near tier Apiary keeps the machine-check ring, in records of 64 bytes (R435; entry 58). -/
opaque mcPlace : Nat

/-- KMAC256 of a saved context's line (R407; entry 75): the number of the key, the line's 64 bytes, its shadow-store address, the HID and the
save counter. -/
opaque kmac256 : Nat → List Byte → Nat → Nat → Nat → Word

/-- The shadow-store address of a line of a hart's saved context (R407; entry 75). -/
opaque shadowAddr : Nat → Nat → Nat

/-- The port by which frames for a chip leave, where no route is written: its low bit (R461; entry 83). -/
opaque fabricPort : Nat → Nat

/-- The silicon stepping: true for B1, false for B0 (R1; entry 8). -/
opaque stepB1 : Bool

/-- The 64-byte entries that the arrival log of a tenant holds (R446; entry 69). -/
opaque logEntries : Nat

/-- The rank of a NaN among the magnitudes that `ecomp` with OP 2 compares, by its code: the spec gives no order (R264; entry 7). -/
opaque nanRank : Nat → Nat

/-- The firmware measurement FWMEAS (R458; entry 8). -/
opaque fwmeas : List Byte

/-- The public identity key IDPUB (R459; entry 8). -/
opaque idpub : List Byte

/-- SHAKE256 of a page's bytes, 64 bytes (R460; entry 8). -/
opaque shake256 : List Byte → List Byte

/-- The ML-DSA-65 signature of Apiary over the first 156 bytes of a job record (R460; entry 8). -/
opaque sign : List Byte → List Byte

/-- The answer of the physical function to an SPDM request; the flag tells a measurement request (R459; entry 8). -/
opaque spdm : Bool → List Byte

end Sys2Proof.Config
end

