-- ==== Sys2Proof/Machine/State.lean ====
section
/-! DEFINITION. The state of the machine, as plain data: everything the spec gives the package, and the plan of moves.
A table (`Tab`) holds what differs from the value an unlisted key reads as. Times are GTB ticks (R3), in `Nat`. -/

namespace Sys2Proof.Machine

/-- A mode: A application, S supervisor, D device (R302). -/
inductive Mode where
  | a
  | s
  | d
deriving DecidableEq, Repr

/-- The code of a mode in TSTAT.PM (R302). -/
def Mode.code : Mode → Nat
  | .a => 0
  | .s => 1
  | .d => 2

/-- VTYPE (R181): VILL, and the grouping, type class and width codes of R183. -/
structure VType where
  vill : Bool
  g : BitVec 2
  ty : BitVec 3
  sw : BitVec 3
deriving DecidableEq, Repr

/-- An open loop of the vector side (R314, R315): its counter, the stages of a rotating loop (0 for a plain one), the
count c, the limit, and the top and end addresses. -/
structure Loop where
  ctr : Nat
  stages : Nat
  count : Nat
  lim : Nat
  top : Word
  fin : Word
deriving DecidableEq, Repr

/-- The vector context of a hart (R404): registers as bit strings with a poison bit for each bit (entry 5), masks, the
scalar-side registers by their codes of R36, the open loops (innermost first), VL, VTYPE and the VRAND state. -/
structure VCtx where
  v : Tab Nat
  vp : Tab Nat
  m : Tab Nat
  sc : Tab Word
  loops : List Loop
  vl : Nat
  vtype : VType
  rngk : Tab Word
  rngc : Word
deriving DecidableEq, Repr

/-- An entry of the decoupled queue (R281); `sld` is the seal of R403. -/
structure QEntry where
  addr : Word
  args : List Word
  rm : BitVec 3
  fen : BitVec 5
  fxf : Word
  dscale : Word
  qcfg : Word
  rchk : BitVec 2
  seq : BitVec 16
  sld : Bool
deriving DecidableEq, Repr

/-- A slot of the scalar history buffer (R403): the destination and its old value, and, for a VRUN, its sequence number
and address. -/
structure HistSlot where
  reg : Nat
  old : Word
  vrun : Option (BitVec 16 × Word)
deriving DecidableEq, Repr

/-- The block the vector side runs: the modes passed at its VRUN, FXF as it stood there, and the flags raised so far
(R282, R318). -/
structure Block where
  addr : Word
  seq : BitVec 16
  rm : BitVec 3
  fen : BitVec 5
  fxf : Word
  dscale : Word
  qcfg : Word
  rchk : BitVec 2
  flags : Nat
deriving DecidableEq, Repr

/-- A vector side stopped by a trap (R397): the cause, TVAL and the trapping word; the fault record, if one was written
(R164). -/
structure VStop where
  cause : Nat
  tval : Word
  tepc : Word
  frec : List Byte
deriving DecidableEq, Repr

/-- Where an access that passed its checks goes: the location, the region of a Comb access, and the latch that guards a
page (R355). -/
structure Place where
  loc : Nat
  reg : Option Nat
  guard : Option Nat
deriving DecidableEq, Repr

/-- What an explicit wait waits for (R24, R276). The scalar fields name the object or the unit. -/
inductive WaitKind where
  /-- `rqpop` (R307). -/
  | rqpop
  /-- `vsync` for blocks up to a sequence number (R308). -/
  | vsync (seq : BitVec 16)
  /-- `nap` (R359). -/
  | nap
  /-- `twait` on a tile (R150). -/
  | twait (tile : Nat)
  /-- `ewait` on a command of an engine (R147). -/
  | ewait (eng : Nat) (seq : BitVec 32)
  /-- `elease` of a kind, with the request word (R135). -/
  | elease (kind : Nat) (req : Word)
  /-- a queue slot of an engine for the command that the hart issues (R138). -/
  | slot (eng : Nat)
  /-- `swjoin` of a swarm record with a rank (R347). -/
  | swjoin (rcd : Nat) (rank : Nat)
  /-- an arrival at a swarm's open episode; `flip` for `step` (R345). -/
  | arrive (rcd : Nat) (flip : Bool)
  /-- `acq` (R352). -/
  | acq (rcd : Nat)
  /-- `send` of a message (R357). -/
  | send (rcd : Nat) (msg : Word)
  /-- `recv` into a destination (R358). -/
  | recv (rcd : Nat) (dst : Word)
  /-- the host's answer to a posted page fault (R452). -/
  | pageFault
deriving DecidableEq, Repr

/-- An explicit wait in progress: its kind, destination register, clamped deadline and issue tick (R330, R332), and the
outcome once it is decided (R289). -/
structure Wait where
  kind : WaitKind
  dst : Nat
  dead : Nat
  issued : Nat
  ans : Option Word
deriving DecidableEq, Repr

/-- An implicit wait in progress: the tick at which it began, the TVAL that names the awaited party, and the element (R334). -/
structure IWait where
  since : Nat
  party : Word
  /-- on the vector side, the element at which a word waits; on the forager's, 1 for a word that waits for its vector side in every mode and 2 for
  a SPAWN that waits for its record (R398), else 0. -/
  elem : Nat
deriving DecidableEq, Repr

/-- What an instruction in hand has begun while it waits for a party (R402), and what is taken back when the wait reaches IWL: nothing (R334,
R342, R354); nothing, with a region's bytes that count for their tenant until then (R108, R411); the hart that a SPAWN has created, with the
record of its swarm (R311); the command that an issue has queued (R139); the leaves of an SWLEAVE or of an EXIT that no home has answered yet,
each the record and the tick of its request (R286, R312, R334, R348). -/
inductive Begins where
  | stands
  | freed (tag bytes : Nat)
  | child (hid rcd : Nat)
  | command (eng : Nat) (seq : BitVec 32)
  | leaves (l : List (Nat × Nat))
  | exits (l : List (Nat × Nat))
deriving DecidableEq, Repr

/-- An instruction that has begun its effect and waits for a party to answer (R402): its destination and its result. -/
structure Begun where
  dst : Nat
  val : Word
  what : Begins
deriving DecidableEq, Repr

/-- The outcome of a vote on an element (R431): the result that it retires with, if not the one that the word computes, and whether no
two runs agreed. -/
structure Voted where
  elem : Nat
  res : Option RunRes
  failed : Bool
deriving DecidableEq, Repr

/-- A latch holding that a hart keeps (R351). -/
structure Holding where
  rcd : Nat
  obj : Nat
  num : Nat
deriving DecidableEq, Repr

/-- A halt of a hart (R440): the side that hit, the breakpoint (4 for a trigger, R445), the cut, and whether it takes one step. -/
structure Halt where
  vsd : Bool
  bp : Nat
  cut : Nat
  steps : Nat
deriving DecidableEq, Repr

/-- What a block leaves that the forager reads only once its completion is popped or a `vsync` has returned (R181, R243): VL, VTYPE,
RNGK0-RNGK3 and RNGC. -/
structure Snap where
  vl : Word
  vtype : Word
  rngk : Tab Word
  rngc : Word
deriving DecidableEq, Repr

/-- A hart (R274): identity, scheduling state, scalar context, decoupled and reply queues, vector context, waits. -/
structure Hart where
  hid : Nat
  tid : Nat
  core : Nat
  cls : Nat
  job : Word
  lanes : Nat
  /-- false only for the placeholder in hand before any hart exists, and once the hart is GONE (R276). -/
  live : Bool
  created : Bool
  slot : Option Nat
  released : Bool
  readyAt : Nat
  waitAt : Nat
  missed : Nat
  mode : Mode
  pc : Word
  held : Option Word
  x : Tab Word
  fxf : Word
  /-- QCFG without its read-only field K (R248). -/
  qcfg : Word
  dscale : Word
  iwl : Word
  maxwait : Word
  rchk : BitVec 2
  tvec : Word
  tcause : Word
  tval : Word
  tepc : Word
  tstat : Word
  ecut : Word
  frecp : Word
  lp : Nat
  /-- the tick of the last rise of LP (R388). -/
  lpAt : Nat
  nrc : BitVec 2
  queue : List QEntry
  bcnt : BitVec 16
  /-- the reply queue (R283); a completion carries what its block left. -/
  replies : List (Word × Option Snap)
  hist : List HistSlot
  vx : VCtx
  /-- what the forager reads of the vector side now, and what the last completed block left (R181, R243). -/
  seen : Snap
  lastSnap : Option Snap
  run : Option Block
  vpc : Word
  /-- the words of the issued convoy that have not completed, each with its address. -/
  conv : List (Word × IWord)
  /-- the first element not performed of the word at the head of `conv` (R402). -/
  cut : Nat
  /-- the vector side takes up a word again, which had issued or is no block's first word and no transfer's target, so that its convoy may
  start with C = 0 (R47, R399, R402). -/
  again : Bool
  /-- the votes on elements of the word at the head of `conv` (R431). -/
  votes : List Voted
  /-- the first run of that word has raised a trap, which is taken when its recheck has ended (R431, R433). -/
  owed : Bool
  /-- a compress-and-append that has made its reservation: DATA, t, g and n (R171). -/
  app : Option (Word × Nat × Nat × Nat)
  stop : Option VStop
  wait : Option Wait
  iw : Option IWait
  viw : Option IWait
  holds : List Holding
  wd : Nat
  halt : Option Halt
  /-- the breakpoints that the forager and the vector side have met and pass once, each by its number and the word's address (R439, R440). -/
  passF : List (Nat × Word)
  passV : List (Nat × Word)
  /-- the TVALs of the PAGE traps of R96 that the two sides have still to take, oldest first. -/
  pagePend : List Word
  pagePendV : List Word
  /-- a PAGE trap posted to the host and not yet answered, and whether it is the vector side's (R452, R455). -/
  post : Option (VStop × Bool)
  /-- the JOB that the next SPAWN of a launcher takes (R460). -/
  nextJob : Option Word
  /-- the traps taken and not returned from, newest first, down to the oldest PAGE of R95: its TVAL, or none for another trap (R96;
  entry 56). -/
  pageIn : List (Option Word)
  /-- ticks for which the power controller or a bandwidth regulator still holds the hart (R390; entry 57). -/
  thr : Nat
  /-- the requests to a proxy's home bank that a WAITX left without their answer: the record and the tick of issue (R367). -/
  fabOut : List (Nat × Nat)
  /-- an instruction in hand that has begun its effect (R402). -/
  begun : Option Begun
  /-- the saves of the hart's contexts so far (R407). -/
  saves : Nat
  /-- the stall cycles of the present waits of the forager and of the vector side (R416, R444). -/
  stallF : Nat
  stallV : Nat
  /-- the slot of the hart's removed bind record, while its unbinding waits for the instruction in hand, whose effect has begun (R384,
  R402). -/
  leaving : Option Nat
deriving DecidableEq, Repr

/-- A bind record (R381). -/
structure Bind where
  v : Bool
  err : Nat
  prio : Nat
  tag : Nat
  lgm : Nat
  hart : Nat
  quant : Nat
  /-- the GTB of the bind (R382), and the lane groups of a removed record whose unbinding is still in progress (R384). -/
  tick : Nat
  unbinding : Nat
  /-- the last write of dword 1 set a reserved bit (R383). -/
  bad1 : Bool
deriving DecidableEq, Repr

/-- A tile table entry (R148); the state codes are 0 EMPTY, 1 FILLING, 2 READY, 3 DRAINING. -/
structure Tile where
  tag : Nat
  eng : Nat
  st : Nat
deriving DecidableEq, Repr

/-- A weight slot (R265): the fields of MWS and the stored tile, as a bit string with the poison of each bit. -/
structure WSlot where
  tag : Nat
  fmt : Nat
  layout : Nat
  sig : Nat
  psn : Bool
  st : Nat
  data : Nat
  bad : Nat
  /-- every element is poisoned: the header was invalid or poisoned (R263). -/
  badHdr : Bool
deriving DecidableEq, Repr

/-- An entry of a core's recheck queue (R430): the hart, and its vector side as it stood before the word ran, so that a failed vote
can unwind the word and the later ones (R433). -/
structure Recheck where
  hid : Nat
  vx : VCtx
  run : Option Block
  conv : List (Word × IWord)
  vpc : Word
  votes : List Voted
deriving DecidableEq, Repr

/-- A core's own state (R381, R148, R265, R412, R391, R438, R404, R430). -/
structure Core where
  tiles : Tab Tile
  slots : Tab WSlot
  binds : Tab Bind
  pmap : Tab Word
  wdl : Word
  dbpa : Tab Word
  dbpc : Tab Word
  /-- lane group to the hart id plus one that owns the vector state in it; 0 for none (R404). -/
  lane : Tab Nat
  recheck : List Recheck
  /-- MWS bookkeeping: the matrix engine reports a checksum mismatch on its next row (R270), as data (entry 6). -/
  rowFail : Nat
  /-- ticks for which the core's clock is still stopped (R390; entry 57). -/
  clkStop : Nat
deriving DecidableEq, Repr

/-- A tenant's registers (R409-R423, R441, R445, R457, R90, R291). -/
structure Tenant where
  st : Nat
  combq : Nat
  cpyq : Nat
  cmpq : Nat
  colq : Nat
  wm : Nat
  bootBusy : Bool
  bootRes : Nat
  bootRec : Word
  bootMaxw : Word
  /-- a boot hart in CREATED whose enrolment at another chip's bank has no answer yet, and the proxy's record (R280, R291). -/
  bootChild : Option (Nat × Nat)
  ptbase : Word
  tinv : Word
  tinvBusy : Bool
  key : Bool
  /-- the number of keys loaded for the tenant so far: the present key's number (R77, R78). -/
  keyGen : Nat
  leaseLen : Nat
  cnt : Tab Word
  dlOvf : Bool
  dlEn : Bool
  dlBase : Word
  dlSize : Nat
  dlHead : Nat
  dlTail : Nat
  dbmp : Word
  rbmp : Word
  roreq : Word
  /-- the last write of ROREQ set a reserved field (R421). -/
  roBad : Bool
  rostat : Word
  trbuf : Word
  trctl : Word
  ftrig : Word
  hsch : Word
  hsmsg : Word
  hsdl : Word
  hsres : Word
  /-- the deadline of a pending host send (R457). -/
  hsDead : Nat
  releasing : Bool
  logOn : Bool
  logAt : Nat
  /-- the arrival log ran out of room (R446). -/
  logOvf : Bool
  replay : Bool
deriving DecidableEq, Repr

/-- A logged arrival (R446): its tenant, source chip and incarnation, offset, kind and the frame it delivers. -/
structure Arrival where
  tag : Nat
  offset : Nat
  ev : Frame
deriving DecidableEq, Repr

/-- A line of a command's destination (R139): the location that it translates to, if it does, its region and guard, and 0 when it
is owned, else the FCODE of the check that failed at issue. -/
structure DLine where
  loc : Option Nat
  reg : Option Nat
  guard : Option Nat
  code : Nat
deriving DecidableEq, Repr

/-- A run of bytes that a collective writes (R145): its offset from the destination, its bytes, and its poisoned 8-byte units. -/
structure CollRun where
  off : Nat
  data : List Byte
  bad : List Nat
deriving DecidableEq, Repr

/-- What a collective's close sends to a member (R145): the runs to write, LOWABS and NABS. -/
structure CollRes where
  runs : List CollRun
  lowabs : Nat
  nabs : Nat
deriving DecidableEq, Repr

/-- A command of an engine (R137): its record, issuer and progress. `kind` is 0 copy, 1 tile fill, 2 tile drain,
3 compression, 4 collective. -/
structure Cmd where
  seq : BitVec 32
  kind : Nat
  hid : Nat
  tid : Nat
  mode : Mode
  core : Nat
  src : Word
  dst : Word
  ty : Nat
  op : Nat
  len : Nat
  aux : Word
  cdl : Nat
  /-- the record's pointer, and the place of the line that holds its dwords 6 and 7. -/
  rcd : Word
  rcdLine : DLine
  /-- the lines of the destination, in order (R139). -/
  lines : List DLine
  running : Bool
  /-- the owned lines that a held access has recalled (R139, R140), by location. -/
  recalled : List Nat
  /-- what the collective's close sent, and whether the command takes part on an XCHIP swarm. -/
  res : Option CollRes
  xchip : Bool
deriving DecidableEq, Repr

/-- The kept status of a command (R146). -/
structure CmdStat where
  seq : BitVec 32
  tid : Nat
  word : Word
deriving DecidableEq, Repr

/-- An engine (R130-R147): its lease, its command queue, the commands whose harts wait for a slot (R138), the statuses kept. -/
structure Engine where
  leased : Bool
  tid : Nat
  endAt : Nat
  ser : BitVec 16
  seq : BitVec 32
  queue : List Cmd
  pend : List Cmd
  stats : List CmdStat
deriving DecidableEq, Repr

/-- A member's contribution to a collective in progress (R145): its rank, chip, hart and engine, the command's sequence number, the
data and its poisoned 8-byte units. -/
structure CollMember where
  rank : Nat
  chip : Nat
  hid : Nat
  eng : Nat
  seq : BitVec 32
  data : List Byte
  bad : List Nat
deriving DecidableEq, Repr

/-- A collective in progress at a swarm record (R145). -/
structure Coll where
  rcd : Nat
  op : Nat
  ty : Nat
  len : Nat
  dead : Nat
  members : List CollMember
deriving DecidableEq, Repr

/-- A member of a swarm (R343): its rank, hart, home chip, and standing; its arrival at the open episode. -/
structure Member where
  rank : Nat
  hid : Nat
  chip : Nat
  good : Bool
  arrived : Bool
  dead : Nat
  /-- the tick at which its arrival was issued, else that of its enrolment, and whether the arrival is a `step` (R332, R345). -/
  tick : Nat
  flip : Bool
deriving DecidableEq, Repr

/-- A pending join (R347): the hart, its rank, its deadline, and the tick at which it was issued (R332). -/
structure Join where
  hid : Nat
  rank : Nat
  dead : Nat
  tick : Nat
deriving DecidableEq, Repr

/-- A `step` result that the bank keeps until every bank has flipped (R111): the hart, the tick at which its request was issued, and the word. -/
structure StepRes where
  hid : Nat
  tick : Nat
  word : Word
deriving DecidableEq, Repr

/-- A sender or receiver that waits at a channel (R357, R358): its hart (65,536 plus the tag for the host), deadline, the
message and its poisoned 8-byte units, or the places of the destination. -/
structure ChanReq where
  hid : Nat
  dead : Nat
  data : List Byte
  bad : List Nat
  dst : List Place
deriving DecidableEq, Repr

/-- A lease request that waits at the dispatcher (R131): its hart, tenant, die, kind, request word and deadline. -/
structure LeaseReq where
  hid : Nat
  tid : Nat
  die : Nat
  kind : Nat
  req : Word
  dead : Nat
deriving DecidableEq, Repr

/-- A swarm (R343-R349): EPI, LOWABS, NABS, CST, CTICK and ABS of the last close, the members, the pending joins, and the
`step` results that wait for the banks to flip (R111). `remote` is not 0 in a proxy, whose members are the harts of this chip that its home
bank has admitted (R286, R288, R340). -/
structure Swarm where
  xchip : Bool
  remote : Word
  epi : BitVec 32
  lowabs : Nat
  nabs : Nat
  cst : Nat
  ctick : Nat
  absents : Nat
  members : List Member
  joins : List Join
  closed : List StepRes
  /-- in a proxy: the highest rank of the swarm that its home bank last reported, and the tick of that report plus one. -/
  top : Nat
  topAt : Nat
deriving DecidableEq, Repr

/-- A latch (R351, R352): HOLD, the holder (0xFFFF when free), SWP, GTICK and the queue of waiting harts with their deadlines. -/
structure Latch where
  hold : BitVec 32
  holder : Nat
  held : Bool
  swp : Word
  gtick : Nat
  queue : List (Nat × Nat)
deriving DecidableEq, Repr

/-- A channel (R356-R358): BUF, NSLOT, SZ, HEAD, TAIL, PKIND, PSW, SIL, and the waiting senders and receivers. -/
structure Chan where
  buf : Word
  nslot : Nat
  sz : Nat
  head : BitVec 32
  tail : BitVec 32
  pkind : Nat
  psw : Word
  sil : Nat
  senders : List ChanReq
  receivers : List ChanReq
deriving DecidableEq, Repr

/-- A live object, by kind (R340-R358). -/
inductive ObjKind where
  | swarm (b : Swarm)
  | latch (b : Latch)
  | chan (b : Chan)
deriving DecidableEq, Repr

/-- A live object with its number and tenant (R341). -/
structure Obj where
  num : Nat
  tag : Nat
  body : ObjKind
deriving DecidableEq, Repr

/-- What the bank keeps of a PLN word in the open episode (R109, R114, R115): the last value and its poison of each rank
that wrote it, and the exact sum with its poison. -/
structure PlnWord where
  by_ : List (Nat × Nat × Bool)
  sum : Int
  nd : Bool
  psn : Bool
deriving DecidableEq, Repr

/-- A journal entry (R119): Comb offset, old value, poison. -/
structure JEntry where
  off : Nat
  old : Nat
  psn : Bool
deriving DecidableEq, Repr

/-- A region of the Comb (R102) with what the banks keep of it: PLN words of the open episode, the episode that closed and
has not flipped in some bank, the journal and the written marks. -/
structure Region where
  tag : Nat
  disc : Nat
  ty : Nat
  rule : Nat
  qent : Nat
  base : Nat
  size : Nat
  obj : Word
  jsize : Nat
  ownk : Nat
  own : Nat
  pln : Tab PlnWord
  /-- the words and the number of the closed episode, and the banks that have not yet flipped it (R111). -/
  flip : Tab PlnWord
  flipEpi : Option (BitVec 32)
  flipBanks : List Nat
  /-- the ranks absent at the close of that episode (R112). -/
  flipAbs : Nat
  journal : List JEntry
  marks : List Nat
deriving DecidableEq, Repr

/-- A cached translation (R90): tenant, the page of the virtual address and its size, the leaf entry and its address, and the
64 KiB table pages that its walk read (R95). -/
structure TlbEntry where
  tag : Nat
  va : Nat
  sz : Nat
  leaf : Word
  leafAt : Nat
  tables : List Nat
deriving DecidableEq, Repr

/-- A plough (R66-R70). -/
structure Plough where
  stat : Nat
  tag : Nat
  big : Bool
  src : Word
  dst : Word
  ent : Word
  epoch : Nat
  thr : Nat
  max : Nat
  /-- the heat table: leaf-entry address, plus 1 for a 2 MiB and 2 for a 1 GiB page, to the count of the epoch. -/
  heat : Tab Nat
  /-- the pages, named as in the heat table, that the last epoch end chose and that have not moved. -/
  todo : List Nat
  /-- the tick of the last epoch end; the hart in mode D that commanded the move (R367; entry 20). -/
  epochAt : Nat
  byHart : Option Nat
  /-- the copy has ended, and the plough owns the lines that were written during it (step 3 of R67). -/
  own : Bool
deriving DecidableEq, Repr

/-- A die (R25-R27): incarnation, cores in reset, INCDROP, the free bytes of its shadow store (R12; entry 10), and the errors that
its controllers and banks have corrected (R72). -/
structure Die where
  inc : BitVec 12
  inReset : Bool
  /-- packets that the die dropped for a stale incarnation (R26). -/
  incdrop : Nat
  shadow : Nat
  corrected : Nat
  /-- ticks for which the die still leaves requests of other parties unanswered (R27, R334; entry 57). -/
  late : Nat
deriving DecidableEq, Repr

/-- The hub's registers (R449-R461). -/
structure Hub where
  phase : Nat
  loss : Bool
  lock : Bool
  gtbSet : Bool
  spawned : Bool
  cold : Bool
  hchip : Nat
  hevb : Word
  hevn : Nat
  hevh : Nat
  hevt : Nat
  hevd : Nat
  evseq : Nat
  ftmap : Word
  scrubp : Nat
  /-- the tick at which the last patrol-scrub pass ended (R74, R99). -/
  scrubAt : Nat
  zreq : Nat
  zreqBusy : Bool
  /-- the clean bits, the one of a region whose zeroing runs as it will read at the end (R76). -/
  clean : Nat
  mcdrop : Nat
  mchead : Nat
  mctail : Nat
  refused : Nat
  incdrop : Nat
  clsq : Tab Nat
  split : Nat
  feat0 : Nat
  featSet : Bool
  power : Nat
  clock : Nat
  chipInc : BitVec 12
  peers : Tab (Option Nat)
  nextHid : Nat
  /-- the ids of SPAWNs that a home bank has refused, which the next SPAWNs are assigned (R310). -/
  backHids : List Nat
  /-- the next sequence number of each port (R461). -/
  fabSeq : Tab Nat
  /-- the route table that the host writes: a chip's number to a port plus one (R452; entry 16). -/
  routes : Tab Nat
  /-- frames dropped for another reason than a stale incarnation (R461). -/
  fabDrop : Nat
  /-- the page that the next write of the reverse-ownership port names (entry 16). -/
  robSel : Nat
  /-- the number of the key for saved contexts, which the security engine derives at a cold start (R407). -/
  ctxKey : Nat
  /-- the firmware image fails its signature check (R458; entry 6). -/
  fwBad : Bool
deriving DecidableEq, Repr

/-- A job (R460): its number, tenant, the SHAKE256 of the first hart's entry page as it stood at its SPAWN (entry 87), and the ticks of its first
SPAWN and last GONE. -/
structure Job where
  num : Word
  tag : Nat
  hash : List Byte
  first : Nat
  last : Nat
  alive : Nat
  posted : Bool
deriving DecidableEq, Repr

/-- A finding of the restore of a saved context (R407, R408; entry 6): the hart, the line, and the tag that stands beside it, or none for a line
that reads uncorrectable. -/
structure Finding where
  hid : Nat
  line : Nat
  tag : Option Word
deriving DecidableEq, Repr

/-- A package packet in flight (R26, R27; entry 73): its sender's die and the incarnation that it carries, and the die it goes to. -/
structure Packet where
  src : Nat
  inc : BitVec 12
  dst : Nat
deriving DecidableEq, Repr

/-- The result of a request that a die of this chip has performed and not yet sent (R332; entry 57): the die, the hart, the tick of the
request, the word, the flags that it raises (R115), and the holding that the hart keeps with it (R352). -/
structure Late where
  die : Nat
  hid : Nat
  tick : Nat
  word : Word
  flags : Nat
  hold : Option Holding
deriving DecidableEq, Repr

/-- What the last instruction did, for the counters and the history buffer (R403, R415). -/
inductive Did where
  | nothing
  /-- a scalar instruction of a recorded kind retired: destination and its old value. -/
  | recorded (reg : Nat) (old : Word) (vrun : Option (BitVec 16 × Word))
  /-- any other scalar instruction retired. -/
  | retired
  /-- a vector word retired. -/
  | vector
  /-- an explicit wait was issued. -/
  | waits
  /-- a trap was entered. -/
  | trapped
deriving DecidableEq, Repr

/-- Who moves: a side of a hart, or an event of the package. -/
inductive Who where
  | forager (hid : Nat)
  | vector (hid : Nat)
  | event (i : Instr)
deriving DecidableEq, Repr

/-- A move of the plan: `dt` ticks from the move before it (entry 1). -/
structure Move where
  dt : Nat
  who : Who
deriving DecidableEq, Repr

/-- The machine: the hart in hand and the other live harts, memory by location (Ops.lean gives the map), units, and the
plan of moves (entry 1). -/
structure State where
  h : Hart
  pool : List Hart
  gtb : Nat
  mem : Tab Byte
  psn : Tab Bool
  /-- memory errors still to be found: 1 correctable, 2 uncorrectable, by poison unit (R72, R99; entry 6). -/
  ecc : Tab Nat
  /-- the number of the key under which a 32-byte sector of main memory stands, by its address; 0 for a zeroed sector (R77; entry 4). -/
  keys : Tab Nat
  /-- the lines written while a plough copies their page: the plough and the line (step 2 of R67). -/
  copied : List (Nat × Nat)
  rob : Tab Word
  /-- reverse ownership entries that read uncorrectable (R91). -/
  robBad : Tab Bool
  allot : Tab Nat
  tlb : List TlbEntry
  tlbFill : Bool
  /-- tenants whose poisoned shared table was already reported, by entry address (R97). -/
  tableRep : List Nat
  grdMarks : List (Nat × Nat)
  cores : Tab Core
  tenants : Tab Tenant
  engines : Tab Engine
  leaseQ : List LeaseReq
  colls : List Coll
  objs : Tab (Option Obj)
  regions : Tab (Option Region)
  ploughs : Tab Plough
  dies : Tab Die
  hub : Hub
  mcRing : List (List Word)
  hostRing : List (List Byte)
  alog : List Arrival
  /-- accesses from outside the package that a line's owner holds up (R140, R360), oldest first; KIND 32 to 34 for the host's. -/
  held : List Frame
  /-- the frames of messages longer than a frame that have not all arrived (R145, R461; entry 15). -/
  parts : List Frame
  outbox : List Frame
  jobs : List Job
  /-- what the next restores of saved contexts will find (R408; entry 6). -/
  restoreBad : List Finding
  /-- the package packets that have not reached their die (R26, R27; entry 73). -/
  flying : List Packet
  /-- the results that late dies have still to send (R332; entry 57). -/
  slow : List Late
  free : Nat
  did : Did
  plan : List Move
  turn : Nat
deriving DecidableEq, Repr

/-- Why the machine stops. -/
inductive Fault where
  /-- A move of the plan names an encoded instruction as an event. Raised by `step` alone; safe: no such move exists on the
  hardware. -/
  | planNotEvent
deriving DecidableEq, Repr

/-- Why the model gives an instruction no meaning. -/
inductive Refusal where
  /-- The instruction named is not modelled. Raised by an arm of `exec` alone; safe: no claim about it can be proved. -/
  | notModelled (mnemonic : String)
deriving DecidableEq, Repr

/-- VTYPE after VCFG, at a SPAWN and for dead vector state (R182, R191, R279): VILL 1 and every field 0. -/
def VType.ill : VType := { vill := true, g := 0, ty := 0, sw := 0 }

/-- A dead vector context (R191): every element 0 and unpoisoned, VL 0, VILL 1, every loop closed. -/
def VCtx.dead : VCtx :=
  { v := [], vp := [], m := [], sc := [], loops := [], vl := 0, vtype := VType.ill, rngk := [], rngc := 0 }

/-- The vector-length word of VTYPE's reset value: VILL is bit 63 (R181). -/
def vtypeIllWord : Word := 0x8000000000000000#64

/-- What dead vector state reads as (R191). -/
def Snap.dead : Snap := { vl := 0, vtype := vtypeIllWord, rngk := [], rngc := 0 }

/-- A hart before anything is written into it: the initial values of R279 with zero identity. Also the placeholder in hand
before any hart exists. -/
def Hart.blank : Hart :=
  { hid := 0, tid := 0, core := 0, cls := 0, job := 0, lanes := 4, live := false, created := false, slot := none,
    released := false, readyAt := 0, waitAt := 0, missed := 0, mode := .a, pc := 0, held := none, x := [], fxf := 0,
    qcfg := 0, dscale := 0, iwl := 100000, maxwait := 10000000000, rchk := 1, tvec := 0, tcause := 0, tval := 0,
    tepc := 0, tstat := 0, ecut := 0, frecp := 0, lp := 4, lpAt := 0, nrc := 2, queue := [], bcnt := 0, replies := [], hist := [],
    vx := VCtx.dead, seen := Snap.dead, lastSnap := none, run := none, vpc := 0,
    conv := [], cut := 0, again := false, votes := [], owed := false, app := none, stop := none, wait := none, iw := none, viw := none, holds := [], wd := 0, halt := none,
    passF := [], passV := [], pagePend := [], pagePendV := [], post := none, nextJob := none, pageIn := [], thr := 0, fabOut := [], begun := none,
    saves := 0, stallF := 0, stallV := 0, leaving := none }

/-- A bind record at reset (R381). -/
def Bind.reset : Bind :=
  { v := false, err := 0, prio := 0, tag := 0, lgm := 0, hart := 0, quant := 0, tick := 0, unbinding := 0, bad1 := false }

/-- A tile table entry at reset (R148). -/
def Tile.reset : Tile := { tag := 0, eng := 0xFF, st := 0 }

/-- A weight slot at reset (R265): FREE. -/
def WSlot.reset : WSlot :=
  { tag := 0, fmt := 0, layout := 0, sig := 0, psn := false, st := 0, data := 0, bad := 0, badHdr := false }

/-- DBPCn at reset: HART reads 0xFFFF (R438). -/
def dbpcReset : Word := 0xFFFF0000#64

/-- A core at reset. -/
def Core.reset : Core :=
  { tiles := [], slots := [], binds := [], pmap := [], wdl := 50000000, dbpa := [], dbpc := [], lane := [], recheck := [],
    rowFail := 0, clkStop := 0 }

/-- A tenant at reset (R410, R291, R90, R417, R421, R441, R445; entry 2 for what has no reset value). -/
def Tenant.reset : Tenant :=
  { st := 0, combq := 0, cpyq := 0, cmpq := 0, colq := 0, wm := 0, bootBusy := false, bootRes := 0, bootRec := 0,
    bootMaxw := 10000000000, bootChild := none, ptbase := 0, tinv := 0, tinvBusy := false, key := false, keyGen := 0, leaseLen := 100000, cnt := [],
    dlOvf := false, dlEn := false, dlBase := 0, dlSize := 2, dlHead := 0, dlTail := 0, dbmp := 0, rbmp := 0, roreq := 0, roBad := false,
    rostat := 0, trbuf := 0, trctl := 0xA04, ftrig := 0, hsch := 0, hsmsg := 0, hsdl := 0, hsres := 0, hsDead := 0,
    releasing := false, logOn := false, logAt := 0, logOvf := false, replay := false }

/-- An engine at reset: no lease, nothing queued (entry 2 for its serial and sequence numbers). -/
def Engine.reset : Engine :=
  { leased := false, tid := 0, endAt := 0, ser := 0, seq := 0, queue := [], pend := [], stats := [] }

/-- What a PLN word keeps when nobody has written it in the open episode (R109). -/
def PlnWord.none : PlnWord := { by_ := [], sum := 0, nd := false, psn := false }

/-- A plough at reset (R70). -/
def Plough.reset : Plough :=
  { stat := 0, tag := 0, big := false, src := 0, dst := 0, ent := 0, epoch := 100, thr := 64, max := 16, heat := [],
    todo := [], epochAt := 0, byHart := none, own := false }

/-- A die at reset: 48 MiB of shadow store are free (R12). -/
def Die.reset : Die := { inc := 0, inReset := false, incdrop := 0, shadow := 48 * 2 ^ 20, corrected := 0, late := 0 }

/-- The hub at reset (R449, R454; entry 2 for what has no reset value). -/
def Hub.reset : Hub :=
  { phase := 0, loss := false, lock := false, gtbSet := false, spawned := false, cold := true, hchip := 0xFFFF, hevb := 0,
    hevn := 7, hevh := 0, hevt := 0, hevd := 0, evseq := 0, ftmap := 0, scrubp := 24, scrubAt := 0, zreq := 0, zreqBusy := false,
    clean := 2 ^ 1024 - 1, mcdrop := 0, mchead := 0, mctail := 0, refused := 0, incdrop := 0, clsq := [], split := 0,
    feat0 := 0x3F, featSet := false, power := 3200, clock := 2500, chipInc := 0, peers := [], nextHid := 0, backHids := [], fabSeq := [], routes := [], fabDrop := 0, robSel := 0, ctxKey := 0,
    fwBad := false }

/-- The machine right after reset: PHASE 0, no hart, memory with nothing listed, every register at the value that its
rule or a log entry gives, and no plan. Cores keep no translations (`tlbFill` false): R90 allows them to, and the flag is the model's choice
(entry 60). -/
def State.reset : State :=
  { h := Hart.blank, pool := [], gtb := 0, mem := [], psn := [], ecc := [], keys := [], copied := [], rob := [], robBad := [], allot := [], tlb := [],
    tlbFill := false, tableRep := [], grdMarks := [], cores := [], tenants := [], engines := [], leaseQ := [], colls := [],
    objs := [], regions := [], ploughs := [], dies := [], hub := Hub.reset, mcRing := [], hostRing := [], alog := [], held := [], parts := [],
    outbox := [], jobs := [], restoreBad := [], flying := [], slow := [], free := 0, did := .nothing, plan := [], turn := 0 }

end Sys2Proof.Machine
end

