-- ==== Sys2Proof/Machine/Mem.lean ====
section
/-! DEFINITION. Memory by location, poison, the records that a finding leaves, counters and the dirty-page log.
A location is one number: a physical address below 2^52 (R61); 2^52 plus a Comb offset (R98); 2^53 plus 2^20 times the core
plus the offset in its scratchpad (R81). -/

namespace Sys2Proof.Machine

/-- The location of a Comb offset. -/
def locComb (off : Nat) : Nat := 2 ^ 52 + off

/-- The location of a scratchpad byte. -/
def locScratch (core off : Nat) : Nat := 2 ^ 53 + core * 2 ^ 20 + off

/-- The location lies in main memory. -/
def isMain (loc : Nat) : Bool := loc < 2 ^ 52

/-- The location lies in the Comb. -/
def isComb (loc : Nat) : Bool := 2 ^ 52 ≤ loc && loc < 2 ^ 53

/-- The size of the unit that carries one poison mark: a 32-byte sector of main memory (R71), an 8-byte word elsewhere
(R99, R165). -/
def unitSize (loc : Nat) : Nat := if isMain loc then 32 else 8

/-- The first location of the poison unit of a location. -/
def unitOf (loc : Nat) : Nat := loc / unitSize loc * unitSize loc

/-- The poison units that `n` bytes from a location touch. -/
def unitsOf (loc n : Nat) : List Nat :=
  if n = 0 then []
  else (List.range ((unitOf (loc + n - 1) - unitOf loc) / unitSize loc + 1)).map (fun i => unitOf loc + i * unitSize loc)

/-- One byte of memory: what an unlisted location reads as is 0 (R75, R107; entry 3 for the scratchpad). -/
def State.byteAt (s : State) (loc : Nat) : Byte := Tab.get 0 s.mem loc

/-- `n` bytes from a location, lowest first. -/
def State.bytesAt (s : State) : Nat → Nat → List Byte
  | _, 0 => []
  | loc, n + 1 => s.byteAt loc :: s.bytesAt (loc + 1) n

/-- The little-endian number at a location (R28). -/
def State.numAt (s : State) (loc n : Nat) : Nat := leNat (s.bytesAt loc n)

/-- Memory with a run of bytes written. -/
def putBytes (m : Tab Byte) : Nat → List Byte → Tab Byte
  | _, [] => m
  | loc, b :: r => putBytes (Tab.set 0 m loc b) (loc + 1) r

/-- A poison unit is marked (R71, R99). -/
def State.poisonAt (s : State) (loc : Nat) : Bool := Tab.get false s.psn (unitOf loc)

/-- Some byte of a run lies in a marked unit (R73, R99). -/
def State.poisoned (s : State) (loc n : Nat) : Bool := (unitsOf loc n).any (fun u => Tab.get false s.psn u)

/-- Marks written over a list of units. -/
def putMarks (p : Tab Bool) (b : Bool) (us : List Nat) : Tab Bool := us.foldl (fun q u => Tab.set false q u b) p

/-- The units that a run of bytes covers whole. -/
def coveredUnits (loc n : Nat) : List Nat := (unitsOf loc n).filter (fun u => loc ≤ u && u + unitSize u ≤ loc + n)

/-- The marks after a write of `n` bytes: a write that carries poison marks every unit it touches (R166), a clean write
clears the units it covers whole and leaves the others (R73, R99). -/
def marksAfter (p : Tab Bool) (loc n : Nat) (bad : Bool) : Tab Bool :=
  if bad then putMarks p true (unitsOf loc n) else putMarks p false (coveredUnits loc n)

/-- The clean bits after a write at a location: the first write to a region of HBM clears its bit (R76). -/
def cleanAfter (clean loc : Nat) : Nat := if loc < 2 ^ 40 then setBit clean (loc / 2 ^ 30) false else clean

/-- The reported poisoned table entries that a clean write of whole sectors leaves reported (R97). -/
def repAfter (l : List Nat) (loc n : Nat) (bad : Bool) : List Nat :=
  if bad then l else l.filter (fun e => !(coveredUnits loc n).contains (unitOf e))

/-- The errors still to be found after a write: a unit that is written whole has fresh check bits (R72, R73, R99). -/
def eccAfter (ecc : Tab Nat) (loc n : Nat) : Tab Nat :=
  if ecc = [] then [] else (coveredUnits loc n).foldl (fun t u => Tab.set 0 t u 0) ecc

/-- A write performed at its home: bytes, poison marks, check bits, the clean bit, and the reported table entries it mends. -/
def State.store (s : State) (loc : Nat) (bs : List Byte) (bad : Bool) : State :=
  { s with mem := putBytes s.mem loc bs, psn := marksAfter s.psn loc bs.length bad, ecc := eccAfter s.ecc loc bs.length,
           tableRep := repAfter s.tableRep loc bs.length bad,
           hub := { s.hub with clean := cleanAfter s.hub.clean loc } }

/-- The device's own write of a word, without poison. -/
def State.store64 (s : State) (loc : Nat) (v : Nat) : State := s.store loc (leBytes 8 v) false

/-- A tenant's block. -/
def State.tenant (s : State) (tag : Nat) : Tenant := Tab.get Tenant.reset s.tenants tag

/-- The state with a tenant's block changed. -/
def State.setTenant (s : State) (tag : Nat) (f : Tenant → Tenant) : State :=
  { s with tenants := Tab.set Tenant.reset s.tenants tag (f (s.tenant tag)) }

/-- A core. -/
def State.core (s : State) (c : Nat) : Core := Tab.get Core.reset s.cores c

/-- The state with a core changed. -/
def State.setCore (s : State) (c : Nat) (f : Core → Core) : State :=
  { s with cores := Tab.set Core.reset s.cores c (f (s.core c)) }

/-- The number of a tag's present key (R77): one for each tag and each time a key was loaded for it. -/
def State.keyId (s : State) (tag : Nat) : Nat := 1 + tag + 1024 * (s.tenant tag).keyGen

/-- The number of the key under which a location's sector, one data unit, stands: 0 for a sector that was only zeroed (R77; entry 4). -/
def State.keyAt (s : State) (loc : Nat) : Nat := Tab.get 0 s.keys (unitOf loc)

/-- A byte as the controller decrypts it for a tag (R77): under the key of its sector, it is the byte written; under another key the
value is not fixed, and depends on its 16-byte block and its place. -/
def State.plainByte (s : State) (tag loc : Nat) : Byte :=
  let k := s.keyAt loc
  if k = 0 || k = s.keyId tag then s.byteAt loc
  else Config.otherKey k (s.keyId tag) loc (s.bytesAt (loc / 16 * 16) 16)

/-- A location's sector stands under another key than the tag's (R77). -/
def State.foreignAt (s : State) (tag loc : Nat) : Bool := s.keyAt loc ≠ 0 && s.keyAt loc ≠ s.keyId tag

/-- Some byte of a run stands under another key than the tag's (R77). -/
def State.foreign (s : State) (tag loc n : Nat) : Bool := (unitsOf loc n).any (s.foreignAt tag)

/-- A sector put under a tag's key, as a write to a part of it does: decrypted for the tag, and encrypted again (R77). -/
def State.rekey (s : State) (tag u : Nat) : State :=
  { s with mem := if s.foreignAt tag u then putBytes s.mem u ((List.range 32).map (fun i => s.plainByte tag (u + i))) else s.mem,
           keys := Tab.set 0 s.keys u (s.keyId tag) }

/-- The bytes that a request of a tag reads. -/
def State.bytesFor (s : State) (tag loc n : Nat) : List Byte :=
  if isMain loc && s.foreign tag loc n then (List.range n).map (fun i => s.plainByte tag (loc + i)) else s.bytesAt loc n

/-- The little-endian number that a request of a tag reads. -/
def State.numFor (s : State) (tag loc n : Nat) : Nat := leNat (s.bytesFor tag loc n)

/-- The sectors that a write touches stand under the key of the writer's tag (R77). -/
def State.keyed (s : State) (tag loc n : Nat) : State :=
  if isMain loc then (unitsOf loc n).foldl (fun t u => t.rekey tag u) s else s

/-- A write of the device itself to its own memory (R77). -/
def State.storeDev (s : State) (loc : Nat) (bs : List Byte) : State := (s.keyed 0 loc bs.length).store loc bs false

/-- A die. -/
def State.die (s : State) (d : Nat) : Die := Tab.get Die.reset s.dies d

/-- The state with a die changed. -/
def State.setDie (s : State) (d : Nat) (f : Die → Die) : State :=
  { s with dies := Tab.set Die.reset s.dies d (f (s.die d)) }

/-- An engine. -/
def State.engine (s : State) (e : Nat) : Engine := Tab.get Engine.reset s.engines e

/-- The state with an engine changed. -/
def State.setEngine (s : State) (e : Nat) (f : Engine → Engine) : State :=
  { s with engines := Tab.set Engine.reset s.engines e (f (s.engine e)) }

/-- A plough, by field die 0-3. -/
def State.plough (s : State) (f : Nat) : Plough := Tab.get Plough.reset s.ploughs f

/-- The state with a plough changed. -/
def State.setPlough (s : State) (f : Nat) (g : Plough → Plough) : State :=
  { s with ploughs := Tab.set Plough.reset s.ploughs f (g (s.plough f)) }

/-- The state with the hub changed. -/
def State.setHub (s : State) (f : Hub → Hub) : State := { s with hub := f s.hub }

/-- A counter of a tenant's block advanced; tag 0 has no counters that anyone reads (R415, R416). -/
def State.count (s : State) (tag i n : Nat) : State :=
  if tag = 0 then s
  else s.setTenant tag (fun t => { t with cnt := Tab.set 0 t.cnt i (Tab.get 0 t.cnt i + word n) })

/-- The die of a core (R14). -/
def dieOfCore (c : Nat) : Nat := c / 25

/-- The latest time of the 64-bit GTB: the count stops there (R20, R21; entry 52). -/
def gtbEnd : Nat := 2 ^ 64 - 1

/-- The home die of a main-memory address (R19). -/
def homeDie (pa : Nat) : Nat := if pa < 2 ^ 40 then pa / 2 ^ 36 / 2 else bits pa 16 3

/-- The home bank of a Comb offset: die and bank (R98). -/
def combHome (off : Nat) : Nat × Nat := (bits off 25 3, bits off 7 8)

/-- The die of an engine: copy and compression engines by number, collective engines on the hub (R130). -/
def engineDie (e : Nat) : Nat := if e < 64 then e / 8 else if e < 80 then (e - 64) / 2 else 12

/-- The die that holds a location. -/
def dieOfLoc (loc : Nat) : Nat :=
  if isMain loc then homeDie loc else if isComb loc then (combHome (loc - 2 ^ 52)).1 else dieOfCore ((loc - 2 ^ 53) / 2 ^ 20)

/-- The entries of one host event: a header (R456) and 56 bytes of payload each, the last one padded. -/
def hostEntries (type tag seq n : Nat) : Nat → List Byte → List (List Byte)
  | 0, _ => []
  | k + 1, bs =>
    (leBytes 8 (type * 2 ^ 56 + n * 2 ^ 48 + (n - (k + 1)) * 2 ^ 42 + tag * 2 ^ 32 + seq)
      ++ (bs.take 56 ++ List.replicate (56 - (bs.take 56).length) 0)) :: hostEntries type tag seq n k (bs.drop 56)

/-- An event posted to the host event channel: written whole, or dropped and counted (R453, R456). -/
def State.hostPost (s : State) (type tag : Nat) (payload : List Byte) : State :=
  let n := (payload.length + 55) / 56
  let hub : Hub := { s.hub with evseq := (s.hub.evseq + 1) % 2 ^ 32 }
  if (hub.hevh + 2 ^ 32 - hub.hevt) % 2 ^ 32 + n ≤ 2 ^ hub.hevn then
    { s with hub := { hub with hevh := (hub.hevh + n) % 2 ^ 32 },
             hostRing := s.hostRing ++ hostEntries type tag s.hub.evseq n n payload }
  else { s with hub := { hub with hevd := satInc hub.hevd 32 } }

/-- HID of a record: a hart's id, or 0xFFFF for a requester that is no live hart (R434). -/
def recordHid (hid : Nat) : Nat := if hid < 65536 then hid else 0xFFFF

/-- The location of a record of the machine-check ring, by its number (R435): the ring's place is not stated (entry 58). -/
def mcAt (i : Nat) : Nat := 64 * (Config.mcPlace % (2 ^ 34 - 4096) + i % 4096)

/-- A location of the machine-check ring. -/
def inMcRing (loc : Nat) : Bool := mcAt 0 ≤ loc && loc < mcAt 0 + 64 * 4096

/-- The words of a machine-check record (R434). -/
def mcWords (kind die tag hid unit : Nat) (addr : Word) (time detail : Nat) : List Word :=
  [word (kind * 2 ^ 56 + die * 2 ^ 48 + tag * 2 ^ 38 + recordHid hid * 2 ^ 16 + unit), addr, word time, word detail, 0, 0, 0, 0]

/-- A record written into the ring under the device's own key (R77, R435). -/
def State.putRecord (s : State) (r : List Word) : State :=
  let s1 := s.storeDev (mcAt s.hub.mchead) (r.flatMap (fun w => leBytes 8 w.toNat))
  { s1 with hub := { s1.hub with mchead := (s.hub.mchead + 1) % 2 ^ 32 }, mcRing := s1.mcRing ++ [r] }

/-- A machine-check record: written to Apiary's ring, or dropped and counted when the ring is full, and posted to the host when SPLIT.ERR
says so (R435). -/
def State.mcheck (s : State) (kind die tag hid unit : Nat) (addr : Word) (detail : Nat) : State :=
  let r := mcWords kind die tag hid unit addr s.gtb detail
  let s1 :=
    if (s.hub.mchead + 2 ^ 32 - s.hub.mctail) % 2 ^ 32 < 4096 then
      s.putRecord r
    else s.setHub (fun h => { h with mcdrop := satInc h.mcdrop 32 })
  if bit s1.hub.split 3 then s1.hostPost 2 tag (r.flatMap (fun w => leBytes 8 w.toNat)) else s1

/-- The member of the far tier's interleave set that serves a far-tier address (R63). -/
def farMember (hub : Hub) (pa : Nat) : Nat := bits (pa - 2 ^ 40) 12 (bits hub.ftmap.toNat 0 3)

/-- The CXL port that serves a far-tier address: that of the member's set bit of PSET (R63). -/
def portOf (hub : Hub) (pa : Nat) : Nat :=
  ((List.range 16).filter (fun i => bit hub.ftmap.toNat (48 + i))).getD (farMember hub pa) 0

/-- The offset of a far-tier address within its port (R63). -/
def portOffset (hub : Hub) (pa : Nat) : Nat :=
  (pa - 2 ^ 40) / 2 ^ (12 + bits hub.ftmap.toNat 0 3) * 4096 + (pa - 2 ^ 40) % 4096

/-- The field die (0-3) whose port serves a far-tier address (R13, R63). -/
def fieldOf (hub : Hub) (pa : Nat) : Nat := portOf hub pa / 4

/-- The die whose controller serves a main-memory address, and the stack or the port (R13, R63, R434). -/
def memFinder (hub : Hub) (pa : Nat) : Nat × Nat :=
  if pa < 2 ^ 40 then (homeDie pa, pa / 2 ^ 36) else (8 + fieldOf hub pa, portOf hub pa)

/-- The machine-check record of a request to main memory: the controller that found it, the physical address (R434). -/
def State.mcheckMem (s : State) (kind tag hid pa : Nat) : State :=
  s.mcheck kind (memFinder s.hub pa).1 tag hid (memFinder s.hub pa).2 (word pa) 0

/-- The machine-check record of an uncorrectable unit: KIND 1 in main memory, 2 in the Comb or a scratchpad (R434). -/
def State.mcheckUnit (s : State) (tag hid u : Nat) : State :=
  if isMain u then s.mcheckMem 1 tag hid u
  else if isComb u then
    s.mcheck 2 (combHome (u - 2 ^ 52)).1 tag hid (combHome (u - 2 ^ 52)).2 (word (u - 2 ^ 52)) 0
  else s.mcheck 2 (dieOfLoc u) tag hid ((u - 2 ^ 53) / 2 ^ 20) (word ((u - 2 ^ 53) % 2 ^ 20)) 0

/-- The units that an uncorrectable read marks: the unit; both sectors of the 64-byte line for the poison indication of a CXL read
(R65). -/
def marksOf (u : Nat) : List Nat := if isMain u && 2 ^ 40 ≤ u then [u / 64 * 64, u / 64 * 64 + 32] else [u]

/-- The check of a read at one unit: a correctable error is corrected and counted, an uncorrectable one marks the unit poisoned and
leaves a record; a unit already marked leaves none (R65, R72, R99). Neither write-back clears the clean bit of R76: for the mark that
is the model's choice (entry 55). -/
def State.checkUnit (s : State) (tag hid u : Nat) : State :=
  match Tab.get 0 s.ecc u with
  | 0 => s
  | 1 =>
    ({ s with ecc := Tab.set 0 s.ecc u 0 }).setDie (if isMain u then (memFinder s.hub u).1 else dieOfLoc u)
      (fun d => { d with corrected := d.corrected + 1 })
  | _ =>
    let s1 := { s with ecc := Tab.set 0 s.ecc u 0 }
    if Tab.get false s.psn u then s1
    else ({ s1 with psn := putMarks s.psn true (marksOf u) }).mcheckUnit tag hid u

/-- The checks of a read of `n` bytes. -/
def State.checkRead (s : State) (tag hid loc n : Nat) : State :=
  if s.ecc = [] then s else (unitsOf loc n).foldl (fun t u => t.checkUnit tag hid u) s

/-- A feature has been accepted (R450, R451): before negotiation closes, by a write of FEAT0. -/
def Hub.accepted (b : Hub) (n : Nat) : Bool := bit b.feat0 n && (b.featSet || b.phase == 7)

/-- The far-tier addresses that the decoders claim: 2^LOGN x PCAP x 2^30 bytes from the base, none with PSET 0 or with the
feature not accepted (R64, R451). -/
def farSize (hub : Hub) : Nat :=
  if bits hub.ftmap.toNat 48 16 = 0 || !bit hub.feat0 0 then 0
  else 2 ^ bits hub.ftmap.toNat 0 3 * bits hub.ftmap.toNat 32 11 * 2 ^ 30

/-- A physical address has memory (R61, R63). -/
def State.hasMemory (s : State) (pa : Nat) : Bool := pa < 2 ^ 40 || (2 ^ 40 ≤ pa && pa < 2 ^ 40 + farSize s.hub)

/-- The reverse ownership entry of a physical address (R91). Where in the memory of tag 0 Apiary places the table is open: the model keeps it in
a field of its own, which no memory access reaches (entry 58). -/
def State.robAt (s : State) (pa : Nat) : Nat := (Tab.get 0 s.rob (pa / 65536)).toNat

/-- KIND of a reverse ownership entry. -/
def robKind (e : Nat) : Nat := bits e 61 2

/-- TAG of a reverse ownership entry. -/
def robTag (e : Nat) : Nat := bits e 32 10

/-- V of a reverse ownership entry. -/
def robValid (e : Nat) : Bool := bit e 63

/-- The number under which a request that no hart made is recorded: its HID reads 0xFFFF (R434). -/
def noHart : Nat := 65536

/-- The dirty-page log, before a write to a data page of a tenant with logging on (R418, R451); its bitmaps are read as every read is (R72). -/
def State.logDirty (s : State) (loc : Nat) : State :=
  if !isMain loc then s
  else
    let e := s.robAt loc
    let tag := robTag e
    let t := s.tenant tag
    if !(robValid e && robKind e == 0 && t.dlEn && s.hub.accepted 4) then s
    else
      let page := loc / 65536
      let cell := t.dbmp.toNat + page / 8
      let s0 := s.checkRead 0 noHart cell 1
      if bit (s0.numFor 0 cell 1) (page % 8) then s0
      else
        let s1 := s0.storeDev cell [BitVec.ofNat 8 (setBit (s0.numFor 0 cell 1) (page % 8) true)]
        if !t.dlOvf && (t.dlHead + 2 ^ 32 - t.dlTail) % 2 ^ 32 < 2 ^ t.dlSize then
          (s1.storeDev (t.dlBase.toNat + 8 * (t.dlHead % 2 ^ t.dlSize)) (leBytes 8 page)).setTenant tag
            (fun t => { t with dlHead := (t.dlHead + 1) % 2 ^ 32 })
        else
          let cell2 := t.rbmp.toNat + page / 32 / 8
          let s2 := s1.checkRead 0 noHart cell2 1
          (s2.storeDev cell2 [BitVec.ofNat 8 (setBit (s2.numFor 0 cell2 1) (page / 32 % 8) true)]).setTenant tag
            (fun t => { t with dlOvf := true })

/-- The key of a tag is installed (R77, R78): the device's own always is. -/
def State.hasKey (s : State) (tag : Nat) : Bool := tag == 0 || (s.tenant tag).key

/-- A main-memory request is counted at its tier (R415). -/
def State.countMem (s : State) (tag loc n : Nat) : State :=
  if loc < 2 ^ 40 then s.count tag 5 n else if isMain loc then s.count tag 6 n
  else if isComb loc then s.count tag 7 1 else s

/-- The lines of a page that a plough copies are noted when they are written (step 2 of R67). -/
def State.noteCopy (s : State) (loc : Nat) : State :=
  { s with copied := s.ploughs.foldl (fun l e =>
      if e.2.stat = 1 && !e.2.own && e.2.src.toNat ≤ loc && loc < e.2.src.toNat + (if e.2.big then 2 ^ 21 else 2 ^ 16) &&
          !l.contains (e.1, loc / 64) then (e.1, loc / 64) :: l else l) s.copied }

/-- A write by a requester of a tag at its home, not counted: without a key it is dropped and recorded (R78); else the dirty log,
then the write (R418). -/
def State.perform (s : State) (tag hid loc : Nat) (bs : List Byte) (bad : Bool) : State :=
  if isMain loc && !s.hasKey tag then s.mcheckMem 9 tag hid loc
  else (((s.logDirty loc).noteCopy loc).keyed tag loc bs.length).store loc bs bad

/-- A write by a requester of a tag at its home, counted unless it is not performed (R78, R415). -/
def State.write (s : State) (tag hid loc : Nat) (bs : List Byte) (bad : Bool) : State :=
  if isMain loc && !s.hasKey tag then s.perform tag hid loc bs bad else (s.perform tag hid loc bs bad).countMem tag loc bs.length

/-- A read by a requester of a tag: the state after the controller's check, the bytes, and whether any is poisoned; without
a key every byte is poisoned, its value is free (entry 7), and the request is recorded (R72, R78). -/
def State.read (s : State) (tag hid loc n : Nat) : State × Nat × Bool :=
  if isMain loc && !s.hasKey tag then
    ({ s.mcheckMem 9 tag hid loc with free := s.free + 1 },
      (Config.freeWord s.free).toNat % 2 ^ (8 * n), true)
  else
    let s1 := (s.checkRead tag hid loc n).countMem tag loc n
    (s1, s1.numFor tag loc n, s1.poisoned loc n)

end Sys2Proof.Machine
end

