-- ==== Sys2Proof/Machine/Comb.lean ====
section
/-! DEFINITION. The Comb: regions and their disciplines (R101-R121), live objects and their records (R340-R356), and a
write performed at its bank. -/

namespace Sys2Proof.Machine

/-- Who makes an access: the tenant, hart, core and mode, the latch holdings that go with it (R118), and whether a copy
engine or another engine makes it for that hart (R130). -/
structure Actor where
  tid : Nat
  hid : Nat
  core : Nat
  mode : Mode
  holds : List Holding
  /-- an engine or another unit makes the access, not the hart itself (R96). -/
  unit : Bool
deriving DecidableEq, Repr

/-- The kinds of access that the disciplines tell apart (R104, R362). -/
inductive AKind where
  | load
  | fetch
  | store
  | amo
  | amoLd
  | vbop
  | engineRead
  | engineWrite (copy : Bool)
deriving DecidableEq, Repr

/-- The kind reads and writes nothing. -/
def AKind.reads : AKind → Bool
  | .load => true
  | .fetch => true
  | .amoLd => true
  | .engineRead => true
  | _ => false

/-- The footprint of a region in bytes (R103). -/
def Region.footprint (r : Region) : Nat := if r.disc = 2 then 2 * r.size + 32768 else r.size

/-- The word width of a region in bytes (R102). -/
def Region.width (r : Region) : Nat := if r.ty = 0 || r.ty = 1 || r.ty = 4 then 4 else 8

/-- The region's footprint holds a Comb offset. -/
def Region.covers (r : Region) (off : Nat) : Bool := r.base ≤ off && off < r.base + r.footprint

/-- The region of a tenant that holds a Comb offset, with its number (R101). -/
def State.regionOf (s : State) (tag off : Nat) : Option (Nat × Region) :=
  s.regions.findSome? (fun e =>
    match e.2 with
    | some r => if r.tag == tag && r.covers off then some (e.1, r) else none
    | none => none)

/-- A region by number. -/
def State.region (s : State) (n : Nat) : Option Region := Tab.get none s.regions n

/-- The state with a region entered, changed or removed. -/
def State.setRegion (s : State) (n : Nat) (r : Option Region) : State :=
  { s with regions := Tab.set none s.regions n r }

/-- The Comb offset that a pointer of window 3 names (R80, R81). -/
def combOffset (p : Word) : Option Nat :=
  if bits p.toNat 56 8 = 0xD0 && bits p.toNat 28 28 = 0 then some (bits p.toNat 0 28) else none

/-- The live object whose record starts at a Comb offset. -/
def State.obj (s : State) (off : Nat) : Option Obj := Tab.get none s.objs off

/-- The live object that a pointer names. -/
def State.objPtr (s : State) (p : Word) : Option (Nat × Obj) :=
  (combOffset p).bind (fun off => (s.obj off).map (fun o => (off, o)))

/-- The live object of a number, with the offset of its record (R341). -/
def State.objNum (s : State) (n : Nat) : Option (Nat × Obj) :=
  s.objs.findSome? (fun e =>
    match e.2 with
    | some o => if o.num == n then some (e.1, o) else none
    | none => none)

/-- A byte of the Comb lies in the 256-byte record of a live object (R341). -/
def State.inRecord (s : State) (off : Nat) : Bool := (s.obj (off / 256 * 256)).isSome

/-- The members of an object that is a swarm. -/
def Obj.members (o : Obj) : List Member :=
  match o.body with
  | .swarm b => b.members
  | _ => []

/-- A hart of this chip is a member in good standing of the swarm of a number (R104, R362). -/
def State.goodIn (s : State) (num hid : Nat) : Bool :=
  match s.objNum num with
  | some (_, o) => o.members.any (fun m => m.hid == hid && m.chip == 0xFFFF && m.good)
  | none => false

/-- An actor holds the latch of a record under its current holding number (R118). -/
def Obj.heldBy (o : Obj) (a : Actor) : Bool :=
  match o.body with
  | .latch b => b.held && b.holder == a.hid && a.holds.any (fun h => h.obj == o.num && h.num == b.hold.toNat)
  | _ => false

/-- The owner test of PRV (R104, R362): the hart named, or a member in good standing of the swarm named. -/
def State.ownerOk (s : State) (ownk own : Nat) (a : Actor) : Bool :=
  if ownk = 0 then a.hid == own else if ownk = 1 then s.goodIn own a.hid else false

/-- The W-wide words of a region that `n` bytes from a Comb offset touch. -/
def Region.words (r : Region) (off n : Nat) : List Nat :=
  let w := r.width
  if n = 0 then []
  else (List.range ((off + n - 1) / w - off / w + 1)).map (fun i => (off / w + i) * w)

/-- The words of a write that need a journal entry in the current holding (R119). -/
def Region.unjournalled (r : Region) (off n : Nat) : List Nat :=
  (r.words off n).filter (fun w => !r.journal.any (fun e => e.off == w))

/-- The journal has no room for the entries that a write needs (R120). -/
def Region.journalFull (r : Region) (off n : Nat) : Bool :=
  decide (r.jsize ≠ 0) && decide (r.jsize * 16 < r.journal.length + (r.unjournalled off n).length)

/-- The swarm that a PLN region names. -/
def State.planeSwarm (s : State) (r : Region) : Option (Nat × Obj) := s.objPtr r.obj

/-- The member of a swarm that an actor of this chip is. -/
def Obj.memberOf (o : Obj) (hid : Nat) : Option Member := o.members.find? (fun m => m.hid == hid && m.chip == 0xFFFF)

/-- The ranks absent at a swarm's last close (R343). -/
def Obj.absents (o : Obj) : Nat :=
  match o.body with
  | .swarm b => b.absents
  | _ => 0

/-- The hart's `step` result of the last close has not been sent: the hart still holds the episode that closed (R112). -/
def Obj.holdsClosed (o : Obj) (hid : Nat) : Bool :=
  match o.body with
  | .swarm b => b.closed.any (fun c => c.hid == hid)
  | _ => false

/-- Where a PLN store counts (R110, R112). -/
inductive PlaneSlot where
  /-- in the open episode. -/
  | now
  /-- in the episode just closed, at a bank that has not yet received the close. -/
  | closing
  | refused
deriving DecidableEq, Repr

/-- Where a store of a member counts at the bank of a PLN word, by the episode that the member holds: the open one; or the one that closed, for
a present member whose `step` has not returned and for a member absent at that close, as long as the bank has not received the close
(R112). A FAULT region receives its close at once (entry 12). -/
def State.planeSlot (s : State) (r : Region) (hid off : Nat) : PlaneSlot :=
  match s.planeSwarm r with
  | none => .refused
  | some (_, o) =>
    match o.memberOf hid with
    | none => .refused
    | some m =>
      if m.good && !o.holdsClosed hid then .now
      else if (m.good || bit r.flipAbs m.rank) && r.flipEpi.isSome && r.rule != 3 && r.flipBanks.contains (combHome off).2 then .closing
      else .refused

/-- A store to a PLN word is admitted (R110): W wide and aligned, in the present plane, and counted in some episode. -/
def State.planeStoreOk (s : State) (r : Region) (a : Actor) (off n : Nat) : Bool :=
  decide (off < r.base + r.size) && n == r.width && decide (off % r.width = 0) && s.planeSlot r a.hid off != .refused

/-- What the discipline of a region answers to an access. -/
inductive Disc where
  | grant
  | refuse
  /-- refused because the journal or the mark table is full: TVAL bit 62 is set (R120, R355). -/
  | full
deriving DecidableEq, Repr

/-- Admit or refuse. -/
def Disc.of (b : Bool) : Disc := if b then .grant else .refuse

/-- The table of R104, with the record rule of R341 and the plane and guard rules of R109, R110, R118 and R120. -/
def State.regionDisc (s : State) (r : Region) (a : Actor) (k : AKind) (off n : Nat) : Disc :=
  if !k.reads && s.inRecord off then .refuse
  else
    match r.disc with
    | 0 => .of (s.ownerOk r.ownk r.own a)
    | 1 =>
      match k with
      | .engineWrite _ => .refuse
      | _ =>
        match s.objPtr r.obj with
        | some (_, o) =>
          if !o.heldBy a then .refuse
          else if k.reads then .grant
          else if r.journalFull off n then .full else .grant
        | none => .refuse
    | 2 =>
      match k with
      | .store => .of (s.planeStoreOk r a off n)
      | .load => .of (off < r.base + r.size || r.base + 2 * r.size ≤ off)
      | .engineRead => .of (off < r.base + r.size || r.base + 2 * r.size ≤ off)
      | _ => .refuse
    | 3 =>
      match k with
      | .engineWrite copy => .of copy
      | _ => .of k.reads
    | 4 =>
      match k with
      | .amo => .grant
      | .amoLd => .grant
      | .vbop => .grant
      | _ => .refuse
    | 5 => .grant
    | _ => .refuse

/-- A rank's store recorded at a PLN word (R109, R114): its last value replaces its earlier one. -/
def putRank (l : List (Nat × Nat × Bool)) (rank v : Nat) (bad : Bool) : List (Nat × Nat × Bool) :=
  match l with
  | [] => [(rank, v, bad)]
  | (k, w, b) :: t =>
    if rank < k then (rank, v, bad) :: (k, w, b) :: t
    else if rank = k then (rank, v, bad) :: t else (k, w, b) :: putRank t rank v bad

/-- The moduli M of the eight prime entries (R247). -/
def qModulus (e : Nat) : Nat :=
  match e with
  | 0 => 2305843009213693951
  | 1 => 4611686014132420609
  | 2 => 4052555153018976267
  | 3 => 1490116119384765625
  | 4 => 3909821048582988049
  | 5 => 22806895723069441
  | 6 => 281487861809153
  | _ => 1000009000027000027

/-- The element ND of the q format (R115, R246). -/
def qND : Nat := 2 ^ 64 - 1

/-- A q term as the banks and the lanes read it: reduced modulo M unless it is ND (R115). -/
def qRead (m x : Nat) : Nat := if x = qND then qND else x % m

/-- The exact value of a stored term under the element type of a region (R102, R115). -/
def termValue (ty w v : Nat) : Int := if ty = 0 || ty = 2 then sgn v (8 * w) else (v % 2 ^ (8 * w) : Nat)

/-- A stored value added to what the bank keeps of a PLN word (R109, R114, R115). -/
def PlnWord.add (p : PlnWord) (r : Region) (rank v : Nat) (bad : Bool) : PlnWord :=
  if r.ty = 6 then
    { by_ := putRank p.by_ rank v bad, sum := (p.sum + (v % qModulus r.qent : Nat)) % (qModulus r.qent : Nat),
      nd := p.nd || v == qND, psn := p.psn || bad }
  else
    { by_ := putRank p.by_ rank v bad, sum := p.sum + termValue r.ty r.width v, nd := false, psn := p.psn || bad }

/-- A store to a PLN word performed at its bank: it goes to the next plane of the episode it counts in (R110, R112). -/
def State.planeStore (s : State) (n : Nat) (r : Region) (hid off v : Nat) (bad : Bool) : State :=
  match s.planeSwarm r with
  | none => s
  | some (_, o) =>
    match o.memberOf hid with
    | none => s
    | some m =>
      match s.planeSlot r hid off with
      | .now =>
        s.setRegion n (some { r with
          pln := Tab.set PlnWord.none r.pln off ((Tab.get PlnWord.none r.pln off).add r m.rank v bad) })
      | .closing =>
        s.setRegion n (some { r with
          flip := Tab.set PlnWord.none r.flip off ((Tab.get PlnWord.none r.flip off).add r m.rank v bad) })
      | .refused => s

/-- The words that a write is to journal, read: an error in one is found as every read finds it (R99, R119). -/
def State.readOld (s : State) (a : Actor) (r : Region) (off len : Nat) : State :=
  (r.unjournalled off len).foldl (fun t w => t.checkRead a.tid a.hid (locComb w) r.width) s

/-- Before a write to a GRD region is performed: the journal entries of the words it is the holding's first write to, or
their written marks when the region keeps no journal (R119, R120). -/
def State.guardNote (s : State) (a : Actor) (n : Nat) (r : Region) (off len : Nat) : State :=
  if r.disc ≠ 1 then s
  else if r.jsize = 0 then
    s.setRegion n (some { r with marks := r.marks ++ (r.words off len).filter (fun w => !r.marks.contains w) })
  else
    let t := s.readOld a r off len
    t.setRegion n (some { r with journal := r.journal ++ (r.unjournalled off len).map (fun w =>
      { off := w, old := t.numAt (locComb w) r.width, psn := t.poisonAt (locComb w) }) })

/-- A store performed in the Comb by an actor, its checks passed. -/
def State.combStore (s : State) (a : Actor) (n : Nat) (r : Region) (off : Nat) (bs : List Byte) (bad : Bool) : State :=
  if r.disc = 2 then (s.planeStore n r a.hid off (leNat bs) bad).count a.tid 7 1
  else (s.guardNote a n r off bs.length).write a.tid a.hid (locComb off) bs bad

/-- The dies on which a region's footprint has words (R98). -/
def Region.dies (r : Region) : List Nat :=
  (List.range 8).filter (fun d => decide (r.base < (d + 1) * 2 ^ 25) && decide (d * 2 ^ 25 < r.base + r.footprint))

/-- The number of regions that name an object by pointer and tenant, of a discipline (R343). -/
def State.naming (s : State) (disc : Nat) (off : Nat) : List (Nat × Region) :=
  s.regions.filterMap (fun e =>
    match e.2 with
    | some r => if r.disc == disc && combOffset r.obj == some off then some (e.1, r) else none
    | none => none)

/-- Dword 0 of a live record (R342). -/
def recordHead (kind tag num : Nat) : Nat := kind * 2 ^ 60 + tag * 2 ^ 48 + num * 2 ^ 32

/-- The bytes of a record: six dwords, zeros to byte 128, and a bitmap of 1,024 bits. -/
def recordBytes (d0 d1 d2 d3 d4 d5 map : Nat) : List Byte :=
  [d0, d1, d2, d3, d4, d5].flatMap (leBytes 8) ++ List.replicate 80 0 ++ leBytes 128 map

/-- The record of a live object as its bank shows it (R342, R343, R351, R356); `npln` is the PLN regions that name it. -/
def Obj.record (o : Obj) (npln : Nat) : List Byte :=
  match o.body with
  | .swarm b =>
    recordBytes (recordHead 1 o.tag o.num) (b.epi.toNat * 2 ^ 32 + b.lowabs * 2 ^ 20 + b.nabs * 2 ^ 8 + b.cst) b.ctick
      (if b.remote = 0 then b.members.length * 2 ^ 16 + (b.members.filter (fun m => m.good)).length else 0) npln b.xchip.toNat b.absents
  | .latch b =>
    recordBytes (recordHead 2 o.tag o.num) (b.hold.toNat * 2 ^ 32 + b.holder % 65536 * 2 ^ 16 + b.held.toNat) b.swp.toNat b.gtick
      b.queue.length 0 0
  | .chan b =>
    recordBytes (recordHead 3 o.tag o.num) b.buf.toNat (b.nslot * 2 ^ 32 + b.sz) (b.head.toNat * 2 ^ 32 + b.tail.toNat) b.pkind
      b.psw.toNat b.sil

/-- A live object entered or changed, its record written at its bank before any result is sent (R341). -/
def State.setObj (s : State) (off : Nat) (o : Obj) : State :=
  { s with objs := Tab.set none s.objs off (some o),
           mem := putBytes s.mem (locComb off) (o.record (s.naming 2 off).length),
           psn := putMarks s.psn false (unitsOf (locComb off) 256) }

/-- A live object ended: its record's bytes become zero (R342). -/
def State.dropObj (s : State) (off : Nat) : State :=
  { s with objs := Tab.set none s.objs off none, mem := putBytes s.mem (locComb off) (List.replicate 256 0),
           psn := putMarks s.psn false (unitsOf (locComb off) 256) }

end Sys2Proof.Machine
end

