-- ==== Sys2Proof/Machine/Translate.lean ====
section
/-! DEFINITION. Windows (R80, R81), the page walk (R87, R88), permissions, ownership and read-duplicate pages (R89-R93), the
disciplines of pages (R362), and poisoned table entries (R95-R97). -/

namespace Sys2Proof.Machine

/-- The codes of R392. -/
def cILLOP : Nat := 1
def cILLSTREAM : Nat := 2
def cILLCONVOY : Nat := 3
def cILLCFG : Nat := 4
def cALIGN : Nat := 5
def cPAGE : Nat := 6
def cPROT : Nat := 7
def cFOREIGN : Nat := 8
def cSPACE : Nat := 9
def cDISC : Nat := 10
def cWAITX : Nat := 11
def cFPE : Nat := 13
def cQN : Nat := 14
def cQR : Nat := 15
def cSPOISON : Nat := 16
def cMCHK : Nat := 17
def cBRK : Nat := 18
def cTRAP : Nat := 19
def cWDOG : Nat := 20

/-- The window of a pointer (R80): 0 global, 1 private, 2 scratchpad, 3 Comb, 15 invalid. -/
def window (p : Word) : Nat :=
  let x := p.toNat
  let top := bits x 56 8
  if top = 0 then 0
  else if top = 0xF0 then 1
  else if top = 0xE0 && bits x 48 8 = 0 && bits x 20 20 = 0 && bits x 40 8 < 200 then 2
  else if top = 0xD0 && bits x 28 28 = 0 then 3
  else 15

/-- An actor for a hart's own accesses. -/
def Hart.actor (h : Hart) : Actor := { tid := h.tid, hid := h.hid, core := h.core, mode := h.mode, holds := h.holds, unit := false }

/-- A level of the walk (R87): the low bit and width of its index, and whether a leaf may stand there. -/
structure Level where
  lo : Nat
  width : Nat
  leafOk : Bool
  last : Bool
deriving DecidableEq, Repr

/-- The four levels (R87). -/
def levels : List Level :=
  [⟨39, 17, false, false⟩, ⟨30, 9, true, false⟩, ⟨21, 9, true, false⟩, ⟨16, 5, true, true⟩]

/-- Fields of a page table entry (R88). -/
def pteAddr (e : Nat) : Nat := bits e 12 40 * 4096
def pteDisc (e : Nat) : Nat := bits e 60 3
def pteAlt (e : Nat) : Nat := bits e 56 4
def pteRd (e : Nat) : Bool := bit e 63

/-- The entry is a pointer: V = 1 and no permission bit (R88). -/
def ptePointer (e : Nat) : Bool := bits e 1 3 == 0

/-- A reserved bit of an entry is set (R88). -/
def pteReserved (e : Nat) : Bool := bits e 52 4 != 0 || bits e 5 7 != 0

/-- A pointer entry is well formed at a level (R87, R88). -/
def pointerOk (l : Level) (e : Nat) : Bool := !l.last && pteDisc e == 0 && pteAlt e == 0 && !pteRd e

/-- A leaf entry is well formed at a level (R87, R88, R93). -/
def leafOk (l : Level) (e : Nat) : Bool :=
  l.leafOk && !(bit e 2 && !bit e 1) && !(pteDisc e == 2 || 6 ≤ pteDisc e) && pteAddr e % 2 ^ l.lo == 0 &&
    (if pteRd e then l.lo != 30 && pteAddr e < 2 ^ 40 && pteAlt e / 2 != bits e 36 4 / 2 else pteAlt e == 0)

/-- How a walk ends. -/
inductive Walk where
  /-- a leaf: the entry, the log2 of its page size, and its address. -/
  | leaf (e size at_ : Nat)
  | page
  | prot
  /-- the reverse ownership entry of the table page reads uncorrectable (R91). -/
  | robBad (pa : Nat)
  /-- the entry at an address is poisoned or uncorrectable (R95). -/
  | poison (pa : Nat)
deriving DecidableEq, Repr

/-- The entries that a walk from a table reads, in order (R87). -/
def State.pathFrom (s : State) (tid va : Nat) : List Level → Nat → List Nat
  | [], _ => []
  | l :: rest, base =>
    let pa := base + 8 * bits va l.lo l.width
    let e := s.numFor (robTag (s.robAt pa)) pa 8
    if !s.hasMemory pa then []
    else if bit e 0 && ptePointer e then pa :: s.pathFrom tid va rest (pteAddr e) else [pa]

/-- The walk from a table, level by level (R87): each entry is read under the tag of its table page's owner. -/
def State.walkFrom (s : State) (tid va : Nat) : List Level → Nat → Walk
  | [], _ => .page
  | l :: rest, base =>
    let pa := base + 8 * bits va l.lo l.width
    if !s.hasMemory pa then .page
    else if Tab.get false s.robBad (pa / 65536) then .robBad pa
    else if !(robValid (s.robAt pa) && robKind (s.robAt pa) == 1
        && (robTag (s.robAt pa) == tid || robTag (s.robAt pa) == 0)) then .prot
    else if s.poisonAt pa || Tab.get 0 s.ecc (unitOf pa) == 2 || !s.hasKey (robTag (s.robAt pa)) then .poison pa
    else
      let e := s.numFor (robTag (s.robAt pa)) pa 8
      if !bit e 0 || pteReserved e then .page
      else if ptePointer e then (if pointerOk l e then s.walkFrom tid va rest (pteAddr e) else .page)
      else if leafOk l e then .leaf e l.lo pa else .page

/-- The walk of a tenant's virtual address (R87, R90). -/
def State.walk (s : State) (tid va : Nat) : Walk :=
  let root := (s.tenant tid).ptbase.toNat
  if bit root 0 then s.walkFrom tid va levels (bits root 20 32 * 2 ^ 20) else .page

/-- A cached translation of the address, if one is kept and translation is on (R90). -/
def State.cached (s : State) (tid va : Nat) : Option TlbEntry :=
  if bit (s.tenant tid).ptbase.toNat 0 then s.tlb.find? (fun t => t.tag == tid && va / 2 ^ t.sz == t.va) else none

/-- The entries that the walk of a tenant's virtual address reads. -/
def State.path (s : State) (tid va : Nat) : List Nat :=
  let root := (s.tenant tid).ptbase.toNat
  if bit root 0 then s.pathFrom tid va levels (bits root 20 32 * 2 ^ 20) else []

/-- What the reads of a walk's entries leave: single-bit errors corrected (R72), and the bytes counted for the tag of each table
page's owner (R415, R416). -/
def State.walkReads (s : State) (a : Actor) (va : Nat) : State :=
  (s.path a.tid va).foldl (fun t pa =>
    (if Tab.get 0 t.ecc (unitOf pa) = 1 then t.checkUnit a.tid a.hid (unitOf pa) else t).countMem (robTag (s.robAt pa)) pa 8) s

/-- What a page's size adds to its leaf-entry address in the heat table. -/
def sizeKey (size : Nat) : Nat := if size = 16 then 0 else if size = 21 then 1 else 2

/-- An access to a far-tier page is counted in the heat table of a field die, in hardware mode (R66): a walk enters the page, and
each access through its leaf counts as a miss (entry 59). The field die is that of the accessed address, where interleaving spreads
the page over several (entry 53). -/
def State.heat (s : State) (entry pa : Nat) (walked : Bool) : State :=
  if pa < 2 ^ 40 || bit s.hub.split 2 then s
  else s.setPlough (fieldOf s.hub pa) (fun p =>
    if (Tab.find p.heat entry).isSome || (walked && p.heat.length < 4096) then
      { p with heat := Tab.set 0 p.heat entry (Tab.get 0 p.heat entry + 1) }
    else p)

/-- The hart runs the handler of the R95 PAGE trap with this TVAL (R96). -/
def Hart.inHandler (h : Hart) (tval : Word) : Bool := h.pageIn.contains (some tval)

/-- A value added at the end of a list that does not hold it. -/
def addNew {α : Type} [DecidableEq α] (l : List α) (x : α) : List α := if x ∈ l then l else l ++ [x]

/-- Every hart of a tenant takes a PAGE with this TVAL at its next boundary, on both sides (R96), but a hart already in the handler. An access
of its own that traps with it counts as that trap (`Hart.pageTaken`). -/
def pendPage (tag : Nat) (tval : Word) (h : Hart) : Hart :=
  if h.tid = tag && h.live && !h.inHandler tval then
    { h with pagePend := addNew h.pagePend tval, pagePendV := addNew h.pagePendV tval }
  else h

/-- An event of R96 has its trap: neither side takes it once more. -/
def Hart.pageTaken (tval : Word) (h : Hart) : Hart :=
  { h with pagePend := h.pagePend.filter (fun v => v ≠ tval), pagePendV := h.pagePendV.filter (fun v => v ≠ tval) }

/-- What a walk that met a poisoned entry does (R95-R97), its sector checked: the translations that its 64 KiB table page produced,
at any level, are discarded. -/
def State.entryPoison (s : State) (a : Actor) (pa : Nat) : State :=
  let tval := word (2 ^ 63 + pa)
  let tag := robTag (s.robAt pa)
  let s1 := { s with tlb := s.tlb.filter (fun t => !t.tables.contains (pa / 65536)) }
  let s2 := if tag = 0 && !s1.tableRep.contains pa then
      { s1.mcheckMem 6 a.tid a.hid pa with tableRep := pa :: s1.tableRep }
    else s1
  let t := if tag = 0 then a.tid else tag
  { s2 with h := pendPage t tval s2.h, pool := s2.pool.map (pendPage t tval) }

/-- A walk met a poisoned or uncorrectable entry: an uncorrectable sector is found as every read finds it (R72); the translations
that its table page produced are discarded, and the harts of the page's tenant are faulted; a host-owned table leaves one record
until its sector is rewritten, and only the walking tenant is faulted (R95-R97). An entry whose owner has no key reads poisoned (R78). -/
def State.tablePoison (s : State) (a : Actor) (pa : Nat) : State :=
  let s1 := s.checkUnit a.tid a.hid (unitOf pa)
  (if s.hasKey (robTag (s.robAt pa)) then s1 else s1.mcheckMem 9 (robTag (s.robAt pa)) a.hid pa).entryPoison a pa

/-- How a translation ends: the leaf in force, or a trap and its TVAL. -/
inductive Xlat where
  | ok (e size : Nat)
  | trap (cause : Nat) (tval : Word)
deriving DecidableEq, Repr

/-- A translation is kept in the cores' caches where they keep any; which they keep is not fixed (R90; entry 60). -/
def State.keepXlat (s : State) (t : TlbEntry) : State := if s.tlbFill then { s with tlb := t :: s.tlb } else s

/-- The translation of a pointer of window 0 or 1, with translation on, by a cached entry or a walk (R87, R90). -/
def State.translate (s : State) (a : Actor) (p : Word) : State × Xlat :=
  let va := bits p.toNat 0 56
  match s.cached a.tid va with
  | some t => (s.heat (t.leafAt + sizeKey t.sz) (pteAddr t.leaf.toNat + va % 2 ^ t.sz) false, .ok t.leaf.toNat t.sz)
  | none =>
    let s0 := s.walkReads a va
    match s.walk a.tid va with
    | .leaf e size at_ =>
      let pa := pteAddr e + va % 2 ^ size
      if !s.hasMemory pa then (s0, .trap cPAGE p)
      else
        ((s0.heat (at_ + sizeKey size) pa true).keepXlat
          { tag := a.tid, va := va / 2 ^ size, sz := size, leaf := word e, leafAt := at_,
            tables := (s.path a.tid va).map (fun x => x / 65536) }, .ok e size)
    | .page => (s0, .trap cPAGE p)
    | .prot => (s0, .trap cPROT p)
    | .robBad pa => (s0.mcheckMem 7 a.tid a.hid pa, .trap cPROT p)
    | .poison pa => (s0.tablePoison a pa, .trap cPAGE (word (2 ^ 63 + pa)))

/-- The physical address that an access under a leaf goes to: a read or fetch by a hart whose die owns the secondary's stack
goes to the secondary copy (R92); engines read the primary. -/
def leafTarget (a : Actor) (k : AKind) (e size va : Nat) : Nat :=
  let pa := pteAddr e + va % 2 ^ size
  let second := setBits pa 36 4 (pteAlt e)
  match k with
  | .load => if pteRd e && dieOfCore a.core == pteAlt e / 2 then second else pa
  | .fetch => if pteRd e && dieOfCore a.core == pteAlt e / 2 then second else pa
  | .amoLd => if pteRd e && dieOfCore a.core == pteAlt e / 2 then second else pa
  | _ => pa

/-- The permission bits allow an access (R89, R92): reads need R, writes W and a page that is not read-duplicate, fetches X,
and mode A needs U. -/
def permOk (a : Actor) (k : AKind) (e : Nat) : Bool :=
  (a.mode != .a || bit e 4) &&
    (match k with
     | .load => bit e 1
     | .engineRead => bit e 1
     | .amoLd => bit e 1
     | .fetch => bit e 3
     | .store => bit e 2 && !pteRd e
     | .engineWrite _ => bit e 2 && !pteRd e
     | .amo => bit e 1 && bit e 2 && !pteRd e
     | .vbop => bit e 1 && bit e 2 && !pteRd e)

/-- The reverse ownership entry of the page touched admits a data access of the tenant (R91). -/
def robOk (e tid : Nat) : Bool := robValid e && robKind e == 0 && robTag e == tid

/-- The home L2 slice of a line, by die (R19): one table of marks for each (R355). -/
def sliceOf (pa : Nat) : Nat := homeDie pa

/-- A write to a guarded page needs a mark that its slice has no room for (R355). -/
def State.marksFull (s : State) (pa : Nat) : Bool :=
  !(s.grdMarks.any (fun m => m.1 == pa / 64)) &&
    decide (1024 ≤ (s.grdMarks.filter (fun m => sliceOf (m.1 * 64) == sliceOf pa)).length)

/-- The discipline of a page admits an access (R362); GRD is judged at the home slice of the line (R355). -/
def State.pageDisc (s : State) (a : Actor) (k : AKind) (e pa : Nat) : Disc :=
  let rob := s.robAt pa
  match pteDisc e with
  | 0 => .of (s.ownerOk (bits rob 16 2) (bits rob 0 16) a)
  | 1 =>
    match k with
    | .engineWrite _ => .refuse
    | _ =>
      if bits rob 16 2 ≠ 2 then .refuse
      else
        match s.objNum (bits rob 0 16) with
        | none => .refuse
        | some (_, o) =>
          if !o.heldBy a then .refuse
          else if k.reads then .grant
          else if s.marksFull pa then .full else .grant
  | 3 =>
    match k with
    | .engineWrite copy => .of copy
    | _ => .of k.reads
  | 4 =>
    match k with
    | .amo => .grant
    | .amoLd => .grant
    | _ => .refuse
  | _ => .grant

end Sys2Proof.Machine
end

