-- ==== Sys2Proof/Machine/Access.lean ====
section
/-! DEFINITION. One access through a generic pointer: the checks of R85 in their order, the waits for owned lines and busy
tiles, the access performed at its home, and the fetch of an instruction word. -/

namespace Sys2Proof.Machine

/-- The TVAL of a WAITX: the kind and number of the awaited party on a chip (R334). -/
def farParty (pk chip id : Nat) : Word := word (pk * 2 ^ 60 + chip * 2 ^ 16 + id)

/-- The TVAL of a WAITX: the kind and number of the awaited party on this chip (R334). -/
def partyWord (pk id : Nat) : Word := farParty pk 0xFFFF id

/-- What the checks of an access answer. -/
inductive Res where
  | ok (pl : Place)
  | trap (cause : Nat) (tval : Word)
  /-- the access waits, under IWL, for a party (R140, R150). -/
  | wait (party : Word)
deriving DecidableEq, Repr

/-- The TVAL of a DISC trap (R120, R355): the pointer, with bit 62 set for a full journal or mark table. -/
def discTval (p : Word) (d : Disc) : Word := if d = .full then word (setBit p.toNat 62 true) else p

/-- A command owns a line: one of its destination that passed its checks, or that of its record (R139). -/
def Cmd.owns (c : Cmd) (line : Nat) : Bool :=
  (c.rcdLine :: c.lines).any (fun d => d.code == 0 && (d.loc.map (fun x => x / 64)) == some line)

/-- The engine that owns a 64-byte line, if one does (R139). -/
def State.lineOwner (s : State) (loc : Nat) : Option Nat :=
  s.engines.findSome? (fun e => if e.2.queue.any (fun c => c.owns (loc / 64)) then some e.1 else none)

/-- An access of an engine; the others are a hart's. -/
def AKind.engine : AKind → Bool
  | .engineRead => true
  | .engineWrite _ => true
  | _ => false

/-- The field die whose plough owns a 64-byte line, if one does (step 3 of R67). -/
def State.ploughOwner (s : State) (loc : Nat) : Option Nat :=
  (s.copied.find? (fun c => c.2 == loc / 64 && (s.plough c.1).own)).map (fun c => 8 + c.1)

/-- A command has the line recalled (R139, R140). -/
def Cmd.recalls (line : Nat) (c : Cmd) : Cmd :=
  if c.owns line && !c.recalled.contains line then { c with recalled := c.recalled ++ [line] } else c

/-- The line recalled from the engine that owns it: the engine writes it before any other (R139). -/
def State.recallLine (s : State) (e loc : Nat) : State :=
  s.setEngine e (fun g => { g with queue := g.queue.map (Cmd.recalls (loc / 64)) })

/-- The die that an access to a late die waits for: the late die, or, behind a request in flight that a die's cores sent before their reset, the
die that was reset (R27, R334; entry 73). -/
def State.silentDie (s : State) (d : Nat) : Nat :=
  ((s.flying.find? (fun q => q.dst == d && ((s.die q.src).inReset || (s.die q.src).inc != q.inc))).map (fun q => q.src)).getD d

/-- A hart's access to an owned line recalls it and waits for the engine or the plough (R67, R140), and one to a die that leaves its
requests unanswered waits for that die (R27, R334). -/
def State.ownedWait (s : State) (k : AKind) (pl : Place) : State × Res :=
  if k.engine then (s, .ok pl)
  else
    match s.lineOwner pl.loc with
    | some e => (s.recallLine e pl.loc, .wait (partyWord 0 e))
    | none =>
      match s.ploughOwner pl.loc with
      | some d => (s, .wait (partyWord 1 d))
      | none => if (s.die (dieOfLoc pl.loc)).late ≠ 0 then (s, .wait (partyWord 1 (s.silentDie (dieOfLoc pl.loc)))) else (s, .ok pl)

/-- Checks 4 to 6 of R85 for a scratchpad access: the tile's tag, then the wait while it fills or drains (R148, R150). -/
def State.scratchAccess (s : State) (a : Actor) (k : AKind) (p : Word) : State × Res :=
  let off := bits p.toNat 0 20
  let t := Tab.get Tile.reset (s.core (bits p.toNat 40 8)).tiles (off / 65536)
  if t.tag ≠ a.tid then (s, .trap cPROT p)
  else if !k.engine && (t.st == 1 || t.st == 3) then (s, .wait (partyWord 2 (off / 65536)))
  else s.ownedWait k ⟨locScratch (bits p.toNat 40 8) off, none, none⟩

/-- Checks 5 and 6 of R85 for a Comb access of `n` bytes (R101, R104). -/
def State.combAccess (s : State) (a : Actor) (k : AKind) (p : Word) (n : Nat) : State × Res :=
  let off := bits p.toNat 0 28
  match s.regionOf a.tid off with
  | none => (s, .trap cPROT p)
  | some (i, r) =>
    if !r.covers (off + n - 1) then (s, .trap cPROT p)
    else
      match s.regionDisc r a k off n with
      | .grant => s.ownedWait k ⟨locComb off, some i, none⟩
      | d => (s, .trap cDISC (discTval p d))

/-- Checks 4 to 6 of R85 for a global or private access. -/
def State.pageAccess (s : State) (a : Actor) (k : AKind) (p : Word) : State × Res :=
  match s.translate a p with
  | (s1, .trap c v) => (s1, .trap c v)
  | (s1, .ok e size) =>
    let pa := leafTarget a k e size (bits p.toNat 0 56)
    if !permOk a k e then (s1, .trap cPROT p)
    else if Tab.get false s1.robBad (pa / 65536) then
      (s1.mcheckMem 7 a.tid a.hid pa, .trap cPROT p)
    else if !robOk (s1.robAt pa) a.tid then (s1, .trap cPROT p)
    else
      match s1.pageDisc a k e pa with
      | .grant => s1.ownedWait k ⟨pa, none, if pteDisc e = 1 then some (bits (s1.robAt pa) 0 16) else none⟩
      | d => (s1, .trap cDISC (discTval p d))

/-- The checks of R85, 1 to 6, for an access of `n` bytes that must be a multiple of `align`. -/
def State.access (s : State) (a : Actor) (k : AKind) (p : Word) (n align : Nat) : State × Res :=
  let w := window p
  if w = 15 then (s, .trap cSPACE p)
  else if (w = 1 && bits p.toNat 40 16 ≠ a.hid) || (w = 2 && bits p.toNat 40 8 ≠ a.core) then (s, .trap cFOREIGN p)
  else if p.toNat % align ≠ 0 then (s, .trap cALIGN p)
  else if w = 2 then s.scratchAccess a k p
  else if w = 3 then s.combAccess a k p n
  else s.pageAccess a k p

/-- A read performed at its place: the state after the check of the home, the number read, and whether it is poisoned. -/
def State.readAt (s : State) (a : Actor) (pl : Place) (n : Nat) : State × Nat × Bool := s.read a.tid a.hid pl.loc n

/-- The mark that a write to a guarded page leaves on its line (R355). -/
def State.markLine (s : State) (pl : Place) : State :=
  match pl.guard with
  | some g => if s.grdMarks.contains (pl.loc / 64, g) then s else { s with grdMarks := (pl.loc / 64, g) :: s.grdMarks }
  | none => s

/-- The write of a read-modify-write at its place, which is one bank operation with its read (R100, R415). -/
def State.rmwAt (s : State) (a : Actor) (pl : Place) (bs : List Byte) (bad : Bool) : State :=
  match pl.reg with
  | some i =>
    match s.region i with
    | some r => (s.guardNote a i r (pl.loc - 2 ^ 52) bs.length).perform a.tid a.hid pl.loc bs bad
    | none => s
  | none => (s.markLine pl).write a.tid a.hid pl.loc bs bad

/-- A write performed at its place, with the journal, the marks and the planes of its discipline (R86, R110, R119, R355). -/
def State.writeAt (s : State) (a : Actor) (pl : Place) (bs : List Byte) (bad : Bool) : State :=
  match pl.reg with
  | some i =>
    match s.region i with
    | some r => s.combStore a i r (pl.loc - 2 ^ 52) bs bad
    | none => s
  | none => (s.markLine pl).write a.tid a.hid pl.loc bs bad

/-- What a fetch answers. -/
inductive Fetched where
  | word (w : IWord)
  | trap (cause : Nat) (tval : Word)
  | wait (party : Word)
deriving DecidableEq, Repr

/-- The fetch of one instruction word (R82, R87-R89, R362), and check 1 of R41: a word that reads poisoned or uncorrectable
raises MCHK and leaves a record, beside the one that the controller leaves of a tag without a key (R78). -/
def State.fetch (s : State) (a : Actor) (pc : Word) : State × Fetched :=
  if window pc ≠ 0 then (s, .trap cSPACE pc)
  else
    match s.access a .fetch pc 4 4 with
    | (s1, .trap c v) => (s1, .trap c v)
    | (s1, .wait p) => (s1, .wait p)
    | (s1, .ok pl) =>
      match s1.read a.tid a.hid pl.loc 4 with
      | (s2, v, bad) =>
        if bad then (s2.mcheck 12 (dieOfCore a.core) a.tid a.hid a.core pc 0, .trap cMCHK 0)
        else (s2, .word (BitVec.ofNat 32 v))

/-- The location that a fetch whose checks pass reads. -/
def State.fetchPlace (s : State) (a : Actor) (pc : Word) : Nat :=
  match (s.translate a pc).2 with
  | .ok e size => leafTarget a .fetch e size (bits pc.toNat 0 56)
  | .trap _ _ => 0

end Sys2Proof.Machine
end

