-- ==== Sys2Proof/Machine/Trace.lean ====
section
/-! DEFINITION. Trace rings: whether tracing is on, and a record appended by the ring's bank (R441-R443). -/

namespace Sys2Proof.Machine

/-- TRCTL as read: 0 where the feature is not accepted (R451). -/
def State.trctl (s : State) (tag : Nat) : Nat := if bit s.hub.feat0 5 then (s.tenant tag).trctl.toNat else 0

/-- The Comb offset of a tenant's ring when TRBUF names a valid one: 32-byte aligned, the whole ring inside one OPN region
of the tenant (R441). -/
def State.traceRing (s : State) (tag : Nat) : Option Nat :=
  match combOffset (s.tenant tag).trbuf with
  | none => none
  | some off =>
    match s.regionOf tag off with
    | none => none
    | some (_, r) =>
      if off % 32 = 0 && r.disc = 5 && r.covers (off + 31 + 32 * 2 ^ bits (s.trctl tag) 0 5) then some off else none

/-- Tracing is on for a type of record (R441). -/
def State.traceOn (s : State) (tag type : Nat) : Bool :=
  bit (s.trctl tag) (16 + type - 1) && (s.traceRing tag).isSome

/-- A record appended to a tenant's ring, or dropped and counted when the ring is full; HEAD advances after the record's
bytes (R442, R443). -/
def State.trace (s : State) (tag hid die type code : Nat) (pc value : Word) : State :=
  if !s.traceOn tag type then s
  else
    match s.traceRing tag with
    | none => s
    | some off =>
      let lg := bits (s.trctl tag) 0 5
      let head := s.numAt (locComb off) 8
      let tail := s.numAt (locComb (off + 8)) 8
      if (head + 2 ^ 64 - tail) % 2 ^ 64 = 2 ^ lg then
        s.store64 (locComb (off + 16)) (s.numAt (locComb (off + 16)) 8 + 1)
      else
        let d0 := type * 2 ^ 56 + die * 2 ^ 48 + tag * 2 ^ 38 + hid * 2 ^ 16 + code % 2 ^ 16
        (s.store (locComb (off + 32 + 32 * (head % 2 ^ lg)))
          (leBytes 8 d0 ++ leBytes 8 s.gtb ++ leBytes 8 pc.toNat ++ leBytes 8 value.toNat) false).store64
            (locComb off) (head + 1)

/-- A record about a hart (R442). -/
def State.traceHart (s : State) (h : Hart) (type code : Nat) (pc value : Word) : State :=
  s.trace h.tid h.hid (dieOfCore h.core) type code pc value

end Sys2Proof.Machine
end

