-- ==== Sys2Proof/Machine/Ops.lean ====
section
/-! DEFINITION. The named operations that every meaning is written over: harts, scalar registers, retirement, the end of a
hart, taking a trap and returning from one, explicit and implicit waits. -/

namespace Sys2Proof.Machine

/-- The outcome of a meaning. -/
abbrev Out := Host.Outcome State Fault Refusal

/-! Harts and registers -/

/-- Every hart, the one in hand first. -/
def State.harts (s : State) : List Hart := if s.h.live then s.h :: s.pool else s.pool

/-- A live hart by id. -/
def State.hart (s : State) (hid : Nat) : Option Hart := s.harts.find? (fun h => h.hid == hid)

/-- A change made to one hart by id. -/
def onHid (hid : Nat) (f : Hart → Hart) (h : Hart) : Hart := if h.live && h.hid == hid then f h else h

/-- The state with one live hart changed. -/
def State.updHart (s : State) (hid : Nat) (f : Hart → Hart) : State :=
  { s with h := onHid hid f s.h, pool := s.pool.map (onHid hid f) }

/-- The state with the hart in hand changed. -/
def State.setH (s : State) (f : Hart → Hart) : State := { s with h := f s.h }

/-- A scalar register: x0 reads 0 (R177). -/
def Hart.xr (h : Hart) (n : Nat) : Word := if n = 0 then 0 else Tab.get 0 h.x n

/-- A scalar register written: x0 discards (R177). -/
def Hart.setX (h : Hart) (n : Nat) (v : Word) : Hart := if n = 0 then h else { h with x := Tab.set 0 h.x n v }

/-- A scalar register of the hart in hand, by its field. -/
def State.xr (s : State) (n : BitVec 5) : Word := s.h.xr n.toNat

/-- The device's registers answer: in PHASE 8 only the physical function's recovery registers do (R458). -/
def State.answers (s : State) : Bool := s.hub.phase != 8

/-- A register access from outside, which has no effect while the registers do not answer (R458). -/
def State.ifAnswers (s : State) (f : State → State) : State := if s.answers then f s else s

/-- The hart's die (R14). -/
def Hart.die (h : Hart) : Nat := dieOfCore h.core

/-- The hart holds vector state that runs: a block is taken or queued (R282). -/
def Hart.vectorBusy (h : Hart) : Bool := h.run.isSome || !h.queue.isEmpty

/-- The vector side is idle and the queue is empty (R182, R285, R286). -/
def Hart.vectorIdle (h : Hart) : Bool := !h.vectorBusy

/-- The hart is in an explicit wait whose outcome it has not received (R276). -/
def Hart.waiting (h : Hart) : Bool :=
  match h.wait with
  | some w => w.ans.isNone
  | none => false

/-- The states of R276. -/
inductive HState where
  | created
  | ready
  | bound
  | waiting
  | released
  | gone
deriving DecidableEq, Repr

/-- The state of a hart (R276). -/
def Hart.state (h : Hart) : HState :=
  if !h.live then .gone
  else if h.created then .created
  else if h.waiting then .waiting
  else if h.leaving.isSome then .bound
  else if h.slot.isNone then .ready
  else if h.released then .released
  else .bound

/-- Flags ORed into FXF; bits [9:0] are sticky (R195). -/
def orFlags (fxf : Word) (f : Nat) : Word := fxf ||| word (f % 2 ^ 10)

/-! Retirement -/

/-- Every entry of the decoupled queue sealed, and the scalar history buffer emptied (R403). -/
def Hart.sealAll (h : Hart) : Hart := { h with queue := h.queue.map (fun e => { e with sld := true }), hist := [] }

/-- The forager goes on at an address: the instruction in hand has completed, and no implicit wait is left of it. -/
def State.goto (s : State) (pc : Word) (did : Did) : State := { s with h := { s.h with pc := pc, iw := none }, did := did }

/-- A scalar instruction of a kind that the scalar history buffer records completes: xd is written and the next word
follows (R403). -/
def State.retire (s : State) (d : BitVec 5) (v : Word) : State :=
  { s with h := { s.h.setX d.toNat v with pc := s.h.pc + 4, iw := none }, did := .recorded d.toNat (s.xr d) none }

/-- Any other scalar instruction completes (R403). -/
def State.retireX (s : State) (d : BitVec 5) (v : Word) : State :=
  { s with h := { s.h.setX d.toNat v with pc := s.h.pc + 4, iw := none, begun := none }, did := .retired }

/-- A scalar instruction without a destination completes. -/
def State.retire0 (s : State) : State := s.goto (s.h.pc + 4) .retired

/-! The end of a hart -/

/-- A bind record removed: V is 0, and the lanes stay taken until the unbinding completes (R384). -/
def Bind.removed (b : Bind) : Bind := { b with v := false, unbinding := b.unbinding ||| b.lgm }

/-- The unbind notice that dispatch posts at every removal in host-assisted mode (R385). -/
def State.unbindNotice (s : State) (core slot hid tag : Nat) : State :=
  if bit s.hub.split 1 then s.hostPost 1 tag (leBytes 8 core ++ leBytes 8 slot ++ leBytes 8 hid) else s

/-- The bind record of a slot. -/
def State.bind (s : State) (core slot : Nat) : Bind := Tab.get Bind.reset (s.core core).binds slot

/-- The state with a bind record changed. -/
def State.setBind (s : State) (core slot : Nat) (f : Bind → Bind) : State :=
  s.setCore core (fun c => { c with binds := Tab.set Bind.reset c.binds slot (f (Tab.get Bind.reset c.binds slot)) })

/-- The lanes that a hart's vector state rests in are given up (R287, R285). -/
def State.dropLanes (s : State) (core hid : Nat) : State :=
  s.setCore core (fun c => { c with lane := c.lane.filter (fun e => e.2 ≠ hid + 1),
                                    recheck := c.recheck.filter (fun r => r.hid ≠ hid) })

/-- One hart fewer of a job (R460). -/
def Job.lose (num : Word) (tag time : Nat) (j : Job) : Job :=
  if j.num = num && j.tag = tag && !j.posted then { j with alive := j.alive - 1, last := time } else j

/-- The name under which a hart that has ended stays a member, a holder or a queued request: no live hart has it. -/
def ghostId (x : Nat) : Nat := if x < 65536 then x + 2 ^ 20 else x

/-- The number under which a bank keeps a request whose hart has stopped waiting for it (R332), and the hart that made it. -/
def lateId (hid : Nat) : Nat := hid + 2 ^ 18
def realId (x : Nat) : Nat := if 2 ^ 18 ≤ x && x < 2 ^ 19 then x - 2 ^ 18 else x

/-- A number that names a hart, after that hart has ended. -/
def ghostIf (hid x : Nat) : Nat := if x = hid || x = lateId hid then ghostId hid else x

/-- What an object's bank keeps of a hart, after that hart has ended (R286, R287): a later hart of the same id is another one. -/
def ghostObj (hid : Nat) (o : Obj) : Obj :=
  match o.body with
  | .swarm b =>
    { o with body := .swarm { b with
        members := b.members.map (fun m => if m.chip = 0xFFFF then { m with hid := ghostIf hid m.hid } else m),
        joins := b.joins.map (fun j => { j with hid := ghostIf hid j.hid }),
        closed := b.closed.map (fun j => { j with hid := ghostIf hid j.hid }) } }
  | .latch b =>
    { o with body := .latch { b with
        holder := if b.held then ghostIf hid b.holder else b.holder, queue := b.queue.map (fun q => (ghostIf hid q.1, q.2)) } }
  | .chan b =>
    { o with body := .chan { b with
        senders := b.senders.map (fun r => { r with hid := ghostIf hid r.hid }),
        receivers := b.receivers.map (fun r => { r with hid := ghostIf hid r.hid }) } }

/-- What an engine keeps of a hart, after that hart has ended: its commands go on (R287), a command it waits to issue does not. -/
def ghostEngine (hid : Nat) (e : Engine) : Engine :=
  { e with queue := e.queue.map (fun c => { c with hid := ghostIf hid c.hid }), pend := e.pend.filter (fun c => c.hid ≠ hid) }

/-- The bytes of the shadow store that a hart's context takes: 16 KiB for each lane (R12, R16; entry 10). -/
def Hart.contextBytes (h : Hart) : Nat := 16384 * h.lanes

/-- A hart ends (R286, R287): its bind record is removed, its lanes, context and queued rechecks are given up, its id is
free; swarm memberships and latch holdings stay where they are kept. -/
def State.endHart (s : State) (hid : Nat) : State :=
  match s.hart hid with
  | none => s
  | some h =>
    let s1 := { s with jobs := s.jobs.map (Job.lose h.job h.tid s.gtb) }
    let s2 := (s1.dropLanes h.core hid).setDie h.die (fun d => { d with shadow := d.shadow + h.contextBytes })
    let s3 :=
      match h.slot with
      | some slot => (s2.setBind h.core slot Bind.removed).unbindNotice h.core slot hid h.tid
      | none => s2
    { s3 with objs := s3.objs.map (fun e => (e.1, e.2.map (ghostObj hid))),
              leaseQ := s3.leaseQ.filter (fun r => r.hid ≠ hid), engines := s3.engines.map (fun e => (e.1, ghostEngine hid e.2)),
              pool := s3.pool.filter (fun k => k.hid ≠ hid), slow := s3.slow.filter (fun r => r.hid ≠ hid),
              h := if s3.h.hid = hid then Hart.blank else s3.h }

/-! Taking a trap and returning from one -/

/-- The forager's word has run or trapped: a breakpoint at it that the forager has met is met again the next time (R440). -/
def Hart.spent (pc : Word) (h : Hart) : Hart := { h with passF := h.passF.filter (fun x => x.2 != pc) }

/-- The handler's address (R394). -/
def Hart.handler (h : Hart) (cause : Nat) : Word :=
  (h.tvec >>> 2 <<< 2) + (if bits h.tvec.toNat 0 2 = 1 then word (64 * cause) else 0)

/-- The mode a trap enters: D from D, else S (R394). -/
def Mode.trapped (m : Mode) : Mode := if m = .d then .d else .s

/-- The registers that trap entry writes, and nothing else (R394); TEPC is R395's. -/
def Hart.enter (h : Hart) (cause : Nat) (tval tepc : Word) (vs : Bool) : Hart :=
  { h with tcause := word cause, tval := tval, tepc := tepc, tstat := word (h.mode.code + (if vs then 4 else 0)),
           mode := h.mode.trapped, pc := h.handler cause }

/-- The handler's first word, where its fetch does not trap. A fetch that must wait is looked at as it will be: the word as it stands in memory
(R396; entry 84). -/
def State.handlerWord (s : State) (cause : Nat) : Option IWord :=
  let a := { s.h.actor with mode := s.h.mode.trapped }
  match s.fetch a (s.h.handler cause) with
  | (_, .word w) => some w
  | (_, .trap _ _) => none
  | (s1, .wait _) =>
    match s1.read a.tid a.hid (s1.fetchPlace a (s.h.handler cause)) 4 with
    | (_, v, bad) => if bad then none else some (BitVec.ofNat 32 v)

/-- The handler's first word can be fetched and passes the word checks (R396). -/
def State.handlerOk (s : State) (cause : Nat) : Bool :=
  s.h.tvec >>> 2 != 0 &&
    (match s.handlerWord cause with
     | some w => (wordFate false w).isNone
     | none => false)

/-- A trap is the PAGE of a poisoned table entry (R95). -/
def tablePage (cause : Nat) (tval : Word) : Bool := cause == cPAGE && bit tval.toNat 63

/-- The traps not returned from, down to the oldest PAGE of R95, after an entry (R96; entry 56). -/
def Hart.pageEntered (h : Hart) (cause : Nat) (tval : Word) : List (Option Word) :=
  if tablePage cause tval then some tval :: h.pageIn else if h.pageIn.isEmpty then [] else none :: h.pageIn

/-- A PAGE trap of R95 is the hart's trap for that event (R96). -/
def Hart.pageMet (h : Hart) (cause : Nat) (tval : Word) : Hart := if tablePage cause tval then h.pageTaken tval else h

/-- Trap entry of the hart in hand (R394-R396): a hart with no handler is killed and leaves a KIND 11 record. -/
def State.enterTrap (s : State) (cause : Nat) (tval tepc : Word) (vs : Bool) : State :=
  if s.handlerOk cause then
    { (s.count s.h.tid 12 1).traceHart s.h 6 cause tepc tval with
      h := { s.h.enter cause tval tepc vs with iw := none, begun := none, pageIn := s.h.pageEntered cause tval }, did := .trapped }
  else
    { (s.mcheck 11 s.h.die s.h.tid s.h.hid s.h.core tepc cause).endHart s.h.hid with did := .trapped }

/-- The payload of a page-fault post: the fields of R455 in 48 bytes (entry 13), then the fault record or zeros (R456). -/
def Hart.postPayload (h : Hart) (v : VStop) (vs : Bool) : List Byte :=
  leBytes 2 h.hid ++ leBytes 2 h.tid ++ leBytes 2 v.cause ++ leBytes 2 (h.mode.code + (if vs then 4 else 0))
    ++ leBytes 8 v.tval.toNat ++ leBytes 8 v.tepc.toNat ++ leBytes 8 h.ecut.toNat ++ List.replicate 16 0
    ++ (v.frec ++ List.replicate (320 - v.frec.length) 0)

/-- A trap of the hart in hand. With SPLIT.PGF = 1 a PAGE of a mode-A hart is posted to the host first, and the forager
stays stopped until the host answers or MAXWAIT has passed (R452, R455); the hart is then WAITING, and the queue is sealed as for every
explicit wait (R403). -/
def State.takeTrap (s0 : State) (v : VStop) (vs : Bool) : State :=
  let s := s0.setH (fun h => h.pageMet v.cause v.tval)
  if v.cause = cPAGE && s.h.mode == .a && bit s.hub.split 0 then
    { s.hostPost 3 s.h.tid (s.h.postPayload v vs) with
      h := { s.h with iw := none, begun := none, post := some (v, vs), waitAt := s.gtb,
                      wait := some { kind := .pageFault, dst := 0, dead := min gtbEnd (s.gtb + s.h.maxwait.toNat), issued := s.gtb,
                                     ans := none } },
      did := .waits }
  else s.enterTrap v.cause v.tval v.tepc vs

/-- A synchronous trap of the forager: TEPC is the instruction (R395). -/
def State.trap (s : State) (cause : Nat) (tval : Word) : State :=
  s.takeTrap { cause := cause, tval := tval, tepc := s.h.pc, frec := [] } false

/-- A trap whose TEPC is the following word: `trap c` has completed (R304). -/
def State.trapAfter (s : State) (cause : Nat) (tval : Word) : State :=
  s.takeTrap { cause := cause, tval := tval, tepc := s.h.pc + 4, frec := [] } false

/-- The mode that TSTAT.PM names (R302). -/
def pmMode (tstat : Word) : Mode :=
  match bits tstat.toNat 0 2 with
  | 0 => .a
  | 1 => .s
  | _ => .d

/-- The vector side taken up again at a word (R399): the word runs from ECUT, later words from 0; for words outside majors
0x22-0x28 the cut is read as 0 when the word runs. Only a word that stopped before it issued is still the first of its block or the target of a
transfer (R47, code 1). -/
def Hart.resumeAt (h : Hart) (tepc : Word) : Hart :=
  { h with vpc := tepc, conv := [], cut := bits h.ecut.toNat 0 17, again := h.again || tepc != h.vpc, votes := [], owed := false, app := none, stop := none, viw := none }

/-- The vector side taken up again at TEPC (R399). -/
def Hart.resumeVector (h : Hart) : Hart := h.resumeAt h.tepc

/-- The trapped block abandoned: no completion reply, and the next queue entry follows (R399). -/
def Hart.abandon (h : Hart) : Hart :=
  { h with run := none, conv := [], cut := 0, votes := [], owed := false, app := none, stop := none, viw := none }

/-- The return from a trap (R304, R399): the mode of TSTAT.PM, and the PC of TEPC or, with VS = 1 and a stopped vector side,
the held PC. -/
def Hart.return (h : Hart) : Hart :=
  let h1 := { h with mode := pmMode h.tstat, iw := none, pageIn := h.pageIn.tail }
  match h.stop with
  | none => { h1 with pc := h.tepc, held := none }
  | some _ =>
    if bit h.tstat.toNat 2 then { h1.resumeVector with pc := h.held.getD h.tepc, held := none }
    else { h1.abandon with pc := h.tepc, held := none }

/-! Waits -/

/-- The clamped deadline of an explicit wait (R330), a tick of the 64-bit GTB. -/
def State.deadline (s : State) (t : BitVec 5) (rel : BitVec 1) : Nat :=
  let x := (s.xr t).toNat
  let d := if rel = 1 then s.gtb + x else x
  min gtbEnd (min d (s.gtb + s.h.maxwait.toNat))

/-- The hart in hand enters an explicit wait (R277): its instruction stays in hand. -/
def State.startWait (s : State) (k : WaitKind) (d : BitVec 5) (dead : Nat) : State :=
  { s with h := { s.h with iw := none, waitAt := s.gtb,
                           wait := some { kind := k, dst := d.toNat, dead := dead, issued := s.gtb, ans := none } },
           did := .waits }

/-- A hart receives the outcome of its wait: xd and the next word (R289); its watchdog count is reset (R390). -/
def Hart.deliver (h : Hart) (dst : Nat) (v : Word) : Hart := { h.setX dst v with pc := h.pc + 4, wait := none, wd := 0 }

/-- An outcome is decided for a hart's wait: a bound hart receives it at once, an unbound one keeps it until it is next bound
and is READY from now (R277, R289). -/
def Hart.answer (h : Hart) (time : Nat) (v : Word) : Hart :=
  match h.wait with
  | none => h
  | some w =>
    if h.slot.isSome then h.deliver w.dst v
    else { h with wait := some { w with ans := some v }, readyAt := time }

/-- The state after an outcome is sent to a hart, with its trace record (R442, TYPE 5); a bound hart's instruction retires (R415).
Nothing for a hart that waits no longer (R332). -/
def State.answer (s : State) (hid : Nat) (v : Word) : State :=
  match s.hart hid with
  | none => s
  | some h =>
    if h.waiting then
      let s1 := (s.traceHart h 5 0 h.pc v).updHart hid (fun k => k.answer s.gtb v)
      if h.slot.isSome then s1.count h.tid 1 1 else s1
    else s

/-- The die that decides an explicit wait, when it is not the hart's own (R24). -/
def WaitKind.decidedAt : WaitKind → Option Nat
  | .ewait e _ => some (engineDie e)
  | .slot e => some (engineDie e)
  | .elease _ _ => some 12
  | .swjoin r _ => some (combHome r).1
  | .arrive r _ => some (combHome r).1
  | .acq r => some (combHome r).1
  | .send r _ => some (combHome r).1
  | .recv r _ => some (combHome r).1
  | _ => none

/-- A hart keeps a new holding (R351). -/
def Hart.keep (h : Hart) (x : Holding) : Hart := { h with holds := h.holds.filter (fun y => y.rcd ≠ x.rcd) ++ [x] }

/-- What a hart takes with a result: the flags that it raises (R115), and the holding that it grants (R352). -/
def Hart.takes (h : Hart) (flags : Nat) (hold : Option Holding) : Hart :=
  let h1 := if flags = 0 then h else { h with fxf := orFlags h.fxf flags }
  match hold with
  | some x => h1.keep x
  | none => h1

/-- A result sent to a hart that waits: the die that decides it sends it at once, or, while it leaves requests unanswered, later; one request has
one result (R332, R337; entry 57). -/
def State.respond (s : State) (hid : Nat) (w : Wait) (v : Word) (flags : Nat) (hold : Option Holding) : State :=
  match w.kind.decidedAt with
  | none => (s.updHart hid (fun h => h.takes flags hold)).answer hid v
  | some d =>
    if (s.die d).late = 0 then (s.updHart hid (fun h => h.takes flags hold)).answer hid v
    else if s.slow.any (fun r => r.hid == hid && r.tick == w.issued) then s
    else { s with slow := s.slow ++ [⟨d, hid, w.issued, v, flags, hold⟩] }

/-- A result that a die sends late (R332): a hart that has stopped waiting for it receives nothing. -/
def State.sendLate (s : State) (r : Late) : State :=
  match (s.hart r.hid).bind (·.wait) with
  | some w =>
    if w.issued = r.tick && w.ans.isNone then (s.updHart r.hid (fun h => h.takes r.flags r.hold)).answer r.hid r.word else s
  | none => s

/-- The results that the dies no longer late have kept are sent, oldest first. -/
def State.sendSlow (s : State) : State :=
  let l := s.slow.filter (fun r => (s.die r.die).late == 0)
  l.foldl State.sendLate { s with slow := s.slow.filter (fun r => (s.die r.die).late != 0) }

/-- The package packets that reach a die which is no longer late: one that carries an incarnation other than its sender's present one is
dropped and counted (R26; entry 73). -/
def State.landPackets (s : State) : State :=
  let l := s.flying.filter (fun q => (s.die q.dst).late == 0)
  l.foldl (fun t q => if (t.die q.src).inc = q.inc then t else t.setDie q.dst (fun d => { d with incdrop := satInc d.incdrop 32 }))
    { s with flying := s.flying.filter (fun q => (s.die q.dst).late != 0) }

/-- The outcome of a request sent to the hart that made it; a hart that no longer waits for that request receives nothing
(R332). -/
def State.answerIf (s : State) (hid : Nat) (p : WaitKind → Bool) (v : Word) : State :=
  match (s.hart hid).bind (·.wait) with
  | some w => if p w.kind then s.respond hid w v 0 none else s
  | none => s

/-- The same for a request issued at a tick, with the flags that its result raises. -/
def State.answerTick (s : State) (hid tick : Nat) (p : WaitKind → Bool) (v : Word) (flags : Nat) : State :=
  match (s.hart hid).bind (·.wait) with
  | some w => if p w.kind && w.issued == tick then s.respond hid w v flags none else s
  | none => s

/-- An explicit wait that returns at once (R277), with its trace record (R442). -/
def State.finishWait (s : State) (d : BitVec 5) (v : Word) : State := (s.traceHart s.h 5 0 s.h.pc v).retireX d v

/-- An explicit wait whose outcome its deciding die has at once: it returns, or, at a die that leaves requests unanswered, the hart waits for
the result (R277, R332). -/
def State.finishAt (s : State) (k : WaitKind) (d : BitVec 5) (dead : Nat) (v : Word) (hold : Option Holding) : State :=
  if (k.decidedAt.elim 0 (fun x => (s.die x).late)) = 0 then (s.setH (fun h => h.takes 0 hold)).finishWait d v
  else
    let s1 := s.startWait k d dead
    match s1.h.wait with
    | some w => s1.respond s1.h.hid w v 0 hold
    | none => s1

/-- The tick at which an implicit wait for a party at an element began: that of the wait in progress, if it is the same one (R334). -/
def waitSince (time : Nat) (w : Option IWait) (party : Word) (elem : Nat) : Nat :=
  match w with
  | some w => if w.party = party && w.elem = elem then w.since else time
  | none => time

/-- The forager's instruction in hand cannot proceed: its implicit wait begins, or goes on. A wait for another party is another one,
with its own bound (R334). -/
def State.stall (s : State) (party : Word) : State :=
  { s with h := { s.h with iw := some { since := waitSince s.gtb s.h.iw party 0, party := party, elem := 0 } }, did := .nothing }

/-- The instruction in hand has begun its effect and waits for a party to answer (R402). -/
def State.stallBegun (s : State) (d : BitVec 5) (v : Word) (what : Begins) (party : Word) : State :=
  (s.stall party).setH (fun h => { h with begun := some ⟨d.toNat, v, what⟩ })

/-- An instruction that has begun its effect retires (R402). -/
def Hart.finishBegun (h : Hart) : Hart :=
  match h.begun with
  | some b => { h.setX b.dst b.val with pc := h.pc + 4, iw := none, begun := none, wd := 0 }
  | none => h

/-- The die of a list that leaves requests unanswered longest (R27, R108). -/
def State.slowest (s : State) (dies : List Nat) : Option Nat :=
  dies.foldl (fun a d =>
    if (s.die d).late = 0 then a
    else
      match a with
      | some b => if (s.die b).late < (s.die d).late then some d else a
      | none => some d) none

/-- An instruction whose effect has begun retires once its dies have answered, or waits for the slowest of them (R108, R334, R342, R354). -/
def State.retireWhen (s : State) (dies : List Nat) (d : BitVec 5) (v : Word) (what : Begins) : State :=
  match s.slowest dies with
  | some x => s.stallBegun d v what (partyWord 1 x)
  | none => s.retireX d v

/-- The same for a WAIT instruction, with its trace record (R442). -/
def State.finishWhen (s : State) (dies : List Nat) (d : BitVec 5) (v : Word) : State :=
  (s.traceHart s.h 5 0 s.h.pc v).retireWhen dies d v .stands

/-- The party that TVAL of an implicit wait names leaves its answer out: a die, or the die of an engine. -/
def State.partyLate (s : State) (w : Option Word) : Bool :=
  w.any (fun p =>
    let id := bits p.toNat 0 16
    bits p.toNat 16 16 == 0xFFFF &&
      (if bits p.toNat 60 4 = 1 then (s.die id).late != 0 else bits p.toNat 60 4 == 0 && (s.die (engineDie id)).late != 0))

/-- A status word (R335). -/
def statusWord (epi : Nat) (lowabs nabs st : Nat) : Word := word (epi * 2 ^ 32 + lowabs * 2 ^ 20 + nabs * 2 ^ 8 + st)

/-- The status codes of R335 and R134. -/
def stOK : Nat := 0
def stEXPIRED : Nat := 1
def stLAPSED : Nat := 2
def stREVOKED : Nat := 3
def stABANDONED : Nat := 4
def stCOLLIDE : Nat := 5
def stCLOSED : Nat := 6
def stREFUSED : Nat := 16

/-- A REFUSED status word with its reason (R335, R336): LOWABS does not apply. -/
def refusedWord (reason : Nat) : Word := statusWord 0 0xFFF reason stREFUSED

/-- A status word without an object's fields. -/
def plainStatus (st : Nat) : Word := statusWord 0 0xFFF 0 st

/-! Tiles and commands -/

/-- A tile of a core. -/
def State.tile (s : State) (core n : Nat) : Tile := Tab.get Tile.reset (s.core core).tiles n

/-- The state with a tile's entry changed. -/
def State.setTile (s : State) (core n : Nat) (f : Tile → Tile) : State :=
  s.setCore core (fun c => { c with tiles := Tab.set Tile.reset c.tiles n (f (Tab.get Tile.reset c.tiles n)) })

/-- The tile that a scratchpad pointer names. -/
def tileOf (p : Word) : Nat := bits p.toNat 16 4

/-- The result word of `twait` and `tset` (R150). -/
def tileWord (t : Tile) (st : Nat) : Word := word (t.st * 2 ^ 32 + st)

/-- The hart waits for a tile. -/
def WaitKind.tileWait (n : Nat) : WaitKind → Bool
  | .twait m => m == n
  | _ => false

/-- The harts of a core that wait for a tile receive OK once it is neither FILLING nor DRAINING (R150). -/
def State.wakeTile (s : State) (core n : Nat) : State :=
  let t := s.tile core n
  if t.st == 1 || t.st == 3 then s
  else (s.harts.filter (fun h => h.core == core)).foldl (fun u h => u.answerIf h.hid (WaitKind.tileWait n) (tileWord t stOK)) s

/-- The tile transitions at the end of a fill or a drain (R149), of a tile that the engine still fills or drains. -/
def State.endTile (s : State) (e : Nat) (c : Cmd) (good : Bool) : State :=
  if c.kind = 1 && (s.tile c.core (tileOf c.dst)).st == 1 && (s.tile c.core (tileOf c.dst)).eng == e then
    (s.setTile c.core (tileOf c.dst) (fun t => { t with st := if good then 2 else 0, eng := 0xFF })).wakeTile c.core (tileOf c.dst)
  else if c.kind = 2 && (s.tile c.core (tileOf c.src)).st == 3 && (s.tile c.core (tileOf c.src)).eng == e then
    (s.setTile c.core (tileOf c.src) (fun t => { t with st := if good then 0 else 2, eng := 0xFF })).wakeTile c.core (tileOf c.src)
  else s

/-- A command withdrawn before its issue has ended, and its lines released (R139). -/
def State.withdrawCmd (s : State) (e : Nat) (q : BitVec 32) : State :=
  match (s.engine e).queue.find? (fun c => c.seq == q) with
  | some c => (s.setEngine e (fun g => { g with queue := g.queue.filter (fun x => x.seq ≠ q) })).endTile e c false
  | none => s

/-- What the checks of an access of several 64-byte pieces answer. -/
inductive ResAll where
  | ok (pls : List Place)
  | trap (cause : Nat) (tval : Word)
  | wait (party : Word)
deriving DecidableEq, Repr

/-- TVAL names the access's pointer, also when a later piece fails (R85); an entry address stands as it is (R95). -/
def pieceTval (p q v : Word) : Word :=
  if v = q then p else if v = discTval q .full then discTval p .full else v

/-- The checks of R85 for `n` 64-byte pieces from `q`, as one access at `p`. -/
def State.pieces (s : State) (a : Actor) (k : AKind) (p q : Word) : Nat → State × ResAll
  | 0 => (s, .ok [])
  | n + 1 =>
    match s.access a k q 64 64 with
    | (s1, .trap c v) => (s1, .trap c (pieceTval p q v))
    | (s1, .wait w) => (s1, .wait w)
    | (s1, .ok pl) =>
      match s1.pieces a k p (q + 64) n with
      | (s2, .ok pls) => (s2, .ok (pl :: pls))
      | r => r

/-- The checks of R85 for an access of `n` 64-byte pieces. -/
def State.accessRun (s : State) (a : Actor) (k : AKind) (p : Word) (n : Nat) : State × ResAll := s.pieces a k p p n

/-- The bytes at a list of 64-byte pieces, read by an actor, and whether any is poisoned. -/
def State.readPieces (s : State) (a : Actor) : List Place → State × List Byte × Bool
  | [] => (s, [], false)
  | pl :: rest =>
    match s.readAt a pl 64 with
    | (s1, v, bad) =>
      match s1.readPieces a rest with
      | (s2, bs, b2) => (s2, leBytes 64 v ++ bs, bad || b2)

/-- The 8-byte units, numbered from 0, that are poisoned among pieces. -/
def State.piecesBad (s : State) : List Place → Nat → List Nat
  | [], _ => []
  | pl :: rest, i =>
    ((List.range 8).filter (fun u => s.poisonAt (pl.loc + 8 * u))).map (fun u => 8 * i + u) ++ s.piecesBad rest (i + 1)

/-- A scalar instruction after the checks of R85: the trap of the first failing check, the stall of a wait, or what it does
at its place. -/
def State.atPlace (r : State × Res) (f : State → Place → Out) : Out :=
  match r with
  | (s, .trap c v) => .next (s.trap c v)
  | (s, .wait p) => .next (s.stall p)
  | (s, .ok pl) => f s pl

/-- The same for an access of several pieces. -/
def State.atPieces (r : State × ResAll) (f : State → List Place → Out) : Out :=
  match r with
  | (s, .trap c v) => .next (s.trap c v)
  | (s, .wait p) => .next (s.stall p)
  | (s, .ok pls) => f s pls

end Sys2Proof.Machine
end

