-- ==== Sys2Proof/Machine/Amo.lean ====
section
/-! DEFINITION. Atomic memory operations (major 0x0C; R122-R125). -/

namespace Sys2Proof.Machine

/-- The operations of R123, by class, with the exact-rational ones apart. -/
inductive AmoOp where
  | swap | cas | add | and | or | xor | smin | smax | umin | umax | ld | fadd | fmin | fmax | qadd | qmul
deriving DecidableEq, Repr

/-- The element types of a Comb region that an operation suits (R124). -/
def AmoOp.suits (o : AmoOp) (ty : Nat) : Bool :=
  match o with
  | .add => ty < 4
  | .smin => ty < 4
  | .smax => ty < 4
  | .umin => ty < 4
  | .umax => ty < 4
  | .fadd => ty == 4 || ty == 5
  | .fmin => ty == 4 || ty == 5
  | .fmax => ty == 4 || ty == 5
  | .qadd => ty == 6
  | .qmul => ty == 6
  | _ => true

/-- The checks that R124 adds to check 6 of R85: in the Comb the width and the element type, elsewhere no exact-rational
operation. -/
def State.amoSuits (s : State) (o : AmoOp) (p : Word) (n : Nat) : Bool :=
  if window p = 3 then
    match s.regionOf s.h.tid (bits p.toNat 0 28) with
    | some (_, r) => (r.width == n || (o == .ld && r.ty == 7)) && o.suits r.ty
    | none => true
  else !(o == .qadd || o == .qmul)

/-- The modulus of the region that an address of the Comb lies in (R123). -/
def State.amoModulus (s : State) (p : Word) : Nat :=
  match s.regionOf s.h.tid (bits p.toNat 0 28) with
  | some (_, r) => qModulus r.qent
  | none => qModulus 0

/-- The q operations (R123): ND if an operand is ND, else reduced operands. -/
def qApply (m : Nat) (f : Nat → Nat → Nat) (a b : Nat) : Nat :=
  if a = qND || b = qND then qND else f (a % m) (b % m) % m

/-- The new value of R123 and its flags, for operands of `n` bytes. -/
def AmoOp.eval (o : AmoOp) (n m old src cmp : Nat) : Nat × Nat :=
  let w := 8 * n
  let f := if n = 4 then fp32 else fp64
  match o with
  | .swap => (src, 0)
  | .cas => (if old = cmp then src else old, 0)
  | .add => ((old + src) % 2 ^ w, 0)
  | .and => (old &&& src, 0)
  | .or => (old ||| src, 0)
  | .xor => (old ^^^ src, 0)
  | .smin => (if sgn src w < sgn old w then src else old, 0)
  | .smax => (if sgn old w < sgn src w then src else old, 0)
  | .umin => (if src < old then src else old, 0)
  | .umax => (if old < src then src else old, 0)
  | .ld => (old, 0)
  | .fadd => f.add 0 old src
  | .fmin => f.minmax false old src
  | .fmax => f.minmax true old src
  | .qadd => (qApply m (· + ·) old src, 0)
  | .qmul => (qApply m (· * ·) old src, 0)

/-- The operation writes its target: `ld` never, `cas` only on a match (R123). -/
def AmoOp.writes (o : AmoOp) (old cmp : Nat) : Bool :=
  match o with
  | .ld => false
  | .cas => old == cmp
  | _ => true

/-- The number of bytes of a width bit (R122). -/
def amoBytes (w : BitVec 1) : Nat := if w = 0 then 4 else 8

/-- The access kind of an operation (R89, R104): `ld` reads only. -/
def AmoOp.kind (o : AmoOp) : AKind := if o = .ld then .amoLd else .amo

/-- The low `n` bytes of a register. -/
def State.lowBytes (s : State) (a : BitVec 5) (n : Nat) : Nat := (s.xr a).toNat % 2 ^ (8 * n)

/-- The journal entry that an AMO's write needs, stored before the target is read (R120). -/
def State.amoNote (s : State) (o : AmoOp) (pl : Place) (n : Nat) : State :=
  match pl.reg with
  | some i =>
    match s.region i with
    | some r => if o ≠ .ld && r.jsize ≠ 0 then s.guardNote s.h.actor i r (pl.loc - 2 ^ 52) n else s
    | none => s
  | none => s

/-- The read, the new value and the write at the home of the address, atomically, and the result (R123). -/
def State.amoAt (s : State) (o : AmoOp) (n : Nat) (d b : BitVec 5) (p : Word) (pl : Place) : State :=
  match (s.amoNote o pl n).readAt s.h.actor pl n with
  | (s1, old, bad) =>
    if bad then s1.trap cSPOISON p
    else
      let cmp := s1.lowBytes d n
      let r := o.eval n (s1.amoModulus p) old (s1.lowBytes b n) cmp
      let s2 := if o.writes old cmp then s1.rmwAt s1.h.actor pl (leBytes n r.1) false else s1
      (s2.setH (fun h => { h with fxf := orFlags h.fxf r.2 })).retireX d
        (if n = 4 then BitVec.ofInt 64 (sgn old 32) else word old)

/-- An AMO of `n` bytes (R123-R125). -/
def amo (o : AmoOp) (n : Nat) (d a b : BitVec 5) (s : State) : Out :=
  let p := s.xr a
  if window p = 2 then .next (s.trap cSPACE p)
  else
    match s.access s.h.actor o.kind p n n with
    | (s1, .trap c v) => .next (s1.trap c v)
    | (s1, .wait q) => if s1.amoSuits o p n then .next (s1.stall q) else .next (s1.trap cDISC p)
    | (s1, .ok pl) => if s1.amoSuits o p n then .next (s1.amoAt o n d b p pl) else .next (s1.trap cDISC p)

def execAmoSwap (d a b : BitVec 5) (w : BitVec 1) (_ : BitVec 2) (_ : BitVec 3) (s : State) : Out :=
  amo .swap (amoBytes w) d a b s
def execAmoCas (d a b : BitVec 5) (w : BitVec 1) (_ : BitVec 2) (_ : BitVec 3) (s : State) : Out :=
  amo .cas (amoBytes w) d a b s
def execAmoAdd (d a b : BitVec 5) (w : BitVec 1) (_ : BitVec 2) (_ : BitVec 3) (s : State) : Out :=
  amo .add (amoBytes w) d a b s
def execAmoAnd (d a b : BitVec 5) (w : BitVec 1) (_ : BitVec 2) (_ : BitVec 3) (s : State) : Out :=
  amo .and (amoBytes w) d a b s
def execAmoOr (d a b : BitVec 5) (w : BitVec 1) (_ : BitVec 2) (_ : BitVec 3) (s : State) : Out :=
  amo .or (amoBytes w) d a b s
def execAmoXor (d a b : BitVec 5) (w : BitVec 1) (_ : BitVec 2) (_ : BitVec 3) (s : State) : Out :=
  amo .xor (amoBytes w) d a b s
def execAmoSmin (d a b : BitVec 5) (w : BitVec 1) (_ : BitVec 2) (_ : BitVec 3) (s : State) : Out :=
  amo .smin (amoBytes w) d a b s
def execAmoSmax (d a b : BitVec 5) (w : BitVec 1) (_ : BitVec 2) (_ : BitVec 3) (s : State) : Out :=
  amo .smax (amoBytes w) d a b s
def execAmoUmin (d a b : BitVec 5) (w : BitVec 1) (_ : BitVec 2) (_ : BitVec 3) (s : State) : Out :=
  amo .umin (amoBytes w) d a b s
def execAmoUmax (d a b : BitVec 5) (w : BitVec 1) (_ : BitVec 2) (_ : BitVec 3) (s : State) : Out :=
  amo .umax (amoBytes w) d a b s
/-- `amo.ld`: the xb field is 0 (R122). -/
def execAmoLd (d a : BitVec 5) (w : BitVec 1) (_ : BitVec 2) (_ : BitVec 3) (s : State) : Out :=
  amo .ld (amoBytes w) d a 0 s
def execAmoFadd (d a b : BitVec 5) (w : BitVec 1) (_ : BitVec 2) (_ : BitVec 3) (s : State) : Out :=
  amo .fadd (amoBytes w) d a b s
def execAmoFmin (d a b : BitVec 5) (w : BitVec 1) (_ : BitVec 2) (_ : BitVec 3) (s : State) : Out :=
  amo .fmin (amoBytes w) d a b s
def execAmoFmax (d a b : BitVec 5) (w : BitVec 1) (_ : BitVec 2) (_ : BitVec 3) (s : State) : Out :=
  amo .fmax (amoBytes w) d a b s
def execAmoQadd (d a b : BitVec 5) (_ : BitVec 2) (_ : BitVec 3) (s : State) : Out := amo .qadd 8 d a b s
def execAmoQmul (d a b : BitVec 5) (_ : BitVec 2) (_ : BitVec 3) (s : State) : Out := amo .qmul 8 d a b s

end Sys2Proof.Machine
end

