-- ==== Sys2Proof/Machine/Bank.lean ====
section
/-! DEFINITION. What the home bank of an object does: the close of an episode and the flip of planes (R110-R117, R344-R348), the
grant, release and mend of a latch (R118-R121, R351-R355), and the passing of messages (R356-R358). -/

namespace Sys2Proof.Machine

/-- The live object at an offset with another body. -/
def State.setBody (s : State) (off : Nat) (o : Obj) (b : ObjKind) : State := s.setObj off { o with body := b }

/-- The swarm at an offset. -/
def State.swarm (s : State) (off : Nat) : Option (Obj × Swarm) :=
  match s.obj off with
  | some o => match o.body with
    | .swarm b => some (o, b)
    | _ => none
  | none => none

/-- The latch at an offset. -/
def State.latch (s : State) (off : Nat) : Option (Obj × Latch) :=
  match s.obj off with
  | some o => match o.body with
    | .latch b => some (o, b)
    | _ => none
  | none => none

/-- The channel at an offset. -/
def State.chan (s : State) (off : Nat) : Option (Obj × Chan) :=
  match s.obj off with
  | some o => match o.body with
    | .chan b => some (o, b)
    | _ => none
  | none => none

/-! Planes -/

/-- The range that a SUM saturates to (R115). -/
def typeRange (ty w : Nat) : Int × Int :=
  if ty = 0 || ty = 2 then (-(2 ^ (8 * w - 1) : Nat), (2 ^ (8 * w - 1) : Nat) - 1) else (0, (2 ^ (8 * w) : Nat) - 1)

/-- The next value of a written word, its poison, and whether the sum saturated (R114-R116). -/
def PlnWord.next (p : PlnWord) (r : Region) : Nat × Bool × Bool :=
  if r.rule = 2 then
    if r.ty = 6 then (if p.nd then qND else p.sum.toNat, p.psn, false)
    else
      let g := typeRange r.ty r.width
      (unsg (clamp p.sum g.1 g.2) (8 * r.width), p.psn, p.sum < g.1 || g.2 < p.sum)
  else
    match p.by_ with
    | (_, v, b) :: _ => (v, b, false)
    | [] => (0, false, false)

/-- The Comb offset of a region's report block (R109). -/
def Region.report (r : Region) : Nat := r.base + 2 * r.size

/-- Two or more ranks wrote a word (R116). -/
def PlnWord.collided (p : PlnWord) : Bool := 2 ≤ p.by_.length

/-- The words of a FAULT region that collided in the open episode, in ascending offset (R116). -/
def Region.collisions (r : Region) : List (Nat × PlnWord) := if r.rule = 3 then r.pln.filter (fun e => e.2.collided) else []

/-- A collision entry of the report block (R117). -/
def collisionEntry (e : Nat × PlnWord) : Nat :=
  match e.2.by_ with
  | (a, _) :: (b, _) :: _ => a * 2 ^ 54 + b * 2 ^ 44 + e.1
  | _ => 0

/-- The written-word count of a rank advanced in a report block (R117). -/
def State.countRank (s : State) (r : Region) (rank : Nat) : State :=
  let loc := locComb (r.report + 1024 + 2 * rank)
  s.store loc (leBytes 2 (satInc (s.numAt loc 2) 16)) false

/-- The ranks of present members among those that wrote a word, counted (R117). -/
def State.countWriters (s : State) (r : Region) (ranks : List Nat) (p : PlnWord) : State :=
  (p.by_.filter (fun e => ranks.contains e.1)).foldl (fun t e => t.countRank r e.1) s

/-- The report block at a close: header, collisions, and counts of zero (R117). -/
def State.openReport (s : State) (r : Region) (epi : Nat) : State :=
  let cs := r.collisions
  let head := epi * 2 ^ 32 + min cs.length 65535 * 2 ^ 16 + (if cs.isEmpty then 0 else 2) + 1
  let entries := (cs.take 32).map collisionEntry
  s.store (locComb r.report)
    (leBytes 8 head ++ List.replicate 56 0 ++ entries.flatMap (leBytes 8)
      ++ List.replicate (8 * (32 - entries.length)) 0 ++ List.replicate 704 0 ++ List.replicate 2048 0) false

/-- One word flipped: the present plane takes the next value, and the ranks that wrote it are counted (R111, R117). -/
def State.flipWord (s : State) (r : Region) (ranks : List Nat) (e : Nat × PlnWord) : State :=
  let v := e.2.next r
  let s1 := (s.store (locComb e.1) (leBytes r.width v.1) v.2.1).countWriters r ranks e.2
  if v.2.2 then s1.store64 (locComb r.report) (setBit (s1.numAt (locComb r.report) 8) 2 true) else s1

/-- The ranks of the swarm that a region names, as a bank finds them when it flips: a rank that left since the close is no member any
more, and its count is 0 (R117; entry 61). -/
def State.planeRanks (s : State) (r : Region) : List Nat :=
  match s.planeSwarm r with
  | some (_, o) => o.members.map (fun m => m.rank)
  | none => []

/-- The flip of a region at a list of banks (R111). -/
def State.flipBanks (s : State) (n : Nat) (banks : List Nat) : State :=
  match s.region n with
  | none => s
  | some r =>
    let here := r.flip.filter (fun e => banks.contains (combHome e.1).2)
    let left := r.flipBanks.filter (fun b => !banks.contains b)
    let s1 := here.foldl (fun t e => t.flipWord r (s.planeRanks r) e) s
    s1.setRegion n (some { r with flip := r.flip.filter (fun e => !banks.contains (combHome e.1).2), flipBanks := left,
                                  flipEpi := if left.isEmpty then none else r.flipEpi })

/-- The region keeps something of a closed episode that some bank has not flipped. -/
def Region.flipping (r : Region) : Bool := !r.flipBanks.isEmpty

/-- The close of an episode at an attached region (R111, R116): the banks of its die are to flip its words, or, after a collision,
they are discarded. -/
def State.closeRegion (s : State) (epi : Nat) (n : Nat) : State :=
  match s.region n with
  | none => s
  | some r =>
    let s1 := s.openReport r epi
    if r.collisions.isEmpty then
      s1.setRegion n (some { r with flip := r.pln, pln := [], flipEpi := some (BitVec.ofNat 32 epi), flipBanks := List.range 256,
                                    flipAbs := ((s.planeSwarm r).map (fun e => e.2.absents)).getD 0 })
    else
      (r.pln.foldl (fun t e => t.countWriters r (s.planeRanks r) e.2) s1).setRegion n
        (some { r with pln := [], flip := [], flipEpi := none, flipBanks := [] })

/-- A region attached to a swarm saturated a sum at the last close (R115). -/
def State.saturated (s : State) (off : Nat) : Bool :=
  (s.naming 2 off).any (fun e => bit (s.numAt (locComb e.2.report) 8) 2)

/-- The hart waits as an arrival at a swarm. -/
def WaitKind.arrives (off : Nat) : WaitKind → Bool
  | .arrive r _ => r == off
  | _ => false

/-- The hart waits in `step`. -/
def WaitKind.steps (off : Nat) : WaitKind → Bool
  | .arrive r f => r == off && f
  | _ => false

/-! Swarms -/

/-- The ports are up (R451, R454). -/
def State.portsUp (s : State) : Bool := s.hub.accepted 1 && s.hub.hchip != 0xFFFF

/-- The port by which a frame leaves (R461): for a collective with SPLIT.COLL = 1 the one that the host's route table names for the chip
(R452); else the chip's own choice (entry 83). -/
def Hub.portFor (b : Hub) (kind dst : Nat) : Nat :=
  let r := if kind = 7 && bit b.split 5 then Tab.get 0 b.routes dst else 0
  if r = 0 then Config.fabricPort dst % 2 else (r - 1) % 2

/-- A frame sent, numbered at its port (R461); nothing leaves by ports that are down (R451, R454). In replay mode what a tenant sends to peers
is discarded (R446). -/
def State.sendFrame (s : State) (kind dst tag target : Nat) (data : List Byte) : State :=
  let port := s.hub.portFor kind dst
  let seq := Tab.get 0 s.hub.fabSeq port
  if (s.tenant tag).replay || !s.portsUp then s
  else
    { s with outbox := s.outbox ++ [{ secTag := true, ver := 1, kind := kind, dst := dst, src := s.hub.hchip, inc := s.hub.chipInc,
                                      tag := tag, seq := seq, target := target, data := data }],
             hub := { s.hub with fabSeq := Tab.set 0 s.hub.fabSeq port ((seq + 1) % 2 ^ 32) } }

/-- The bytes of the parts that a message longer than a frame goes out in (R461; entry 15). -/
def partBytes : Nat := 8960

/-- The parts of a message from one on: dword 0 is 4, then the number of parts, the part's own, and the message's serial. -/
def State.sendParts (s : State) (kind dst tag target count serial : Nat) (data : List Byte) : Nat → State
  | 0 => s
  | n + 1 =>
    let i := count - (n + 1)
    (s.sendFrame kind dst tag target (([4, count, i, serial].flatMap (leBytes 8)) ++ (data.drop (i * partBytes)).take partBytes)).sendParts
      kind dst tag target count serial data n

/-- A message sent in one frame, or in parts of at most 9,000 bytes (R461; entry 15). -/
def State.sendLong (s : State) (kind dst tag target : Nat) (data : List Byte) : State :=
  if data.length ≤ 9000 then s.sendFrame kind dst tag target data
  else
    let count := (data.length + partBytes - 1) / partBytes
    s.sendParts kind dst tag target count (Tab.get 0 s.hub.fabSeq (s.hub.portFor kind dst)) data count

/-- The number under which a hart of another chip stands at a bank (entry 15), and the chip that such a number names. -/
def farId (chip hid : Nat) : Nat := 2 ^ 22 + chip * 65536 + hid
def chipOf (x : Nat) : Nat := if x < 2 ^ 22 then 0xFFFF else (x % 2 ^ 40 - 2 ^ 22) / 65536

/-- The number names a hart of another chip that lives in the chip's present incarnation. -/
def isFar (x : Nat) : Bool := 2 ^ 22 ≤ x && x < 2 ^ 40

/-- A number that names a hart of a chip, once that chip has restarted: no later hart has it, so the member is absent (R349). -/
def farGhost (chip x : Nat) : Nat := if isFar x && chipOf x == chip then x + 2 ^ 40 else x

/-- What an object keeps of the harts of a chip, once that chip has restarted: they are answered no more, and absent from the next episode on;
an arrival that has been performed stands (R345, R349). A proxy of one of its swarms has no members. -/
def ghostChip (chip : Nat) (o : Obj) : Obj :=
  match o.body with
  | .swarm b =>
    if b.remote ≠ 0 then (if bits b.remote.toNat 48 16 = chip then { o with body := .swarm { b with members := [] } } else o)
    else
      { o with body := .swarm { b with
          members := b.members.map (fun m => { m with hid := farGhost chip m.hid }),
          joins := b.joins.filter (fun j => farGhost chip j.hid = j.hid), closed := b.closed.filter (fun j => farGhost chip j.hid = j.hid) } }
  | .latch _ => o
  | .chan b => { o with body := .chan { b with senders := b.senders.filter (fun r => farGhost chip r.hid = r.hid) } }

/-- The highest rank of a swarm, in a proxy as its home bank last reported it. -/
def Swarm.topRank (w : Swarm) : Nat := (w.members.map (fun m => m.rank)).foldl max w.top

/-- The standing of a hart at a swarm: 1 a member in good standing, 2 none, 3 a lapsed member; then its rank and the swarm's highest. -/
def State.standing (s : State) (num far : Nat) : List Nat :=
  match s.objNum num with
  | some (_, o) =>
    match o.body with
    | .swarm b =>
      match b.members.find? (fun m => m.hid == far) with
      | some m => [if m.good then 1 else 3, m.rank, b.topRank]
      | none => [2, 0, b.topRank]
    | _ => [2, 0, 0]
  | none => [2, 0, 0]

/-- A result for a hart on another chip goes out as a swarm result: the hart, the word, the tick of the request, the flags that it raises
(R115), and the hart's standing (R349, R461; entry 15). -/
def State.fabricReply (s : State) (tag num far tick : Nat) (v : Word) (flags : Nat) : State :=
  if isFar far then
    s.sendFrame 6 (chipOf far) tag num (([far % 65536, v.toNat, tick, flags] ++ s.standing num far).flatMap (leBytes 8))
  else s

/-- The result of a request of a hart of another chip at a swarm, issued at a tick. -/
def State.fabricResult (s : State) (o : Obj) (far tick : Nat) (v : Word) (flags : Nat) : State := s.fabricReply o.tag o.num far tick v flags

/-- One `step` result, to the hart of this chip or of another that still waits for it, with IS in its FXF when a sum saturated (R111, R115,
R332, R345). -/
def State.sendStep (s : State) (off : Nat) (o : Obj) (f : Nat) (e : StepRes) : State :=
  if 2 ^ 22 ≤ e.hid then s.fabricResult o e.hid e.tick e.word f else s.answerTick e.hid e.tick (WaitKind.steps off) e.word f

/-- The `step` results that wait for the flip are sent (R111, R345). -/
def State.sendSteps (s : State) (off : Nat) : State :=
  if (s.naming 2 off).any (fun e => e.2.flipping) then s
  else
    match s.swarm off with
    | none => s
    | some (o, b) =>
      let f := if s.saturated off then 64 else 0
      b.closed.foldl (fun t e => t.sendStep off o f e) (s.setBody off o (.swarm { b with closed := [] }))

/-- A `step` result kept until every bank has flipped (R111). -/
def State.keepStep (s : State) (off : Nat) (r : StepRes) : State :=
  match s.swarm off with
  | some (o, b) => s.setBody off o (.swarm { b with closed := b.closed ++ [r] })
  | none => s

/-- The result of a close for one present member, which answers the arrival that it made (R332, R344, R345): `swbar` returns at once, with
OK or EXPIRED; `step` when the banks have flipped. -/
def State.closeResult (s : State) (off : Nat) (o : Obj) (bar stp : Word) (m : Member) : State :=
  if m.flip then s.keepStep off ⟨m.hid, m.tick, stp⟩
  else if m.chip ≠ 0xFFFF then s.fabricResult o m.hid m.tick bar 0
  else s.answerTick m.hid m.tick (fun k => k.arrives off && !k.steps off) bar 0

/-- A pending join admitted (R344, R347): a member in good standing of the episode that opens. -/
def seat (ms : List Member) (j : Join) : List Member :=
  if ms.any (fun m => m.hid == j.hid) then
    ms.map (fun m => if m.hid = j.hid then { m with good := true, arrived := false } else m)
  else ms ++ [{ rank := j.rank, hid := j.hid, chip := chipOf j.hid, good := true, arrived := false, dead := 0, tick := j.tick, flip := false }]

/-- The result of a join, sent to a hart of this chip or of another. -/
def State.joinResult (s : State) (o : Obj) (k : WaitKind → Bool) (j : Join) (w : Word) : State :=
  if 2 ^ 22 ≤ j.hid then s.fabricResult o j.hid j.tick w 0 else s.answerTick j.hid j.tick k w 0

/-- The hart waits for a join of a swarm. -/
def WaitKind.joins (off : Nat) : WaitKind → Bool
  | .swjoin r _ => r == off
  | _ => false

/-- The lowest of a list of ranks, or 0xFFF. -/
def lowRank (l : List Nat) : Nat := l.foldl min 0xFFF

/-- What an earlier close has left to flip, flipped: a bank receives the closes of a swarm in order. -/
def State.finishFlips (s : State) (off : Nat) : State :=
  ((s.naming 2 off).foldl (fun t e => t.flipBanks e.1 e.2.flipBanks) s).sendSteps off

/-- The close of the open episode (R344). -/
def State.closeEpisode (s0 : State) (off : Nat) : State :=
  let s := s0.finishFlips off
  match s.swarm off with
  | none => s
  | some (o, b) =>
    let n : Nat := (b.epi + 1).toNat
    let gone := (b.members.filter (fun m => m.good && !m.arrived)).map (fun m => m.rank)
    let here := b.members.filter (fun m => m.good && m.arrived)
    let regs := s.naming 2 off
    let collide := regs.any (fun e => !e.2.collisions.isEmpty)
    let late := if gone.isEmpty then stOK else stEXPIRED
    let cst := if collide then stCOLLIDE else late
    let w := fun st => statusWord n (lowRank gone) gone.length st
    let ms := b.members.map (fun m => { m with good := m.good && m.arrived, arrived := false })
    let b1 : Swarm := { b with epi := b.epi + 1, lowabs := lowRank gone, nabs := gone.length, cst := cst, ctick := s.gtb,
                               absents := gone.foldl (fun a k => setBit a k true) 0, members := b.joins.foldl seat ms, joins := [] }
    let s1 := regs.foldl (fun t e => t.closeRegion n e.1) (s.setBody off o (.swarm b1))
    let s2 := here.foldl (fun t m => t.closeResult off o (w late) (w cst) m) s1
    let s3 := b.joins.foldl (fun t j => t.joinResult o (WaitKind.joins off) j (w stOK)) s2
    s3.sendSteps off

/-- Every member in good standing has arrived (R344). -/
def Swarm.complete (b : Swarm) : Bool := b.members.all (fun m => !m.good || m.arrived)

/-- An arrival performed, issued at a tick, `flip` for `step` (R344, R345): it closes the episode if it completes it, or if its deadline has
passed. -/
def State.arriveAt (s : State) (off hid chip dead tick : Nat) (flip : Bool) : State :=
  match s.swarm off with
  | none => s
  | some (o, b) =>
    let b1 : Swarm := { b with members := b.members.map (fun m =>
      if m.hid = hid && m.chip = chip then
        { m with arrived := true, dead := if m.arrived then min m.dead dead else dead, tick := tick, flip := flip }
      else m) }
    let s1 := s.setBody off o (.swarm b1)
    if b1.complete || dead ≤ s.gtb then s1.closeEpisode off else s1

/-- A member leaves (R348): the episode closes if every remaining member in good standing has arrived. -/
def State.leaveAt (s : State) (off hid chip : Nat) : State :=
  match s.swarm off with
  | none => s
  | some (o, b) =>
    let b1 : Swarm := { b with members := b.members.filter (fun m => !(m.hid == hid && m.chip == chip)) }
    let s1 := s.setBody off o (.swarm b1)
    if b1.complete then s1.closeEpisode off else s1

/-- The record offsets of the swarms that a hart of this chip is a member of (R288). -/
def State.swarmsOf (s : State) (hid : Nat) : List Nat :=
  s.objs.filterMap (fun e => e.2.bind (fun o => if (o.memberOf hid).isSome then some e.1 else none))

/-- The chip at which a proxy's home bank lies. -/
def Swarm.homeChip (b : Swarm) : Nat := bits b.remote.toNat 48 16

/-- A request to the home bank of a proxy swarm (R340, R349; entry 15): the operation, the hart, its rank, its deadline, the tick of
issue and the number of swarms that it is in. -/
def State.askHome (s : State) (o : Obj) (b : Swarm) (op hid rank dead : Nat) : State :=
  s.sendFrame 5 b.homeChip o.tag (bits b.remote.toNat 0 16) ([op, hid, rank, dead, s.gtb, (s.swarmsOf hid).length].flatMap (leBytes 8))

/-- The TVAL of a WAITX for the home bank of a proxy: its chip, and a die that this chip has no record of (R332, R334; entry 62). -/
def Swarm.homeParty (b : Swarm) : Word :=
  farParty 1 b.homeChip ((Config.freeWord (2 ^ 64 + b.remote.toNat)).toNat % 8)

/-- A hart leaves a swarm: at its bank, or by a request to the home bank of a proxy. -/
def State.leaveOne (s : State) (hid off : Nat) : State :=
  match s.swarm off with
  | some (o, b) => if b.remote = 0 then s.leaveAt off hid 0xFFFF else s.askHome o b 3 hid 0 s.gtb
  | none => s

/-- A hart leaves every swarm it belongs to, through proxies too (R286, R312). -/
def State.leaveAll (s : State) (hid : Nat) : State := (s.swarmsOf hid).foldl (fun t off => t.leaveOne hid off) s

/-- The home of a swarm that a hart has left has not answered: a home bank on another chip, whose answer ends the wait, or a die of this one that
leaves requests unanswered. -/
def State.leaveOpen (s : State) (e : Nat × Nat) : Bool :=
  match s.swarm e.1 with
  | some (_, b) => b.remote != 0 || (s.die (combHome e.1).1).late != 0
  | none => false

/-- The party that a leave waits for (R334). -/
def State.leaveParty (s : State) (e : Nat × Nat) : Word :=
  match s.swarm e.1 with
  | some (_, b) => if b.remote = 0 then partyWord 1 (combHome e.1).1 else b.homeParty
  | none => partyWord 1 (combHome e.1).1

/-- A rank of a swarm is taken by a member or by a pending join. -/
def Swarm.rankTaken (b : Swarm) (rank : Nat) : Bool :=
  b.members.any (fun m => m.rank == rank) || b.joins.any (fun j => j.rank == rank)

/-- A rank enrolled in the open episode (R280). -/
def State.enrol (s : State) (off rank hid : Nat) : State :=
  match s.swarm off with
  | none => s
  | some (o, b) =>
    s.setBody off o (.swarm { b with members :=
      b.members ++ [{ rank := rank, hid := hid, chip := 0xFFFF, good := true, arrived := false, dead := 0, tick := s.gtb, flip := false }] })

/-! Latches -/

/-- The hart waits for a latch. -/
def WaitKind.acquires (off : Nat) : WaitKind → Bool
  | .acq r => r == off
  | _ => false

/-- The regions and pages that a latch guards keep no journal and no mark (R119, R120, R355). -/
def State.clearGuards (s : State) (off num : Nat) : State :=
  (s.naming 1 off).foldl (fun t e => t.setRegion e.1 (some { e.2 with journal := [], marks := [] }))
    { s with grdMarks := s.grdMarks.filter (fun m => m.2 ≠ num) }

/-- A latch taken by a hart (R352, R354): the holding number advances. -/
def Latch.take (b : Latch) (hid time : Nat) : Latch := { b with hold := b.hold + 1, holder := hid, held := true, gtick := time }

/-- The status word of a holding (R335). -/
def holdWord (n : BitVec 32) (st : Nat) : Word := statusWord n.toNat 0xFFF 0 st

/-- A queued hart is granted a free latch (R352): one that no longer waits keeps no holding number (R332). -/
def State.grantQueued (s : State) (off : Nat) : State :=
  match s.latch off with
  | none => s
  | some (o, b) =>
    match b.queue with
    | [] => s
    | (hid, _) :: rest =>
      let b1 := { b.take (realId hid) s.gtb with queue := rest }
      let s1 := (s.clearGuards off o.num).setBody off o (.latch b1)
      match (s1.hart hid).bind (·.wait) with
      | some w => if w.kind.acquires off then s1.respond hid w (holdWord b1.hold stOK) 0 (some ⟨off, o.num, b1.hold.toNat⟩) else s1
      | none => s1

/-- One journal entry written back, with the poison bit of its 8-byte word as the entry holds it (R99, R121). -/
def State.undo (s : State) (w : Nat) (e : JEntry) : State :=
  let s1 := s.store (locComb e.off) (leBytes w e.old) e.psn
  { s1 with psn := Tab.set false s1.psn (unitOf (locComb e.off)) e.psn }

/-- A guarded region rolled back (R121): its journal in reverse, or poison over its written marks. -/
def State.rollback (s : State) (r : Region) : State :=
  let s1 := r.journal.reverse.foldl (fun t e => t.undo r.width e) s
  { s1 with psn := putMarks s1.psn true (r.marks.map (fun w => unitOf (locComb w))) }

/-- What MEND does to the data a latch guards (R121, R355): regions rolled back, and both sectors of each marked line poisoned. -/
def State.mendGuards (s : State) (off num : Nat) : State :=
  let s1 := (s.naming 1 off).foldl (fun t e => t.rollback e.2) s
  { s1 with psn := putMarks s1.psn true ((s1.grdMarks.filter (fun m => m.2 = num)).flatMap (fun m => [m.1 * 64, m.1 * 64 + 32])) }

/-- The rank of a holder in a latch's swarm, or 0xFFF (R352). -/
def State.holderRank (s : State) (b : Latch) : Nat :=
  match (s.objPtr b.swp).bind (fun e => e.2.memberOf b.holder) with
  | some m => m.rank
  | none => 0xFFF

/-- The EXPIRED word of an ACQ (R352). -/
def State.acqExpired (s : State) (b : Latch) : Word := statusWord b.hold.toNat (s.holderRank b) 1 stEXPIRED

/-! Channels -/

/-- The actor under which a bank performs a message's write for a hart that waits. -/
def bankActor (tag hid : Nat) : Actor := { tid := tag, hid := hid, core := 0, mode := .a, holds := [], unit := true }

/-- A run of 64-byte pieces written at their places, with the poison of each 8-byte unit of the whole. -/
def State.writePieces (s : State) (a : Actor) : List Place → List Byte → List Nat → State
  | [], _, _ => s
  | pl :: rest, bs, bad =>
    let s1 := s.writeAt a pl (bs.take 64) false
    let mine := (bad.filter (fun u => u < 8)).map (fun u => unitOf (pl.loc + 8 * u))
    ({ s1 with psn := putMarks s1.psn true mine }).writePieces a rest (bs.drop 64)
      ((bad.filter (fun u => 8 ≤ u)).map (fun u => u - 8))

/-- The 8-byte units among `n` bytes from a location that are poisoned, numbered from 0. -/
def State.badUnits (s : State) (loc n : Nat) : List Nat :=
  (List.range (n / 8)).filter (fun u => s.poisonAt (loc + 8 * u))

/-- The Comb offset of a channel's slot for a message number (R357, R358). -/
def Chan.slot (b : Chan) (n : BitVec 32) : Nat := bits b.buf.toNat 0 28 + b.sz * (n.toNat % b.nslot)

/-- The number under which the host sends for a tenant. -/
def hostId (tag : Nat) : Nat := 65536 + tag

/-- A producer is admitted (R340, R357): any hart, a member in good standing, or the host. -/
def State.producerOk (s : State) (b : Chan) (hid : Nat) : Bool :=
  if b.pkind = 0 then realId hid < 65536 || 2 ^ 22 ≤ hid
  else if b.pkind = 1 then
    match s.objPtr b.psw with
    | some (_, o) => o.members.any (fun m => m.hid == realId hid && m.good)
    | none => false
  else 65536 ≤ hid && hid < 2 ^ 17

/-- The rank of a producer in the channel's swarm, if any. -/
def State.producerRank (s : State) (b : Chan) (hid : Nat) : Option Nat :=
  ((s.objPtr b.psw).bind (fun e => e.2.members.find? (fun m => m.hid == realId hid))).map (fun m => m.rank)

/-- The SIL bits of the producers in good standing (R358). -/
def State.silAll (s : State) (b : Chan) : Nat :=
  match s.objPtr b.psw with
  | some (_, o) => if b.pkind = 1 then (o.members.filter (fun m => m.good)).foldl (fun a m => setBit a m.rank true) 0 else 0
  | none => 0

/-- The hart waits at a channel. -/
def WaitKind.sends (off : Nat) : WaitKind → Bool
  | .send r _ => r == off
  | _ => false
def WaitKind.receives (off : Nat) : WaitKind → Bool
  | .recv r _ => r == off
  | _ => false

/-- The result of a send, to a hart, to the host registers of its tenant (R457), or to a peer chip as a credit return (R461). -/
def State.sendResult (s : State) (off hid : Nat) (v : Word) : State :=
  if 2 ^ 22 ≤ hid then
    match (if isFar hid then s.obj off else none) with
    | some o => s.sendFrame 8 (chipOf hid) o.tag o.num (leBytes 8 (hid % 65536) ++ leBytes 8 v.toNat)
    | none => s
  else if 65536 ≤ hid && hid < 2 ^ 17 then s.setTenant (hid - 65536) (fun t => { t with hsres := v })
  else s.answerIf hid (WaitKind.sends off) v

/-- A message put into its slot (R357): one bank operation (R415). -/
def State.putMessage (s : State) (off : Nat) (o : Obj) (b : Chan) (r : ChanReq) : State :=
  let loc := locComb (b.slot b.tail)
  let s1 := (s.count o.tag 7 1).store loc r.data false
  let s2 := { s1 with psn := putMarks s1.psn true (r.bad.map (fun u => unitOf (loc + 8 * u))) }
  let sil := match s.producerRank b r.hid with
    | some k => if b.pkind = 1 then setBit b.sil k false else b.sil
    | none => b.sil
  (s2.setBody off o (.chan { b with tail := b.tail + 1, sil := sil, senders := b.senders.drop 1 })).sendResult off r.hid
    (statusWord b.tail.toNat 0xFFF 0 stOK)

/-- A launch message received: the next SPAWN takes its JOB (R290, R460; entry 14). -/
def launchJob (b : Chan) (data : List Byte) (h : Hart) : Hart :=
  if b.pkind = 2 && 192 ≤ b.sz then { h with nextJob := some (word (leNat (data.take 8))) } else h

/-- A message taken from its slot (R358): one bank operation (R415); the SIL bit of each producer in good standing is set. -/
def State.takeMessage (s : State) (off : Nat) (o : Obj) (b : Chan) (r : ChanReq) : State :=
  let loc := locComb (b.slot b.head)
  let data := s.bytesAt loc b.sz
  let s1 := (s.count o.tag 7 1).writePieces (bankActor o.tag (realId r.hid)) r.dst data (s.badUnits loc b.sz)
  ((s1.setBody off o (.chan { b with head := b.head + 1, sil := b.sil ||| s.silAll b, receivers := b.receivers.drop 1 })).updHart r.hid
    (launchJob b data)).answerIf r.hid (WaitKind.receives off) (statusWord b.head.toNat 0xFFF 0 stOK)

/-- A line of a receiver's destination is held up: an engine or a plough owns it, or its home leaves requests unanswered (R360). -/
def State.dstHeld (s : State) (r : ChanReq) : Bool := r.dst.any (fun pl => (s.ownedWait .store pl).2 != .ok pl)

/-- The receiver that takes the next message, when there is one (R358). -/
def Chan.receiver (b : Chan) : Option ChanReq := if b.head = b.tail then none else b.receivers.head?

/-- The owned lines of the destination to which the next message is to be written are recalled (R360). -/
def State.recallDst (s : State) (off : Nat) : State :=
  match (s.chan off).bind (fun e => e.2.receiver) with
  | some r => r.dst.foldl (fun t pl => (t.ownedWait .store pl).1) s
  | none => s

/-- A sender that a channel serves (R357): outside the producer set it is refused, else it puts its message. -/
def State.serveSender (s : State) (off : Nat) (o : Obj) (b : Chan) (x : ChanReq) : State :=
  if s.producerOk b x.hid then s.putMessage off o b x
  else (s.setBody off o (.chan { b with senders := b.senders.drop 1 })).sendResult off x.hid (refusedWord 7)

/-- The oldest request that a channel can serve, served (R356-R358): a waiting receiver takes the next message, once no copy of a line of its
destination is out (R360); a waiting sender is served while a slot is free. -/
def State.serveOne (s : State) (off : Nat) : Option State :=
  match s.chan off with
  | none => none
  | some (o, b) =>
    match b.receiver.filter (fun r => !s.dstHeld r), b.senders with
    | some r, _ => some (s.takeMessage off o b r)
    | none, x :: _ => if (b.tail - b.head).toNat < b.nslot then some (s.serveSender off o b x) else none
    | none, [] => none

/-- Requests served until none can be. -/
def State.serve (s : State) (off : Nat) : Nat → State
  | 0 => s
  | n + 1 =>
    match s.serveOne off with
    | some t => t.serve off n
    | none => s

/-- Everything that a channel can serve; a receiver that cannot be served yet has its lines recalled. -/
def State.serveAll (s : State) (off : Nat) : State :=
  match s.chan off with
  | some (_, b) => (s.serve off (2 * (b.senders.length + b.receivers.length))).recallDst off
  | none => s

/-- The channels whose next message has a receiver that was held up, served again (R360). -/
def State.serveChans (s : State) : State :=
  (s.objs.filterMap (fun e => e.2.bind (fun o => match o.body with
    | .chan b => if b.receiver.isSome then some e.1 else none
    | _ => none))).foldl State.serveAll s

/-- The ranks whose SIL bit is set. -/
def silRanks (sil : Nat) : List Nat := (List.range 1024).filter (fun k => bit sil k)

/-- The EXPIRED word of a RECV (R358). -/
def recvExpired (b : Chan) : Word :=
  if b.pkind = 1 then statusWord 0 (lowRank (silRanks b.sil)) (silRanks b.sil).length stEXPIRED else plainStatus stEXPIRED

end Sys2Proof.Machine
end

