-- ==== Sys2Proof/Machine/Wait.lean ====
section
/-! DEFINITION. The WAIT instructions (major 0x14; R338-R359): objects, swarms, latches, channels and naps. Requests to a proxy
swarm go out on the fabric (R340; entry 15). -/

namespace Sys2Proof.Machine

/-- An outcome with one bank operation of a tenant counted, unless the instruction trapped or has not sent its request (R415). -/
def countBank (tid : Nat) : Out → Out
  | .next t => .next (if t.did = .retired || t.did = .waits || t.h.begun.isSome then t.count tid 7 1 else t)
  | r => r

/-- The checks of R339 on a record pointer, then what the instruction does at its home bank. -/
def State.atRecord (s : State) (p : Word) (f : Nat → Out) : Out :=
  if window p ≠ 3 then .next (s.trap cSPACE p)
  else if p.toNat % 256 ≠ 0 then .next (s.trap cALIGN p)
  else
    match s.regionOf s.h.tid (bits p.toNat 0 28) with
    | none => .next (s.trap cPROT p)
    | some (_, r) =>
      if !r.covers (bits p.toNat 0 28 + 255) then .next (s.trap cPROT p)
      else if r.disc ≠ 5 then .next (s.trap cDISC p)
      else countBank s.h.tid (f (bits p.toNat 0 28))

/-- A WAIT instruction whose record's bank answers at once: a form with a deadline is an explicit wait (R332), and one without waits for the bank
under IWL (R334). `k` is the wait of a form with a deadline, and that deadline. -/
def State.endsAt (s : State) (off : Nat) (k : Option (WaitKind × Nat)) (d : BitVec 5) (v : Word) : State :=
  match k with
  | none => s.finishWhen [(combHome off).1] d v
  | some (w, dead) => s.finishAt w d dead v none

/-- A WAIT instruction refused (R336). -/
def State.refuse (s : State) (off : Nat) (k : Option (WaitKind × Nat)) (d : BitVec 5) (reason : Nat) : Out :=
  .next (s.endsAt off k d (refusedWord reason))

/-- A swarm record of the hart's tenant at an offset, or REFUSED 2. -/
def State.atSwarm (s : State) (k : Option (WaitKind × Nat)) (d : BitVec 5) (off : Nat) (f : Obj → Swarm → Out) : Out :=
  match s.swarm off with
  | some (o, b) => if o.tag = s.h.tid then f o b else s.refuse off k d 2
  | none => s.refuse off k d 2

/-- A latch record of the hart's tenant at an offset, or REFUSED 2. -/
def State.atLatch (s : State) (k : Option (WaitKind × Nat)) (d : BitVec 5) (off : Nat) (f : Obj → Latch → Out) : Out :=
  match s.latch off with
  | some (o, b) => if o.tag = s.h.tid then f o b else s.refuse off k d 2
  | none => s.refuse off k d 2

/-- A channel record of the hart's tenant at an offset, or REFUSED 2. -/
def State.atChan (s : State) (k : Option (WaitKind × Nat)) (d : BitVec 5) (off : Nat) (f : Obj → Chan → Out) : Out :=
  match s.chan off with
  | some (o, b) => if o.tag = s.h.tid then f o b else s.refuse off k d 2
  | none => s.refuse off k d 2

/-! Objects -/

/-- Dword `i` of a record's bytes. -/
def dword (bs : List Byte) (i : Nat) : Nat := leNat ((bs.drop (8 * i)).take 8)

/-- Every byte of an image from dword `i` on is 0. -/
def zeroFrom (bs : List Byte) (i : Nat) : Bool := (bs.drop (8 * i)).all (fun b => b == 0)

/-- A pointer names a live swarm record of a tenant. -/
def State.isSwarm (s : State) (tag : Nat) (p : Nat) : Bool :=
  match combOffset (word p) with
  | some off => match s.swarm off with
    | some (o, _) => o.tag == tag
    | none => false
  | none => false

/-- A pointer names a live latch record of a tenant. -/
def State.isLatch (s : State) (tag : Nat) (p : Nat) : Bool :=
  match combOffset (word p) with
  | some off => match s.latch off with
    | some (o, _) => o.tag == tag
    | none => false
  | none => false

/-- A swarm's parameter image is valid (R340, R451). -/
def State.swarmImage (s : State) (bs : List Byte) : Bool :=
  dword bs 0 == 0 && dword bs 1 < 2 && bits (dword bs 2) 16 32 == 0 && zeroFrom bs 3 &&
    (s.hub.accepted 1 || (dword bs 1 == 0 && dword bs 2 == 0))

/-- A latch's parameter image is valid (R340). -/
def State.latchImage (s : State) (tag : Nat) (bs : List Byte) : Bool :=
  dword bs 0 == 0 && (dword bs 1 == 0 || s.isSwarm tag (dword bs 1)) && zeroFrom bs 2

/-- A channel's buffer lies inside one ATM region of TYPE 7 of the tenant (R340). -/
def State.bufferOk (s : State) (tag p n : Nat) : Bool :=
  match combOffset (word p) with
  | some off =>
    match s.regionOf tag off with
    | some (_, r) => off % 64 == 0 && r.disc == 4 && r.ty == 7 && r.covers (off + n - 1)
    | none => false
  | none => false

/-- A channel's parameter image is valid (R340). -/
def State.chanImage (s : State) (tag : Nat) (bs : List Byte) : Bool :=
  let ns := bits (dword bs 2) 32 16
  let sz := bits (dword bs 2) 0 13
  let pk := dword bs 3
  dword bs 0 == 0 && dword bs 2 == ns * 2 ^ 32 + sz && ns != 0 && sz % 64 == 0 && 64 ≤ sz && sz ≤ 4096 &&
    s.bufferOk tag (dword bs 1) (ns * sz) && pk < 3 && (if pk = 1 then s.isSwarm tag (dword bs 4) else dword bs 4 == 0) &&
    zeroFrom bs 5

/-- A new swarm: no members, episode 0 open (R341, R343). -/
def newSwarm (bs : List Byte) : ObjKind :=
  .swarm { xchip := dword bs 1 == 1, remote := word (dword bs 2), epi := 0xFFFFFFFF#32, lowabs := 0xFFF, nabs := 0, cst := 0,
           ctick := 0, absents := 0, members := [], joins := [], closed := [], top := 0, topAt := 0 }

/-- A new latch: free with HOLD 0 (R341, R351). -/
def newLatch (bs : List Byte) : ObjKind :=
  .latch { hold := 0, holder := 0xFFFF, held := false, swp := word (dword bs 1), gtick := 0, queue := [] }

/-- A new channel: empty (R341, R356). -/
def newChan (bs : List Byte) : ObjKind :=
  .chan { buf := word (dword bs 1), nslot := bits (dword bs 2) 32 16, sz := bits (dword bs 2) 0 13, head := 0, tail := 0,
          pkind := dword bs 3, psw := word (dword bs 4), sil := 0, senders := [], receivers := [] }

/-- The lowest free object number among 1-65,534 (R341). -/
def State.freeNum (s : State) : Option Nat :=
  (List.range' 1 65534).find? (fun n => (s.objNum n).isNone)

/-- The live objects of the package. -/
def State.objCount (s : State) : Nat := s.objs.length

/-- ONEW's result word (R341). -/
def onewWord (num reason st : Nat) : Word := word (num * 2 ^ 32 + reason * 2 ^ 8 + st)

/-- ONEW (R341): a live record, an invalid image, a full table; else a new object. -/
def onew (valid : List Byte → Bool) (body : List Byte → ObjKind) (d a : BitVec 5) (s : State) : Out :=
  s.atRecord (s.xr a) (fun off =>
    let bs := s.bytesAt (locComb off) 256
    let home := [(combHome off).1]
    if (s.obj off).isSome then .next (s.retireWhen home d (onewWord 0 3 stREFUSED) .stands)
    else if !valid bs then .next (s.retireWhen home d (onewWord 0 1 stREFUSED) .stands)
    else
      match (if s.objCount < 16384 then s.freeNum else none) with
      | none => .next (s.retireWhen home d (onewWord 0 4 stREFUSED) .stands)
      | some n => .next ((s.setObj off { num := n, tag := s.h.tid, body := body bs }).retireWhen home d (onewWord n 0 stOK) .stands))

def execOnewSwarm (d a : BitVec 5) (s : State) : Out := onew s.swarmImage newSwarm d a s
def execOnewLatch (d a : BitVec 5) (s : State) : Out := onew (s.latchImage s.h.tid) newLatch d a s
def execOnewChan (d a : BitVec 5) (s : State) : Out := onew (s.chanImage s.h.tid) newChan d a s

/-- A region descriptor names an object: by its pointer, or by its number as a swarm owner (R102, R342). -/
def State.named (s : State) (tag off num : Nat) : Bool :=
  s.regions.any (fun e =>
    match e.2 with
    | some r => r.tag == tag && (((r.disc == 1 || r.disc == 2) && combOffset r.obj == some off) ||
        (r.disc == 0 && r.ownk == 1 && r.own == num))
    | none => false)

/-- The requests that wait at an object, through a proxy too, answered CLOSED (R342). -/
def State.closeWaits (s : State) (off : Nat) (o : Obj) : State :=
  match o.body with
  | .swarm b =>
    let far := (b.joins.map (fun j => (j.hid, j.tick))) ++ ((b.members.filter (fun m => m.arrived)).map (fun m => (m.hid, m.tick))) ++
      b.closed.map (fun c => (c.hid, c.tick))
    s.harts.foldl (fun t h => t.answerIf h.hid (fun k => k.arrives off || k.joins off) (plainStatus stCLOSED))
      (far.foldl (fun t x => t.fabricResult o x.1 x.2 (plainStatus stCLOSED) 0) s)
  | .latch b => b.queue.foldl (fun t q => t.answerIf q.1 (WaitKind.acquires off) (plainStatus stCLOSED)) s
  | .chan b =>
    b.receivers.foldl (fun t r => t.answerIf r.hid (WaitKind.receives off) (plainStatus stCLOSED))
      (b.senders.foldl (fun t r => t.sendResult off r.hid (plainStatus stCLOSED)) s)

/-- A holding of a latch that has ended names no object any more, so that its REL returns CLOSED (R342, R353). -/
def endHolding (off : Nat) (h : Hart) : Hart := { h with holds := h.holds.map (fun x => if x.rcd = off then { x with obj := 0 } else x) }

/-- The end of a live object (R342). -/
def State.endObject (s : State) (off : Nat) (o : Obj) : State :=
  let s1 := s.closeWaits off o
  ({ s1 with h := endHolding off s1.h, pool := s1.pool.map (endHolding off),
             grdMarks := s1.grdMarks.filter (fun m => m.2 ≠ o.num) }).dropObj off

/-- `ofree` (R342). -/
def execOfree (d a : BitVec 5) (s : State) : Out :=
  s.atRecord (s.xr a) (fun off =>
    match s.obj off with
    | none => s.refuse off none d 2
    | some o =>
      if o.tag ≠ s.h.tid then s.refuse off none d 2
      else if s.named o.tag off o.num then s.refuse off none d 5
      else .next ((s.endObject off o).finishWhen [(combHome off).1] d (plainStatus stOK)))

/-! Swarms -/

/-- A request to a proxy swarm: a frame to the home chip, and a wait for the result that comes back (R340, R349; entry 15). -/
def State.forward (s : State) (o : Obj) (b : Swarm) (k : WaitKind) (d : BitVec 5) (op : Nat) (rank dead : Nat) : Out :=
  .next ((s.askHome o b op s.h.hid rank dead).startWait k d dead)

/-- The word of the last close with a status (R345, R347). -/
def Swarm.lastWord (b : Swarm) (st : Nat) : Word := statusWord b.epi.toNat b.lowabs b.nabs st

/-- A join recorded as pending (R347). -/
def State.pendJoin (s : State) (off : Nat) (o : Obj) (b : Swarm) (rank dead : Nat) : State :=
  s.setBody off o (.swarm { b with joins := b.joins.filter (fun j => j.hid ≠ s.h.hid) ++ [⟨s.h.hid, rank, dead, s.gtb⟩] })

/-- A join that passed its checks (R347): admitted at its receipt by a swarm with no member in good standing, EXPIRED at once under
a past deadline, else pending. -/
def State.join (s : State) (off : Nat) (o : Obj) (b : Swarm) (d : BitVec 5) (rank dead : Nat) : Out :=
  if !b.members.any (fun m => m.good) then
    .next (((s.pendJoin off o b rank dead).startWait (.swjoin off rank) d dead).closeEpisode off)
  else if dead ≤ s.gtb then .next (s.finishAt (.swjoin off rank) d dead (b.lastWord stEXPIRED) none)
  else .next ((s.pendJoin off o b rank dead).startWait (.swjoin off rank) d dead)

/-- `swjoin` (R347). -/
def execSwjoin (d a t : BitVec 5) (r : BitVec 1) (s : State) : Out :=
  s.atRecord (s.xr a) (fun off =>
    let x := (s.xr d).toNat
    let k := some (WaitKind.swjoin off x, s.deadline t r)
    s.atSwarm k d off (fun o b =>
    if b.remote ≠ 0 then s.forward o b (.swjoin off x) d 2 x (s.deadline t r)
    else match o.memberOf s.h.hid with
    | some m => if m.good then s.refuse off k d 7 else s.join off o b d m.rank (s.deadline t r)
    | none =>
      if 1024 ≤ x || b.members.any (fun m => m.rank == x) || b.joins.any (fun j => j.rank == x && j.hid != s.h.hid) then s.refuse off k d 6
      else if 8 ≤ (s.swarmsOf s.h.hid).length then s.refuse off k d 4
      else s.join off o b d x (s.deadline t r)))

/-- `swleave` (R348): through a proxy the home bank's answer is awaited under IWL (R334). -/
def execSwleave (d a : BitVec 5) (s : State) : Out :=
  s.atRecord (s.xr a) (fun off => s.atSwarm none d off (fun o b =>
    if b.remote ≠ 0 then .next ((s.askHome o b 3 s.h.hid 0 s.gtb).stallBegun d 0 (.leaves [(off, s.gtb)]) b.homeParty)
    else if (o.memberOf s.h.hid).isNone then s.refuse off none d 7
    else .next ((s.leaveAt off s.h.hid 0xFFFF).endsAt off none d (plainStatus stOK))))

/-- `swbar` and `step` (R345): a lapsed member receives LAPSED at once. -/
def arrival (flip : Bool) (d a t : BitVec 5) (r : BitVec 1) (s : State) : Out :=
  s.atRecord (s.xr a) (fun off =>
    let dead := s.deadline t r
    let k := some (WaitKind.arrive off flip, dead)
    s.atSwarm k d off (fun o b =>
    if b.remote ≠ 0 then s.forward o b (.arrive off flip) d (if flip then 5 else 4) 0 dead
    else
      match o.memberOf s.h.hid with
      | none => s.refuse off k d 7
      | some m =>
        if !m.good then .next (s.endsAt off k d (b.lastWord stLAPSED))
        else .next ((s.startWait (.arrive off flip) d dead).arriveAt off s.h.hid 0xFFFF dead s.gtb flip)))

def execSwbar (d a t : BitVec 5) (r : BitVec 1) (s : State) : Out := arrival false d a t r s
def execStep (d a t : BitVec 5) (r : BitVec 1) (s : State) : Out := arrival true d a t r s

/-! Latches -/

/-- The holding that a latch taken by the hart in hand gives it (R351). -/
def State.newHolding (s : State) (off : Nat) (o : Obj) (b : Latch) : Holding := ⟨off, o.num, (b.take s.h.hid s.gtb).hold.toNat⟩

/-- A latch taken by the hart in hand at its bank (R352, R354). -/
def State.takeLatch (s : State) (off : Nat) (o : Obj) (b : Latch) : State :=
  (s.clearGuards off o.num).setBody off o (.latch (b.take s.h.hid s.gtb))

/-- `acq` (R352): the hart keeps the holding that it is granted when it receives the result. -/
def execAcq (d a t : BitVec 5) (r : BitVec 1) (s : State) : Out :=
  s.atRecord (s.xr a) (fun off =>
    let dead := s.deadline t r
    let k := some (WaitKind.acq off, dead)
    s.atLatch k d off (fun o b =>
    if b.held && b.holder == s.h.hid then s.refuse off k d 7
    else if 8 ≤ s.h.holds.length then s.refuse off k d 4
    else if !b.held && b.queue.isEmpty then
      .next ((s.takeLatch off o b).finishAt (.acq off) d dead (holdWord (b.hold + 1) stOK) (some (s.newHolding off o b)))
    else if dead ≤ s.gtb then .next (s.endsAt off k d (s.acqExpired b))
    else .next ((s.setBody off o (.latch { b with queue := b.queue ++ [(s.h.hid, dead)] })).startWait (.acq off) d dead)))

/-- The hart in hand drops its holding of a record. -/
def State.dropHolding (s : State) (off : Nat) : State := s.setH (fun h => { h with holds := h.holds.filter (fun x => x.rcd ≠ off) })

/-- A latch released (R353): free, journals and marks discarded, then the oldest queued ACQ granted. -/
def State.releaseLatch (s : State) (off : Nat) (o : Obj) (b : Latch) : State :=
  ((s.clearGuards off o.num).setBody off o (.latch { b with held := false, holder := 0xFFFF })).grantQueued off

/-- `rel` (R353), its rows in order. -/
def execRel (d a : BitVec 5) (s : State) : Out :=
  s.atRecord (s.xr a) (fun off =>
    match s.h.holds.find? (fun x => x.rcd == off), s.latch off with
    | some x, some (o, b) =>
      if o.num ≠ x.obj then .next ((s.dropHolding off).endsAt off none d (plainStatus stCLOSED))
      else if b.hold.toNat ≠ x.num || !b.held then
        .next ((s.dropHolding off).endsAt off none d (statusWord x.num 0xFFF 0 stREVOKED))
      else .next (((s.dropHolding off).releaseLatch off o b).endsAt off none d (statusWord x.num 0xFFF 0 stOK))
    | some _, none => .next ((s.dropHolding off).endsAt off none d (plainStatus stCLOSED))
    | none, some (o, _) => if o.tag = s.h.tid then s.refuse off none d 7 else s.refuse off none d 2
    | none, none => s.refuse off none d 2)

/-- The dies that have a part in a revocation: the latch's home, those of its regions, and those of the marked lines of its pages (R354). -/
def State.guardDies (s : State) (off num : Nat) : List Nat :=
  (combHome off).1 :: (s.naming 1 off).flatMap (fun e => e.2.dies) ++
    (s.grdMarks.filter (fun m => m.2 = num)).map (fun m => dieOfLoc (64 * m.1))

/-- `mend` and `adopt` of the holding that x[xd] names (R354). -/
def revoke (mend : Bool) (d a : BitVec 5) (s : State) : Out :=
  s.atRecord (s.xr a) (fun off => s.atLatch none d off (fun o b =>
    if bits (s.xr d).toNat 32 32 ≠ b.hold.toNat || !b.held || b.holder == s.h.hid then
      .next (s.endsAt off none d (holdWord b.hold stABANDONED))
    else if 8 ≤ s.h.holds.length then s.refuse off none d 4
    else .next ((((if mend then s.mendGuards off o.num else s).takeLatch off o b).setH (fun h => h.keep (s.newHolding off o b))).finishWhen
      (s.guardDies off o.num) d (holdWord (b.hold + 1) stOK))))

def execMend (d a : BitVec 5) (s : State) : Out := revoke true d a s
def execAdopt (d a : BitVec 5) (s : State) : Out := revoke false d a s

/-! Channels -/

/-- A send's request at the channel's bank (R357): served if it can be, EXPIRED at once under a past deadline, else it waits. -/
def State.sendAt (s : State) (off : Nat) (o : Obj) (b : Chan) (r : ChanReq) : State :=
  let s1 := (s.setBody off o (.chan { b with senders := b.senders ++ [r] })).serveAll off
  match s1.chan off with
  | none => s1
  | some (o1, b1) =>
    if s1.gtb < r.dead || !b1.senders.contains r then s1
    else (s1.setBody off o1 (.chan { b1 with senders := b1.senders.erase r })).sendResult off r.hid (plainStatus stEXPIRED)

/-- `send` (R357): the record, then the message under R85 in windows 0, 2 or 3; its poison goes with it. An instruction that first sits in an
implicit wait, for a line of its message, issues its explicit wait, and forms a `rel` deadline, when it runs after that wait (R34; entry 85). -/
def execSend (d a t : BitVec 5) (r : BitVec 1) (s : State) : Out :=
  s.atRecord (s.xr a) (fun off => s.atChan (some (.send off (s.xr d), s.deadline t r)) d off (fun o b =>
    let p := s.xr d
    if window p = 1 then .next (s.trap cSPACE p)
    else State.atPieces (s.accessRun s.h.actor .load p (b.sz / 64)) (fun s1 pls =>
      match s1.readPieces s1.h.actor pls with
      | (s2, bs, _) =>
        let dead := s2.deadline t r
        .next ((s2.startWait (.send off p) d dead).sendAt off o b
          { hid := s2.h.hid, dead := dead, data := bs, bad := s2.piecesBad pls 0, dst := [] }))))

/-- A receive's request at the channel's bank (R358): EXPIRED at once under a past deadline, unless a message is there that only its
destination's lines hold up. -/
def State.recvAt (s : State) (off : Nat) (o : Obj) (b : Chan) (r : ChanReq) : State :=
  let s1 := (s.setBody off o (.chan { b with receivers := b.receivers ++ [r] })).serveAll off
  match s1.chan off with
  | none => s1
  | some (o1, b1) =>
    if s1.gtb < r.dead || !b1.receivers.contains r || b1.receiver == some r then s1
    else (s1.setBody off o1 (.chan { b1 with receivers := b1.receivers.erase r })).answerIf r.hid (WaitKind.receives off)
      (recvExpired b1)

/-- `recv` (R358): the destination under R85 as a store, then the wait for a message. -/
def execRecv (d a t : BitVec 5) (r : BitVec 1) (s : State) : Out :=
  s.atRecord (s.xr a) (fun off => s.atChan (some (.recv off (s.xr d), s.deadline t r)) d off (fun o b =>
    State.atPieces (s.accessRun s.h.actor .store (s.xr d) (b.sz / 64)) (fun s1 pls =>
      let dead := s1.deadline t r
      .next ((s1.startWait (.recv off (s1.xr d)) d dead).recvAt off o b
        { hid := s1.h.hid, dead := dead, data := [], bad := [], dst := pls }))))

/-- `nap` (R359): OK with every other bit 0. -/
def execNap (d t : BitVec 5) (r : BitVec 1) (s : State) : Out :=
  if s.deadline t r ≤ s.gtb then .next (s.finishWait d 0) else .next (s.startWait .nap d (s.deadline t r))

end Sys2Proof.Machine
end

