-- ==== Sys2Proof/Machine/Creg.lean ====
section
/-! DEFINITION. The region instructions (major 0x19; R102, R103, R105-R108). -/

namespace Sys2Proof.Machine

/-- The region that a descriptor's 64 bytes describe (R102). -/
def regionOfBytes (tag : Nat) (bs : List Byte) : Region :=
  let d0 := dword bs 0
  let d3 := dword bs 3
  { tag := tag, disc := bits d0 60 4, ty := bits d0 56 4, rule := bits d0 52 4, qent := bits d0 48 4, base := bits d0 0 28,
    size := bits (dword bs 1) 0 28, obj := word (dword bs 2), jsize := bits d3 32 5, ownk := bits d3 16 2, own := bits d3 0 16,
    pln := [], flip := [], flipEpi := none, flipBanks := [], flipAbs := 0, journal := [], marks := [] }

/-- Every reserved bit of a descriptor is 0 (R102). -/
def descriptorClean (bs : List Byte) : Bool :=
  bits (dword bs 0) 28 20 == 0 && bits (dword bs 1) 28 36 == 0 && bits (dword bs 3) 37 27 == 0 && bits (dword bs 3) 18 14 == 0 &&
    zeroFrom bs 4

/-- The conditions of R103, other than overlap and the record that OBJ names. -/
def Region.valid (r : Region) : Bool :=
  decide (r.disc < 6) && decide (r.ty < 8) && decide (r.rule < 4) && decide (r.qent < 8) && (r.ty == 6 || r.qent == 0) &&
    decide (r.base % 128 = 0) && decide (r.size % 128 = 0) && decide (128 ≤ r.size) && decide (r.base + r.footprint ≤ 2 ^ 28) &&
    ((r.disc == 2) == (r.rule != 0)) && (r.rule != 2 || r.ty < 4 || r.ty == 6) &&
    (r.disc != 2 || (decide (r.base % 32768 = 0) && decide (r.size % 32768 = 0) &&
      decide (r.base / 2 ^ 25 = (r.base + r.footprint - 1) / 2 ^ 25))) &&
    (r.disc == 1 || r.jsize == 0) && decide (r.jsize ≤ 16) && (r.disc == 1 || r.disc == 2 || r.obj == 0) &&
    (if r.disc = 0 then decide (r.ownk < 2) else r.ownk == 0 && r.own == 0)

/-- Two regions overlap. -/
def Region.overlaps (a b : Region) : Bool := a.base < b.base + b.footprint && b.base < a.base + a.footprint

/-- The footprint of a removed region whose `creg.free` has not completed, for its tenant (R411). -/
def Hart.freeing (tag : Nat) (h : Hart) : Nat :=
  match h.begun with
  | some ⟨_, _, .freed t n⟩ => if t = tag then n else 0
  | _ => 0

/-- The footprints that count against a tenant's quota (R411): of its regions, and of those whose `creg.free` has not completed. -/
def State.combUse (s : State) (tag : Nat) : Nat :=
  (s.regions.map (fun e =>
    match e.2 with
    | some r => if r.tag = tag then r.footprint else 0
    | none => 0)).sum + (s.harts.map (Hart.freeing tag)).sum

/-- OBJ names what the discipline requires (R103). -/
def State.objOk (s : State) (r : Region) : Bool :=
  if r.disc = 2 then s.isSwarm r.tag r.obj.toNat else if r.disc = 1 then s.isLatch r.tag r.obj.toNat else true

/-- The lowest free region number (R107). -/
def State.freeRegion (s : State) : Option Nat := (List.range 4096).find? (fun n => (s.region n).isNone)

/-- The code of `creg.new` (R106), tested in ascending order; the number when none applies. -/
def State.regionCode (s : State) (bs : List Byte) (r : Region) : Except Nat Nat :=
  if !(descriptorClean bs && r.valid) then .error 1
  else if s.regions.any (fun e => (e.2.map (fun q => q.overlaps r)) = some true) then .error 2
  else if (s.tenant r.tag).combq * 128 < s.combUse r.tag + r.footprint then .error 3
  else if !s.objOk r then .error 4
  else
    match s.freeRegion with
    | some n => .ok n
    | none => .error 5

/-- A refusal of CREG (R106). -/
def cregRefusal (code : Nat) : Word := word (2 ^ 63 + code)

/-- The record of the swarm that a PLN region names shows how many regions name it (R343). -/
def State.refreshObj (s : State) (r : Region) : State :=
  match s.objPtr r.obj with
  | some (off, o) => if r.disc = 2 then s.setObj off o else s
  | none => s

/-- `creg.new` (R107). -/
def execCregNew (d a : BitVec 5) (s : State) : Out :=
  State.atPlace (s.access s.h.actor .load (s.xr a) 64 64) (fun s1 pl =>
    match s1.readAt s1.h.actor pl 64 with
    | (s2, v, bad) =>
      if bad then .next (s2.trap cSPOISON (s2.xr a))
      else
        let bs := leBytes 64 v
        let r := regionOfBytes s2.h.tid bs
        match s2.regionCode bs r with
        | .error c => .next (s2.retireX d (cregRefusal c))
        | .ok n => .next (((s2.setRegion n (some r)).refreshObj r).retireX d (word n)))

/-- A location lies in a region's footprint. -/
def Region.holds (r : Region) (loc : Nat) : Bool := isComb loc && r.covers (loc - 2 ^ 52)

/-- A line of a command in a region that is removed: the engine's write of it fails with PROT, FCODE 3, from now on (R101, R108). -/
def DLine.dropRegion (n : Nat) (d : DLine) : DLine := if d.reg = some n then { d with code := 3 } else d

/-- The lines of a command after the removal of a region. -/
def Cmd.dropRegion (n : Nat) (c : Cmd) : Cmd :=
  { c with rcdLine := c.rcdLine.dropRegion n, lines := c.lines.map (DLine.dropRegion n) }

/-- The effect of `creg.free` on the banks (R108): the entry is removed, and every word of the footprint is zero and unpoisoned. -/
def State.freeRegionAt (s : State) (n : Nat) (r : Region) : State :=
  let s1 := { s with mem := s.mem.filter (fun e => !r.holds e.1), psn := s.psn.filter (fun e => !r.holds e.1),
                     ecc := s.ecc.filter (fun e => !r.holds e.1),
                     engines := s.engines.map (fun (g : Nat × Engine) => (g.1, { g.2 with queue := g.2.queue.map (Cmd.dropRegion n) })) }
  let s2 := (s1.setRegion n none).refreshObj r
  match s2.objPtr r.obj with
  | some (off, _) => if r.disc = 2 then s2.sendSteps off else s2
  | none => s2

/-- `creg.free` (R108): it retires once the dies of the footprint have answered. -/
def execCregFree (d a : BitVec 5) (s : State) : Out :=
  let n := (s.xr a).toNat
  match s.region n with
  | some r => if r.tag = s.h.tid && n < 4096 then .next ((s.freeRegionAt n r).retireWhen r.dies d 0 (.freed r.tag r.footprint)) else .next (s.retireX d (cregRefusal 6))
  | none => .next (s.retireX d (cregRefusal 6))

/-- `creg.find` (R108). -/
def execCregFind (d a : BitVec 5) (s : State) : Out :=
  match (combOffset (s.xr a)).bind (s.regionOf s.h.tid) with
  | some (n, _) => .next (s.retireX d (word n))
  | none => .next (s.retireX d (cregRefusal 6))

end Sys2Proof.Machine
end

