-- ==== Sys2Proof/Machine/Inflate.lean ====
section
/-! DEFINITION. A raw DEFLATE stream inflated, as RFC 1951 defines it (R144). The stream is one number, its first bit lowest;
`none` says that it is malformed. -/

namespace Sys2Proof.Machine

/-- The stream: its bits, its length in bits, and the position of the next bit. -/
structure Stream where
  data : Nat
  len : Nat
  pos : Nat
deriving DecidableEq, Repr

/-- The next `n` bits, low bit first. -/
def Stream.take (s : Stream) (n : Nat) : Option (Nat × Stream) :=
  if s.len < s.pos + n then none else some (bits s.data s.pos n, { s with pos := s.pos + n })

/-- A Huffman code: the code lengths of its symbols in order. -/
abbrev Lens := List Nat

/-- How many symbols have a code length. -/
def Lens.count (l : Lens) (n : Nat) : Nat := (l.filter (fun x => x == n)).length

/-- The first code of a length (RFC 1951, 3.2.2). -/
def Lens.first (l : Lens) : Nat → Nat
  | 0 => 0
  | n + 1 => 2 * (Lens.first l n + (if n = 0 then 0 else l.count n))

/-- The symbol of a place among those of a length. -/
def Lens.symbol (l : Lens) (n place : Nat) : Option Nat :=
  ((List.range l.length).filter (fun i => l.getD i 0 == n))[place]?

/-- The lengths over-subscribe the code space. -/
def Lens.tooMany (l : Lens) : Bool := 2 ^ 15 < ((l.filter (fun n => n ≠ 0)).map (fun n => 2 ^ (15 - n))).sum

/-- A symbol read bit by bit, the code read so far and its length given. -/
def symbol (l : Lens) : Nat → Nat → Nat → Stream → Option (Nat × Stream)
  | 0, _, _, _ => none
  | fuel + 1, code, n, s =>
    match s.take 1 with
    | none => none
    | some (b, s1) =>
      let c := 2 * code + b
      let k := n + 1
      if l.first k ≤ c && c < l.first k + l.count k then (l.symbol k (c - l.first k)).map (fun v => (v, s1))
      else symbol l fuel c k s1

/-- A symbol read. -/
def Stream.symbol (s : Stream) (l : Lens) : Option (Nat × Stream) := Machine.symbol l 15 0 0 s

/-- The fixed codes (RFC 1951, 3.2.6). -/
def fixedLit : Lens := List.replicate 144 8 ++ List.replicate 112 9 ++ List.replicate 24 7 ++ List.replicate 8 8
def fixedDist : Lens := List.replicate 30 5

/-- Base and extra bits of a length symbol 257-285 (RFC 1951, 3.2.5). -/
def lengthOf (sym : Nat) : Option (Nat × Nat) :=
  if 286 ≤ sym then none
  else if sym = 285 then some (258, 0)
  else if sym < 265 then some (sym - 254, 0)
  else
    let e := (sym - 261) / 4
    some (3 + (4 + (sym - 261) % 4) * 2 ^ e, e)

/-- Base and extra bits of a distance symbol (RFC 1951, 3.2.5). -/
def distOf (sym : Nat) : Option (Nat × Nat) :=
  if 30 ≤ sym then none
  else if sym < 4 then some (sym + 1, 0)
  else
    let e := sym / 2 - 1
    some (1 + (2 + sym % 2) * 2 ^ e, e)

/-- The output, newest byte first, with `n` bytes repeated from a distance. -/
def repeatBack (d : Nat) : Nat → List Byte → List Byte
  | 0, out => out
  | n + 1, out => repeatBack d n (out.getD (d - 1) 0 :: out)

/-- A compressed block's symbols, to the end of the block. -/
def blockData (lit dist : Lens) : Nat → Stream → List Byte → Option (Stream × List Byte)
  | 0, _, _ => none
  | fuel + 1, s, out =>
    match s.symbol lit with
    | none => none
    | some (sym, s1) =>
      if sym < 256 then blockData lit dist fuel s1 (BitVec.ofNat 8 sym :: out)
      else if sym = 256 then some (s1, out)
      else
        match lengthOf sym with
        | none => none
        | some (base, ex) =>
          match s1.take ex with
          | none => none
          | some (x, s2) =>
            match s2.symbol dist with
            | none => none
            | some (ds, s3) =>
              match distOf ds with
              | none => none
              | some (db, de) =>
                match s3.take de with
                | none => none
                | some (y, s4) =>
                  let d := db + y
                  if out.length < d || 32768 < d then none else blockData lit dist fuel s4 (repeatBack d (base + x) out)

/-- A stored block (RFC 1951, 3.2.4). -/
def storedBlock (s : Stream) (out : List Byte) : Option (Stream × List Byte) :=
  match ({ s with pos := (s.pos + 7) / 8 * 8 } : Stream).take 32 with
  | none => none
  | some (x, s1) =>
    let n := bits x 0 16
    if bits x 16 16 ≠ 65535 - n then none
    else (s1.take (8 * n)).map (fun e => (e.2, (leBytes n e.1).reverse ++ out))

/-- The order of the code-length code lengths (RFC 1951, 3.2.7). -/
def clOrder : List Nat := [16, 17, 18, 0, 8, 7, 9, 6, 10, 5, 11, 4, 12, 3, 13, 2, 14, 1, 15]

/-- The code lengths of the literal and distance codes, read until `n` are there. -/
def readLens (cl : Lens) (n : Nat) : Nat → Stream → Lens → Option (Stream × Lens)
  | 0, _, _ => none
  | fuel + 1, s, acc =>
    if n ≤ acc.length then (if acc.length = n then some (s, acc) else none)
    else
      match s.symbol cl with
      | none => none
      | some (sym, s1) =>
        if sym < 16 then readLens cl n fuel s1 (acc ++ [sym])
        else
          let ex := if sym = 16 then 2 else if sym = 17 then 3 else 7
          match s1.take ex with
          | none => none
          | some (x, s2) =>
            if sym = 16 then
              (match acc.getLast? with
               | none => none
               | some v => readLens cl n fuel s2 (acc ++ List.replicate (3 + x) v))
            else readLens cl n fuel s2 (acc ++ List.replicate (x + (if sym = 17 then 3 else 11)) 0)

/-- The code lengths of the code-length code, `n` of them. -/
def readCl : List Nat → Nat → Stream → Option (Stream × Tab Nat)
  | _, 0, s => some (s, [])
  | [], _, s => some (s, [])
  | k :: r, n + 1, s =>
    match s.take 3 with
    | none => none
    | some (x, s1) => (readCl r n s1).map (fun e => (e.1, Tab.set 0 e.2 k x))

/-- A block with dynamic codes (RFC 1951, 3.2.7). -/
def dynamicBlock (s : Stream) (out : List Byte) : Option (Stream × List Byte) :=
  match s.take 14 with
  | none => none
  | some (h, s1) =>
    let nl := 257 + bits h 0 5
    let nd := 1 + bits h 5 5
    match readCl clOrder (4 + bits h 10 4) s1 with
    | none => none
    | some (s2, t) =>
      let cl : Lens := (List.range 19).map (fun k => Tab.get 0 t k)
      if cl.tooMany || 286 < nl then none
      else
        match readLens cl (nl + nd) (nl + nd + 1) s2 [] with
        | none => none
        | some (s3, l) =>
          let lit : Lens := l.take nl
          let dist : Lens := l.drop nl
          if lit.tooMany || dist.tooMany || lit.getD 256 0 == 0 then none else blockData lit dist (s3.len + 1) s3 out

/-- Blocks to the last one; with `dyn`, blocks with dynamic codes alone. -/
def inflateBlocks (dyn : Bool) : Nat → Stream → List Byte → Option (List Byte)
  | 0, _, _ => none
  | fuel + 1, s, out =>
    match s.take 3 with
    | none => none
    | some (h, s1) =>
      let r :=
        match h / 2 with
        | 0 => if dyn then none else storedBlock s1 out
        | 1 => if dyn then none else blockData fixedLit fixedDist (s1.len + 1) s1 out
        | 2 => dynamicBlock s1 out
        | _ => none
      match r with
      | none => none
      | some (s2, out2) => if h % 2 = 1 then some out2 else inflateBlocks dyn fuel s2 out2

/-- The bytes of a stream, every block of it dynamic when that is asked. -/
def inflateAs (dyn : Bool) (src : List Byte) : Option (List Byte) :=
  (inflateBlocks dyn (8 * src.length + 1) { data := leNat src, len := 8 * src.length, pos := 0 } []).map List.reverse

/-- The bytes of a raw DEFLATE stream (R144). -/
def inflate (src : List Byte) : Option (List Byte) := inflateAs false src

/-! Compression -/

/-- A Huffman code of a length, its highest bit first (RFC 1951, 3.1.1). -/
def codeBits (n c : Nat) : List Bool := (List.range n).map (fun i => bit c (n - 1 - i))

/-- A number of a width, its lowest bit first. -/
def lowBits (n x : Nat) : List Bool := (List.range n).map (fun i => bit x i)

/-- The code of a literal or of the end of the block: 8 bits for 0 to 254, 9 for 255 and the end, 256. -/
def plainCode (sym : Nat) : List Bool := if sym < 255 then codeBits 8 sym else codeBits 9 (sym + 255)

/-- The header of one last block with those dynamic codes and no distance code (RFC 1951, 3.2.7): the code lengths 8, 9 and 0 have the
codes 0, 11 and 10. -/
def plainHeader : List Bool :=
  lowBits 3 5 ++ lowBits 5 0 ++ lowBits 5 0 ++ lowBits 4 3 ++ [0, 0, 0, 2, 1, 0, 2].flatMap (lowBits 3) ++
    List.replicate 255 false ++ [true, true, true, true, true, false]

/-- A raw DEFLATE stream of one dynamic block without matches. -/
def plainStream (src : List Byte) : List Byte :=
  let l := plainHeader ++ src.flatMap (fun b => plainCode b.toNat) ++ plainCode 256
  leBytes ((l.length + 7) / 8) (l.foldr (fun b n => b.toNat + 2 * n) 0)

/-- What `ecomp` with OP 0 writes (R144): a raw DEFLATE stream of dynamic blocks that inflates to the input. Which one is free (entry 7):
the part's own choice where that is such a stream, else the one without matches. -/
def deflated (src : List Byte) : List Byte :=
  if inflateAs true (Config.deflate src) = some src then Config.deflate src else plainStream src

end Sys2Proof.Machine
end

