-- ==== Sys2Proof/Machine/Tile.lean ====
section
/-! DEFINITION. The formats of the matrix engine and the stored tiles (R260-R264). A tile is a bit string, bit 0 of byte 0 first. -/

namespace Sys2Proof.Machine

/-- How a format's operands are read (R260, R268). -/
inductive AKindOf where
  | float (f : Fmt)
  | dec (n : Nat)
  | int (signed : Bool)
  | q
deriving DecidableEq, Repr

/-- A format of R260: operand width, row shape K x N, accumulator width, and how it is read. -/
structure AFmt where
  w : Nat
  k : Nat
  n : Nat
  acc : Nat
  kind : AKindOf
deriving DecidableEq, Repr

/-- The table of R260. -/
def aFmt (code : Nat) : AFmt :=
  match code with
  | 0 => ⟨64, 16, 32, 64, .float fp64⟩
  | 1 => ⟨32, 32, 64, 64, .float fp32⟩
  | 2 => ⟨16, 128, 64, 32, .float bf16⟩
  | 3 => ⟨16, 128, 64, 32, .float fp16⟩
  | 4 => ⟨8, 256, 64, 32, .dec 7⟩
  | 5 => ⟨6, 512, 64, 32, .dec 5⟩
  | 6 => ⟨4, 512, 64, 32, .dec 3⟩
  | 7 => ⟨8, 256, 64, 32, .int true⟩
  | 8 => ⟨8, 256, 64, 32, .int false⟩
  | 9 => ⟨4, 512, 64, 32, .int true⟩
  | 10 => ⟨16, 128, 64, 32, .int true⟩
  | _ => ⟨64, 8, 32, 64, .q⟩

/-- The format is one of the decimal-marker ones. -/
def AFmt.isDec (f : AFmt) : Bool :=
  match f.kind with
  | .dec _ => true
  | _ => false

/-- The header of a tile is valid for a format, but for its poison (R261, R263). -/
def headerOk (code data : Nat) : Bool :=
  let layout := bits data 8 8
  code < 12 && bits data 0 8 == code && (layout == 0 || (layout == 1 && 2 ≤ code && code ≤ 10) || (layout == 2 && (aFmt code).isDec)) &&
    (((aFmt code).isDec && layout < 2) || bits data 16 8 == 0) && bits data 24 488 == 0

/-- A weight as it is read: its code, the scale of a d code, its poison, and whether 2:4 sparsity leaves the position out. -/
structure Weight where
  code : Nat
  scale : Int
  bad : Bool
  absent : Bool
deriving DecidableEq, Repr

/-- The bytes of the values of a 2:4 sparse tile, up to the 64-byte boundary at which its metadata starts (R262). -/
def AFmt.sparseBytes (f : AFmt) : Nat := (f.n * f.k / 2 * f.w / 8 + 63) / 64 * 64

/-- Bits of a tile, and whether any is poisoned. -/
def tileBits (data bad lo n : Nat) : Nat × Bool := (bits data lo n, bits bad lo n != 0)

/-- The elements of a described block of a d format (R205). -/
def decCount (w : Nat) : Nat := if w = 8 then 62 else if w = 6 then 82 else 124

/-- The code of a described block's byte 0 for a d format (R205). -/
def decCode (w : Nat) : Nat := if w = 8 then 1 else if w = 6 then 2 else 3

/-- W[k][n] of a tile with a valid header (R262, R263). -/
def weight (f : AFmt) (layout : Nat) (sig : Int) (data bad k n : Nat) : Weight :=
  let i := n * f.k + k
  match layout with
  | 0 =>
    let x := tileBits data bad (512 + i * f.w) f.w
    ⟨x.1, sig, x.2, false⟩
  | 1 =>
    let m := tileBits data bad (512 + 8 * f.sparseBytes + 4 * (i / 4)) 4
    let p0 := bits m.1 0 2
    let p1 := bits m.1 2 2
    let kept := fun j => tileBits data bad (512 + (i / 4 * 2 + j) * f.w) f.w
    if m.2 || p1 ≤ p0 then ⟨0, sig, true, false⟩
    else if k % 4 = p0 then ⟨(kept 0).1, sig, (kept 0).2, false⟩
    else if k % 4 = p1 then ⟨(kept 1).1, sig, (kept 1).2, false⟩
    else ⟨0, sig, false, true⟩
  | _ =>
    let c := decCount f.w
    let base := 512 + 512 * (i / c)
    let x := tileBits data bad (base + 16 + i % c * f.w) f.w
    ⟨x.1, sgn (bits data (base + 8) 8) 8, bits data base 8 != decCode f.w || bits bad base 256 != 0 || x.2, false⟩

/-! Packing (R264) -/

/-- The magnitude of a code, as a ratio. -/
def AFmt.magnitude (f : AFmt) (code : Nat) : Nat × Nat :=
  match f.kind with
  | .float g =>
    match g.val code with
    | .nan _ => (Config.nanRank code, 1)
    | .inf _ => (2 ^ 2048, 1)
    | .zero _ => (0, 1)
    | .rat n d => (n.natAbs, d)
  | .dec n =>
    match dval code n 0 with
    | .rat v d => (v.natAbs, d)
    | .nan _ => (Config.nanRank code, 1)
    | _ => (0, 1)
  | .int true => ((sgn code f.w).natAbs, 1)
  | _ => (code, 1)

/-- The ratio a is at least b. -/
def ratGe (a b : Nat × Nat) : Bool := b.1 * a.2 ≤ a.1 * b.2

/-- The position of the largest magnitude among positions, the lower on a tie. -/
def bestOf (f : AFmt) (g : Nat → Nat) (l : List Nat) : Nat :=
  match l with
  | [] => 0
  | p :: r => r.foldl (fun a b => if ratGe (f.magnitude (g a)) (f.magnitude (g b)) then a else b) p

/-- The two kept positions of a group, in ascending order (R264). -/
def keptOf (f : AFmt) (g : Nat → Nat) : Nat × Nat :=
  let a := bestOf f g [0, 1, 2, 3]
  let b := bestOf f g ([0, 1, 2, 3].filter (fun p => p ≠ a))
  (min a b, max a b)

/-- A list of codes packed at a width. -/
def packBits (w : Nat) : List Nat → Nat
  | [] => 0
  | x :: r => x + 2 ^ w * packBits w r

/-- The 2:4 sparse tile of a dense one (R264), or `none` for a source that `ecomp` does not take. -/
def packSparse (src : List Byte) : Option (List Byte) :=
  let data := leNat src
  let code := bits data 0 8
  let f := aFmt code
  if !(2 ≤ code && code ≤ 10 && headerOk code data && bits data 8 8 == 0 && 64 + f.n * f.k * f.w / 8 ≤ src.length) then none
  else
    let groups := (List.range (f.n * f.k / 4)).map (fun gi =>
      let g := fun p => bits data (512 + (4 * gi + p) * f.w) f.w
      let kept := keptOf f g
      ([g kept.1, g kept.2], kept.1 + 4 * kept.2))
    some (leBytes 3 (code + 256 + bits data 16 8 * 65536) ++ List.replicate 61 0
      ++ leBytes f.sparseBytes (packBits f.w (groups.flatMap (fun e => e.1)))
      ++ leBytes (f.n * f.k / 8) (packBits 4 (groups.map (fun e => e.2))))

end Sys2Proof.Machine
end

