-- ==== Sys2Proof/Machine/Engine.lean ====
section
/-! DEFINITION. Engines, leases and tiles (major 0x15; R130-R150). A command's work is performed at its end, in one move, up to what
a lease's end cuts off (entry 18). -/

namespace Sys2Proof.Machine

/-! Engines -/

/-- The kind of an engine (R130): 0 copy, 1 compression, 2 collective. -/
def engineKind (e : Nat) : Nat := if e < 64 then 0 else if e < 80 then 1 else 2

/-- The kind of engine that a command needs. -/
def Cmd.engineKind (c : Cmd) : Nat := if c.kind < 3 then 0 else if c.kind = 3 then 1 else 2

/-- The engines of a kind, in ascending number. -/
def enginesOf (kind : Nat) : List Nat := (List.range 96).filter (fun e => engineKind e == kind)

/-- The leases of a kind that a tenant may hold at once (R410). -/
def Tenant.leaseQuota (t : Tenant) (kind : Nat) : Nat := if kind = 0 then t.cpyq else if kind = 1 then t.cmpq else t.colq

/-- The leases of a kind that a tenant holds. -/
def State.leasesHeld (s : State) (tid kind : Nat) : Nat :=
  ((enginesOf kind).filter (fun e => (s.engine e).leased && (s.engine e).tid == tid)).length

/-- The actor of a command: its issuer, under the lease's tenant, with the holdings that the issuer has now (R130). -/
def State.cmdActor (s : State) (c : Cmd) : Actor :=
  { tid := c.tid, hid := c.hid, core := c.core, mode := c.mode, holds := ((s.hart c.hid).map (fun h => h.holds)).getD [],
    unit := true }

/-- FCODE of a failed check (R137). -/
def fcode (cause : Nat) : Nat := if cause = cPAGE then 2 else if cause = cPROT then 3 else if cause = cDISC then 4 else 1

/-- The physical location that a line translates to, whatever its permissions (R138). -/
def State.lineLoc (s : State) (a : Actor) (p : Word) : Option Nat :=
  match window p with
  | 0 =>
    match (s.translate a p).2 with
    | .ok e size => some (pteAddr e + bits p.toNat 0 56 % 2 ^ size)
    | .trap _ _ => none
  | 2 => some (locScratch (bits p.toNat 40 8) (bits p.toNat 0 20))
  | 3 => some (locComb (bits p.toNat 0 28))
  | _ => none

/-- A line of a destination as its checks leave it at issue (R139). -/
def State.dline (s : State) (a : Actor) (copy : Bool) (p : Word) : State × DLine :=
  match s.access a (.engineWrite copy) p 64 64 with
  | (s1, .ok pl) => (s1, ⟨some pl.loc, pl.reg, pl.guard, 0⟩)
  | (s1, .trap c _) => (s1, ⟨s1.lineLoc a p, none, none, fcode c⟩)
  | (s1, .wait _) => (s1, ⟨s1.lineLoc a p, none, none, 3⟩)

/-- The lines of a destination range. -/
def State.dlines (s : State) (a : Actor) (copy : Bool) (p : Word) : Nat → State × List DLine
  | 0 => (s, [])
  | n + 1 =>
    match s.dline a copy p with
    | (s1, d) =>
      match s1.dlines a copy (p + 64) n with
      | (s2, l) => (s2, d :: l)

/-- The place of a destination line. -/
def DLine.place (d : DLine) : Place := ⟨d.loc.getD 0, d.reg, d.guard⟩

/-! Ends of commands -/

/-- The status codes of R134 beyond those of R335. -/
def stBUSY : Nat := 17
def stFAULT : Nat := 18
def stPOISONED : Nat := 19
def stOVERFLOW : Nat := 20
def stPARTIAL : Nat := 21
def stUNKNOWN : Nat := 22

/-- A command status word (R146). -/
def cmdWord (lines lowabs nabs st : Nat) : Word := statusWord (min lines (2 ^ 32 - 1)) lowabs nabs st

/-- The hart waits for a command. -/
def WaitKind.awaits (e : Nat) (q : BitVec 32) : WaitKind → Bool
  | .ewait f r => f == e && r == q
  | _ => false

/-- The hart waits for a queue slot. -/
def WaitKind.slotWait (e : Nat) : WaitKind → Bool
  | .slot f => f == e
  | _ => false

/-- A ticket (R138). -/
def ticket (e : Nat) (q : BitVec 32) (reason st : Nat) : Word := word (e * 2 ^ 48 + q.toNat * 2 ^ 16 + reason * 2 ^ 8 + st)

/-- A ticket of an issue that failed (R138). -/
def badTicket (reason st : Nat) : Word := ticket 0 0 reason st

/-- The tile transitions at issue (R149). -/
def State.startTile (s : State) (e : Nat) (c : Cmd) : State :=
  if c.kind = 1 then s.setTile c.core (tileOf c.dst) (fun t => { t with st := 1, eng := e })
  else if c.kind = 2 then s.setTile c.core (tileOf c.src) (fun t => { t with st := 3, eng := e })
  else s

/-- What a command writes to one line of its destination: the source pointer of a copy, or the bytes of the line and its poisoned 8-byte
units. -/
structure Piece where
  line : DLine
  dst : Word
  src : Word
  data : List Byte
  bad : List Nat

/-- The pieces of recalled lines first, the others in ascending order (R139, R143). -/
def Cmd.inOrder (c : Cmd) (l : List Piece) : List Piece :=
  let first := fun (p : Piece) => p.line.code == 0 && p.line.loc.any (fun x => c.recalled.contains (x / 64))
  l.filter first ++ l.filter (fun p => !first p)

/-- A command issued (R138, R139): it enters the queue with the engine's next sequence number, and owns its lines. -/
def State.enqueue (s : State) (e : Nat) (c : Cmd) : State :=
  (s.startTile e c).setEngine e (fun g => { g with queue := g.queue ++ [{ c with seq := g.seq }], seq := g.seq + 1 })

/-! The checks of a record -/

/-- The swarm of an `ecoll`, when the hart is a member of it (R145). -/
def State.collSwarm (s : State) (c : Cmd) : Option (Obj × Swarm) :=
  match (combOffset c.aux).bind s.swarm with
  | some (o, w) => if o.tag = c.tid && (w.remote ≠ 0 || (o.memberOf c.hid).isSome) then some (o, w) else none
  | none => none

/-- Reason 1: a reserved field or an invalid value (R137, R144, R145). -/
def State.cmdInvalid (s : State) (c : Cmd) (bs : List Byte) : Bool :=
  let d3 := dword bs 3
  bits d3 52 12 != 0 || bits d3 32 8 != 0 ||
    (if c.kind = 4 then !(c.ty == 0 || c.ty == 2 || c.ty == 4 || c.ty == 5) || 4 < c.op || (s.collSwarm c).isNone
     else c.ty != 0 || dword bs 5 != 0 || (if c.kind = 3 then 2 < c.op else c.op != 0 || c.aux != 0))

/-- A pointer of a record in a window that the record may not name (reason 2). -/
def badWindow (core : Nat) (p : Word) : Bool :=
  !(window p == 0 || window p == 2 || window p == 3) || (window p == 2 && bits p.toNat 40 8 != core)

/-- Reason 2: a length, alignment or window violation. -/
def Cmd.badShape (c : Cmd) : Bool :=
  c.len % 64 != 0 || c.len < 64 || 2 ^ 28 < c.len || c.src.toNat % 64 != 0 || c.dst.toNat % 64 != 0 ||
    badWindow c.core c.src || badWindow c.core c.dst || (c.kind == 3 && c.aux.toNat % 64 != 0)

/-- The length of a command's destination range in bytes. -/
def State.dstLen (s : State) (c : Cmd) : Nat :=
  if c.kind = 3 then c.aux.toNat
  else if c.kind = 4 && c.op = 4 then
    match s.collSwarm c with
    | some (_, w) => c.len * (w.topRank + 1)
    | none => c.len
  else c.len

/-- The physical locations of a range of lines. -/
def State.rangeLocs (s : State) (a : Actor) (p : Word) (n : Nat) : List Nat :=
  (List.range n).filterMap (fun i => s.lineLoc a (p + word (64 * i)))

/-- Reason 3: overlap with the other range, or with the destination of an unfinished command (R138). -/
def State.cmdOverlaps (s : State) (c : Cmd) : Bool :=
  let src := s.rangeLocs (s.cmdActor c) c.src (c.len / 64)
  let dst := c.lines.filterMap (fun d => d.loc)
  let busy := s.engines.flatMap (fun e => e.2.queue.flatMap (fun x => x.lines.filterMap (fun d => d.loc)))
  dst.any (fun x => src.contains x) || (src ++ dst).any (fun x => busy.contains x)

/-- The tile range of a fill or a drain: its pointer, when the command has one. -/
def Cmd.tilePtr (c : Cmd) : Option Word := if c.kind = 1 then some c.dst else if c.kind = 2 then some c.src else none

/-- Reasons 5 and 6: the state and the tag of the tile of a fill or a drain (R138, R143, R150). -/
def State.tileReason (s : State) (c : Cmd) : Nat :=
  match c.tilePtr with
  | none => 0
  | some p =>
    let t := s.tile c.core (tileOf p)
    if window p ≠ 2 || 65536 < bits p.toNat 0 16 + c.len || t.st ≠ (if c.kind = 1 then 0 else 2) then 5
    else if t.tag ≠ c.tid then 6 else 0

/-- The lowest reason that refuses a record (R138), or 0. -/
def State.cmdReason (s : State) (e : Nat) (c : Cmd) (bs : List Byte) : Nat :=
  if s.cmdInvalid c bs then 1
  else if c.badShape then 2
  else if s.cmdOverlaps c then 3
  else if engineKind e ≠ c.engineKind then 4
  else if s.tileReason c ≠ 0 then s.tileReason c
  else if c.rcdLine.code ≠ 0 then 7 else 0

/-- The line of the record and the lines of the destination, as their checks leave them. -/
def State.withLines (s : State) (c : Cmd) (rcd : Word) : State × Cmd :=
  match s.dline (s.cmdActor c) (c.kind < 3) rcd with
  | (s1, dl) =>
    let n := if c.badShape then 0 else s1.dstLen c / 64
    match s1.dlines (s1.cmdActor c) (c.kind < 3) c.dst n with
    | (s2, l) =>
      (s2, { c with rcd := rcd, rcdLine := dl, lines := l, xchip := ((s2.collSwarm c).map (fun x => x.2.xchip || x.2.remote != 0)).getD false })

/-- The home dies of the lines that a command owns. -/
def Cmd.homes (c : Cmd) : List Nat := (c.rcdLine :: c.lines).filterMap (fun d => if d.code = 0 then d.loc.map dieOfLoc else none)

/-- The checks of R138 made again when the command takes its lines after a wait for a slot (entry 66): the lowest reason, or 0. -/
def State.slotReason (s : State) (c : Cmd) : Nat :=
  if c.kind = 4 && (s.collSwarm c).isNone then 1
  else if s.cmdOverlaps c then 3
  else if s.tileReason c ≠ 0 then s.tileReason c
  else if c.rcdLine.code ≠ 0 then 7 else 0

/-- The hart of a command still waits for a slot of the engine. -/
def State.slotAwaited (s : State) (e : Nat) (c : Cmd) : Bool :=
  ((s.hart c.hid).bind (fun h => h.wait)).any (fun w => w.kind.slotWait e && w.ans.isNone)

/-- The tile that a vector word names (R155, R271). -/
def tileNamed (w : IWord) : Option Nat :=
  match opOf w with
  | some .vldT => some (w.extractLsb' 8 4).toNat
  | some .vstT => some (w.extractLsb' 8 4).toNat
  | some .mwld => some (w.extractLsb' 13 4).toNat
  | _ => none

/-- A hart of the core whose vector side has issued a word on a tile that has not finished its accesses (R149). -/
def State.tileUser (s : State) (core n : Nat) : Option Nat :=
  (s.harts.find? (fun h => h.core == core && h.conv.any (fun x => tileNamed x.2 == some n))).map (fun h => h.hid)

/-- The hart whose vector side still uses the tile that a `tdrain` empties (R149). -/
def State.drainUser (s : State) (c : Cmd) : Option Nat := if c.kind = 2 then s.tileUser c.core (tileOf c.src) else none

/-- The explicit wait for a slot has ended with a slot, and the issue waits for the homes of its lines, under IWL from now on (R139): the command
stands in the queue. A hart that is not bound is READY. -/
def Hart.confirming (h : Hart) (time : Nat) (v : Word) (e : Nat) (q : BitVec 32) (party : Word) : Hart :=
  match h.wait with
  | some w =>
    { h with wait := none, readyAt := if h.slot.isSome then h.readyAt else time, iw := some { since := time, party := party, elem := 0 },
             begun := some ⟨w.dst, v, .command e q⟩ }
  | none => h

/-- The explicit wait for a slot has ended, and the `tdrain` waits for the words that issued on its tile meanwhile (R149): it runs again. -/
def Hart.drainAgain (h : Hart) (time : Nat) (party : Word) : Hart :=
  { h with wait := none, readyAt := if h.slot.isSome then h.readyAt else time,
           iw := if h.slot.isSome then some { since := time, party := party, elem := 0 } else none }

/-- The command that waited longest for a slot has one (R138, R139): it is refused, it waits for its tile or for the homes of its lines, or it
takes ownership of its lines and is issued. -/
def State.issueLate (s : State) (e : Nat) (c : Cmd) : State :=
  match s.withLines c c.rcd with
  | (s1, c1) =>
    let q := (s1.engine e).seq
    match s1.slotReason c1, s1.drainUser c1, s1.slowest c1.homes with
    | 0, some h, _ => s1.updHart c.hid (fun k => k.drainAgain s.gtb (partyWord 4 h))
    | 0, none, some x => (s1.enqueue e c1).updHart c.hid (fun k => k.confirming s.gtb (ticket e q 0 stOK) e q (partyWord 1 x))
    | 0, none, none => (s1.enqueue e c1).answerIf c.hid (WaitKind.slotWait e) (ticket e q 0 stOK)
    | n, _, _ => s1.answerIf c.hid (WaitKind.slotWait e) (badTicket n stREFUSED)

/-- The commands that wait for a slot of an engine, taken up while there is one (R138). -/
def State.fillSlots (s : State) (e : Nat) : Nat → State
  | 0 => s
  | n + 1 =>
    match (s.engine e).pend with
    | [] => s
    | c :: rest =>
      if 4 ≤ (s.engine e).queue.length then s
      else
        let s1 := s.setEngine e (fun g => { g with pend := rest })
        (if s1.slotAwaited e c then s1.issueLate e c else s1).fillSlots e n

/-- A command has its final status (R142): it leaves the queue, the status is kept among the last 64, and its waiters receive it. -/
def State.finishCmd (s : State) (e : Nat) (c : Cmd) (w : Word) : State :=
  let st : CmdStat := { seq := c.seq, tid := c.tid, word := w }
  let s1 := s.setEngine e (fun g => { g with queue := g.queue.filter (fun x => x.seq ≠ c.seq), stats := (st :: g.stats).take 64 })
  s1.harts.foldl (fun t h => if h.tid = c.tid then t.answerIf h.hid (WaitKind.awaits e c.seq) w else t) s1

/-- What a command's work has come to. -/
structure Work where
  st : State
  /-- lines written, and whether any was poisoned. -/
  lines : Nat
  bad : Bool
  /-- the failed check: FCODE and FADDR. -/
  fault : Option (Nat × Word)

/-- The line of the record is the engine's to write: it is not in a region that has been removed since the issue (R101). -/
def Cmd.recordStands (c : Cmd) : Bool := c.rcdLine.code == 0

/-- Dwords 6 and 7 of the record, written by the engine (R137, R142); the bank of a removed region turns the write away (R101). -/
def State.writeRecord (s : State) (c : Cmd) (fault : Option (Nat × Word)) (out : Nat) : State :=
  let f := fault.getD (0, 0)
  let pl := c.rcdLine.place
  if c.recordStands then
    s.writeAt (s.cmdActor c) { pl with loc := pl.loc + 48 } (leBytes 8 f.2.toNat ++ leBytes 8 (f.1 * 2 ^ 32 + out % 2 ^ 32)) false
  else s

/-- The end of a command in the order of R142, its work done. A write of the record that is turned away ends it FAULT (R101; entry 18). -/
def Work.finish (r : Work) (e : Nat) (c : Cmd) (out lowabs nabs st : Nat) : State :=
  let s1 := (r.st.count c.tid 8 r.lines).writeRecord c r.fault out
  let s2 := s1.finishCmd e c (cmdWord r.lines lowabs nabs (if c.recordStands then st else stFAULT))
  (s2.endTile e c (st = stOK || st = stPOISONED)).fillSlots e 64

/-- One 64-byte line read by a command: its bytes and its poisoned 8-byte units; without a key every unit is (R78). -/
def State.readLine (s : State) (a : Actor) (pl : Place) : State × List Byte × List Nat :=
  match s.readAt a pl 64 with
  | (s1, v, bad) =>
    let us := s1.piecesBad [pl] 0
    (s1, leBytes 64 v, if bad && us.isEmpty then List.range 8 else us)

/-- A line written by a command, or the check that failed at issue, or that a removed region's bank fails since (R101, R143). A line owned at
issue is not checked again (R104, R139). -/
def Work.putLine (r : Work) (c : Cmd) (d : DLine) (p : Word) (bs : List Byte) (bad : List Nat) : Work :=
  if r.fault.isSome then r
  else if d.code ≠ 0 then { r with fault := some (d.code, p) }
  else
    { r with st := r.st.writePieces (r.st.cmdActor c) [d.place] bs bad, lines := r.lines + 1, bad := r.bad || !bad.isEmpty }

/-- The pieces of an `ecopy`, in ascending order. -/
def copyPieces : List DLine → Word → Word → List Piece
  | [], _, _ => []
  | d :: rest, src, dst => { line := d, dst := dst, src := src, data := [], bad := [] } :: copyPieces rest (src + 64) (dst + 64)

/-- `ecopy` over pieces of its destination (R143). -/
def Work.copy (r : Work) (c : Cmd) : List Piece → Work
  | [] => r
  | p :: rest =>
    match r.st.access (r.st.cmdActor c) .engineRead p.src 64 64 with
    | (s1, .ok pl) =>
      match s1.readLine (s1.cmdActor c) pl with
      | (s2, bs, bad) =>
        let r1 := ({ r with st := s2 }).putLine c p.line p.dst bs bad
        if r1.fault.isSome then r1 else r1.copy c rest
    | (s1, .trap k _) => { r with st := s1, fault := some (fcode k, p.src) }
    | (s1, .wait _) => { r with st := s1, fault := some (3, p.src) }

/-- The source of a command read whole: its bytes and its poisoned 8-byte units, or the failed check. -/
def State.readSource (s : State) (c : Cmd) : Nat → Word → Nat → State × Except (Nat × Word) (List Byte × List Nat)
  | 0, _, _ => (s, .ok ([], []))
  | n + 1, p, i =>
    match s.access (s.cmdActor c) .engineRead p 64 64 with
    | (s1, .ok pl) =>
      match s1.readLine (s1.cmdActor c) pl with
      | (s2, bs, bad) =>
        match s2.readSource c n (p + 64) (i + 8) with
        | (s3, .ok (b2, u2)) => (s3, .ok (bs ++ b2, bad.map (fun u => i + u) ++ u2))
        | r => r
    | (s1, .trap k _) => (s1, .error (fcode k, p))
    | (s1, .wait _) => (s1, .error (3, p))

/-- Bytes zero-filled to a 64-byte line (R144). -/
def padLine (bs : List Byte) : List Byte := bs ++ List.replicate ((64 - bs.length % 64) % 64) 0

/-- A run of bytes over lines of a destination, with the poison of its 8-byte units, in pieces. -/
def runPieces : List DLine → Word → List Byte → List Nat → List Piece
  | [], _, _, _ => []
  | d :: rest, p, bs, bad =>
    if bs.isEmpty then []
    else
      { line := d, dst := p, src := 0, data := bs.take 64, bad := bad.filter (fun u => u < 8) } ::
        runPieces rest (p + 64) (bs.drop 64) ((bad.filter (fun u => 8 ≤ u)).map (fun u => u - 8))

/-- Pieces written. -/
def Work.putPieces (r : Work) (c : Cmd) : List Piece → Work
  | [] => r
  | p :: rest =>
    let r1 := r.putLine c p.line p.dst p.data p.bad
    if r1.fault.isSome then r1 else r1.putPieces c rest

/-- A run of bytes written over lines of a destination, recalled lines first (R139). -/
def Work.putRun (r : Work) (c : Cmd) (l : List DLine) (p : Word) (bs : List Byte) (bad : List Nat) : Work :=
  r.putPieces c (c.inOrder (runPieces l p bs bad))

/-- What `ecomp` makes of its source (R144, R264), or FCODE 5. -/
def compressed (op : Nat) (src : List Byte) : Option (List Byte) :=
  if op = 0 then some (deflated src) else if op = 1 then inflate src else packSparse src

/-- The end of an `ecomp` (R144). A poisoned source poisons every line of the output (entry 18). A FAULT, for a source read that fails or for a
malformed stream, writes no line and leaves OUTLEN 0, and comes before an OVERFLOW: the spec says neither (entry 89). -/
def State.endComp (s : State) (e : Nat) (c : Cmd) : State :=
  match s.readSource c (c.len / 64) c.src 0 with
  | (s1, .error f) => ({ st := s1, lines := 0, bad := false, fault := some f } : Work).finish e c 0 0xFFF 0 stFAULT
  | (s1, .ok (bs, bad)) =>
    match compressed c.op bs with
    | none => ({ st := s1, lines := 0, bad := false, fault := some (5, 0) } : Work).finish e c 0 0xFFF 0 stFAULT
    | some out =>
      let cap := c.aux.toNat
      let long := decide (cap < out.length)
      let o := padLine (out.take cap)
      let r := ({ st := s1, lines := 0, bad := false, fault := none } : Work).putRun c c.lines c.dst o
        (if bad.isEmpty then [] else List.range (o.length / 8))
      if r.fault.isSome then r.finish e c (64 * r.lines) 0xFFF 0 stFAULT
      else r.finish e c (min out.length cap) 0xFFF 0 (if long then stOVERFLOW else if r.bad then stPOISONED else stOK)

/-- The end of an `ecopy` or a `tdrain` (R143). -/
def State.endCopy (s : State) (e : Nat) (c : Cmd) : State :=
  let r := ({ st := s, lines := 0, bad := false, fault := none } : Work).copy c (c.inOrder (copyPieces c.lines c.src c.dst))
  r.finish e c (64 * r.lines) 0xFFF 0 (if r.fault.isSome then stFAULT else if r.bad then stPOISONED else stOK)

/-! Collectives -/

/-- A pairwise tree over values in order, one rounding for each addition (R145). -/
def pairTree (f : Nat → Nat → Nat) : List Nat → List Nat
  | a :: b :: r => f a b :: pairTree f r
  | l => l

/-- Levels of the tree until one value is left. -/
def treeSum (f : Nat → Nat → Nat) : Nat → List Nat → Nat
  | 0, l => l.headD 0
  | n + 1, l => if l.length ≤ 1 then l.headD 0 else treeSum f n (pairTree f l)

/-- The width of an element of a collective in bytes (R102, R137). -/
def collWidth (ty : Nat) : Nat := if ty = 0 || ty = 4 then 4 else 8

/-- The present ranks' values of one element combined (R145). -/
def combine (op ty : Nat) (l : List Nat) : Nat :=
  let w := collWidth ty
  let f := if ty = 4 then fp32 else fp64
  if ty < 4 then
    if op = 0 then l.sum % 2 ^ (8 * w)
    else
      match l with
      | [] => 0
      | x :: r => r.foldl (fun a b => if (sgn b (8 * w) < sgn a (8 * w)) = (op = 1) && a ≠ b then b else a) x
  else if op = 0 then treeSum (fun a b => (f.add 0 a b).1) l.length l
  else
    match l with
    | [] => 0
    | x :: r => r.foldl (fun a b => (f.minmax (op = 2) a b).1) x

/-- Element `i` of a run of bytes. -/
def elemAt (w i : Nat) (bs : List Byte) : Nat := leNat ((bs.drop (w * i)).take w)

/-- The members of a collective in ascending rank. -/
def byRank (l : List CollMember) : List CollMember :=
  ((List.range 1024).filterMap (fun k => l.find? (fun m => m.rank == k)))

/-- The runs that a close sends (R145): the combination, the lowest present rank's data, or the blocks in rank order. -/
def Coll.runs (b : Coll) : List CollRun :=
  let l := byRank b.members
  let w := collWidth b.ty
  if b.op < 3 then
    [{ off := 0, data := (List.range (b.len / w)).flatMap (fun i => leBytes w (combine b.op b.ty (l.map (fun m => elemAt w i m.data)))),
       bad := (List.range (b.len / 8)).filter (fun u => l.any (fun m => m.bad.contains u)) }]
  else if b.op = 3 then (l.take 1).map (fun m => { off := 0, data := m.data, bad := m.bad })
  else l.map (fun m => { off := b.len * m.rank, data := m.data, bad := m.bad })

/-- A collective's result for a member on another chip (R461; entry 15). -/
def CollRes.bytes (r : CollRes) (m : CollMember) : List Byte :=
  ([1, m.hid, m.eng, m.seq.toNat, r.lowabs, r.nabs, r.runs.length].flatMap (leBytes 8)) ++
    r.runs.flatMap (fun x => leBytes 8 x.off ++ leBytes 8 x.bad.length ++ leBytes 8 x.data.length ++ x.bad.flatMap (leBytes 8) ++ x.data)

/-- What a close sends to one member: into its running command, or over the fabric. -/
def State.sendColl (s : State) (tag num : Nat) (r : CollRes) (m : CollMember) : State :=
  if m.chip ≠ 0xFFFF then s.sendLong 7 m.chip tag num (r.bytes m)
  else s.setEngine m.eng (fun g => { g with queue := g.queue.map (fun c => if c.seq = m.seq then { c with res := some r } else c) })

/-- A collective in progress at a record. -/
def State.coll (s : State) (rcd : Nat) : Option Coll := s.colls.find? (fun b => b.rcd == rcd)

/-- The ranks of a swarm that have not contributed (R145). -/
def Coll.absent (b : Coll) (w : Swarm) : List Nat :=
  (w.members.filter (fun m => !b.members.any (fun x => x.rank == m.rank))).map (fun m => m.rank)

/-- Every member in good standing has contributed. -/
def Coll.complete (b : Coll) (w : Swarm) : Bool :=
  w.members.all (fun m => !m.good || b.members.any (fun x => x.rank == m.rank))

/-- The close of a collective at its swarm record's home bank (R145): one absentee set for every member, whose bitmap stands in the
record (R146). A collective whose record has been freed before is dropped, and its members' commands get no result (entry 89). -/
def State.closeColl (s : State) (rcd : Nat) : State :=
  match s.coll rcd with
  | none => s
  | some b =>
    let s1 := { s with colls := s.colls.filter (fun x => x.rcd ≠ rcd) }
    match s1.swarm rcd with
    | none => s1
    | some (o, w) =>
      let gone := b.absent w
      let r : CollRes := { runs := b.runs, lowabs := lowRank gone, nabs := gone.length }
      b.members.foldl (fun t m => t.sendColl o.tag o.num r m)
        (s1.setBody rcd o (.swarm { w with absents := gone.foldl (fun a k => setBit a k true) 0 }))

/-- A contribution received by the home bank (R145): the first fixes OP, TYPE and LEN; `false` refuses one that differs. The least of the CDLs
received closes the collective, and a second contribution of a rank takes the place of the first, whose command gets no result (entry 89). -/
def State.contribute (s : State) (rcd op ty len dead : Nat) (m : CollMember) : State × Bool :=
  match s.coll rcd with
  | none => ({ s with colls := s.colls ++ [{ rcd := rcd, op := op, ty := ty, len := len, dead := dead, members := [m] }] }, true)
  | some b =>
    if b.op = op && b.ty = ty && b.len = len then
      ({ s with colls := s.colls.map (fun x => if x.rcd = rcd then
          { x with dead := min x.dead dead, members := x.members.filter (fun y => y.rank ≠ m.rank) ++ [m] } else x) }, true)
    else (s, false)

/-- A command ends FAULT with nothing written. -/
def State.failCmd (s : State) (e : Nat) (c : Cmd) (f : Nat × Word) : State :=
  ({ st := s, lines := 0, bad := false, fault := some f } : Work).finish e c 0 0xFFF 0 stFAULT

/-- A contribution to a swarm on another chip (R461; entry 15). -/
def contribution (c : Cmd) (e : Nat) (bs : List Byte) (bad : List Nat) : List Byte :=
  ([0, c.hid, c.op, c.ty, c.len, c.cdl, e, c.seq.toNat, bad.length].flatMap (leBytes 8)) ++ bad.flatMap (leBytes 8) ++ bs

/-- The start of an `ecoll` (R145): the source is read and the data goes to the record's home bank. A hart that is no member any more, or a record
that is gone, ends the command FAULT with FCODE 6 (entry 89). -/
def State.startColl (s : State) (e : Nat) (c : Cmd) : State :=
  match s.readSource c (c.len / 64) c.src 0 with
  | (s1, .error f) => s1.failCmd e c f
  | (s1, .ok (bs, bad)) =>
    match (combOffset c.aux).bind (fun off => (s1.swarm off).map (fun x => (off, x))) with
    | none => s1.failCmd e c (6, 0)
    | some (off, (o, w)) =>
      if w.remote ≠ 0 then
        s1.sendLong 7 (bits w.remote.toNat 48 16) o.tag (bits w.remote.toNat 0 16) (contribution c e bs bad)
      else
        match o.memberOf c.hid with
        | none => s1.failCmd e c (6, 0)
        | some m =>
          match s1.contribute off c.op c.ty c.len c.cdl
              { rank := m.rank, chip := 0xFFFF, hid := c.hid, eng := e, seq := c.seq, data := bs, bad := bad } with
          | (s2, true) => s2
          | (s2, false) => s2.failCmd e c (6, 0)

/-- The destination lines of a run of a collective, the lines beyond those of issue checked now. -/
def State.runLines (s : State) (c : Cmd) (x : CollRun) : State × List DLine :=
  let have_ := c.lines.drop (x.off / 64)
  let need := (x.data.length + 63) / 64
  if need ≤ have_.length then (s, have_.take need)
  else
    match s.dlines (s.cmdActor c) false (c.dst + word x.off + word (64 * have_.length)) (need - have_.length) with
    | (s1, l) => (s1, have_ ++ l)

/-- The runs of a collective written. -/
def Work.putRuns (r : Work) (c : Cmd) : List CollRun → Work
  | [] => r
  | x :: rest =>
    match r.st.runLines c x with
    | (s1, l) =>
      let r1 := ({ r with st := s1 }).putRun c l (c.dst + word x.off) x.data x.bad
      if r1.fault.isSome then r1 else r1.putRuns c rest

/-- The end of an `ecoll` whose result is there (R145). -/
def State.endColl (s : State) (e : Nat) (c : Cmd) (x : CollRes) : State :=
  let r := ({ st := s, lines := 0, bad := false, fault := none } : Work).putRuns c x.runs
  r.finish e c (64 * r.lines) x.lowabs x.nabs
    (if r.fault.isSome then stFAULT else if x.nabs ≠ 0 then stPARTIAL else if r.bad then stPOISONED else stOK)

/-! Events of engines -/

/-- The issue of a command has not ended: its hart waits for the homes of its lines (R139). -/
def State.unconfirmed (s : State) (e : Nat) (c : Cmd) : Bool :=
  s.harts.any (fun h => h.begun.any (fun b => b.what == .command e c.seq))

/-- `ENGINE_COMMAND_START` (R143): the engine takes the oldest command of its queue. -/
def execEngineCommandStart (e : Nat) (s : State) : Out :=
  match (s.engine e).queue with
  | [] => .next s
  | c :: _ =>
    if c.running || s.unconfirmed e c then .next s
    else
      let s1 := s.setEngine e (fun g => { g with queue := g.queue.map (fun x => if x.seq = c.seq then { x with running := true } else x) })
      .next (if c.kind = 4 then s1.startColl e c else s1)

/-- `ENGINE_COMMAND_END` (R142): the work of the running command; a collective ends once its close has sent its result. -/
def execEngineCommandEnd (e : Nat) (s : State) : Out :=
  match (s.engine e).queue with
  | [] => .next s
  | c :: _ =>
    if !c.running then .next s
    else
      match c.kind with
      | 3 => .next (s.endComp e c)
      | 4 =>
        match c.res with
        | some r => .next (s.endColl e c r)
        | none => .next s
      | _ => .next (s.endCopy e c)

/-- `COLLECTIVE_CLOSE` (R145): every member in good standing has contributed, or the deadline has passed. -/
def execCollectiveClose (rcd : Nat) (s : State) : Out :=
  match s.coll rcd, s.swarm rcd with
  | some b, some (_, w) => if b.complete w || b.dead ≤ s.gtb then .next (s.closeColl rcd) else .next s
  | some _, none => .next (s.closeColl rcd)
  | none, _ => .next s

/-! Leases -/

/-- An engine can serve a request of a kind (R135): a required die binds copy and compression engines. -/
def canServe (e kind : Nat) (req : Word) : Bool :=
  engineKind e == kind && (kind == 2 || !bit req.toNat 4 || engineDie e == bits req.toNat 0 4)

/-- A tenant is below its quota of leases of a kind (R131). -/
def State.belowQuota (s : State) (tid kind : Nat) : Bool := s.leasesHeld tid kind < (s.tenant tid).leaseQuota kind

/-- The engine that a request is granted now, in the order of R135. -/
def State.pickEngine (s : State) (die kind : Nat) (req : Word) : Option Nat :=
  let l := (enginesOf kind).filter (fun e => !(s.engine e).leased && canServe e kind req)
  let on := fun d => l.find? (fun e => kind != 2 && engineDie e == d)
  if bits req.toNat 0 4 < 8 && (on (bits req.toNat 0 4)).isSome then on (bits req.toNat 0 4)
  else (on die).or l.head?

/-- A lease handle (R135). -/
def handle (ser : BitVec 16) (e st : Nat) : Word := word (ser.toNat * 2 ^ 48 + e * 2 ^ 40 + st)

/-- The word of a request that was not granted: ENG reads 0xFF (R135). -/
def noHandle (st : Nat) : Word := handle 0 0xFF st

/-- A lease granted (R131). -/
def State.grantLease (s : State) (e tid : Nat) : State :=
  s.setEngine e (fun g => { g with leased := true, tid := tid, endAt := s.gtb + (s.tenant tid).leaseLen, ser := g.ser + 1 })

/-- The word of an OK grant. -/
def State.leaseWord (s : State) (e : Nat) : Word := handle (s.engine e).ser e stOK

/-- The request word is well formed (R135). -/
def leaseReqOk (req : Word) : Bool :=
  let d := bits req.toNat 0 4
  bits req.toNat 5 59 == 0 && (d < 8 || (d == 15 && !bit req.toNat 4))

/-- The earliest waiting request that a free engine can serve now (R131), if the order of R135 gives it that engine (entry 50). -/
def State.nextLease (s : State) (e : Nat) : Option LeaseReq :=
  if (s.engine e).leased then none
  else
    match s.leaseQ.find? (fun q => canServe e q.kind q.req && s.belowQuota q.tid q.kind && decide ((s.tenant q.tid).st < 2)) with
    | some q => if s.pickEngine q.die q.kind q.req == some e then some q else none
    | none => none

/-- `elease` of a kind (R131, R135): a free engine that an earlier request waits for goes to that request. -/
def elease (kind : Nat) (d a t : BitVec 5) (r : BitVec 1) (s : State) : Out :=
  let req := s.xr a
  let fin := fun (t1 : State) (v : Word) => t1.finishAt (.elease kind req) d (s.deadline t r) v none
  if !leaseReqOk req then .next (fin s (noHandle stREFUSED))
  else
    match (if s.belowQuota s.h.tid kind then (s.pickEngine s.h.die kind req).filter (fun e => (s.nextLease e).isNone) else none) with
    | some e => let s1 := s.grantLease e s.h.tid; .next (fin s1 (s1.leaseWord e))
    | none =>
      if s.deadline t r ≤ s.gtb then .next (fin s (noHandle stEXPIRED))
      else
        let q : LeaseReq := { hid := s.h.hid, tid := s.h.tid, die := s.h.die, kind := kind, req := req, dead := s.deadline t r }
        .next (({ s with leaseQ := s.leaseQ ++ [q] }).startWait (.elease kind req) d (s.deadline t r))

def execEleaseCopy (d a t : BitVec 5) (r : BitVec 1) (s : State) : Out := elease 0 d a t r s
def execEleaseComp (d a t : BitVec 5) (r : BitVec 1) (s : State) : Out := elease 1 d a t r s
def execEleaseColl (d a t : BitVec 5) (r : BitVec 1) (s : State) : Out := elease 2 d a t r s

/-- The engine of a live lease of a tenant that a handle names (R135). -/
def State.leaseOf (s : State) (tid : Nat) (h : Word) : Option Nat :=
  let e := bits h.toNat 40 8
  if e < 96 && (s.engine e).leased && (s.engine e).tid == tid && (s.engine e).ser.toNat == bits h.toNat 48 16 then some e else none

/-- `elease.renew` (R131, R135). -/
def execEleaseRenew (d a t : BitVec 5) (r : BitVec 1) (s : State) : Out :=
  let _ := (t, r)
  match s.leaseOf s.h.tid (s.xr a) with
  | some e =>
    let s1 := s.setEngine e (fun g => { g with endAt := s.gtb + (s.tenant s.h.tid).leaseLen })
    .next (s1.finishWait d (s1.leaseWord e))
  | none => .next (s.finishWait d (noHandle stREVOKED))

/-- The first of a list of pieces, up to a 64-byte boundary that the spec leaves open (R132; entry 18). -/
def State.prefixOf (s : State) (l : List Piece) : State × List Piece :=
  ({ s with free := s.free + 1 }, l.take ((Config.freeWord s.free).toNat % (l.length + 1)))

/-- The pieces that a running command other than a copy would write: the output of an `ecomp`, or what a collective's close has sent. -/
def State.outPieces (s : State) (c : Cmd) : State × List Piece :=
  if c.kind = 3 then
    match s.readSource c (c.len / 64) c.src 0 with
    | (s1, .ok (bs, bad)) =>
      let o := padLine (((compressed c.op bs).getD []).take c.aux.toNat)
      (s1, runPieces c.lines c.dst o (if bad.isEmpty then [] else List.range (o.length / 8)))
    | (s1, .error _) => (s1, [])
  else
    match c.res with
    | some r => (s, r.runs.flatMap (fun x => runPieces (c.lines.drop (x.off / 64)) (c.dst + word x.off) x.data x.bad))
    | none => (s, [])

/-- The work of a command that is stopped (R132). -/
def State.stopWork (s : State) (c : Cmd) : Work :=
  let start := fun (t : State) => ({ st := t, lines := 0, bad := false, fault := none } : Work)
  if c.kind < 3 then
    match s.prefixOf (c.inOrder (copyPieces c.lines c.src c.dst)) with
    | (s1, l) => (start s1).copy c l
  else
    match s.outPieces c with
    | (s1, l) =>
      match s1.prefixOf (c.inOrder l) with
      | (s2, l2) => (start s2).putPieces c l2

/-- The running command of an ended lease, stopped (R132): REVOKED, dwords 6 and 7 written. At which line it stops is
open, for a compression or a collective command as for a copy: a free prefix of its writes has been performed (entry 18). -/
def State.stopRunning (s : State) (e : Nat) (c : Cmd) : State :=
  let r := s.stopWork c
  ({ r with fault := none }).finish e c (64 * r.lines) 0xFFF 0 stREVOKED

/-- A queued command of an ended lease, discarded (R132): it has written nothing but dwords 6 and 7 of its record (R142). -/
def State.discardCmd (s : State) (e : Nat) (c : Cmd) : State :=
  ((s.writeRecord c none 0).finishCmd e c (cmdWord 0 0xFFF 0 stREVOKED)).endTile e c false

/-- The contributions of an engine withdrawn. Whether a contribution that the home bank has received still counts when its command is
revoked is open: it is withdrawn on this chip, and stands at a peer's bank (R132, R145; entry 67). -/
def withdraw (e : Nat) (b : Coll) : Coll := { b with members := b.members.filter (fun m => !(m.chip == 0xFFFF && m.eng == e)) }

/-- A lease ends (R132). -/
def State.endLease (s : State) (e : Nat) : State :=
  let g := s.engine e
  if !g.leased then s
  else
    let s1 := { s with colls := s.colls.map (withdraw e) }
    let s2 := g.pend.foldl (fun t c => t.answerIf c.hid (WaitKind.slotWait e) (badTicket 0 stREVOKED))
      (s1.setEngine e (fun k => { k with leased := false, pend := [] }))
    g.queue.foldl (fun t c => if c.running then t.stopRunning e c else t.discardCmd e c) s2

/-- `efree` (R136): it retires once the engine's die has answered. -/
def execEfree (d a : BitVec 5) (s : State) : Out :=
  match s.leaseOf s.h.tid (s.xr a) with
  | some e =>
    let t := s.endLease e
    if (s.die (engineDie e)).late = 0 then .next (t.retireX d 0) else .next (t.stallBegun d 0 .stands (partyWord 0 e))
  | none => .next (s.retireX d (word stREVOKED))

/-- The hart waits for a lease. -/
def WaitKind.leases : WaitKind → Bool
  | .elease _ _ => true
  | _ => false

/-- `LEASE_GRANT` (R131). -/
def execLeaseGrant (e : Nat) (s : State) : Out :=
  match s.nextLease e with
  | none => .next s
  | some q =>
    let s1 := ({ s with leaseQ := s.leaseQ.erase q }).grantLease e q.tid
    .next (s1.answerIf q.hid WaitKind.leases (s1.leaseWord e))

/-- `LEASE_EXPIRY` (R132): the end tick has passed. -/
def execLeaseExpiry (e : Nat) (s : State) : Out :=
  if (s.engine e).leased && (s.engine e).endAt ≤ s.gtb then .next (s.endLease e) else .next s

/-- `LEASE_REVOKE` (R132), by system software in mode D. -/
def execLeaseRevoke (e : Nat) (s : State) : Out := .next (s.endLease e)

/-! Issue -/

/-- The fields of a command record (R137) as a command of a kind. -/
def cmdOf (h : Hart) (kind : Nat) (bs : List Byte) (cdl : Nat) : Cmd :=
  let d3 := dword bs 3
  { seq := 0, kind := kind, hid := h.hid, tid := h.tid, mode := h.mode, core := h.core, src := word (dword bs 1),
    dst := word (dword bs 2), ty := bits d3 48 4, op := bits d3 40 8, len := bits d3 0 32, aux := word (dword bs 4), cdl := cdl,
    rcd := 0, rcdLine := ⟨none, none, none, 3⟩, lines := [], running := false, recalled := [], res := none, xchip := false }

/-- A record checked and issued, or its hart waits for a slot (R138); a `tdrain` waits first for the words that issued on its tile (R149). An
issue whose lines' homes do not confirm at once waits for them under IWL (R139). -/
def State.issueCmd (s : State) (e : Nat) (c : Cmd) (bs : List Byte) (d : BitVec 5) (dead : Nat) : Out :=
  match s.cmdReason e c bs with
  | 0 =>
    if let some h := s.drainUser c then .next (s.stall (partyWord 4 h))
    else if (s.engine e).queue.length < 4 && (s.engine e).pend.isEmpty then
      let q := (s.engine e).seq
      match s.slowest c.homes with
      | none => .next ((s.enqueue e c).finishWait d (ticket e q 0 stOK))
      | some x => .next ((s.enqueue e c).stallBegun d (ticket e q 0 stOK) (.command e q) (partyWord 1 x))
    else if dead ≤ s.gtb then .next (s.finishWait d (badTicket 0 stEXPIRED))
    else .next ((s.setEngine e (fun g => { g with pend := g.pend ++ [c] })).startWait (.slot e) d dead)
  | n => .next (s.finishWait d (badTicket n stREFUSED))

/-- An `ecoll` that gathers through a proxy, whose destination range takes the highest rank that the swarm's home bank knows (R139, R145). -/
def State.gatherProxy (s : State) (c : Cmd) : Option (Nat × Obj × Swarm) :=
  if c.kind = 4 && c.op = 4 then
    match s.collSwarm c, combOffset c.aux with
    | some (o, w), some off => if w.remote ≠ 0 then some (off, o, w) else none
    | _, _ => none
  else none

/-- The issue goes on once a home bank on another chip has told the highest rank of its swarm since the instruction began to wait for it; else it
asks the bank, and waits under IWL (R139; entry 15). -/
def State.atTop (s : State) (c : Cmd) (f : State → Out) : Out :=
  match s.gatherProxy c with
  | none => f s
  | some (off, o, w) =>
    match s.h.iw.filter (fun x => x.party == w.homeParty) with
    | some x =>
      if x.since < w.topAt then f s
      else if s.h.fabOut.contains (off, x.since) then .next (s.stall w.homeParty)
      else .next (((s.askHome o w 8 s.h.hid 0 s.gtb).setH (fun h => { h with fabOut := h.fabOut ++ [(off, s.gtb)], iw := none })).stall w.homeParty)
    | none => .next (((s.askHome o w 8 s.h.hid 0 s.gtb).setH (fun h => { h with fabOut := h.fabOut ++ [(off, s.gtb)] })).stall w.homeParty)

/-- The issuing instructions (R137, R138): the record under R85, the handle, the record's checks, the slot. -/
def issue (kind : Nat) (d a t : BitVec 5) (r : BitVec 1) (s : State) : Out :=
  State.atPlace (s.access s.h.actor .load (s.xr a) 64 64) (fun s1 pl =>
    match s1.readAt s1.h.actor pl 64 with
    | (s2, v, bad) =>
      if bad then .next (s2.trap cSPOISON (s2.xr a))
      else
        let bs := leBytes 64 v
        match s2.leaseOf s2.h.tid (word (dword bs 0)) with
        | none => .next (s2.finishWait d (badTicket 0 stREVOKED))
        | some e =>
          let c := cmdOf s2.h kind bs (min (dword bs 5) (s2.gtb + s2.h.maxwait.toNat))
          s2.atTop c (fun s3 =>
            match s3.withLines c (s3.xr a) with
            | (s4, c1) => s4.issueCmd e c1 bs d (s4.deadline t r)))

def execEcopy (d a t : BitVec 5) (r : BitVec 1) (s : State) : Out := issue 0 d a t r s
def execEcopyTfill (d a t : BitVec 5) (r : BitVec 1) (s : State) : Out := issue 1 d a t r s
def execTdrain (d a t : BitVec 5) (r : BitVec 1) (s : State) : Out := issue 2 d a t r s
def execEcomp (d a t : BitVec 5) (r : BitVec 1) (s : State) : Out := issue 3 d a t r s
def execEcoll (d a t : BitVec 5) (r : BitVec 1) (s : State) : Out := issue 4 d a t r s

/-! Status -/

/-- The status word of a ticket for a tenant (R146): BUSY, the final word, or UNKNOWN. -/
def State.cmdStatus (s : State) (tid : Nat) (tk : Word) : Word :=
  let e := bits tk.toNat 48 8
  let q := BitVec.ofNat 32 (bits tk.toNat 16 32)
  if 96 ≤ e || bits tk.toNat 0 8 ≠ 0 || 64 < ((s.engine e).seq - q).toNat then cmdWord 0 0xFFF 0 stUNKNOWN
  else if (s.engine e).queue.any (fun c => c.seq == q && c.tid == tid) then cmdWord 0 0xFFF 0 stBUSY
  else
    match (s.engine e).stats.find? (fun x => x.seq == q && x.tid == tid) with
    | some x => x.word
    | none => cmdWord 0 0xFFF 0 stUNKNOWN

/-- `estat` (R147). -/
def execEstat (d a : BitVec 5) (s : State) : Out := .next (s.retireX d (s.cmdStatus s.h.tid (s.xr a)))

/-- `ewait` (R147). -/
def execEwait (d a t : BitVec 5) (r : BitVec 1) (s : State) : Out :=
  let tk := s.xr a
  let w := s.cmdStatus s.h.tid tk
  let k := WaitKind.ewait (bits tk.toNat 48 8) (BitVec.ofNat 32 (bits tk.toNat 16 32))
  let dead := s.deadline t r
  if bits w.toNat 0 8 = stUNKNOWN then .next (s.finishWait d w)
  else if bits w.toNat 0 8 ≠ stBUSY then .next (s.finishAt k d dead w none)
  else if dead ≤ s.gtb then .next (s.finishAt k d dead (cmdWord 0 0xFFF 0 stEXPIRED) none)
  else .next (s.startWait k d dead)

/-! Tiles -/

/-- The scratchpad pointer of a tile of a core (R155). -/
def tilePointer (core n : Nat) : Word := word (0xE0 * 2 ^ 56 + core * 2 ^ 40 + n * 65536)

/-- A tile instruction: PROT at the instruction for another tenant's tile (R148). -/
def State.atTile (s : State) (n : BitVec 4) (f : Tile → Out) : Out :=
  let t := s.tile s.h.core n.toNat
  if t.tag ≠ s.h.tid then .next (s.trap cPROT (tilePointer s.h.core n.toNat)) else f t

/-- `tstat` (R148). -/
def execTstat (d : BitVec 5) (n : BitVec 4) (s : State) : Out :=
  s.atTile n (fun t => .next (s.retireX d (word (t.tag * 2 ^ 32 + t.eng * 2 ^ 24 + t.st))))

/-- `twait` (R150). -/
def execTwait (d : BitVec 5) (n : BitVec 4) (t : BitVec 5) (r : BitVec 1) (s : State) : Out :=
  s.atTile n (fun x =>
    if !(x.st == 1 || x.st == 3) then .next (s.finishWait d (tileWord x stOK))
    else if s.deadline t r ≤ s.gtb then .next (s.finishWait d (tileWord x stEXPIRED))
    else .next (s.startWait (.twait n.toNat) d (s.deadline t r)))

/-- `tset` (R149): from one state to another, or REFUSED, after every instruction that issued on the tile has finished with it. Its WAITX names
the vector side of the hart that issued that instruction (entry 89). -/
def tset (fr nx : Nat) (d : BitVec 5) (n : BitVec 4) (s : State) : Out :=
  s.atTile n (fun x =>
    if let some h := s.tileUser s.h.core n.toNat then .next (s.stall (partyWord 4 h))
    else if x.st = fr then
      .next ((s.setTile s.h.core n.toNat (fun t => { t with st := nx })).retireX d (tileWord { x with st := nx } stOK))
    else .next (s.retireX d (tileWord x stREFUSED)))

def execTsetReady (d : BitVec 5) (n : BitVec 4) (s : State) : Out := tset 0 2 d n s
def execTsetEmpty (d : BitVec 5) (n : BitVec 4) (s : State) : Out := tset 2 0 d n s

/-! Fences -/

/-- The scope at which a command of a hart is outstanding work (R367): 1 core, 2 die, 3 package, 4 system. -/
def Cmd.scope (c : Cmd) (e die : Nat) : Nat :=
  if c.kind = 1 || c.kind = 2 then 1 else if c.xchip then 4 else if engineDie e = die then 2 else 3

/-- The engine of an outstanding command of the hart in hand, up to a scope. -/
def State.fenceEngine (s : State) (scope : Nat) : Option Nat :=
  (s.engines.find? (fun g => g.2.queue.any (fun c => c.hid == s.h.hid && decide (c.scope g.1 s.h.die ≤ scope)))).map (fun g => g.1)

/-- The field die of a move that the hart in hand commanded and that is in progress (R69, R367). -/
def State.fencePlough (s : State) (scope : Nat) : Option Nat :=
  if scope < 3 then none
  else (List.range 4).find? (fun f => (s.plough f).stat == 1 && (s.plough f).byHart == some s.h.hid)

/-- The die at which a request of the hart to a proxy's home bank is outstanding. -/
def State.deciderOf (s : State) (off : Nat) : Word :=
  match s.swarm off with
  | some (_, b) => b.homeParty
  | none => partyWord 1 (combHome off).1

/-- What a FENCE that releases waits for (R367, R368): at system scope also a fabric operation without an answer. Every access is performed
when its instruction retires, so nothing else is outstanding. -/
def State.fenceParty (s : State) (scope : Nat) : Option Word :=
  match s.fenceEngine scope with
  | some e => some (partyWord 0 e)
  | none =>
    match s.fencePlough scope with
    | some f => some (partyWord 1 (8 + f))
    | none => if 4 ≤ scope then s.h.fabOut.head?.map (fun x => s.deciderOf x.1) else none

/-- `fence` and `fence.rel` (R368). -/
def fenceWait (k : BitVec 3) (s : State) : Out :=
  match s.fenceParty k.toNat with
  | some p => .next (s.stall p)
  | none => .next s.retire0

def execFence (k : BitVec 3) (s : State) : Out := fenceWait k s
def execFenceRel (k : BitVec 3) (s : State) : Out := fenceWait k s

/-- `fence.acq` (R368): every earlier read has returned. -/
def execFenceAcq (k : BitVec 3) (s : State) : Out :=
  let _ := k
  .next s.retire0

end Sys2Proof.Machine
end

