-- ==== Sys2Proof/Machine/Debug.lean ====
section
/-! DEFINITION. Breakpoints, halts and triggers (R438-R440, R445), and `trap`, `tret`, `brk` and `tmark` (major 0x18; R303, R304). -/

namespace Sys2Proof.Machine

/-! Breakpoints -/

/-- DBPCn of a core (R438). -/
def State.dbpc (s : State) (core n : Nat) : Nat := (Tab.get dbpcReset (s.core core).dbpc n).toNat

/-- DBPAn of a core (R438). -/
def State.dbpa (s : State) (core n : Nat) : Word := Tab.get 0 (s.core core).dbpa n

/-- A breakpoint is armed for the hart in hand, of a kind, at an address (R438, R439). -/
def State.bpArmed (s : State) (kind : Nat) (addr : Word) (n : Nat) : Bool :=
  let c := s.dbpc s.h.core n
  bit c 63 && bits c 61 2 == kind && bits c 32 10 == s.h.tid && (bits c 16 16 == 0xFFFF || bits c 16 16 == s.h.hid) &&
    s.dbpa s.h.core n >>> 2 == addr >>> 2

/-- The armed breakpoints of a kind at an address, in ascending number. -/
def State.breakpoints (s : State) (kind : Nat) (addr : Word) : List Nat := (List.range 4).filter (s.bpArmed kind addr)

/-- ACT of a breakpoint: it halts rather than samples. -/
def State.bpHalts (s : State) (n : Nat) : Bool := !bit (s.dbpc s.h.core n) 60

/-- ELEM of a breakpoint. -/
def State.bpElem (s : State) (n : Nat) : Nat := bits (s.dbpc s.h.core n) 0 16

/-- The samples of a list of breakpoints (R439, R442 TYPE 2); VALUE is the element's address or 0. -/
def State.sample (s : State) (pc value : Word) (l : List Nat) : State :=
  (l.filter (fun n => !s.bpHalts n)).foldl (fun t n => t.traceHart t.h 2 n pc value) s

/-- A side of a hart has met a breakpoint at a word, which it passes once when it goes on (R440). -/
def Hart.passes (h : Hart) (vsd : Bool) (x : Nat × Word) : Hart :=
  if vsd then { h with passV := h.passV ++ [x] } else { h with passF := h.passF ++ [x] }

/-- The hart in hand halts at a breakpoint (R440), with a TYPE 8 record (R442). A side stopped at a boundary waits no more. -/
def State.haltAt (s : State) (vsd : Bool) (n cut : Nat) (pc value : Word) : State :=
  { (s.traceHart s.h 8 n pc value).setH (fun h => { h.passes vsd (n, pc) with
      halt := some { vsd := vsd, bp := n, cut := cut, steps := 0 }, viw := if vsd || h.conv.isEmpty then none else h.viw }) with
    did := .nothing }

/-- The breakpoints at the forager's next word (R439, KIND 0): samples are written when the word is first reached; the state after a
halt, or none. A resumed hart passes its breakpoint once (R440). -/
def State.foragerBreak (s : State) : State × Bool :=
  let l := (s.breakpoints 0 s.h.pc).filter (fun n => !s.h.passF.contains (n, s.h.pc))
  if s.h.iw.isSome then (s, false)
  else
    let s1 := s.sample s.h.pc 0 l
    match l.filter s1.bpHalts with
    | n :: _ => (s1.haltAt false n 0 s1.h.pc 0, true)
    | [] => (s1, false)

/-- The hart of a slot. -/
def State.slotHart (s : State) (core slot : Nat) : Option Hart := s.harts.find? (fun h => h.core == core && h.slot == some slot)

/-- A halted hart goes on (R440): a side that stopped at its breakpoint passes it once. -/
def Hart.resumeHalt (h : Hart) : Hart := { h with halt := none }

/-- A halted hart takes one step (R440). -/
def Hart.stepHalt (h : Hart) : Hart := { h with halt := h.halt.map (fun x => { x with steps := 1 }) }

/-- `DEBUG_RESUME` (R440). -/
def execDebugResume (core slot : Nat) (s : State) : Out :=
  match s.slotHart core slot with
  | some h => .next (s.updHart h.hid Hart.resumeHalt)
  | none => .next s

/-- `DEBUG_STEP` (R440). -/
def execDebugStep (core slot : Nat) (s : State) : Out :=
  match s.slotHart core slot with
  | some h => .next (s.updHart h.hid Hart.stepHalt)
  | none => .next s

/-! Triggers -/

/-- The hart is one that a trigger halts (R445). -/
def Hart.haltable (tag : Nat) (h : Hart) : Bool := h.live && h.tid == tag && h.slot.isSome && h.halt.isNone

/-- A hart halted by a trigger: no side hit (R440, R445). -/
def haltBound (tag : Nat) (h : Hart) : Hart :=
  if h.haltable tag then
    { h with halt := some { vsd := false, bp := 4, cut := 0, steps := 0 }, viw := if h.conv.isEmpty then none else h.viw }
  else h

/-- A trigger received by a chip (R445): a TYPE 7 record of the tenant, and the halt of its bound harts, each with its TYPE 8 record, whose
CODE 4 names no breakpoint (R442; entry 65). -/
def State.trigger (s : State) (tag group chip : Nat) (origin : Word) : State :=
  let f := (s.tenant tag).ftrig.toNat
  if bit f 63 && bits f 32 16 == group then
    let s1 := s.trace tag 0 12 7 chip origin (word group)
    if bit f 62 then
      let s2 := (s1.harts.filter (Hart.haltable tag)).foldl (fun t h => t.traceHart h 8 4 h.pc 0) s1
      { s2 with h := haltBound tag s2.h, pool := s2.pool.map (haltBound tag) }
    else s1
  else s

/-- A trigger sent to every fabric peer, and to this chip itself (R445). -/
def State.sendTrigger (s : State) (tag group : Nat) : State :=
  (s.hub.peers.foldl (fun t p => t.sendFrame 9 p.1 tag group (leBytes 8 s.gtb)) s).trigger tag group s.hub.hchip (word s.gtb)

/-! SYS -/

/-- `trap c` (R304): it completes, then raises TRAP at the following word. -/
def execTrap (c : BitVec 12) (s : State) : Out := .next (((s.count s.h.tid 1 1).setH (fun h => { h.sealAll with wd := 0 })).trapAfter cTRAP (c.zeroExtend 64))

/-- `brk c` (R304). -/
def execBrk (c : BitVec 12) (s : State) : Out := .next (s.trap cBRK (c.zeroExtend 64))

/-- The word of a form of SYS (R303). -/
def sysWord (op : Nat) : Word := word (0x18 * 2 ^ 26 + op * 2 ^ 12)

/-- `tret` (R304, R399). -/
def execTret (s : State) : Out :=
  if s.h.mode == .a || s.h.mode.code < (pmMode s.h.tstat).code then .next (s.trap cILLOP (sysWord 1))
  else .next { s with h := s.h.return, did := .retired }

/-- `tmark` (R304, R442 TYPE 1), and the trigger that its code sends (R445). -/
def execTmark (a : BitVec 5) (c : BitVec 12) (s : State) : Out :=
  let s1 := s.traceHart s.h 1 c.toNat s.h.pc (s.xr a)
  let f := (s.tenant s.h.tid).ftrig.toNat
  let s2 := if bit f 63 && bits f 0 12 ≤ c.toNat && c.toNat ≤ bits f 16 12 then s1.sendTrigger s.h.tid (bits f 32 16) else s1
  .next s2.retire0

end Sys2Proof.Machine
end

