-- ==== Sys2Proof/Machine/Vown.lean ====
section
/-! DEFINITION. Ownership of the lanes' vector state (R404), the restore of a saved context and its failures (R407, R408). -/

namespace Sys2Proof.Machine

/-- The lane groups of a bind record's mask. -/
def groupsOf (lgm : Nat) : List Nat := (List.range 8).filter (fun g => bit lgm g)

/-- The lane groups that the hart in hand is bound to. -/
def State.myGroups (s : State) : List Nat :=
  match s.h.slot with
  | some n => groupsOf (s.bind s.h.core n).lgm
  | none => []

/-- The hart owns the vector state of its lanes (R404). -/
def State.ownsLanes (s : State) : Bool := s.myGroups.all (fun g => Tab.get 0 (s.core s.h.core).lane g == s.h.hid + 1)

/-- The register length in bits (R179). -/
def regBits (lanes : Nat) (nrc : BitVec 2) : Nat := 16384 * 8 * lanes / 2 ^ (3 + nrc.toNat)

/-- NR (R181). -/
def nrOf (nrc : BitVec 2) : Nat := 2 ^ (3 + nrc.toNat)

/-- Bits `lo` to `lo + n - 1` of a bit string set. -/
def setOnes (x lo n : Nat) : Nat := setBits x lo n (2 ^ n - 1)

/-- The width of an element by SW (R183). -/
def widthOf (sw : BitVec 3) : Nat :=
  match sw with
  | 0#3 => 8
  | 1#3 => 16
  | 2#3 => 32
  | 3#3 => 64
  | 4#3 => 4
  | _ => 6

/-- A line of a vector register that reads uncorrectable: every element with a bit in it is poisoned, and its pm bit set (R408).
Lines are 512 bits; line `n` lies in register `n / (lines of a register)` (R407), whose elements follow those of the lower registers of its
group (R180); pm has 65,536 bits (R177). -/
def badLine (h : Hart) (n : Nat) : Hart :=
  let len := regBits h.lanes h.nrc
  let per := len / 512
  let w := if h.vx.vtype.vill then 8 else widthOf h.vx.vtype.sw
  let first := n % per * 512 / w
  let last := min ((n % per * 512 + 511) / w) (len / w - 1)
  let reg := n / per
  let base := reg % 2 ^ h.vx.vtype.g.toNat * (len / w)
  { h with vx := { h.vx with vp := Tab.set 0 h.vx.vp reg (setOnes (Tab.get 0 h.vx.vp reg) (first * w) ((last + 1 - first) * w)),
                             m := Tab.set 0 h.vx.m 7 (setOnes (Tab.get 0 h.vx.m 7) (base + first) (last + 1 - first) % 2 ^ 65536) } }

/-- Lines of a saved context below this number hold vector register data; the rest of the vector part lies below `linesVector`. -/
def linesData : Nat := 8192
def linesVector : Nat := 65536

/-- The registers of the scalar context in the order of their lines, eight to a line (entry 75). -/
def Hart.scalarWords (h : Hart) : List Word :=
  (List.range 32).map h.xr ++ [h.pc, h.held.getD 0, word h.mode.code, h.fxf, h.qcfg, h.dscale, h.iwl, h.maxwait, h.rchk.zeroExtend 64, h.tvec,
    h.tcause, h.tval, h.tepc, h.tstat, h.ecut, h.frecp, h.bcnt.zeroExtend 64]

/-- The scalar-side registers of the vector context in the order of their lines, eight to a line (entry 75). -/
def Hart.sideWords (h : Hart) : List Word :=
  (List.range 20).map (fun c => Tab.get 0 h.vx.sc c) ++ (List.range 4).map (fun k => Tab.get 0 h.vx.rngk k) ++
    [h.vx.rngc, word h.vx.vl, h.vpc, word h.cut]

/-- The 64 bytes of a line of a hart's saved context (R407; entry 75): the vector registers, each in consecutive lines, then the masks, the
scalar-side registers and the scalar context. -/
def Hart.contextLine (h : Hart) (n : Nat) : List Byte :=
  let per := regBits h.lanes h.nrc / 512
  if n < linesData then leBytes 64 (bits (Tab.get 0 h.vx.v (n / per)) (512 * (n % per)) 512)
  else if n < linesData + 1024 then
    leBytes 64 (bits (Tab.get 0 h.vx.m ((n - linesData) / 128)) (512 * ((n - linesData) % 128)) 512)
  else if n < linesVector then ((h.sideWords.drop (8 * (n - linesData - 1024))).take 8).flatMap (fun w => leBytes 8 w.toNat)
  else ((h.scalarWords.drop (8 * (n - linesVector))).take 8).flatMap (fun w => leBytes 8 w.toNat)

/-- The integrity tag of a line: KMAC256 over its data, its shadow-store address, the HID and the save counter (R407). -/
def State.lineTag (s : State) (h : Hart) (n : Nat) : Word :=
  Config.kmac256 s.hub.ctxKey (h.contextLine n) (Config.shadowAddr h.hid n) h.hid h.saves

/-- What stands in the shadow store fails a line's checks (R407): the line reads uncorrectable, or its tag is another one. -/
def State.lineFails (s : State) (h : Hart) (e : Finding) : Bool :=
  match e.tag with
  | none => true
  | some t => t != s.lineTag h e.line

/-- The findings of a restore that count, among those of a part of the context: a line's tag is looked at only when it reads without an
uncorrectable error (R407). -/
def State.findings (s : State) (h : Hart) (part : Nat → Bool) : List Finding :=
  let l := s.restoreBad.filter (fun e => e.hid == h.hid && part e.line && s.lineFails h e)
  l.filter (fun e => !(e.tag.isSome && l.any (fun x => x.line == e.line && x.tag.isNone)))

/-- The findings of a part of a hart's context are met once. -/
def State.clearFindings (s : State) (hid : Nat) (part : Nat → Bool) : State :=
  { s with restoreBad := s.restoreBad.filter (fun e => !(e.hid == hid && part e.line)) }

/-- The records of the findings of a restore (R408): KIND 8, the line in DETAIL. -/
def State.restoreRecords (s : State) (h : Hart) (l : List Finding) : State :=
  l.foldl (fun t e => t.mcheck 8 h.die h.tid h.hid h.core 0 e.line) s

/-- A finding loses the whole context: a tag mismatch, or an uncorrectable line outside vector register data (R408). -/
def fatalLine (e : Finding) : Bool := e.tag.isSome || linesData ≤ e.line

/-- The lines of the vector part, and those of the scalar context. -/
def vectorPart (n : Nat) : Bool := n < linesVector
def scalarPart (n : Nat) : Bool := linesVector ≤ n

/-- A VOWN swaps contexts: the lanes hold another hart's, or the hart in hand has one to load; dead state is neither saved nor loaded
(R404, R428). -/
def State.swaps (s : State) : Bool :=
  s.h.vx != VCtx.dead || s.myGroups.any (fun g => Tab.get 0 (s.core s.h.core).lane g ∉ [0, s.h.hid + 1])

/-- A save of a hart's vector context out of its lanes (R404, R407): the save counter advances; dead state is not saved. -/
def countSave (owners : List Nat) (h : Hart) : Hart :=
  if h.live && owners.contains (h.hid + 1) && h.vx != VCtx.dead then { h with saves := h.saves + 1 } else h

/-- The contexts of the owners of some entries of a core's lanes saved, as a VOWN saves one (R404, R407, R414, R420): their harts own no lanes
of the core any more. -/
def State.saveLanes (s : State) (core : Nat) (p : Nat × Nat → Bool) : State :=
  let owners := ((s.core core).lane.filter p).map (fun e => e.2)
  { s.setCore core (fun c => { c with lane := c.lane.filter (fun e => !owners.contains e.2) }) with
    h := countSave owners s.h, pool := s.pool.map (countSave owners) }

/-- The hart's own vector context loaded into its lanes for the word at `pc`: the owner's is saved, and its findings are met (R404, R408).
Dead state is not loaded. `none` when the context is lost and the hart is GONE. -/
def State.vown (s : State) (pc : Word) : Option State :=
  if s.ownsLanes || !s.h.slot.isSome then some s
  else
    let hid := s.h.hid
    let s1 := s.setCore s.h.core (fun c =>
      { c with lane := s.myGroups.foldl (fun t g => Tab.set 0 t g (hid + 1)) (c.lane.filter (fun e => e.2 ≠ hid + 1)) })
    let owners := s.myGroups.map (fun g => Tab.get 0 (s.core s.h.core).lane g)
    let s2 := if s.swaps then
        ({ s1 with pool := s1.pool.map (countSave owners) }.count s.h.tid 11 1).traceHart s.h 4 0 pc 0 else s1
    if s.h.vx = VCtx.dead then some s2
    else
      let found := s2.findings s.h vectorPart
      let s3 := (s2.clearFindings hid vectorPart).restoreRecords s.h found
      if found.any fatalLine then none
      else some (s3.setH (fun h => found.foldl (fun k e => badLine k e.line) h))

/-- The state when a VOWN loses the hart's context: the records are kept, and the hart is GONE (R408). -/
def State.vownLost (s : State) : State :=
  { ((s.clearFindings s.h.hid (fun _ => true)).restoreRecords s.h (s.findings s.h vectorPart)).endHart s.h.hid with did := .nothing }

/-- An action of the word at `pc` that needs the vector state of its lanes (R404). -/
def State.withLanes (s : State) (pc : Word) (f : State → Out) : Out :=
  match s.vown pc with
  | some t => f t
  | none => .next s.vownLost

end Sys2Proof.Machine
end

