-- ==== Sys2Proof/Machine/Queue.lean ====
section
/-! DEFINITION. Feeding the vector side and the life of harts: VCTL and HART (majors 0x12 and 0x13; R278-R287, R305-R312), VCFG
(R182), and the delivery of a vector-side trap (R397, R398). -/

namespace Sys2Proof.Machine

/-- The rechecks that a hart has queued all run and agree (R433); an entry with votes has counted its run before (R432). -/
def State.drainOf (s : State) (h : Hart) : State :=
  let l := (s.core h.core).recheck.filter (fun r => r.hid == h.hid)
  if l.isEmpty then s
  else
    (s.count h.tid 13 (l.filter (fun r => r.votes.isEmpty)).length).setCore h.core
      (fun c => { c with recheck := c.recheck.filter (fun r => r.hid != h.hid) })

/-- The rechecks of every hart of a core end, before a weight slot of it changes: a word that a vote makes issue again finds the slot as it was
(R433). -/
def State.drainCore (s : State) (core : Nat) : State := (s.harts.filter (fun h => h.core == core)).foldl State.drainOf s

/-- The rechecks of the hart in hand all run and agree. -/
def State.drainRechecks (s : State) : State := s.drainOf s.h

/-- A pending vector-side trap taken by the forager: its rechecks have ended, the PC is held, and entry
follows with VS = 1 (R394, R397, R433). -/
def State.takeVectorTrap (s : State) : State :=
  match s.h.stop with
  | none => s
  | some v => (s.drainRechecks.setH (fun h => { h with held := some h.pc, iw := none, wait := none })).takeTrap v true

/-- A vector-side trap waits for the forager, which takes it once: it holds its PC from then on (R397). -/
def Hart.trapWaits (h : Hart) : Bool := h.stop.isSome && h.held.isNone

/-- A word at which a vector-side trap that waits is met in every mode (R398). -/
def State.meetsTrap (s : State) (f : Out) : Out := if s.h.trapWaits then .next s.takeVectorTrap else f

/-- A word at which a vector-side trap that waits is met in modes S and D (R397, R398). -/
def State.meetsTrapSD (s : State) (f : Out) : Out := if s.h.trapWaits && s.h.mode != .a then .next s.takeVectorTrap else f

/-- TVAL of an implicit wait for the hart's own vector side (R334). -/
def Hart.ownVector (h : Hart) : Word := partyWord 4 h.hid

/-- A VCFG, VREL, EXIT or cfgwr of a vector-side register waits for its vector side, and meets that side's trap if one arises (R398). -/
def State.stallVector (s : State) : State :=
  { s with h := { s.h with iw := some { since := waitSince s.gtb s.h.iw s.h.ownVector 1, party := s.h.ownVector, elem := 1 } },
           did := .nothing }

/-- The raw word of an instruction, as TVAL holds it. -/
def rawWord (i : Instr) : Word := ((encode i).getD 0).zeroExtend 64

/-- The entry that VRUN appends (R281). -/
def Hart.entry (h : Hart) (addr : Word) : QEntry :=
  { addr := addr, args := (List.range 8).map (fun i => h.xr (8 + i)), rm := fxfRm h.fxf, fen := fxfFen h.fxf, fxf := h.fxf,
    dscale := h.dscale, qcfg := h.qcfg, rchk := h.rchk, seq := h.bcnt, sld := false }

/-- VRUN retires (R281, R306). -/
def State.queueBlock (s : State) (d : BitVec 5) (addr : Word) : State :=
  let seq := s.h.bcnt
  { s with h := { s.h.setX d.toNat (seq.zeroExtend 64) with
                    queue := s.h.queue ++ [s.h.entry addr], bcnt := seq + 1, pc := s.h.pc + 4, iw := none },
           did := .recorded d.toNat (s.xr d) (some (seq, s.h.pc)) }

/-- `vrun` (R306): its checks in order, then the entry, waiting while the queue is full. -/
def execVrun (d a : BitVec 5) (s : State) : Out :=
  s.meetsTrapSD (
    let p := s.xr a
    if s.h.released then .next (s.trap cILLOP (rawWord (.vrun d a)))
    else if window p ≠ 0 then .next (s.trap cSPACE p)
    else if p.toNat % 64 ≠ 0 then .next (s.trap cALIGN p)
    else if 16 ≤ s.h.queue.length then .next (s.stall s.h.ownVector)
    else .next (s.queueBlock d p))

/-- The oldest reply taken (R307); a completion makes visible what its block left (R181, R243). -/
def Hart.popReply (h : Hart) : Option (Hart × Word) :=
  match h.replies with
  | [] => none
  | (w, sn) :: r => some ({ h with replies := r, seen := sn.getD h.seen }, w)

/-- `rqpop` (R307). -/
def execRqpop (d t : BitVec 5) (r : BitVec 1) (s : State) : Out :=
  s.meetsTrapSD (
    match s.h.popReply with
    | some (h, w) => .next ({ s with h := h }.finishWait d w)
    | none =>
      if s.deadline t r ≤ s.gtb then .next (s.finishWait d 1)
      else .next (s.startWait .rqpop d (s.deadline t r)))

/-- The blocks whose completion has not been pushed: the running one and those queued (R308). -/
def Hart.outstanding (h : Hart) : List (BitVec 16) :=
  (match h.run with
   | some b => [b.seq]
   | none => []) ++ h.queue.map (fun e => e.seq)

/-- The EXPIRED word of `vsync` (R308). -/
def Hart.vsyncExpired (h : Hart) : Word := word ((h.outstanding.headD 0).toNat * 2 ^ 40 + 1)

/-- What a `vsync` that returns OK makes visible: all that the completed blocks left (R181, R243). -/
def Hart.syncSeen (h : Hart) : Hart :=
  { h with seen := h.lastSnap.getD h.seen, replies := h.replies.map (fun e => (e.1, none)), lastSnap := none }

/-- `vsync` (R308). -/
def execVsync (d t : BitVec 5) (r : BitVec 1) (s : State) : Out :=
  s.meetsTrapSD (
    if s.h.outstanding.isEmpty then .next ((s.setH Hart.syncSeen).finishWait d 0)
    else if s.deadline t r ≤ s.gtb then .next (s.finishWait d s.h.vsyncExpired)
    else .next (s.startWait (.vsync (s.h.bcnt - 1)) d (s.deadline t r)))

/-- A forager that waits for its vector side receives what is there (R307, R308). -/
def State.wakeForager (s : State) : State :=
  match s.h.wait with
  | some w =>
    match w.kind with
    | .rqpop =>
      match s.h.popReply with
      | some (h, v) => { s with h := h }.answer s.h.hid v
      | none => s
    | .vsync _ => if s.h.outstanding.isEmpty then (s.setH Hart.syncSeen).answer s.h.hid 0 else s
    | _ => s
  | none => s

/-- All vector state dead, and what the forager sees of it too (R191). -/
def Hart.killVector (h : Hart) : Hart :=
  { h with vx := VCtx.dead, seen := Snap.dead, lastSnap := none, replies := h.replies.map (fun e => (e.1, none)) }

/-- `vrel` (R285, R309): waits for an idle vector side, then gives the lanes up for good. -/
def execVrel (d : BitVec 5) (s : State) : Out :=
  s.meetsTrap (
    if s.h.vectorBusy then .next s.stallVector
    else s.withLanes s.h.pc (fun s1 =>
      let s2 := s1.dropLanes s1.h.core s1.h.hid
      let s3 := match s1.h.slot with
        | some n => s2.setBind s1.h.core n (fun b => { b with lgm := 0 })
        | none => s2
      .next ((s3.setH (fun h => { h.killVector with released := true })).retireX d 0)))

/-- `vcfg` (R182): waits for an idle vector side, then clears the vector state under the new count. -/
def execVcfg (d : BitVec 5) (n : BitVec 2) (s : State) : Out :=
  s.meetsTrap (
    if s.h.released then .next (s.trap cILLOP (rawWord (.vcfg d n)))
    else if s.h.vectorBusy then .next s.stallVector
    else s.withLanes s.h.pc (fun s1 =>
      let clear : Snap → Snap := fun x => { x with vl := 0, vtype := vtypeIllWord }
      .next ((s1.setH (fun h => { h with
        nrc := n, vx := { h.vx with v := [], vp := [], m := [], vl := 0, vtype := VType.ill }, seen := clear h.seen,
        lastSnap := h.lastSnap.map clear, replies := h.replies.map (fun e => (e.1, e.2.map clear)) })).retireX d
          (word (regBits s1.h.lanes n)))))

/-! Creating and ending harts -/

/-- A decoded image record (R278). -/
structure Image where
  entry : Nat
  args : List Nat
  rank : Nat
  prio : Nat
  nrc : Nat
  ln : Nat
  swarm : Nat
  reserved : Bool
deriving DecidableEq, Repr

/-- The image record in 128 bytes (R278). -/
def imageOf (bs : List Byte) : Image :=
  let d9 := leNat ((bs.drop 72).take 8)
  { entry := leNat (bs.take 8), args := (List.range 8).map (fun i => leNat ((bs.drop (8 + 8 * i)).take 8)),
    rank := bits d9 32 10, prio := bits d9 8 3, nrc := bits d9 2 2, ln := bits d9 0 2, swarm := leNat ((bs.drop 80).take 8),
    reserved := bits d9 42 22 != 0 || bits d9 11 21 != 0 || bits d9 4 4 != 0 || (bs.drop 88).any (fun b => b != 0) }

/-- The lanes of an image (R278). -/
def Image.lanes (i : Image) : Nat := 4 * 2 ^ i.ln

/-- An entry of a core's partition registers (R412). -/
def State.pmapEntry (s : State) (core j : Nat) : Nat := bits (Tab.get 0 (s.core core).pmap (j / 4)).toNat (16 * (j % 4)) 16

/-- Fields of a partition entry (R412): valid, tag, lane-group mask. -/
def pmV (e : Nat) : Bool := bit e 0
def pmTag (e : Nat) : Nat := bits e 6 10
def pmMask (e : Nat) : Nat := (2 ^ 2 ^ bits e 4 2 - 1) * 2 ^ bits e 1 3

/-- The partition of a tenant on a core, as a lane-group mask; the device's own harts may use every group. -/
def State.partition (s : State) (core tag : Nat) : Nat :=
  if tag = 0 then 255
  else
    match ((List.range 8).map (s.pmapEntry core)).find? (fun e => pmV e && pmTag e == tag) with
    | some e => pmMask e
    | none => 0

/-- The cores on which a tenant's partition can hold a number of lanes (R274). -/
def State.coresFor (s : State) (tag lanes : Nat) : List Nat :=
  (List.range Config.cores).filter (fun c => lanes ≤ 4 * popcount 8 (s.partition c tag))

/-- The record is valid (R279): its rank is free in the swarm. A pending join that holds the rank, and all that the home bank of a proxy
knows, is found at the enrolment (R280, R340). -/
def State.imageOk (s : State) (tag : Nat) (i : Image) : Bool :=
  !i.reserved && i.entry % 4 == 0 && window (word i.entry) == 0 && !(s.coresFor tag i.lanes).isEmpty &&
    (if i.swarm = 0 then i.rank == 0
     else
       match combOffset (word i.swarm) with
       | some off => (match s.swarm off with
         | some (o, b) => o.tag == tag && (b.remote != 0 || !b.members.any (fun m => m.rank == i.rank))
         | none => false)
       | none => false)

/-- The first hart id from `n` on that no live hart has, and not 0xFFFF (R274). -/
def State.freeHid (s : State) : Nat → Nat → Option Nat
  | 0, _ => none
  | k + 1, n =>
    let x := n % 65536
    if x = 0xFFFF || s.harts.any (fun h => h.hid == x) then s.freeHid k (n + 1) else some x

/-- The id that the next SPAWN is assigned: one that a refusal has given back, else the next in ascending order (R274, R310). -/
def State.assignHid (s : State) : Option Nat :=
  (s.hub.backHids.find? (fun x => !s.harts.any (fun h => h.hid == x))).or (s.freeHid 65536 s.hub.nextHid)

/-- The core that Apiary's placement chooses among those that can hold the hart: which one is not fixed (R274; entry 7). -/
def State.place (s : State) (cores : List Nat) : Nat :=
  match cores with
  | [] => 0
  | [c] => c
  | _ => cores.getD ((Config.freeWord s.free).toNat % cores.length) 0

/-- The hart that an image record makes (R279). -/
def hartOf (hid tag core cls : Nat) (job : Word) (i : Image) (time : Nat) : Hart :=
  { Hart.blank with
    hid := hid, tid := tag, core := core, cls := cls, job := job, lanes := i.lanes, live := true, readyAt := time,
    pc := word i.entry, x := (List.range 8).foldl (fun t k => Tab.set 0 t (8 + k) (word (i.args.getD k 0))) [],
    lp := i.lanes, nrc := BitVec.ofNat 2 i.nrc }

/-- The codes of R310. -/
inductive Refusal310 where
  | invalid
  | rank
  | room
  | noId
deriving DecidableEq, Repr

/-- The code of a refusal (R310). -/
def Refusal310.code : Refusal310 → Nat
  | .invalid => 1
  | .rank => 2
  | .room => 3
  | .noId => 4

/-- The choice of a core and an id for an image, or the first refusal in the order 1, 4, 3, 2 (R310). -/
def State.admitImage (s : State) (tag : Nat) (i : Image) : Except Refusal310 (Nat × Nat) :=
  if !s.imageOk tag i then .error .invalid
  else
    let core := s.place (s.coresFor tag i.lanes)
    match s.assignHid with
    | none => .error .noId
    | some hid =>
      if (s.die (dieOfCore core)).shadow < 16384 * i.lanes then .error .room
      else
        match (combOffset (word i.swarm)).bind s.swarm with
        | some (_, b) => if i.swarm ≠ 0 && b.remote = 0 && b.rankTaken i.rank then .error .rank else .ok (hid, core)
        | none => .ok (hid, core)

/-- An id is assigned (R274): the ascent goes on after it, unless a refusal had given it back (R310). -/
def Hub.assigned (b : Hub) (hid : Nat) : Hub :=
  if b.backHids.contains hid then { b with backHids := b.backHids.erase hid, spawned := true }
  else { b with nextHid := (hid + 1) % 65536, spawned := true }

/-- A hart enters the pool, its context in the shadow store of its die (R275, R277). -/
def State.admitHart (s : State) (k : Hart) : State :=
  { (s.setDie k.die (fun d => { d with shadow := d.shadow - k.contextBytes })) with
    pool := s.pool ++ [k], free := s.free + 1, hub := s.hub.assigned k.hid }

/-- A hart enters the pool, enrolled in its swarm (R277, R280). -/
def State.addHart (s : State) (k : Hart) (i : Image) : State :=
  let s1 := s.admitHart k
  if i.swarm = 0 then s1
  else
    match combOffset (word i.swarm) with
    | some off => s1.enrol off i.rank k.hid
    | none => s1

/-- The bytes of the ENTRY page of a hart, as they stand now (R460; entry 87). -/
def State.entryPage (s : State) (k : Hart) : List Byte :=
  match (s.translate k.actor k.pc).2 with
  | .ok e size => s.bytesFor k.tid ((pteAddr e + bits k.pc.toNat 0 56 % 2 ^ size) / 65536 * 65536) 65536
  | .trap _ _ => []

/-- The job of a spawned hart: a launcher's next SPAWN starts the job of the message it received; other harts inherit (R460). -/
def State.jobStart (s : State) (k : Hart) (fresh : Bool) : State :=
  if fresh then
    { s with jobs := s.jobs ++ [{ num := k.job, tag := k.tid, hash := Config.shake256 (s.entryPage k), first := s.gtb, last := 0, alive := 1,
                                  posted := false }] }
  else
    { s with jobs := s.jobs.map (fun j => if j.num = k.job && j.tag = k.tid && !j.posted then { j with alive := j.alive + 1 } else j) }

/-- The proxy swarm that an image names, if it does: its bank lies on another chip (R340). -/
def State.proxySwarm (s : State) (i : Image) : Option (Obj × Swarm) :=
  match (combOffset (word i.swarm)).bind s.swarm with
  | some (o, b) => if i.swarm ≠ 0 && b.remote ≠ 0 then some (o, b) else none
  | none => none

/-- The hart that SPAWN makes of a record that it admits (R279). -/
def State.spawned (s : State) (i : Image) (hid core : Nat) : Hart :=
  { hartOf hid s.h.tid core (min i.prio s.h.cls) (s.h.nextJob.getD s.h.job) i s.gtb with
    iwl := s.h.iwl, maxwait := s.h.maxwait, tvec := s.h.tvec, frecp := s.h.frecp }

/-- A hart in CREATED whose enrolment the home bank of a proxy is asked for, until a tick (R280, R311). -/
def State.createHart (s : State) (k : Hart) (i : Image) (o : Obj) (b : Swarm) (limit : Nat) : State :=
  (s.askHome o b 6 k.hid i.rank limit).admitHart { k with created := true }

/-- The home dies that the enrolment of an image waits for: that of its swarm's record, on this package. -/
def Image.homes (i : Image) : List Nat := if i.swarm = 0 then [] else ((combOffset (word i.swarm)).map (fun off => (combHome off).1)).toList

/-- A refused SPAWN (R310): one that the enrolment refuses has asked the home bank, and waits for its die (R311). -/
def State.spawnRefused (s : State) (d : BitVec 5) (i : Image) (e : Refusal310) : State :=
  s.retireWhen (if e = .rank then i.homes else []) d (word (2 ^ 63 + e.code)) .stands

/-- SPAWN of a read image record (R279, R280, R310). It completes once the home bank of its swarm has answered: until then it waits under IWL,
and its hart stays in CREATED (R311). Harts are spawned in PHASE 7 alone (R450): in another phase no hart id is given (entry 88). -/
def State.spawn (s : State) (d : BitVec 5) (i : Image) : State :=
  match (if s.hub.phase = 7 then s.admitImage s.h.tid i else .error .noId) with
  | .error e => s.spawnRefused d i e
  | .ok (hid, core) =>
    let k := s.spawned i hid core
    match s.proxySwarm i, s.slowest i.homes with
    | some (o, b), _ =>
      (s.createHart k i o b (s.gtb + s.h.iwl.toNat)).stallBegun d (word hid) (.child hid (bits i.swarm 0 28)) (b.homeParty)
    | none, some x => (s.addHart { k with created := true } i).stallBegun d (word hid) (.child hid (bits i.swarm 0 28)) (partyWord 1 x)
    | none, none =>
      (((s.addHart k i).jobStart k s.h.nextJob.isSome).setH (fun h => { h with nextJob := none })).retireX d (word hid)

/-- The hart waits for the enrolment of a hart that its SPAWN has created. -/
def Hart.spawning (hid : Nat) (h : Hart) : Bool :=
  h.begun.any (fun b => match b.what with
    | .child x _ => x == hid
    | _ => false)

/-- A SPAWN whose hart the bank has decided on goes on to retire with a result. -/
def Hart.spawnDecided (hid : Nat) (v : Word) (h : Hart) : Hart :=
  if h.spawning hid then { h with begun := h.begun.map (fun b => { b with val := v, what := .stands }), nextJob := none } else h

/-- A hart in CREATED ends without an instruction (R310, R311). -/
def State.dropChild (s : State) (h : Hart) : State :=
  { (s.setDie h.die (fun d => { d with shadow := d.shadow + h.contextBytes })) with pool := s.pool.filter (fun k => k.hid ≠ h.hid) }

/-- The id of a refused SPAWN is the one that the next SPAWN is assigned (R310). -/
def Hub.giveBack (b : Hub) (hid : Nat) : Hub :=
  if b.nextHid = (hid + 1) % 65536 then { b with nextHid := hid } else { b with backHids := b.backHids ++ [hid] }

/-- The home bank has enrolled the rank of a created hart, which becomes READY (R277, R280). -/
def State.childReady (s : State) (h : Hart) : State :=
  let fresh := s.harts.any (fun k => k.spawning h.hid && k.nextJob.isSome)
  let s1 := s.updHart h.hid (fun k => { k with created := false, readyAt := s.gtb })
  let s2 := { s1 with h := s1.h.spawnDecided h.hid (word h.hid), pool := s1.pool.map (Hart.spawnDecided h.hid (word h.hid)) }
  if (s.tenant h.tid).bootChild.any (fun x => x.1 == h.hid) then
    s2.setTenant h.tid (fun t => { t with bootChild := none, bootBusy := false, bootRes := 1 })
  else s2.jobStart h fresh

/-- The home bank refuses the rank of a created hart: code 2 of R310, or RES 2 of R291. -/
def State.childRefused (s : State) (h : Hart) : State :=
  let v := word (2 ^ 63 + Refusal310.rank.code)
  let s1 := (s.dropChild h).setHub (fun b => b.giveBack h.hid)
  let drop : Hart → Hart := fun k => if k.spawning h.hid then { k with begun := k.begun.map (fun b => { b with val := v, what := .stands }) } else k
  let s2 := { s1 with h := drop s1.h, pool := s1.pool.map drop }
  if (s.tenant h.tid).bootChild.any (fun x => x.1 == h.hid) then
    s2.setTenant h.tid (fun t => { t with bootChild := none, bootBusy := false, bootRes := 2 })
  else s2

/-- The cancel that follows an enrolment without an answer (R311): the bank removes the enrolment that it has made, as SWLEAVE does; to a bank on
another chip the request goes out, names the tick of the enrolment, and is outstanding for the spawner like the enrolment itself (R367). The
created hart ends. -/
def State.cancelChild (s : State) (h : Hart) (off by_ : Nat) : State :=
  match s.swarm off with
  | some (o, b) =>
    if b.remote = 0 then (s.leaveAt off h.hid 0xFFFF).dropChild h
    else
      ((s.askHome o b 7 h.hid 0 h.readyAt).dropChild h).updHart by_ (fun k => { k with fabOut := k.fabOut ++ [(off, h.readyAt), (off, s.gtb)] })
  | none => s.dropChild h

/-- The created harts that a home bank on this package has enrolled, and whose die now answers, become READY (R277, R280). -/
def State.readyChildren (s : State) : State :=
  (s.harts.filter (fun k => k.created)).foldl (fun t k =>
    if (t.swarmsOf k.hid).any (fun off => (t.swarm off).any (fun x => x.2.remote == 0) && (t.die (combHome off).1).late == 0) then t.childReady k
    else t) s

/-- A hart that the hart in hand has created taken back while it is in CREATED. -/
def State.takeChild (s : State) (hid off : Nat) : State :=
  match s.hart hid with
  | some k => if k.created then s.cancelChild k off s.h.hid else s
  | none => s

/-- A SPAWN in hand that waits for the enrolment of its hart ends, and takes that hart back (R398). -/
def State.endSpawn (s : State) : State :=
  match s.h.begun with
  | some ⟨_, _, .child c off⟩ => (s.takeChild c off).setH (fun h => { h with begun := none, iw := none })
  | _ => s

/-- A SPAWN that waits for its image record, which a vector-side trap ends in modes S and D (R398). -/
def State.stallSpawn (s : State) (party : Word) : State :=
  { s with h := { s.h with iw := some { since := waitSince s.gtb s.h.iw party 2, party := party, elem := 2 } }, did := .nothing }

/-- `spawn` (R310): the image record under R85, then the creation. -/
def execSpawn (d a : BitVec 5) (s : State) : Out :=
  s.meetsTrapSD (
    match s.accessRun s.h.actor .load (s.xr a) 2 with
    | (s1, .trap c v) => .next (s1.trap c v)
    | (s1, .wait p) => .next (s1.stallSpawn p)
    | (s1, .ok pls) =>
      match s1.readPieces s1.h.actor pls with
      | (s2, bs, bad) =>
        if bad then .next (s2.trap cSPOISON (s2.xr a))
        else .next (s2.spawn d (imageOf bs)))

/-- The hart in hand has left its swarms, and ends (R286). -/
def State.exitNow (s : State) : State := { (s.count s.h.tid 1 1).endHart s.h.hid with did := .nothing }

/-- `exit` (R286, R312): waits for an idle vector side, leaves every swarm at its home bank, waits for the homes that have not answered, and ends
the hart. -/
def execExit (s : State) : Out :=
  s.meetsTrap (
    if s.h.vectorBusy then .next s.stallVector
    else
      let l := (s.swarmsOf s.h.hid).map (fun off => (off, s.gtb))
      let s1 := s.leaveAll s.h.hid
      match l.find? s1.leaveOpen with
      | none => .next s1.exitNow
      | some e => .next (s1.stallBegun 0 0 (.exits l) (s1.leaveParty e)))

/-! An instruction whose effect has begun -/

/-- The instruction in hand of a hart, whose effect has begun, must complete before a pre-emption (R402): a party has not answered yet. -/
def State.begunWaits (s : State) (h : Hart) : Bool :=
  match h.begun with
  | some b =>
    match b.what with
    | .command _ _ => false
    | .child c _ => (s.hart c).any (fun k => k.created)
    | .leaves l => l.any s.leaveOpen
    | .exits l => l.any s.leaveOpen
    | .stands => s.partyLate (h.iw.map (fun w => w.party))
    | .freed _ _ => s.partyLate (h.iw.map (fun w => w.party))
  | none => false

/-- The instruction in hand, whose effect has begun, completes (R402): an EXIT ends its hart. -/
def State.completeBegun (s : State) : State :=
  match s.h.begun with
  | some ⟨_, _, .exits _⟩ => s.exitNow
  | some _ => { s with h := s.h.finishBegun, did := .retired }
  | none => s

/-- The home of a swarm on another chip has answered a hart's leave (R286, R348): an SWLEAVE takes the word as its result. -/
def Hart.leaveAnswered (e : Nat × Nat) (v : Word) (h : Hart) : Hart :=
  match h.begun with
  | some ⟨d, x, .leaves l⟩ => if l.contains e then { h with begun := some ⟨d, v, .leaves (l.erase e)⟩ } else { h with begun := some ⟨d, x, .leaves l⟩ }
  | some ⟨d, x, .exits l⟩ => { h with begun := some ⟨d, x, .exits (l.erase e)⟩ }
  | _ => h

/-- The leaves that a hart's instruction in hand still waits for, left without their answers at its WAITX: those at banks on other chips stay
outstanding (R367). -/
def State.leaveUnanswered (s : State) (l : List (Nat × Nat)) : State :=
  s.setH (fun h => { h with fabOut := h.fabOut ++ l.filter (fun e => (s.swarm e.1).any (fun x => x.2.remote != 0)) })

end Sys2Proof.Machine
end

