-- ==== Sys2Proof/Machine/Operands.lean ====
section
/-! DEFINITION. The operands of vector words: scalar-side codes (R36), vector elements and their poison (R180, R187, R188), masks
(R178), register renaming in rotating loops (R315); how a vector word completes, traps and enters the recheck queue (R397, R401,
R430-R433); and the issue checks that look at registers and types (R186, R210, R230, R250). -/

namespace Sys2Proof.Machine

/-! Scalar side -/

/-- A scalar-side register by its code (R36). -/
def Hart.code (h : Hart) (n : Nat) : Word := Tab.get 0 h.vx.sc n

/-- A scalar-side register written. -/
def Hart.setCode (h : Hart) (n : Nat) (v : Word) : Hart := { h with vx := { h.vx with sc := Tab.set 0 h.vx.sc n v } }

/-! Vector elements -/

/-- The innermost loop of a counter, if it is open (R314). -/
def VCtx.loop (v : VCtx) (c : Nat) : Option Loop := v.loops.find? (fun l => l.ctr == c)

/-- The open rotating loop (R315). -/
def VCtx.rotating (v : VCtx) : Option Loop := v.loops.find? (fun l => l.stages != 0)

/-- The physical register that a name has (R315). -/
def Hart.phys (h : Hart) (k : Nat) : Nat :=
  match h.vx.rotating with
  | none => k
  | some l =>
    let half := nrOf h.nrc / 2
    if k < half then k else half + (k - half + (half - (h.code (16 + l.ctr)).toNat % half)) % half

/-- The elements of a width that a register holds (R179). -/
def Hart.maxvl (h : Hart) (w : Nat) : Nat := regBits h.lanes h.nrc / w

/-- SEW (R183). -/
def Hart.sew (h : Hart) : Nat := widthOf h.vx.vtype.sw

/-- The grouping g (R183). -/
def Hart.grp (h : Hart) : Nat := 2 ^ h.vx.vtype.g.toNat

/-- Element `e` of width `w` of the group that starts at `r` (R180), and its poison bit (R187). -/
def Hart.el (h : Hart) (w r e : Nat) : Nat × Bool :=
  let k := h.phys (r + e / h.maxvl w)
  let lo := e % h.maxvl w * w
  (bits (Tab.get 0 h.vx.v k) lo w, bits (Tab.get 0 h.vx.vp k) lo w != 0)

/-- A bit of a mask register (R177). -/
def Hart.maskBit (h : Hart) (m e : Nat) : Bool := bit (Tab.get 0 h.vx.m m) e

/-- The helper of R178 for e < VL. -/
def Hart.active (h : Hart) (m e : Nat) : Bool := m == 0 || h.maskBit m e

/-- A mask register with one bit written. -/
def Hart.setMaskBit (h : Hart) (m e : Nat) (b : Bool) : Hart :=
  { h with vx := { h.vx with m := Tab.set 0 h.vx.m m (setBit (Tab.get 0 h.vx.m m) e b) } }

/-- Bit `e` of pm set (R188). -/
def Hart.markPm (h : Hart) (e : Nat) : Hart := h.setMaskBit 7 e true

/-- An element and its poison bit written, without the pm update. -/
def Hart.setEl (h : Hart) (w r e v : Nat) (bad : Bool) : Hart :=
  let k := h.phys (r + e / h.maxvl w)
  let lo := e % h.maxvl w * w
  { h with vx := { h.vx with v := Tab.set 0 h.vx.v k (setBits (Tab.get 0 h.vx.v k) lo w v),
                             vp := Tab.set 0 h.vx.vp k (setBits (Tab.get 0 h.vx.vp k) lo w (if bad then 2 ^ w - 1 else 0)) } }

/-- An element written, with the pm update of a poisoned one (R188). -/
def Hart.putEl (h : Hart) (w r e v : Nat) (bad : Bool) : Hart :=
  if bad then (h.setEl w r e v bad).markPm e else h.setEl w r e v bad

/-- The result of one element: bits, poison and the flags it raises. -/
structure ERes where
  val : Nat
  bad : Bool
  fl : Nat
deriving DecidableEq, Repr

/-- A clean result without flags. -/
def ERes.clean (v : Nat) : ERes := { val := v, bad := false, fl := 0 }

/-- Element results written into a group. -/
def Hart.putEls (h : Hart) (w r : Nat) (l : List (Nat × ERes)) : Hart := l.foldl (fun k e => k.putEl w r e.1 e.2.val e.2.bad) h

/-- Mask results written, explicit bits first and then the pm updates of poisoned ones (R188). -/
def Hart.putMask (h : Hart) (md : Nat) (l : List (Nat × ERes)) : Hart :=
  (l.filter (fun e => e.2.bad)).foldl (fun k e => k.markPm e.1) (l.foldl (fun k e => k.setMaskBit md e.1 (e.2.val != 0)) h)

/-- The elements below VL that are active under a mask field, in ascending order (R178). -/
def Hart.actives (h : Hart) (m : Nat) : List Nat := (List.range h.vx.vl).filter (h.active m)

/-- The result of an element after its vote (R431): the majority's, or that of the first run, poisoned. `pick` is the part of a pair (R257). -/
def Voted.result (pick : RunRes → Nat) (v : Voted) (x : ERes) : ERes :=
  let y := match v.res with
    | some r => { val := pick r, bad := r.psn, fl := r.flags }
    | none => x
  if v.failed then { y with bad := true } else y

/-- One part of the results of a word after the votes on its elements (R257, R431). -/
def Hart.votedBy (h : Hart) (pick : RunRes → Nat) (l : List (Nat × ERes)) : List (Nat × ERes) :=
  l.map (fun e => (e.1, h.votes.foldl (fun x v => if v.elem = e.1 then v.result pick x else x) e.2))

/-- The results of a word after the votes on its elements (R431). -/
def Hart.voted (h : Hart) (l : List (Nat × ERes)) : List (Nat × ERes) := h.votedBy RunRes.bits l

/-- The results of a function of the active elements. -/
def Hart.results (h : Hart) (m : Nat) (f : Nat → ERes) : List (Nat × ERes) := (h.actives m).map (fun e => (e, f e))

/-- The flags of unpoisoned results (R197). -/
def flagsOf (l : List (Nat × ERes)) : Nat := flAll (l.map (fun e => if e.2.bad then 0 else e.2.fl))

/-! Completion and traps of a vector word -/

/-- The address of the word in hand. -/
def Hart.vaddr (h : Hart) : Word :=
  match h.conv with
  | (a, _) :: _ => a
  | [] => h.vpc

/-- The word in hand. -/
def Hart.vword (h : Hart) : IWord :=
  match h.conv with
  | (_, w) :: _ => w
  | [] => 0

/-- The vector side stops at a word with a trap (R397, R401): the later words of its convoy are unwound. -/
def Hart.stopAt (h : Hart) (v : VStop) (cut : Nat) : Hart :=
  { h with stop := some v, ecut := word cut, vpc := v.tepc, conv := [], cut := cut, owed := false, app := none, viw := none, passV := [],
           again := h.again || !h.conv.isEmpty || v.tepc != h.vpc }

/-- A wait for what the hart's own vector side delivers (R307, R308). -/
def WaitKind.ofVector : WaitKind → Bool
  | .rqpop => true
  | .vsync _ => true
  | _ => false

/-- The forager's word in hand meets a trap of the vector side (R398): a VCFG, VREL, EXIT or cfgwr of a vector-side register that waits for
that side in every mode, and any VRUN, RQPOP or VSYNC that waits for it, or SPAWN that waits for its record, in modes S and D. Its wait ends. -/
def Hart.waitCut (h : Hart) : Hart :=
  let strict := h.mode != .a
  { h with iw := h.iw.filter (fun w => !((w.party == h.ownVector && (strict || w.elem == 1)) || (strict && w.elem == 2))),
           wait := h.wait.filter (fun w => !(strict && w.kind.ofVector)) }

/-- A vector-side trap arises, once the hart's queued rechecks have ended (R397, R401, R433): the block's flags so far are ORed into FXF, and
the forager's wait for its vector side ends (R398). -/
def State.vectorTrap (s : State) (v : VStop) (cut : Nat) : State :=
  let s1 := s.drainRechecks
  let s2 := if s1.h.mode == .a then s1 else s1.endSpawn
  let raised := (s2.h.run.map (fun b => b.flags)).getD 0
  { s2 with h := ({ (s2.h.pageMet v.cause v.tval).stopAt v cut with fxf := orFlags s2.h.fxf raised } : Hart).waitCut, did := .nothing }

/-- A trap at the word in hand. -/
def State.vtrap (s : State) (cause : Nat) (tval : Word) (cut : Nat) : State :=
  s.vectorTrap { cause := cause, tval := tval, tepc := s.h.vaddr, frec := [] } cut

/-- ILLOP at the word in hand: TVAL is the word (R43). -/
def State.villop (s : State) : State := s.vtrap cILLOP (s.h.vword.zeroExtend 64) 0

/-- The flags of a block joined. -/
def Block.raise (b : Block) (fl : Nat) : Block := { b with flags := flOr b.flags fl }

/-- The word in hand completes: the next word of the convoy follows, or the next convoy (R48, R49). -/
def Hart.vdone (h : Hart) (fl : Nat) : Hart :=
  { h with vpc := h.vaddr + 4, conv := h.conv.tail, cut := 0, votes := [], owed := false, app := none, viw := none, again := false, passV := [],
           run := h.run.map (fun b => b.raise fl) }

/-- The word in hand completes with a hart's new vector state and flags. -/
def State.vdone (s : State) (h : Hart) (fl : Nat) : State := { s with h := h.vdone fl, did := .vector }

/-- The vector side waits, under IWL, for a party (R176, R334): it goes on at a cut, and `elem` is what ECUT takes if the wait reaches IWL.
A wait for another party, or at another element, is another one, with its own bound. -/
def State.vstallAt (s : State) (party : Word) (cut elem : Nat) : State :=
  { s with h := { s.h with cut := cut, viw := some { since := waitSince s.gtb s.h.viw party elem, party := party, elem := elem } },
           did := .nothing }

/-- The vector side waits for a party at an element. -/
def State.vstall (s : State) (party : Word) (cut : Nat) : State := s.vstallAt party cut cut

/-! Recheck -/

/-- The vector side as a recheck entry keeps it. -/
def Hart.snapshot (h : Hart) : Recheck := { hid := h.hid, vx := h.vx, run := h.run, conv := h.conv, vpc := h.vpc, votes := h.votes }

/-- RCHK of the running block (R429). -/
def Hart.rechk (h : Hart) : Nat := (h.run.map (fun b => b.rchk.toNat)).getD 0

/-- The word in hand enters the recheck queue after its first run (R430, R432): a full queue leaves it unchecked under IDLE, and makes
the oldest entry run under STRICT. -/
def State.enqueueRecheck (s : State) : State :=
  let q := (s.core s.h.core).recheck
  if s.h.rechk = 0 then s
  else if q.length < 48 then s.setCore s.h.core (fun c => { c with recheck := c.recheck ++ [s.h.snapshot] })
  else if s.h.rechk = 1 then s.count s.h.tid 13 1
  else
    let owner := ((q.head?.bind (fun r => s.hart r.hid)).map (fun h => h.tid)).getD s.h.tid
    (s.count owner 13 (if q.head?.any (fun r => r.votes.isEmpty) then 1 else 0)).setCore s.h.core (fun c => { c with recheck := c.recheck.tail ++ [s.h.snapshot] })

/-- QNE and QRE of a block (R248). -/
def Block.qne (b : Block) : Bool := bit b.qcfg.toNat 8
def Block.qre (b : Block) : Bool := bit b.qcfg.toNat 9

/-- The lowest unpoisoned element that raised a flag. -/
def firstFlag (f : Nat) (l : List (Nat × ERes)) : Option Nat :=
  (l.find? (fun e => !e.2.bad && flHas e.2.fl f)).map (fun e => e.1)

/-- The trap that the results of a word raise, if they do: FPE with the flags the word would have set (R198), QN or QR with the lowest
element (R253). -/
def Block.arithTrap (b : Block) (l : List (Nat × ERes)) : Option (Nat × Word) :=
  if flTraps b.fen (flagsOf l) then some (cFPE, word (flagsOf l % 32))
  else if b.qne && (firstFlag flQN l).isSome then some (cQN, word ((firstFlag flQN l).getD 0))
  else if b.qre && (firstFlag flQR l).isSome then some (cQR, word ((firstFlag flQR l).getD 0))
  else none

/-- A word whose results trap has ended its first run, and its recheck is still to come (R430): the trap is judged on the results that retire,
which a vote may change (R431, R433). -/
def State.oweTrap (s : State) : State := { s.enqueueRecheck.setH (fun h => { h with owed := true }) with did := .nothing }

/-- A word of majors 0x29 to 0x35 ends its first run: the trap of its results, unwound whole, once its recheck has ended, or its completion
(R401, R430, R433). -/
def State.laneDone (s : State) (l : List (Nat × ERes)) (h1 : Hart) : Out :=
  match s.h.run.bind (fun b => b.arithTrap l) with
  | some (c, v) => .next (if s.h.rechk = 0 || s.h.owed then s.vtrap c v 0 else s.oweTrap)
  | none => .next (s.enqueueRecheck.vdone h1 (flagsOf l))

/-- The value of a scalar-side destination after its votes, none when one failed (R431). -/
def Hart.votedCode (h : Hart) (v : Word) : Option Word :=
  if h.votes.any (fun x => x.failed) then none
  else some (h.votes.foldl (fun a x => ((x.res.map (fun r => word r.bits)).getD a)) v)

/-- The same for a scalar-side destination: a failed vote traps SPOISON (R431). -/
def State.codeDone (s : State) (d : Nat) (v tval : Word) : Out :=
  match s.h.votedCode v with
  | some x => .next (s.enqueueRecheck.vdone (s.h.setCode d x) 0)
  | none => .next (s.vtrap cSPOISON tval 0)

/-! Unit classes -/

/-- The unit class of a major (R40): 0 sequencer, 1 load, 2 store, 3 integer, 4 cross-lane, 5 mask, 6 floating, 7 matrix. -/
def unitClass (w : IWord) : Nat :=
  let m := (w.extractLsb' 26 6).toNat
  if m = 0x20 || m = 0x21 || m = 0x38 then 0 else if m ≤ 0x24 then 1 else if m ≤ 0x28 then 2 else if m ≤ 0x2C then 3
  else if m ≤ 0x2E then 4 else if m = 0x2F then 5 else if m ≤ 0x35 then 6 else 7

/-- The mask that makes elements of a word active, 0 for every element below VL; none for a word that performs no elements (R178). -/
def elemMask (w : IWord) : Option Nat :=
  let u := unitClass w
  match opOf w with
  | some .vstd => some 0
  | some .vmergeVv | some .vmergeVx | some .vmergeVi => some 0
  | some .vbslVx | some .vbslVi | some .vbsrVx | some .vbsrVi | some .vfsl | some .vfsr | some .vpmask | some .vid => some 0
  | some .vextr => none
  | some _ => if u = 0 || u = 7 then none else if u ≤ 2 then some (w.extractLsb' 5 3).toNat else some (w.extractLsb' 4 3).toNat
  | none => none

/-! Issue checks -/

/-- What a word writes, for rule 5 of R47. -/
inductive Dest where
  | none
  | regs (r n : Nat)
  | mask (m : Nat)
deriving DecidableEq, Repr

/-- The registers a word names and what it asks of them: the types it admits, groups (first register and size), single registers,
pairs of groups that may not overlap, and its destination. -/
structure Need where
  types : BitVec 3 → BitVec 3 → Bool
  untyped : Bool
  groups : List (Nat × Nat)
  singles : List Nat
  apart : List ((Nat × Nat) × (Nat × Nat))
  dest : Dest

/-- A group lies below NR at a multiple of its size (R186). -/
def groupOk (nr : Nat) (x : Nat × Nat) : Bool := x.1 < nr && x.1 + x.2 ≤ nr && x.1 % x.2 == 0

/-- Two groups share a register. -/
def overlap (x y : Nat × Nat) : Bool := x.1 < y.1 + y.2 && y.1 < x.1 + x.2

/-- The issue checks of R186 and of the chapter that owns a word. -/
def Hart.issueOk (h : Hart) (n : Need) : Bool :=
  (n.untyped || (!h.vx.vtype.vill && n.types h.vx.vtype.ty h.vx.vtype.sw)) && n.groups.all (groupOk (nrOf h.nrc)) &&
    n.singles.all (fun r => r < nrOf h.nrc) && n.apart.all (fun p => !overlap p.1 p.2)

/-- A need of the current type with groups and a destination. -/
def Need.of (types : BitVec 3 → BitVec 3 → Bool) (groups : List (Nat × Nat)) (dest : Dest) : Need :=
  { types := types, untyped := false, groups := groups, singles := [], apart := [], dest := dest }

/-- Every valid type. -/
def anyType (_ _ : BitVec 3) : Bool := true

/-- The integer class. -/
def intType (y _ : BitVec 3) : Bool := y == 0

/-- The floating classes, IEEE and bf16. -/
def floatType (y _ : BitVec 3) : Bool := y == 1 || y == 2

/-- The class q. -/
def qType (y _ : BitVec 3) : Bool := y == 4

/-- Three groups of g registers, the first the destination. -/
def need3 (t : BitVec 3 → BitVec 3 → Bool) (d a b : Nat) (h : Hart) : Need :=
  Need.of t [(d, h.grp), (a, h.grp), (b, h.grp)] (.regs d h.grp)

/-- Two groups of g registers, the first the destination. -/
def need2 (t : BitVec 3 → BitVec 3 → Bool) (d a : Nat) (h : Hart) : Need := Need.of t [(d, h.grp), (a, h.grp)] (.regs d h.grp)

/-- The same, disjoint (R210). -/
def need2d (t : BitVec 3 → BitVec 3 → Bool) (d a : Nat) (h : Hart) : Need :=
  { need2 t d a h with apart := [((d, h.grp), (a, h.grp))] }
def need3d (t : BitVec 3 → BitVec 3 → Bool) (d a b : Nat) (h : Hart) : Need :=
  { need3 t d a b h with apart := [((d, h.grp), (a, h.grp)), ((d, h.grp), (b, h.grp))] }

/-- A mask destination, and the source groups of a compare. -/
def needM2 (t : BitVec 3 → BitVec 3 → Bool) (md a b : Nat) (h : Hart) : Need := Need.of t [(a, h.grp), (b, h.grp)] (.mask md)
def needM1 (t : BitVec 3 → BitVec 3 → Bool) (md a : Nat) (h : Hart) : Need := Need.of t [(a, h.grp)] (.mask md)

/-- A mask destination alone. -/
def needM (md : Nat) (_ : Hart) : Need := Need.of anyType [] (.mask md)

/-- A reduction: a source group, and single registers for the result and the start (R225). -/
def needRed (t : BitVec 3 → BitVec 3 → Bool) (d a b : Nat) (h : Hart) : Need :=
  { Need.of t [(a, h.grp)] (.regs d 1) with singles := [d, b] }

/-- A scan: the destination group equals the source group or is disjoint from it (R226). -/
def needScan (d a b : Nat) (h : Hart) : Need :=
  { need2 intType d a h with singles := [b], apart := if d = a then [] else [((d, h.grp), (a, h.grp))] }

/-- A source group, and a scalar-side destination. -/
def needCode (a : Nat) (h : Hart) : Need := Need.of anyType [(a, h.grp)] .none

/-- No register at all. -/
def needNone (_ : Hart) : Need := Need.of anyType [] .none

/-- A vector word: its issue checks, then what it does. -/
def State.vissue (s : State) (n : Hart → Need) (f : Out) : Out :=
  if s.h.issueOk (n s.h) then f else .next s.villop

/-- Results written into a vector group. -/
def State.toVec (s : State) (d : Nat) (l : List (Nat × ERes)) : Out :=
  let l1 := s.h.voted l
  s.laneDone l1 (s.h.putEls s.h.sew d l1)

/-- Results written into a mask. -/
def State.toMask (s : State) (md : Nat) (l : List (Nat × ERes)) : Out :=
  let l1 := s.h.voted l
  s.laneDone l1 (s.h.putMask md l1)

/-! Operands by format (R209, R231) -/

/-- An operand of an element: its bits and its poison. -/
abbrev VOpnd := Nat → Nat × Bool

/-- A vector operand at SEW. -/
def Hart.opV (h : Hart) (r : Nat) : VOpnd := h.el h.sew r

/-- A scalar-side operand at SEW. -/
def Hart.opX (h : Hart) (c : Nat) : VOpnd := fun _ => ((h.code c).toNat % 2 ^ h.sew, false)

/-- An immediate operand at SEW. -/
def Hart.opI (h : Hart) (i : BitVec 6) : VOpnd := fun _ => (unsg i.toInt h.sew, false)

/-- An unsigned count. -/
def opC (n : Nat) : VOpnd := fun _ => (n, false)

/-- One operation on two operands: bits and flags of the result; poison of either spreads (R187). -/
def bin (f : Nat → Nat → Nat × Nat) (a b : VOpnd) (e : Nat) : ERes :=
  let x := a e
  let y := b e
  let r := f x.1 y.1
  { val := r.1, bad := x.2 || y.2, fl := r.2 }

/-- A condition on two operands, written to a mask: 0 from a poisoned one (R217). -/
def cond (f : Nat → Nat → Bool × Nat) (a b : VOpnd) (e : Nat) : ERes :=
  let x := a e
  let y := b e
  let r := f x.1 y.1
  if x.2 || y.2 then { val := 0, bad := true, fl := 0 } else { val := r.1.toNat, bad := false, fl := r.2 }

end Sys2Proof.Machine
end

