-- ==== Sys2Proof/Machine/Sched.lean ====
section
/-! DEFINITION. Scheduling: bind records and their checks (R381-R385), pre-emption with queue squash and rollback (R402-R406), Apiary's
policy (R386), power (R388, R389) and the watchdog (R390, R391). -/

namespace Sys2Proof.Machine

/-- The state with a hart in hand. -/
def State.hold (s : State) (hid : Nat) : State :=
  if s.h.live && s.h.hid == hid then s
  else
    match s.pool.find? (fun k => k.hid == hid) with
    | none => s
    | some k =>
      let rest := s.pool.filter (fun x => x.hid ≠ hid)
      { s with h := k, pool := if s.h.live then s.h :: rest else rest }

/-- An asynchronous trap pending at a boundary of the hart in hand (R96, R405): the PAGE of a poisoned table, then in mode A a vector-side trap
that waits. -/
def State.boundary (s : State) : Option State :=
  match s.h.pagePend with
  | v :: _ => some (s.trap cPAGE v)
  | [] => if s.h.trapWaits && s.h.mode == .a then some s.takeVectorTrap else none

/-- A halt keeps a hart from taking asynchronous traps, but for one that takes a step (R440). -/
def Hart.halted (h : Hart) : Bool := h.halt.any (fun x => x.steps == 0)

/-- The hart's watchdog count has reached WDL (R391). -/
def State.dogDue (s : State) (h : Hart) : Bool := h.slot.isSome && !h.waiting && !h.halted && (s.core h.core).wdl.toNat ≤ h.wd

/-- WDOG of the hart in hand: the count in TVAL; the instruction in hand has no effect (R391). -/
def State.wdog (s : State) : State :=
  (s.setH (fun k => { (if k.iw.isSome then k.spent k.pc else k) with wd := 0 })).trap cWDOG (word s.h.wd)

/-- The asynchronous traps in the order of R405: the PAGE of R96, a pending vector-side trap in mode A, then WDOG. -/
def State.asyncTrap (s : State) : Option State := if s.boundary.isSome then s.boundary else if s.dogDue s.h then some s.wdog else none

/-! Pre-emption -/

/-- The slots of the history buffer from the newest back to the VRUN of a sequence number, in that order (R403). -/
def slotsTo (seq : BitVec 16) : List HistSlot → List HistSlot
  | [] => []
  | x :: r => if (x.vrun.map (fun v => v.1)) = some seq then [x] else x :: slotsTo seq r

/-- One register restored (R403). -/
def Hart.restoreSlot (h : Hart) (x : HistSlot) : Hart := h.setX x.reg x.old

/-- The queue squash and the rollback of the forager (R403). -/
def Hart.squash (h : Hart) : Hart :=
  match h.queue.find? (fun e => !e.sld) with
  | none => { h with hist := [] }
  | some e =>
    let slots := slotsTo e.seq h.hist.reverse
    let h1 := slots.foldl Hart.restoreSlot h
    let pc := ((slots.getLast?.bind (fun x => x.vrun)).map (fun v => v.2)).getD h.pc
    { h1 with queue := h.queue.takeWhile (fun x => x.sld), bcnt := e.seq, pc := pc, hist := [] }

/-- The running convoy stopped at its lowest word that has not completed (R402). -/
def Hart.stopConvoy (h : Hart) : Hart :=
  match h.conv with
  | [] => { h with viw := none }
  | (a, _) :: _ => { h with vpc := a, conv := [], again := true, owed := false, viw := none }

/-- The hart unbound (R402): an implicit wait is abandoned, an explicit one goes on; the scalar context is saved (R407). -/
def Hart.preempted (h : Hart) (time : Nat) : Hart :=
  { h.squash.stopConvoy with slot := none, leaving := none, iw := none, readyAt := time, saves := h.saves + 1 }

/-- Every hart of a core and tenant that is READY as a quantum ends has been READY through one more (R386). -/
def missQuantum (core tag : Nat) (h : Hart) : Hart :=
  if h.core = core && h.tid = tag && h.state == .ready then { h with missed := h.missed + 1 } else h

/-- An issue that waits for the homes of its lines is abandoned at a pre-emption, and its command withdrawn (R139, R402). -/
def State.dropIssue (s : State) : State :=
  match s.h.begun with
  | some b =>
    match b.what with
    | .command e q => (s.withdrawCmd e q).setH (fun h => { h with begun := none })
    | _ => s
  | none => s

/-- An instruction in hand that has begun its effect retires at a pre-emption (R402), and seals the queue (R403); an EXIT ends the hart. -/
def State.endBegun (s : State) : State :=
  match s.h.begun with
  | none => s
  | some ⟨_, _, .exits _⟩ => s.exitNow
  | some _ => (s.count s.h.tid 1 1).setH (fun h => h.finishBegun.sealAll)

/-- The pre-emption of the hart in hand at the boundary of R406: an instruction that has begun its effect has completed, and what falls on the
boundary comes first (R402, R405); an instruction that sits in an implicit wait is abandoned, so that the boundary lies before it. A trap
entered there seals the queue, so that the hart stops at its handler (entry 68). -/
def State.preempt (s : State) : State :=
  let s1 := s.drainRechecks.dropIssue.endBegun
  let s2 := if s1.h.live && s1.h.wait.isNone && !s1.h.halted then (s1.asyncTrap.map (fun t => t.setH Hart.sealAll)).getD s1 else s1
  if s2.h.live && s2.h.hid == s.h.hid then s2.setH (fun h => h.preempted s.gtb) else s2

/-- A bind record removed: V is 0 from now on, and its hart is pre-empted (R382, R384), or, while its instruction in hand, whose effect has
begun, waits for its party, is to be pre-empted when that instruction has completed (R402); its vector side issues no more. -/
def State.unbind (s : State) (core slot : Nat) : State :=
  let b := s.bind core slot
  if !b.v then s
  else
    let s1 := s.setBind core slot Bind.removed
    match s.hart b.hart with
    | none => s1
    | some h =>
      let s2 := s1.unbindNotice core slot b.hart b.tag
      if s.begunWaits h then s2.updHart b.hart (fun k => { k.stopConvoy with slot := none, leaving := some slot })
      else (s2.hold b.hart).preempt

/-! Bind records -/

/-- The lane-group mask is a run of 1, 2, 4 or 8 bits at a multiple of its length (R383). -/
def runOk (lgm : Nat) : Bool :=
  [0, 1, 2, 3].any (fun k => (List.range (8 / 2 ^ k)).any (fun i => lgm == (2 ^ 2 ^ k - 1) * 2 ^ (i * 2 ^ k)))

/-- The lane groups of a core that a record may not take: those of valid records and of unbindings in progress (R383, R384). -/
def State.takenGroups (s : State) (core but : Nat) : Nat :=
  (List.range 8).foldl (fun m i =>
    let b := s.bind core i
    m ||| (if b.v && i != but then b.lgm else 0) ||| b.unbinding) 0

/-- A valid record of some core names a hart (R383). -/
def State.namesHart (s : State) (hid : Nat) : Bool :=
  s.cores.any (fun c => c.2.binds.any (fun b => b.2.v && b.2.hart == hid))

/-- The groups of a tenant's partition, empty while it is FREEZING or FROZEN (R383, R420). -/
def State.livePartition (s : State) (core tag : Nat) : Nat :=
  if 2 ≤ (s.tenant tag).st then 0 else s.partition core tag

/-- The lanes that a hart still holds: none once it has given them up (R285). -/
def Hart.heldLanes (h : Hart) : Nat := if h.released then 0 else h.lanes

/-- The refusal code of a record (R383): the first condition that holds, or 0. Writes of ERR are ignored (R6). -/
def State.bindErr (s : State) (core slot : Nat) (d0 : Nat) : Nat :=
  let hid := bits d0 0 16
  let lgm := bits d0 16 8
  match (s.hart hid).bind (fun h => if h.core = core && (h.state == .ready || (h.waiting && !h.created)) then some h else none) with
  | none => 1
  | some h =>
    if s.namesHart hid then 2
    else if bits d0 32 10 ≠ h.tid || 2 ≤ (s.tenant h.tid).st || lgm &&& s.livePartition core h.tid ≠ lgm then 3
    else if !(lgm == 0 || runOk lgm) then 4
    else if (lgm ≠ 0 && 4 * popcount 8 lgm ≠ h.heldLanes) || (lgm = 0 && !h.released) then 5
    else if lgm &&& s.takenGroups core slot ≠ 0 then 6
    else if bits d0 42 14 ≠ 0 || bits d0 24 8 ≠ 0 || (s.bind core slot).bad1 then 7
    else 0

/-- A record with the fields of dword 0 (R381). -/
def Bind.fields (b : Bind) (d0 err time : Nat) (v : Bool) : Bind :=
  { b with v := v, err := err, prio := bits d0 56 3, tag := bits d0 32 10, lgm := bits d0 16 8, hart := bits d0 0 16, tick := time }

/-- A hart bound to a slot: an outcome decided meanwhile is delivered (R277, R289), and its watchdog count is reset (R390). -/
def Hart.bound (h : Hart) (slot : Nat) : Hart :=
  let h1 := { h with slot := some slot, missed := 0, wd := 0 }
  match h1.wait with
  | some w =>
    match w.ans with
    | some v => h1.deliver w.dst v
    | none => h1
  | none => h1

/-- The scalar context restored at a bind (R404, R407, R408): a finding in it loses the hart. -/
def State.restoreScalar (s : State) (hid : Nat) : State :=
  match s.hart hid with
  | none => s
  | some h =>
    let found := s.findings h scalarPart
    if found.isEmpty then s.clearFindings hid scalarPart else ((s.clearFindings hid scalarPart).restoreRecords h found).endHart hid

/-- The quantum that Apiary writes for a class (R386, R454). -/
def State.quantum (s : State) (cls : Nat) : Nat :=
  let q := Tab.get 0 s.hub.clsq cls
  if q = 0 then 100000 else q

/-- A record submitted (R382, R383); Apiary writes QUANT with it (R386). The wrong writer for the mode, or a valid record, leaves it
as it stands (R385). -/
def State.submit (s : State) (core slot : Nat) (d0 : Word) (byHost : Bool) : State :=
  if byHost ≠ bit s.hub.split 1 || 8 ≤ slot || (s.bind core slot).v || (s.die (dieOfCore core)).inReset then s
  else
    let x := d0.toNat
    let q := if byHost then (s.bind core slot).quant else s.quantum (bits x 56 3)
    let s := if byHost then s else s.setBind core slot (fun b => { b with bad1 := false })
    match s.bindErr core slot x with
    | 0 =>
      let w := (s.hart (bits x 0 16)).bind (fun h => h.wait)
      let s1 := (s.setBind core slot (fun b => { b.fields x 0 s.gtb true with quant := q })).updHart (bits x 0 16) (fun h => h.bound slot)
      let s2 := if (w.bind (fun w => w.ans)).isSome then s1.count (bits x 32 10) 1 1 else s1
      s2.restoreScalar (bits x 0 16)
    | e => s.setBind core slot (fun b => { b.fields x e b.tick false with quant := q })

/-- A write of dword 0 with V = 0 (R381, R382): the record is removed, and takes the fields that are written. -/
def State.clearBind (s : State) (core slot : Nat) (d0 : Word) (byHost : Bool) : State :=
  if byHost ≠ bit s.hub.split 1 || 8 ≤ slot then s
  else (s.unbind core slot).setBind core slot (fun b => b.fields d0.toNat b.err b.tick false)

/-- `BIND_RECORD_SUBMIT` (R382). A dword with V = 0 removes the record. -/
def execBindRecordSubmit (core slot : Nat) (d0 : Word) (byHost : Bool) (s : State) : Out :=
  .next (s.ifAnswers (fun t => if bit d0.toNat 63 then t.submit core slot d0 byHost else t.clearBind core slot d0 byHost))

/-- `BIND_RECORD_REMOVE` (R382). -/
def execBindRecordRemove (core slot : Nat) (byHost : Bool) (s : State) : Out :=
  .next (if s.answers && byHost = bit s.hub.split 1 then s.unbind core slot else s)

/-- A valid record whose quantum has passed (R384). -/
def Bind.quantumDue (b : Bind) (time : Nat) : Bool := b.v && b.quant ≠ 0 && b.tick + b.quant ≤ time

/-- `QUANTUM_END` (R384, R386): one more quantum end for the READY harts of the partition, and the removal. -/
def execQuantumEnd (core slot : Nat) (s : State) : Out :=
  let b := s.bind core slot
  if !b.quantumDue s.gtb then .next s
  else
    .next (({ s with h := missQuantum core b.tag s.h, pool := s.pool.map (missQuantum core b.tag) }).unbind core slot)

/-- The harts of a slot's removed record whose pre-emption waits for an instruction in hand (R402). -/
def State.leavers (s : State) (core slot : Nat) : List Hart := s.harts.filter (fun h => h.core == core && h.leaving == some slot)

/-- A hart whose pre-emption waited, pre-empted once its instruction in hand can complete (R402). -/
def State.leaveNow (s : State) (h : Hart) : State := if s.begunWaits h then s else (s.hold h.hid).preempt

/-- An unbinding of a slot can complete (R384): no hart of it still waits for an instruction in hand. -/
def State.canUnbind (s : State) (core slot : Nat) : Bool := (s.leavers core slot).all (fun h => !s.begunWaits h)

/-- `UNBINDING_COMPLETE` (R384, R402): the last harts of the slot are pre-empted, and then the lanes are free. -/
def execUnbindingComplete (core slot : Nat) (s : State) : Out :=
  let s1 := (s.leavers core slot).foldl State.leaveNow s
  .next (if (s1.leavers core slot).isEmpty then s1.setBind core slot (fun b => { b with unbinding := 0 }) else s1)

/-! Apiary's policy -/

/-- The lowest-numbered aligned run of free lane groups that a number of groups fits (R386). -/
def fitRun (free n : Nat) : Option Nat :=
  ((List.range (8 / n)).map (fun i => (2 ^ n - 1) * 2 ^ (i * n))).find? (fun m => m &&& free == m)

/-- The lane groups a hart needs, as a mask placed in free ones: none for a hart that has given up its lanes. -/
def Hart.fit (h : Hart) (free : Nat) : Option Nat := if h.released then some 0 else fitRun free (h.lanes / 4)

/-- A hart that has been READY through 8 quantum ends without being bound, at the next one: `missed` counts that one too (R386). -/
def Hart.overdue (h : Hart) : Bool := 9 ≤ h.missed

/-- One hart goes before another (R386): overdue ones first, then by class, age and id. -/
def Hart.before (a b : Hart) : Bool :=
  let x := a.overdue
  let y := b.overdue
  if x ≠ y then x
  else if !x && a.cls ≠ b.cls then b.cls < a.cls
  else if a.readyAt ≠ b.readyAt then a.readyAt < b.readyAt
  else a.hid < b.hid

/-- The free lane groups of a partition. -/
def State.freeGroups (s : State) (core tag : Nat) : Nat :=
  (List.range 8).foldl (fun m g =>
    if bit (s.livePartition core tag) g && !bit (s.takenGroups core 8) g then setBit m g true else m) 0

/-- A free slot of a core. -/
def State.freeSlot (s : State) (core : Nat) : Option Nat := (List.range 8).find? (fun i => !(s.bind core i).v)

/-- A record that Apiary's policy writes for a hart, if a slot and lanes are free (R386). -/
def State.recordFor (s : State) (h : Hart) : Option (Nat × Nat × Word) :=
  if 2 ≤ (s.tenant h.tid).st || (s.die h.die).inReset then none
  else
    match s.freeSlot h.core, h.fit (s.freeGroups h.core h.tid) with
    | some i, some lgm =>
      some (h.core, i, word (2 ^ 63 + h.cls * 2 ^ 56 + h.tid * 2 ^ 32 + lgm * 2 ^ 16 + h.hid))
    | _, _ => none

/-- The lanes of a partition are kept for an overdue hart that does not fit them yet (R386; entry 64). -/
def State.keptFor (s : State) (h : Hart) : Bool :=
  !h.overdue && s.harts.any (fun k => k.state == .ready && k.overdue && k.core == h.core && k.tid == h.tid && (s.recordFor k).isNone)

/-- The READY hart that is bound next, and its record (R386); none in host-assisted mode (R385). -/
def State.apiaryBind (s : State) : Option (Nat × Nat × Word) :=
  if bit s.hub.split 1 then none
  else
    let l := s.harts.filter (fun h => h.state == .ready && (s.recordFor h).isSome && !s.keptFor h)
    match l with
    | [] => none
    | h :: r => s.recordFor (r.foldl (fun a b => if b.before a then b else a) h)

/-- A WAITING hart whose record Apiary removes: it has waited at least 2 us while a READY hart of its partition fits its lanes (R386). -/
def State.waitsTooLong (s : State) (h : Hart) : Bool :=
  h.waiting && h.slot.isSome && decide (h.waitAt + 2000 ≤ s.gtb) &&
    s.harts.any (fun k => k.state == .ready && k.core == h.core && k.tid == h.tid &&
      ((k.fit (s.bind h.core (h.slot.getD 0)).lgm).isSome))

/-- The record that Apiary removes next (R386); none in host-assisted mode (R385). -/
def State.apiaryRemove (s : State) : Option (Nat × Nat) :=
  if bit s.hub.split 1 then none else (s.harts.find? s.waitsTooLong).map (fun h => (h.core, h.slot.getD 0))

/-- `APIARY_WAITING_REMOVAL` (R386). -/
def execApiaryWaitingRemoval (core slot : Nat) (s : State) : Out :=
  .next (if !bit s.hub.split 1 && s.harts.any (fun h => h.core == core && h.slot == some slot && s.waitsTooLong h) then s.unbind core slot
    else s)

/-! Power and the watchdog -/

/-- The bound hart whose LP is lowered next among those of a list of classes (R389). -/
def State.lowerable (s : State) (lo hi : Nat) : Option Hart :=
  let l := s.harts.filter (fun h => h.slot.isSome && 4 < h.lp && lo ≤ h.cls && h.cls ≤ hi)
  match l with
  | [] => none
  | h :: r => some (r.foldl (fun a b => if b.cls < a.cls || (b.cls = a.cls && b.hid < a.hid) then b else a) h)

/-- LP halved, never below 4 (R388). -/
def lowerLp (h : Hart) : Hart := { h with lp := max 4 (h.lp / 2) }

/-- LP raised by one doubling per millisecond (R388). -/
def raiseLp (time : Nat) (h : Hart) : Hart :=
  if h.live && h.lp < h.lanes && h.lpAt + 1000000 ≤ time then { h with lp := min h.lanes (h.lp * 2), lpAt := time } else h

/-- `POWER_SAMPLE` (R388, R389) of the power averaged over a millisecond, in watts. Over the limit, the controller takes one step;
which of its two means it takes is open, and the model's choice is entry 17. -/
def execPowerSample (watts : Nat) (s : State) : Out :=
  if s.hub.power < watts then
    match s.lowerable 0 5 with
    | some h => .next (s.updHart h.hid lowerLp)
    | none =>
      if 1600 < s.hub.clock then .next (s.setHub (fun b => { b with clock := max 1600 (b.clock - 100) }))
      else
        match s.lowerable 6 7 with
        | some h => .next (s.updHart h.hid lowerLp)
        | none => .next s
  else if watts * 100 ≤ s.hub.power * 95 then
    .next { (s.setHub (fun b => { b with clock := min 3000 (b.clock + 100) })) with
      h := raiseLp s.gtb s.h, pool := s.pool.map (raiseLp s.gtb) }
  else .next s

/-- The watchdog can stop a hart's instruction in hand (R391, R402): one that has begun its effect completes first; an issue that waits for the
homes of its lines has not, and its command is withdrawn (R139). -/
def Hart.dogStops (h : Hart) : Bool := h.begun.all (fun b => match b.what with
  | .command _ _ => true
  | _ => false)

/-- `WATCHDOG_EXPIRY` (R391): once the count has reached WDL, WDOG at the forager, after what R405 puts before it. -/
def execWatchdogExpiry (hid : Nat) (s : State) : Out :=
  match s.hart hid with
  | none => .next s
  | some h =>
    if !s.dogDue h || !h.dogStops then .next s
    else .next ((s.hold hid).dropIssue.asyncTrap.getD (s.hold hid))

/-- `HART_KILL` (R287). -/
def execHartKill (hid : Nat) (s : State) : Out := .next (s.endHart hid)

end Sys2Proof.Machine
end

