-- ==== Sys2Proof/Machine/Tenant.lean ====
section
/-! DEFINITION. Tenants: their blocks and windows (R90, R409-R411, R415-R417, R421, R422, R441, R445), partitions (R412-R414), the
boot hart (R291), and freezing, thawing and releasing (R419, R420, R423). -/

namespace Sys2Proof.Machine

/-! The tenant's registers -/

/-- TENCFG (R410). -/
def Tenant.cfgWord (t : Tenant) : Word :=
  word (t.st * 2 ^ 62 + t.combq * 2 ^ 32 + t.cpyq * 2 ^ 24 + t.cmpq * 2 ^ 16 + t.colq * 2 ^ 8)

/-- TENHBM.USE (R422). -/
def State.hbmUse (s : State) (tag : Nat) : Nat :=
  (s.rob.filter (fun e => robValid e.2.toNat && robTag e.2.toNat == tag && decide (e.1 * 65536 < 2 ^ 40))).length

/-- TENHBM (R422). -/
def State.hbmWord (s : State) (tag : Nat) : Word := word (s.hbmUse tag * 2 ^ 32 + (s.tenant tag).wm)

/-- TENBOOT (R291). -/
def Tenant.bootWord (t : Tenant) : Word := word (t.bootBusy.toNat * 2 ^ 62 + t.bootRes * 2 ^ 60 + t.bootRec.toNat)

/-- TINV (R90). -/
def Tenant.tinvWord (t : Tenant) : Word := word (t.tinv.toNat + 2 * t.tinvBusy.toNat)

/-- The registers of BAR 0 of a VF that the tenant's own software reads (R421, R457). -/
def State.vfRead (s : State) (tag off : Nat) : Option Word :=
  let t := s.tenant tag
  if off = 0x000 then some t.cfgWord
  else if off = 0x008 then some (s.hbmWord tag)
  else if off = 0x010 then some t.bootWord
  else if off = 0x018 then some t.bootMaxw
  else if off = 0x100 then some t.ptbase
  else if off = 0x108 then some t.tinvWord
  else if 0x200 ≤ off && off < 0x280 && off % 8 = 0 then some (Tab.get 0 t.cnt ((off - 0x200) / 8))
  else if off = 0x300 then some t.trbuf
  else if off = 0x308 then some (word (s.trctl tag))
  else if off = 0x310 then some t.ftrig
  else if off = 0x400 then some t.hsch
  else if off = 0x408 then some t.hsmsg
  else if off = 0x410 then some t.hsdl
  else if off = 0x418 then some 0
  else if off = 0x420 then some t.hsres
  else if off = 0x500 then some 0
  else if off = 0x600 then some (word (bits t.roreq.toNat 0 63))
  else if off = 0x608 then some t.rostat
  else none

/-- The bits of a VF register that are not reserved (R90, R441, R445); a write keeps them alone. -/
def vfMask (off : Nat) : Word :=
  if off = 0x100 then 0x000FFFFFFFF00001#64
  else if off = 0x108 then 0x00FFFFFFFFFF0303#64
  else if off = 0x308 then 0x0000000000FF1F1F#64
  else if off = 0x310 then 0xC000FFFF0FFF0FFF#64
  else if off = 0x600 then 0xE3FFFF0FFFFFFFFF#64
  else 0xFFFFFFFFFFFFFFFF#64

/-- A cached translation lies in the range of a TINV write (R90). -/
def tinvHits (tag : Nat) (v : Word) (e : TlbEntry) : Bool :=
  let va := bits v.toNat 16 40 * 65536
  let sz := match bits v.toNat 8 2 with
    | 0 => 16
    | 1 => 21
    | _ => 30
  e.tag == tag && (bits v.toNat 8 2 == 3 || (e.va * 2 ^ e.sz / 2 ^ max sz e.sz == va / 2 ^ max sz e.sz))

/-- A write of TINV (R90): with GO the translations of the range are discarded, and BUSY reads 1 until `TINV_COMPLETE`. -/
def State.tinvWrite (s : State) (tag : Nat) (v : Word) : State :=
  if (s.tenant tag).tinvBusy then s
  else
    let x := v &&& vfMask 0x108
    let s1 := s.setTenant tag (fun t => { t with tinv := x &&& 0xFFFFFFFFFFFFFFFC#64, tinvBusy := bit x.toNat 0 })
    if bit x.toNat 0 then { s1 with tlb := s1.tlb.filter (fun e => !tinvHits tag x e) } else s1

/-- `TINV_GO` (R90). -/
def execTinvGo (tag : Nat) (v : Word) (s : State) : Out := .next (s.ifAnswers (fun t => t.tinvWrite tag v))

/-- A receiver of a tenant waits at a channel with a destination that was translated when its RECV was sent (R358). -/
def Obj.keepsPlaces (tag : Nat) (o : Obj) : Bool :=
  match o.body with
  | .chan b => o.tag == tag && b.receivers.any (fun r => r.dst.any (fun pl => isMain pl.loc))
  | _ => false

/-- An access of a tenant under a translation of before is still to be performed: a command of an engine, or a waiting RECV (R90). -/
def State.tinvOpen (s : State) (tag : Nat) : Bool :=
  s.engines.any (fun e => (e.2.queue ++ e.2.pend).any (fun c => c.tid == tag)) || s.objs.any (fun e => e.2.any (Obj.keepsPlaces tag))

/-- `TINV_COMPLETE` (R90): once every access under translations of before has been performed. -/
def execTinvComplete (tag : Nat) (s : State) : Out :=
  .next (if s.tinvOpen tag then s else s.setTenant tag (fun t => { t with tinvBusy := false }))

/-- A write of ROREQ (R421): ignored while busy; with GO the request is busy until `ROREQ_COMPLETE`. Reserved fields are not kept (R6),
but that one was set refuses the request. -/
def State.roreqWrite (s : State) (tag : Nat) (v : Word) : State :=
  if bits (s.tenant tag).rostat.toNat 0 2 = 1 then s
  else s.setTenant tag (fun t => { t with roreq := v &&& vfMask 0x600, roBad := bits v.toNat 58 3 ≠ 0 || bits v.toNat 36 4 ≠ 0,
                                          rostat := if bit v.toNat 63 then 1 else t.rostat })

/-- `ROREQ_GO` (R421). -/
def execRoreqGo (tag : Nat) (v : Word) (s : State) : Out := .next (s.ifAnswers (fun t => t.roreqWrite tag v))

/-- OWN of a request names what its OWNK requires (R421). -/
def State.ownNamed (s : State) (tag ownk own : Nat) : Bool :=
  match ownk, s.objNum own with
  | 0, _ => true
  | 1, some (_, o) => o.tag == tag && (match o.body with
    | .swarm _ => true
    | _ => false)
  | 2, some (_, o) => o.tag == tag && (match o.body with
    | .latch _ => true
    | _ => false)
  | 3, _ => true
  | _, none => false
  | _, some _ => false

/-- The reason that refuses a request, in the order 2, 1, 3 (R421), or 0. OWNK and OWN belong to OP 0 only. -/
def State.roreqReason (s : State) (tag : Nat) (v : Nat) : Nat :=
  let op := bits v 61 2
  if op = 3 || (s.tenant tag).roBad || bits v 56 2 = 3 || (op ≠ 0 && bits v 40 18 ≠ 0) then 2
  else if Tab.get 0 s.allot (bits v 0 36) ≠ tag then 1
  else if op = 0 && !s.ownNamed tag (bits v 56 2) (bits v 40 16) then 3 else 0

/-- A reverse ownership entry (R91). -/
def robEntry (kind tag ownk own : Nat) : Word := word (2 ^ 63 + kind * 2 ^ 61 + tag * 2 ^ 32 + ownk * 2 ^ 16 + own)

/-- The entry of a page, cleared: V reads 0 (R91, R421). -/
def clearedEntry (e : Word) : Word := word (setBit e.toNat 63 false)

/-- `ROREQ_COMPLETE` (R421): the entry is written, or the request is refused. -/
def execRoreqComplete (tag : Nat) (s : State) : Out :=
  let t := s.tenant tag
  if bits t.rostat.toNat 0 2 ≠ 1 then .next s
  else
    let v := t.roreq.toNat
    match s.roreqReason tag v with
    | 0 =>
      let pn := bits v 0 36
      let e := match bits v 61 2 with
        | 0 => robEntry 0 tag (bits v 56 2) (bits v 40 16)
        | 1 => robEntry 1 tag 0 0
        | _ => clearedEntry (Tab.get 0 s.rob pn)
      .next (({ s with rob := Tab.set 0 s.rob pn e }).setTenant tag (fun t => { t with rostat := 2 }))
    | n => .next (s.setTenant tag (fun t => { t with rostat := word (n * 2 ^ 8 + 3) }))

/-- A write of a VF register that takes writes from the tenant (R441, R445, R457): reserved bits are dropped. -/
def State.vfWrite (s : State) (tag off : Nat) (v : Word) : State :=
  let x := v &&& vfMask off
  if off = 0x100 then s.setTenant tag (fun t => { t with ptbase := x })
  else if off = 0x108 then s.tinvWrite tag v
  else if off = 0x300 then s.setTenant tag (fun t => { t with trbuf := x })
  else if off = 0x308 then
    (if bits x.toNat 0 5 < 4 || 20 < bits x.toNat 0 5 then s else s.setTenant tag (fun t => { t with trctl := x }))
  else if off = 0x310 then s.setTenant tag (fun t => { t with ftrig := x })
  else if off = 0x600 then s.roreqWrite tag v
  else s

/-! Partitions -/

/-- The eight entries of the partition registers of a core, with one register replaced (R412). -/
def State.pmapWith (s : State) (core idx : Nat) (v : Word) : List Nat :=
  (List.range 8).map (fun j => if j / 4 = idx then bits v.toNat (16 * (j % 4)) 16 else s.pmapEntry core j)

/-- The valid entries are well formed and disjoint, and no tenant has two (R413). -/
def pmapOk (l : List Nat) : Bool :=
  let vs := l.filter pmV
  vs.all (fun e => bits e 1 3 % 2 ^ bits e 4 2 == 0 && 1 ≤ pmTag e && pmTag e ≤ 512) &&
    decide (vs.Pairwise (fun a b => pmMask a &&& pmMask b = 0 ∧ pmTag a ≠ pmTag b))

/-- The tenant to which a lane group belongs, or 0. -/
def groupOwner (l : List Nat) (g : Nat) : Nat :=
  match l.find? (fun e => pmV e && bit (pmMask e) g) with
  | some e => pmTag e
  | none => 0

/-- The lane groups that a write takes away from their tenant. -/
def movedGroups (old new : List Nat) : List Nat :=
  (List.range 8).filter (fun g => groupOwner old g ≠ 0 && groupOwner old g ≠ groupOwner new g)

/-- A write of a partition register (R413, R414), or a refused management write. -/
def State.pmapWrite (s : State) (core idx : Nat) (v : Word) : State :=
  let old := (List.range 8).map (s.pmapEntry core)
  let new := s.pmapWith core idx v
  let moved := movedGroups old new
  if pmapOk new && !((s.core core).binds.any (fun b => b.2.v && moved.any (fun g => bit b.2.lgm g))) then
    (s.setCore core (fun c => { c with pmap := Tab.set 0 c.pmap idx v })).saveLanes core (fun e => moved.contains e.1)
  else s.setHub (fun h => { h with refused := satInc h.refused 32 })

/-- `PMAP_WRITE` (R413). -/
def execPmapWrite (core idx : Nat) (v : Word) (s : State) : Out := .next (if s.answers && idx < 2 then s.pmapWrite core idx v else s)

/-! The boot hart -/

/-- The actor of Apiary's and the host's accesses for a tenant: no hart's, and not in mode A. -/
def hostActor (tag : Nat) : Actor := { tid := tag, hid := 2 ^ 21, core := 2 ^ 20, mode := .s, holds := [], unit := true }

/-- A write of TENBOOT (R291): one with GO = 1 is ignored while BUSY. Tag 0 needs no STATE: its boot hart starts the device's own software
from PHASE 6 on (entry 19). -/
def State.tenbootWrite (s : State) (tag : Nat) (v : Word) : State :=
  let t := s.tenant tag
  if !bit v.toNat 63 then s.setTenant tag (fun t => { t with bootRec := word (bits v.toNat 0 56) })
  else if !t.bootBusy && (if tag = 0 then decide (6 ≤ s.hub.phase) else t.st == 1) then
    s.setTenant tag (fun t => { t with bootRec := word (bits v.toNat 0 56), bootBusy := true, bootRes := 0 })
  else s

/-- `TENBOOT_GO` (R291). -/
def execTenbootGo (tag : Nat) (v : Word) (s : State) : Out := .next (s.ifAnswers (fun t => t.tenbootWrite tag v))

/-- The answer of a boot (R291). -/
def State.bootDone (s : State) (tag res : Nat) : State := s.setTenant tag (fun t => { t with bootBusy := false, bootRes := res })

/-- The boot hart of an image (R291). -/
def bootHart (hid tag core maxw : Nat) (i : Image) (time : Nat) : Hart :=
  { hartOf hid tag core i.prio 0 i time with mode := if tag = 0 then .d else .s, maxwait := word maxw }

/-- The time that the boot hart's enrolment may take: IWL's reset value, for want of a spawner (R291, R311; entry 63). -/
def bootLimit : Nat := 100000

/-- A boot hart whose enrolment has no answer is cancelled and refused once its time has passed (R311). -/
def State.bootTimeout (s : State) (tag : Nat) (c : Nat × Nat) : State :=
  match s.hart c.1 with
  | some h =>
    if h.created && decide (h.readyAt + bootLimit ≤ s.gtb) then
      ((s.cancelChild h c.2 noHart).setTenant tag (fun t => { t with bootChild := none })).bootDone tag 2
    else s
  | none => (s.setTenant tag (fun t => { t with bootChild := none })).bootDone tag 2

/-- The creation of the boot hart of an image (R291): RES 3 for no partition, no id or no room, RES 2 for an invalid record. -/
def State.boot (s : State) (tag : Nat) (i : Image) : State :=
  if (s.coresFor tag 4).isEmpty || (tag ≠ 0 && (s.tenant tag).st ≠ 1) then s.bootDone tag 3
  else
    match s.admitImage tag i with
    | .error .invalid => s.bootDone tag 2
    | .error .rank => s.bootDone tag 2
    | .error _ => s.bootDone tag 3
    | .ok (hid, core) =>
      let k := bootHart hid tag core (s.tenant tag).bootMaxw.toNat i s.gtb
      let wait : State → State := fun u => u.setTenant tag (fun t => { t with bootChild := some (hid, bits i.swarm 0 28) })
      match s.proxySwarm i, s.slowest i.homes with
      | some (o, b), _ => wait (s.createHart k i o b (s.gtb + bootLimit))
      | none, some _ => wait (s.addHart { k with created := true } i)
      | none, none => (s.addHart k i).bootDone tag 1

/-- `TENBOOT_COMPLETE` (R291): the record is read through the tenant's tables, under the checks of R85; a line that an engine owns is
waited for. -/
def execTenbootComplete (tag : Nat) (s : State) : Out :=
  if !(s.tenant tag).bootBusy then .next s
  else if (s.tenant tag).bootChild.isSome then .next ((s.tenant tag).bootChild.elim s (s.bootTimeout tag))
  else
    match s.accessRun (hostActor tag) .load (s.tenant tag).bootRec 2 with
    | (s1, .ok pls) =>
      match s1.readPieces (hostActor tag) pls with
      | (s2, bs, bad) => if bad then .next (s2.bootDone tag 2) else .next (s2.boot tag (imageOf bs))
    | (s1, .trap _ _) => .next (s1.bootDone tag 2)
    | (s1, .wait _) => .next s1

/-! States of a tenant -/

/-- Every field of a TENCFG write is in its range (R410). -/
def tencfgOk (v : Nat) : Bool := bits v 32 22 ≤ 2097152 && bits v 24 8 ≤ 64 && bits v 16 5 ≤ 16 && bits v 8 5 ≤ 16

/-- The quotas of a TENCFG write. -/
def State.setQuotas (s : State) (tag v : Nat) : State :=
  s.setTenant tag (fun t => { t with combq := bits v 32 22, cpyq := bits v 24 8, cmpq := bits v 16 5, colq := bits v 8 5 })

/-- The harts of a tenant. -/
def State.tenantHarts (s : State) (tag : Nat) : List Hart := s.harts.filter (fun h => h.tid == tag)

/-- The engines leased to a tenant. -/
def State.leasesOf (s : State) (tag : Nat) : List Nat :=
  (s.engines.filter (fun e => e.2.leased && e.2.tid == tag)).map (fun e => e.1)

/-- The steps of a freeze (R420): records removed with pre-emption, contexts saved, leases ended. -/
def State.freeze (s : State) (tag : Nat) : State :=
  let hs := s.tenantHarts tag
  let s1 := hs.foldl (fun t h =>
    match h.slot with
    | some i => t.unbind h.core i
    | none => t) s
  let s2 := hs.foldl (fun t h => t.saveLanes h.core (fun e => e.2 == h.hid + 1)) s1
  ((s2.leasesOf tag).foldl State.endLease s2).setTenant tag (fun t => { t with st := 2 })

/-- A region freed (R423), as `creg.free` does. -/
def State.releaseRegion (s : State) (e : Nat × Option Region) : State :=
  match e.2 with
  | some r => s.freeRegionAt e.1 r
  | none => s

/-- The bytes of a tile zeroed. -/
def State.zeroTile (s : State) (core n : Nat) : State :=
  let lo := locScratch core (n * 65536)
  let out : Nat → Bool := fun loc => loc < lo || lo + 65536 ≤ loc
  { s with mem := s.mem.filter (fun e => out e.1), psn := s.psn.filter (fun e => out e.1), ecc := s.ecc.filter (fun e => out e.1),
           keys := s.keys.filter (fun e => out e.1) }

/-- The tiles and weight slots of a tenant on a core given up (R423). -/
def State.releaseCore (s : State) (tag core : Nat) : State :=
  let ts := ((s.core core).tiles.filter (fun t => t.2.tag = tag)).map (fun t => t.1)
  let s1 := ts.foldl (fun u n => u.zeroTile core n) s
  s1.setCore core (fun c => { c with tiles := c.tiles.filter (fun t => t.2.tag ≠ tag),
                                     slots := c.slots.filter (fun t => t.2.tag ≠ tag) })

/-- A partition entry of a tenant removed. -/
def dropEntry (tag e : Nat) : Nat := if pmV e && pmTag e = tag then 0 else e

/-- A partition register of four entries. -/
def pmapWord (l : List Nat) : Word := word (packBits 16 l)

/-- The partition entries of a tenant on a core removed, with the zeroing of R414 (R423). -/
def State.releasePmap (s : State) (tag core : Nat) : State :=
  let old := (List.range 8).map (s.pmapEntry core)
  let new := old.map (dropEntry tag)
  (s.setCore core (fun c => { c with pmap := Tab.set 0 (Tab.set 0 c.pmap 0 (pmapWord (new.take 4))) 1 (pmapWord (new.drop 4)) })).saveLanes core
    (fun e => (movedGroups old new).contains e.1)

/-- The registers of a tenant that a release resets (R423). -/
def Tenant.release (t : Tenant) : Tenant :=
  { t with combq := 0, cpyq := 0, cmpq := 0, colq := 0, wm := 0, ptbase := 0, trbuf := 0, trctl := Tenant.reset.trctl, ftrig := 0,
           logOn := false, logAt := 0, logOvf := false, replay := false, dlOvf := false, dlEn := false, dlBase := 0, dlSize := Tenant.reset.dlSize,
           dlHead := 0, dlTail := 0, dbmp := 0, rbmp := 0, cnt := [], releasing := true }

/-- Steps 1 to 5 of a release (R423). -/
def State.release (s : State) (tag : Nat) : State :=
  let s1 := (s.tenantHarts tag).foldl (fun t h => t.endHart h.hid) s
  let mine := s1.regions.filter (fun e => (e.2.map (fun r => r.tag)) = some tag)
  let s2 := mine.foldl State.releaseRegion s1
  let objs := s2.objs.filterMap (fun e => e.2.bind (fun o => if o.tag = tag then some (e.1, o) else none))
  let s3 := objs.foldl (fun t e => t.endObject e.1 e.2) s2
  let s4 := (List.range Config.cores).foldl (fun t c => (t.releaseCore tag c).releasePmap tag c) s3
  { s4.setTenant tag Tenant.release with
    tlb := s4.tlb.filter (fun e => e.tag ≠ tag), alog := s4.alog.filter (fun a => a.tag ≠ tag) }

/-- A write of TENCFG in mode D (R410, R419): one with the same STATE sets the quotas in every state. Tag 0 has no block of its own. A
tenant becomes ACTIVE only in PHASE 7 (R450), with its key installed (R77). -/
def State.tencfgWrite (s : State) (tag : Nat) (v : Word) : State :=
  let x := v.toNat
  let t := s.tenant tag
  if tag = 0 || !tencfgOk x then s
  else if t.releasing then (if bits x 62 2 = t.st then s.setQuotas tag x else s)
  else
    match t.st, bits x 62 2 with
    | 0, 1 => if s.hub.phase = 7 then (s.setQuotas tag x).setTenant tag (fun t => { t with st := 1, key := true, keyGen := t.keyGen + 1 }) else s
    | 1, 3 => (s.setQuotas tag x).freeze tag
    | 3, 1 => (s.setQuotas tag x).setTenant tag (fun t => { t with st := 1 })
    | 3, 0 => (s.setQuotas tag x).release tag
    | a, b => if a = b then s.setQuotas tag x else s

/-- A TENCFG word with a requested STATE. -/
def withState (v : Word) (st : Nat) : Word := word (setBits v.toNat 62 2 st)

/-- `TENANT_ACTIVATE`, `TENANT_FREEZE`, `TENANT_THAW`, `TENANT_RELEASE` (R419): the writes of TENCFG that request them. -/
def execTenantActivate (tag : Nat) (v : Word) (s : State) : Out := .next (s.ifAnswers (fun t => t.tencfgWrite tag (withState v 1)))
def execTenantFreeze (tag : Nat) (v : Word) (s : State) : Out := .next (s.ifAnswers (fun t => t.tencfgWrite tag (withState v 3)))
def execTenantThaw (tag : Nat) (v : Word) (s : State) : Out :=
  .next (if s.answers && (s.tenant tag).st = 3 then s.tencfgWrite tag (withState v 1) else s)
def execTenantRelease (tag : Nat) (v : Word) (s : State) : Out := .next (s.ifAnswers (fun t => t.tencfgWrite tag (withState v 0)))

/-- No hart of a tenant is bound, and no pre-emption of one is put off (R420). -/
def State.allUnbound (s : State) (tag : Nat) : Bool := (s.tenantHarts tag).all (fun h => h.slot.isNone && h.leaving.isNone)

/-- `TENANT_FROZEN` (R420): once every hart of the tenant is unbound. -/
def execTenantFrozen (tag : Nat) (s : State) : Out :=
  .next (if (s.tenant tag).st = 2 && s.allUnbound tag then s.setTenant tag (fun t => { t with st := 3 })
    else s)

/-- `TENANT_RELEASED` (R423): steps 6 and 7, and STATE reads FREE; a host send that still waits returns CLOSED (R457). -/
def execTenantReleased (tag : Nat) (s : State) : Out :=
  if !(s.tenant tag).releasing then .next s
  else
    let rob := s.rob.map (fun e => (e.1, if robTag e.2.toNat = tag && robValid e.2.toNat then clearedEntry e.2 else e.2))
    .next (({ s with rob := rob.filter (fun e => e.2 ≠ 0), allot := s.allot.filter (fun e => e.2 ≠ tag) }).setTenant tag
      (fun t => { t with st := 0, releasing := false, key := false,
                         hsres := if bits t.hsres.toNat 0 8 = 0xFF then plainStatus stCLOSED else t.hsres })
      |> fun u => { u with held := u.held.filter (fun fr => fr.tag ≠ tag) })

end Sys2Proof.Machine
end

