-- ==== Sys2Proof/Machine/Cfg.lean ====
section
/-! DEFINITION. Control registers: `cfgrd` and `cfgwr` (major 0x17; R299-R302 and the layouts that R300 names). -/

namespace Sys2Proof.Machine

/-- VCFG as read (R181). -/
def Hart.vcfgWord (h : Hart) : Word := word (h.lp * 2 ^ 16 + h.lanes * 2 ^ 8 + h.nrc.toNat)

/-- QCFG as read: K is that of the selected entry (R247, R248). -/
def qK (ent : Nat) : Nat := [1, 2, 39, 26, 22, 4, 3, 3].getD ent 1
def qcfgWord (q : Word) : Word := word (q.toNat + qK (bits q.toNat 0 4) * 2 ^ 16)

/-- MWSn (R265). -/
def WSlot.regWord (m : WSlot) : Word :=
  word (m.tag * 2 ^ 32 + m.fmt * 2 ^ 20 + m.layout * 2 ^ 18 + m.sig * 2 ^ 8 + m.psn.toNat * 4 + m.st)

/-- A weight slot of a core. -/
def State.wslot (s : State) (core n : Nat) : WSlot := Tab.get WSlot.reset (s.core core).slots n

/-- The index names a control register (R300). -/
def cfgKnown (i : Nat) : Bool :=
  i ≤ 0x003 || (0x010 ≤ i && i ≤ 0x012) || (0x020 ≤ i && i ≤ 0x022) || i == 0x030 || i == 0x031 || (0x040 ≤ i && i ≤ 0x044) ||
    i == 0x050 || i == 0x051 || (0x060 ≤ i && i ≤ 0x063) || (0x070 ≤ i && i ≤ 0x074) || i == 0x080 || (0x090 ≤ i && i ≤ 0x093) ||
    (0x100 ≤ i && i ≤ 0x1FF)

/-- The read of a register needs mode S or D (R300). -/
def cfgReadS (i : Nat) : Bool := (0x040 ≤ i && i ≤ 0x044) || i == 0x080 || 0x100 ≤ i

/-- The tenant window as a hart reads it (R421): the host's registers and reserved ones read 0. -/
def State.windowRead (s : State) (tag off : Nat) : Word :=
  if 0x400 ≤ off && off < 0x600 then 0 else (s.vfRead tag off).getD 0

/-- The value of a control register for the hart in hand (R300). -/
def State.cfgValue (s : State) (i : Nat) : Word :=
  let h := s.h
  match i with
  | 0x000 => h.seen.vl
  | 0x001 => h.seen.vtype
  | 0x002 => h.vcfgWord
  | 0x003 => h.ecut
  | 0x010 => h.fxf
  | 0x011 => qcfgWord h.qcfg
  | 0x012 => h.dscale
  | 0x020 => h.iwl
  | 0x021 => h.maxwait
  | 0x022 => word s.gtb
  | 0x030 => word h.hid
  | 0x031 => word h.tid
  | 0x040 => h.tvec
  | 0x041 => h.tcause
  | 0x042 => h.tval
  | 0x043 => h.tepc
  | 0x044 => h.tstat
  | 0x050 => h.rchk.zeroExtend 64
  | 0x051 => word s.hub.split
  | 0x060 => word s.hub.feat0
  | 0x070 => Tab.get 0 h.seen.rngk 0
  | 0x071 => Tab.get 0 h.seen.rngk 1
  | 0x072 => Tab.get 0 h.seen.rngk 2
  | 0x073 => Tab.get 0 h.seen.rngk 3
  | 0x074 => h.seen.rngc
  | 0x080 => h.frecp
  | _ =>
    if 0x090 ≤ i && i ≤ 0x093 then (s.wslot h.core (i - 0x090)).regWord
    else if 0x100 ≤ i then s.windowRead h.tid ((i - 0x100) * 8) else 0

/-- The register belongs to the vector context, whose ownership an access needs (R404). -/
def cfgVector (i : Nat) : Bool := i ≤ 0x001 || (0x070 ≤ i && i ≤ 0x074)

/-- The word of a `cfgrd` or `cfgwr` (R299). -/
def cfgWordOf (op : Nat) (d a : BitVec 5) (i : BitVec 12) : Word :=
  word (0x17 * 2 ^ 26 + d.toNat * 2 ^ 21 + a.toNat * 2 ^ 16 + op * 2 ^ 12 + i.toNat)

/-- `cfgrd` (R299-R301). -/
def execCfgrd (d : BitVec 5) (i : BitVec 12) (s : State) : Out :=
  let n := i.toNat
  if !cfgKnown n then .next (s.trap cILLOP (cfgWordOf 0 d 0 i))
  else if cfgReadS n && s.h.mode == .a then .next (s.trap cPROT (word n))
  else if cfgVector n && !s.h.released then s.withLanes s.h.pc (fun s1 => .next (s1.retire d (s1.cfgValue n)))
  else .next (s.retire d (s.cfgValue n))

/-! Writes -/

/-- What a write of a register answers: done, ignored, or a trap. -/
inductive CfgRes where
  | done (s : State)
  | ignored
  | trap (cause : Nat)
deriving DecidableEq, Repr

/-- A write that sets a hart's field when its value is legal, else ILLCFG. -/
def CfgRes.hart (s : State) (ok : Bool) (f : Hart → Hart) : CfgRes := if ok then .done (s.setH f) else .trap cILLCFG

/-- A read-only register (R6, R181): a nonzero reserved field raises ILLCFG (R7), the rest is ignored. -/
def readOnly (v rsv : Nat) : CfgRes := if v &&& rsv = 0 then .ignored else .trap cILLCFG

/-- The least mode that may write a register (R300): 0 A, 1 S, 2 D. -/
def cfgWriteMode (i : Nat) : Nat :=
  if i = 0x003 || i = 0x020 || (0x040 ≤ i && i ≤ 0x044) || i = 0x050 || i = 0x080 || 0x100 ≤ i then 1
  else if i = 0x021 || i = 0x051 || (0x060 ≤ i && i ≤ 0x063) then 2 else 0

/-- The reserved bits of a VF register that takes a write. -/
def windowRsv (off : Nat) : Word := ~~~vfMask off

/-- A write of the tenant window (R421): the host's registers raise PROT; what the VF window ignores is ignored. Reserved bits raise
ILLCFG (R7). -/
def State.windowWrite (s : State) (off : Nat) (v : Word) : CfgRes :=
  if 0x400 ≤ off && off < 0x600 then .trap cPROT
  else if off = 0x100 || off = 0x108 || off = 0x300 || off = 0x308 || off = 0x310 || off = 0x600 then
    (if v &&& windowRsv off = 0 then .done (s.vfWrite s.h.tid off v) else .trap cILLCFG)
  else .ignored

/-- A key or counter of VRAND written: the value is there for every later block, and the forager sees it (R243). -/
def Hart.setRng (h : Hart) (n : Nat) (v : Word) : Hart :=
  let snap : Snap → Snap := fun x => if n = 4 then { x with rngc := v } else { x with rngk := Tab.set 0 x.rngk n v }
  { h with vx := if n = 4 then { h.vx with rngc := v } else { h.vx with rngk := Tab.set 0 h.vx.rngk n v },
           seen := snap h.seen, lastSnap := h.lastSnap.map snap, replies := h.replies.map (fun e => (e.1, e.2.map snap)) }

/-- A write of a register that the mode admits (R300, R301). -/
def State.cfgSet (s : State) (i : Nat) (v : Word) : CfgRes :=
  let x := v.toNat
  match i with
  | 0x000 => readOnly x (2 ^ 64 - 2 ^ 17)
  | 0x001 => readOnly x (2 ^ 63 - 2 ^ 8)
  | 0x002 => readOnly x (2 ^ 64 - 2 ^ 24 + 0xFC)
  | 0x003 => .hart s (x < 2 ^ 17) (fun h => { h with ecut := v })
  | 0x010 => .hart s (bits x 29 35 = 0 && bits x 19 5 = 0 && bits x 10 6 = 0 && bits x 16 3 < 5) (fun h => { h with fxf := v })
  | 0x011 => .hart s (bits x 22 42 = 0 && bits x 10 6 = 0 && bits x 4 4 = 0 && bits x 0 4 < 8)
      (fun h => { h with qcfg := word (setBits x 16 6 0) })
  | 0x012 => .hart s (x < 2 ^ 8) (fun h => { h with dscale := v })
  | 0x020 => .hart s (1 ≤ x && x < 2 ^ 32) (fun h => { h with iwl := v })
  | 0x021 => .hart s (1 ≤ x && x ≤ 60000000000) (fun h => { h with maxwait := v })
  | 0x040 => .hart s (bits x 0 2 = 0 || (bits x 0 2 = 1 && bits x 2 4 = 0)) (fun h => { h with tvec := v })
  | 0x041 => .hart s (x < 2 ^ 8) (fun h => { h with tcause := v })
  | 0x042 => .hart s true (fun h => { h with tval := v })
  | 0x043 => .hart s true (fun h => { h with tepc := v })
  | 0x044 => .hart s (x < 2 ^ 3 && bits x 0 2 < 3) (fun h => { h with tstat := v })
  | 0x050 => .hart s (x < 3 && (x ≠ 2 || bit s.hub.feat0 2)) (fun h => { h with rchk := BitVec.ofNat 2 x })
  | 0x051 => if s.hub.phase = 6 && x < 2 ^ 6 then .done (s.setHub (fun b => { b with split := x })) else .trap cILLCFG
  | 0x060 =>
    if s.hub.phase = 6 then .done (s.setHub (fun b => { b with feat0 := x &&& 0x3F, featSet := true })) else .trap cILLCFG
  | 0x061 => if s.hub.phase = 6 then .done s else .trap cILLCFG
  | 0x062 => if s.hub.phase = 6 then .done s else .trap cILLCFG
  | 0x063 => if s.hub.phase = 6 then .done s else .trap cILLCFG
  | 0x080 => .hart s true (fun h => { h with frecp := v })
  | _ => if 0x070 ≤ i && i ≤ 0x074 then .done (s.setH (fun h => h.setRng (i - 0x070) v))
         else if 0x100 ≤ i then s.windowWrite ((i - 0x100) * 8) v else .trap cILLCFG

/-- The outcome of a write for the instruction: TVAL of a trap is the index (R392). -/
def State.cfgEnd (s : State) (i : Nat) : CfgRes → Out
  | .done t => .next t.retire0
  | .ignored => .next s.retire0
  | .trap c => .next (s.trap c (word i))

/-- A write of a vector-side register (R243, R397, R398): it meets a stopped vector side, and waits for an idle one. -/
def State.cfgRng (s : State) (i : Nat) (v : Word) : Out :=
  s.meetsTrap (
    if s.h.vectorBusy then .next s.stallVector
    else if s.h.released then s.cfgEnd i (s.cfgSet i v)
    else s.withLanes s.h.pc (fun s1 => s1.cfgEnd i (s1.cfgSet i v)))

/-- `cfgwr` (R299-R301). -/
def execCfgwr (a : BitVec 5) (i : BitVec 12) (s : State) : Out :=
  let n := i.toNat
  let v := s.xr a
  if !cfgKnown n then .next (s.trap cILLOP (cfgWordOf 1 0 a i))
  else if s.h.mode.code < cfgWriteMode n then .next (s.trap cPROT (word n))
  else if 0x070 ≤ n && n ≤ 0x074 then s.cfgRng n v
  else if n ≤ 0x001 && !s.h.released then s.withLanes s.h.pc (fun s1 => s1.cfgEnd n (s1.cfgSet n v))
  else s.cfgEnd n (s.cfgSet n v)

end Sys2Proof.Machine
end

