-- ==== Sys2Proof/Machine/Vint.lean ====
section
/-! DEFINITION. Integer, logic, bit-string, cross-lane and mask instructions (majors 0x29 to 0x2F; R209-R229). Each reads all of its
sources before it writes (R211). -/

namespace Sys2Proof.Machine

/-- The integer class without e4 (R210). -/
def mulType (y sw : BitVec 3) : Bool := y == 0 && sw != 4

/-- An element-wise instruction: a function of the width and of two operands (R213). -/
def ewise (n : Hart → Need) (f : Nat → Nat → Nat → Nat × Nat) (d m : Nat) (a b : Hart → VOpnd) (s : State) : Out :=
  s.vissue n (s.toVec d (s.h.results m (bin (f s.h.sew) (a s.h) (b s.h))))

/-- A compare: a condition on the width and two operands (R217). -/
def compare (n : Hart → Need) (f : Nat → Nat → Nat → Bool) (md m : Nat) (a b : Hart → VOpnd) (s : State) : Out :=
  s.vissue n (s.toMask md (s.h.results m (cond (fun x y => (f s.h.sew x y, 0)) (a s.h) (b s.h))))

/-! Functions of the width and two operands -/

/-- An exact integer result, wrapped (R213). -/
def wrap (w : Nat) (x : Int) : Nat × Nat := (unsg x w, 0)

/-- An integer saturated to a range: IS when it changed (R213). -/
def satTo (w : Nat) (lo hi x : Int) : Nat × Nat := (unsg (clamp x lo hi) w, if clamp x lo hi = x then 0 else flIS)

/-- The signed and the unsigned range of a width. -/
def satS (w : Nat) (x : Int) : Nat × Nat := satTo w (-(2 ^ (w - 1) : Nat)) ((2 ^ (w - 1) : Nat) - 1) x
def satU (w : Nat) (x : Int) : Nat × Nat := satTo w 0 ((2 ^ w : Nat) - 1) x

def iAdd (w a b : Nat) : Nat × Nat := wrap w ((a : Int) + b)
def iSub (w a b : Nat) : Nat × Nat := wrap w ((a : Int) - b)
def iRsub (w a b : Nat) : Nat × Nat := wrap w ((b : Int) - a)
def iMul (w a b : Nat) : Nat × Nat := wrap w ((a : Int) * b)
/-- The high halves: division by 2^w rounds toward minus infinity (R213). -/
def iMulh (w a b : Nat) : Nat × Nat := wrap w (sgn a w * sgn b w / (2 ^ w : Nat))
def iMulhu (w a b : Nat) : Nat × Nat := wrap w ((a : Int) * b / (2 ^ w : Nat))
def iMulhsu (w a b : Nat) : Nat × Nat := wrap w (sgn a w * b / (2 ^ w : Nat))
def iSadd (w a b : Nat) : Nat × Nat := satS w (sgn a w + sgn b w)
def iSaddu (w a b : Nat) : Nat × Nat := satU w ((a : Int) + b)
def iSsub (w a b : Nat) : Nat × Nat := satS w (sgn a w - sgn b w)
def iSsubu (w a b : Nat) : Nat × Nat := satU w ((a : Int) - b)
def iAnd (_ a b : Nat) : Nat × Nat := (a &&& b, 0)
def iOr (_ a b : Nat) : Nat × Nat := (a ||| b, 0)
def iXor (_ a b : Nat) : Nat × Nat := (a ^^^ b, 0)
def iAndn (w a b : Nat) : Nat × Nat := (a &&& (2 ^ w - 1 - b), 0)
def iMin (w a b : Nat) : Nat × Nat := (if sgn b w < sgn a w then b else a, 0)
def iMinu (_ a b : Nat) : Nat × Nat := (if b < a then b else a, 0)
def iMax (w a b : Nat) : Nat × Nat := (if sgn a w < sgn b w then b else a, 0)
def iMaxu (_ a b : Nat) : Nat × Nat := (if a < b then b else a, 0)
/-- Shifts by b mod SEW (R216). -/
def iSll (w a b : Nat) : Nat × Nat := wrap w ((a * 2 ^ (b % w) : Nat) : Int)
def iSrl (w a b : Nat) : Nat × Nat := (a / 2 ^ (b % w), 0)
def iSra (w a b : Nat) : Nat × Nat := wrap w (sgn a w / (2 ^ (b % w) : Nat))
/-- The per-element bit operations, which have one operand (R220). -/
def iPopc (w a _b : Nat) : Nat × Nat := (popcount w a % 2 ^ w, 0)
def iClz (w a _b : Nat) : Nat × Nat := ((w - bitLen a) % 2 ^ w, 0)
def iCtz (w a _b : Nat) : Nat × Nat := (((lowestBit w a).getD w) % 2 ^ w, 0)
def revBits : Nat → Nat → Nat
  | 0, _ => 0
  | w + 1, a => a % 2 * 2 ^ w + revBits w (a / 2)
def iBrev (w a _b : Nat) : Nat × Nat := (revBits w a, 0)

/-! Majors 0x29 to 0x2B -/

def execVaddVv (_ : BitVec 1) (d a b : BitVec 6) (m : BitVec 3) (s : State) : Out :=
  ewise (need3 intType d.toNat a.toNat b.toNat) iAdd d.toNat m.toNat (fun h => h.opV a.toNat) (fun h => h.opV b.toNat) s
def execVaddVi (_ : BitVec 1) (d a i : BitVec 6) (m : BitVec 3) (s : State) : Out :=
  ewise (need2 intType d.toNat a.toNat) iAdd d.toNat m.toNat (fun h => h.opV a.toNat) (fun h => h.opI i) s
def execVaddVx (_ : BitVec 1) (d a x : BitVec 6) (m : BitVec 3) (s : State) : Out :=
  ewise (need2 intType d.toNat a.toNat) iAdd d.toNat m.toNat (fun h => h.opV a.toNat) (fun h => h.opX x.toNat) s
def execVsubVv (_ : BitVec 1) (d a b : BitVec 6) (m : BitVec 3) (s : State) : Out :=
  ewise (need3 intType d.toNat a.toNat b.toNat) iSub d.toNat m.toNat (fun h => h.opV a.toNat) (fun h => h.opV b.toNat) s
def execVsubVx (_ : BitVec 1) (d a x : BitVec 6) (m : BitVec 3) (s : State) : Out :=
  ewise (need2 intType d.toNat a.toNat) iSub d.toNat m.toNat (fun h => h.opV a.toNat) (fun h => h.opX x.toNat) s
def execVrsubVx (_ : BitVec 1) (d a x : BitVec 6) (m : BitVec 3) (s : State) : Out :=
  ewise (need2 intType d.toNat a.toNat) iRsub d.toNat m.toNat (fun h => h.opV a.toNat) (fun h => h.opX x.toNat) s
def execVrsubVi (_ : BitVec 1) (d a i : BitVec 6) (m : BitVec 3) (s : State) : Out :=
  ewise (need2 intType d.toNat a.toNat) iRsub d.toNat m.toNat (fun h => h.opV a.toNat) (fun h => h.opI i) s
def execVmulVv (_ : BitVec 1) (d a b : BitVec 6) (m : BitVec 3) (s : State) : Out :=
  ewise (need3 mulType d.toNat a.toNat b.toNat) iMul d.toNat m.toNat (fun h => h.opV a.toNat) (fun h => h.opV b.toNat) s
def execVmulVx (_ : BitVec 1) (d a x : BitVec 6) (m : BitVec 3) (s : State) : Out :=
  ewise (need2 mulType d.toNat a.toNat) iMul d.toNat m.toNat (fun h => h.opV a.toNat) (fun h => h.opX x.toNat) s
def execVmulh (_ : BitVec 1) (d a b : BitVec 6) (m : BitVec 3) (s : State) : Out :=
  ewise (need3 mulType d.toNat a.toNat b.toNat) iMulh d.toNat m.toNat (fun h => h.opV a.toNat) (fun h => h.opV b.toNat) s
def execVmulhuVv (_ : BitVec 1) (d a b : BitVec 6) (m : BitVec 3) (s : State) : Out :=
  ewise (need3 mulType d.toNat a.toNat b.toNat) iMulhu d.toNat m.toNat (fun h => h.opV a.toNat) (fun h => h.opV b.toNat) s
def execVmulhuVx (_ : BitVec 1) (d a x : BitVec 6) (m : BitVec 3) (s : State) : Out :=
  ewise (need2 mulType d.toNat a.toNat) iMulhu d.toNat m.toNat (fun h => h.opV a.toNat) (fun h => h.opX x.toNat) s
def execVmulhsu (_ : BitVec 1) (d a b : BitVec 6) (m : BitVec 3) (s : State) : Out :=
  ewise (need3 mulType d.toNat a.toNat b.toNat) iMulhsu d.toNat m.toNat (fun h => h.opV a.toNat) (fun h => h.opV b.toNat) s
def execVsadd (_ : BitVec 1) (d a b : BitVec 6) (m : BitVec 3) (s : State) : Out :=
  ewise (need3 intType d.toNat a.toNat b.toNat) iSadd d.toNat m.toNat (fun h => h.opV a.toNat) (fun h => h.opV b.toNat) s
def execVsaddu (_ : BitVec 1) (d a b : BitVec 6) (m : BitVec 3) (s : State) : Out :=
  ewise (need3 intType d.toNat a.toNat b.toNat) iSaddu d.toNat m.toNat (fun h => h.opV a.toNat) (fun h => h.opV b.toNat) s
def execVssub (_ : BitVec 1) (d a b : BitVec 6) (m : BitVec 3) (s : State) : Out :=
  ewise (need3 intType d.toNat a.toNat b.toNat) iSsub d.toNat m.toNat (fun h => h.opV a.toNat) (fun h => h.opV b.toNat) s
def execVandVv (_ : BitVec 1) (d a b : BitVec 6) (m : BitVec 3) (s : State) : Out :=
  ewise (need3 anyType d.toNat a.toNat b.toNat) iAnd d.toNat m.toNat (fun h => h.opV a.toNat) (fun h => h.opV b.toNat) s
def execVandVx (_ : BitVec 1) (d a x : BitVec 6) (m : BitVec 3) (s : State) : Out :=
  ewise (need2 anyType d.toNat a.toNat) iAnd d.toNat m.toNat (fun h => h.opV a.toNat) (fun h => h.opX x.toNat) s
def execVorVv (_ : BitVec 1) (d a b : BitVec 6) (m : BitVec 3) (s : State) : Out :=
  ewise (need3 anyType d.toNat a.toNat b.toNat) iOr d.toNat m.toNat (fun h => h.opV a.toNat) (fun h => h.opV b.toNat) s
def execVorVx (_ : BitVec 1) (d a x : BitVec 6) (m : BitVec 3) (s : State) : Out :=
  ewise (need2 anyType d.toNat a.toNat) iOr d.toNat m.toNat (fun h => h.opV a.toNat) (fun h => h.opX x.toNat) s
def execVxorVv (_ : BitVec 1) (d a b : BitVec 6) (m : BitVec 3) (s : State) : Out :=
  ewise (need3 anyType d.toNat a.toNat b.toNat) iXor d.toNat m.toNat (fun h => h.opV a.toNat) (fun h => h.opV b.toNat) s
def execVxorVi (_ : BitVec 1) (d a i : BitVec 6) (m : BitVec 3) (s : State) : Out :=
  ewise (need2 anyType d.toNat a.toNat) iXor d.toNat m.toNat (fun h => h.opV a.toNat) (fun h => h.opI i) s
def execVxorVx (_ : BitVec 1) (d a x : BitVec 6) (m : BitVec 3) (s : State) : Out :=
  ewise (need2 anyType d.toNat a.toNat) iXor d.toNat m.toNat (fun h => h.opV a.toNat) (fun h => h.opX x.toNat) s
def execVandn (_ : BitVec 1) (d a b : BitVec 6) (m : BitVec 3) (s : State) : Out :=
  ewise (need3 anyType d.toNat a.toNat b.toNat) iAndn d.toNat m.toNat (fun h => h.opV a.toNat) (fun h => h.opV b.toNat) s

/-- `vmerge` (R215): the mask selects, and every element below VL is written. -/
def merge (n : Hart → Need) (d m : Nat) (a b : Hart → VOpnd) (s : State) : Out :=
  s.vissue n (s.toVec d (s.h.results 0 (fun e =>
    let x := if s.h.active m e then b s.h e else a s.h e
    { val := x.1, bad := x.2, fl := 0 })))

def execVmergeVv (_ : BitVec 1) (d a b : BitVec 6) (m : BitVec 3) (s : State) : Out :=
  merge (need3 anyType d.toNat a.toNat b.toNat) d.toNat m.toNat (fun h => h.opV a.toNat) (fun h => h.opV b.toNat) s
def execVmergeVx (_ : BitVec 1) (d a x : BitVec 6) (m : BitVec 3) (s : State) : Out :=
  merge (need2 anyType d.toNat a.toNat) d.toNat m.toNat (fun h => h.opV a.toNat) (fun h => h.opX x.toNat) s
def execVmergeVi (_ : BitVec 1) (d a i : BitVec 6) (m : BitVec 3) (s : State) : Out :=
  merge (need2 anyType d.toNat a.toNat) d.toNat m.toNat (fun h => h.opV a.toNat) (fun h => h.opI i) s
def execVmin (_ : BitVec 1) (d a b : BitVec 6) (m : BitVec 3) (s : State) : Out :=
  ewise (need3 intType d.toNat a.toNat b.toNat) iMin d.toNat m.toNat (fun h => h.opV a.toNat) (fun h => h.opV b.toNat) s
def execVminu (_ : BitVec 1) (d a b : BitVec 6) (m : BitVec 3) (s : State) : Out :=
  ewise (need3 intType d.toNat a.toNat b.toNat) iMinu d.toNat m.toNat (fun h => h.opV a.toNat) (fun h => h.opV b.toNat) s
def execVmax (_ : BitVec 1) (d a b : BitVec 6) (m : BitVec 3) (s : State) : Out :=
  ewise (need3 intType d.toNat a.toNat b.toNat) iMax d.toNat m.toNat (fun h => h.opV a.toNat) (fun h => h.opV b.toNat) s
def execVmaxu (_ : BitVec 1) (d a b : BitVec 6) (m : BitVec 3) (s : State) : Out :=
  ewise (need3 intType d.toNat a.toNat b.toNat) iMaxu d.toNat m.toNat (fun h => h.opV a.toNat) (fun h => h.opV b.toNat) s
def execVssubu (_ : BitVec 1) (d a b : BitVec 6) (m : BitVec 3) (s : State) : Out :=
  ewise (need3 intType d.toNat a.toNat b.toNat) iSsubu d.toNat m.toNat (fun h => h.opV a.toNat) (fun h => h.opV b.toNat) s
def execVsllVv (_ : BitVec 1) (d a b : BitVec 6) (m : BitVec 3) (s : State) : Out :=
  ewise (need3 intType d.toNat a.toNat b.toNat) iSll d.toNat m.toNat (fun h => h.opV a.toNat) (fun h => h.opV b.toNat) s
def execVsllVi (_ : BitVec 1) (d a : BitVec 6) (i : BitVec 5) (m : BitVec 3) (s : State) : Out :=
  ewise (need2 intType d.toNat a.toNat) iSll d.toNat m.toNat (fun h => h.opV a.toNat) (fun _ => opC i.toNat) s
def execVsrlVv (_ : BitVec 1) (d a b : BitVec 6) (m : BitVec 3) (s : State) : Out :=
  ewise (need3 intType d.toNat a.toNat b.toNat) iSrl d.toNat m.toNat (fun h => h.opV a.toNat) (fun h => h.opV b.toNat) s
def execVsrlVi (_ : BitVec 1) (d a : BitVec 6) (i : BitVec 5) (m : BitVec 3) (s : State) : Out :=
  ewise (need2 intType d.toNat a.toNat) iSrl d.toNat m.toNat (fun h => h.opV a.toNat) (fun _ => opC i.toNat) s
def execVsraVv (_ : BitVec 1) (d a b : BitVec 6) (m : BitVec 3) (s : State) : Out :=
  ewise (need3 intType d.toNat a.toNat b.toNat) iSra d.toNat m.toNat (fun h => h.opV a.toNat) (fun h => h.opV b.toNat) s
def execVsraVi (_ : BitVec 1) (d a : BitVec 6) (i : BitVec 5) (m : BitVec 3) (s : State) : Out :=
  ewise (need2 intType d.toNat a.toNat) iSra d.toNat m.toNat (fun h => h.opV a.toNat) (fun _ => opC i.toNat) s

/-- The conditions of R216. -/
def cEq (_ a b : Nat) : Bool := a == b
def cNe (_ a b : Nat) : Bool := a != b
def cLt (w a b : Nat) : Bool := sgn a w < sgn b w
def cLtu (_ a b : Nat) : Bool := a < b
def cLe (w a b : Nat) : Bool := sgn a w ≤ sgn b w
def cLeu (_ a b : Nat) : Bool := a ≤ b
def cGt (w a b : Nat) : Bool := sgn b w < sgn a w
def cGtu (_ a b : Nat) : Bool := b < a

def execVmseqVv (_ : BitVec 1) (d : BitVec 3) (a b : BitVec 6) (m : BitVec 3) (s : State) : Out :=
  compare (needM2 intType d.toNat a.toNat b.toNat) cEq d.toNat m.toNat (fun h => h.opV a.toNat) (fun h => h.opV b.toNat) s
def execVmseqVx (_ : BitVec 1) (d : BitVec 3) (a x : BitVec 6) (m : BitVec 3) (s : State) : Out :=
  compare (needM1 intType d.toNat a.toNat) cEq d.toNat m.toNat (fun h => h.opV a.toNat) (fun h => h.opX x.toNat) s
def execVmsne (_ : BitVec 1) (d : BitVec 3) (a b : BitVec 6) (m : BitVec 3) (s : State) : Out :=
  compare (needM2 intType d.toNat a.toNat b.toNat) cNe d.toNat m.toNat (fun h => h.opV a.toNat) (fun h => h.opV b.toNat) s
def execVmslt (_ : BitVec 1) (d : BitVec 3) (a b : BitVec 6) (m : BitVec 3) (s : State) : Out :=
  compare (needM2 intType d.toNat a.toNat b.toNat) cLt d.toNat m.toNat (fun h => h.opV a.toNat) (fun h => h.opV b.toNat) s
def execVmsltuVv (_ : BitVec 1) (d : BitVec 3) (a b : BitVec 6) (m : BitVec 3) (s : State) : Out :=
  compare (needM2 intType d.toNat a.toNat b.toNat) cLtu d.toNat m.toNat (fun h => h.opV a.toNat) (fun h => h.opV b.toNat) s
def execVmsle (_ : BitVec 1) (d : BitVec 3) (a b : BitVec 6) (m : BitVec 3) (s : State) : Out :=
  compare (needM2 intType d.toNat a.toNat b.toNat) cLe d.toNat m.toNat (fun h => h.opV a.toNat) (fun h => h.opV b.toNat) s
def execVmsleu (_ : BitVec 1) (d : BitVec 3) (a b : BitVec 6) (m : BitVec 3) (s : State) : Out :=
  compare (needM2 intType d.toNat a.toNat b.toNat) cLeu d.toNat m.toNat (fun h => h.opV a.toNat) (fun h => h.opV b.toNat) s
def execVmsgt (_ : BitVec 1) (d : BitVec 3) (a x : BitVec 6) (m : BitVec 3) (s : State) : Out :=
  compare (needM1 intType d.toNat a.toNat) cGt d.toNat m.toNat (fun h => h.opV a.toNat) (fun h => h.opX x.toNat) s
def execVmsgtu (_ : BitVec 1) (d : BitVec 3) (a x : BitVec 6) (m : BitVec 3) (s : State) : Out :=
  compare (needM1 intType d.toNat a.toNat) cGtu d.toNat m.toNat (fun h => h.opV a.toNat) (fun h => h.opX x.toNat) s
def execVmsltuVx (_ : BitVec 1) (d : BitVec 3) (a x : BitVec 6) (m : BitVec 3) (s : State) : Out :=
  compare (needM1 intType d.toNat a.toNat) cLtu d.toNat m.toNat (fun h => h.opV a.toNat) (fun h => h.opX x.toNat) s

/-! Bit strings (major 0x2C) -/

/-- The bits of the first `n` elements of a group as one number, element 0 lowest, and those of poisoned elements (R219). -/
def Hart.str (h : Hart) (r : Nat) : Nat → Nat × Nat
  | 0 => (0, 0)
  | n + 1 =>
    let p := h.str r n
    let x := h.opV r n
    (p.1 + x.1 * 2 ^ (n * h.sew), p.2 + (if x.2 then (2 ^ h.sew - 1) * 2 ^ (n * h.sew) else 0))

/-- The shifts of R219 on strings of `n` bits by k' = min(k, n): A, and D for the funnel forms. -/
def strLeft (n k a d : Nat) : Nat := a * 2 ^ k % 2 ^ n + d / 2 ^ (n - k)
def strRight (n k a d : Nat) : Nat := a / 2 ^ k + d % 2 ^ k * 2 ^ (n - k)

/-- A bit-string instruction (R219): the shift, the count, and whether vd feeds it. -/
def bitString (f : Nat → Nat → Nat → Nat → Nat) (funnel : Bool) (d a k : Nat) (s : State) : Out :=
  let h := s.h
  let w := h.sew
  let n := h.vx.vl * w
  let x := h.str a h.vx.vl
  let y := if funnel then h.str d h.vx.vl else (0, 0)
  let v := f n (min k n) x.1 y.1
  let p := f n (min k n) x.2 y.2
  s.toVec d (h.results 0 (fun e => { val := bits v (e * w) w, bad := bits p (e * w) w != 0, fl := 0 }))

def execVbslVx (_ : BitVec 1) (d a x : BitVec 6) (s : State) : Out :=
  s.vissue (need2d anyType d.toNat a.toNat) (bitString strLeft false d.toNat a.toNat (s.h.code x.toNat).toNat s)
def execVbslVi (_ : BitVec 1) (d a : BitVec 6) (i : BitVec 5) (s : State) : Out :=
  s.vissue (need2d anyType d.toNat a.toNat) (bitString strLeft false d.toNat a.toNat i.toNat s)
def execVbsrVx (_ : BitVec 1) (d a x : BitVec 6) (s : State) : Out :=
  s.vissue (need2d anyType d.toNat a.toNat) (bitString strRight false d.toNat a.toNat (s.h.code x.toNat).toNat s)
def execVbsrVi (_ : BitVec 1) (d a : BitVec 6) (i : BitVec 5) (s : State) : Out :=
  s.vissue (need2d anyType d.toNat a.toNat) (bitString strRight false d.toNat a.toNat i.toNat s)
def execVfsl (_ : BitVec 1) (d a x : BitVec 6) (s : State) : Out :=
  s.vissue (need2d anyType d.toNat a.toNat) (bitString strLeft true d.toNat a.toNat (s.h.code x.toNat).toNat s)
def execVfsr (_ : BitVec 1) (d a x : BitVec 6) (s : State) : Out :=
  s.vissue (need2d anyType d.toNat a.toNat) (bitString strRight true d.toNat a.toNat (s.h.code x.toNat).toNat s)
def execVpopc (_ : BitVec 1) (d a : BitVec 6) (m : BitVec 3) (s : State) : Out :=
  ewise (need2 intType d.toNat a.toNat) iPopc d.toNat m.toNat (fun h => h.opV a.toNat) (fun _ => opC 0) s
def execVclz (_ : BitVec 1) (d a : BitVec 6) (m : BitVec 3) (s : State) : Out :=
  ewise (need2 intType d.toNat a.toNat) iClz d.toNat m.toNat (fun h => h.opV a.toNat) (fun _ => opC 0) s
def execVctz (_ : BitVec 1) (d a : BitVec 6) (m : BitVec 3) (s : State) : Out :=
  ewise (need2 intType d.toNat a.toNat) iCtz d.toNat m.toNat (fun h => h.opV a.toNat) (fun _ => opC 0) s
def execVbrev (_ : BitVec 1) (d a : BitVec 6) (m : BitVec 3) (s : State) : Out :=
  ewise (need2 intType d.toNat a.toNat) iBrev d.toNat m.toNat (fun h => h.opV a.toNat) (fun _ => opC 0) s

/-! Permutes (major 0x2D) -/

/-- Element `i` of a group, or 0 unpoisoned when `i` is not below VL. -/
def Hart.elOr0 (h : Hart) (a i : Nat) : ERes :=
  if i < h.vx.vl then { val := (h.opV a i).1, bad := (h.opV a i).2, fl := 0 } else ERes.clean 0

/-- The exchange of R222. -/
def vxch (d a m k : Nat) (s : State) : Out := s.toVec d (s.h.results m (fun e => s.h.elOr0 a (e ^^^ k)))

/-- The slides of R222: up leaves the elements below k. -/
def vslideup (d a m k : Nat) (s : State) : Out :=
  s.toVec d (((s.h.results m (fun e => s.h.elOr0 a (e - k)))).filter (fun e => k ≤ e.1))
def vslidedn (d a m k : Nat) (s : State) : Out := s.toVec d (s.h.results m (fun e => s.h.elOr0 a (e + k)))

def execVxchVx (_ : BitVec 1) (d a x : BitVec 6) (m : BitVec 3) (s : State) : Out :=
  s.vissue (need2d anyType d.toNat a.toNat) (vxch d.toNat a.toNat m.toNat (s.h.code x.toNat).toNat s)
def execVxchVi (_ : BitVec 1) (d a : BitVec 6) (i : BitVec 4) (m : BitVec 3) (s : State) : Out :=
  s.vissue (need2d anyType d.toNat a.toNat) (vxch d.toNat a.toNat m.toNat (2 ^ i.toNat) s)
def execVslideupVx (_ : BitVec 1) (d a x : BitVec 6) (m : BitVec 3) (s : State) : Out :=
  s.vissue (need2d anyType d.toNat a.toNat) (vslideup d.toNat a.toNat m.toNat (s.h.code x.toNat).toNat s)
def execVslideupVi (_ : BitVec 1) (d a : BitVec 6) (i : BitVec 5) (m : BitVec 3) (s : State) : Out :=
  s.vissue (need2d anyType d.toNat a.toNat) (vslideup d.toNat a.toNat m.toNat i.toNat s)
def execVslidednVx (_ : BitVec 1) (d a x : BitVec 6) (m : BitVec 3) (s : State) : Out :=
  s.vissue (need2d anyType d.toNat a.toNat) (vslidedn d.toNat a.toNat m.toNat (s.h.code x.toNat).toNat s)
def execVslidednVi (_ : BitVec 1) (d a : BitVec 6) (i : BitVec 5) (m : BitVec 3) (s : State) : Out :=
  s.vissue (need2d anyType d.toNat a.toNat) (vslidedn d.toNat a.toNat m.toNat i.toNat s)

def execVslide1up (_ : BitVec 1) (d a x : BitVec 6) (m : BitVec 3) (s : State) : Out :=
  s.vissue (need2d anyType d.toNat a.toNat) (s.toVec d.toNat (s.h.results m.toNat (fun e =>
    if e = 0 then ERes.clean (s.h.opX x.toNat 0).1 else s.h.elOr0 a.toNat (e - 1))))

def execVslide1dn (_ : BitVec 1) (d a x : BitVec 6) (m : BitVec 3) (s : State) : Out :=
  s.vissue (need2d anyType d.toNat a.toNat) (s.toVec d.toNat (s.h.results m.toNat (fun e =>
    if e = s.h.vx.vl - 1 then ERes.clean (s.h.opX x.toNat 0).1 else s.h.elOr0 a.toNat (e + 1))))

/-- `vpull` with an index group (R223). -/
def execVpullVv (_ : BitVec 1) (d a b : BitVec 6) (m : BitVec 3) (s : State) : Out :=
  s.vissue (need3d anyType d.toNat a.toNat b.toNat) (s.toVec d.toNat (s.h.results m.toNat (fun e =>
    let i := s.h.opV b.toNat e
    let r := s.h.elOr0 a.toNat i.1
    { r with bad := r.bad || i.2 })))

def execVpullVx (_ : BitVec 1) (d a x : BitVec 6) (m : BitVec 3) (s : State) : Out :=
  s.vissue (need2d anyType d.toNat a.toNat) (s.toVec d.toNat (s.h.results m.toNat (fun _ =>
    s.h.elOr0 a.toNat (s.h.code x.toNat).toNat)))

/-- What a push gathers (R223): the winner of each destination element plus one, the destination elements at which unpoisoned sources
collided, and the elements dropped for a poisoned index. -/
structure Push where
  win : Tab Nat
  xc : List Nat
  drop : List Nat
deriving DecidableEq, Repr

/-- One source element of a push. -/
def Hart.pushOne (h : Hart) (a b : Nat) (p : Push) (e : Nat) : Push :=
  let i := h.opV b e
  if i.2 then { p with drop := e :: p.drop }
  else if i.1 < h.vx.vl then
    let old := Tab.get 0 p.win i.1
    let hit := old ≠ 0 && !(h.opV a e).2 && !(h.opV a (old - 1)).2
    { p with win := Tab.set 0 p.win i.1 (e + 1), xc := if hit then i.1 :: p.xc else p.xc }
  else p

/-- `vpush` (R223): the highest source index wins. A destination element whose vote failed sets no XC (R431); one that a poisoned source
wins does, as the definition has it (entry 72). -/
def execVpush (_ : BitVec 1) (d a b : BitVec 6) (m : BitVec 3) (s : State) : Out :=
  s.vissue (need3d anyType d.toNat a.toNat b.toNat) (
    let p := (s.h.actives m.toNat).foldl (s.h.pushOne a.toNat b.toNat) { win := [], xc := [], drop := [] }
    let l := s.h.voted (p.win.map (fun t => (t.1, s.h.elOr0 a.toNat (t.2 - 1))))
    let flags := s.h.voted (p.win.map (fun t => (t.1, { val := 0, bad := false, fl := if p.xc.contains t.1 then flXC else 0 })))
    s.laneDone flags (p.drop.foldl Hart.markPm (s.h.putEls s.h.sew d.toNat l)))

/-- `vcompress` (R224): the active elements in ascending order. -/
def execVcompress (_ : BitVec 1) (d a : BitVec 6) (m : BitVec 3) (s : State) : Out :=
  s.vissue (need2d anyType d.toNat a.toNat) (
    let l := s.h.actives m.toNat
    s.toVec d.toNat ((List.range l.length).map (fun i => (i, s.h.elOr0 a.toNat (l.getD i 0)))))

/-- `vextr` (R224). -/
def execVextr (_ : BitVec 1) (d : BitVec 4) (a x : BitVec 6) (s : State) : Out :=
  s.vissue (needCode a.toNat) (
    let i := s.h.code x.toNat
    let r := s.h.elOr0 a.toNat i.toNat
    if r.bad then .next (s.drainRechecks.vtrap cSPOISON i 0) else s.codeDone d.toNat (word r.val) i)

/-! Reductions and scans (major 0x2E) -/

/-- An accumulator with its poison. -/
def accStep (f : Nat → Nat → Nat) (p x : Nat × Bool) : Nat × Bool := (f p.1 x.1, p.2 || x.2)

/-- A reduction (R225): nothing is written with VL = 0. -/
def reduce (f : Nat → Nat → Nat → Nat) (d a b m : Nat) (s : State) : Out :=
  s.vissue (needRed intType d a b) (
    if s.h.vx.vl = 0 then s.laneDone [] s.h
    else
      let r := (s.h.actives m).foldl (fun p e => accStep (f s.h.sew) p (s.h.opV a e)) (s.h.opV b 0)
      s.toVec d [(0, { val := r.1, bad := r.2, fl := 0 })])

/-- The exact sum of signed elements, saturated once (R225). -/
def execVredsums (_ : BitVec 1) (d a b : BitVec 6) (m : BitVec 3) (s : State) : Out :=
  s.vissue (needRed intType d.toNat a.toNat b.toNat) (
    if s.h.vx.vl = 0 then s.laneDone [] s.h
    else
      let w := s.h.sew
      let l := s.h.actives m.toNat
      let t := l.foldl (fun p e => p + sgn (s.h.opV a.toNat e).1 w) (sgn (s.h.opV b.toNat 0).1 w)
      let r := satS w t
      s.toVec d.toNat [(0, { val := r.1, bad := (s.h.opV b.toNat 0).2 || l.any (fun e => (s.h.opV a.toNat e).2), fl := r.2 })])

/-- What a scan has gathered: the accumulator, and the results so far, the last first (R226). -/
def scanStep (f : Nat → Nat → Nat) (incl : Bool) (x : VOpnd) (p : (Nat × Bool) × List (Nat × ERes)) (e : Nat) :
    (Nat × Bool) × List (Nat × ERes) :=
  let acc := accStep f p.1 (x e)
  let r := if incl then acc else p.1
  (acc, (e, { val := r.1, bad := r.2, fl := 0 }) :: p.2)

/-- A scan (R226). -/
def scan (f : Nat → Nat → Nat → Nat) (incl : Bool) (d a b m : Nat) (s : State) : Out :=
  s.vissue (needScan d a b) (
    s.toVec d ((s.h.actives m).foldl (scanStep (f s.h.sew) incl (s.h.opV a)) (s.h.opV b 0, [])).2.reverse)

/-- The value alone of an operation on a width. -/
def valOf (f : Nat → Nat → Nat → Nat × Nat) (w a b : Nat) : Nat := (f w a b).1

def execVredsum (_ : BitVec 1) (d a b : BitVec 6) (m : BitVec 3) (s : State) : Out :=
  reduce (valOf iAdd) d.toNat a.toNat b.toNat m.toNat s
def execVredmax (_ : BitVec 1) (d a b : BitVec 6) (m : BitVec 3) (s : State) : Out :=
  reduce (valOf iMax) d.toNat a.toNat b.toNat m.toNat s
def execVredmaxu (_ : BitVec 1) (d a b : BitVec 6) (m : BitVec 3) (s : State) : Out :=
  reduce (valOf iMaxu) d.toNat a.toNat b.toNat m.toNat s
def execVredmin (_ : BitVec 1) (d a b : BitVec 6) (m : BitVec 3) (s : State) : Out :=
  reduce (valOf iMin) d.toNat a.toNat b.toNat m.toNat s
def execVredminu (_ : BitVec 1) (d a b : BitVec 6) (m : BitVec 3) (s : State) : Out :=
  reduce (valOf iMinu) d.toNat a.toNat b.toNat m.toNat s
def execVredand (_ : BitVec 1) (d a b : BitVec 6) (m : BitVec 3) (s : State) : Out :=
  reduce (valOf iAnd) d.toNat a.toNat b.toNat m.toNat s
def execVredor (_ : BitVec 1) (d a b : BitVec 6) (m : BitVec 3) (s : State) : Out :=
  reduce (valOf iOr) d.toNat a.toNat b.toNat m.toNat s
def execVredxor (_ : BitVec 1) (d a b : BitVec 6) (m : BitVec 3) (s : State) : Out :=
  reduce (valOf iXor) d.toNat a.toNat b.toNat m.toNat s
def execVscansum (_ : BitVec 1) (d a b : BitVec 6) (m : BitVec 3) (s : State) : Out :=
  scan (valOf iAdd) true d.toNat a.toNat b.toNat m.toNat s
def execVscanmax (_ : BitVec 1) (d a b : BitVec 6) (m : BitVec 3) (s : State) : Out :=
  scan (valOf iMax) true d.toNat a.toNat b.toNat m.toNat s
def execVscanmin (_ : BitVec 1) (d a b : BitVec 6) (m : BitVec 3) (s : State) : Out :=
  scan (valOf iMin) true d.toNat a.toNat b.toNat m.toNat s
def execVxscansum (_ : BitVec 1) (d a b : BitVec 6) (m : BitVec 3) (s : State) : Out :=
  scan (valOf iAdd) false d.toNat a.toNat b.toNat m.toNat s
def execVscanmaxu (_ : BitVec 1) (d a b : BitVec 6) (m : BitVec 3) (s : State) : Out :=
  scan (valOf iMaxu) true d.toNat a.toNat b.toNat m.toNat s
def execVscanminu (_ : BitVec 1) (d a b : BitVec 6) (m : BitVec 3) (s : State) : Out :=
  scan (valOf iMinu) true d.toNat a.toNat b.toNat m.toNat s

/-! Mask instructions (major 0x2F) -/

/-- A combination of masks, bit by bit (R227). -/
def maskOp (f : Bool → Bool → Bool) (d a b m : Nat) (s : State) : Out :=
  s.vissue (needM d) (s.toMask d (s.h.results m (fun e => ERes.clean (f (s.h.maskBit a e) (s.h.maskBit b e)).toNat)))

def execMkand (_ : BitVec 1) (d a b m : BitVec 3) (s : State) : Out := maskOp (fun x y => x && y) d.toNat a.toNat b.toNat m.toNat s
def execMkor (_ : BitVec 1) (d a b m : BitVec 3) (s : State) : Out := maskOp (fun x y => x || y) d.toNat a.toNat b.toNat m.toNat s
def execMkxor (_ : BitVec 1) (d a b m : BitVec 3) (s : State) : Out := maskOp (fun x y => x != y) d.toNat a.toNat b.toNat m.toNat s
def execMkandn (_ : BitVec 1) (d a b m : BitVec 3) (s : State) : Out := maskOp (fun x y => x && !y) d.toNat a.toNat b.toNat m.toNat s
def execMknot (_ : BitVec 1) (d a m : BitVec 3) (s : State) : Out := maskOp (fun x _ => !x) d.toNat a.toNat a.toNat m.toNat s
def execMkfill (_ : BitVec 1) (d m : BitVec 3) (s : State) : Out := maskOp (fun _ _ => true) d.toNat d.toNat d.toNat m.toNat s

/-- The running state of R228 before an element: the number of set bits of ma among the active elements before it. -/
def countStep (ma : Nat → Bool) (p : Nat × List (Nat × Nat)) (e : Nat) : Nat × List (Nat × Nat) :=
  (if ma e then p.1 + 1 else p.1, (e, p.1) :: p.2)

/-- The active elements in ascending order, each with the number of set active bits of ma before it. -/
def Hart.ranks (h : Hart) (a m : Nat) : List (Nat × Nat) := ((h.actives m).foldl (countStep (h.maskBit a)) (0, [])).2.reverse

/-- A running scan along a mask (R228): a function of the count before an element and of its bit. -/
def maskScan (f : Nat → Bool → Bool) (d a m : Nat) (s : State) : Out :=
  s.vissue (needM d) (s.toMask d ((s.h.ranks a m).map (fun r => (r.1, ERes.clean (f r.2 (s.h.maskBit a r.1)).toNat))))

def execMkspreadI (_ : BitVec 1) (d a m : BitVec 3) (s : State) : Out := maskScan (fun n b => n != 0 || b) d.toNat a.toNat m.toNat s
def execMkspreadX (_ : BitVec 1) (d a m : BitVec 3) (s : State) : Out := maskScan (fun n _ => n != 0) d.toNat a.toNat m.toNat s
def execMkparity (_ : BitVec 1) (d a m : BitVec 3) (s : State) : Out := maskScan (fun n b => (n % 2 == 1) != b) d.toNat a.toNat m.toNat s
def execMkfirst (_ : BitVec 1) (d a m : BitVec 3) (s : State) : Out := maskScan (fun n b => n == 0 && b) d.toNat a.toNat m.toNat s

/-- The active elements whose bit of ma is set. -/
def Hart.setOnesOf (h : Hart) (a m : Nat) : List Nat := (h.actives m).filter (h.maskBit a)

/-- No element found (R228). -/
def notFound : Nat := 2 ^ 64 - 1

def execMkcount (_ : BitVec 1) (d : BitVec 4) (a m : BitVec 3) (s : State) : Out :=
  s.vissue needNone (s.codeDone d.toNat (word (s.h.setOnesOf a.toNat m.toNat).length) 0)
def execMkfind (_ : BitVec 1) (d : BitVec 4) (a m : BitVec 3) (s : State) : Out :=
  s.vissue needNone (s.codeDone d.toNat (word ((s.h.setOnesOf a.toNat m.toNat).headD notFound)) 0)
def execMkfindL (_ : BitVec 1) (d : BitVec 4) (a m : BitVec 3) (s : State) : Out :=
  s.vissue needNone (s.codeDone d.toNat (word ((s.h.setOnesOf a.toNat m.toNat).getLastD notFound)) 0)

/-- `vrank` (R228). -/
def execVrank (_ : BitVec 1) (d : BitVec 6) (a m : BitVec 3) (s : State) : Out :=
  s.vissue (fun h => Need.of intType [(d.toNat, h.grp)] (.regs d.toNat h.grp)) (
    s.toVec d.toNat ((s.h.ranks a.toNat m.toNat).map (fun r => (r.1, ERes.clean (r.2 % 2 ^ s.h.sew)))))

end Sys2Proof.Machine
end

