-- ==== Sys2Proof/Machine/Host.lean ====
section
/-! DEFINITION. The host port (R457): the VF windows, sends, answers to page-fault posts (R452, R455), job records (R460) and SPDM
(R459). -/

namespace Sys2Proof.Machine

/-! The arrival log -/

/-- The 64-byte entries of an arrival: its own, and those of its data (R446). -/
def Arrival.entries (a : Arrival) : Nat := 1 + (a.ev.data.length + 63) / 64

/-- The entries of a tenant's log. -/
def State.logUsed (s : State) (tag : Nat) : Nat :=
  ((s.alog.filter (fun a => a.tag == tag)).map Arrival.entries).foldl (fun x y => x + y) 0

/-- Dword `i` of a payload. -/
def frameDw (fr : Frame) (i : Nat) : Nat := leNat ((fr.data.drop (8 * i)).take 8)

/-- The dwords of a frame's payload that are GTB ticks: deadlines, and ticks of requests (entry 15). -/
def tickDwords (fr : Frame) : List Nat :=
  if fr.kind = 4 then [1]
  else if fr.kind = 5 then [3, 4]
  else if fr.kind = 6 then [2]
  else if fr.kind = 7 && frameDw fr 0 = 0 then [5]
  else if fr.kind = 7 && frameDw fr 0 = 4 && frameDw fr 2 = 0 && frameDw fr 4 = 0 then [9]
  else []

/-- A frame with one dword of its payload moved by a number of ticks. -/
def moveDw (n : Nat) (fr : Frame) (i : Nat) : Frame :=
  { fr with data := fr.data.take (8 * i) ++ leBytes 8 ((frameDw fr i + n) % 2 ^ 64) ++ fr.data.drop (8 * i + 8) }

/-- A frame with the ticks of its payload moved: an entry of a log holds them from the start of the log, and its replay from the log start of the
replay (R446; entry 69). -/
def shiftTicks (n : Nat) (fr : Frame) : Frame := (tickDwords fr).foldl (moveDw n) fr

/-- An arrival entered in a tenant's log; a log without room for it has overflowed, and stops there (R446; entry 69). -/
def State.logArrival (s : State) (tag : Nat) (fr : Frame) : State :=
  let t := s.tenant tag
  let a : Arrival := { tag := tag, offset := s.gtb - t.logAt, ev := shiftTicks (2 ^ 64 - t.logAt % 2 ^ 64) fr }
  if !(t.logOn && s.hub.accepted 3) || t.logOvf then s
  else if s.logUsed tag + a.entries ≤ Config.logEntries then { s with alog := s.alog ++ [a] }
  else s.setTenant tag (fun t => { t with logOvf := true })

/-- A host access as a frame, in a log or held (R360, R446): KIND 32 for a write to a window, 33 for a send, 34 for a read, 35 for a write of a
core's management space, 36 for a run of bytes of a write. -/
def hostEntry (kind tag target : Nat) (data : List Byte) : Frame :=
  { secTag := true, ver := 1, kind := kind, dst := 0xFFFF, src := 0xFFFF, inc := 0, tag := tag, seq := 0, target := target, data := data }

/-! Windows of memory -/

/-- The pointer that an offset of BAR 1 or BAR 2 names (R457). -/
def barPointer (bar off : Nat) : Word := if bar = 1 then word (0xD0 * 2 ^ 56 + off) else word off

/-- The offset lies in the window: 256 MiB of Comb, or 64 GiB of virtual addresses. -/
def barHas (bar off n : Nat) : Bool :=
  (bar == 1 && decide (off + n ≤ 2 ^ 28)) || (bar == 2 && decide (off + n ≤ 2 ^ 36))

/-- A place lies in an OPN region, or in an OPN page as its leaf says (R457). -/
def State.openPlace (s : State) (tag : Nat) (p : Word) (pl : Place) : Bool :=
  match pl.reg with
  | some i => (s.region i).any (fun r => r.disc == 5)
  | none =>
    match (s.translate (hostActor tag) p).2 with
    | .ok e _ => pteDisc e == 5
    | .trap _ _ => false

/-- An access from outside that a line's owner holds up (R140, R360). -/
def State.holdUp (s : State) (fr : Frame) : State := { s with held := s.held ++ [fr] }

/-- A posted write of a VF is held up: those that follow it through the same window wait behind it (R369). -/
def State.behind (s : State) (tag : Nat) : Bool := s.held.any (fun fr => fr.tag == tag && (fr.kind == 32 || fr.kind == 36))

/-- One run of bytes inside a 64-byte line written by an agent outside the package for a tenant: performed at its home, or dropped; it waits
for a line's owner, and, from the host, for the writes through the window before it (R360, R369, R457). -/
def State.outsideWrite (s : State) (host : Bool) (tag : Nat) (p : Word) (bs : List Byte) : State :=
  let wait : State → State := fun t => t.holdUp (hostEntry (if host then 36 else 1) tag p.toNat bs)
  if host && s.behind tag then wait s
  else
    match s.access (hostActor tag) .store p bs.length 1 with
    | (s1, .ok pl) => if s1.openPlace tag p pl then s1.writeAt (hostActor tag) pl bs false else s1
    | (s1, .wait _) => wait s1
    | (s1, .trap _ _) => s1

/-- Bytes written from a pointer on, line by line. -/
def State.outsidePut (s : State) (host : Bool) (tag : Nat) : Nat → Word → List Byte → State
  | 0, _, _ => s
  | n + 1, p, bs =>
    let k := 64 - p.toNat % 64
    if bs.isEmpty then s
    else (s.outsideWrite host tag p (bs.take k)).outsidePut host tag n (p + word k) (bs.drop k)

/-- One run of bytes inside a 64-byte line read by an agent outside the package: all ones outside the allowed regions (R457); none while
a line's owner holds it up (R360). -/
def State.outsideRead (s : State) (tag : Nat) (p : Word) (k : Nat) : State × Option (List Byte) :=
  match s.access (hostActor tag) .load p k 1 with
  | (s1, .ok pl) =>
    if s1.openPlace tag p pl then
      match s1.readAt (hostActor tag) pl k with
      | (s2, v, _) => (s2, some (leBytes k v))
    else (s1, some (List.replicate k 0xFF#8))
  | (s1, .wait _) => (s1, none)
  | (s1, .trap _ _) => (s1, some (List.replicate k 0xFF#8))

/-- Bytes read from a pointer on, line by line; none while one of the lines is held up, which is recalled. -/
def State.outsideGet (s : State) (tag : Nat) : Nat → Word → Nat → State × Option (List Byte)
  | 0, _, _ => (s, some [])
  | n + 1, p, len =>
    let k := min len (64 - p.toNat % 64)
    if len = 0 then (s, some [])
    else
      match s.outsideRead tag p k with
      | (s1, none) => ({ s with engines := s1.engines }, none)
      | (s1, some x) =>
        match s1.outsideGet tag n (p + word k) (len - k) with
        | (s2, some bs) => (s2, some (x ++ bs))
        | (s2, none) => ({ s with engines := s2.engines }, none)

/-! Sends -/

/-- A host send is pending (R457). -/
def Tenant.sendPending (t : Tenant) : Bool := bits t.hsres.toNat 0 8 == 0xFF

/-- What the read of a host's message answers. -/
inductive HostMsg where
  | ok (data : List Byte) (bad : List Nat)
  | refused
  | waits
deriving DecidableEq, Repr

/-- The message of a host send: `SZ` bytes in an OPN region of the tenant; a line that an engine owns is waited for (R360). -/
def State.hostMessage (s : State) (tag : Nat) (p : Word) (n : Nat) : State × HostMsg :=
  if window p ≠ 3 then (s, .refused)
  else
    match s.accessRun (hostActor tag) .load p (n / 64) with
    | (s1, .ok pls) =>
      if pls.all (fun pl => s1.openPlace tag p pl) then
        match s1.readPieces (hostActor tag) pls with
        | (s2, bs, _) => (s2, .ok bs (s2.piecesBad pls 0))
      else (s1, .refused)
    | (s1, .wait _) => ({ s with engines := s1.engines }, .waits)
    | (s1, .trap _ _) => (s1, .refused)

/-- The result of a host send stored. -/
def State.hostResult (s : State) (tag : Nat) (w : Word) : State := s.setTenant tag (fun t => { t with hsres := w })

/-- A pending host send reaches its channel (R357, R457): a channel or a message that does not pass its checks gives REFUSED 2 (entry 21);
one whose message is held up stays pending. -/
def State.hostSendOn (s : State) (tag : Nat) : State :=
  let t := s.tenant tag
  match (combOffset t.hsch).bind (fun off => (s.chan off).map (fun x => (off, x))) with
  | none => s.hostResult tag (refusedWord 2)
  | some (off, (o, b)) =>
    if o.tag ≠ tag then s.hostResult tag (refusedWord 2)
    else
      match s.hostMessage tag t.hsmsg b.sz with
      | (s1, .refused) => s1.hostResult tag (refusedWord 2)
      | (s1, .waits) => s1.holdUp (hostEntry 33 tag t.hsch.toNat [])
      | (s1, .ok bs bad) => s1.sendAt off o b { hid := hostId tag, dead := t.hsDead, data := bs, bad := bad, dst := [] }

/-- A host send (R357, R457): ignored while one is pending; its deadline is relative to now. -/
def State.hostSend (s : State) (tag : Nat) : State :=
  let t := s.tenant tag
  if t.sendPending || t.st = 0 then s
  else (s.setTenant tag (fun t => { t with hsres := 0xFF, hsDead := min gtbEnd (s.gtb + t.hsdl.toNat) })).hostSendOn tag

/-- `HOST_SEND` (R457): a write of HSGO, an arrival of the log with HSMSG and HSDL as its data (R446). -/
def execHostSend (tag : Nat) (s : State) : Out :=
  let t := s.tenant tag
  .next ((s.logArrival tag (hostEntry 33 tag t.hsch.toNat (leBytes 8 t.hsmsg.toNat ++ leBytes 8 t.hsdl.toNat))).hostSend tag)

/-! Answers to page-fault posts -/

/-- A posted hart resumed or entering its trap (R452, R455): a resume runs the faulting instruction again, or takes the vector side up
at the trapping word from ECUT, as a `tret` would (R399). -/
def State.answerPost (s : State) (hid : Nat) (enter : Bool) : State :=
  let s1 := s.hold hid
  match s1.h.post with
  | none => s1
  | some (v, vs) =>
    let s2 := s1.setH (fun h => { h with post := none, wait := none, readyAt := s.gtb })
    if enter then s2.enterTrap v.cause v.tval v.tepc vs
    else
      { s2.setH (fun h => if vs then { h.resumeAt v.tepc with held := none } else h) with did := .nothing }

/-- `HOST_PF_ANSWER` (R455): a write of HPFRES; ignored for another tenant's hart or with no post outstanding. -/
def execHostPfAnswer (tag : Nat) (v : Word) (s : State) : Out :=
  match s.hart (bits v.toNat 0 16) with
  | some h => .next (if bit v.toNat 63 && h.tid = tag && h.post.isSome then s.answerPost h.hid (bit v.toNat 62) else s)
  | none => .next s

/-- `PF_ANSWER_TIMEOUT` (R452): no answer within MAXWAIT. -/
def execPfAnswerTimeout (hid : Nat) (s : State) : Out :=
  match s.hart hid with
  | some h => .next (if h.post.isSome && h.wait.any (fun w => decide (w.dead ≤ s.gtb)) then s.answerPost hid true else s)
  | none => .next s

/-! Jobs and trust -/

/-- Bytes cut or padded to a length. -/
def fitBytes (n : Nat) (bs : List Byte) : List Byte := bs.take n ++ List.replicate (n - (bs.take n).length) 0

/-- The first 156 bytes of a job record (R460). -/
def State.jobHead (s : State) (j : Job) : List Byte :=
  fitBytes 64 Config.fwmeas ++ leBytes 8 j.num.toNat ++ leBytes 2 j.tag ++ leBytes 2 s.hub.hchip
    ++ fitBytes 64 j.hash ++ leBytes 8 j.first ++ leBytes 8 j.last

/-- A job record (R460): signed by Apiary, or unsigned with SPLIT.ATT = 1. -/
def State.jobRecord (s : State) (j : Job) : List Byte :=
  s.jobHead j ++ (if bit s.hub.split 4 then List.replicate 3309 0 else fitBytes 3309 (Config.sign (s.jobHead j)))

/-- A finished job that is not posted. -/
def Job.due (j : Job) : Bool := j.alive == 0 && !j.posted

/-- `JOB_RECORD_POST` (R460): every write of the job's harts is performed when it retires. -/
def execJobRecordPost (job : Word) (s : State) : Out :=
  match s.jobs.find? (fun j => j.num == job && j.due) with
  | some j => .next { s.hostPost 4 j.tag (s.jobRecord j) with jobs := s.jobs.erase j }
  | none => .next s

/-- What the physical function answers to an SPDM request (R459). -/
def spdmAnswer (r : SpdmReq) : List Byte :=
  match r with
  | .certificate => Config.spdm false
  | .measurement => Config.spdm true

/-- `SPDM_REQUEST` (R459): the answer goes to the host, and nothing of the machine changes. -/
def execSpdmRequest (req : SpdmReq) (s : State) : Out :=
  let _ := spdmAnswer req
  .next s

end Sys2Proof.Machine
end

