-- ==== Sys2Proof/Machine/Plough.lean ====
section
/-! DEFINITION. The ploughs (R66-R70). A move is performed at its completion, in one move of the machine (entry 20). -/

namespace Sys2Proof.Machine

/-- The size of a move's page in bytes (R69). -/
def pageBytes (big : Bool) : Nat := if big then 2 ^ 21 else 2 ^ 16

/-- A range of installed memory. -/
def State.hasRange (s : State) (pa n : Nat) : Bool := s.hasMemory pa && s.hasMemory (pa + n - 1) && (2 ^ 40 ≤ pa || pa + n ≤ 2 ^ 40)

/-- The owner of the table page in which an entry stands (R91). -/
def State.tableTag (s : State) (pa : Nat) : Nat := robTag (s.robAt pa)

/-- The entry at an address of a tenant's tables, as a walk reads it (R87, R91): under the tag of its table page's owner, which is the tenant or
tag 0; none where the page is no table of them or the entry reads poisoned. -/
def State.tableEntry (s : State) (tag pa : Nat) : Option Nat :=
  let t := s.robAt pa
  if s.hasMemory pa && robValid t && robKind t == 1 && (robTag t == tag || robTag t == 0) && !Tab.get false s.robBad (pa / 65536) &&
      s.hasKey (robTag t) && !s.poisonAt pa && Tab.get 0 s.ecc (unitOf pa) != 2 then some (s.numFor (robTag t) pa 8)
  else none

/-- The leaf entries of a tenant's tables from a table on: address, log2 of the page size, and entry. -/
def State.leavesFrom (s : State) (tag : Nat) : List Level → Nat → List (Nat × Nat × Nat)
  | [], _ => []
  | l :: rest, base =>
    let at_ := ((s.mem.filter (fun e => base ≤ e.1 && e.1 < base + 8 * 2 ^ l.width)).map (fun e => e.1 / 8 * 8)).dedup
    at_.flatMap (fun pa =>
      match s.tableEntry tag pa with
      | none => []
      | some e =>
        if !bit e 0 || pteReserved e then []
        else if ptePointer e then (if pointerOk l e then s.leavesFrom tag rest (pteAddr e) else [])
        else if leafOk l e then [(pa, l.lo, e)] else [])

/-- The leaf entries of a tenant. -/
def State.leaves (s : State) (tag : Nat) : List (Nat × Nat × Nat) :=
  let root := (s.tenant tag).ptbase.toNat
  if bit root 0 then s.leavesFrom tag levels (bits root 20 32 * 2 ^ 20) else []

/-- The plough's read of a leaf entry, under the tag of its table page's owner, with the check that every read makes (R72, R78, R91). -/
def State.readLeaf (s : State) (ent : Nat) : State :=
  if !s.hasMemory ent then s
  else if s.hasKey (s.tableTag ent) then s.checkRead (s.tableTag ent) noHart ent 8
  else s.mcheckMem 9 (s.tableTag ent) noHart ent

/-- The leaf entry maps the source page for the tagged tenant, at the given size (step 1 of R67): the tenant's tables reach it at the level of
that size, its address is the source, which is the primary of a read-duplicate page (R92), and the tenant owns the page. -/
def State.leafMaps (s : State) (ent src tag : Nat) (big : Bool) : Bool :=
  let d := s.robAt src
  (s.leaves tag).any (fun l => l.1 == ent && l.2.1 == (if big then 21 else 16) && pteAddr l.2.2 == src) &&
    robValid d && robKind d == 0 && robTag d == tag

/-- A move can start (R69): aligned pages with memory, and a leaf entry that maps the source. -/
def State.moveOk (s : State) (p : Plough) : Bool :=
  let n := pageBytes p.big
  p.src.toNat % n == 0 && p.dst.toNat % n == 0 && s.hasRange p.src.toNat n && s.hasRange p.dst.toNat n &&
    s.leafMaps p.ent.toNat p.src.toNat p.tag p.big

/-- A move is rejected (R69). -/
def State.rejectMove (s : State) (f : Nat) (p : Plough) : State := s.setPlough f (fun _ => { p with stat := 3, own := false })

/-- The hart in hand, when it runs in mode D: a command of the device's software counts as its own (R367; entry 20). -/
def State.deviceHart (s : State) : Option Nat := if s.h.live && s.h.mode == .d then some s.h.hid else none

/-- A write of PLCMD (R69): ignored while a move runs; with GO the move starts, or is rejected with STAT 3. -/
def State.plcmdWrite (s : State) (f : Nat) (v : Word) : State :=
  let p := s.plough f
  if p.stat = 1 || 512 < bits v.toNat 16 10 then s
  else
    let q := { p with tag := bits v.toNat 16 10, big := bit v.toNat 1, byHart := s.deviceHart }
    if !bit v.toNat 0 then s.setPlough f (fun _ => q)
    else if !bit s.hub.split 2 then s.rejectMove f q
    else
      let s1 := s.readLeaf q.ent.toNat
      if s1.moveOk q then s1.setPlough f (fun _ => { q with stat := 1 }) else s1.rejectMove f q

/-- `PLOUGH_MOVE_GO` (R69). -/
def execPloughMoveGo (f : Nat) (v : Word) (s : State) : Out := .next (s.ifAnswers (fun t => t.plcmdWrite f v))

/-- The entries of a table in a range, moved to another. -/
def moveTab {α : Type} [DecidableEq α] (d : α) (t : Tab α) (src dst n : Nat) : Tab α :=
  (t.filter (fun e => src ≤ e.1 && e.1 < src + n)).foldl (fun u e => Tab.set d u (e.1 - src + dst) e.2)
    (t.filter (fun e => e.1 < dst || dst + n ≤ e.1))

/-- The pages of a range. -/
def pagesOf (pa n : Nat) : List Nat := (List.range (n / 65536)).map (fun i => pa / 65536 + i)

/-- The reverse ownership entries after a move: those of the source stand at the destination, and the source's are cleared (R67). -/
def moveRob (rob : Tab Word) (src dst n : Nat) : Tab Word :=
  let taken := (pagesOf src n).foldl (fun t pn => Tab.set 0 t (pn - src / 65536 + dst / 65536) (Tab.get 0 rob pn)) rob
  (pagesOf src n).foldl (fun t pn => Tab.set 0 t pn (clearedEntry (Tab.get 0 rob pn))) taken

/-- Uncorrectable sectors of a range are found by the copy (R68). -/
def State.findErrors (s : State) (tag pa n : Nat) : State :=
  ((s.ecc.filter (fun e => pa ≤ e.1 && e.1 < pa + n)).map (fun e => e.1)).foldl (fun t u => t.checkUnit tag noHart u) s

/-- The bytes of a move charged to the tenant that commanded it; a hardware-mode move goes to tag 0 (R415, R416). -/
def State.moveCount (s : State) (p : Plough) : State :=
  if bit s.hub.split 2 then (s.countMem p.tag p.src.toNat (pageBytes p.big)).countMem p.tag p.dst.toNat (pageBytes p.big) else s

/-- A line of a page is owned by an engine. -/
def State.pageOwned (s : State) (pa n : Nat) : Bool :=
  s.engines.any (fun e => e.2.queue.any (fun c => (c.rcdLine :: c.lines).any (fun d =>
    match d.loc with
    | some x => d.code == 0 && decide (pa ≤ x) && decide (x < pa + n)
    | none => false)))

/-- The pages of a destination are logged as written (R418). -/
def State.logPages (s : State) (pa n : Nat) : State := (pagesOf pa n).foldl (fun t pn => t.logDirty (pn * 65536)) s

/-- The sectors of a page that have been written, decrypted for the tenant and encrypted again under its present key (R67, R77). -/
def State.recrypt (s : State) (tag pa n : Nat) : State :=
  (s.keys.filter (fun e => pa ≤ e.1 && e.1 < pa + n)).foldl (fun t e => t.rekey tag e.1) s

/-- The lines that a plough has noted or owns are released (step 5 of R67). -/
def State.releaseLines (s : State) (f : Nat) : State :=
  ({ s with copied := s.copied.filter (fun c => c.1 ≠ f) }).setPlough f (fun p => { p with own := false })

/-- The effect of a move (R67, R68), and its status. -/
def State.movePage (s : State) (f : Nat) (p : Plough) : State :=
  let n := pageBytes p.big
  let src := p.src.toNat
  let dst := p.dst.toNat
  let s1 := (s.findErrors p.tag src n).recrypt p.tag src n
  let bad := s1.psn.any (fun e => src ≤ e.1 && e.1 < src + n)
  let s2 : State := { s1 with
    mem := moveTab 0 s1.mem src dst n, psn := moveTab false s1.psn src dst n, ecc := moveTab 0 s1.ecc src dst n,
    keys := moveTab 0 s1.keys src dst n,
    rob := moveRob s1.rob src dst n, tlb := s1.tlb.filter (fun e => pteAddr e.leaf.toNat ≠ src),
    grdMarks := s1.grdMarks.map (fun m => if src ≤ m.1 * 64 && m.1 * 64 < src + n then (m.1 - src / 64 + dst / 64, m.2) else m),
    hub := { s1.hub with clean := cleanAfter s1.hub.clean dst } }
  let tt := s.tableTag p.ent.toNat
  let e := s2.numFor tt p.ent.toNat 8
  (((((s2.logPages dst n).keyed tt p.ent.toNat 8).store64 p.ent.toNat (setBits e 12 40 (dst / 4096))).moveCount p).setPlough f (fun q =>
    { q with stat := if bad then 5 else 2 })).releaseLines f

/-! Hardware mode -/

/-- No page of a range has a valid reverse ownership entry. -/
def State.rangeFree (s : State) (pa n : Nat) : Bool := (pagesOf pa n).all (fun pn => !robValid (Tab.get 0 s.rob pn).toNat)

/-- A free page of a size among `count` of them from a base: which one is not fixed (R66; entry 7). -/
def State.freePage (s : State) (base n count : Nat) : Option Nat :=
  if count = 0 then none
  else
    let k := (Config.freeWord s.free).toNat % count
    (((List.range count).map (fun i => base + (k + i) % count * n)).find? (fun pa => s.rangeFree pa n))

/-- A move of a page started by the plough itself. -/
def State.startMove (s : State) (f tag : Nat) (big : Bool) (src dst ent : Nat) : State :=
  { s.setPlough f (fun p => { p with stat := 1, tag := tag, big := big, src := word src, dst := word dst, ent := word ent, byHart := none })
    with free := s.free + 1 }

/-- The promotion of a page named as in the heat table, if it can start, for the tenant that owns the page. -/
def State.promote (s : State) (f key : Nat) : Option State :=
  let ent := key / 8 * 8
  let big := key % 8 == 1
  let src := pteAddr (s.numFor (s.tableTag ent) ent 8)
  let tag := robTag (s.robAt src)
  if key % 8 = 2 || src < 2 ^ 40 || !s.leafMaps ent src tag big then none
  else (s.freePage 0 (pageBytes big) (2 ^ 40 / pageBytes big)).map (fun dst => s.startMove f tag big src dst ent)

/-- The demotion of a near page of a tenant above its watermark, if one can start: which of its pages is coldest is not fixed (R66;
entry 20). A read-duplicate page stays in the near tier, where R93 has it. -/
def State.demote (s : State) (f tag : Nat) : Option State :=
  let t := s.tenant tag
  if t.wm = 0 || s.hbmUse tag ≤ t.wm then none
  else
    let l := (s.leaves tag).filter (fun e => e.2.1 < 30 && decide (pteAddr e.2.2 < 2 ^ 40) && !pteRd e.2.2 &&
      s.leafMaps e.1 (pteAddr e.2.2) tag (e.2.1 == 21))
    match l[(Config.freeWord s.free).toNat % max 1 l.length]? with
    | none => none
    | some (ent, size, e) =>
      let n := pageBytes (size == 21)
      (s.freePage (2 ^ 40) n (farSize s.hub / n)).map (fun dst => (s.readLeaf ent).startMove f tag (size == 21) (pteAddr e) dst ent)

/-- The demotion of a near page of any tenant above its watermark, that of the last move first (R66). -/
def State.demoteAny (s : State) (f : Nat) : Option State :=
  ((s.plough f).tag :: s.tenants.map Prod.fst).findSome? (s.demote f)

/-- The next move of a plough in hardware mode: a chosen promotion, else a demotion. -/
def State.nextMove (s : State) (f : Nat) : List Nat → State
  | [] =>
    let s1 := s.setPlough f (fun p => { p with todo := [] })
    (s1.demoteAny f).getD s1
  | k :: r =>
    match ((s.readLeaf (k / 8 * 8)).setPlough f (fun p => { p with todo := r })).promote f k with
    | some t => t
    | none => s.nextMove f r

/-- `PLOUGH_MOVE_COMPLETE` (R67): not while an engine owns a line of the page. A leaf entry that no longer maps the source gives STAT 3. The
plough takes ownership of the lines that were written during the copy, and its next event copies them and ends the move. -/
def execPloughMoveComplete (f : Nat) (s : State) : Out :=
  let p := s.plough f
  if p.stat ≠ 1 || s.pageOwned p.src.toNat (pageBytes p.big) || s.pageOwned p.dst.toNat (pageBytes p.big) then .next s
  else
    let s := s.readLeaf p.ent.toNat
    if !p.own && s.moveOk p && s.copied.any (fun c => c.1 == f) then .next (s.setPlough f (fun q => { q with own := true }))
    else
      let s1 := if s.moveOk p then s.movePage f p else (s.rejectMove f p).releaseLines f
      .next (if bit s.hub.split 2 then s1 else s1.nextMove f p.todo)

/-- The pages of a heat table hotter than a threshold, hottest first, at most `n` (R66); of equally hot ones the lowest leaf-entry address goes
first, which is the model's choice (entry 20). -/
def hottest (thr : Nat) : Nat → Tab Nat → List Nat
  | 0, _ => []
  | n + 1, t =>
    match t with
    | [] => []
    | e :: r =>
      let best := r.foldl (fun a b => if a.2 < b.2 then b else a) e
      if best.2 ≤ thr then [] else best.1 :: hottest thr n (Tab.erase t best.1)

/-- `PLOUGH_EPOCH_END` (R66): in hardware mode the hottest pages are chosen, and the table starts anew. Pages of the epoch before whose
promotions have not started are dropped for them, which is the model's choice (entry 20). -/
def execPloughEpochEnd (f : Nat) (s : State) : Out :=
  let p := s.plough f
  let s1 := s.setPlough f (fun q => { q with epochAt := s.gtb, heat := [] })
  if bit s.hub.split 2 then .next s1
  else
    let l := hottest p.thr p.max p.heat
    .next (if p.stat = 1 then s1.setPlough f (fun q => { q with todo := l }) else s1.nextMove f l)

/-- PLCMD as read (R69). -/
def Plough.cmdWord (p : Plough) : Word := word (p.stat * 2 ^ 40 + p.tag * 2 ^ 16 + p.big.toNat * 2)

/-- A register of a field die written in mode D (R70): ignored out of range, and, for the move's registers, while a move runs or in
hardware mode. -/
def State.fieldWrite (s : State) (f off : Nat) (v : Word) : State :=
  let x := v.toNat
  let free := (s.plough f).stat ≠ 1 && bit s.hub.split 2
  if off = 0x000 then s.plcmdWrite f v
  else if off = 0x008 then (if free then s.setPlough f (fun p => { p with src := word (bits x 16 36 * 2 ^ 16) }) else s)
  else if off = 0x010 then (if free then s.setPlough f (fun p => { p with dst := word (bits x 16 36 * 2 ^ 16) }) else s)
  else if off = 0x018 then (if free then s.setPlough f (fun p => { p with ent := word (bits x 3 49 * 2 ^ 3) }) else s)
  else if off = 0x020 then (if 1 ≤ bits x 0 10 && bits x 0 10 ≤ 1000 then s.setPlough f (fun p => { p with epoch := bits x 0 10 }) else s)
  else if off = 0x028 then s.setPlough f (fun p => { p with thr := bits x 0 32 })
  else if off = 0x030 then s.setPlough f (fun p => { p with max := bits x 0 8 })
  else s

end Sys2Proof.Machine
end

