-- ==== Sys2Proof/Machine/Mgmt.lean ====
section
/-! DEFINITION. Starts, resets and negotiation (R22-R26, R436, R448-R450), and the registers of the management spaces (R6, R64, R70,
R76, R265, R381, R391, R410, R417, R438, R454). Offsets that the spec does not give are those of entry 16. -/

namespace Sys2Proof.Machine

/-! Starts -/

/-- The hub after a start that succeeds or whose firmware fails its check (R448, R458): a cold start derives the context-tag key anew, and a warm
start keeps it. What R23 and R26 do not say of a start is the model's choice (entry 90): LOCK stays as it is at every start, LOSS at a warm one;
the incarnations of peers stay at a warm start and are forgotten at a cold one. -/
def Hub.started (b : Hub) (cold : Bool) : Hub :=
  { Hub.reset with phase := if b.fwBad then 8 else 6, cold := cold, chipInc := b.chipInc + 1, fwBad := b.fwBad, lock := b.lock,
                   loss := if cold then false else b.loss, peers := if cold then [] else b.peers,
                   ctxKey := if cold then b.ctxKey + 1 else b.ctxKey }

/-- The revision identifier in the PCIe configuration space of the physical function (R1): 0x10 for B0, 0x11 for B1. -/
def revisionId : Nat := if Config.stepB1 then 0x11 else 0x10

/-- The clean bits as read (R76): the bit of a region whose zeroing runs is not yet 1. -/
def Hub.cleanBits (b : Hub) : Nat := if b.zreqBusy then setBit b.clean b.zreq false else b.clean

/-- The dies after a start: their cores leave a reset, and each incarnation advances, a die's whose cores stood in reset too, and a field
die's and the hub's; R25 and R448 leave this open (entry 54). Every shadow store is empty, since every hart has ended (R448). -/
def startedDies (s : State) : Tab Die :=
  (List.range 13).foldl (fun t d => Tab.set Die.reset t d { Die.reset with inc := (s.die d).inc + 1 }) []

/-- A location that a warm start does not zero: a region of the near tier whose clean bit is 1 already holds zeros, and keeps its marks
(R75). -/
def Hub.skips (b : Hub) (loc : Nat) : Bool := loc < 2 ^ 40 && bit b.cleanBits (loc / 2 ^ 30)

/-- A start (R448): every hart ends without a saved context, every tenant is FREE, memory is zeroed, and every slot, tile, region, lease
and record is gone. A warm start skips the clean regions and leaves the GTB running. -/
def State.start (s : State) (cold : Bool) : State :=
  let keep : Nat → Bool := fun loc => !cold && s.hub.skips loc
  { State.reset with
    hub := { s.hub.started cold with scrubAt := if cold then 0 else s.gtb }, gtb := if cold then 0 else s.gtb, dies := startedDies s,
    mem := s.mem.filter (fun e => keep e.1), psn := s.psn.filter (fun e => keep e.1), ecc := s.ecc.filter (fun e => keep e.1),
    keys := s.keys.filter (fun e => keep e.1), tlbFill := s.tlbFill,
    outbox := if cold then [] else s.outbox, free := s.free, plan := s.plan, turn := s.turn }

/-- `COLD_START` and `WARM_START` (R448). -/
def execColdStart (s : State) : Out := .next (s.start true)
def execWarmStart (s : State) : Out := .next (s.start false)

/-- A core whose die's cores are reset (R436): tile table entries and weight slots at their reset values. -/
def State.resetCore (s : State) (core : Nat) : State := s.setCore core (fun c => { c with tiles := [], slots := [], recheck := [] })

/-- The dies that leave a hart's request in hand unanswered: those for which a side of it waits (R27, R334). -/
def State.asked (s : State) (h : Hart) : List Nat :=
  ([h.iw, h.viw].filterMap (fun w => w.map (fun x => x.party))).filterMap (fun p =>
    if bits p.toNat 60 4 = 1 && s.partyLate (some p) then some (bits p.toNat 0 16) else none)

/-- The requests of a die's harts that are on their way to late dies when the die's cores are reset: each carries the incarnation of before
(R26, R27; entry 73). -/
def State.inFlight (s : State) (die : Nat) : List Packet :=
  (s.harts.filter (fun h => h.die == die)).flatMap (fun h => (s.asked h).map (fun d => { src := die, inc := (s.die die).inc, dst := d }))

/-- `DIE_CORE_RESET` (R436): the die's harts are GONE, their requests in flight go unanswered (R27), and one KIND 13 record names the die. -/
def execDieCoreReset (die : Nat) (s : State) : Out :=
  if 8 ≤ die then .next s
  else
    let s0 : State := { s with flying := s.flying ++ s.inFlight die }
    let s1 := (s.harts.filter (fun h => h.die == die)).foldl (fun t h => t.endHart h.hid) s0
    let s2 := ((List.range 25).map (fun i => die * 25 + i)).foldl State.resetCore s1
    .next ((s2.setDie die (fun d => { d with inReset := true })).mcheck 13 die 0 0xFFFF die 0 0)

/-- `DIE_LEAVES_RESET` (R25, R26, R265). -/
def execDieLeavesReset (die : Nat) (s : State) : Out :=
  if (s.die die).inReset then .next (s.setDie die (fun d => { d with inReset := false, inc := d.inc + 1 })) else .next s

/-- `FIELD_DIE_RESET` (R68): the plough's move is aborted, and its lines are released. The die's incarnation advances, though a field die has
no cores to leave a reset, which R25 leaves open (entry 54). -/
def execFieldDieReset (f : Nat) (s : State) : Out :=
  .next (((s.releaseLines f).setPlough f (fun p => { p with stat := if p.stat = 1 then 4 else p.stat, todo := [] })).setDie (8 + f)
    (fun d => { d with inc := d.inc + 1 }))

/-- `PTP_LOCK_LOSS` (R23) and `PTP_LOCK_ACQUIRE` (R449). -/
def execPtpLockLoss (s : State) : Out := .next (s.setHub (fun b => { b with lock := false, loss := true }))
def execPtpLockAcquire (s : State) : Out := .next (s.setHub (fun b => { b with lock := true }))

/-- A restarted chip announces its incarnation to every fabric peer before it sends its first packet, once its ports are up (R26, R451): a
frame of no KIND to every chip, which peers receive as `CHIP_INCARNATION_ANNOUNCEMENT` (entry 15). -/
def State.announce (s : State) : State := s.sendFrame 0 0xFFFF 0 0 []

/-- Negotiation closed (R449, R450): features that no write accepted stay disabled. -/
def State.closeNegotiation (s : State) : State :=
  if s.hub.phase = 6 then (s.setHub (fun b => { b with phase := 7, feat0 := if b.featSet then b.feat0 else 0 })).announce else s

/-- `NEGOTIATION_CLOSE` (R449). -/
def execNegotiationClose (s : State) : Out := .next s.closeNegotiation

/-- A write of GTBSET (R22, R454). -/
def State.gtbset (s : State) (v : Word) : State :=
  if s.hub.phase = 6 && s.hub.cold && !s.hub.gtbSet && !s.hub.spawned then
    { s with gtb := v.toNat, hub := { s.hub with gtbSet := true, scrubAt := v.toNat } }
  else s

/-- `GTBSET_WRITE` (R454). -/
def execGtbsetWrite (v : Word) (s : State) : Out := .next (s.gtbset v)

/-- A write of FTMAP (R64), or a refused management write. -/
def State.ftmap (s : State) (v : Word) : State :=
  let x := v.toNat
  if s.hub.phase = 6 && bits x 0 3 ≤ 4 && popcount 16 (bits x 48 16) = 2 ^ bits x 0 3 && 1 ≤ bits x 32 11 && bits x 32 11 ≤ 1024 then
    s.setHub (fun b => { b with ftmap := v &&& 0xFFFF07FF00000007#64 })
  else s.setHub (fun b => { b with refused := satInc b.refused 32 })

/-- `FTMAP_WRITE` (R64). -/
def execFtmapWrite (v : Word) (s : State) : Out := .next (s.ifAnswers (fun t => t.ftmap v))

/-- A write of HCHIP (R454). -/
def State.setChip (s : State) (v : Word) : State :=
  if s.hub.phase = 6 then s.setHub (fun b => { b with hchip := bits v.toNat 0 16 }) else s

/-- `HCHIP_WRITE` (R454). -/
def execHchipWrite (v : Word) (s : State) : Out := .next (s.setChip v)

/-- The requests of a hart that a chip no longer answers, once it has restarted (R349, R367). -/
def State.forgetChip (s : State) (chip : Nat) (h : Hart) : Hart :=
  { h with fabOut := h.fabOut.filter (fun x => !(s.swarm x.1).any (fun y => y.2.homeChip == chip)) }

/-- A chip has restarted: its harts of before are absent from the swarms of this chip (R349), and what they had sent in part is dropped. -/
def State.chipRestarted (s : State) (chip : Nat) : State :=
  { s with objs := s.objs.map (fun e => (e.1, e.2.map (ghostChip chip))), parts := s.parts.filter (fun fr => fr.src ≠ chip),
           h := s.forgetChip chip s.h, pool := s.pool.map (s.forgetChip chip) }

/-- `CHIP_INCARNATION_ANNOUNCEMENT` (R26). -/
def execChipIncarnationAnnouncement (chip : Nat) (inc : BitVec 12) (s : State) : Out :=
  let s1 := match Tab.get none s.hub.peers chip with
    | some old => if old = inc.toNat then s else s.chipRestarted chip
    | none => s
  .next (s1.setHub (fun b => { b with peers := Tab.set none b.peers chip (some inc.toNat) }))

/-! Memory -/

/-- A region of the near tier zeroed (R76). -/
def State.zeroRegion (s : State) (n : Nat) : State :=
  let out : Nat → Bool := fun loc => loc < n * 2 ^ 30 || (n + 1) * 2 ^ 30 ≤ loc
  { s with mem := s.mem.filter (fun e => out e.1), psn := s.psn.filter (fun e => out e.1), ecc := s.ecc.filter (fun e => out e.1),
           keys := s.keys.filter (fun e => out e.1), tableRep := s.tableRep.filter out, hub := { s.hub with clean := setBit s.hub.clean n true } }

/-- A write of ZREQ (R76): ignored while BUSY. The sectors are zeroed at once; a write before `ZREQ_COMPLETE` clears the bit again, and
the bit is read only from then on. -/
def State.zreqWrite (s : State) (v : Word) : State :=
  if s.hub.zreqBusy then s
  else
    let n := bits v.toNat 0 10
    let s1 := s.setHub (fun b => { b with zreq := n, zreqBusy := bit v.toNat 63 })
    if bit v.toNat 63 then s1.zeroRegion n else s1

/-- `ZREQ_GO` and `ZREQ_COMPLETE` (R76). -/
def execZreqGo (v : Word) (s : State) : Out := .next (s.ifAnswers (fun t => t.zreqWrite v))
def execZreqComplete (s : State) : Out := .next (s.setHub (fun b => { b with zreqBusy := false }))

/-- `PATROL_SCRUB` of a 32-byte sector of the near tier, by its number (R74). -/
def execPatrolScrub (sector : Nat) (s : State) : Out :=
  .next (if 32 * sector < 2 ^ 40 then s.checkUnit 0 noHart (32 * sector) else s)

/-- `COMB_PATROL_SCRUB` of the word at a Comb offset (R99). -/
def execCombPatrolScrub (off : Nat) (s : State) : Out :=
  .next (if off < 2 ^ 28 then s.checkUnit 0 noHart (locComb (off / 8 * 8)) else s)

/-! The hub's registers -/

/-- The part of a ring that is not consumed, after its tail has moved. -/
def consume {α : Type} (l : List α) (old new : Nat) : List α := l.drop ((new + 2 ^ 32 - old) % 2 ^ 32)

/-- A write of the hub's space (R454): reserved bits are dropped, values out of range ignored. -/
def State.hubWrite (s : State) (off : Nat) (v : Word) : State :=
  let x := v.toNat
  let lo := bits x 0 32
  if off = 0x000 then
    (if bit x 2 then s.closeNegotiation else s).setHub (fun b => if bit x 1 then { b with loss := false } else b)
  else if off = 0x008 then s.gtbset v
  else if off = 0x010 then s.setChip v
  else if off = 0x018 then (if s.hub.hevh = s.hub.hevt then s.setHub (fun b => { b with hevb := word (bits x 6 58 * 64) }) else s)
  else if off = 0x020 then
    (if s.hub.hevh = s.hub.hevt && 7 ≤ bits x 0 5 && bits x 0 5 ≤ 16 then s.setHub (fun b => { b with hevn := bits x 0 5 }) else s)
  else if off = 0x030 then { (s.setHub (fun b => { b with hevt := lo })) with hostRing := consume s.hostRing s.hub.hevt lo }
  else if off = 0x040 then s.ftmap v
  else if off = 0x048 then
    (if 1 ≤ bits x 0 8 && bits x 0 8 ≤ 168 then s.setHub (fun b => { b with scrubp := bits x 0 8 }) else s)
  else if off = 0x050 then s.zreqWrite v
  else if off = 0x108 then { (s.setHub (fun b => { b with mctail := lo })) with mcRing := consume s.mcRing s.hub.mctail lo }
  else if 0x180 ≤ off && off < 0x1C0 && off % 8 = 0 then
    (if lo = 0 || (10000 ≤ lo && lo ≤ 10000000) then
      s.setHub (fun b => { b with clsq := Tab.set 0 b.clsq ((off - 0x180) / 8) lo }) else s)
  else if off = 0x400 then { s with allot := Tab.set 0 s.allot (bits x 0 36) (bits x 36 10) }
  else if off = 0x410 then s.setHub (fun b => { b with robSel := bits x 0 36 })
  else if off = 0x418 then { s with rob := Tab.set 0 s.rob s.hub.robSel v }
  else if off = 0x420 then (if 2000 ≤ lo && lo ≤ 3600 then s.setHub (fun b => { b with power := lo }) else s)
  else if 0x100000 ≤ off && off < 0x180000 && off % 8 = 0 then
    s.setHub (fun b => { b with routes := Tab.set 0 b.routes ((off - 0x100000) / 8) (bits x 0 8) })
  else s

/-- HSTAT as read (R449). -/
def Hub.statWord (b : Hub) : Word := word (b.phase * 2 ^ 32 + b.loss.toNat * 2 + b.lock.toNat)

/-- The registers of the physical function that answer in PHASE 8 (R458): HSTAT and FWMEAS, the spec naming none (entry 16). -/
def recoveryReg (off : Nat) : Bool := off == 0x000 || (0x430 ≤ off && off < 0x470)

/-- A read of the hub's space (R454), with the machine-check ring (R435), FWMEAS and IDPUB (R458, R459) and the route table (R452) at offsets of
the model (entry 16). -/
def State.hubRead (s : State) (off : Nat) : Word :=
  let b := s.hub
  if off = 0x000 then b.statWord
  else if off = 0x010 then word b.hchip
  else if off = 0x018 then b.hevb
  else if off = 0x020 then word b.hevn
  else if off = 0x028 then word b.hevh
  else if off = 0x030 then word b.hevt
  else if off = 0x038 then word b.hevd
  else if off = 0x040 then b.ftmap
  else if off = 0x048 then word b.scrubp
  else if off = 0x050 then word (b.zreqBusy.toNat * 2 ^ 62 + b.zreq)
  else if 0x060 ≤ off && off < 0x0E0 && off % 8 = 0 then word (bits b.cleanBits (64 * ((off - 0x060) / 8)) 64)
  else if off = 0x100 then word b.mcdrop
  else if off = 0x108 then word (b.mchead * 2 ^ 32 + b.mctail)
  else if off = 0x110 then word b.refused
  else if off = 0x118 then word b.incdrop
  else if 0x180 ≤ off && off < 0x1C0 && off % 8 = 0 then word (Tab.get 0 b.clsq ((off - 0x180) / 8))
  else if off = 0x400 then 0
  else if off = 0x410 then word b.robSel
  else if off = 0x418 then Tab.get 0 s.rob b.robSel
  else if off = 0x420 then word b.power
  else if 0x430 ≤ off && off < 0x470 && off % 8 = 0 then word (leNat ((Config.fwmeas.drop (off - 0x430)).take 8))
  else if 0x1000 ≤ off && off < 0x17A0 && off % 8 = 0 then word (leNat ((Config.idpub.drop (off - 0x1000)).take 8))
  else if 0x40000 ≤ off && off < 0x80000 && off % 8 = 0 then word (s.numFor 0 (mcAt 0 + (off - 0x40000)) 8)
  else if 0x100000 ≤ off && off < 0x180000 && off % 8 = 0 then word (Tab.get 0 b.routes ((off - 0x100000) / 8))
  else 0

/-- A read of a field die's space (R70): in hardware mode PLFROM, PLTO and PLENT read the move in progress. -/
def State.fieldRead (s : State) (f off : Nat) : Word :=
  let p := s.plough f
  if off = 0x000 then p.cmdWord
  else if off = 0x008 then p.src
  else if off = 0x010 then p.dst
  else if off = 0x018 then p.ent
  else if off = 0x020 then word p.epoch
  else if off = 0x028 then word p.thr
  else if off = 0x030 then word p.max
  else if off = 0x038 then word (s.die (8 + f)).incdrop
  else 0

/-- A read of a compute die's space (R454). -/
def State.dieRead (s : State) (d off : Nat) : Word := if off = 0x038 then word (s.die d).incdrop else 0

/-! A core's registers -/

/-- The dwords in which the debug window shows an entry of the decoupled queue (R281, R440; entry 16). -/
def QEntry.dwords (e : QEntry) : List Word :=
  [e.addr] ++ (List.range 8).map (fun i => e.args.getD i 0) ++ [e.fxf, e.dscale, e.qcfg,
    word (e.seq.toNat + e.rm.toNat * 2 ^ 16 + e.fen.toNat * 2 ^ 24 + e.rchk.toNat * 2 ^ 32 + e.sld.toNat * 2 ^ 40)]

/-- The entry that such dwords make. -/
def QEntry.ofDwords (l : List Word) : QEntry :=
  let x := (l.getD 12 0).toNat
  { addr := l.getD 0 0, args := (l.drop 1).take 8, fxf := l.getD 9 0, dscale := l.getD 10 0, qcfg := l.getD 11 0,
    seq := BitVec.ofNat 16 x, rm := BitVec.ofNat 3 (bits x 16 3), fen := BitVec.ofNat 5 (bits x 24 5), rchk := BitVec.ofNat 2 (bits x 32 2),
    sld := bit x 40 }

/-- A list cut to a length, or filled up to it. -/
def resize {α : Type} (d : α) (n : Nat) (l : List α) : List α := l.take n ++ List.replicate (n - l.length) d

/-- A mode by its code. -/
def modeOf (n : Nat) : Mode := pmMode (word n)

/-- The dwords in which the debug window shows a latch holding, and the holding that such a dword leaves (R404, R440; entry 16). -/
def Holding.dword (k : Holding) (hi : Bool) : Word := if hi then word k.num else word (k.rcd + k.obj * 2 ^ 32)
def Holding.put (k : Holding) (hi : Bool) (v : Word) : Holding :=
  if hi then { k with num := v.toNat } else { k with rcd := bits v.toNat 0 32, obj := bits v.toNat 32 32 }

/-- The part of a hart's scalar context that is neither an x register nor a control register, by its place in the debug window (R440;
entry 16). -/
def Hart.windowRead (h : Hart) (off : Nat) : Word :=
  if off = 0x100 then h.pc
  else if off = 0x108 then word h.mode.code
  else if off = 0x110 then h.held.getD 0
  else if off = 0x118 then word h.held.isSome.toNat
  else if off = 0x120 then h.bcnt.zeroExtend 64
  else if off = 0x128 then word h.queue.length
  else if off = 0x130 then word h.replies.length
  else if off = 0x138 then word h.holds.length
  else if 0x1000 ≤ off && off < 0x1800 then (h.queue[(off - 0x1000) / 128]?).elim 0 (fun e => e.dwords.getD (off % 128 / 8) 0)
  else if 0x2000 ≤ off && off < 0x2080 then (h.replies.getD ((off - 0x2000) / 8) (0, none)).1
  else if 0x3000 ≤ off && off < 0x4000 then
    (h.holds[(off - 0x3000) / 16]?).elim 0 (fun k => k.dword (off % 16 ≥ 8))
  else 0

/-- A write there. -/
def Hart.windowWrite (h : Hart) (off : Nat) (v : Word) : Hart :=
  if off = 0x100 then { h with pc := v }
  else if off = 0x108 then { h with mode := modeOf v.toNat }
  else if off = 0x110 then { h with held := h.held.map (fun _ => v) }
  else if off = 0x118 then { h with held := if bit v.toNat 0 then some (h.held.getD 0) else none }
  else if off = 0x120 then { h with bcnt := BitVec.ofNat 16 v.toNat }
  else if off = 0x128 then { h with queue := resize (QEntry.ofDwords []) (min 16 v.toNat) h.queue }
  else if off = 0x130 then { h with replies := resize (0, none) (min 16 v.toNat) h.replies }
  else if off = 0x138 then { h with holds := resize ⟨0, 0, 0⟩ (min 256 v.toNat) h.holds }
  else if 0x1000 ≤ off && off < 0x1800 then
    match h.queue[(off - 0x1000) / 128]? with
    | some e => { h with queue := h.queue.set ((off - 0x1000) / 128) (QEntry.ofDwords (e.dwords.set (off % 128 / 8) v)) }
    | none => h
  else if 0x2000 ≤ off && off < 0x2080 then
    match h.replies[(off - 0x2000) / 8]? with
    | some e => { h with replies := h.replies.set ((off - 0x2000) / 8) (v, e.2) }
    | none => h
  else if 0x3000 ≤ off && off < 0x4000 then
    match h.holds[(off - 0x3000) / 16]? with
    | some k => { h with holds := h.holds.set ((off - 0x3000) / 16) (k.put (off % 16 ≥ 8) v) }
    | none => h
  else h

/-- A register of a halted hart written through the debug window of its slot (R440): x registers from 0x000, control registers from 0x200,
the rest of the scalar context beside them. -/
def State.debugWrite (s : State) (core slot off : Nat) (v : Word) : State :=
  match s.slotHart core slot with
  | none => s
  | some h =>
    if h.halt.isNone then s
    else if off < 0x100 then s.updHart h.hid (fun k => k.setX (off / 8) v)
    else if 0x200 ≤ off && off < 0xA00 then
      match (s.hold h.hid).cfgSet ((off - 0x200) / 8) v with
      | .done t => t
      | _ => s
    else s.updHart h.hid (fun k => k.windowWrite off v)

/-- A register of a halted hart read through the debug window (R440). -/
def State.debugRead (s : State) (core slot off : Nat) : Word :=
  match s.slotHart core slot with
  | none => 0
  | some h =>
    if h.halt.isNone then 0
    else if off < 0x100 then h.xr (off / 8)
    else if 0x200 ≤ off && off < 0xA00 then (s.hold h.hid).cfgValue ((off - 0x200) / 8)
    else h.windowRead off

/-- DSTATs as read (R440). -/
def State.dstat (s : State) (core slot : Nat) : Word :=
  match (s.slotHart core slot).bind (fun h => h.halt) with
  | some x => word (2 ^ 63 + x.vsd.toNat * 2 ^ 62 + x.bp % 4 * 2 ^ 50 + x.cut)
  | none => 0

/-- A command of DSTATs (R440). -/
def State.dstatWrite (s : State) (core slot : Nat) (v : Word) : State :=
  match s.slotHart core slot, bits v.toNat 60 2 with
  | some h, 1 => s.updHart h.hid Hart.resumeHalt
  | some h, 2 => s.updHart h.hid Hart.stepHalt
  | _, _ => s

/-- A breakpoint's registers written (R438): KIND 3 is reserved. -/
def State.bpWrite (s : State) (core n : Nat) (ctl : Bool) (v : Word) : State :=
  if ctl then
    (if bits v.toNat 61 2 = 3 then s
     else s.setCore core (fun c => { c with dbpc := Tab.set dbpcReset c.dbpc n (v &&& 0xF00003FFFFFFFFFF#64) }))
  else s.setCore core (fun c => { c with dbpa := Tab.set 0 c.dbpa n (v &&& 0xFFFFFFFFFFFFFFFC#64) })

/-- The slot of a matrix word (R266). -/
def slotOf (w : IWord) : Nat := (w.extractLsb' 11 2).toNat

/-- A hart of the core whose vector side has issued a matrix word on a weight slot that has not completed (R267). -/
def State.slotUsed (s : State) (core n : Nat) : Bool :=
  s.harts.any (fun h => h.core == core && h.conv.any (fun x => unitClass x.2 == 7 && slotOf x.2 == n))

/-- A weight slot freed (R265, R271). -/
def WSlot.clear (x : WSlot) : WSlot := { x with st := 0, tag := 0, psn := false }

/-- A weight slot freed by system software, as `mwclr` frees it (R265, R271): behind the matrix words on it that have issued, which keep what
they found at issue (R267), and once the rechecks of the core have ended (R433). -/
def State.freeSlotMgmt (s : State) (core n : Nat) : State :=
  if s.slotUsed core n then s.holdUp (hostEntry 35 0 (core * 2 ^ 32 + (0x200 + 8 * n)) (leBytes 8 0))
  else
    (s.drainCore core).setCore core (fun c => { c with slots := Tab.set WSlot.reset c.slots n (Tab.get WSlot.reset c.slots n).clear })

/-- `WEIGHT_SLOT_FREE_MGMT` (R265). -/
def execWeightSlotFreeMgmt (core slot : Nat) (s : State) : Out := .next (s.ifAnswers (fun t => t.freeSlotMgmt core slot))

/-- A tile's TAG written in mode D (R148), behind the words on the tile that have issued, which keep what they found at issue (R267). -/
def State.tileTagWrite (s : State) (core n : Nat) (v : Word) : State :=
  if (s.tileUser core n).isSome then s.holdUp (hostEntry 35 0 (core * 2 ^ 32 + (0x180 + 8 * n)) (leBytes 8 v.toNat))
  else s.setTile core n (fun t => { t with tag := bits v.toNat 32 10 })

/-- A write of a core's space. -/
def State.coreWrite (s : State) (core off : Nat) (v : Word) : State :=
  let x := v.toNat
  if off = 0x000 then s.pmapWrite core 0 v
  else if off = 0x008 then s.pmapWrite core 1 v
  else if off = 0x010 then (if 1000000 ≤ bits x 0 32 then s.setCore core (fun c => { c with wdl := word (bits x 0 32) }) else s)
  else if 0x020 ≤ off && off < 0x040 && off % 8 = 0 then s.bpWrite core ((off - 0x020) / 8) false v
  else if 0x040 ≤ off && off < 0x060 && off % 8 = 0 then s.bpWrite core ((off - 0x040) / 8) true v
  else if 0x060 ≤ off && off < 0x0A0 && off % 8 = 0 then s.dstatWrite core ((off - 0x060) / 8) v
  else if 0x100 ≤ off && off < 0x180 && off % 16 = 0 then
    (if bit x 63 then s.submit core ((off - 0x100) / 16) v true else s.clearBind core ((off - 0x100) / 16) v true)
  else if 0x100 ≤ off && off < 0x180 && off % 16 = 8 then
    (if bit s.hub.split 1 && !(s.bind core ((off - 0x100) / 16)).v then
      s.setBind core ((off - 0x100) / 16) (fun b => { b with quant := bits x 0 32, bad1 := bits x 32 32 ≠ 0 }) else s)
  else if 0x180 ≤ off && off < 0x200 && off % 8 = 0 then s.tileTagWrite core ((off - 0x180) / 8) v
  else if 0x200 ≤ off && off < 0x220 && off % 8 = 0 then s.freeSlotMgmt core ((off - 0x200) / 8)
  else if 0x10000 ≤ off && off < 0x30000 then s.debugWrite core ((off - 0x10000) / 0x4000) (off % 0x4000) v
  else s

/-- A bind record's dwords as read (R381). -/
def Bind.dword0 (b : Bind) : Word :=
  word (b.v.toNat * 2 ^ 63 + b.err * 2 ^ 59 + b.prio * 2 ^ 56 + b.tag * 2 ^ 32 + b.lgm * 2 ^ 16 + b.hart)

/-- The tile table entry of a core as read (R148). -/
def Tile.regWord (t : Tile) : Word := word (t.tag * 2 ^ 32 + t.eng * 2 ^ 24 + t.st)

/-- A read of a core's space (R148, R265, R381, R391, R412, R438, R440). -/
def State.coreRead (s : State) (core off : Nat) : Word :=
  let k := s.core core
  if off = 0x000 then Tab.get 0 k.pmap 0
  else if off = 0x008 then Tab.get 0 k.pmap 1
  else if off = 0x010 then k.wdl
  else if 0x020 ≤ off && off < 0x040 && off % 8 = 0 then s.dbpa core ((off - 0x020) / 8)
  else if 0x040 ≤ off && off < 0x060 && off % 8 = 0 then word (s.dbpc core ((off - 0x040) / 8))
  else if 0x060 ≤ off && off < 0x0A0 && off % 8 = 0 then s.dstat core ((off - 0x060) / 8)
  else if 0x100 ≤ off && off < 0x180 && off % 16 = 0 then (s.bind core ((off - 0x100) / 16)).dword0
  else if 0x100 ≤ off && off < 0x180 && off % 16 = 8 then word (s.bind core ((off - 0x100) / 16)).quant
  else if 0x180 ≤ off && off < 0x200 && off % 8 = 0 then (s.tile core ((off - 0x180) / 8)).regWord
  else if 0x200 ≤ off && off < 0x220 && off % 8 = 0 then (s.wslot core ((off - 0x200) / 8)).regWord
  else if 0x10000 ≤ off && off < 0x30000 then s.debugRead core ((off - 0x10000) / 0x4000) (off % 0x4000)
  else 0

/-! A tenant's registers -/

/-- A migration, log or lease register of a tenant's block in the physical function (R131, R417, R446; entry 16). -/
def State.pfWrite (s : State) (tag off : Nat) (v : Word) : State :=
  let x := v.toNat
  let put := s.setTenant tag
  if off = 0x000 then s.tencfgWrite tag v
  else if off = 0x008 then put (fun t => { t with wm := bits x 0 32 })
  else if off = 0x010 then s.tenbootWrite tag v
  else if off = 0x018 then
    (if 1 ≤ bits x 0 36 && bits x 0 36 ≤ 60000000000 then put (fun t => { t with bootMaxw := word (bits x 0 36) }) else s)
  else if off = 0x700 then
    put (fun t => { t with dlOvf := t.dlOvf && !bit x 1, dlEn := bit x 0 && s.hub.accepted 4 })
  else if off = 0x708 then put (fun t => { t with dlBase := word (bits x 12 40 * 4096) })
  else if off = 0x710 then (if 2 ≤ bits x 0 5 && bits x 0 5 ≤ 24 then put (fun t => { t with dlSize := bits x 0 5 }) else s)
  else if off = 0x720 then put (fun t => { t with dlTail := bits x 0 32 })
  else if off = 0x728 then put (fun t => { t with dbmp := word (bits x 12 40 * 4096) })
  else if off = 0x730 then put (fun t => { t with rbmp := word (bits x 12 40 * 4096) })
  else if off = 0x738 then
    (if s.hub.accepted 3 then
      { (put (fun t => { t with logOn := bit x 0, replay := bit x 1, logAt := s.gtb, logOvf := t.logOvf && !bit x 0 })) with
        alog := if bit x 0 then s.alog.filter (fun a => a.tag ≠ tag) else s.alog }
     else s)
  else if off = 0x740 then (if 10000 ≤ x && x ≤ 1000000 then put (fun t => { t with leaseLen := x }) else s)
  else s.vfWrite tag off v

/-- A read of a tenant's block in the physical function (R410, R417, R422, R291, R446; entry 16). -/
def State.pfRead (s : State) (tag off : Nat) : Word :=
  let t := s.tenant tag
  if off = 0x700 then word (t.dlOvf.toNat * 2 + (t.dlEn && s.hub.accepted 4).toNat)
  else if off = 0x708 then t.dlBase
  else if off = 0x710 then word t.dlSize
  else if off = 0x718 then word t.dlHead
  else if off = 0x720 then word t.dlTail
  else if off = 0x728 then t.dbmp
  else if off = 0x730 then t.rbmp
  else if off = 0x738 then word (t.logOvf.toNat * 4 + t.replay.toNat * 2 + t.logOn.toNat)
  else if off = 0x740 then word t.leaseLen
  else (s.vfRead tag off).getD 0

/-- A read of a register of a management space (R6): reserved bits and offsets that name no register read 0. A register that does not answer in
PHASE 8 returns all ones (R458; entry 16). -/
def State.mgmtRead (s : State) (sp : MgmtSpace) (off : Nat) : Word :=
  if !s.answers && !(sp == .hub && recoveryReg off) then word (2 ^ 64 - 1)
  else
  match sp with
  | .hub => s.hubRead off
  | .die d => s.dieRead d off
  | .field f => s.fieldRead f off
  | .core n => s.coreRead n off
  | .tenantPf tag => s.pfRead tag off
  | .tenantVf tag => (s.vfRead tag off).getD 0

/-- A write through a VF window (R438, R457): the host's registers among them. While the tenant is FREE the window takes no write. -/
def State.hostVfWrite (s : State) (tag off : Nat) (v : Word) : State :=
  if (s.tenant tag).st = 0 then s
  else if off = 0x400 then s.setTenant tag (fun t => { t with hsch := v })
  else if off = 0x408 then s.setTenant tag (fun t => { t with hsmsg := v })
  else if off = 0x410 then s.setTenant tag (fun t => { t with hsdl := v })
  else if off = 0x418 then s.hostSend tag
  else if off = 0x500 then
    match s.hart (bits v.toNat 0 16) with
    | some h => if bit v.toNat 63 && h.tid = tag && h.post.isSome then s.answerPost h.hid (bit v.toNat 62) else s
    | none => s
  else if 0x1000 ≤ off && off < 0x1000 + 0x40 * Config.cores then
    let core := (off - 0x1000) / 0x40
    let n := off % 0x20 / 8
    let ctl := bit off 5
    if bits (s.dbpc core n) 32 10 = tag && (!ctl || bits v.toNat 32 10 = tag) then s.bpWrite core n ctl v else s
  else s.vfWrite tag off v

/-- `MGMT_REGISTER_WRITE` (R6): a write of a management space in mode D, or of a VF window; none is taken before negotiation or in
PHASE 8 (R458). -/
def execMgmtRegisterWrite (sp : MgmtSpace) (off : Nat) (v : Word) (s : State) : Out :=
  if s.hub.phase < 6 || s.hub.phase = 8 then .next s
  else
    match sp with
    | .hub => .next (s.hubWrite off v)
    | .die _ => .next s
    | .field f => .next (if f < 4 then s.fieldWrite f off v else s)
    | .core n => .next (if n < Config.cores then s.coreWrite n off v else s)
    | .tenantPf tag => .next (if tag ≤ 512 then s.pfWrite tag off v else s)
    | .tenantVf tag => .next (if 1 ≤ tag && tag ≤ 512 then s.hostVfWrite tag off v else s)

/-- A posted write through a VF window (R369, R457): a register dword of BAR 0, or bytes of BAR 1 or BAR 2; none while the tenant is FREE, and
behind the writes before it. -/
def State.hostWrite (s : State) (tag bar off : Nat) (data : List Byte) : State :=
  if (s.tenant tag).st = 0 then s
  else if s.behind tag then s.holdUp (hostEntry 32 tag (bar * 2 ^ 60 + off) data)
  else if bar = 0 then (if data.length = 8 && off % 8 = 0 then s.hostVfWrite tag off (word (leNat data)) else s)
  else if barHas bar off data.length then s.outsidePut true tag (data.length / 64 + 2) (barPointer bar off) data else s

/-- `HOST_MEMORY_WRITE` (R457): an arrival of the log (R446), while the tenant is not FREE. -/
def execHostMemoryWrite (tag bar off : Nat) (data : List Byte) (s : State) : Out :=
  .next (if (s.tenant tag).st = 0 then s
    else (s.logArrival tag (hostEntry 32 tag (bar * 2 ^ 60 + off) data)).hostWrite tag bar off data)

/-- What a host read returns (R457): registers of BAR 0, or memory; all ones outside. None while a line's owner holds the read up (R360). -/
def State.hostRead (s : State) (tag bar off size : Nat) : State × Option (List Byte) :=
  if (s.tenant tag).st = 0 then (s, some (List.replicate size 0xFF#8))
  else if bar = 0 then
    match (if off = 0x400 || off = 0x408 || off = 0x410 then none else s.vfRead tag off) with
    | some w => (s, some (leBytes size w.toNat))
    | none => (s, some (List.replicate size 0xFF#8))
  else if barHas bar off size then s.outsideGet tag (size / 64 + 2) (barPointer bar off) size
  else (s, some (List.replicate size 0xFF#8))

/-- The state after a host read: the bytes go to the host; what the checks of the read find stays in the machine. -/
def State.afterRead (s : State) (tag bar off size : Nat) : State :=
  match s.hostRead tag bar off size with
  | (t, some _) => t
  | (t, none) => t.holdUp (hostEntry 34 tag (bar * 2 ^ 60 + off) (leBytes 8 size))

/-- `HOST_MEMORY_READ` (R457). -/
def execHostMemoryRead (tag bar off size : Nat) (s : State) : Out := .next (s.afterRead tag bar off size)

end Sys2Proof.Machine
end

