-- ==== Sys2Proof/Machine/Vfp.lean ====
section
/-! DEFINITION. Vector floating point (majors 0x30 to 0x33; R230-R243): element-wise arithmetic, fused multiply-adds, compares,
conversions, sums in a fixed order, and VRAND. -/

namespace Sys2Proof.Machine

/-- The format of a floating type (R183, R192). -/
def fmtOf (y sw : BitVec 3) : Fmt :=
  if y = 2 then bf16 else if sw = 1 then fp16 else if sw = 2 then fp32 else fp64

/-- The format of the current type. -/
def Hart.fmt (h : Hart) : Fmt := fmtOf h.vx.vtype.ty h.vx.vtype.sw

/-- RM of the running block (R196). -/
def Hart.vrm (h : Hart) : BitVec 3 := (h.run.map (fun b => b.rm)).getD 0

/-- The scale of raw d elements (R204). -/
def Hart.vscale (h : Hart) : Int := sgn ((h.run.map (fun b => b.dscale)).getD h.dscale).toNat 8

/-- An element-wise instruction (R233). -/
def fwise (n : Hart → Need) (f : Fmt → BitVec 3 → Nat → Nat → Nat × Nat) (d m : Nat) (a b : Hart → VOpnd) (s : State) : Out :=
  s.vissue n (s.toVec d (s.h.results m (bin (f s.h.fmt s.h.vrm) (a s.h) (b s.h))))

/-- A fused multiply-add with c the old vd[e] (R234): the signs of product and addend, and whether c is the factor (`vfmad`). -/
def fmac (n : Hart → Need) (negP negC mad : Bool) (d m : Nat) (a b : Hart → VOpnd) (s : State) : Out :=
  s.vissue n (s.toVec d (s.h.results m (fun e =>
    let x := a s.h e
    let y := b s.h e
    let z := s.h.opV d e
    let r := if mad then s.h.fmt.fma s.h.vrm negP negC z.1 x.1 y.1 else s.h.fmt.fma s.h.vrm negP negC x.1 y.1 z.1
    { val := r.1, bad := x.2 || y.2 || z.2, fl := r.2 })))

/-- A compare (R235). -/
def fcompare (n : Hart → Need) (c : Cmp) (md m : Nat) (a b : Hart → VOpnd) (s : State) : Out :=
  s.vissue n (s.toMask md (s.h.results m (cond (s.h.fmt.cmp c) (a s.h) (b s.h))))

/-! Majors 0x30 and 0x31 -/

def fAdd (f : Fmt) (rm : BitVec 3) (a b : Nat) : Nat × Nat := f.add rm a b
def fSub (f : Fmt) (rm : BitVec 3) (a b : Nat) : Nat × Nat := f.sub rm a b
def fRsub (f : Fmt) (rm : BitVec 3) (a b : Nat) : Nat × Nat := f.sub rm b a
def fMul (f : Fmt) (rm : BitVec 3) (a b : Nat) : Nat × Nat := f.mul rm a b
def fDiv (f : Fmt) (rm : BitVec 3) (a b : Nat) : Nat × Nat := f.div rm a b
def fRdiv (f : Fmt) (rm : BitVec 3) (a b : Nat) : Nat × Nat := f.div rm b a
def fSqrt (f : Fmt) (rm : BitVec 3) (a _b : Nat) : Nat × Nat := f.sqrt rm a
def fMin (f : Fmt) (_ : BitVec 3) (a b : Nat) : Nat × Nat := f.minmax false a b
def fMax (f : Fmt) (_ : BitVec 3) (a b : Nat) : Nat × Nat := f.minmax true a b
def fSgnj (f : Fmt) (_ : BitVec 3) (a b : Nat) : Nat × Nat := f.sgnj a b
def fSgnjn (f : Fmt) (_ : BitVec 3) (a b : Nat) : Nat × Nat := f.sgnjn a b
def fSgnjx (f : Fmt) (_ : BitVec 3) (a b : Nat) : Nat × Nat := f.sgnjx a b
def fKind (f : Fmt) (_ : BitVec 3) (a _b : Nat) : Nat × Nat := (f.kind a, 0)

def execVfaddVv (_ : BitVec 1) (d a b : BitVec 6) (m : BitVec 3) (s : State) : Out :=
  fwise (need3 floatType d.toNat a.toNat b.toNat) fAdd d.toNat m.toNat (fun h => h.opV a.toNat) (fun h => h.opV b.toNat) s
def execVfaddVx (_ : BitVec 1) (d a x : BitVec 6) (m : BitVec 3) (s : State) : Out :=
  fwise (need2 floatType d.toNat a.toNat) fAdd d.toNat m.toNat (fun h => h.opV a.toNat) (fun h => h.opX x.toNat) s
def execVfsubVv (_ : BitVec 1) (d a b : BitVec 6) (m : BitVec 3) (s : State) : Out :=
  fwise (need3 floatType d.toNat a.toNat b.toNat) fSub d.toNat m.toNat (fun h => h.opV a.toNat) (fun h => h.opV b.toNat) s
def execVfsubVx (_ : BitVec 1) (d a x : BitVec 6) (m : BitVec 3) (s : State) : Out :=
  fwise (need2 floatType d.toNat a.toNat) fSub d.toNat m.toNat (fun h => h.opV a.toNat) (fun h => h.opX x.toNat) s
def execVfrsub (_ : BitVec 1) (d a x : BitVec 6) (m : BitVec 3) (s : State) : Out :=
  fwise (need2 floatType d.toNat a.toNat) fRsub d.toNat m.toNat (fun h => h.opV a.toNat) (fun h => h.opX x.toNat) s
def execVfmulVv (_ : BitVec 1) (d a b : BitVec 6) (m : BitVec 3) (s : State) : Out :=
  fwise (need3 floatType d.toNat a.toNat b.toNat) fMul d.toNat m.toNat (fun h => h.opV a.toNat) (fun h => h.opV b.toNat) s
def execVfmulVx (_ : BitVec 1) (d a x : BitVec 6) (m : BitVec 3) (s : State) : Out :=
  fwise (need2 floatType d.toNat a.toNat) fMul d.toNat m.toNat (fun h => h.opV a.toNat) (fun h => h.opX x.toNat) s
def execVfdivVv (_ : BitVec 1) (d a b : BitVec 6) (m : BitVec 3) (s : State) : Out :=
  fwise (need3 floatType d.toNat a.toNat b.toNat) fDiv d.toNat m.toNat (fun h => h.opV a.toNat) (fun h => h.opV b.toNat) s
def execVfdivVx (_ : BitVec 1) (d a x : BitVec 6) (m : BitVec 3) (s : State) : Out :=
  fwise (need2 floatType d.toNat a.toNat) fDiv d.toNat m.toNat (fun h => h.opV a.toNat) (fun h => h.opX x.toNat) s
def execVfrdiv (_ : BitVec 1) (d a x : BitVec 6) (m : BitVec 3) (s : State) : Out :=
  fwise (need2 floatType d.toNat a.toNat) fRdiv d.toNat m.toNat (fun h => h.opV a.toNat) (fun h => h.opX x.toNat) s
def execVfsqrt (_ : BitVec 1) (d a : BitVec 6) (m : BitVec 3) (s : State) : Out :=
  fwise (need2 floatType d.toNat a.toNat) fSqrt d.toNat m.toNat (fun h => h.opV a.toNat) (fun _ => opC 0) s
def execVfmin (_ : BitVec 1) (d a b : BitVec 6) (m : BitVec 3) (s : State) : Out :=
  fwise (need3 floatType d.toNat a.toNat b.toNat) fMin d.toNat m.toNat (fun h => h.opV a.toNat) (fun h => h.opV b.toNat) s
def execVfmax (_ : BitVec 1) (d a b : BitVec 6) (m : BitVec 3) (s : State) : Out :=
  fwise (need3 floatType d.toNat a.toNat b.toNat) fMax d.toNat m.toNat (fun h => h.opV a.toNat) (fun h => h.opV b.toNat) s
def execVfsgnj (_ : BitVec 1) (d a b : BitVec 6) (m : BitVec 3) (s : State) : Out :=
  fwise (need3 floatType d.toNat a.toNat b.toNat) fSgnj d.toNat m.toNat (fun h => h.opV a.toNat) (fun h => h.opV b.toNat) s
def execVfsgnjn (_ : BitVec 1) (d a b : BitVec 6) (m : BitVec 3) (s : State) : Out :=
  fwise (need3 floatType d.toNat a.toNat b.toNat) fSgnjn d.toNat m.toNat (fun h => h.opV a.toNat) (fun h => h.opV b.toNat) s
def execVfsgnjx (_ : BitVec 1) (d a b : BitVec 6) (m : BitVec 3) (s : State) : Out :=
  fwise (need3 floatType d.toNat a.toNat b.toNat) fSgnjx d.toNat m.toNat (fun h => h.opV a.toNat) (fun h => h.opV b.toNat) s
def execVfmacPpVv (_ : BitVec 1) (d a b : BitVec 6) (m : BitVec 3) (s : State) : Out :=
  fmac (need3 floatType d.toNat a.toNat b.toNat) false false false d.toNat m.toNat (fun h => h.opV a.toNat) (fun h => h.opV b.toNat) s
def execVfmacPpVx (_ : BitVec 1) (d a x : BitVec 6) (m : BitVec 3) (s : State) : Out :=
  fmac (need2 floatType d.toNat a.toNat) false false false d.toNat m.toNat (fun h => h.opV a.toNat) (fun h => h.opX x.toNat) s
def execVfmacNn (_ : BitVec 1) (d a b : BitVec 6) (m : BitVec 3) (s : State) : Out :=
  fmac (need3 floatType d.toNat a.toNat b.toNat) true true false d.toNat m.toNat (fun h => h.opV a.toNat) (fun h => h.opV b.toNat) s
def execVfmacPn (_ : BitVec 1) (d a b : BitVec 6) (m : BitVec 3) (s : State) : Out :=
  fmac (need3 floatType d.toNat a.toNat b.toNat) false true false d.toNat m.toNat (fun h => h.opV a.toNat) (fun h => h.opV b.toNat) s
def execVfmacNp (_ : BitVec 1) (d a b : BitVec 6) (m : BitVec 3) (s : State) : Out :=
  fmac (need3 floatType d.toNat a.toNat b.toNat) true false false d.toNat m.toNat (fun h => h.opV a.toNat) (fun h => h.opV b.toNat) s
def execVfmad (_ : BitVec 1) (d a b : BitVec 6) (m : BitVec 3) (s : State) : Out :=
  fmac (need3 floatType d.toNat a.toNat b.toNat) false false true d.toNat m.toNat (fun h => h.opV a.toNat) (fun h => h.opV b.toNat) s
def execVfcmpEqVv (_ : BitVec 1) (d : BitVec 3) (a b : BitVec 6) (m : BitVec 3) (s : State) : Out :=
  fcompare (needM2 floatType d.toNat a.toNat b.toNat) .eq d.toNat m.toNat (fun h => h.opV a.toNat) (fun h => h.opV b.toNat) s
def execVfcmpEqVx (_ : BitVec 1) (d : BitVec 3) (a x : BitVec 6) (m : BitVec 3) (s : State) : Out :=
  fcompare (needM1 floatType d.toNat a.toNat) .eq d.toNat m.toNat (fun h => h.opV a.toNat) (fun h => h.opX x.toNat) s
def execVfcmpLtVv (_ : BitVec 1) (d : BitVec 3) (a b : BitVec 6) (m : BitVec 3) (s : State) : Out :=
  fcompare (needM2 floatType d.toNat a.toNat b.toNat) .lt d.toNat m.toNat (fun h => h.opV a.toNat) (fun h => h.opV b.toNat) s
def execVfcmpLe (_ : BitVec 1) (d : BitVec 3) (a b : BitVec 6) (m : BitVec 3) (s : State) : Out :=
  fcompare (needM2 floatType d.toNat a.toNat b.toNat) .le d.toNat m.toNat (fun h => h.opV a.toNat) (fun h => h.opV b.toNat) s
def execVfcmpGt (_ : BitVec 1) (d : BitVec 3) (a x : BitVec 6) (m : BitVec 3) (s : State) : Out :=
  fcompare (needM1 floatType d.toNat a.toNat) .gt d.toNat m.toNat (fun h => h.opV a.toNat) (fun h => h.opX x.toNat) s
def execVfcmpGe (_ : BitVec 1) (d : BitVec 3) (a x : BitVec 6) (m : BitVec 3) (s : State) : Out :=
  fcompare (needM1 floatType d.toNat a.toNat) .ge d.toNat m.toNat (fun h => h.opV a.toNat) (fun h => h.opX x.toNat) s
def execVfcmpLtVx (_ : BitVec 1) (d : BitVec 3) (a x : BitVec 6) (m : BitVec 3) (s : State) : Out :=
  fcompare (needM1 floatType d.toNat a.toNat) .lt d.toNat m.toNat (fun h => h.opV a.toNat) (fun h => h.opX x.toNat) s
def execVfcmpNe (_ : BitVec 1) (d : BitVec 3) (a b : BitVec 6) (m : BitVec 3) (s : State) : Out :=
  fcompare (needM2 floatType d.toNat a.toNat b.toNat) .ne d.toNat m.toNat (fun h => h.opV a.toNat) (fun h => h.opV b.toNat) s
def execVfkind (_ : BitVec 1) (d a : BitVec 6) (m : BitVec 3) (s : State) : Out :=
  fwise (need2 floatType d.toNat a.toNat) fKind d.toNat m.toNat (fun h => h.opV a.toNat) (fun _ => opC 0) s
def execVfcmpUn (_ : BitVec 1) (d : BitVec 3) (a b : BitVec 6) (m : BitVec 3) (s : State) : Out :=
  fcompare (needM2 floatType d.toNat a.toNat b.toNat) .un d.toNat m.toNat (fun h => h.opV a.toNat) (fun h => h.opV b.toNat) s

/-! Conversions (major 0x32) -/

/-- The value of an element of a type (R238). -/
def typedVal (y sw : BitVec 3) (uns : Bool) (sc : Int) (x : Nat) : FVal :=
  if y = 0 then intVal (if uns then (x : Int) else sgn x (widthOf sw))
  else if y = 3 then dval x (widthOf sw - 1) sc
  else (fmtOf y sw).val x

/-- A value written into a type (R238): the bits and the flags. -/
def intoType (y sw : BitVec 3) (uns : Bool) (rm : BitVec 3) (sc : Int) (x : FVal) : Nat × Nat :=
  let w := widthOf sw
  if y = 0 then
    let r := toIntFlags rm (if uns then 0 else -(2 ^ (w - 1) : Nat)) (if uns then (2 ^ w : Nat) - 1 else (2 ^ (w - 1) : Nat) - 1) x
    (unsg r.1 w, r.2)
  else if y = 3 then dcode x (w - 1) sc
  else (fmtOf y sw).finish rm (x, nvOf [x])

/-- The registers of a source group of another width (R237). -/
def Hart.srcGroup (h : Hart) (sw : BitVec 3) : Nat := max 1 ((h.grp * widthOf sw + h.sew - 1) / h.sew)

/-- The needs of a conversion (R230). -/
def needCvt (d a : Nat) (y z : BitVec 3) (uns rtz : Bool) (h : Hart) : Need :=
  let types := fun (ty _ : BitVec 3) => ty != 4 && !(rtz && ty == 3) && (!uns || ty == 0 || y == 0) && decide (h.srcGroup z ≤ 8)
  Need.of types [(d, h.grp), (a, h.srcGroup z)] (.regs d h.grp)

/-- A conversion (R238): equal types copy. -/
def convert (d a m : Nat) (y z : BitVec 3) (uns rtz : Bool) (s : State) : Out :=
  let h := s.h
  let t := h.vx.vtype
  let rm : BitVec 3 := if rtz then 1 else h.vrm
  s.vissue (needCvt d a y z uns rtz) (s.toVec d (h.results m (fun e =>
    let x := h.el (widthOf z) a e
    let r := if y = t.ty && z = t.sw then (x.1, 0) else intoType t.ty t.sw uns rm h.vscale (typedVal y z uns h.vscale x.1)
    { val := r.1, bad := x.2, fl := r.2 })))

def execVfcvt (_ : BitVec 1) (d a : BitVec 6) (y z m : BitVec 3) (s : State) : Out := convert d.toNat a.toNat m.toNat y z false false s
def execVfcvtU (_ : BitVec 1) (d a : BitVec 6) (y z m : BitVec 3) (s : State) : Out := convert d.toNat a.toNat m.toNat y z true false s
def execVfcvtRtz (_ : BitVec 1) (d a : BitVec 6) (y z m : BitVec 3) (s : State) : Out := convert d.toNat a.toNat m.toNat y z false true s
def execVfcvtURtz (_ : BitVec 1) (d a : BitVec 6) (y z m : BitVec 3) (s : State) : Out := convert d.toNat a.toNat m.toNat y z true true s

/-- `vdrescale` (R240): read at the scale x[7:0], written at DSCALE. -/
def execVdrescale (_ : BitVec 1) (d a x : BitVec 6) (m : BitVec 3) (s : State) : Out :=
  let h := s.h
  s.vissue (need2 (fun ty _ => ty == 3) d.toNat a.toNat) (s.toVec d.toNat (h.results m.toNat (fun e =>
    let v := h.opV a.toNat e
    let r := dcode (dval v.1 (h.sew - 1) (sgn (h.code x.toNat).toNat 8)) (h.sew - 1) h.vscale
    { val := r.1, bad := v.2, fl := r.2 })))

/-! Sums and extremes (R206, R241) -/

/-- A sum so far, with its flags. -/
def sumStep (f : Nat → Nat → Nat × Nat) (p : Nat × Nat) (x : Nat) : Nat × Nat :=
  let r := f p.1 x
  (r.1, flOr p.2 r.2)

/-- The sum of two positions of the tree, either of which may be absent (R206). -/
def treeAdd (f : Nat → Nat → Nat × Nat) (a b : Option Nat) : Option Nat × Nat :=
  match a, b with
  | some x, some y => (some (f x y).1, (f x y).2)
  | some x, none => (some x, 0)
  | none, y => (y, 0)

/-- One level of the tree: positions `i` and `i + h` joined. -/
def treeLevel (f : Nat → Nat → Nat × Nat) (h : Nat) (xs : List (Option Nat)) : List (Option Nat × Nat) :=
  (List.range h).map (fun i => treeAdd f (xs.getD i none) (xs.getD (i + h) none))

/-- The tree sum of R206 over positions, with its flags; `k` levels at most. -/
def sumTree (f : Nat → Nat → Nat × Nat) : Nat → List (Option Nat) → Nat → Option Nat × Nat
  | 0, xs, fl => (xs.getD 0 none, fl)
  | k + 1, xs, fl =>
    if xs.length ≤ 1 then (xs.getD 0 none, fl)
    else
      let l := treeLevel f (2 ^ (bitLen (xs.length - 1) - 1)) xs
      sumTree f k (l.map Prod.fst) (flOr fl (flAll (l.map Prod.snd)))

/-- A reduction to element 0 of vd: the result and flags from the start value and the position of each element (R241). -/
def freduce (f : Hart → Nat → List (Option Nat) → Nat × Nat) (d a b m : Nat) (s : State) : Out :=
  s.vissue (needRed floatType d a b) (
    if s.h.vx.vl = 0 then s.laneDone [] s.h
    else
      let x := s.h.opV b 0
      let r := f s.h x.1 ((List.range s.h.vx.vl).map (fun e => if s.h.active m e then some (s.h.opV a e).1 else none))
      s.toVec d [(0, { val := r.1, bad := x.2 || (s.h.actives m).any (fun e => (s.h.opV a e).2), fl := r.2 })])

def execVfsumO (_ : BitVec 1) (d a b : BitVec 6) (m : BitVec 3) (s : State) : Out :=
  freduce (fun h z l => (l.filterMap id).foldl (sumStep (h.fmt.add h.vrm)) (z, 0)) d.toNat a.toNat b.toNat m.toNat s

/-- The tree's total, if any element is active, added to the start value once. -/
def treeTotal (f : Nat → Nat → Nat × Nat) (z : Nat) (l : List (Option Nat)) : Nat × Nat :=
  match sumTree f 17 l 0 with
  | (some t, fl) => ((f z t).1, flOr fl (f z t).2)
  | (none, fl) => (z, fl)

def execVfsumT (_ : BitVec 1) (d a b : BitVec 6) (m : BitVec 3) (s : State) : Out :=
  freduce (fun h z l => treeTotal (h.fmt.add h.vrm) z l) d.toNat a.toNat b.toNat m.toNat s

/-- The greatest or least of the start value and the active elements: the start value is read, and a NaN result is the canonical one, with
no element active too (R193, R241). -/
def extreme (f : Nat → Nat → Nat × Nat) (z : Nat) (l : List (Option Nat)) : Nat × Nat := (l.filterMap id).foldl (sumStep f) (f z z)

def execVfredmax (_ : BitVec 1) (d a b : BitVec 6) (m : BitVec 3) (s : State) : Out :=
  freduce (fun h z l => extreme (h.fmt.minmax true) z l) d.toNat a.toNat b.toNat m.toNat s
def execVfredmin (_ : BitVec 1) (d a b : BitVec 6) (m : BitVec 3) (s : State) : Out :=
  freduce (fun h z l => extreme (h.fmt.minmax false) z l) d.toNat a.toNat b.toNat m.toNat s

/-! VRAND (R242) -/

/-- One round under a key. -/
def randRound (x k : Word) : Word :=
  let y := (x ^^^ k) * 0x9E3779B97F4A7C15#64
  y ^^^ (y >>> 29)

/-- The word of a counter. -/
def VCtx.randWord (v : VCtx) (c : Word) : Word := (List.range 4).foldl (fun x i => randRound x (Tab.get 0 v.rngk i)) c

def execVrand (_ : BitVec 1) (d : BitVec 6) (m : BitVec 3) (s : State) : Out :=
  s.vissue (fun h => Need.of (fun y _ => y != 4) [(d.toNat, h.grp)] (.regs d.toNat h.grp)) (
    let h := s.h
    let l := h.voted (h.results m.toNat (fun e => ERes.clean ((h.vx.randWord (h.vx.rngc + word e)).toNat % 2 ^ h.sew)))
    let h1 := h.putEls h.sew d.toNat l
    s.laneDone l { h1 with vx := { h1.vx with rngc := h.vx.rngc + word h.vx.vl } })

end Sys2Proof.Machine
end

