-- ==== Sys2Proof/Machine/Vq.lean ====
section
/-! DEFINITION. Exact rationals (majors 0x34 and 0x35; R247-R258): modular arithmetic, encode, decode and digits. -/

namespace Sys2Proof.Machine

/-- A prime entry (R247): p, k, the modulus M = p^k and the reconstruction bound N. -/
structure QEnt where
  p : Nat
  k : Nat
  m : Nat
  n : Nat
deriving DecidableEq, Repr

/-- The entries of R247. -/
def qEntry (e : Nat) : QEnt :=
  match e with
  | 0 => ⟨2305843009213693951, 1, qModulus 0, 1073741823⟩
  | 1 => ⟨2147483647, 2, qModulus 1, 1518500249⟩
  | 2 => ⟨3, 39, qModulus 2, 1423473770⟩
  | 3 => ⟨5, 26, qModulus 3, 863167457⟩
  | 4 => ⟨7, 22, qModulus 4, 1398181148⟩
  | 5 => ⟨12289, 4, qModulus 5, 106786927⟩
  | 6 => ⟨65537, 3, qModulus 6, 11863554⟩
  | _ => ⟨1000003, 3, qModulus 7, 707109963⟩

/-- The entry that the running block uses (R249). -/
def Hart.qent (h : Hart) : QEnt := qEntry (bits ((h.run.map (fun b => b.qcfg)).getD h.qcfg).toNat 0 4)

/-- The coefficient of `b` in the greatest common divisor, by Euclid's steps; 128 steps suffice below 2^64. -/
def euclid : Nat → Int → Int → Int → Int → Int
  | 0, _, _, z0, _ => z0
  | k + 1, y0, y1, z0, z1 => if y1 = 0 then z0 else euclid k y1 (y0 % y1) z1 (z0 - y0 / y1 * z1)

/-- inv(y) of R252, or none when p divides y. -/
def QEnt.inv (q : QEnt) (y : Nat) : Option Nat :=
  if y % q.p = 0 then none else some (euclid 128 q.m (y % q.m : Nat) 0 1 % (q.m : Int)).toNat

/-- red(x) of R252. -/
def QEnt.red (q : QEnt) (x : Nat) : Nat := if x = qND then qND else x % q.m

/-- A result, or ND with QN for a divisor divisible by p. -/
def qnOf (r : Option Nat) : Nat × Nat :=
  match r with
  | some x => (x, 0)
  | none => (qND, flQN)

/-- A function of reduced operands, with the ND rule first (R252): `used` tells which of b and c it uses. -/
def QEnt.apply (q : QEnt) (usesB usesC : Bool) (f : QEnt → Nat → Nat → Nat → Option Nat) (a b c : Nat) : Nat × Nat :=
  let x := q.red a
  let y := q.red b
  let z := q.red c
  if x = qND || (usesB && y == qND) || (usesC && z == qND) then (qND, 0) else qnOf (f q x y z)

/-- The loop of R252. -/
def qwise (n : Hart → Need) (usesB usesC : Bool) (f : QEnt → Nat → Nat → Nat → Option Nat) (d m : Nat) (a b : Hart → VOpnd)
    (s : State) : Out :=
  s.vissue n (s.toVec d (s.h.results m (fun e =>
    let x := a s.h e
    let y := b s.h e
    let z := s.h.opV d e
    let r := s.h.qent.apply usesB usesC f x.1 y.1 z.1
    { val := r.1, bad := x.2 || (usesB && y.2) || (usesC && z.2), fl := r.2 })))

/-! Major 0x34 -/

def qAdd (q : QEnt) (a b _c : Nat) : Option Nat := some ((a + b) % q.m)
def qSub (q : QEnt) (a b _c : Nat) : Option Nat := some ((a + q.m - b) % q.m)
def qRsub (q : QEnt) (a b _c : Nat) : Option Nat := some ((b + q.m - a) % q.m)
def qMul (q : QEnt) (a b _c : Nat) : Option Nat := some (a * b % q.m)
def qDiv (q : QEnt) (a b _c : Nat) : Option Nat := (q.inv b).map (fun z => a * z % q.m)
def qRdiv (q : QEnt) (a b _c : Nat) : Option Nat := (q.inv a).map (fun z => b * z % q.m)
def qNeg (q : QEnt) (a _b _c : Nat) : Option Nat := some ((q.m - a) % q.m)
def qInv (q : QEnt) (a _b _c : Nat) : Option Nat := q.inv a
def qMacc (q : QEnt) (a b c : Nat) : Option Nat := some ((a * b + c) % q.m)

def execVqaddVv (_ : BitVec 1) (d a b : BitVec 6) (m : BitVec 3) (s : State) : Out :=
  qwise (need3 qType d.toNat a.toNat b.toNat) true false qAdd d.toNat m.toNat (fun h => h.opV a.toNat) (fun h => h.opV b.toNat) s
def execVqaddVx (_ : BitVec 1) (d a x : BitVec 6) (m : BitVec 3) (s : State) : Out :=
  qwise (need2 qType d.toNat a.toNat) true false qAdd d.toNat m.toNat (fun h => h.opV a.toNat) (fun h => h.opX x.toNat) s
def execVqsubVv (_ : BitVec 1) (d a b : BitVec 6) (m : BitVec 3) (s : State) : Out :=
  qwise (need3 qType d.toNat a.toNat b.toNat) true false qSub d.toNat m.toNat (fun h => h.opV a.toNat) (fun h => h.opV b.toNat) s
def execVqsubVx (_ : BitVec 1) (d a x : BitVec 6) (m : BitVec 3) (s : State) : Out :=
  qwise (need2 qType d.toNat a.toNat) true false qSub d.toNat m.toNat (fun h => h.opV a.toNat) (fun h => h.opX x.toNat) s
def execVqrsub (_ : BitVec 1) (d a x : BitVec 6) (m : BitVec 3) (s : State) : Out :=
  qwise (need2 qType d.toNat a.toNat) true false qRsub d.toNat m.toNat (fun h => h.opV a.toNat) (fun h => h.opX x.toNat) s
def execVqmulVv (_ : BitVec 1) (d a b : BitVec 6) (m : BitVec 3) (s : State) : Out :=
  qwise (need3 qType d.toNat a.toNat b.toNat) true false qMul d.toNat m.toNat (fun h => h.opV a.toNat) (fun h => h.opV b.toNat) s
def execVqmulVx (_ : BitVec 1) (d a x : BitVec 6) (m : BitVec 3) (s : State) : Out :=
  qwise (need2 qType d.toNat a.toNat) true false qMul d.toNat m.toNat (fun h => h.opV a.toNat) (fun h => h.opX x.toNat) s
def execVqdivVv (_ : BitVec 1) (d a b : BitVec 6) (m : BitVec 3) (s : State) : Out :=
  qwise (need3 qType d.toNat a.toNat b.toNat) true false qDiv d.toNat m.toNat (fun h => h.opV a.toNat) (fun h => h.opV b.toNat) s
def execVqdivVx (_ : BitVec 1) (d a x : BitVec 6) (m : BitVec 3) (s : State) : Out :=
  qwise (need2 qType d.toNat a.toNat) true false qDiv d.toNat m.toNat (fun h => h.opV a.toNat) (fun h => h.opX x.toNat) s
def execVqrdiv (_ : BitVec 1) (d a x : BitVec 6) (m : BitVec 3) (s : State) : Out :=
  qwise (need2 qType d.toNat a.toNat) true false qRdiv d.toNat m.toNat (fun h => h.opV a.toNat) (fun h => h.opX x.toNat) s
def execVqneg (_ : BitVec 1) (d a : BitVec 6) (m : BitVec 3) (s : State) : Out :=
  qwise (need2 qType d.toNat a.toNat) false false qNeg d.toNat m.toNat (fun h => h.opV a.toNat) (fun _ => opC 0) s
def execVqinv (_ : BitVec 1) (d a : BitVec 6) (m : BitVec 3) (s : State) : Out :=
  qwise (need2 qType d.toNat a.toNat) false false qInv d.toNat m.toNat (fun h => h.opV a.toNat) (fun _ => opC 0) s
def execVqmaccVv (_ : BitVec 1) (d a b : BitVec 6) (m : BitVec 3) (s : State) : Out :=
  qwise (need3 qType d.toNat a.toNat b.toNat) true true qMacc d.toNat m.toNat (fun h => h.opV a.toNat) (fun h => h.opV b.toNat) s
def execVqmaccVx (_ : BitVec 1) (d a x : BitVec 6) (m : BitVec 3) (s : State) : Out :=
  qwise (need2 qType d.toNat a.toNat) true true qMacc d.toNat m.toNat (fun h => h.opV a.toNat) (fun h => h.opX x.toNat) s

/-- `vqeq` (R254): ND equals ND and no residue. -/
def qcompare (n : Hart → Need) (md m : Nat) (a b : Hart → VOpnd) (s : State) : Out :=
  let q := s.h.qent
  s.vissue n (s.toMask md (s.h.results m (cond (fun x y => (q.red x == q.red y, 0)) (a s.h) (b s.h))))

def execVqeqVv (_ : BitVec 1) (d : BitVec 3) (a b : BitVec 6) (m : BitVec 3) (s : State) : Out :=
  qcompare (needM2 qType d.toNat a.toNat b.toNat) d.toNat m.toNat (fun h => h.opV a.toNat) (fun h => h.opV b.toNat) s
def execVqeqVx (_ : BitVec 1) (d : BitVec 3) (a x : BitVec 6) (m : BitVec 3) (s : State) : Out :=
  qcompare (needM1 qType d.toNat a.toNat) d.toNat m.toNat (fun h => h.opV a.toNat) (fun h => h.opX x.toNat) s

/-! Major 0x35 -/

/-- An integer reduced modulo M. -/
def QEnt.modInt (q : QEnt) (x : Int) : Nat := (x % (q.m : Int)).toNat

/-- `vqenc` of a signed numerator and denominator (R256). -/
def QEnt.encode (q : QEnt) (n d : Int) : Nat × Nat := qnOf ((q.inv (q.modInt d)).map (fun z => q.modInt n * z % q.m))

def qencode (n : Hart → Need) (d m : Nat) (a b : Hart → VOpnd) (s : State) : Out :=
  s.vissue n (s.toVec d (s.h.results m (bin (fun x y => s.h.qent.encode (sgn x 64) (sgn y 64)) (a s.h) (b s.h))))

def execVqencVv (_ : BitVec 1) (d a b : BitVec 6) (m : BitVec 3) (s : State) : Out :=
  qencode (need3 qType d.toNat a.toNat b.toNat) d.toNat m.toNat (fun h => h.opV a.toNat) (fun h => h.opV b.toNat) s
def execVqencVx (_ : BitVec 1) (d a x : BitVec 6) (m : BitVec 3) (s : State) : Out :=
  qencode (need2 qType d.toNat a.toNat) d.toNat m.toNat (fun h => h.opV a.toNat) (fun h => h.opX x.toNat) s
def execVqencVi (_ : BitVec 1) (d a : BitVec 6) (i : BitVec 5) (m : BitVec 3) (s : State) : Out :=
  qencode (need2 qType d.toNat a.toNat) d.toNat m.toNat (fun h => h.opV a.toNat) (fun _ => opC i.toNat) s

/-- The reconstruction loop of R257 with at most `k` more steps: y1 and z1 at its end. -/
def qLoop (n : Int) : Nat → Int → Int → Int → Int → Int × Int
  | 0, _, y1, _, z1 => (y1, z1)
  | k + 1, y0, y1, z0, z1 => if y1 ≤ n then (y1, z1) else qLoop n k y1 (y0 - y0 / y1 * y1) z1 (z0 - y0 / y1 * z1)

/-- The pair of R257 for a residue below M, or none when the reconstruction fails. -/
def QEnt.recon (q : QEnt) (a : Nat) : Option (Int × Nat) :=
  let r := qLoop q.n 92 q.m a 0 1
  let y := r.1
  let z := r.2
  if y ≤ q.n && z != 0 && z.natAbs ≤ q.n && z.natAbs % q.p != 0 && Nat.gcd y.natAbs z.natAbs == 1 then
    some (if z < 0 then -y else y, z.natAbs)
  else none

/-- One element of `vqdec`: numerator, denominator and flags (R257). -/
def QEnt.decode (q : QEnt) (a : Nat) : Nat × Nat × Nat :=
  if a = qND then (0, 0, 0)
  else
    match q.recon (a % q.m) with
    | some (n, d) => (unsg n 64, d, 0)
    | none => (0, 0, flQR)

/-- `vqdec` (R257): numerators to the group at vd, denominators to the group at vd + g. A vote is on the pair. -/
def execVqdec (_ : BitVec 1) (d a : BitVec 6) (m : BitVec 3) (s : State) : Out :=
  s.vissue (fun h => Need.of qType [(d.toNat, 2 * h.grp), (a.toNat, h.grp)] (.regs d.toNat (2 * h.grp))) (
    let h := s.h
    let part := fun (pick : RunRes → Nat) (g : Nat × Nat × Nat → Nat) => h.votedBy pick (h.results m.toNat (fun e =>
      let x := h.opV a.toNat e
      let r := h.qent.decode x.1
      { val := g r, bad := x.2, fl := r.2.2 }))
    s.laneDone (part RunRes.bits (fun r => r.1))
      ((h.putEls h.sew d.toNat (part RunRes.bits (fun r => r.1))).putEls h.sew (d.toNat + h.grp) (part RunRes.den (fun r => r.2.1))))

/-- Digit j (R258): 0 from k on. -/
def QEnt.digit (q : QEnt) (a j : Nat) : Nat := if q.k ≤ j then 0 else a / q.p ^ j % q.p

/-- The valuation (R258): the largest j up to k with p^j dividing a. -/
def QEnt.valuation (q : QEnt) (a : Nat) : Nat :=
  ((List.range (q.k + 1)).filter (fun j => a % q.p ^ j == 0)).getLastD 0

def execVqdigVx (_ : BitVec 1) (d a x : BitVec 6) (m : BitVec 3) (s : State) : Out :=
  qwise (need2 qType d.toNat a.toNat) false false (fun q y _ _ => some (q.digit y (s.h.code x.toNat).toNat)) d.toNat m.toNat
    (fun h => h.opV a.toNat) (fun _ => opC 0) s
def execVqdigVi (_ : BitVec 1) (d a : BitVec 6) (i : BitVec 5) (m : BitVec 3) (s : State) : Out :=
  qwise (need2 qType d.toNat a.toNat) false false (fun q y _ _ => some (q.digit y i.toNat)) d.toNat m.toNat
    (fun h => h.opV a.toNat) (fun _ => opC 0) s
def execVqval (_ : BitVec 1) (d a : BitVec 6) (m : BitVec 3) (s : State) : Out :=
  qwise (need2 qType d.toNat a.toNat) false false (fun q y _ _ => some (q.valuation y)) d.toNat m.toNat
    (fun h => h.opV a.toNat) (fun _ => opC 0) s

end Sys2Proof.Machine
end

