-- ==== Sys2Proof/Machine/Vmat.lean ====
section
/-! DEFINITION. The matrix engine's words (majors 0x36 and 0x37; R265-R272). -/

namespace Sys2Proof.Machine

/-- What an issue check answers. -/
inductive Chk where
  | ok
  | trap (cause : Nat) (tval : Word)
  | wait (party : Word)
deriving DecidableEq, Repr

/-- The state with a weight slot changed. -/
def State.setWSlot (s : State) (core n : Nat) (f : WSlot → WSlot) : State :=
  s.setCore core (fun c => { c with slots := Tab.set WSlot.reset c.slots n (f (Tab.get WSlot.reset c.slots n)) })

/-- The formats of a word and of a slot go together: i8 and n8 pair either way (R267). -/
def fmtPairs (f g : Nat) : Bool := f == g || ((f == 7 || f == 8) && (g == 7 || g == 8))

/-- The matrix words on a slot that other harts of the core have issued and not yet completed, each with its hart. -/
def State.slotWords (s : State) (slot : Nat) : List (Hart × IWord) :=
  (s.pool.filter (fun h => h.core == s.h.core)).flatMap (fun h =>
    (h.conv.filter (fun x => unitClass x.2 == 7 && slotOf x.2 == slot)).map (fun x => (h, x.2)))

/-- A slot as the hart in hand finds it: LOADING for an `mwld` that another hart has issued (R271). -/
def State.slotSeen (s : State) (slot : Nat) : WSlot :=
  match (s.slotWords slot).find? (fun x => opOf x.2 == some .mwld) with
  | some (h, w) => { s.wslot s.h.core slot with tag := h.tid, fmt := (w.extractLsb' 0 4).toNat, st := 1 }
  | none => s.wslot s.h.core slot

/-- A matrix word waits, beside the checks of R267, for the words on its slot that other harts have issued: any word for an `mwclr`, and a
word that changes the slot for an `mmrow`, which read the slot that they found at issue. -/
def State.slotHeld (s : State) (w : IWord) : Bool :=
  unitClass w == 7 && (s.slotWords (slotOf w)).any (fun x => opOf x.2 == some .mwclr || opOf w != some .mmrow)

/-- Check 5 of R267: the slot is another tenant's. -/
def State.slotForeign (s : State) (slot : Nat) : Bool := (s.slotSeen slot).tag != s.h.tid && (s.slotSeen slot).st != 0

/-- Check 7 of R267 for the slot. -/
def State.slotReady (s : State) (slot : Nat) : Chk := if (s.slotSeen slot).st = 1 then .wait (partyWord 3 slot) else .ok

/-- The row that an `mmrow` takes (R267). -/
def Hart.row (h : Hart) (l off : Nat) : Nat := (h.code (16 + l)).toNat + off

/-- The checks of R267 for an `mmrow`, in order; `w` is the word. -/
def State.mmrowCheck (s : State) (w : Word) (d a slot l off f : Nat) : Chk :=
  let h := s.h
  let t := aFmt f
  let len := regBits h.lanes h.nrc
  if h.vx.vtype.vill then .trap cILLOP w
  else if h.grp * len < (h.row l off + 1) * t.k * t.w || !groupOk (nrOf h.nrc) (a, h.grp) then .trap cILLOP w
  else if len < t.n * t.acc || nrOf h.nrc ≤ d then .trap cILLOP w
  else if s.slotForeign slot then .trap cPROT (word slot)
  else if (s.slotSeen slot).st = 0 || !fmtPairs f (s.slotSeen slot).fmt then .trap cILLOP w
  else s.slotReady slot

/-- The checks of R267 for an `mwld`. -/
def State.mwldCheck (s : State) (w : Word) (tile slot : Nat) : Chk :=
  let t := s.tile s.h.core tile
  if s.h.vx.vtype.vill then .trap cILLOP w
  else if t.tag ≠ s.h.tid then .trap cPROT (tilePointer s.h.core tile)
  else if s.slotForeign slot then .trap cPROT (word slot)
  else if t.st ≠ 2 then .wait (partyWord 2 tile)
  else s.slotReady slot

/-- The checks of R267 for an `mwclr`. -/
def State.mwclrCheck (s : State) (w : Word) (slot : Nat) : Chk :=
  if s.h.vx.vtype.vill then .trap cILLOP w
  else if s.slotForeign slot then .trap cPROT (word slot)
  else s.slotReady slot

/-- A matrix word after its checks. -/
def State.matrixWord (s : State) (c : Word → Chk) (f : Out) : Out :=
  match c (s.h.vword.zeroExtend 64) with
  | .trap k v => .next (s.vtrap k v 0)
  | .wait p => .next (s.vstall p 0)
  | .ok => f

/-! `mmrow` -/

/-- The accumulator format of a floating or d format (R260). -/
def AFmt.accFmt (t : AFmt) : Fmt := if t.acc = 64 then fp64 else fp32

/-- An operand's value, at a scale for a d code (R268). -/
def AFmt.read (t : AFmt) (sc : Int) (x : Nat) : FVal :=
  match t.kind with
  | .float f => f.val x
  | .dec n => dval x n sc
  | _ => .zero false

/-- An integer operand (R268). -/
def AFmt.readInt (t : AFmt) (x : Nat) : Int :=
  match t.kind with
  | .int true => sgn x t.w
  | _ => x

/-- The sum of adjacent pairs, level by level (R207); `k` levels at most. -/
def pairSum (f : Nat → Nat → Nat × Nat) : Nat → List Nat → Nat → Nat × Nat
  | 0, xs, fl => (xs.headD 0, fl)
  | k + 1, xs, fl =>
    match xs with
    | [] => (0, fl)
    | [x] => (x, fl)
    | _ =>
      let l := (List.range (xs.length / 2)).map (fun i => f (xs.getD (2 * i) 0) (xs.getD (2 * i + 1) 0))
      pairSum f k (l.map Prod.fst) (flOr fl (flAll (l.map Prod.snd)))

/-- A column of operands: the row's elements and the weights of column n, in ascending k. -/
abbrev Column := List ((Nat × Bool) × Weight)

/-- A product as it enters the tree: +0 at a position that 2:4 sparsity leaves out (R207). -/
def floatTerm (t u : AFmt) (sc : Int) (e : (Nat × Bool) × Weight) : Nat × Nat :=
  if e.2.absent then (0, 0) else t.accFmt.finish 0 ((t.read sc e.1.1).mul (u.read e.2.scale e.2.code))

/-- A floating output (R207, R268). -/
def floatCell (t u : AFmt) (sc : Int) (acc : Nat) (c : Column) : Nat × Nat :=
  let g := t.accFmt
  let p := c.map (floatTerm t u sc)
  let r := pairSum (g.add 0) 16 (p.map Prod.fst) (flAll (p.map Prod.snd))
  ((g.add 0 acc r.1).1, flOr r.2 (g.add 0 acc r.1).2)

/-- An integer output, saturated once to int32 (R208). -/
def intCell (t u : AFmt) (acc : Nat) (c : Column) : Nat × Nat :=
  let v := c.foldl (fun x e => x + t.readInt e.1.1 * u.readInt e.2.code) (sgn acc 32)
  let r := clamp v (-2147483648) 2147483647
  (unsg r 32, if r = v then 0 else flIS)

/-- A q output (R208, R268): ND if any term is ND. -/
def qCell (q : QEnt) (acc : Nat) (c : Column) : Nat × Nat :=
  if acc = qND || c.any (fun e => e.1.1 == qND || e.2.code == qND) then (qND, 0)
  else (c.foldl (fun x e => (x + e.1.1 % q.m * (e.2.code % q.m)) % q.m) (acc % q.m), 0)

/-- An output cell, by the format of the row and that of the slot. -/
def Hart.cell (h : Hart) (t u : AFmt) (acc : Nat) (c : Column) : Nat × Nat :=
  match t.kind with
  | .int _ => intCell t u acc c
  | .q => qCell h.qent acc c
  | _ => floatCell t u h.vscale acc c

/-- W[k][n] of a slot (R262, R263). -/
def WSlot.weight (x : WSlot) (k n : Nat) : Weight :=
  if x.badHdr then { code := 0, scale := 0, bad := true, absent := false } else Machine.weight (aFmt x.fmt) x.layout (sgn x.sig 8) x.data x.bad k n

/-- The outputs of an `mmrow` (R268, R269); `fail` when the row failed its checksum twice (R270). -/
def State.rowOutputs (s : State) (d a slot l off f : Nat) (fail : Bool) : List (Nat × ERes) :=
  let h := s.h
  let t := aFmt f
  let x := s.wslot h.core slot
  let r := h.row l off
  (List.range t.n).map (fun n =>
    let c : Column := (List.range t.k).map (fun k => (h.el t.w a (r * t.k + k), x.weight k n))
    let acc := h.el t.acc d n
    let o := h.cell t (aFmt x.fmt) acc.1 c
    (n, { val := o.1, bad := fail || acc.2 || c.any (fun e => e.1.2 || e.2.bad), fl := o.2 }))

/-- The checksum column of a row (R270): one mismatch makes the engine compute the row again, two poison it and leave a KIND 5 record. -/
def State.rowCheck (s : State) (row : Nat) : State × Bool :=
  match (s.core s.h.core).rowFail with
  | 0 => (s, false)
  | n =>
    let s1 := s.setCore s.h.core (fun c => { c with rowFail := 0 })
    if n = 1 then (s1, false) else (s1.mcheck 5 s.h.die s.h.tid s.h.hid s.h.core 0 row, true)

/-- `mmrow` (R268). -/
def execMmrow (_ : BitVec 1) (d a : BitVec 6) (k l : BitVec 2) (o : BitVec 5) (f : BitVec 4) (s : State) : Out :=
  s.matrixWord (fun w => s.mmrowCheck w d.toNat a.toNat k.toNat l.toNat o.toNat f.toNat) (
    match s.rowCheck (s.h.row l.toNat o.toNat) with
    | (s1, fail) =>
      let r := s.rowOutputs d.toNat a.toNat k.toNat l.toNat o.toNat f.toNat fail
      match s.h.run.bind (fun b => b.arithTrap r) with
      | some (c, v) => .next (s1.vtrap c v 0)
      | none => .next (s1.vdone (s1.h.putEls (aFmt f.toNat).acc d.toNat r) (flagsOf r)))

/-! `mwld` and `mwclr` (R271) -/

/-- The 64 KiB of a tile as a bit string. -/
def State.tileData (s : State) (loc : Nat) : Nat :=
  (s.mem.filter (fun e => loc ≤ e.1 && e.1 < loc + 65536)).foldl (fun x e => x + e.2.toNat * 2 ^ (8 * (e.1 - loc))) 0

/-- The poison of a tile, a bit for each bit: words of 8 bytes carry one mark (R165). -/
def State.tileBad (s : State) (loc : Nat) : Nat :=
  (s.psn.filter (fun e => loc ≤ e.1 && e.1 < loc + 65536)).foldl (fun x e => x + (2 ^ 64 - 1) * 2 ^ (8 * (e.1 - loc))) 0

/-- Some weight of a slot is poisoned (R263, R265). -/
def WSlot.anyBad (x : WSlot) : Bool :=
  let t := aFmt x.fmt
  x.badHdr || (if x.layout = 0 then bits x.bad 512 (t.n * t.k * t.w) != 0
    else (List.range (t.n * t.k)).any (fun i => (x.weight (i % t.k) (i / t.k)).bad))

/-- The slot that a tile loads (R263, R271): the word's format stands as FMT, also when the header is not valid (entry 23). -/
def loadedSlot (tag f data bad : Nat) : WSlot :=
  let x : WSlot := { tag := tag, fmt := f, layout := bits data 8 2, sig := bits data 16 8, psn := false, st := 2, data := data, bad := bad,
                     badHdr := !(headerOk f data && bits data 0 8 == f) || bits bad 0 512 != 0 }
  { x with psn := x.anyBad }

/-- `mwld` (R271): the slot is LOADED when the word completes. -/
def execMwld (_ : BitVec 1) (t : BitVec 4) (k : BitVec 2) (f : BitVec 4) (s : State) : Out :=
  s.matrixWord (fun w => s.mwldCheck w t.toNat k.toNat) (
    let loc := locScratch s.h.core (t.toNat * 65536)
    let s1 := (s.drainCore s.h.core).checkRead s.h.tid s.h.hid loc 65536
    let x := loadedSlot s.h.tid f.toNat (s1.tileData loc) (s1.tileBad loc)
    .next ((s1.setWSlot s.h.core k.toNat (fun _ => x)).vdone s1.h 0))

/-- `mwclr` (R271). -/
def execMwclr (_ : BitVec 1) (k : BitVec 2) (s : State) : Out :=
  s.matrixWord (fun w => s.mwclrCheck w k.toNat) (.next (((s.drainCore s.h.core).setWSlot s.h.core k.toNat WSlot.clear).vdone s.h 0))

end Sys2Proof.Machine
end

