-- ==== Sys2Proof/Machine/Vmem.lean ====
section
/-! DEFINITION. Vector loads and stores (majors 0x22 to 0x27; R151-R176) and operations at the Comb banks (VBOP, major 0x28;
R126-R129): element addresses, element checks and the cut, the fault record, described blocks, compress-and-append. -/

namespace Sys2Proof.Machine

/-! The fault record (R163, R164) -/

/-- The level at which a walk ends with PAGE: 1 to 4 at an invalid or malformed entry, 0 at an address with no memory (R164). -/
def State.walkLevel (s : State) (va : Nat) : List Level → Nat → Nat → Nat
  | [], _, _ => 0
  | l :: rest, n, base =>
    let pa := base + 8 * bits va l.lo l.width
    if !s.hasMemory pa then 0
    else
      let e := s.numFor (robTag (s.robAt pa)) pa 8
      if bit e 0 && !pteReserved e && ptePointer e && pointerOk l e then s.walkLevel va rest (n + 1) (pteAddr e)
      else if bit e 0 && !pteReserved e && !ptePointer e && leafOk l e then 0 else n

/-- The level of a failing walk of the hart in hand; 0 when translation is off. -/
def State.faultLevel (s : State) (va : Nat) : Nat :=
  let root := (s.tenant s.h.tid).ptbase.toNat
  if bit root 0 then s.walkLevel va levels 1 (bits root 20 32 * 2 ^ 20) else 0

/-- The walk of check 5 fails with PAGE under R87 or R61 (R163). -/
def State.misses (s : State) (va : Nat) : Bool :=
  match s.cached s.h.tid va with
  | some _ => false
  | none =>
    match s.walk s.h.tid va with
    | .leaf e size _ => !s.hasMemory (pteAddr e + va % 2 ^ size)
    | .page => true
    | _ => false

/-- The virtual page of an address, as the record lists it. -/
def pageOf (p : Word) : Nat := bits p.toNat 16 40

/-- The distinct missing pages among addresses, in order, after those already listed; the flag tells of a 33rd (R163). -/
def State.probe (s : State) : List Word → List Nat → List Nat × Bool
  | [], l => (l, false)
  | p :: rest, l =>
    if window p ≤ 1 && s.misses (bits p.toNat 0 56) && !l.contains (pageOf p) then
      if l.length = 32 then (l, true) else s.probe rest (l ++ [pageOf p])
    else s.probe rest l

/-- The fault record (R164): the cut, the listed pages with their levels, and whether the access was a store. -/
def State.faultRecord (s : State) (cut : Nat) (pages : List Nat) (more wr : Bool) : List Byte :=
  leBytes 8 (s.h.hid * 2 ^ 48 + pages.length * 2 ^ 40 + (if more then 2 ^ 39 else 0) + cut)
    ++ leBytes 8 s.gtb ++ leBytes 8 s.h.vaddr.toNat ++ List.replicate 40 0
    ++ pages.flatMap (fun q => leBytes 8 (q * 65536 + s.faultLevel (q * 65536) * 16 + (if wr then 8 else 0)))
    ++ List.replicate (8 * (32 - pages.length)) 0

/-- The region that FRECP names, if a record may be written there (R164). -/
def State.frecPlace (s : State) : Option Place :=
  if s.h.frecp = 0 || s.h.frecp.toNat % 64 ≠ 0 then none
  else
    match combOffset s.h.frecp with
    | none => none
    | some off =>
      match s.regionOf s.h.tid off with
      | none => none
      | some (i, r) =>
        if (r.disc = 0 || r.disc = 5) && r.covers (off + 319) &&
            (List.range 5).all (fun i => s.regionDisc r s.h.actor .store (off + 64 * i) 64 == .grant) then
          some { loc := locComb off, reg := some i, guard := none }
        else none

/-- The fault record written, or a KIND 10 record when its area is not valid (R164). -/
def State.writeFaultRecord (s : State) (rcd : List Byte) : State × List Byte :=
  match s.frecPlace with
  | some pl => (s.writeAt s.h.actor pl rcd false, rcd)
  | none => (s.mcheck 10 s.h.die s.h.tid s.h.hid s.h.core s.h.frecp 0, [])

/-! Traps of memory words -/

/-- A trap of a vector memory word at a cut: the rechecks below it end first, and a PAGE writes its record. `ends` are the first and last
bytes of what failed: the list of pages starts with the first of them that misses, or with the first byte's page. `probes` are the
addresses that the address unit goes on to try (R163, R164, R401). -/
def State.memTrap (s : State) (cause : Nat) (tval : Word) (cut : Nat) (ends probes : List Word) (wr : Bool) : State :=
  let s0 := s.drainRechecks
  if cause = cPAGE then
    let first := ((s0.probe ends []).1.head?).getD (pageOf (ends.headD 0))
    match s0.probe probes [first] with
    | (pages, more) =>
      match s0.writeFaultRecord (s0.faultRecord cut pages more wr) with
      | (s1, rcd) => s1.vectorTrap { cause := cause, tval := tval, tepc := s1.h.vaddr, frec := rcd } cut
  else s0.vtrap cause tval cut

/-- How the elements of a memory word end: all performed, a failed check, a wait, or a breakpoint (R159, R439). -/
inductive VEnd where
  | all
  | trap (e cause : Nat) (tval : Word)
  | wait (e : Nat) (party : Word)
  | halt (e bp : Nat)
deriving DecidableEq, Repr

/-- The element at which a memory word stops, if it does. -/
def VEnd.cut? : VEnd → Option Nat
  | .all => none
  | .trap e _ _ => some e
  | .wait e _ => some e
  | .halt e _ => some e

/-- An element lies below the one at which a memory word stops. -/
def VEnd.above (x : VEnd) (e : Nat) : Bool :=
  match x.cut? with
  | some c => e < c
  | none => true

/-- A wait that has reached IWL is a trap at its element. -/
def VEnd.expired (x : VEnd) (late : Bool) : VEnd :=
  match x with
  | .wait e q => if late then .trap e cWAITX q else x
  | _ => x

/-- What one element's checks answer. -/
inductive EChk where
  | ok (pls : List Place)
  | trap (cause : Nat) (tval : Word)
  | wait (party : Word)
deriving DecidableEq, Repr

/-! Breakpoints on elements (R439) -/

/-- The breakpoints of KIND 2 on an element of the word in hand. -/
def State.bpsAt (s : State) (e : Nat) : List Nat := (s.breakpoints 2 s.h.vaddr).filter (fun n => s.bpElem n == e)

/-- Those of them that are met: a resumed hart passes the ones at its cut once (R440). -/
def State.elemBreaks (s : State) (e cut : Nat) : List Nat :=
  (s.bpsAt e).filter (fun n => !(e == cut && s.h.passV.contains (n, s.h.vaddr)))

/-- An element reached: its samples, and the breakpoint that halts there, if one does. A word that goes on after a wait has reached the
elements up to the one that waited before. -/
def State.reach (s : State) (e cut : Nat) (at_ : Word) : State × Option Nat :=
  let l := s.elemBreaks e cut
  if l.isEmpty || s.h.viw.any (fun w => e ≤ w.elem) then (s, none) else (s.sample s.h.vaddr at_ l, (l.filter s.bpHalts).head?)

/-! The loop over elements -/

/-- The elements from a list performed one by one until one fails, waits or is watched (R159). -/
def State.runElems (one : State → Nat → State × EChk) (addr : Nat → Word) (cut : Nat) : List Nat → State → State × VEnd
  | [], s => (s, .all)
  | e :: rest, s =>
    match s.reach e cut (addr e) with
    | (s1, some n) => (s1, .halt e n)
    | (s1, none) =>
      match one s1 e with
      | (s2, .ok _) => runElems one addr cut rest s2
      | (s2, .trap c v) => (s2, .trap e c v)
      | (s2, .wait p) => (s2, .wait e p)

/-- The active elements from the cut on (R161). -/
def Hart.fromCut (h : Hart) (m : Nat) : List Nat := (h.actives m).filter (fun e => h.cut ≤ e)

/-- The hart halts at an element (R439, R440): every breakpoint there has been met. -/
def State.haltElem (s : State) (e n : Nat) (at_ : Word) : State :=
  (s.haltAt true n e s.h.vaddr at_).setH (fun h => { h with cut := e, passV := h.passV ++ (s.bpsAt e).map (fun k => (k, s.h.vaddr)) })

/-- A vector memory word ended (R159, R162): the first and last bytes of each element, `wr` for a store, `ff` for a fault-only-first
load. -/
def State.memEnd (r : State × VEnd) (m : Nat) (ends : Nat → List Word) (wr ff : Bool) : State :=
  match r with
  | (s, .all) => s.vdone s.h 0
  | (s, .wait e p) => s.vstall p e
  | (s, .halt e n) => s.haltElem e n ((ends e).headD 0)
  | (s, .trap e c v) =>
    if ff && e ≠ 0 && c ≠ cMCHK then s.vdone { s.h with vx := { s.h.vx with vl := e } } 0
    else s.memTrap c v e (ends e) (((s.h.actives m).filter (fun k => e < k)).flatMap ends) wr

/-! Element addresses and checks -/

/-- How a memory word addresses its elements (R155, R156): the bit position of element e from a byte address, the tile it is
confined to, and the index operand's poison and value. -/
structure Walker where
  base : Word
  /-- bits from one element to the next, for the unit and strided forms. -/
  step : Int
  off : Nat
  tile : Option Word
  /-- index register and width, and the multiplier of an index, for the indexed forms. -/
  index : Option (Nat × Nat × Nat)
deriving DecidableEq, Repr

/-- The index element, and whether it is poisoned. -/
def Hart.idx (h : Hart) (w : Walker) (e : Nat) : Nat × Bool :=
  match w.index with
  | some (r, iw, _) => h.el iw r e
  | none => (0, false)

/-- The bit offset of an element from the base. -/
def Hart.bitOff (h : Hart) (w : Walker) (e : Nat) : Int :=
  match w.index with
  | some (_, _, mul) => ((h.idx w e).1 * mul * 8 : Nat)
  | none => w.off + w.step * e

/-- a(e): the address of the first byte that an element touches, modulo 2^64. -/
def Hart.elAddr (h : Hart) (w : Walker) (e : Nat) : Word := w.base + BitVec.ofInt 64 (h.bitOff w e / 8)

/-- The bits below an element in its first byte. -/
def Hart.elShift (h : Hart) (w : Walker) (e : Nat) : Nat := (h.bitOff w e % 8).toNat

/-- The bytes that an element touches. -/
def Hart.elBytes (h : Hart) (w : Walker) (e : Nat) : Nat := (h.elShift w e + h.sew + 7) / 8

/-- The addresses of an element's first and last bytes; one address when it cannot reach into a second page (R156). -/
def Hart.elEnds (h : Hart) (w : Walker) (e : Nat) : List Word :=
  if h.sew < 8 then [h.elAddr w e, h.elAddr w e + word (h.elBytes w e - 1)] else [h.elAddr w e]

/-- The element lies within its tile (R155). -/
def Walker.inTile (w : Walker) (p : Word) (n : Nat) : Bool :=
  match w.tile with
  | some t => (p - t).toNat + n ≤ 65536
  | none => true

/-- The room that a write to come takes in the journal of its region or in the marks of its page, as a later check of the same element or word
finds it (R119, R120, R355). -/
def State.takeRoom (s : State) (pl : Place) (n : Nat) : State :=
  match pl.reg with
  | some i =>
    match s.region i with
    | some r =>
      if r.disc = 1 && r.jsize ≠ 0 then
        s.setRegion i (some { r with journal := r.journal ++ (r.unjournalled (pl.loc - 2 ^ 52) n).map (fun w => ⟨w, 0, false⟩) })
      else s
    | none => s
  | none => s.markLine pl

/-- The journals and marks as they stood before a run of checks. -/
def State.sameRoom (s s0 : State) : State := { s with regions := s0.regions, grdMarks := s0.grdMarks }

/-- The checks of bytes one by one, for sub-byte elements: TVAL is the first byte's address (R156, R158). -/
def State.byteChecks (s : State) (k : AKind) (p q : Word) : Nat → State × EChk
  | 0 => (s, .ok [])
  | n + 1 =>
    match s.access s.h.actor k q 1 1 with
    | (s1, .trap c v) => (s1, .trap c (pieceTval p q v))
    | (s1, .wait x) => (s1, .wait x)
    | (s1, .ok pl) =>
      match (if k.reads then s1 else s1.takeRoom pl 1).byteChecks k p (q + 1) n with
      | (s2, .ok l) => (s2, .ok (pl :: l))
      | r => r

/-- The checks of an element, 2 to 8 of R158. -/
def State.elemChecks (s : State) (k : AKind) (w : Walker) (e : Nat) : State × EChk :=
  let p := s.h.elAddr w e
  let n := s.h.elBytes w e
  if !w.inTile p n then (s, .trap cSPACE p)
  else if s.h.sew < 8 then ((s.byteChecks k p p n).1.sameRoom s, (s.byteChecks k p p n).2)
  else
    match s.access s.h.actor k p n n with
    | (s1, .trap c v) => (s1, .trap c v)
    | (s1, .wait x) => (s1, .wait x)
    | (s1, .ok pl) => (s1, .ok [pl])

/-- A further byte of an element read, which the Comb counts once (R415). -/
def State.readMore (s : State) (pl : Place) (n : Nat) : State × Nat × Bool :=
  if pl.reg.isSome then
    let s1 := s.checkRead s.h.tid s.h.hid pl.loc n
    (s1, s1.numFor s.h.tid pl.loc n, s1.poisoned pl.loc n)
  else s.readAt s.h.actor pl n

/-- Bytes read at a list of places as one number, each `n` bytes long; the first place is read first. -/
def State.gather (s : State) (n : Nat) (first : Bool) : List Place → State × Nat × Bool
  | [] => (s, 0, false)
  | pl :: rest =>
    match (if first then s.readAt s.h.actor pl n else s.readMore pl n) with
    | (s1, v, bad) =>
      match s1.gather n false rest with
      | (s2, v2, b2) => (s2, v + 2 ^ (8 * n) * v2, bad || b2)

/-- A load of one element into vd (R159, R165). -/
def State.loadElem (s : State) (w : Walker) (d : Nat) (e : Nat) : State × EChk :=
  let h := s.h
  if (h.idx w e).2 then (s.setH (fun k => k.putEl h.sew d e 0 true), .ok [])
  else
    match s.elemChecks .load w e with
    | (s1, .ok pls) =>
      match s1.gather (if h.sew < 8 then 1 else h.elBytes w e) true pls with
      | (s2, v, bad) => (s2.setH (fun k => k.putEl h.sew d e (bits v (h.elShift w e) h.sew) bad), .ok [])
    | r => r

/-- A byte merged at its home (R173): the bits that a sub-byte element does not write keep their values. The Comb counts an element once, at its
first byte (R415). -/
def State.mergeByte (s : State) (pl : Place) (lo n v : Nat) (bad first : Bool) : State :=
  let b := [BitVec.ofNat 8 (setBits (s.numFor s.h.tid pl.loc 1) lo n v)]
  if first then s.writeAt s.h.actor pl b bad else s.rmwAt s.h.actor pl b bad

/-- A sub-byte element stored: its bits from `lo` of the first byte on. -/
def State.mergeBytes (s : State) (lo n v : Nat) (bad first : Bool) : List Place → State
  | [] => s
  | pl :: rest =>
    let k := min n (8 - lo)
    (s.mergeByte pl lo k v bad first).mergeBytes 0 (n - k) (v / 2 ^ k) bad false rest

/-- A store of one element of a register group (R159, R166). Each element is a write of its own, so that a sector which elements cover
together keeps its PM mark (R73; the model's choice, entry 71). -/
def State.storeElem (s : State) (w : Walker) (v : Nat) (e : Nat) : State × EChk :=
  let h := s.h
  if (h.idx w e).2 then (s, .trap cSPOISON (word e))
  else
    match s.elemChecks .store w e with
    | (s1, .ok pls) =>
      let x := h.el h.sew v e
      match pls with
      | pl :: _ =>
        if h.sew < 8 then (s1.mergeBytes (h.elShift w e) h.sew x.1 x.2 true pls, .ok [])
        else (s1.writeAt h.actor pl (leBytes (h.elBytes w e) x.1) x.2, .ok [])
      | [] => (s1, .ok [])
    | r => r

/-- A wait for a party is over. -/
def Hart.waitedFor (h : Hart) (party : Word) : Hart := { h with viw := h.viw.filter (fun w => w.party ≠ party) }

/-- A vector load or store before its elements (R157): a bit offset outside 0 to 7, and a tile that is not READY, whose wait stands at
element 0. -/
def State.memStart (s : State) (off : Word) (tile : Option Nat) (f : State → State) : State :=
  if 8 ≤ off.toNat then s.vtrap cALIGN off 0
  else
    match tile with
    | some t =>
      if (s.tile s.h.core t).st ≠ 2 then s.vstallAt (partyWord 2 t) s.h.cut 0
      else f (s.drainRechecks.setH (fun h => h.waitedFor (partyWord 2 t)))
    | none => f s.drainRechecks

/-- A load of all its elements. -/
def vload (n : Hart → Need) (w : Walker) (off : Word) (tile : Option Nat) (d m : Nat) (ff : Bool) (s : State) : Out :=
  s.vissue n (.next (s.memStart off tile (fun s1 =>
    State.memEnd (State.runElems (fun t e => t.loadElem w d e) (s1.h.elAddr w) s1.h.cut (s1.h.fromCut m) s1) m (s1.h.elEnds w) false ff)))

/-- A store of all its elements. -/
def vstore (n : Hart → Need) (w : Walker) (off : Word) (tile : Option Nat) (v m : Nat) (s : State) : Out :=
  s.vissue n (.next (s.memStart off tile (fun s1 =>
    State.memEnd (State.runElems (fun t e => t.storeElem w v e) (s1.h.elAddr w) s1.h.cut (s1.h.fromCut m) s1) m (s1.h.elEnds w) true
      false)))

/-! The addressing forms (R151-R157) -/

/-- Elements narrower than a byte, and elements that are not. -/
def subType (_ sw : BitVec 3) : Bool := sw == 4 || sw == 5
def byteType (_ sw : BitVec 3) : Bool := !(sw == 4 || sw == 5)

def needLoad (t : BitVec 3 → BitVec 3 → Bool) (v : Nat) (h : Hart) : Need := Need.of t [(v, h.grp)] (.regs v h.grp)
def needStore (t : BitVec 3 → BitVec 3 → Bool) (v : Nat) (h : Hart) : Need := Need.of t [(v, h.grp)] .none

/-- The width of an index operand (R152, R153): 0 names SEW. -/
def Hart.iwidth (h : Hart) (w : Nat) : Nat := if w = 0 then h.sew else 8 * 2 ^ w

/-- The registers of an index operand (R155). -/
def Hart.igroup (h : Hart) (w : Nat) : Nat := h.grp * max 1 (h.iwidth w / h.sew)

/-- An indexed load: the index group may not overlap vd, unless it is vd itself at SEW (R157). -/
def needIndexed (t : BitVec 3 → BitVec 3 → Bool) (v i w : Nat) (h : Hart) : Need :=
  { Need.of t [(v, h.grp), (i, h.igroup w)] (.regs v h.grp) with
    apart := if v = i && h.iwidth w == h.sew then [] else [((v, h.grp), (i, h.igroup w))] }
def needIndexedStore (i w v : Nat) (h : Hart) : Need := Need.of byteType [(v, h.grp), (i, h.igroup w)] .none

/-- Consecutive elements from an address, at a bit offset. -/
def unitWalk (h : Hart) (b : Word) (off : Nat) : Walker := { base := b, step := h.sew, off := off, tile := none, index := none }

/-- Elements at a signed byte stride. -/
def stridedWalk (b : Word) (stride : Word) : Walker := { base := b, step := 8 * stride.toInt, off := 0, tile := none, index := none }

/-- Consecutive elements from an offset in a tile of the hart's own core. -/
def tileWalk (h : Hart) (b : Word) (t : Nat) : Walker :=
  { base := tilePointer h.core t + b, step := h.sew, off := 0, tile := some (tilePointer h.core t), index := none }

/-- Elements at indices of SEW or of a named width, counted in elements or in bytes. -/
def indexWalk (h : Hart) (b : Word) (i w : Nat) (scale : BitVec 1) : Walker :=
  { base := b, step := 0, off := 0, tile := none, index := some (i, h.iwidth w, if scale = 1 then 1 else h.sew / 8) }

def execVld (_ : BitVec 1) (v : BitVec 6) (b : BitVec 5) (m : BitVec 3) (_ : BitVec 1) (s : State) : Out :=
  vload (needLoad anyType v.toNat) (unitWalk s.h (s.h.code b.toNat) 0) 0 none v.toNat m.toNat false s
def execVldBo (_ : BitVec 1) (v : BitVec 6) (b : BitVec 5) (o : BitVec 6) (m : BitVec 3) (_ : BitVec 1) (s : State) : Out :=
  vload (needLoad subType v.toNat) (unitWalk s.h (s.h.code b.toNat) (s.h.code o.toNat).toNat) (s.h.code o.toNat) none v.toNat m.toNat
    false s
def execVldS (_ : BitVec 1) (v : BitVec 6) (b : BitVec 5) (k : BitVec 6) (m : BitVec 3) (_ : BitVec 1) (s : State) : Out :=
  vload (needLoad byteType v.toNat) (stridedWalk (s.h.code b.toNat) (s.h.code k.toNat)) 0 none v.toNat m.toNat false s
def execVldT (_ : BitVec 1) (v : BitVec 6) (b : BitVec 5) (t : BitVec 4) (m : BitVec 3) (_ : BitVec 1) (s : State) : Out :=
  vload (needLoad anyType v.toNat) (tileWalk s.h (s.h.code b.toNat) t.toNat) 0 (some t.toNat) v.toNat m.toNat false s
def execVldFf (_ : BitVec 1) (v : BitVec 6) (b : BitVec 5) (m : BitVec 3) (_ : BitVec 1) (s : State) : Out :=
  vload (needLoad anyType v.toNat) (unitWalk s.h (s.h.code b.toNat) 0) 0 none v.toNat m.toNat true s
def execVldFfBo (_ : BitVec 1) (v : BitVec 6) (b : BitVec 5) (o : BitVec 6) (m : BitVec 3) (_ : BitVec 1) (s : State) : Out :=
  vload (needLoad subType v.toNat) (unitWalk s.h (s.h.code b.toNat) (s.h.code o.toNat).toNat) (s.h.code o.toNat) none v.toNat m.toNat
    true s
def execVldx (_ : BitVec 1) (v : BitVec 6) (b : BitVec 5) (i : BitVec 6) (m : BitVec 3) (w : BitVec 2) (k : BitVec 1) (s : State) : Out :=
  vload (needIndexed byteType v.toNat i.toNat w.toNat) (indexWalk s.h (s.h.code b.toNat) i.toNat w.toNat k) 0 none v.toNat m.toNat false s
def execVst (_ : BitVec 1) (v : BitVec 6) (b : BitVec 5) (m : BitVec 3) (_ : BitVec 1) (s : State) : Out :=
  vstore (needStore anyType v.toNat) (unitWalk s.h (s.h.code b.toNat) 0) 0 none v.toNat m.toNat s
def execVstBo (_ : BitVec 1) (v : BitVec 6) (b : BitVec 5) (o : BitVec 6) (m : BitVec 3) (_ : BitVec 1) (s : State) : Out :=
  vstore (needStore subType v.toNat) (unitWalk s.h (s.h.code b.toNat) (s.h.code o.toNat).toNat) (s.h.code o.toNat) none v.toNat m.toNat s
def execVstS (_ : BitVec 1) (v : BitVec 6) (b : BitVec 5) (k : BitVec 6) (m : BitVec 3) (_ : BitVec 1) (s : State) : Out :=
  vstore (needStore byteType v.toNat) (stridedWalk (s.h.code b.toNat) (s.h.code k.toNat)) 0 none v.toNat m.toNat s
def execVstT (_ : BitVec 1) (v : BitVec 6) (b : BitVec 5) (t : BitVec 4) (m : BitVec 3) (_ : BitVec 1) (s : State) : Out :=
  vstore (needStore anyType v.toNat) (tileWalk s.h (s.h.code b.toNat) t.toNat) 0 (some t.toNat) v.toNat m.toNat s
def execVstx (_ : BitVec 1) (v : BitVec 6) (b : BitVec 5) (i : BitVec 6) (m : BitVec 3) (w : BitVec 2) (k : BitVec 1) (s : State) : Out :=
  vstore (needIndexedStore i.toNat w.toNat v.toNat) (indexWalk s.h (s.h.code b.toNat) i.toNat w.toNat k) 0 none v.toNat m.toNat s

/-! Described blocks (R167-R169, R205) -/

/-- A described format: element width, count, and the type class and width code of its elements (R205). -/
structure DFmt where
  w : Nat
  count : Nat
  y : BitVec 3
  sw : BitVec 3
deriving DecidableEq, Repr

/-- The table of R205. -/
def dFmt (code : Nat) : Option DFmt :=
  match code with
  | 1 => some ⟨8, 62, 3, 0⟩
  | 2 => some ⟨6, 82, 3, 5⟩
  | 3 => some ⟨4, 124, 3, 4⟩
  | 4 => some ⟨8, 62, 0, 0⟩
  | 5 => some ⟨4, 124, 0, 4⟩
  | 6 => some ⟨16, 31, 2, 1⟩
  | 7 => some ⟨16, 31, 1, 1⟩
  | _ => none

/-- A value scaled by a power of ten. -/
def FVal.scale (x : FVal) (e : Int) : FVal :=
  match x with
  | .rat n d => .rat (n * (pow10 e).1) (d * (pow10 e).2)
  | v => v

/-- The value of an element code of a described format at a scale (R205). -/
def DFmt.value (f : DFmt) (sc : Int) (x : Nat) : FVal := (typedVal f.y f.sw false 0 x).scale sc

/-- The types that VLDD writes and VSTD reads (R157). -/
def describedType (y sw : BitVec 3) : Bool := y == 3 || y == 2 || (y == 1 && (sw == 1 || sw == 2))

/-- A block as read: its bits, the poison of each of its eight 8-byte words, and whether it is invalid as a whole (R167). -/
structure DBlk where
  data : Nat
  bad : List Nat
  void : Bool
deriving DecidableEq, Repr

/-- The format of a block: an invalid one counts as 62 elements. -/
def DBlk.fmt (k : DBlk) : DFmt := if k.void then ⟨8, 62, 3, 0⟩ else (dFmt (bits k.data 0 8)).getD ⟨8, 62, 3, 0⟩

/-- Element `i` of a block: its value, and whether it is poisoned. -/
def DBlk.elem (k : DBlk) (i : Nat) : FVal × Bool :=
  if k.void then (.zero false, true)
  else
    let f := k.fmt
    let lo := 16 + i * f.w
    (f.value (sgn (bits k.data 8 8) 8) (bits k.data lo f.w), k.bad.any (fun u => u == lo / 64 || u == (lo + f.w - 1) / 64))

/-- The block at its place: the header's sector decides whether it is void. -/
def State.readBlk (s : State) (pl : Place) : State × DBlk :=
  match s.readAt s.h.actor pl 64 with
  | (s1, v, _) =>
    let bad := (List.range 8).filter (fun u => s1.poisonAt (pl.loc + 8 * u))
    (s1, { data := v, bad := bad, void := (dFmt (bits v 0 8)).isNone || bad.any (fun u => u < 4) })

/-- The result of a block's element in the current type (R168): a void block writes 0, poisoned. -/
def Hart.blkResult (h : Hart) (k : DBlk) (i : Nat) : ERes :=
  if k.void then { val := 0, bad := true, fl := 0 }
  else
    let t := h.vx.vtype
    let r := intoType t.ty t.sw false h.vrm h.vscale (k.elem i).1
    { val := r.1, bad := (k.elem i).2, fl := r.2 }

/-- What VLDD has gathered: results in ascending order, and how it ended. -/
structure Gathered where
  res : List (Nat × ERes)
  fin : VEnd
  addr : Word
deriving DecidableEq, Repr

/-- The results of one block from element `e0`, up to a watched element (R439). The block's first element is reached before its checks. -/
def State.blkElems (s : State) (m cut e0 : Nat) (k : DBlk) (p : Word) : List Nat → State × List (Nat × ERes) × Option (Nat × Nat)
  | [] => (s, [], none)
  | i :: rest =>
    let e := e0 + i
    if e < cut || s.h.vx.vl ≤ e || !s.h.active m e then s.blkElems m cut e0 k p rest
    else
      match (if i = 0 then (s, none) else s.reach e cut p) with
      | (s1, some n) => (s1, [], some (e, n))
      | (s1, none) =>
        match s1.blkElems m cut e0 k p rest with
        | (s2, l, x) => (s2, (e, s.h.blkResult k i) :: l, x)

/-- VLDD's walk over blocks (R168) from block `j` at element `e`, `n` blocks at most: `addr` gives a block's address, or none for a
poisoned index. -/
def State.blocks (addr : Nat → Option Word) (m cut : Nat) : Nat → Nat → Nat → State → List (Nat × ERes) → State × Gathered
  | 0, _, _, s, acc => (s, { res := acc, fin := .all, addr := 0 })
  | n + 1, j, e, s, acc =>
    if s.h.vx.vl ≤ e then (s, { res := acc, fin := .all, addr := 0 })
    else
      let void : DBlk := { data := 0, bad := [], void := true }
      let p := (addr j).getD 0
      match (if cut ≤ e && s.h.active m e then s.reach e cut p else (s, none)) with
      | (s0, some bp) => (s0, { res := acc, fin := .halt e bp, addr := p })
      | (s0, none) =>
      match (if (addr j).isNone then (s0, Res.ok { loc := 0, reg := none, guard := none }) else s0.access s0.h.actor .load p 64 64) with
      | (s1, .trap c v) => (s1, { res := acc, fin := .trap (max e cut) c v, addr := p })
      | (s1, .wait q) => (s1, { res := acc, fin := .wait (max e cut) q, addr := p })
      | (s1, .ok pl) =>
        match (if (addr j).isNone then (s1, void) else s1.readBlk pl) with
        | (s2, k) =>
          match s2.blkElems m cut e k p (List.range k.fmt.count) with
          | (s3, l, some (x, bp)) => (s3, { res := acc ++ l, fin := .halt x bp, addr := p })
          | (s3, l, none) => blocks addr m cut n (j + 1) (e + k.fmt.count) s3 (acc ++ l)

/-- The lowest unpoisoned result that raises an enabled flag (R168, R198). -/
def Block.firstTrap (b : Block) (l : List (Nat × ERes)) : Option Nat :=
  (l.find? (fun e => !e.2.bad && flTraps b.fen e.2.fl)).map (fun e => e.1)

/-- Flags raised by a memory word's performed elements. -/
def State.raise (s : State) (fl : Nat) : State := s.setH (fun h => { h with run := h.run.map (fun b => b.raise fl) })

/-- VLDD ends (R168): FPE when the lowest enabled flag lies below the cut, else the elements below the cut are written. A wait leaves
nothing done, and `late` says that it has expired. -/
def State.vlddEnd (s : State) (d : Nat) (g : Gathered) (late : Bool) : State :=
  if (s.h.run.bind (fun b => b.firstTrap g.res)).isSome then s.vtrap cFPE (word (flagsOf g.res % 32)) 0
  else
    let done := (s.setH (fun h => h.putEls h.sew d g.res)).raise (flagsOf g.res)
    match g.fin.expired late with
    | .all => done.vdone done.h 0
    | .wait e q => s.vstallAt q s.h.cut e
    | .halt e n => done.haltElem e n g.addr
    | .trap e c v => done.memTrap c v e [g.addr] [] false

/-- VLDD over a function of block addresses. -/
def vlddRun (addr : Hart → Nat → Option Word) (d m : Nat) (late : Bool) (s : State) : State :=
  let s0 := s.drainRechecks
  match State.blocks (addr s0.h) m s0.h.cut (s0.h.vx.vl + 1) 0 0 s0 [] with
  | (s1, g) => s1.vlddEnd d g late

/-- Consecutive blocks from the base. -/
def blkAddr (b : Nat) (h : Hart) (j : Nat) : Option Word := some (h.code b + word (64 * j))

/-- Blocks at indices; none for a poisoned index. -/
def blkIndexed (b i w : Nat) (h : Hart) (j : Nat) : Option Word :=
  let x := h.el (h.iwidth w) i j
  if x.2 then none else some (h.code b + word (64 * x.1))

def execVldd (_ : BitVec 1) (v : BitVec 6) (b : BitVec 5) (m : BitVec 3) (s : State) : Out :=
  s.vissue (needLoad describedType v.toNat) (.next (vlddRun (blkAddr b.toNat) v.toNat m.toNat false s))
def execVlddX (_ : BitVec 1) (v : BitVec 6) (b : BitVec 5) (i : BitVec 6) (m : BitVec 3) (w : BitVec 2) (s : State) : Out :=
  s.vissue (needIndexed describedType v.toNat i.toNat w.toNat)
    (.next (vlddRun (blkIndexed b.toNat i.toNat w.toNat) v.toNat m.toNat false s))

/-- An element encoded into a described format at DSCALE (R169). -/
def Hart.describe (h : Hart) (f : DFmt) (v e : Nat) : ERes :=
  let t := h.vx.vtype
  let x := h.el h.sew v e
  let y := typedVal t.ty t.sw false h.vscale x.1
  let r :=
    if f.y = 3 then dcode y (f.w - 1) h.vscale
    else intoType f.y f.sw false (if f.y = 0 then 0 else h.vrm) 0 (y.scale (-h.vscale))
  { val := r.1, bad := x.2, fl := r.2 }

/-- A block that VSTD writes: its bytes, and the 8-byte words that poisoned elements touch. -/
structure OutBlk where
  data : List Byte
  bad : List Nat
deriving DecidableEq, Repr

/-- Block `j` of format `code`: the header, the elements below VL, zeros beyond (R169). -/
def Hart.outBlk (h : Hart) (code : Nat) (f : DFmt) (l : List (Nat × ERes)) (j : Nat) : OutBlk :=
  let mine := l.filter (fun e => j * f.count ≤ e.1 && e.1 < (j + 1) * f.count)
  let lo := fun (e : Nat × ERes) => 16 + (e.1 - j * f.count) * f.w
  { data := leBytes 64 (mine.foldl (fun x e => x + e.2.val * 2 ^ lo e) (code + unsg h.vscale 8 * 256)),
    bad := (mine.filter (fun e => e.2.bad)).flatMap (fun e => [lo e / 64, (lo e + f.w - 1) / 64]) }

/-- The marks of the words of a block that poisoned elements touch (R166). -/
def State.markBlk (s : State) (pl : Place) (k : OutBlk) : State :=
  if isMain pl.loc && !s.hasKey s.h.tid then s
  else { s with psn := putMarks s.psn true (k.bad.map (fun u => unitOf (pl.loc + 8 * u))) }

/-- A block written at its place (R166, R169): clean, and then the marks of the words that poisoned elements touch. -/
def State.writeBlk (s : State) (pl : Place) (k : OutBlk) : State := (s.writeAt s.h.actor pl k.data false).markBlk pl k

/-- What VSTD writes of a block at its place: bits `lo` to `hi - 1`, fewer than 512 where the word goes on from or stops at an element
inside it (R439; entry 70). -/
structure BlkPart where
  pl : Place
  num : Nat
  lo : Nat
  hi : Nat
deriving DecidableEq, Repr

/-- A part of a block written: the whole of it as one write, else its bits merged at their home. -/
def State.writePart (s : State) (b : BlkPart) (k : OutBlk) : State :=
  if b.lo = 0 && b.hi = 512 then s.writeBlk b.pl k
  else if b.hi ≤ b.lo then s
  else
    (s.mergeBytes (b.lo % 8) (b.hi - b.lo) (leNat k.data / 2 ^ b.lo) false true
      ((List.range ((b.hi + 7) / 8 - b.lo / 8)).map (fun i => { b.pl with loc := b.pl.loc + b.lo / 8 + i }))).markBlk b.pl k

/-- Elements reached in order, up to a watched one. -/
def State.reachAll (s : State) (cut : Nat) (p : Word) : List Nat → State × Option (Nat × Nat)
  | [] => (s, none)
  | e :: rest =>
    match s.reach e cut p with
    | (s1, some n) => (s1, some (e, n))
    | (s1, none) => s1.reachAll cut p rest

/-- The checks of VSTD's blocks in order: the parts that are to be written, and how it ended. A block's first element is reached before
its checks, the others after them (R439); each finds the room that the blocks below it take (R120, R355). -/
def State.blkChecks (s : State) (b : Word) (f : DFmt) (cut : Nat) : List Nat → State × List BlkPart × VEnd × Word
  | [] => (s, [], .all, 0)
  | j :: rest =>
    let p := b + word (64 * j)
    let first := j * f.count
    let inner := (List.range f.count).map (fun i => first + i)
    let mine := inner.filter (fun e => cut ≤ e && e < s.h.vx.vl)
    let bitOf := fun e => if e ≤ first then 0 else 16 + (e - first) * f.w
    match s.reachAll cut p (mine.filter (fun e => e == first)) with
    | (s0, some (e, n)) => (s0, [], .halt e n, p)
    | (s0, none) =>
      match s0.access s0.h.actor .store p 64 64 with
      | (s1, .trap c v) => (s1, [], .trap (max first cut) c v, p)
      | (s1, .wait q) => (s1, [], .wait (max first cut) q, p)
      | (s1, .ok pl) =>
        match s1.reachAll cut p (mine.filter (fun e => e != first)) with
        | (s2, some (e, n)) => (s2, [⟨pl, j, bitOf cut, bitOf e⟩], .halt e n, p)
        | (s2, none) =>
          match (s2.takeRoom pl 64).blkChecks b f cut rest with
          | (s3, l, x) => (s3, ⟨pl, j, bitOf cut, 512⟩ :: l, x)

/-- VSTD (R169): every flag is found before any block is sent. -/
def vstdRun (v b code : Nat) (late : Bool) (s : State) : State :=
  let s0 := s.drainRechecks
  let f := (dFmt code).getD ⟨8, 62, 3, 0⟩
  let vl := s0.h.vx.vl
  let js := (List.range ((vl + f.count - 1) / f.count)).filter (fun j => s0.h.cut / f.count ≤ j)
  let l := ((List.range vl).filter (fun e => s0.h.cut ≤ e)).map (fun e => (e, s0.h.describe f v e))
  match s0.blkChecks (s0.h.code b) f s0.h.cut js with
  | (sc, parts, fin0, p) =>
    let s1 := sc.sameRoom s0
    let fin := fin0.expired late
    let below := l.filter (fun e => fin.above e.1)
    match s1.h.run.bind (fun k => k.firstTrap below) with
    | some _ => s1.vtrap cFPE (word (flagsOf l % 32)) 0
    | none =>
      let sent := parts.foldl (fun t x => t.writePart x (t.h.outBlk code f below x.num)) s1
      let done := sent.raise (flagsOf below)
      match fin with
      | .all => done.vdone done.h 0
      | .wait e q => s1.vstallAt q s0.h.cut e
      | .halt e n => done.haltElem e n p
      | .trap e c x => done.memTrap c x e [p] ((js.filter (fun j => e < j * f.count)).map (fun j => s0.h.code b + word (64 * j))) true

def execVstd (_ : BitVec 1) (v : BitVec 6) (b : BitVec 5) (f : BitVec 3) (s : State) : Out :=
  s.vissue (needStore describedType v.toNat) (.next (vstdRun v.toNat b.toNat f.toNat false s))

/-! Compress-and-append (R170-R172) -/

/-- FCODE of R171. -/
def appCode (cause : Nat) : Nat :=
  if cause = cSPACE then 1 else if cause = cPAGE then 2 else if cause = cPROT then 3 else if cause = cDISC then 4
  else if cause = cFOREIGN then 5 else if cause = cALIGN then 6 else 7

/-- The result word of R171, and the word's completion. -/
def State.appDone (s : State) (r t g n w fcode : Nat) : State :=
  let x := (if g < n then 2 ^ 63 else 0) + (if fcode = 0 then 0 else 2 ^ 62) + w * 2 ^ 40 + fcode * 2 ^ 32 + t
  s.vdone (s.h.setCode (8 + r) (word x)) 0

/-- The place of an element among the active ones (R170). -/
def Hart.appPos (h : Hart) (m e : Nat) : Nat := ((h.actives m).filter (fun k => k < e)).length

/-- The address of an element's slot: slot t plus its place among the active elements (R171). -/
def Hart.appAddr (h : Hart) (m : Nat) (data : Word) (t e : Nat) : Word := data + word ((t + h.appPos m e) * (h.sew / 8))

/-- One element written to its slot (R171). A slot of window 1 fails as one outside the windows of R170 (entry 29). -/
def State.appElem (s : State) (v m : Nat) (data : Word) (t e : Nat) : State × EChk :=
  let h := s.h
  let sz := h.sew / 8
  if window (h.appAddr m data t e) = 1 then (s, .trap cSPACE (h.appAddr m data t e))
  else
  match s.access h.actor .store (h.appAddr m data t e) sz sz with
  | (s1, .trap c q) => (s1, .trap c q)
  | (s1, .wait q) => (s1, .wait q)
  | (s1, .ok pl) => (s1.writeAt s1.h.actor pl (leBytes sz (h.el h.sew v e).1) (h.el h.sew v e).2, .ok [])

/-- The slot writes from the cut on (R171). -/
def State.appWrites (s : State) (v r m : Nat) (data : Word) (t g n : Nat) (late : Bool) : State :=
  let pos := s.h.appPos m
  let at_ := s.h.appAddr m data t
  match State.runElems (fun x e => x.appElem v m data t e) at_ s.h.cut (((s.h.actives m).take g).filter (fun e => s.h.cut ≤ e)) s with
  | (s1, .all) => s1.appDone r t g n g 0
  | (s1, .trap e c _) => s1.appDone r t g n (pos e) (appCode c)
  | (s1, .wait e q) => if late then s1.appDone r t g n (pos e) 7 else s1.vstall q e
  | (s1, .halt e k) => s1.haltElem e k (at_ e)

/-- The header's checks (R170, R171): a Comb pointer, an AMO-class access, an ATM or OPN region of TYPE 2, 3 or 7. -/
def State.appHeader (s : State) (b : Word) : State × Res :=
  if window b ≠ 3 then (s, .trap cSPACE b)
  else
    match s.access s.h.actor .amo b 32 32 with
    | (s1, .ok pl) =>
      match pl.reg.bind s1.region with
      | some r => if (r.disc = 4 || r.disc = 5) && (r.ty = 2 || r.ty = 3 || r.ty = 7) then (s1, .ok pl) else (s1, .trap cDISC b)
      | none => (s1, .trap cDISC b)
    | x => x

/-- The reservation at the header's home (R171), atomically and as one bank operation (R415), and then the slot writes. -/
def State.appReserve (s : State) (v r m : Nat) (b : Word) (pl : Place) : State :=
  match s.readAt s.h.actor pl 32 with
  | (s1, x, bad) =>
    let cap := bits x 64 32
    let t := bits x 128 32
    if bad then s1.vtrap cSPOISON b 0
    else if bits x 96 32 ≠ 0 || bits x 160 96 ≠ 0 || cap < t then s1.vtrap cDISC b 0
    else
      let n := (s1.h.actives m).length
      let g := min n (cap - t)
      let s2 := s1.rmwAt s1.h.actor { pl with loc := pl.loc + 16 } (leBytes 8 (t + g)) false
      (s2.setH (fun h => { h with app := some (word (bits x 0 64), t, g, n), viw := none })).appWrites v r m (word (bits x 0 64)) t g n false

/-- `vst.app` (R171): a word that has made its reservation goes on with its writes. -/
def execVstApp (_ : BitVec 1) (v : BitVec 6) (b : BitVec 5) (r m : BitVec 3) (_ : BitVec 1) (s : State) : Out :=
  s.vissue (needStore byteType v.toNat) (
    let s0 := s.drainRechecks
    match s0.h.app with
    | some (data, t, g, n) => .next (s0.appWrites v.toNat r.toNat m.toNat data t g n false)
    | none =>
      match s0.appHeader (s0.h.code b.toNat) with
      | (s1, .trap c q) => .next (s1.memTrap c q 0 [s1.h.code b.toNat] [] true)
      | (s1, .wait q) => .next (s1.vstall q 0)
      | (s1, .ok pl) => .next (s1.appReserve v.toNat r.toNat m.toNat (s1.h.code b.toNat) pl))

/-! VBOP (R126-R129) -/

/-- The elements that an operation of the banks admits (R127). -/
def bopType (o : AmoOp) (_ sw : BitVec 3) : Bool := sw == 3 || (sw == 2 && o != .qadd)

/-- The needs of a VBOP: the data group, and the index group when indexed. -/
def needVbop (o : AmoOp) (v i p : Nat) (h : Hart) : Need :=
  Need.of (bopType o) (if p = 1 then [(v, h.grp), (i, h.grp)] else [(v, h.grp)]) .none

/-- The checks of an element (R129). -/
def State.bopChecks (s : State) (o : AmoOp) (p : Word) (n : Nat) : State × EChk :=
  if window p ≠ 3 then (s, .trap cSPACE p)
  else
    match s.access s.h.actor .vbop p n n with
    | (s1, .trap c v) => (s1, .trap c v)
    | (s1, .wait q) => if s1.amoSuits o p n then (s1, .wait q) else (s1, .trap cDISC p)
    | (s1, .ok pl) => if s1.amoSuits o p n then (s1, .ok [pl]) else (s1, .trap cDISC p)

/-- The element applied at its home (R127), its journal entry stored first (R120): a poisoned target stays as it is, a poisoned element
poisons it. -/
def State.bopApply (s : State) (o : AmoOp) (p : Word) (pl : Place) (n v : Nat) (bad : Bool) : State :=
  match (s.amoNote o pl n).readAt s.h.actor pl n with
  | (s1, old, tbad) =>
    if tbad then s1
    else
      let r := o.eval n (s1.amoModulus p) old v 0
      let s2 := s1.rmwAt s1.h.actor pl (leBytes n r.1) bad
      if bad then s2 else s2.raise r.2

/-- One element of a VBOP: a poisoned index traps SPOISON (entry 24). -/
def State.bopElem (s : State) (o : AmoOp) (w : Walker) (v e : Nat) : State × EChk :=
  let h := s.h
  let n := h.sew / 8
  if (h.idx w e).2 then (s, .trap cSPOISON (word e))
  else
    let p := h.elAddr w e
    match s.bopChecks o p n with
    | (s1, .ok (pl :: _)) => (s1.bopApply o p pl n (h.el h.sew v e).1 (h.el h.sew v e).2, .ok [])
    | (s1, .ok []) => (s1, .ok [])
    | r => r

/-- The flags that the running block has raised. -/
def Hart.raised (h : Hart) : Nat := (h.run.map (fun b => b.flags)).getD 0

/-- The block's flags replaced. -/
def Hart.setRaised (h : Hart) (fl : Nat) : Hart := { h with run := h.run.map (fun b => { b with flags := fl }) }

/-- The elements of a VBOP from the cut on, its checks of the base passed. -/
def State.bopRun (s : State) (o : AmoOp) (w : Walker) (v m : Nat) : State × VEnd :=
  State.runElems (fun t e => t.bopElem o w v e) (s.h.elAddr w) s.h.cut (s.h.fromCut m) s

/-- The elements of the word in hand up to one are reached, and their samples taken (R439). -/
def State.reachTo (s : State) (m e : Nat) (at_ : Nat → Word) : State :=
  ((s.h.fromCut m).filter (fun k => k ≤ e)).foldl (fun t k => (t.reach k s.h.cut (at_ k)).1) s

/-- `vbop.fadd` ends (R198): an element below the cut that raises an enabled flag traps FPE with nothing applied. A wait leaves nothing
applied, with its samples taken, and `late` says that it has expired. `r` is the run with the flags of this word alone. -/
def State.faddEnd (s : State) (r : State × VEnd) (m : Nat) (ends : Nat → List Word) (late : Bool) : State :=
  if s.h.run.any (fun b => flTraps b.fen r.1.h.raised) then s.vtrap cFPE (word (r.1.h.raised % 32)) 0
  else
    match r.2.expired late with
    | .wait e q => (s.reachTo m e (fun k => (ends k).headD 0)).vstallAt q s.h.cut e
    | fin => State.memEnd (r.1.raise s.h.raised, fin) m ends true false

/-- A VBOP (R127): unit-stride, indexed at SEW, or all to one word. -/
def vbopRun (o : AmoOp) (v i m p : Nat) (base : Nat) (late : Bool) (s : State) : State :=
  let s0 := s.drainRechecks
  let b := s0.h.code base
  let w := if p = 1 then indexWalk s0.h b i 0 0 else if p = 2 then stridedWalk b 0 else unitWalk s0.h b 0
  if window b ≠ 3 then s0.vtrap cSPACE b 0
  else if o = .fadd then s0.faddEnd ((s0.setH (fun h => h.setRaised 0)).bopRun o w v m) m (s0.h.elEnds w) late
  else State.memEnd (s0.bopRun o w v m) m (s0.h.elEnds w) true false

/-- A VBOP with its issue checks. -/
def vbop (o : AmoOp) (v i m p : Nat) (base : Nat) (s : State) : Out :=
  s.vissue (needVbop o v i p) (.next (vbopRun o v i m p base false s))

def execVbopAdd (_ : BitVec 1) (v : BitVec 6) (b : BitVec 5) (i : BitVec 6) (m : BitVec 3) (p : BitVec 2) (s : State) : Out :=
  vbop .add v.toNat i.toNat m.toNat p.toNat b.toNat s
def execVbopAnd (_ : BitVec 1) (v : BitVec 6) (b : BitVec 5) (i : BitVec 6) (m : BitVec 3) (p : BitVec 2) (s : State) : Out :=
  vbop .and v.toNat i.toNat m.toNat p.toNat b.toNat s
def execVbopOr (_ : BitVec 1) (v : BitVec 6) (b : BitVec 5) (i : BitVec 6) (m : BitVec 3) (p : BitVec 2) (s : State) : Out :=
  vbop .or v.toNat i.toNat m.toNat p.toNat b.toNat s
def execVbopXor (_ : BitVec 1) (v : BitVec 6) (b : BitVec 5) (i : BitVec 6) (m : BitVec 3) (p : BitVec 2) (s : State) : Out :=
  vbop .xor v.toNat i.toNat m.toNat p.toNat b.toNat s
def execVbopSmin (_ : BitVec 1) (v : BitVec 6) (b : BitVec 5) (i : BitVec 6) (m : BitVec 3) (p : BitVec 2) (s : State) : Out :=
  vbop .smin v.toNat i.toNat m.toNat p.toNat b.toNat s
def execVbopSmax (_ : BitVec 1) (v : BitVec 6) (b : BitVec 5) (i : BitVec 6) (m : BitVec 3) (p : BitVec 2) (s : State) : Out :=
  vbop .smax v.toNat i.toNat m.toNat p.toNat b.toNat s
def execVbopFadd (_ : BitVec 1) (v : BitVec 6) (b : BitVec 5) (i : BitVec 6) (m : BitVec 3) (p : BitVec 2) (s : State) : Out :=
  vbop .fadd v.toNat i.toNat m.toNat p.toNat b.toNat s
def execVbopQadd (_ : BitVec 1) (v : BitVec 6) (b : BitVec 5) (i : BitVec 6) (m : BitVec 3) (p : BitVec 2) (s : State) : Out :=
  vbop .qadd v.toNat i.toNat m.toNat p.toNat b.toNat s

/-! A wait of a vector word that has reached IWL (R162, R168, R169, R171, R334) -/

/-- The word in hand has waited for a party up to IWL: WAITX at the element that waited, but a fault-only-first load shortens VL; VLDD, VSTD
and `vbop.fadd` first perform what stands below it; and a compress-and-append that has reserved ends with FCODE 7. -/
def State.waitOut (s : State) (party : Word) : State :=
  let e := (s.h.viw.map (fun w => w.elem)).getD s.h.cut
  let w := s.h.vword
  let v := (w.extractLsb' 19 6).toNat
  let b := (w.extractLsb' 14 5).toNat
  let m := (w.extractLsb' 5 3).toNat
  let plain := s.vtrap cWAITX party e
  match opOf w with
  | some .vldFf => if e = 0 then plain else s.vdone { s.h with vx := { s.h.vx with vl := e } } 0
  | some .vldFfBo => if e = 0 then plain else s.vdone { s.h with vx := { s.h.vx with vl := e } } 0
  | some .vbopFadd => vbopRun .fadd v (w.extractLsb' 8 6).toNat m (w.extractLsb' 3 2).toNat b true s
  | some .vldd => vlddRun (blkAddr b) v m true s
  | some .vlddX => vlddRun (blkIndexed b (w.extractLsb' 8 6).toNat (w.extractLsb' 1 2).toNat) v m true s
  | some .vstd => vstdRun v b (w.extractLsb' 0 3).toNat true s
  | some .vstApp =>
    match s.h.app with
    | some (data, t, g, n) => s.appWrites v (w.extractLsb' 8 3).toNat m data t g n true
    | none => plain
  | _ => plain

end Sys2Proof.Machine
end

