-- ==== Sys2Proof/Machine/Vseq.lean ====
section
/-! DEFINITION. The words of the sequencer class: VSET (major 0x20; R183, R184), VBLK (major 0x21; R313-R318) and VMISC (major 0x38;
R189, R190). -/

namespace Sys2Proof.Machine

/-! VSET -/

/-- The longest grant (R184): VLMAX, limited by the lanes that the power controller allows. -/
def Hart.grantMax (h : Hart) (g : BitVec 2) (w : Nat) : Nat :=
  let m := min (2 ^ g.toNat * h.maxvl w) 65536
  if h.lp < h.lanes then min m (h.lp * 1024 / w) else m

/-- VSETL's effect for a requested count (R184). -/
def State.grant (s : State) (d : BitVec 4) (g : BitVec 2) (y sw : BitVec 3) (req : Nat) : State :=
  let vl := min req (s.h.grantMax g (widthOf sw))
  let h1 := { s.h with vx := { s.h.vx with vl := vl, vtype := { vill := false, g := g, ty := y, sw := sw } } }
  s.vdone (h1.setCode d.toNat (word vl)) 0

/-- `vsetl d, a, type, g` (R184). -/
def execVsetl (_ : BitVec 1) (d : BitVec 4) (a : BitVec 6) (g : BitVec 2) (y sw : BitVec 3) (s : State) : Out :=
  .next (s.grant d g y sw (s.h.code a.toNat).toNat)

/-- `vsetl.max d, type, g` (R184). -/
def execVsetlMax (_ : BitVec 1) (d : BitVec 4) (g : BitVec 2) (y sw : BitVec 3) (s : State) : Out :=
  .next (s.grant d g y sw (s.h.grantMax g (widthOf sw)))

/-! Loops -/

/-- Sequencing goes on at an address. -/
def State.vjump (s : State) (h : Hart) (target : Word) : State :=
  { s with h := { (h.vdone 0) with vpc := target }, did := .vector }

/-- The address is a word of the running block (R45). -/
def Hart.inBlock (h : Hart) (p : Word) : Bool :=
  match h.run with
  | some b => (p - b.addr).toNat < 4096 && p.toNat % 4 == 0
  | none => false

/-- The stage predicates of iteration `j` (R315): all 65,536 bits of m(3+k). -/
def VCtx.predicates (v : VCtx) (stages count j : Nat) : VCtx :=
  let stage := fun t k => Tab.set 0 t (3 + k) (if k < stages && k ≤ j && j - k < count then 2 ^ 65536 - 1 else 0)
  { v with m := (List.range 4).foldl stage v.m }

/-- The word ends the loop of a counter: a `vlend` that names it (R314). -/
def isVlend (w : IWord) (c : BitVec 2) : Bool :=
  match opOf w with
  | some .vlend => valuesOk w .vlend && w.extractLsb' 23 2 == c
  | _ => false

/-- The loop opened, or passed over with a count of 0 (R314). -/
def State.openLoop (s : State) (c : BitVec 2) (fin : Word) (stages count : Nat) : State :=
  let p := s.h.vaddr
  let lim := if count = 0 then 0 else if stages = 0 then count else count + stages - 1
  let h1 := s.h.setCode (16 + c.toNat) 0
  if lim = 0 then s.vjump h1 (fin + 4)
  else
    let l : Loop := { ctr := c.toNat, stages := stages, count := count, lim := lim, top := p + 4, fin := fin }
    let v1 := { h1.vx with loops := l :: h1.vx.loops }
    s.vjump { h1 with vx := if stages = 0 then v1 else v1.predicates stages count 0 } (p + 4)

/-- A transfer to a target outside the block's span: ILLOP at the target, TVAL 0 (R45). -/
def State.beyond (s : State) (target : Word) : State := s.vectorTrap { cause := cILLOP, tval := 0, tepc := target, frec := [] } 0

/-- `vloop` and `vloop.r` (R314): 0 stages for a plain loop. -/
def vloop (l : BitVec 2) (f : BitVec 10) (n : BitVec 6) (stages : Nat) (s : State) : Out :=
  let fin := s.h.vaddr + word (4 * f.toNat)
  if (s.h.vx.loop l.toNat).isSome then .next s.villop
  else if !s.h.inBlock fin then .next (s.beyond fin)
  else if stages ≠ 0 && s.h.vx.rotating.isSome then .next s.villop
  else
    match s.fetch s.h.actor fin with
    | (s1, .trap c v) => .next (s1.vtrap c v 0)
    | (s1, .wait p) => .next (s1.vstall p 0)
    | (s1, .word w) =>
      if isVlend w l then .next (s1.openLoop l fin stages (s1.h.code n.toNat).toNat) else .next s1.villop

def execVloop (_ : BitVec 1) (l : BitVec 2) (f : BitVec 10) (n : BitVec 6) (s : State) : Out := vloop l f n 0 s
def execVloopR (_ : BitVec 1) (l : BitVec 2) (f : BitVec 10) (n : BitVec 6) (k : BitVec 2) (s : State) : Out :=
  vloop l f n (k.toNat + 1) s

/-- A loop closed (R314). -/
def VCtx.closeLoop (v : VCtx) (c : Nat) : VCtx := { v with loops := v.loops.filter (fun l => l.ctr ≠ c) }

/-- `vlend lC, top` (R314). -/
def execVlend (_ : BitVec 1) (l : BitVec 2) (b : BitVec 10) (s : State) : Out :=
  let q := s.h.vaddr
  match s.h.vx.loop l.toNat with
  | none => .next s.villop
  | some x =>
    if q ≠ x.fin || q - word (4 * b.toNat) ≠ x.top then .next s.villop
    else
      let n := s.h.code (16 + l.toNat) + 1
      let h1 := s.h.setCode (16 + l.toNat) n
      if n.toNat < x.lim then
        .next (s.vjump (if x.stages = 0 then h1 else { h1 with vx := h1.vx.predicates x.stages x.count n.toNat }) x.top)
      else .next (s.vjump { h1 with vx := h1.vx.closeLoop l.toNat } (q + 4))

/-- The loops that stay open when a loop and those opened inside it close (R316). -/
def loopsAfterExit (c : Nat) : List Loop → List Loop
  | [] => []
  | l :: r => if l.ctr = c then r else loopsAfterExit c r

/-- `vexit lC[, mN]` (R316). -/
def execVexit (_ : BitVec 1) (l : BitVec 2) (m : BitVec 3) (s : State) : Out :=
  match s.h.vx.loop l.toNat with
  | none => .next s.villop
  | some x =>
    if m = 0 || !(s.h.actives m.toNat).isEmpty then
      .next (s.vjump { s.h with vx := { s.h.vx with loops := loopsAfterExit l.toNat s.h.vx.loops } } (x.fin + 4))
    else .next (s.vdone s.h 0)

/-! Replies and the end of a block -/

/-- An entry of the reply queue (R283). -/
def replyWord (kind : Nat) (seq : BitVec 16) (code val : Nat) : Word :=
  word (kind * 2 ^ 56 + seq.toNat * 2 ^ 40 + code * 2 ^ 32 + val % 2 ^ 32)

/-- The sequence number of the running block. -/
def Hart.runSeq (h : Hart) : BitVec 16 := (h.run.map (fun b => b.seq)).getD 0

/-- A push that waits under IWL for the forager while the queue is full (R283). -/
def State.pushing (s : State) (f : State → Out) : Out :=
  if 16 ≤ s.h.replies.length then .next (s.vstall (partyWord 5 s.h.hid) 0) else f s.drainRechecks

/-- `vreply c, r` (R316). -/
def execVreply (_ : BitVec 1) (r k : BitVec 6) (s : State) : Out :=
  s.pushing (fun s1 =>
    let w := replyWord 2 s1.h.runSeq k.toNat (s1.h.code r.toNat).toNat
    .next { (s1.vdone { s1.h with replies := s1.h.replies ++ [(w, none)] } 0).wakeForager with did := .vector })

/-- VTYPE as a word (R181). -/
def VType.word (t : VType) : Word := Machine.word ((if t.vill then 2 ^ 63 else 0) + t.g.toNat * 64 + t.ty.toNat * 8 + t.sw.toNat)

/-- What the vector side leaves for the forager to read (R181, R243). -/
def VCtx.snap (v : VCtx) : Snap := { vl := word v.vl, vtype := v.vtype.word, rngk := v.rngk, rngc := v.rngc }

/-- The block ends: its flags are ORed into FXF and its completion is pushed (R196, R283, R316). -/
def Hart.endBlock (h : Hart) : Hart :=
  { (h.vdone 0) with
    fxf := orFlags h.fxf ((h.run.map (fun b => b.flags)).getD 0), run := none, conv := [],
    replies := h.replies ++ [(replyWord 1 h.runSeq 0 h.vx.vl, some h.vx.snap)], lastSnap := some h.vx.snap }

/-- `vend` (R316): ILLOP while a loop is open. -/
def execVend (_ : BitVec 1) (s : State) : Out :=
  if !s.h.vx.loops.isEmpty then .next s.villop
  else s.pushing (fun s1 => .next { ({ s1 with h := s1.h.endBlock }).wakeForager with did := .vector })

/-! Sequencer operations (R317) -/

/-- A sequencer operation of two scalar-side registers. -/
def seqOp (f : Word → Word → Word) (d : BitVec 4) (a b : BitVec 6) (s : State) : Out :=
  .next (s.vdone (s.h.setCode d.toNat (f (s.h.code a.toNat) (s.h.code b.toNat))) 0)

def execSadd (_ : BitVec 1) (d : BitVec 4) (a b : BitVec 6) (s : State) : Out := seqOp (· + ·) d a b s
def execSsub (_ : BitVec 1) (d : BitVec 4) (a b : BitVec 6) (s : State) : Out := seqOp (· - ·) d a b s
def execSand (_ : BitVec 1) (d : BitVec 4) (a b : BitVec 6) (s : State) : Out := seqOp (· &&& ·) d a b s
def execSor (_ : BitVec 1) (d : BitVec 4) (a b : BitVec 6) (s : State) : Out := seqOp (· ||| ·) d a b s
def execSxor (_ : BitVec 1) (d : BitVec 4) (a b : BitVec 6) (s : State) : Out := seqOp (· ^^^ ·) d a b s
def execSsll (_ : BitVec 1) (d : BitVec 4) (a b : BitVec 6) (s : State) : Out := seqOp (fun x y => x <<< (y.toNat % 64)) d a b s
def execSsrl (_ : BitVec 1) (d : BitVec 4) (a b : BitVec 6) (s : State) : Out := seqOp (fun x y => x >>> (y.toNat % 64)) d a b s
def execSmul (_ : BitVec 1) (d : BitVec 4) (a b : BitVec 6) (s : State) : Out := seqOp (· * ·) d a b s
def execSminu (_ : BitVec 1) (d : BitVec 4) (a b : BitVec 6) (s : State) : Out :=
  seqOp (fun x y => if x.toNat ≤ y.toNat then x else y) d a b s
def execSmaxu (_ : BitVec 1) (d : BitVec 4) (a b : BitVec 6) (s : State) : Out :=
  seqOp (fun x y => if x.toNat ≤ y.toNat then y else x) d a b s
def execSaddi (_ : BitVec 1) (d : BitVec 4) (a i : BitVec 6) (s : State) : Out :=
  .next (s.vdone (s.h.setCode d.toNat (s.h.code a.toNat + i.signExtend 64)) 0)
def execSli (_ : BitVec 1) (d : BitVec 4) (i : BitVec 12) (s : State) : Out :=
  .next (s.vdone (s.h.setCode d.toNat (i.signExtend 64)) 0)

/-- FXF as the vector side reads it (R318): RM and FEN of the block, and its flags ORed with FXF at the VRUN. -/
def Block.fxfNow (b : Block) : Word := orFlags b.fxf b.flags

/-- A control register as the vector side reads it (R318). -/
def State.vcfgValue (s : State) (i : Nat) : Option Word :=
  let h := s.h
  match i with
  | 0x000 => some (word h.vx.vl)
  | 0x001 => some h.vx.vtype.word
  | 0x002 => some h.vcfgWord
  | 0x003 => some h.ecut
  | 0x010 => some ((h.run.map Block.fxfNow).getD h.fxf)
  | 0x011 => some (qcfgWord ((h.run.map (fun b => b.qcfg)).getD h.qcfg))
  | 0x012 => some ((h.run.map (fun b => b.dscale)).getD h.dscale)
  | 0x022 => some (word s.gtb)
  | 0x030 => some (word h.hid)
  | 0x070 => some (Tab.get 0 h.vx.rngk 0)
  | 0x071 => some (Tab.get 0 h.vx.rngk 1)
  | 0x072 => some (Tab.get 0 h.vx.rngk 2)
  | 0x073 => some (Tab.get 0 h.vx.rngk 3)
  | 0x074 => some h.vx.rngc
  | _ => none

/-- `vcfgrd d, reg` (R318). -/
def execVcfgrd (_ : BitVec 1) (d : BitVec 4) (r : BitVec 12) (s : State) : Out :=
  match s.vcfgValue r.toNat with
  | some v => .next (s.vdone (s.h.setCode d.toNat v) 0)
  | none => .next s.villop

/-! VMISC (R189, R190) -/

/-- What the VMISC words need. -/
def needVpclr (d : Nat) (h : Hart) : Need := Need.of anyType [(d, h.grp)] (.regs d h.grp)
def needVpmask (md a : Nat) (h : Hart) : Need := Need.of anyType [(a, h.grp)] (.mask md)
def needVid (d : Nat) (h : Hart) : Need := Need.of intType [(d, h.grp)] (.regs d h.grp)
def needVmvR (d a n : Nat) (_ : Hart) : Need :=
  { types := anyType, untyped := true, groups := [(d, n), (a, n)], singles := [], apart := if d = a then [] else [((d, n), (a, n))],
    dest := .regs d n }

/-- `vpclr vd`: values and pm stay. -/
def execVpclr (_ : BitVec 1) (d : BitVec 6) (s : State) : Out :=
  s.vissue (needVpclr d.toNat) (
    .next (s.vdone ((List.range s.h.vx.vl).foldl
      (fun k e => k.setEl k.sew d.toNat e (k.el k.sew d.toNat e).1 false) s.h) 0))

/-- `vpmclr`: all of pm. -/
def execVpmclr (_ : BitVec 1) (s : State) : Out :=
  .next (s.vdone { s.h with vx := { s.h.vx with m := Tab.set 0 s.h.vx.m 7 0 } } 0)

/-- `vpmask md, va`. -/
def execVpmask (_ : BitVec 1) (d : BitVec 3) (a : BitVec 6) (s : State) : Out :=
  s.vissue (needVpmask d.toNat a.toNat) (
    .next (s.vdone ((List.range s.h.vx.vl).foldl (fun k e => k.setMaskBit d.toNat e (s.h.el s.h.sew a.toNat e).2) s.h) 0))

/-- `vid vd`. -/
def execVid (_ : BitVec 1) (d : BitVec 6) (s : State) : Out :=
  s.vissue (needVid d.toNat) (
    .next (s.vdone (s.h.putEls s.h.sew d.toNat ((List.range s.h.vx.vl).map (fun e => (e, ERes.clean e)))) 0))

/-- A whole register copied, values and poison. -/
def Hart.copyReg (h : Hart) (src : Hart) (d a : Nat) : Hart :=
  { h with vx := { h.vx with v := Tab.set 0 h.vx.v (src.phys d) (Tab.get 0 src.vx.v (src.phys a)),
                             vp := Tab.set 0 h.vx.vp (src.phys d) (Tab.get 0 src.vx.vp (src.phys a)) } }

/-- `vmv.r vd, va, n`: every bit and every poison bit. -/
def execVmvR (_ : BitVec 1) (d a : BitVec 6) (n : BitVec 2) (s : State) : Out :=
  s.vissue (needVmvR d.toNat a.toNat (2 ^ n.toNat)) (
    .next (s.vdone ((List.range (2 ^ n.toNat)).foldl (fun k i => k.copyReg s.h (d.toNat + i) (a.toNat + i)) s.h) 0))

end Sys2Proof.Machine
end

