-- ==== Sys2Proof/Machine/Convoy.lean ====
section
/-! DEFINITION. Blocks and convoys (R41-R49, R281, R282, R462): the start of a block, the issue of a convoy with its checks, and the
recheck of a queued word (R430-R433). -/

namespace Sys2Proof.Machine

/-! The start of a block -/

/-- The vector side takes the oldest entry (R282): the modes passed at its VRUN, and a0 to a7. -/
def Hart.takeBlock (h : Hart) (e : QEntry) (rest : List QEntry) : Hart :=
  let b : Block := { addr := e.addr, seq := e.seq, rm := e.rm, fen := e.fen, fxf := e.fxf, dscale := e.dscale, qcfg := e.qcfg,
                     rchk := e.rchk, flags := 0 }
  let h1 := (List.range 8).foldl (fun k i => k.setCode i (e.args.getD i 0)) h
  { h1 with queue := rest, run := some b, vpc := e.addr, conv := [], cut := 0, again := false, votes := [], owed := false, app := none }

/-- The vector side of the hart in hand can move: bound, with its lanes, and not stopped (R276, R398). It goes on while the forager waits, a
posted page fault of the forager included (R452). -/
def Hart.vectorRuns (h : Hart) : Bool := h.live && h.slot.isSome && !h.released && h.stop.isNone

/-- `BLOCK_START` (R282). -/
def execBlockStart (s : State) : Out :=
  match s.h.queue with
  | e :: rest =>
    if s.h.vectorRuns && s.h.run.isNone then s.withLanes e.addr (fun t => .next { (t.setH (fun h => h.takeBlock e rest)) with did := .nothing })
    else .next s
  | [] => .next s

/-! The issue of a convoy -/

/-- C of a vector word (R35). -/
def cBit (w : IWord) : Bool := w.getLsbD 25

/-- A `vend` word ends its convoy (R46). -/
def isVend (w : IWord) : Bool := w.extractLsb' 26 6 == 0x21#6 && w.extractLsb' 0 7 == 0x10#7

/-- A word of a convoy as fetched; none for one that read poisoned or uncorrectable. -/
abbrev Slot := Word × Option IWord

/-- What fetching a convoy answers (R462). -/
inductive Conv where
  | words (l : List Slot)
  | fault (cause : Nat) (tval : Word)
  | wait (party : Word)
deriving DecidableEq, Repr

/-- The words of a convoy in ascending address: up to the next word with C = 1, a `vend`, or the end of the span (R46, R462). -/
def State.fetchConvoy (s : State) (p : Word) (first : Bool) : Nat → List Slot → State × Conv
  | 0, acc => (s, .words acc)
  | n + 1, acc =>
    if !first && !s.h.inBlock p then (s, .words acc)
    else
      match s.fetch s.h.actor p with
      | (s1, .trap c v) => if c = cMCHK then (s1, .words (acc ++ [(p, none)])) else (s1, .fault c v)
      | (s1, .wait q) => (s1, .wait q)
      | (s1, .word w) =>
        if !first && cBit w then (s1, .words acc)
        else if isVend w then (s1, .words (acc ++ [(p, some w)]))
        else s1.fetchConvoy (p + 4) false n (acc ++ [(p, some w)])

/-- A memory word: its cut counts on a resumption (R399). -/
def isMemory (w : IWord) : Bool := unitClass w == 1 || unitClass w == 2

/-- What the registers of a word need, by its operation and raw fields (R186, R189, R210, R230, R250, R157, R127). -/
def needOf (w : IWord) (o : Op) : Hart → Need :=
  let d := (w.extractLsb' 19 6).toNat
  let md := (w.extractLsb' 19 3).toNat
  let a := (w.extractLsb' 13 6).toNat
  let b := (w.extractLsb' 7 6).toNat
  let i := (w.extractLsb' 8 6).toNat
  let iw := (w.extractLsb' 1 2).toNat
  let ad := (w.extractLsb' 3 2).toNat
  let y := w.extractLsb' 10 3
  let z := w.extractLsb' 7 3
  match o with
  | .vaddVv | .vsubVv | .vsadd | .vsaddu | .vssub | .vmin | .vminu | .vmax | .vmaxu | .vssubu | .vsllVv | .vsrlVv
  | .vsraVv => need3 intType d a b
  | .vaddVi | .vaddVx | .vsubVx | .vrsubVx | .vrsubVi | .vsllVi | .vsrlVi | .vsraVi | .vpopc | .vclz | .vctz | .vbrev =>
    need2 intType d a
  | .vmulVv | .vmulh | .vmulhuVv | .vmulhsu => need3 mulType d a b
  | .vmulVx | .vmulhuVx => need2 mulType d a
  | .vandVv | .vorVv | .vxorVv | .vandn | .vmergeVv => need3 anyType d a b
  | .vandVx | .vorVx | .vxorVi | .vxorVx | .vmergeVx | .vmergeVi => need2 anyType d a
  | .vmseqVv | .vmsne | .vmslt | .vmsltuVv | .vmsle | .vmsleu => needM2 intType md a b
  | .vmseqVx | .vmsgt | .vmsgtu | .vmsltuVx => needM1 intType md a
  | .vbslVx | .vbslVi | .vbsrVx | .vbsrVi | .vfsl | .vfsr | .vxchVx | .vxchVi | .vslideupVx | .vslideupVi | .vslidednVx
  | .vslidednVi | .vslide1up | .vslide1dn | .vpullVx | .vcompress => need2d anyType d a
  | .vpullVv | .vpush => need3d anyType d a b
  | .vextr => needCode a
  | .vredsum | .vredsums | .vredmax | .vredmaxu | .vredmin | .vredminu | .vredand | .vredor | .vredxor => needRed intType d a b
  | .vscansum | .vscanmax | .vscanmin | .vxscansum | .vscanmaxu | .vscanminu => needScan d a b
  | .mkand | .mkor | .mkxor | .mkandn | .mknot | .mkfill | .mkspreadI | .mkspreadX | .mkparity | .mkfirst => needM md
  | .mkcount | .mkfind | .mkfindL => needNone
  | .vrank => fun h => Need.of intType [(d, h.grp)] (.regs d h.grp)
  | .vfaddVv | .vfsubVv | .vfmulVv | .vfdivVv | .vfmin | .vfmax | .vfsgnj | .vfsgnjn | .vfsgnjx | .vfmacPpVv | .vfmacNn
  | .vfmacPn | .vfmacNp | .vfmad => need3 floatType d a b
  | .vfaddVx | .vfsubVx | .vfrsub | .vfmulVx | .vfdivVx | .vfrdiv | .vfsqrt | .vfmacPpVx | .vfkind => need2 floatType d a
  | .vfcmpEqVv | .vfcmpLtVv | .vfcmpLe | .vfcmpNe | .vfcmpUn => needM2 floatType md a b
  | .vfcmpEqVx | .vfcmpGt | .vfcmpGe | .vfcmpLtVx => needM1 floatType md a
  | .vfcvt => needCvt d a y z false false
  | .vfcvtU => needCvt d a y z true false
  | .vfcvtRtz => needCvt d a y z false true
  | .vfcvtURtz => needCvt d a y z true true
  | .vdrescale => need2 (fun ty _ => ty == 3) d a
  | .vfsumO | .vfsumT | .vfredmax | .vfredmin => needRed floatType d a b
  | .vrand => fun h => Need.of (fun ty _ => ty != 4) [(d, h.grp)] (.regs d h.grp)
  | .vqaddVv | .vqsubVv | .vqmulVv | .vqdivVv | .vqmaccVv | .vqencVv => need3 qType d a b
  | .vqaddVx | .vqsubVx | .vqrsub | .vqmulVx | .vqdivVx | .vqrdiv | .vqneg | .vqinv | .vqmaccVx | .vqencVx | .vqencVi
  | .vqdigVx | .vqdigVi | .vqval => need2 qType d a
  | .vqeqVv => needM2 qType md a b
  | .vqeqVx => needM1 qType md a
  | .vqdec => fun h => Need.of qType [(d, 2 * h.grp), (a, h.grp)] (.regs d (2 * h.grp))
  | .vld | .vldT | .vldFf => needLoad anyType d
  | .vldBo | .vldFfBo => needLoad subType d
  | .vldS => needLoad byteType d
  | .vldx => needIndexed byteType d i iw
  | .vldd => needLoad describedType d
  | .vlddX => needIndexed describedType d i iw
  | .vst | .vstT => needStore anyType d
  | .vstBo => needStore subType d
  | .vstS | .vstApp => needStore byteType d
  | .vstx => needIndexedStore i iw d
  | .vstd => needStore describedType d
  | .vbopAdd => needVbop .add d i ad
  | .vbopAnd => needVbop .and d i ad
  | .vbopOr => needVbop .or d i ad
  | .vbopXor => needVbop .xor d i ad
  | .vbopSmin => needVbop .smin d i ad
  | .vbopSmax => needVbop .smax d i ad
  | .vbopFadd => needVbop .fadd d i ad
  | .vbopQadd => needVbop .qadd d i ad
  | .vpclr => needVpclr d
  | .vpmclr => fun _ => { types := anyType, untyped := true, groups := [], singles := [], apart := [], dest := .mask 7 }
  | .vpmask => needVpmask md a
  | .vid => needVid d
  | .vmvR => needVmvR d a (2 ^ (w.extractLsb' 7 2).toNat)
  | _ => fun _ => { types := anyType, untyped := true, groups := [], singles := [], apart := [], dest := .none }

/-- A word on a tile after its register checks: it issues while the tile is READY (R150). -/
def State.tileReady (s : State) (n : Nat) : Chk := if (s.tile s.h.core n).st = 2 then .ok else .wait (partyWord 2 n)

/-- The checks of a word at issue (R150, R186, R267). -/
def State.issueCheck (s : State) (w : IWord) : Chk :=
  let v := w.zeroExtend 64
  match opOf w with
  | none => .trap cILLOP v
  | some o =>
    match o with
    | .mmrow =>
      s.mmrowCheck v (w.extractLsb' 19 6).toNat (w.extractLsb' 13 6).toNat (w.extractLsb' 11 2).toNat (w.extractLsb' 9 2).toNat
        (w.extractLsb' 4 5).toNat (w.extractLsb' 0 4).toNat
    | .mwld => s.mwldCheck v (w.extractLsb' 13 4).toNat (w.extractLsb' 11 2).toNat
    | .mwclr => s.mwclrCheck v (w.extractLsb' 11 2).toNat
    | .vldT | .vstT => if s.h.issueOk (needOf w o s.h) then s.tileReady (w.extractLsb' 8 4).toNat else .trap cILLOP v
    | _ => if s.h.issueOk (needOf w o s.h) then .ok else .trap cILLOP v

/-- What a word writes (R47, code 5). -/
def State.destOf (s : State) (w : IWord) : Dest :=
  match opOf w with
  | none => .none
  | some .mmrow => .regs (w.extractLsb' 19 6).toNat 1
  | some o => (needOf w o s.h).dest

/-- Two words write the same register (R47, code 5). -/
def Dest.clash (x y : Dest) : Bool :=
  match x, y with
  | .regs r n, .regs r2 n2 => overlap (r, n) (r2, n2)
  | .mask m, .mask m2 => m == m2
  | _, _ => false

/-- The rules of R47 that the word at a position breaks with the words before it, lowest code first. -/
def State.ruleAt (s : State) (again : Bool) (l : List IWord) (j : Nat) : Option Nat :=
  let w := l.getD j 0
  let before := l.take j
  if j = 0 && !again && !cBit w then some 1
  else if j = 4 then some 2
  else if before.any (fun v => unitClass v == unitClass w) then some 3
  else if j ≠ 0 && (unitClass w == 0 || (j = 1 && unitClass (l.getD 0 0) == 0)) then some 4
  else if before.any (fun v => (s.destOf v).clash (s.destOf w)) then some 5
  else none

/-- The first rule of R47 that a convoy breaks: its position and code. -/
def State.ruleBroken (s : State) (again : Bool) (l : List IWord) : Option (Nat × Nat) :=
  (List.range l.length).findSome? (fun j => (s.ruleAt again l j).map (fun c => (j, c)))

/-- Checks 1 to 5 of R41 on a word. -/
def slotFate (x : Slot) : Option (Nat × Word) :=
  match x.2 with
  | none => some (cMCHK, 0)
  | some w =>
    match wordFate true w with
    | some .illop => some (cILLOP, w.zeroExtend 64)
    | some .illstream => some (cILLSTREAM, w.zeroExtend 64)
    | none => none

/-- What the checks of a convoy answer: the trap with its TEPC, a wait, or a hold. -/
inductive Fate where
  | ok
  | trap (cause : Nat) (tval tepc : Word)
  /-- the word at `addr` waits for a party (check 7 of R267). -/
  | wait (party addr : Word)
  /-- the convoy does not issue yet. -/
  | hold
deriving DecidableEq, Repr

/-- The register checks of the words in ascending address. -/
def State.wordsOk (s : State) : List (Word × IWord) → Fate
  | [] => .ok
  | (a, w) :: rest =>
    match s.issueCheck w with
    | .trap c v => .trap c v a
    | .wait p => .wait p a
    | .ok => if s.slotHeld w then .hold else s.wordsOk rest

/-- The fate of a convoy (R41, R47, R186): checks 1 to 5 word by word, the convoy rules, then the register checks. -/
def State.convoyFate (s : State) (l : List Slot) : Fate :=
  match l.findSome? (fun x => (slotFate x).map (fun f => (x.1, f))) with
  | some (a, c, v) => .trap c v a
  | none =>
    let ws := l.filterMap (fun x => x.2.map (fun w => (x.1, w)))
    match s.ruleBroken s.h.again (ws.map Prod.snd) with
    | some (j, c) => .trap cILLCONVOY (word (c * 256 + j)) s.h.vpc
    | none => s.wordsOk ws

/-- Breakpoints that the vector side meets at a convoy or a whole word, each by its number and the word's address: those not passed yet sample,
and the first that halts does (R439). All have then been met, and are passed once (R440). -/
def State.meet (s : State) (l : List (Nat × Word)) : State × Bool :=
  let new := l.filter (fun x => !s.h.passV.contains x)
  let s1 := (new.foldl (fun t x => t.sample x.2 0 [x.1]) s).setH (fun h => { h with passV := h.passV ++ new })
  match new.find? (fun x => s.bpHalts x.1) with
  | some (n, a) => (s1.haltAt true n 0 a 0, true)
  | none => (s1, false)

/-- A convoy about to issue meets its breakpoints of KIND 1 (R439). -/
def State.convoyBreak (s : State) (l : List Slot) : State × Bool :=
  s.meet (l.flatMap (fun x => (s.breakpoints 1 x.1).map (fun n => (n, x.1))))

/-- A trap of a convoy that did not issue (R42): cut 0. -/
def State.convoyTrap (s : State) (cause : Nat) (tval tepc : Word) : State :=
  s.vectorTrap { cause := cause, tval := tval, tepc := tepc, frec := [] } 0

/-- A word writes a vector or mask register, and so takes an entry of the history buffer (R400): the words of a loop with stages write its
predicates (R315). -/
def State.takesEntry (s : State) (w : IWord) : Bool :=
  match opOf w with
  | some .vloopR => true
  | some .vlend => (s.h.vx.loop (w.extractLsb' 23 2).toNat).any (fun x => x.stages != 0)
  | _ => s.destOf w != .none

/-- A queued word holds an entry of the history buffer until its recheck has agreed (R400): all but those with a scalar-side destination. -/
def Recheck.holdsEntry (r : Recheck) : Bool :=
  match r.conv with
  | (_, w) :: _ => !(opOf w ∈ [some Op.mkcount, some Op.mkfind, some Op.mkfindL, some Op.vextr])
  | [] => false

/-- The entries of the hart's history buffer that are taken (R400). -/
def State.entriesTaken (s : State) : Nat :=
  ((s.core s.h.core).recheck.filter (fun r => r.hid == s.h.hid && r.holdsEntry)).length

/-- Each word of a convoy that writes a vector or mask register finds an entry of the 16 (R400). -/
def State.entriesFor (s : State) (l : List Slot) : Bool :=
  s.entriesTaken + (l.filter (fun x => x.2.any s.takesEntry)).length ≤ 16

/-- The convoy issues: its words wait to run in order; a cut counts for a memory word that is taken up again (R399). -/
def Hart.issue (h : Hart) (l : List (Word × IWord)) : Hart :=
  { h with conv := l, viw := none, cut := if l.head?.any (fun x => isMemory x.2) then h.cut else 0 }

/-- A convoy issues, and uses up the passes of the breakpoints of KIND 1 (R440). -/
def State.issueNow (s : State) (l : List Slot) : State :=
  let pass := s.h.passV.filter (fun x => (s.breakpoints 2 x.2).contains x.1)
  { (s.setH (fun h => { h.issue (l.filterMap (fun x => x.2.map (fun w => (x.1, w)))) with passV := pass })) with did := .nothing }

/-- A fetched convoy that neither a matrix word of another hart nor the history buffer holds up (R41-R49). -/
def State.issueWords (s : State) (l : List Slot) : State :=
  if s.convoyFate l = .hold || (s.convoyFate l = .ok && !s.entriesFor l) then s.setH (fun h => { h with viw := none })
  else
    match s.convoyBreak l with
    | (s1, true) => s1
    | (s1, false) =>
      match s1.convoyFate l with
      | .trap c v a => s1.convoyTrap c v a
      | .wait p _ => s1.vstallAt p s1.h.cut 1
      | _ => s1.issueNow l

/-- The vector side at the word after its last convoy: the PAGE of R96, the end of the block's span (R45), or the fetch and the issue of a
convoy (R41-R49, R462). -/
def State.convoyAt (s : State) : State :=
  match s.h.pagePendV with
  | v :: _ => s.convoyTrap cPAGE v s.h.vpc
  | [] =>
    if !s.h.inBlock s.h.vpc then s.convoyTrap cILLOP 0 s.h.vpc
    else
      match s.fetchConvoy s.h.vpc true 1024 [] with
      | (s1, .fault c v) => s1.convoyTrap c v s1.h.vpc
      | (s1, .wait p) => s1.vstallAt p s1.h.cut 0
      | (s1, .words l) => s1.issueWords l

/-- `CONVOY_ISSUE` (R41-R49, R404). -/
def execConvoyIssue (s : State) : Out :=
  if !(s.h.vectorRuns && s.h.run.isSome && s.h.conv.isEmpty) then .next s
  else s.withLanes s.h.vpc (fun t => .next t.convoyAt)

/-- The word for which a convoy that has not issued waits: the one that its checks hold up, else its first (R150, R267, R462). -/
def State.issueWaits (s : State) : Word :=
  match s.fetchConvoy s.h.vpc true 1024 [] with
  | (s1, .words l) =>
    match s1.convoyFate l with
    | .wait _ a => a
    | _ => s.h.vpc
  | _ => s.h.vpc

/-- The wait of a convoy that has not issued has reached IWL: WAITX at the word that waits (R42). -/
def State.issueOut (s : State) (party : Word) : State := s.convoyTrap cWAITX party s.issueWaits

/-! Rechecks -/

/-- The vector side taken back to before a word, with the votes on its elements (R431, R433). -/
def Hart.unwind (h : Hart) (r : Recheck) (v : Voted) : Hart :=
  { h with vx := r.vx, run := r.run, conv := r.conv, vpc := r.vpc, votes := r.votes ++ [v], owed := false, cut := 0, app := none, stop := none, viw := none }

/-- Every entry of a hart from its oldest on leaves the queue. -/
def State.dropEntries (s : State) (core hid : Nat) : State :=
  s.setCore core (fun c => { c with recheck := c.recheck.filter (fun x => x.hid != hid) })

/-- A vote kept with a hart's oldest entry. -/
def keepVote (hid : Nat) (v : Voted) : List Recheck → List Recheck
  | [] => []
  | r :: rest => if r.hid = hid then { r with votes := r.votes ++ [v] } :: rest else r :: keepVote hid v rest

/-- The vote of R431 on an element: what two of its runs share, else what the first run gave, failed. -/
def voteOf (elem : Nat) (first second third : Option RunRes) : Voted :=
  if first = second || first = third then { elem := elem, res := first, failed := false }
  else if second = third then { elem := elem, res := second, failed := false }
  else { elem := elem, res := first, failed := true }

/-- An element on which runs of a word are compared (R431): an active one; of a word with one result, that result. -/
def Hart.votesOn (h : Hart) (w : IWord) (e : Nat) : Bool :=
  match opOf w with
  | some .vextr => e == (h.code (w.extractLsb' 7 6).toNat).toNat
  | some .mkcount | some .mkfind | some .mkfindL | some .vredsum | some .vredsums | some .vredmax | some .vredmaxu | some .vredmin
  | some .vredminu | some .vredand | some .vredor | some .vredxor | some .vfsumO | some .vfsumT | some .vfredmax | some .vfredmin => e == 0
  | some .vpush | some .vcompress => e < h.vx.vl
  | _ => (elemMask w).any (fun m => e < h.vx.vl && h.active m e)

/-- Runs of one element of a hart's oldest queued word compared (R431, R432): each run counts once. A result other than the one that the word
computes, or a failed vote, makes the word and the later ones issue again with it (R433). -/
def State.compareRuns (s : State) (h : Hart) (r : Recheck) (at_ : Word) (elem : Nat) (first second third : Option RunRes) : State :=
  let v := voteOf elem first second third
  let s1 := s.count h.tid 13 ((if r.votes.isEmpty then 1 else 0) + (if first = second then 0 else 1))
  let s2 := if first = second then s1 else s1.mcheck (if v.failed then 4 else 3) h.die h.tid h.hid h.core at_ elem
  if v.res.isNone && !v.failed then s2.setCore h.core (fun c => { c with recheck := keepVote h.hid v c.recheck })
  else (s2.dropEntries h.core h.hid).updHart h.hid (fun k => k.unwind r v)

/-- `RECHECK_RUN` of a hart's oldest queued word (R430-R433): all its elements agree and it retires, or the runs of one element are
compared. -/
def execRecheckRun (hid elem : Nat) (vote : Vote) (s : State) : Out :=
  match s.hart hid with
  | none => .next s
  | some h =>
    match (s.core h.core).recheck.find? (fun r => r.hid == hid) with
    | none => .next s
    | some r =>
      match vote, r.conv with
      | .agree, _ =>
        .next ((s.count h.tid 13 (if r.votes.isEmpty then 1 else 0)).setCore h.core (fun c => { c with recheck := c.recheck.erase r }))
      | .runs a b c, (at_, w) :: _ =>
        if ({ h with vx := r.vx } : Hart).votesOn w elem && !r.votes.any (fun v => v.elem == elem) then
          .next (s.compareRuns h r at_ elem a b c)
        else .next s
      | _, [] => .next s

end Sys2Proof.Machine
end

