-- ==== Sys2Proof/Machine/Expire.lean ====
section
/-! DEFINITION. Deadlines that come due: explicit waits (R289, R331, R332), implicit waits (R334), episodes (R344), and the flip of a
bank (R111). Each event has an effect only while what it names is due. -/

namespace Sys2Proof.Machine

/-- A hart's explicit wait whose deadline has come before its outcome: neither delivered nor on its way from a late die (R331). -/
def State.waitDue (s : State) (hid : Nat) (w : Wait) : Bool :=
  w.ans.isNone && decide (w.dead ≤ s.gtb) && !s.slow.any (fun r => r.hid == hid && r.tick == w.issued)

/-- The explicit wait of a hart that is due, if it is one of a kind. -/
def State.dueWait (s : State) (hid : Nat) (p : WaitKind → Bool) : Option Wait :=
  ((s.hart hid).bind (·.wait)).filter (fun w => s.waitDue hid w && p w.kind)

def WaitKind.isRqpop : WaitKind → Bool
  | .rqpop => true
  | _ => false
def WaitKind.isVsync : WaitKind → Bool
  | .vsync _ => true
  | _ => false
def WaitKind.isNap : WaitKind → Bool
  | .nap => true
  | _ => false
def WaitKind.isTwait : WaitKind → Bool
  | .twait _ => true
  | _ => false
def WaitKind.isEwait : WaitKind → Bool
  | .ewait _ _ => true
  | _ => false
def WaitKind.isSlot : WaitKind → Bool
  | .slot _ => true
  | _ => false
def WaitKind.isPageFault : WaitKind → Bool
  | .pageFault => true
  | _ => false

/-- `RQPOP_EXPIRY` (R307). -/
def execRqpopExpiry (hid : Nat) (s : State) : Out :=
  .next (if (s.dueWait hid WaitKind.isRqpop).isSome then s.answer hid 1 else s)

/-- `VSYNC_EXPIRY` (R308). -/
def execVsyncExpiry (hid : Nat) (s : State) : Out :=
  match s.dueWait hid WaitKind.isVsync, s.hart hid with
  | some _, some h => .next (s.answer hid h.vsyncExpired)
  | _, _ => .next s

/-- `NAP_EXPIRY` (R359): the nap returns OK. -/
def execNapExpiry (hid : Nat) (s : State) : Out :=
  .next (if (s.dueWait hid WaitKind.isNap).isSome then s.answer hid 0 else s)

/-- `TWAIT_EXPIRY` (R150). -/
def execTwaitExpiry (hid : Nat) (s : State) : Out :=
  match s.dueWait hid WaitKind.isTwait, s.hart hid with
  | some w, some h =>
    match w.kind with
    | .twait n => .next (s.answer hid (tileWord (s.tile h.core n) stEXPIRED))
    | _ => .next s
  | _, _ => .next s

/-- `EWAIT_EXPIRY` (R147). -/
def execEwaitExpiry (hid : Nat) (s : State) : Out :=
  .next (if (s.dueWait hid WaitKind.isEwait).isSome then s.answerIf hid WaitKind.isEwait (cmdWord 0 0xFFF 0 stEXPIRED) else s)

/-- `ELEASE_EXPIRY` (R135): the request leaves the dispatcher. -/
def execEleaseExpiry (hid : Nat) (s : State) : Out :=
  match s.leaseQ.find? (fun q => q.hid == hid && decide (q.dead ≤ s.gtb)) with
  | some q => .next (({ s with leaseQ := s.leaseQ.erase q }).answerIf hid WaitKind.leases (noHandle stEXPIRED))
  | none => .next s

/-- `ENGINE_SLOT_EXPIRY` (R138): no slot came free, and nothing was issued. -/
def execEngineSlotExpiry (hid : Nat) (s : State) : Out :=
  match s.dueWait hid WaitKind.isSlot with
  | some w =>
    match w.kind with
    | .slot e =>
      .next ((s.setEngine e (fun g => { g with pend := g.pend.filter (fun c => c.hid ≠ hid) })).answerIf hid WaitKind.isSlot
        (badTicket 0 stEXPIRED))
    | _ => .next s
  | none => .next s

/-- The record and the swarm at which a pending join of a hart is due. -/
def State.dueJoin (s : State) (hid : Nat) : Option (Nat × Obj × Swarm × Join) :=
  s.objs.findSome? (fun e =>
    match s.swarm e.1 with
    | some (o, b) => (b.joins.find? (fun j => j.hid == hid && decide (j.dead ≤ s.gtb))).map (fun j => (e.1, o, b, j))
    | none => none)

/-- `SWJOIN_EXPIRY` (R347): the pending join is withdrawn. -/
def execSwjoinExpiry (hid : Nat) (s : State) : Out :=
  match s.dueJoin hid with
  | some (off, o, b, j) =>
    .next ((s.setBody off o (.swarm { b with joins := b.joins.erase j })).joinResult o (WaitKind.joins off) j (b.lastWord stEXPIRED))
  | none => .next s

/-- The record and the latch at which a queued ACQ of a hart is due. -/
def State.dueAcq (s : State) (hid : Nat) : Option (Nat × Obj × Latch × (Nat × Nat)) :=
  s.objs.findSome? (fun e =>
    match s.latch e.1 with
    | some (o, b) => (b.queue.find? (fun q => q.1 == hid && decide (q.2 ≤ s.gtb))).map (fun q => (e.1, o, b, q))
    | none => none)

/-- `ACQ_EXPIRY` (R352): the request leaves the queue. -/
def execAcqExpiry (hid : Nat) (s : State) : Out :=
  match s.dueAcq hid with
  | some (off, o, b, q) =>
    .next ((s.setBody off o (.latch { b with queue := b.queue.erase q })).answerIf hid (WaitKind.acquires off) (s.acqExpired b))
  | none => .next s

/-- The requests of a channel that deadlines can end: its senders, or its receivers but for one whose message is there, which only waits for the
lines of its destination (R331, R360). -/
def Chan.waits (b : Chan) (send : Bool) : List ChanReq :=
  if send then b.senders else if b.receiver.isSome then b.receivers.tail else b.receivers

/-- The record and the channel at which a request of a sender, or of a receiver, is due. -/
def State.dueChan (s : State) (hid : Nat) (send : Bool) : Option (Nat × Obj × Chan × ChanReq) :=
  s.objs.findSome? (fun e =>
    match s.chan e.1 with
    | some (o, b) =>
      ((b.waits send).find? (fun r => r.hid == hid && decide (r.dead ≤ s.gtb))).map (fun r => (e.1, o, b, r))
    | none => none)

/-- `SEND_EXPIRY` (R357). -/
def execSendExpiry (hid : Nat) (s : State) : Out :=
  match s.dueChan hid true with
  | some (off, o, b, r) =>
    .next (((s.setBody off o (.chan { b with senders := b.senders.erase r })).sendResult off hid (plainStatus stEXPIRED)).serveAll off)
  | none => .next s

/-- `RECV_EXPIRY` (R358). -/
def execRecvExpiry (hid : Nat) (s : State) : Out :=
  match s.dueChan hid false with
  | some (off, o, b, r) =>
    .next ((s.setBody off o (.chan { b with receivers := b.receivers.erase r })).answerIf hid (WaitKind.receives off) (recvExpired b))
  | none => .next s

/-- A swarm's open episode is due: some arrival's deadline has come (R344). -/
def State.episodeDue (s : State) (off : Nat) : Bool :=
  match s.swarm off with
  | some (_, b) => b.members.any (fun m => m.arrived && decide (m.dead ≤ s.gtb))
  | none => false

/-- `SWARM_DEADLINE_CLOSE` (R344). -/
def execSwarmDeadlineClose (rcd : Nat) (s : State) : Out := .next (if s.episodeDue rcd then s.closeEpisode rcd else s)

/-- `PLANE_FLIP` of a region at a bank (R111): the results of `step` are sent once every bank has flipped. -/
def execPlaneFlip (region bank : Nat) (s : State) : Out :=
  match s.region region with
  | some r =>
    if r.flipBanks.contains bank then
      let s1 := s.flipBanks region [bank]
      match combOffset r.obj with
      | some off => .next (s1.sendSteps off)
      | none => .next s1
    else .next s
  | none => .next s

/-! Waits under IWL -/

/-- The deciding die of an explicit wait (R24). -/
def WaitKind.decider (k : WaitKind) (h : Hart) : Nat := k.decidedAt.getD h.die

/-- A wait has been sent, and its answer is overdue: max(D, T) plus IWL has passed (R332). -/
def State.overdue (s : State) (h : Hart) : Option Wait :=
  match h.wait with
  | some w => if w.ans.isNone && !w.kind.isPageFault && max w.dead w.issued + h.iwl.toNat ≤ s.gtb then some w else none
  | none => none

/-- The record at which a wait is decided, when a swarm's bank decides it. -/
def WaitKind.record : WaitKind → Option Nat
  | .swjoin r _ => some r
  | .arrive r _ => some r
  | _ => none

/-- The proxy through which a wait was sent. -/
def State.waitProxy (s : State) (k : WaitKind) : Option (Nat × Swarm) :=
  k.record.bind (fun off => (s.swarm off).bind (fun x => if x.2.remote = 0 then none else some (off, x.2)))

/-- The TVAL that names the deciding die of a wait (R332). -/
def State.deciderWord (s : State) (k : WaitKind) (h : Hart) : Word :=
  match s.waitProxy k with
  | some (_, b) => b.homeParty
  | none => partyWord 1 (k.decider h)

/-- A request that its hart waits for no more keeps its place at its bank under another number, so that its result answers no later wait
(R332). -/
def lateObj (hid : Nat) (o : Obj) : Obj :=
  let f := fun x => if x = hid then lateId hid else x
  match o.body with
  | .swarm b => { o with body := .swarm { b with closed := b.closed.filter (fun c => c.hid ≠ hid) } }
  | .latch b => { o with body := .latch { b with queue := b.queue.map (fun q => (f q.1, q.2)) } }
  | .chan b =>
    { o with body := .chan { b with senders := b.senders.map (fun r => { r with hid := f r.hid }),
                                    receivers := b.receivers.map (fun r => { r with hid := f r.hid }) } }

/-- The requests of a hart that has stopped waiting: those at a bank or the dispatcher stand, a command that waits for a slot is not
issued (R138, R332), and one sent to another chip stays outstanding (R367). -/
def State.abandonWait (s : State) (h : Hart) (w : Wait) : State :=
  let s1 : State := { s with
    objs := s.objs.map (fun e => (e.1, e.2.map (lateObj h.hid))),
    leaseQ := s.leaseQ.map (fun q => if q.hid = h.hid then { q with hid := lateId h.hid } else q),
    engines := s.engines.map (fun e => (e.1, { e.2 with pend := e.2.pend.filter (fun c => c.hid ≠ h.hid) })) }
  match s.waitProxy w.kind with
  | some (off, _) => s1.updHart h.hid (fun k => { k with fabOut := k.fabOut ++ [(off, w.issued)] })
  | none => s1

/-- `WAIT_ANSWER_TIMEOUT` (R332): WAITX names the deciding die; what the bank decided stands, and its result is discarded. A hart that is not bound
becomes READY (R386). -/
def execWaitAnswerTimeout (hid : Nat) (s : State) : Out :=
  match (s.hart hid).bind (fun h => (s.overdue h).map (fun w => (h, w))) with
  | some (h, w) =>
    let s1 := (s.abandonWait h w).hold hid
    let ready := if h.slot.isSome then h.readyAt else s.gtb
    .next ((s1.setH (fun k => { k with wait := none, readyAt := ready })).trap cWAITX (s.deciderWord w.kind h))
  | none => .next s

/-- The implicit wait of a side of a hart that IWL bounds: not that of a word that waits for its own vector side while a trap has stopped it
(R334, R398; entry 86). -/
def Hart.iwlWait (h : Hart) : Side → Option IWait
  | .forager => h.iw.filter (fun w => !(w.elem == 1 && h.stop.isSome))
  | .vector => h.viw

/-- The TVAL of an implicit wait of a side that has reached IWL (R334). -/
def State.implicitDue (s : State) (h : Hart) (side : Side) : Option Word :=
  ((h.iwlWait side).filter (fun w => decide (w.since + h.iwl.toNat ≤ s.gtb))).map (fun w => w.party)

/-- What an instruction that has begun its effect takes back at its WAITX: a created hart (R311), a command (R139), or nothing (R108, R136,
R342, R348, R354); a request that its home has not answered stays outstanding (R367). -/
def State.takeBack (s : State) (b : Begun) : State :=
  match b.what with
  | .stands => s
  | .freed _ _ => s
  | .leaves l => s.leaveUnanswered l
  | .exits l => s.leaveUnanswered l
  | .child c off => s.takeChild c off
  | .command e q => s.withdrawCmd e q

/-- `IWL_EXPIRY` (R334): WAITX at the instruction, at the element of the vector word that waits, or at the convoy that has not issued. -/
def execIwlExpiry (hid : Nat) (side : Side) (s : State) : Out :=
  match (s.hart hid).bind (fun h => (s.implicitDue h side).map (fun p => (h, p))) with
  | some (_, p) =>
    let s1 := s.hold hid
    match side with
    | .forager => .next ((match s1.h.begun with
        | some b => s1.takeBack b
        | none => s1).setH (fun h => h.spent h.pc) |>.trap cWAITX p)
    | .vector => .next (if s1.h.conv.isEmpty then s1.issueOut p else s1.waitOut p)
  | none => .next s

/-- A hart takes a vector-side trap that waits at its boundary: bound, not halted, in mode A, with no instruction in hand, and after a pending PAGE
of R96 (R397, R405, R440). -/
def Hart.deliverable (h : Hart) : Bool :=
  h.slot.isSome && !h.halted && h.trapWaits && h.mode == .a && h.wait.isNone && h.iw.isNone && h.pagePend.isEmpty

/-- `VECTOR_TRAP_DELIVERY` (R397). -/
def execVectorTrapDelivery (s : State) : Out := .next (if s.h.deliverable then s.takeVectorTrap else s)

end Sys2Proof.Machine
end

