-- ==== Sys2Proof/Machine/Fabric.lean ====
section
/-! DEFINITION. Frames received on the Bolco fabric (R26, R349, R445, R461), and the replay of a log (R446). The spec gives the header
of a frame and not its payload: the payloads here are the model's (entry 15). -/

namespace Sys2Proof.Machine

/-- A frame is well formed and for this chip, from a chip and of a tag that are known (R461). -/
def State.frameOk (s : State) (kind : Nat) (fr : Frame) : Bool :=
  s.portsUp && fr.secTag && fr.ver == 1 && fr.kind == kind && fr.dst == s.hub.hchip && (Tab.get none s.hub.peers fr.src).isSome &&
    1 ≤ fr.tag && fr.tag ≤ 512 && (s.tenant fr.tag).st != 0 && fr.data.length ≤ 9000

/-- The incarnation of a frame is the one that this chip holds for its sender (R26). -/
def State.frameFresh (s : State) (fr : Frame) : Bool := Tab.get none s.hub.peers fr.src == some fr.inc.toNat

/-- A frame dropped and counted (R26, R461). -/
def State.dropFrame (s : State) (stale : Bool) : State :=
  s.setHub (fun b => if stale then { b with incdrop := satInc b.incdrop 32 } else { b with fabDrop := b.fabDrop + 1 })

/-- A frame received: dropped, or entered in the arrival log, unless it is a get, and performed (R26, R446, R461). A frame that is stale and
also not well formed is counted as the latter, an order of checks that the model chooses (entry 15). -/
def State.receive (s : State) (kind : Nat) (fr : Frame) (f : State → State) : Out :=
  if !s.frameOk kind fr then .next (s.dropFrame false)
  else if !s.frameFresh fr then .next (s.dropFrame true)
  else .next (f (if kind = 2 then s else s.logArrival fr.tag fr))

/-! Effects of the frames -/

/-- A put, and a get response: bytes written at their homes in OPN memory of the tenant (R369). -/
def State.fabPut (s : State) (fr : Frame) : State := s.outsidePut false fr.tag (fr.data.length / 64 + 2) (word fr.target) fr.data

/-- A get: bytes read at their homes and sent back; it waits for a line's owner (R360, R369). Dword 0 is their number, dword 1 the
requester's pointer. -/
def State.fabGet (s : State) (fr : Frame) : State :=
  match s.outsideGet fr.tag 150 (word fr.target) (min 9000 (frameDw fr 0)) with
  | (s1, some bs) => s1.sendFrame 3 fr.src fr.tag (frameDw fr 1) bs
  | (s1, none) => s1.holdUp fr

/-- A channel send: dword 0 is the sender, dword 1 its deadline; the message follows. -/
def State.fabSend (s : State) (fr : Frame) : State :=
  match s.objNum fr.target with
  | some (off, o) =>
    match o.body with
    | .chan b =>
      let data := fr.data.drop 16
      if o.tag = fr.tag && data.length = b.sz then
        s.sendAt off o b { hid := farId fr.src (frameDw fr 0), dead := frameDw fr 1, data := data, bad := [], dst := [] }
      else s.dropFrame false
    | _ => s.dropFrame false
  | none => s.dropFrame false

/-- A join of a hart on another chip (R347), as `State.join` has it for a hart of this one; `held` is the number of swarms that the hart is
in. -/
def State.farJoin (s : State) (off : Nat) (o : Obj) (b : Swarm) (far rank dead tick held : Nat) : State :=
  let ask : Nat → State := fun k =>
    let pend := s.setBody off o (.swarm { b with joins := b.joins.filter (fun j => j.hid ≠ far) ++ [⟨far, k, dead, tick⟩] })
    if !b.members.any (fun m => m.good) then pend.closeEpisode off
    else if dead ≤ s.gtb then s.fabricResult o far tick (b.lastWord stEXPIRED) 0
    else pend
  match o.members.find? (fun m => m.hid == far) with
  | some m => if m.good then s.fabricResult o far tick (refusedWord 7) 0 else ask m.rank
  | none =>
    if 1024 ≤ rank || b.members.any (fun m => m.rank == rank) || b.joins.any (fun j => j.rank == rank && j.hid != far) then
      s.fabricResult o far tick (refusedWord 6) 0
    else if 8 ≤ held then s.fabricResult o far tick (refusedWord 4) 0
    else ask rank

/-- An arrival of a member on another chip (R345, R349). -/
def State.farArrival (s : State) (off : Nat) (o : Obj) (b : Swarm) (far chip dead tick : Nat) (flip : Bool) : State :=
  match o.members.find? (fun m => m.hid == far) with
  | none => s.fabricResult o far tick (refusedWord 7) 0
  | some m => if m.good then s.arriveAt off far chip dead tick flip else s.fabricResult o far tick (b.lastWord stLAPSED) 0

/-- A member on another chip removed at its request (R348). -/
def State.farLeave (s : State) (off : Nat) (o : Obj) (far chip tick : Nat) : State :=
  if o.members.any (fun m => m.hid == far) then (s.leaveAt off far chip).fabricResult o far tick (plainStatus stOK) 0
  else s.fabricResult o far tick (refusedWord 7) 0

/-- The cancel of a SPAWN on another chip: the enrolment of that tick, if the bank has made it, is removed as SWLEAVE does (R311). -/
def State.farCancel (s : State) (off : Nat) (o : Obj) (far chip enrolled tick : Nat) : State :=
  (if o.members.any (fun m => m.hid == far && m.tick == enrolled) then s.leaveAt off far chip else s).fabricResult o far tick (plainStatus stOK) 0

/-- The enrolment of a hart that a SPAWN creates on another chip (R280, R311): refused after the spawner's IWL, or when the rank is
taken. -/
def State.farEnrol (s : State) (off : Nat) (o : Obj) (b : Swarm) (far chip rank limit tick : Nat) : State :=
  if limit < s.gtb || 1024 ≤ rank || b.rankTaken rank then s.fabricResult o far tick (refusedWord 2) 0
  else
    (s.setBody off o (.swarm { b with members :=
      b.members ++ [{ rank := rank, hid := far, chip := chip, good := true, arrived := false, dead := 0, tick := tick, flip := false }] })).fabricResult
        o far tick (plainStatus stOK) 0

/-- A request of a hart on another chip at a swarm's bank: 2 join, 3 leave, 4 `swbar`, 5 `step`, 6 the enrolment of a SPAWN, 7 its cancel, which
names the tick of the enrolment, 8 the question for the highest rank (entry 15). Each counts for the swarm's tenant (R415). -/
def State.farRequest (s : State) (off : Nat) (o : Obj) (b : Swarm) (far : Nat) (fr : Frame) : State :=
  let tick := frameDw fr 4
  match frameDw fr 0 with
  | 2 => s.farJoin off o b far (frameDw fr 2) (frameDw fr 3) tick (frameDw fr 5)
  | 3 => s.farLeave off o far fr.src tick
  | 6 => s.farEnrol off o b far fr.src (frameDw fr 2) (frameDw fr 3) tick
  | 7 => s.farCancel off o far fr.src (frameDw fr 3) tick
  | 8 => s.fabricResult o far tick (plainStatus stOK) 0
  | k => s.farArrival off o b far fr.src (frameDw fr 3) tick (k == 5)

/-- A swarm request: dword 0 the operation, 1 the hart, 2 the rank, 3 the deadline, 4 the tick of issue, 5 the hart's swarms (entry 15).
A swarm without XCHIP refuses members of other chips (R349). -/
def State.fabArrival (s : State) (fr : Frame) : State :=
  let far := farId fr.src (frameDw fr 1)
  let tick := frameDw fr 4
  match s.objNum fr.target with
  | some (off, o) =>
    match o.body with
    | .swarm b =>
      if o.tag ≠ fr.tag then s.fabricReply fr.tag fr.target far tick (refusedWord 2) 0
      else if !b.xchip then s.fabricReply fr.tag fr.target far tick (refusedWord 7) 0
      else (s.count o.tag 7 1).farRequest off o b far fr
    | _ => s.fabricReply fr.tag fr.target far tick (refusedWord 2) 0
  | none => s.fabricReply fr.tag fr.target far tick (refusedWord 2) 0

/-- The proxy record of a swarm of a peer (R340). -/
def State.proxyOf (s : State) (tag chip num : Nat) : Option Nat :=
  s.objs.findSome? (fun e =>
    match e.2 with
    | some o => (match o.body with
      | .swarm b => if o.tag == tag && b.remote != 0 && b.homeChip == chip && bits b.remote.toNat 0 16 == num
          then some e.1 else none
      | _ => none)
    | none => none)

/-- What a proxy keeps of what its home bank reports at a tick: the highest rank, and the standing of a hart of this chip. -/
def Swarm.reported (b : Swarm) (hid : Nat) (fr : Frame) (time : Nat) : Swarm :=
  let st := if frameDw fr 1 % 256 = stCLOSED then 2 else frameDw fr 4
  let rest := b.members.filter (fun m => m.hid ≠ hid)
  { b with
    top := frameDw fr 6
    topAt := time + 1
    members := if st = 2 then rest
      else rest ++ [{ rank := frameDw fr 5, hid := hid, chip := 0xFFFF, good := st == 1, arrived := false, dead := 0, tick := frameDw fr 2, flip := false }] }

/-- The report entered in a proxy. -/
def State.report (s : State) (off hid : Nat) (fr : Frame) : State :=
  match s.swarm off with
  | some (o, b) => s.setBody off o (.swarm (b.reported hid fr s.gtb))
  | none => s

/-- The answer to an enrolment (R280, R311): the created hart leaves CREATED, or it ends without an instruction. -/
def State.childAnswer (s : State) (h : Hart) (ok : Bool) : State := if ok then s.childReady h else s.childRefused h

/-- A hart's instruction in hand waits for the answer to a leave (R286, R348). -/
def Hart.leavesBy (e : Nat × Nat) (h : Hart) : Bool :=
  h.begun.any (fun b => match b.what with
    | .leaves l => l.contains e
    | .exits l => l.contains e
    | _ => false)

/-- The answer to a leave reaches the hart that waits for it: a WAIT instruction leaves its trace record (R442). -/
def State.leaveAnswer (s : State) (h : Hart) (e : Nat × Nat) (v : Word) : State :=
  let s1 := match h.begun with
    | some ⟨_, _, .leaves _⟩ => s.traceHart h 5 0 h.pc v
    | _ => s
  s1.updHart h.hid (Hart.leaveAnswered e v)

/-- A request left by a WAITX is outstanding no more (R367): that of the hart named, or the enrolment or the cancel of a hart that its spawner has
given up (R311). -/
def State.outDone (s : State) (hid : Nat) (e : Nat × Nat) : State :=
  match s.harts.filter (fun k => k.fabOut.contains e) with
  | [] => s
  | k :: r => s.updHart (if r.any (fun x => x.hid == hid) then hid else k.hid) (fun x => { x with fabOut := x.fabOut.erase e })

/-- A swarm result (R332, R461): delivered to the hart that still waits for the request of that tick, with the flags that it raises
(R115); the answer to an enrolment or to a leave; otherwise discarded, and the request is outstanding no more. -/
def State.fabResult (s : State) (fr : Frame) : State :=
  match s.proxyOf fr.tag fr.src fr.target with
  | none => s
  | some off =>
    let hid := frameDw fr 0
    let v := word (frameDw fr 1)
    let e := (off, frameDw fr 2)
    match s.hart hid with
    | none => s.outDone hid e
    | some h =>
      if h.created && h.readyAt = e.2 then (s.report off hid fr).childAnswer h (frameDw fr 1 % 256 == stOK)
      else if h.wait.any (fun w => w.issued == e.2 && (w.kind.arrives off || w.kind.joins off)) then
        ((s.report off hid fr).updHart hid (fun k => { k with fxf := orFlags k.fxf (frameDw fr 3) })).answer hid v
      else if h.leavesBy e then (s.report off hid fr).leaveAnswer h e v
      else if h.fabOut.contains e then (s.report off hid fr).outDone hid e
      else s.outDone hid e

/-- The runs of a collective's result as they stand in a payload. -/
def readRuns : Nat → List Byte → List CollRun
  | 0, _ => []
  | n + 1, bs =>
    let nb := leNat ((bs.drop 8).take 8)
    let len := leNat ((bs.drop 16).take 8)
    let rest := bs.drop (24 + 8 * nb)
    { off := leNat (bs.take 8), data := rest.take len, bad := (List.range nb).map (fun i => leNat ((bs.drop (24 + 8 * i)).take 8)) }
      :: readRuns n (rest.drop len)

/-- A contribution of a member on another chip turned away (R145): its command ends there with FCODE 6. -/
def State.refuseColl (s : State) (fr : Frame) : State :=
  s.sendFrame 7 fr.src fr.tag fr.target ([2, frameDw fr 1, frameDw fr 6, frameDw fr 7].flatMap (leBytes 8))

/-- The running command of a hart that an answer about a collective names. -/
def State.collCmd (s : State) (fr : Frame) : Option Cmd :=
  (s.engine (frameDw fr 2)).queue.find? (fun c => c.seq.toNat == frameDw fr 3 && c.hid == frameDw fr 1 && c.tid == fr.tag && c.running)

/-- A whole message about a collective (R145): dword 0 is 0 for a contribution of a member on another chip to a swarm of this one, 1 for the
result of a collective at a peer's bank, 2 for the refusal of a contribution there. -/
def State.fabMessage (s : State) (fr : Frame) : State :=
  match frameDw fr 0 with
  | 0 =>
    match s.objNum fr.target with
    | some (off, o) =>
      let far := farId fr.src (frameDw fr 1)
      let nb := frameDw fr 8
      match (if o.tag = fr.tag then o.members.find? (fun m => m.hid == far) else none) with
      | some m =>
        match s.contribute off (frameDw fr 2) (frameDw fr 3) (frameDw fr 4) (frameDw fr 5)
            { rank := m.rank, chip := fr.src, hid := frameDw fr 1, eng := frameDw fr 6, seq := BitVec.ofNat 32 (frameDw fr 7),
              data := fr.data.drop (72 + 8 * nb), bad := (List.range nb).map (fun i => frameDw fr (9 + i)) } with
        | (t, true) => t
        | (t, false) => t.refuseColl fr
      | none => s.refuseColl fr
    | none => s.refuseColl fr
  | 1 =>
    match s.collCmd fr with
    | some c =>
      let r : CollRes := { runs := readRuns (frameDw fr 6) (fr.data.drop 56), lowabs := frameDw fr 4, nabs := frameDw fr 5 }
      s.setEngine (frameDw fr 2) (fun g => { g with queue := g.queue.map (fun x => if x.seq = c.seq then { x with res := some r } else x) })
    | none => s
  | _ =>
    match s.collCmd fr with
    | some c => s.failCmd (frameDw fr 2) c (6, 0)
    | none => s

/-- Two frames are parts of one message. -/
def sameMessage (a b : Frame) : Bool :=
  a.src == b.src && a.tag == b.tag && a.target == b.target && frameDw a 1 == frameDw b 1 && frameDw a 3 == frameDw b 3

/-- The bytes of a message of so many parts, in order. -/
def joinParts (l : List Frame) : Nat → List Byte
  | 0 => []
  | n + 1 => joinParts l n ++ ((l.find? (fun fr => frameDw fr 2 == n)).map (fun fr => fr.data.drop 32)).getD []

/-- Collective data: a message in one frame, or a part of a longer one, which is taken up when every part has arrived (R461; entry 15). -/
def State.fabColl (s : State) (fr : Frame) : State :=
  if frameDw fr 0 ≠ 4 then s.fabMessage fr
  else
    let l := fr :: s.parts.filter (fun x => sameMessage fr x && frameDw x 2 != frameDw fr 2)
    let rest := s.parts.filter (fun x => !sameMessage fr x)
    if (List.range (frameDw fr 1)).all (fun i => l.any (fun x => frameDw x 2 == i)) then
      ({ s with parts := rest } : State).fabMessage { fr with data := joinParts l (frameDw fr 1) }
    else { s with parts := rest ++ l }

/-! The frames -/

/-- `FABRIC_PUT` (R461). -/
def execFabricPut (fr : Frame) (s : State) : Out := s.receive 1 fr (fun t => t.fabPut fr)
/-- `FABRIC_GET` (R461). -/
def execFabricGet (fr : Frame) (s : State) : Out := s.receive 2 fr (fun t => t.fabGet fr)
/-- `FABRIC_GET_RESPONSE` (R461). -/
def execFabricGetResponse (fr : Frame) (s : State) : Out := s.receive 3 fr (fun t => t.fabPut fr)
/-- `FABRIC_CHANNEL_SEND` (R461). -/
def execFabricChannelSend (fr : Frame) (s : State) : Out := s.receive 4 fr (fun t => t.fabSend fr)
/-- `FABRIC_SWARM_ARRIVAL` (R349). -/
def execFabricSwarmArrival (fr : Frame) (s : State) : Out := s.receive 5 fr (fun t => t.fabArrival fr)
/-- `FABRIC_SWARM_RESULT` (R461). -/
def execFabricSwarmResult (fr : Frame) (s : State) : Out := s.receive 6 fr (fun t => t.fabResult fr)
/-- `FABRIC_COLLECTIVE_DATA` (R461). -/
def execFabricCollectiveData (fr : Frame) (s : State) : Out := s.receive 7 fr (fun t => t.fabColl fr)
/-- `FABRIC_CREDIT_RETURN` (R461): no instruction of this chip waits for a peer's slot; the arrival is logged. -/
def execFabricCreditReturn (fr : Frame) (s : State) : Out := s.receive 8 fr id
/-- `FABRIC_TRIGGER` (R445). -/
def execFabricTrigger (fr : Frame) (s : State) : Out :=
  if !s.frameOk 9 fr then .next (s.dropFrame false)
  else if !s.frameFresh fr then .next (s.dropFrame true)
  else .next (s.trigger fr.tag fr.target fr.src (word (frameDw fr 0)))
/-- `FABRIC_FRAME_DROP` (R461): a frame that no rule admits is dropped and counted; a stale one under R26. -/
def execFabricFrameDrop (fr : Frame) (s : State) : Out :=
  if 1 ≤ fr.kind && fr.kind ≤ 9 && s.frameOk fr.kind fr then .next (if s.frameFresh fr then s else s.dropFrame true)
  else .next (s.dropFrame false)

/-! Replay -/

/-- A logged arrival delivered to its target (R446), its ticks from the log start of the replay. No instruction of this chip waits for a peer's
slot, so that the return of one resumes nothing (entry 15). -/
def State.deliverArrival (s : State) (a : Arrival) : State :=
  let fr := shiftTicks (s.tenant a.tag).logAt a.ev
  match fr.kind with
  | 1 => s.fabPut fr
  | 3 => s.fabPut fr
  | 4 => s.fabSend fr
  | 5 => s.fabArrival fr
  | 6 => s.fabResult fr
  | 7 => s.fabColl fr
  | 8 => s
  | 32 => s.hostWrite fr.tag (fr.target / 2 ^ 60) (fr.target % 2 ^ 60) fr.data
  | 33 =>
    (s.setTenant fr.tag (fun t =>
      { t with hsch := word fr.target, hsmsg := word (frameDw fr 0), hsdl := word (frameDw fr 1) })).hostSend fr.tag
  | _ => s

/-- The next entry of a tenant's log. -/
def State.nextArrival (s : State) (tag : Nat) : Option Arrival := s.alog.find? (fun a => a.tag == tag)

/-- `REPLAY_DELIVERY` (R446): the next entry, never earlier than its offset; the mode ends with the last one. -/
def execReplayDelivery (tag : Nat) (s : State) : Out :=
  let t := s.tenant tag
  if !t.replay then .next s
  else
    match s.nextArrival tag with
    | none => .next (s.setTenant tag (fun t => { t with replay := false }))
    | some a =>
      if s.gtb < t.logAt + a.offset then .next s
      else
        let s1 := ({ s with alog := s.alog.erase a }).deliverArrival a
        .next (if (s1.nextArrival tag).isSome then s1 else s1.setTenant tag (fun t => { t with replay := false }))

/-! Accesses held up -/

/-- An access from outside that was held up, tried again (R140, R267, R360, R369). -/
def State.deliverHeld (s : State) (fr : Frame) : State :=
  match fr.kind with
  | 1 => s.outsideWrite false fr.tag (word fr.target) fr.data
  | 32 => s.hostWrite fr.tag (fr.target / 2 ^ 60) (fr.target % 2 ^ 60) fr.data
  | 35 => s.coreWrite (fr.target / 2 ^ 32) (fr.target % 2 ^ 32) (word (frameDw fr 0))
  | 36 => s.outsideWrite true fr.tag (word fr.target) fr.data
  | 2 => s.fabGet fr
  | 33 => s.hostSendOn fr.tag
  | 34 => s.afterRead fr.tag (fr.target / 2 ^ 60) (fr.target % 2 ^ 60) (frameDw fr 0)
  | _ => s

/-- The accesses from outside that are held up, each tried again in the order of their arrival: one whose line is free is performed. -/
def State.serveHeld (s : State) : State := if s.held = [] then s else s.held.foldl State.deliverHeld { s with held := [] }

end Sys2Proof.Machine
end

