-- ==== Sys2Proof/Machine/Fop.lean ====
section
/-! DEFINITION. Scalar floating point (FOP, major 0x0D; R244, R245). -/

namespace Sys2Proof.Machine

/-- The format of a fmt code (R244). -/
def fopFmt (f : BitVec 2) : Fmt :=
  match f with
  | 0#2 => fp32
  | 1#2 => fp64
  | 2#2 => fp16
  | _ => bf16

/-- RM of FXF as it stands (R245). -/
def State.rm (s : State) : BitVec 3 := fxfRm s.h.fxf

/-- The low bits of a register that a format reads (R245). -/
def State.fr (s : State) (f : Fmt) (a : BitVec 5) : Nat := (s.xr a).toNat % 2 ^ f.width

/-- A FOP result retires with its flags in FXF, or traps FPE with xd and FXF unchanged (R245). -/
def State.fopDone (s : State) (d : BitVec 5) (r : Nat × Nat) : Out :=
  if flTraps (fxfFen s.h.fxf) r.2 then .next (s.trap cFPE (word (r.2 % 32)))
  else .next ((s.setH (fun h => { h with fxf := orFlags h.fxf r.2 })).retire d (word r.1))

/-- A FOP of two operands. -/
def fop2 (g : Fmt → BitVec 3 → Nat → Nat → Nat × Nat) (d a b : BitVec 5) (f : BitVec 2) (s : State) : Out :=
  s.fopDone d (g (fopFmt f) s.rm (s.fr (fopFmt f) a) (s.fr (fopFmt f) b))

/-- A scalar compare: 1 if true, else 0 (R244). -/
def fopCmp (c : Cmp) (f : Fmt) (a b : Nat) : Nat × Nat := ((f.cmp c a b).1.toNat, (f.cmp c a b).2)

def execFadd (d a b : BitVec 5) (f : BitVec 2) (s : State) : Out := fop2 Fmt.add d a b f s
def execFsub (d a b : BitVec 5) (f : BitVec 2) (s : State) : Out := fop2 Fmt.sub d a b f s
def execFmul (d a b : BitVec 5) (f : BitVec 2) (s : State) : Out := fop2 Fmt.mul d a b f s
def execFdiv (d a b : BitVec 5) (f : BitVec 2) (s : State) : Out := fop2 Fmt.div d a b f s
def execFsqrt (d a : BitVec 5) (f : BitVec 2) (s : State) : Out :=
  s.fopDone d ((fopFmt f).sqrt s.rm (s.fr (fopFmt f) a))
def execFmin (d a b : BitVec 5) (f : BitVec 2) (s : State) : Out := fop2 (fun g _ x y => g.minmax false x y) d a b f s
def execFmax (d a b : BitVec 5) (f : BitVec 2) (s : State) : Out := fop2 (fun g _ x y => g.minmax true x y) d a b f s
/-- `fmacc`: xa x xb + xd, rounded once (R244). -/
def execFmacc (d a b : BitVec 5) (f : BitVec 2) (s : State) : Out :=
  fop2 (fun g rm x y => g.fma rm false false x y (s.fr g d)) d a b f s
def execFsgnj (d a b : BitVec 5) (f : BitVec 2) (s : State) : Out := fop2 (fun g _ x y => g.sgnj x y) d a b f s
def execFsgnjn (d a b : BitVec 5) (f : BitVec 2) (s : State) : Out := fop2 (fun g _ x y => g.sgnjn x y) d a b f s
def execFsgnjx (d a b : BitVec 5) (f : BitVec 2) (s : State) : Out := fop2 (fun g _ x y => g.sgnjx x y) d a b f s
def execFeq (d a b : BitVec 5) (f : BitVec 2) (s : State) : Out := fop2 (fun g _ x y => fopCmp .eq g x y) d a b f s
def execFlt (d a b : BitVec 5) (f : BitVec 2) (s : State) : Out := fop2 (fun g _ x y => fopCmp .lt g x y) d a b f s
def execFle (d a b : BitVec 5) (f : BitVec 2) (s : State) : Out := fop2 (fun g _ x y => fopCmp .le g x y) d a b f s
def execFkind (d a : BitVec 5) (f : BitVec 2) (s : State) : Out :=
  s.fopDone d ((fopFmt f).kind (s.fr (fopFmt f) a), 0)

/-- A conversion between floating formats (R238): of equal formats a copy without flags; a signalling NaN sets NV. -/
def fcvtFmt (rm : BitVec 3) (dst src : Fmt) (x : Nat) : Nat × Nat :=
  if dst = src then (x, 0) else dst.finish rm (src.val x, nvOf [src.val x])

def execFcvtF (d a : BitVec 5) (f q : BitVec 2) (s : State) : Out :=
  s.fopDone d (fcvtFmt s.rm (fopFmt f) (fopFmt q) (s.fr (fopFmt q) a))

/-- A conversion into a 64-bit integer by a mode (R238, R244). -/
def fopToInt (rm : BitVec 3) (unsigned : Bool) (d a : BitVec 5) (f : BitVec 2) (s : State) : Out :=
  let r := toIntFlags rm (if unsigned then 0 else -2 ^ 63) (if unsigned then 2 ^ 64 - 1 else 2 ^ 63 - 1)
    ((fopFmt f).val (s.fr (fopFmt f) a))
  s.fopDone d (unsg r.1 64, r.2)

def execFcvtI (d a : BitVec 5) (f : BitVec 2) (s : State) : Out := fopToInt s.rm false d a f s
def execFcvtIRtz (d a : BitVec 5) (f : BitVec 2) (s : State) : Out := fopToInt 1 false d a f s
def execFcvtIu (d a : BitVec 5) (f : BitVec 2) (s : State) : Out := fopToInt s.rm true d a f s
def execFcvtIuRtz (d a : BitVec 5) (f : BitVec 2) (s : State) : Out := fopToInt 1 true d a f s

def execFcvtFi (d a : BitVec 5) (f : BitVec 2) (s : State) : Out :=
  s.fopDone d ((fopFmt f).round s.rm (intVal (s.xr a).toInt))
def execFcvtFiu (d a : BitVec 5) (f : BitVec 2) (s : State) : Out :=
  s.fopDone d ((fopFmt f).round s.rm (intVal (s.xr a).toNat))

end Sys2Proof.Machine
end

