-- ==== Sys2Proof/Machine/Front.lean ====
section
/-! DEFINITION. The front end of the forager: what it does at a word that it cannot run (R41, R42, R297). -/

namespace Sys2Proof.Machine

/-- `FETCH_FAULT` (R297): the fetch at the PC fails and traps there, or waits. -/
def execFetchFault (s : State) : Out :=
  match s.fetch s.h.actor s.h.pc with
  | (s1, .trap c v) => .next (s1.trap c v)
  | (s1, .wait p) => .next (s1.stall p)
  | (_, .word _) => .next s

/-- `BAD_WORD` (R41, R42): a word of the scalar stream that reads uncorrectable, or that fails checks 2 to 5. -/
def execBadWord (w : BitVec 32) (unc : Bool) (s : State) : Out :=
  if unc then .next ((s.mcheck 12 s.h.die s.h.tid s.h.hid s.h.core s.h.pc 0).trap cMCHK 0)
  else
    match wordFate false w with
    | some .illop => .next (s.trap cILLOP (w.zeroExtend 64))
    | some .illstream => .next (s.trap cILLSTREAM (w.zeroExtend 64))
    | none => .next s

end Sys2Proof.Machine
end

