-- ==== Sys2Proof/Machine/LoadStore.lean ====
section
/-! DEFINITION. Scalar loads and stores (majors 0x0A and 0x0B; R84-R86). -/

namespace Sys2Proof.Machine

/-- The address of a scalar load or store: x[xa] + offset13 modulo 2^64 (R32, R85). -/
def State.scalarAddr (s : State) (a : BitVec 5) (o : BitVec 13) : Word := s.xr a + o.signExtend 64

/-- A scalar load of `n` bytes: the checks of R85, the read at the home, and the value extended into xd (R84-R86). -/
def load (n : Nat) (signed : Bool) (d a : BitVec 5) (o : BitVec 13) (s : State) : Out :=
  let p := s.scalarAddr a o
  State.atPlace (s.access s.h.actor .load p n n) (fun s1 pl =>
    match s1.readAt s1.h.actor pl n with
    | (s2, v, bad) =>
      if bad then .next (s2.trap cSPOISON p)
      else .next (s2.retire d (if signed then BitVec.ofInt 64 (sgn v (8 * n)) else word v)))

/-- A scalar store of the low `n` bytes of x[xd]: the checks of R85, then the write at the home (R86). -/
def storeOp (n : Nat) (d a : BitVec 5) (o : BitVec 13) (s : State) : Out :=
  State.atPlace (s.access s.h.actor .store (s.scalarAddr a o) n n) (fun s1 pl =>
    .next (s1.writeAt s1.h.actor pl (leBytes n (s1.xr d).toNat) false).retire0)

def execLdB (d a : BitVec 5) (o : BitVec 13) (s : State) : Out := load 1 true d a o s
def execLdH (d a : BitVec 5) (o : BitVec 13) (s : State) : Out := load 2 true d a o s
def execLdW (d a : BitVec 5) (o : BitVec 13) (s : State) : Out := load 4 true d a o s
def execLdD (d a : BitVec 5) (o : BitVec 13) (s : State) : Out := load 8 false d a o s
def execLdBu (d a : BitVec 5) (o : BitVec 13) (s : State) : Out := load 1 false d a o s
def execLdHu (d a : BitVec 5) (o : BitVec 13) (s : State) : Out := load 2 false d a o s
def execLdWu (d a : BitVec 5) (o : BitVec 13) (s : State) : Out := load 4 false d a o s
def execStB (d a : BitVec 5) (o : BitVec 13) (s : State) : Out := storeOp 1 d a o s
def execStH (d a : BitVec 5) (o : BitVec 13) (s : State) : Out := storeOp 2 d a o s
def execStW (d a : BitVec 5) (o : BitVec 13) (s : State) : Out := storeOp 4 d a o s
def execStD (d a : BitVec 5) (o : BitVec 13) (s : State) : Out := storeOp 8 d a o s

end Sys2Proof.Machine
end

