-- ==== Sys2Proof/Machine/Scalar.lean ====
section
/-! DEFINITION. Integer register operations, immediates, branches, jumps and the window instructions (majors 0x01-0x09,
0x0E-0x11; R292-R297, R83). -/

namespace Sys2Proof.Machine

/-- The number of a truth value. -/
def truth (b : Bool) : Word := if b then 1 else 0

/-- An XOP instruction: xd <- f(x[xa], x[xb]) (R292); both sources are read before xd is written (R293). -/
def xop (f : Word → Word → Word) (d a b : BitVec 5) (s : State) : Out := .next (s.retire d (f (s.xr a) (s.xr b)))

/-- An immediate instruction: xd <- f(x[xa]) (R294, R295). -/
def xim (f : Word → Word) (d a : BitVec 5) (s : State) : Out := .next (s.retire d (f (s.xr a)))

/-- The functions of R292 that are not plain operations of words. -/
def fSll (a b : Word) : Word := a <<< (b.toNat % 64)
def fSrl (a b : Word) : Word := a >>> (b.toNat % 64)
def fSra (a b : Word) : Word := a.sshiftRight (b.toNat % 64)
def fSltS (a b : Word) : Word := truth (a.slt b)
def fSltU (a b : Word) : Word := truth (a.ult b)
def fMulhiSs (a b : Word) : Word := BitVec.ofInt 64 (a.toInt * b.toInt / 2 ^ 64)
def fMulhiUu (a b : Word) : Word := BitVec.ofInt 64 ((a.toNat : Int) * b.toNat / 2 ^ 64)
def fMulhiSu (a b : Word) : Word := BitVec.ofInt 64 (a.toInt * b.toNat / 2 ^ 64)
/-- The quotient rounded toward zero; 0 for a divisor of 0 (R293). -/
def fQuoS (a b : Word) : Word := if b = 0 then 0 else BitVec.ofInt 64 (Int.tdiv a.toInt b.toInt)
def fQuoU (a b : Word) : Word := if b = 0 then 0 else word (a.toNat / b.toNat)
/-- The remainder with the sign of a; a for a divisor of 0 (R293). -/
def fRemS (a b : Word) : Word := if b = 0 then a else BitVec.ofInt 64 (Int.tmod a.toInt b.toInt)
def fRemU (a b : Word) : Word := if b = 0 then a else word (a.toNat % b.toNat)
def fMinS (a b : Word) : Word := if a.slt b then a else b
def fMaxS (a b : Word) : Word := if a.slt b then b else a
def fMinU (a b : Word) : Word := if a.ult b then a else b
def fMaxU (a b : Word) : Word := if a.ult b then b else a

/-- The immediate sign-extended and zero-extended (R33, R294). -/
def sext16 (i : BitVec 16) : Word := i.signExtend 64
def zext16 (i : BitVec 16) : Word := i.zeroExtend 64

def execAdd (d a b : BitVec 5) (s : State) : Out := xop (· + ·) d a b s
def execSub (d a b : BitVec 5) (s : State) : Out := xop (· - ·) d a b s
def execAnd (d a b : BitVec 5) (s : State) : Out := xop (· &&& ·) d a b s
def execOr (d a b : BitVec 5) (s : State) : Out := xop (· ||| ·) d a b s
def execXor (d a b : BitVec 5) (s : State) : Out := xop (· ^^^ ·) d a b s
def execSll (d a b : BitVec 5) (s : State) : Out := xop fSll d a b s
def execSrl (d a b : BitVec 5) (s : State) : Out := xop fSrl d a b s
def execSra (d a b : BitVec 5) (s : State) : Out := xop fSra d a b s
def execSltS (d a b : BitVec 5) (s : State) : Out := xop fSltS d a b s
def execSltU (d a b : BitVec 5) (s : State) : Out := xop fSltU d a b s
def execMul (d a b : BitVec 5) (s : State) : Out := xop (· * ·) d a b s
def execMulhiSs (d a b : BitVec 5) (s : State) : Out := xop fMulhiSs d a b s
def execMulhiUu (d a b : BitVec 5) (s : State) : Out := xop fMulhiUu d a b s
def execMulhiSu (d a b : BitVec 5) (s : State) : Out := xop fMulhiSu d a b s
def execQuoS (d a b : BitVec 5) (s : State) : Out := xop fQuoS d a b s
def execQuoU (d a b : BitVec 5) (s : State) : Out := xop fQuoU d a b s
def execRemS (d a b : BitVec 5) (s : State) : Out := xop fRemS d a b s
def execRemU (d a b : BitVec 5) (s : State) : Out := xop fRemU d a b s
def execMinS (d a b : BitVec 5) (s : State) : Out := xop fMinS d a b s
def execMaxS (d a b : BitVec 5) (s : State) : Out := xop fMaxS d a b s
def execMinU (d a b : BitVec 5) (s : State) : Out := xop fMinU d a b s
def execMaxU (d a b : BitVec 5) (s : State) : Out := xop fMaxU d a b s

def execAddi (d a : BitVec 5) (i : BitVec 16) (s : State) : Out := xim (· + sext16 i) d a s
def execAndi (d a : BitVec 5) (i : BitVec 16) (s : State) : Out := xim (· &&& zext16 i) d a s
def execOri (d a : BitVec 5) (i : BitVec 16) (s : State) : Out := xim (· ||| zext16 i) d a s
def execXori (d a : BitVec 5) (i : BitVec 16) (s : State) : Out := xim (· ^^^ zext16 i) d a s
def execSlti (d a : BitVec 5) (i : BitVec 16) (s : State) : Out := xim (fun x => fSltS x (sext16 i)) d a s
def execSltiu (d a : BitVec 5) (i : BitVec 16) (s : State) : Out := xim (fun x => fSltU x (sext16 i)) d a s
def execSlli (d a : BitVec 5) (i : BitVec 6) (s : State) : Out := xim (fun x => fSll x (i.zeroExtend 64)) d a s
def execSrli (d a : BitVec 5) (i : BitVec 6) (s : State) : Out := xim (fun x => fSrl x (i.zeroExtend 64)) d a s
def execSrai (d a : BitVec 5) (i : BitVec 6) (s : State) : Out := xim (fun x => fSra x (i.zeroExtend 64)) d a s
/-- `lhi`: xd <- ((x[xa] x 2^16) mod 2^64) OR imm16 (R294). -/
def execLhi (d a : BitVec 5) (i : BitVec 16) (s : State) : Out := xim (fun x => x <<< 16 ||| zext16 i) d a s

/-- The target of a branch (R32): the branch's address plus four times the signed word offset. -/
def branchTarget (pc : Word) (o : BitVec 13) : Word := pc + (o.signExtend 64 <<< 2)

/-- The target of `jal` (R32). -/
def jumpTarget (pc : Word) (o : BitVec 21) : Word := pc + (o.signExtend 64 <<< 2)

/-- A branch: the target if the condition holds, else the next word (R296); it writes no register. -/
def branch (f : Word → Word → Bool) (a b : BitVec 5) (o : BitVec 13) (s : State) : Out :=
  .next (s.goto (if f (s.xr a) (s.xr b) then branchTarget s.h.pc o else s.h.pc + 4) (.recorded 0 0 none))

def execBeq (a b : BitVec 5) (o : BitVec 13) (s : State) : Out := branch (fun x y => x == y) a b o s
def execBne (a b : BitVec 5) (o : BitVec 13) (s : State) : Out := branch (fun x y => x != y) a b o s
def execBlt (a b : BitVec 5) (o : BitVec 13) (s : State) : Out := branch (fun x y => x.slt y) a b o s
def execBge (a b : BitVec 5) (o : BitVec 13) (s : State) : Out := branch (fun x y => !x.slt y) a b o s
def execBltu (a b : BitVec 5) (o : BitVec 13) (s : State) : Out := branch (fun x y => x.ult y) a b o s
def execBgeu (a b : BitVec 5) (o : BitVec 13) (s : State) : Out := branch (fun x y => !x.ult y) a b o s

/-- A jump taken: the return address into xd, and on at the target (R297). -/
def State.jump (s : State) (d : BitVec 5) (t : Word) : State :=
  { s with h := { s.h.setX d.toNat (s.h.pc + 4) with pc := t, iw := none }, did := .recorded d.toNat (s.xr d) none }

def execJal (d : BitVec 5) (o : BitVec 21) (s : State) : Out := .next (s.jump d (jumpTarget s.h.pc o))

/-- `jalr`: a target that is not a multiple of 4 raises ALIGN with TVAL the target and xd unchanged (R297). -/
def execJalr (d a : BitVec 5) (i : BitVec 16) (s : State) : Out :=
  let t := s.xr a + sext16 i
  if t.toNat % 4 ≠ 0 then .next (s.trap cALIGN t) else .next (s.jump d t)

/-- The offset width of a window (R83). -/
def offsetWidth (w : BitVec 2) : Nat :=
  match w with
  | 0#2 => 56
  | 1#2 => 40
  | 2#2 => 20
  | _ => 28

/-- `sptest`: the window code of x[xa]; never traps (R83). -/
def execSptest (d a : BitVec 5) (s : State) : Out := .next (s.retire d (word (window (s.xr a))))

/-- `spcast.chk`: SPACE unless x[xa] lies in window w (R83). -/
def execSpcastChk (d a : BitVec 5) (w : BitVec 2) (s : State) : Out :=
  if window (s.xr a) ≠ w.toNat then .next (s.trap cSPACE (s.xr a)) else .next (s.retire d (s.xr a))

/-- The pointer of window w with an offset (R83). -/
def Hart.makePointer (h : Hart) (w : BitVec 2) (x : Word) : Word :=
  match w with
  | 0#2 => x
  | 1#2 => word (0xF0 * 2 ^ 56 + h.hid * 2 ^ 40 + x.toNat)
  | 2#2 => word (0xE0 * 2 ^ 56 + h.core * 2 ^ 40 + x.toNat)
  | _ => word (0xD0 * 2 ^ 56 + x.toNat)

/-- `spcast.mk`: SPACE when the offset does not fit (R83). -/
def execSpcastMk (d a : BitVec 5) (w : BitVec 2) (s : State) : Out :=
  if 2 ^ offsetWidth w ≤ (s.xr a).toNat then .next (s.trap cSPACE (s.xr a))
  else .next (s.retire d (s.h.makePointer w (s.xr a)))

/-- `spcast.off`: the offset of x[xa] in window w, or SPACE (R83). -/
def execSpcastOff (d a : BitVec 5) (w : BitVec 2) (s : State) : Out :=
  if window (s.xr a) ≠ w.toNat then .next (s.trap cSPACE (s.xr a))
  else .next (s.retire d (word (bits (s.xr a).toNat 0 (offsetWidth w))))

end Sys2Proof.Machine
end

