-- ==== Sys2Proof/Machine/Dispatch.lean ====
section
/-! DEFINITION. The one match over the instructions: each arm calls the meaning of its constructor. -/

namespace Sys2Proof.Machine

def exec (i : Instr) (s : State) : Host.Outcome State Fault Refusal :=
  match i with
  | .coldStart => Sys2Proof.Machine.execColdStart s
  | .warmStart => Sys2Proof.Machine.execWarmStart s
  | .dieCoreReset die => Sys2Proof.Machine.execDieCoreReset die s
  | .dieLeavesReset die => Sys2Proof.Machine.execDieLeavesReset die s
  | .fieldDieReset f => Sys2Proof.Machine.execFieldDieReset f s
  | .ptpLockLoss => Sys2Proof.Machine.execPtpLockLoss s
  | .ptpLockAcquire => Sys2Proof.Machine.execPtpLockAcquire s
  | .negotiationClose => Sys2Proof.Machine.execNegotiationClose s
  | .gtbsetWrite v => Sys2Proof.Machine.execGtbsetWrite v s
  | .ftmapWrite v => Sys2Proof.Machine.execFtmapWrite v s
  | .hchipWrite v => Sys2Proof.Machine.execHchipWrite v s
  | .mgmtRegisterWrite sp off v => Sys2Proof.Machine.execMgmtRegisterWrite sp off v s
  | .blockStart => Sys2Proof.Machine.execBlockStart s
  | .convoyIssue => Sys2Proof.Machine.execConvoyIssue s
  | .vectorTrapDelivery => Sys2Proof.Machine.execVectorTrapDelivery s
  | .pfAnswerTimeout hid => Sys2Proof.Machine.execPfAnswerTimeout hid s
  | .hostPfAnswer tag v => Sys2Proof.Machine.execHostPfAnswer tag v s
  | .iwlExpiry hid side => Sys2Proof.Machine.execIwlExpiry hid side s
  | .waitAnswerTimeout hid => Sys2Proof.Machine.execWaitAnswerTimeout hid s
  | .rqpopExpiry hid => Sys2Proof.Machine.execRqpopExpiry hid s
  | .vsyncExpiry hid => Sys2Proof.Machine.execVsyncExpiry hid s
  | .napExpiry hid => Sys2Proof.Machine.execNapExpiry hid s
  | .twaitExpiry hid => Sys2Proof.Machine.execTwaitExpiry hid s
  | .ewaitExpiry hid => Sys2Proof.Machine.execEwaitExpiry hid s
  | .eleaseExpiry hid => Sys2Proof.Machine.execEleaseExpiry hid s
  | .engineSlotExpiry hid => Sys2Proof.Machine.execEngineSlotExpiry hid s
  | .swarmDeadlineClose rcd => Sys2Proof.Machine.execSwarmDeadlineClose rcd s
  | .swjoinExpiry hid => Sys2Proof.Machine.execSwjoinExpiry hid s
  | .acqExpiry hid => Sys2Proof.Machine.execAcqExpiry hid s
  | .sendExpiry hid => Sys2Proof.Machine.execSendExpiry hid s
  | .recvExpiry hid => Sys2Proof.Machine.execRecvExpiry hid s
  | .planeFlip region bank => Sys2Proof.Machine.execPlaneFlip region bank s
  | .patrolScrub sector => Sys2Proof.Machine.execPatrolScrub sector s
  | .combPatrolScrub off => Sys2Proof.Machine.execCombPatrolScrub off s
  | .zreqGo v => Sys2Proof.Machine.execZreqGo v s
  | .zreqComplete => Sys2Proof.Machine.execZreqComplete s
  | .tinvGo tag v => Sys2Proof.Machine.execTinvGo tag v s
  | .tinvComplete tag => Sys2Proof.Machine.execTinvComplete tag s
  | .roreqGo tag v => Sys2Proof.Machine.execRoreqGo tag v s
  | .roreqComplete tag => Sys2Proof.Machine.execRoreqComplete tag s
  | .tenbootGo tag v => Sys2Proof.Machine.execTenbootGo tag v s
  | .tenantActivate tag v => Sys2Proof.Machine.execTenantActivate tag v s
  | .tenantFreeze tag v => Sys2Proof.Machine.execTenantFreeze tag v s
  | .tenantFrozen tag => Sys2Proof.Machine.execTenantFrozen tag s
  | .tenantThaw tag v => Sys2Proof.Machine.execTenantThaw tag v s
  | .tenantRelease tag v => Sys2Proof.Machine.execTenantRelease tag v s
  | .tenantReleased tag => Sys2Proof.Machine.execTenantReleased tag s
  | .pmapWrite core idx v => Sys2Proof.Machine.execPmapWrite core idx v s
  | .weightSlotFreeMgmt core slot => Sys2Proof.Machine.execWeightSlotFreeMgmt core slot s
  | .bindRecordSubmit core slot d0 byHost => Sys2Proof.Machine.execBindRecordSubmit core slot d0 byHost s
  | .bindRecordRemove core slot byHost => Sys2Proof.Machine.execBindRecordRemove core slot byHost s
  | .quantumEnd core slot => Sys2Proof.Machine.execQuantumEnd core slot s
  | .apiaryWaitingRemoval core slot => Sys2Proof.Machine.execApiaryWaitingRemoval core slot s
  | .powerSample watts => Sys2Proof.Machine.execPowerSample watts s
  | .watchdogExpiry hid => Sys2Proof.Machine.execWatchdogExpiry hid s
  | .leaseGrant engine => Sys2Proof.Machine.execLeaseGrant engine s
  | .leaseExpiry engine => Sys2Proof.Machine.execLeaseExpiry engine s
  | .leaseRevoke engine => Sys2Proof.Machine.execLeaseRevoke engine s
  | .engineCommandStart engine => Sys2Proof.Machine.execEngineCommandStart engine s
  | .engineCommandEnd engine => Sys2Proof.Machine.execEngineCommandEnd engine s
  | .collectiveClose rcd => Sys2Proof.Machine.execCollectiveClose rcd s
  | .ploughMoveGo f v => Sys2Proof.Machine.execPloughMoveGo f v s
  | .ploughMoveComplete f => Sys2Proof.Machine.execPloughMoveComplete f s
  | .ploughEpochEnd f => Sys2Proof.Machine.execPloughEpochEnd f s
  | .recheckRun hid elem vote => Sys2Proof.Machine.execRecheckRun hid elem vote s
  | .debugResume core slot => Sys2Proof.Machine.execDebugResume core slot s
  | .debugStep core slot => Sys2Proof.Machine.execDebugStep core slot s
  | .fabricPut fr => Sys2Proof.Machine.execFabricPut fr s
  | .fabricGet fr => Sys2Proof.Machine.execFabricGet fr s
  | .fabricGetResponse fr => Sys2Proof.Machine.execFabricGetResponse fr s
  | .fabricChannelSend fr => Sys2Proof.Machine.execFabricChannelSend fr s
  | .fabricSwarmArrival fr => Sys2Proof.Machine.execFabricSwarmArrival fr s
  | .fabricSwarmResult fr => Sys2Proof.Machine.execFabricSwarmResult fr s
  | .fabricCollectiveData fr => Sys2Proof.Machine.execFabricCollectiveData fr s
  | .fabricCreditReturn fr => Sys2Proof.Machine.execFabricCreditReturn fr s
  | .fabricTrigger fr => Sys2Proof.Machine.execFabricTrigger fr s
  | .replayDelivery tag => Sys2Proof.Machine.execReplayDelivery tag s
  | .hostSend tag => Sys2Proof.Machine.execHostSend tag s
  | .hostMemoryWrite tag bar off data => Sys2Proof.Machine.execHostMemoryWrite tag bar off data s
  | .hostMemoryRead tag bar off size => Sys2Proof.Machine.execHostMemoryRead tag bar off size s
  | .jobRecordPost job => Sys2Proof.Machine.execJobRecordPost job s
  | .spdmRequest req => Sys2Proof.Machine.execSpdmRequest req s
  | .add d a b => Sys2Proof.Machine.execAdd d a b s
  | .sub d a b => Sys2Proof.Machine.execSub d a b s
  | .and d a b => Sys2Proof.Machine.execAnd d a b s
  | .or d a b => Sys2Proof.Machine.execOr d a b s
  | .xor d a b => Sys2Proof.Machine.execXor d a b s
  | .sll d a b => Sys2Proof.Machine.execSll d a b s
  | .srl d a b => Sys2Proof.Machine.execSrl d a b s
  | .sra d a b => Sys2Proof.Machine.execSra d a b s
  | .sltS d a b => Sys2Proof.Machine.execSltS d a b s
  | .sltU d a b => Sys2Proof.Machine.execSltU d a b s
  | .mul d a b => Sys2Proof.Machine.execMul d a b s
  | .mulhiSs d a b => Sys2Proof.Machine.execMulhiSs d a b s
  | .mulhiUu d a b => Sys2Proof.Machine.execMulhiUu d a b s
  | .mulhiSu d a b => Sys2Proof.Machine.execMulhiSu d a b s
  | .quoS d a b => Sys2Proof.Machine.execQuoS d a b s
  | .quoU d a b => Sys2Proof.Machine.execQuoU d a b s
  | .remS d a b => Sys2Proof.Machine.execRemS d a b s
  | .remU d a b => Sys2Proof.Machine.execRemU d a b s
  | .minS d a b => Sys2Proof.Machine.execMinS d a b s
  | .maxS d a b => Sys2Proof.Machine.execMaxS d a b s
  | .minU d a b => Sys2Proof.Machine.execMinU d a b s
  | .maxU d a b => Sys2Proof.Machine.execMaxU d a b s
  | .addi d a i0 => Sys2Proof.Machine.execAddi d a i0 s
  | .andi d a i0 => Sys2Proof.Machine.execAndi d a i0 s
  | .ori d a i0 => Sys2Proof.Machine.execOri d a i0 s
  | .xori d a i0 => Sys2Proof.Machine.execXori d a i0 s
  | .slti d a i0 => Sys2Proof.Machine.execSlti d a i0 s
  | .sltiu d a i0 => Sys2Proof.Machine.execSltiu d a i0 s
  | .slli d a s_ => Sys2Proof.Machine.execSlli d a s_ s
  | .srli d a s_ => Sys2Proof.Machine.execSrli d a s_ s
  | .srai d a s_ => Sys2Proof.Machine.execSrai d a s_ s
  | .lhi d a i0 => Sys2Proof.Machine.execLhi d a i0 s
  | .ldB d a o => Sys2Proof.Machine.execLdB d a o s
  | .ldH d a o => Sys2Proof.Machine.execLdH d a o s
  | .ldW d a o => Sys2Proof.Machine.execLdW d a o s
  | .ldD d a o => Sys2Proof.Machine.execLdD d a o s
  | .ldBu d a o => Sys2Proof.Machine.execLdBu d a o s
  | .ldHu d a o => Sys2Proof.Machine.execLdHu d a o s
  | .ldWu d a o => Sys2Proof.Machine.execLdWu d a o s
  | .stB d a o => Sys2Proof.Machine.execStB d a o s
  | .stH d a o => Sys2Proof.Machine.execStH d a o s
  | .stW d a o => Sys2Proof.Machine.execStW d a o s
  | .stD d a o => Sys2Proof.Machine.execStD d a o s
  | .amoSwap d a b w q s_ => Sys2Proof.Machine.execAmoSwap d a b w q s_ s
  | .amoCas d a b w q s_ => Sys2Proof.Machine.execAmoCas d a b w q s_ s
  | .amoAdd d a b w q s_ => Sys2Proof.Machine.execAmoAdd d a b w q s_ s
  | .amoAnd d a b w q s_ => Sys2Proof.Machine.execAmoAnd d a b w q s_ s
  | .amoOr d a b w q s_ => Sys2Proof.Machine.execAmoOr d a b w q s_ s
  | .amoXor d a b w q s_ => Sys2Proof.Machine.execAmoXor d a b w q s_ s
  | .amoSmin d a b w q s_ => Sys2Proof.Machine.execAmoSmin d a b w q s_ s
  | .amoSmax d a b w q s_ => Sys2Proof.Machine.execAmoSmax d a b w q s_ s
  | .amoUmin d a b w q s_ => Sys2Proof.Machine.execAmoUmin d a b w q s_ s
  | .amoUmax d a b w q s_ => Sys2Proof.Machine.execAmoUmax d a b w q s_ s
  | .amoLd d a w q s_ => Sys2Proof.Machine.execAmoLd d a w q s_ s
  | .amoFadd d a b w q s_ => Sys2Proof.Machine.execAmoFadd d a b w q s_ s
  | .amoFmin d a b w q s_ => Sys2Proof.Machine.execAmoFmin d a b w q s_ s
  | .amoFmax d a b w q s_ => Sys2Proof.Machine.execAmoFmax d a b w q s_ s
  | .amoQadd d a b q s_ => Sys2Proof.Machine.execAmoQadd d a b q s_ s
  | .amoQmul d a b q s_ => Sys2Proof.Machine.execAmoQmul d a b q s_ s
  | .fadd d a b f => Sys2Proof.Machine.execFadd d a b f s
  | .fsub d a b f => Sys2Proof.Machine.execFsub d a b f s
  | .fmul d a b f => Sys2Proof.Machine.execFmul d a b f s
  | .fdiv d a b f => Sys2Proof.Machine.execFdiv d a b f s
  | .fsqrt d a f => Sys2Proof.Machine.execFsqrt d a f s
  | .fmin d a b f => Sys2Proof.Machine.execFmin d a b f s
  | .fmax d a b f => Sys2Proof.Machine.execFmax d a b f s
  | .fmacc d a b f => Sys2Proof.Machine.execFmacc d a b f s
  | .fsgnj d a b f => Sys2Proof.Machine.execFsgnj d a b f s
  | .fsgnjn d a b f => Sys2Proof.Machine.execFsgnjn d a b f s
  | .fsgnjx d a b f => Sys2Proof.Machine.execFsgnjx d a b f s
  | .feq d a b f => Sys2Proof.Machine.execFeq d a b f s
  | .flt d a b f => Sys2Proof.Machine.execFlt d a b f s
  | .fle d a b f => Sys2Proof.Machine.execFle d a b f s
  | .fkind d a f => Sys2Proof.Machine.execFkind d a f s
  | .fcvtF d a f s_ => Sys2Proof.Machine.execFcvtF d a f s_ s
  | .fcvtI d a f => Sys2Proof.Machine.execFcvtI d a f s
  | .fcvtIRtz d a f => Sys2Proof.Machine.execFcvtIRtz d a f s
  | .fcvtIu d a f => Sys2Proof.Machine.execFcvtIu d a f s
  | .fcvtIuRtz d a f => Sys2Proof.Machine.execFcvtIuRtz d a f s
  | .fcvtFi d a f => Sys2Proof.Machine.execFcvtFi d a f s
  | .fcvtFiu d a f => Sys2Proof.Machine.execFcvtFiu d a f s
  | .beq a b o => Sys2Proof.Machine.execBeq a b o s
  | .bne a b o => Sys2Proof.Machine.execBne a b o s
  | .blt a b o => Sys2Proof.Machine.execBlt a b o s
  | .bge a b o => Sys2Proof.Machine.execBge a b o s
  | .bltu a b o => Sys2Proof.Machine.execBltu a b o s
  | .bgeu a b o => Sys2Proof.Machine.execBgeu a b o s
  | .jal d o => Sys2Proof.Machine.execJal d o s
  | .jalr d a i0 => Sys2Proof.Machine.execJalr d a i0 s
  | .sptest d a => Sys2Proof.Machine.execSptest d a s
  | .spcastChk d a w => Sys2Proof.Machine.execSpcastChk d a w s
  | .spcastMk d a w => Sys2Proof.Machine.execSpcastMk d a w s
  | .spcastOff d a w => Sys2Proof.Machine.execSpcastOff d a w s
  | .vrun d a => Sys2Proof.Machine.execVrun d a s
  | .rqpop d t r => Sys2Proof.Machine.execRqpop d t r s
  | .vsync d t r => Sys2Proof.Machine.execVsync d t r s
  | .vrel d => Sys2Proof.Machine.execVrel d s
  | .spawn d a => Sys2Proof.Machine.execSpawn d a s
  | .exit => Sys2Proof.Machine.execExit s
  | .onewSwarm d a => Sys2Proof.Machine.execOnewSwarm d a s
  | .onewLatch d a => Sys2Proof.Machine.execOnewLatch d a s
  | .onewChan d a => Sys2Proof.Machine.execOnewChan d a s
  | .ofree d a => Sys2Proof.Machine.execOfree d a s
  | .swjoin d a t r => Sys2Proof.Machine.execSwjoin d a t r s
  | .swleave d a => Sys2Proof.Machine.execSwleave d a s
  | .swbar d a t r => Sys2Proof.Machine.execSwbar d a t r s
  | .step d a t r => Sys2Proof.Machine.execStep d a t r s
  | .acq d a t r => Sys2Proof.Machine.execAcq d a t r s
  | .rel d a => Sys2Proof.Machine.execRel d a s
  | .mend d a => Sys2Proof.Machine.execMend d a s
  | .adopt d a => Sys2Proof.Machine.execAdopt d a s
  | .send d a t r => Sys2Proof.Machine.execSend d a t r s
  | .recv d a t r => Sys2Proof.Machine.execRecv d a t r s
  | .nap d t r => Sys2Proof.Machine.execNap d t r s
  | .eleaseCopy d a t r => Sys2Proof.Machine.execEleaseCopy d a t r s
  | .eleaseComp d a t r => Sys2Proof.Machine.execEleaseComp d a t r s
  | .eleaseColl d a t r => Sys2Proof.Machine.execEleaseColl d a t r s
  | .eleaseRenew d a t r => Sys2Proof.Machine.execEleaseRenew d a t r s
  | .efree d a => Sys2Proof.Machine.execEfree d a s
  | .ecopy d a t r => Sys2Proof.Machine.execEcopy d a t r s
  | .ecopyTfill d a t r => Sys2Proof.Machine.execEcopyTfill d a t r s
  | .ecomp d a t r => Sys2Proof.Machine.execEcomp d a t r s
  | .ecoll d a t r => Sys2Proof.Machine.execEcoll d a t r s
  | .estat d a => Sys2Proof.Machine.execEstat d a s
  | .ewait d a t r => Sys2Proof.Machine.execEwait d a t r s
  | .tstat d n => Sys2Proof.Machine.execTstat d n s
  | .twait d n t r => Sys2Proof.Machine.execTwait d n t r s
  | .tsetEmpty d n => Sys2Proof.Machine.execTsetEmpty d n s
  | .tsetReady d n => Sys2Proof.Machine.execTsetReady d n s
  | .tdrain d a t r => Sys2Proof.Machine.execTdrain d a t r s
  | .fence s_ => Sys2Proof.Machine.execFence s_ s
  | .fenceAcq s_ => Sys2Proof.Machine.execFenceAcq s_ s
  | .fenceRel s_ => Sys2Proof.Machine.execFenceRel s_ s
  | .cfgrd d i0 => Sys2Proof.Machine.execCfgrd d i0 s
  | .cfgwr a i0 => Sys2Proof.Machine.execCfgwr a i0 s
  | .trap c => Sys2Proof.Machine.execTrap c s
  | .tret => Sys2Proof.Machine.execTret s
  | .brk c => Sys2Proof.Machine.execBrk c s
  | .tmark a c => Sys2Proof.Machine.execTmark a c s
  | .cregNew d a => Sys2Proof.Machine.execCregNew d a s
  | .cregFree d a => Sys2Proof.Machine.execCregFree d a s
  | .cregFind d a => Sys2Proof.Machine.execCregFind d a s
  | .vcfg d n => Sys2Proof.Machine.execVcfg d n s
  | .vsetl c d a g y s_ => Sys2Proof.Machine.execVsetl c d a g y s_ s
  | .vsetlMax c d g y s_ => Sys2Proof.Machine.execVsetlMax c d g y s_ s
  | .vloop c l f n => Sys2Proof.Machine.execVloop c l f n s
  | .vloopR c l f n s_ => Sys2Proof.Machine.execVloopR c l f n s_ s
  | .vlend c l b => Sys2Proof.Machine.execVlend c l b s
  | .vexit c l m => Sys2Proof.Machine.execVexit c l m s
  | .vreply c r k => Sys2Proof.Machine.execVreply c r k s
  | .vend c => Sys2Proof.Machine.execVend c s
  | .sadd c d a b => Sys2Proof.Machine.execSadd c d a b s
  | .ssub c d a b => Sys2Proof.Machine.execSsub c d a b s
  | .sand c d a b => Sys2Proof.Machine.execSand c d a b s
  | .sor c d a b => Sys2Proof.Machine.execSor c d a b s
  | .sxor c d a b => Sys2Proof.Machine.execSxor c d a b s
  | .ssll c d a b => Sys2Proof.Machine.execSsll c d a b s
  | .ssrl c d a b => Sys2Proof.Machine.execSsrl c d a b s
  | .smul c d a b => Sys2Proof.Machine.execSmul c d a b s
  | .sminu c d a b => Sys2Proof.Machine.execSminu c d a b s
  | .smaxu c d a b => Sys2Proof.Machine.execSmaxu c d a b s
  | .saddi c d a i0 => Sys2Proof.Machine.execSaddi c d a i0 s
  | .sli c d i0 => Sys2Proof.Machine.execSli c d i0 s
  | .vcfgrd c d r => Sys2Proof.Machine.execVcfgrd c d r s
  | .vld c v b m h => Sys2Proof.Machine.execVld c v b m h s
  | .vldBo c v b o m h => Sys2Proof.Machine.execVldBo c v b o m h s
  | .vldS c v b s_ m h => Sys2Proof.Machine.execVldS c v b s_ m h s
  | .vldT c v b t m h => Sys2Proof.Machine.execVldT c v b t m h s
  | .vldFf c v b m h => Sys2Proof.Machine.execVldFf c v b m h s
  | .vldFfBo c v b o m h => Sys2Proof.Machine.execVldFfBo c v b o m h s
  | .vldx c v b i0 m w s_ => Sys2Proof.Machine.execVldx c v b i0 m w s_ s
  | .vldd c v b m => Sys2Proof.Machine.execVldd c v b m s
  | .vlddX c v b i0 m w => Sys2Proof.Machine.execVlddX c v b i0 m w s
  | .vst c v b m h => Sys2Proof.Machine.execVst c v b m h s
  | .vstS c v b s_ m h => Sys2Proof.Machine.execVstS c v b s_ m h s
  | .vstT c v b t m h => Sys2Proof.Machine.execVstT c v b t m h s
  | .vstApp c v b r m h => Sys2Proof.Machine.execVstApp c v b r m h s
  | .vstx c v b i0 m w s_ => Sys2Proof.Machine.execVstx c v b i0 m w s_ s
  | .vstd c v b f => Sys2Proof.Machine.execVstd c v b f s
  | .vbopAdd c v b i0 m p => Sys2Proof.Machine.execVbopAdd c v b i0 m p s
  | .vbopAnd c v b i0 m p => Sys2Proof.Machine.execVbopAnd c v b i0 m p s
  | .vbopOr c v b i0 m p => Sys2Proof.Machine.execVbopOr c v b i0 m p s
  | .vbopXor c v b i0 m p => Sys2Proof.Machine.execVbopXor c v b i0 m p s
  | .vbopSmin c v b i0 m p => Sys2Proof.Machine.execVbopSmin c v b i0 m p s
  | .vbopSmax c v b i0 m p => Sys2Proof.Machine.execVbopSmax c v b i0 m p s
  | .vbopFadd c v b i0 m p => Sys2Proof.Machine.execVbopFadd c v b i0 m p s
  | .vbopQadd c v b i0 m p => Sys2Proof.Machine.execVbopQadd c v b i0 m p s
  | .vaddVv c d a b m => Sys2Proof.Machine.execVaddVv c d a b m s
  | .vaddVi c d a i0 m => Sys2Proof.Machine.execVaddVi c d a i0 m s
  | .vaddVx c d a x m => Sys2Proof.Machine.execVaddVx c d a x m s
  | .vsubVv c d a b m => Sys2Proof.Machine.execVsubVv c d a b m s
  | .vsubVx c d a x m => Sys2Proof.Machine.execVsubVx c d a x m s
  | .vrsubVx c d a x m => Sys2Proof.Machine.execVrsubVx c d a x m s
  | .vrsubVi c d a i0 m => Sys2Proof.Machine.execVrsubVi c d a i0 m s
  | .vmulVv c d a b m => Sys2Proof.Machine.execVmulVv c d a b m s
  | .vmulVx c d a x m => Sys2Proof.Machine.execVmulVx c d a x m s
  | .vmulh c d a b m => Sys2Proof.Machine.execVmulh c d a b m s
  | .vmulhuVv c d a b m => Sys2Proof.Machine.execVmulhuVv c d a b m s
  | .vmulhuVx c d a x m => Sys2Proof.Machine.execVmulhuVx c d a x m s
  | .vmulhsu c d a b m => Sys2Proof.Machine.execVmulhsu c d a b m s
  | .vsadd c d a b m => Sys2Proof.Machine.execVsadd c d a b m s
  | .vsaddu c d a b m => Sys2Proof.Machine.execVsaddu c d a b m s
  | .vssub c d a b m => Sys2Proof.Machine.execVssub c d a b m s
  | .vandVv c d a b m => Sys2Proof.Machine.execVandVv c d a b m s
  | .vandVx c d a x m => Sys2Proof.Machine.execVandVx c d a x m s
  | .vorVv c d a b m => Sys2Proof.Machine.execVorVv c d a b m s
  | .vorVx c d a x m => Sys2Proof.Machine.execVorVx c d a x m s
  | .vxorVv c d a b m => Sys2Proof.Machine.execVxorVv c d a b m s
  | .vxorVi c d a i0 m => Sys2Proof.Machine.execVxorVi c d a i0 m s
  | .vxorVx c d a x m => Sys2Proof.Machine.execVxorVx c d a x m s
  | .vandn c d a b m => Sys2Proof.Machine.execVandn c d a b m s
  | .vmergeVv c d a b m => Sys2Proof.Machine.execVmergeVv c d a b m s
  | .vmergeVx c d a x m => Sys2Proof.Machine.execVmergeVx c d a x m s
  | .vmergeVi c d a i0 m => Sys2Proof.Machine.execVmergeVi c d a i0 m s
  | .vmin c d a b m => Sys2Proof.Machine.execVmin c d a b m s
  | .vminu c d a b m => Sys2Proof.Machine.execVminu c d a b m s
  | .vmax c d a b m => Sys2Proof.Machine.execVmax c d a b m s
  | .vmaxu c d a b m => Sys2Proof.Machine.execVmaxu c d a b m s
  | .vssubu c d a b m => Sys2Proof.Machine.execVssubu c d a b m s
  | .vsllVv c d a b m => Sys2Proof.Machine.execVsllVv c d a b m s
  | .vsllVi c d a i0 m => Sys2Proof.Machine.execVsllVi c d a i0 m s
  | .vsrlVv c d a b m => Sys2Proof.Machine.execVsrlVv c d a b m s
  | .vsrlVi c d a i0 m => Sys2Proof.Machine.execVsrlVi c d a i0 m s
  | .vsraVv c d a b m => Sys2Proof.Machine.execVsraVv c d a b m s
  | .vsraVi c d a i0 m => Sys2Proof.Machine.execVsraVi c d a i0 m s
  | .vmseqVv c d a b m => Sys2Proof.Machine.execVmseqVv c d a b m s
  | .vmseqVx c d a x m => Sys2Proof.Machine.execVmseqVx c d a x m s
  | .vmsne c d a b m => Sys2Proof.Machine.execVmsne c d a b m s
  | .vmslt c d a b m => Sys2Proof.Machine.execVmslt c d a b m s
  | .vmsltuVv c d a b m => Sys2Proof.Machine.execVmsltuVv c d a b m s
  | .vmsle c d a b m => Sys2Proof.Machine.execVmsle c d a b m s
  | .vmsleu c d a b m => Sys2Proof.Machine.execVmsleu c d a b m s
  | .vmsgt c d a x m => Sys2Proof.Machine.execVmsgt c d a x m s
  | .vmsgtu c d a x m => Sys2Proof.Machine.execVmsgtu c d a x m s
  | .vmsltuVx c d a x m => Sys2Proof.Machine.execVmsltuVx c d a x m s
  | .vbslVx c d a x => Sys2Proof.Machine.execVbslVx c d a x s
  | .vbslVi c d a i0 => Sys2Proof.Machine.execVbslVi c d a i0 s
  | .vbsrVx c d a x => Sys2Proof.Machine.execVbsrVx c d a x s
  | .vbsrVi c d a i0 => Sys2Proof.Machine.execVbsrVi c d a i0 s
  | .vfsl c d a x => Sys2Proof.Machine.execVfsl c d a x s
  | .vfsr c d a x => Sys2Proof.Machine.execVfsr c d a x s
  | .vpopc c d a m => Sys2Proof.Machine.execVpopc c d a m s
  | .vclz c d a m => Sys2Proof.Machine.execVclz c d a m s
  | .vctz c d a m => Sys2Proof.Machine.execVctz c d a m s
  | .vbrev c d a m => Sys2Proof.Machine.execVbrev c d a m s
  | .vxchVx c d a x m => Sys2Proof.Machine.execVxchVx c d a x m s
  | .vxchVi c d a i0 m => Sys2Proof.Machine.execVxchVi c d a i0 m s
  | .vslideupVx c d a x m => Sys2Proof.Machine.execVslideupVx c d a x m s
  | .vslideupVi c d a i0 m => Sys2Proof.Machine.execVslideupVi c d a i0 m s
  | .vslidednVx c d a x m => Sys2Proof.Machine.execVslidednVx c d a x m s
  | .vslidednVi c d a i0 m => Sys2Proof.Machine.execVslidednVi c d a i0 m s
  | .vslide1up c d a x m => Sys2Proof.Machine.execVslide1up c d a x m s
  | .vslide1dn c d a x m => Sys2Proof.Machine.execVslide1dn c d a x m s
  | .vpullVv c d a b m => Sys2Proof.Machine.execVpullVv c d a b m s
  | .vpullVx c d a x m => Sys2Proof.Machine.execVpullVx c d a x m s
  | .vpush c d a b m => Sys2Proof.Machine.execVpush c d a b m s
  | .vcompress c d a m => Sys2Proof.Machine.execVcompress c d a m s
  | .vextr c d a x => Sys2Proof.Machine.execVextr c d a x s
  | .vredsum c d a b m => Sys2Proof.Machine.execVredsum c d a b m s
  | .vredsums c d a b m => Sys2Proof.Machine.execVredsums c d a b m s
  | .vredmax c d a b m => Sys2Proof.Machine.execVredmax c d a b m s
  | .vredmaxu c d a b m => Sys2Proof.Machine.execVredmaxu c d a b m s
  | .vredmin c d a b m => Sys2Proof.Machine.execVredmin c d a b m s
  | .vredminu c d a b m => Sys2Proof.Machine.execVredminu c d a b m s
  | .vredand c d a b m => Sys2Proof.Machine.execVredand c d a b m s
  | .vredor c d a b m => Sys2Proof.Machine.execVredor c d a b m s
  | .vredxor c d a b m => Sys2Proof.Machine.execVredxor c d a b m s
  | .vscansum c d a b m => Sys2Proof.Machine.execVscansum c d a b m s
  | .vscanmax c d a b m => Sys2Proof.Machine.execVscanmax c d a b m s
  | .vscanmin c d a b m => Sys2Proof.Machine.execVscanmin c d a b m s
  | .vxscansum c d a b m => Sys2Proof.Machine.execVxscansum c d a b m s
  | .vscanmaxu c d a b m => Sys2Proof.Machine.execVscanmaxu c d a b m s
  | .vscanminu c d a b m => Sys2Proof.Machine.execVscanminu c d a b m s
  | .mkand c d a b m => Sys2Proof.Machine.execMkand c d a b m s
  | .mkor c d a b m => Sys2Proof.Machine.execMkor c d a b m s
  | .mkxor c d a b m => Sys2Proof.Machine.execMkxor c d a b m s
  | .mkandn c d a b m => Sys2Proof.Machine.execMkandn c d a b m s
  | .mknot c d a m => Sys2Proof.Machine.execMknot c d a m s
  | .mkfill c d m => Sys2Proof.Machine.execMkfill c d m s
  | .mkspreadI c d a m => Sys2Proof.Machine.execMkspreadI c d a m s
  | .mkspreadX c d a m => Sys2Proof.Machine.execMkspreadX c d a m s
  | .mkparity c d a m => Sys2Proof.Machine.execMkparity c d a m s
  | .mkfirst c d a m => Sys2Proof.Machine.execMkfirst c d a m s
  | .mkcount c d a m => Sys2Proof.Machine.execMkcount c d a m s
  | .mkfind c d a m => Sys2Proof.Machine.execMkfind c d a m s
  | .mkfindL c d a m => Sys2Proof.Machine.execMkfindL c d a m s
  | .vrank c d a m => Sys2Proof.Machine.execVrank c d a m s
  | .vfaddVv c d a b m => Sys2Proof.Machine.execVfaddVv c d a b m s
  | .vfaddVx c d a x m => Sys2Proof.Machine.execVfaddVx c d a x m s
  | .vfsubVv c d a b m => Sys2Proof.Machine.execVfsubVv c d a b m s
  | .vfsubVx c d a x m => Sys2Proof.Machine.execVfsubVx c d a x m s
  | .vfrsub c d a x m => Sys2Proof.Machine.execVfrsub c d a x m s
  | .vfmulVv c d a b m => Sys2Proof.Machine.execVfmulVv c d a b m s
  | .vfmulVx c d a x m => Sys2Proof.Machine.execVfmulVx c d a x m s
  | .vfdivVv c d a b m => Sys2Proof.Machine.execVfdivVv c d a b m s
  | .vfdivVx c d a x m => Sys2Proof.Machine.execVfdivVx c d a x m s
  | .vfrdiv c d a x m => Sys2Proof.Machine.execVfrdiv c d a x m s
  | .vfsqrt c d a m => Sys2Proof.Machine.execVfsqrt c d a m s
  | .vfmin c d a b m => Sys2Proof.Machine.execVfmin c d a b m s
  | .vfmax c d a b m => Sys2Proof.Machine.execVfmax c d a b m s
  | .vfsgnj c d a b m => Sys2Proof.Machine.execVfsgnj c d a b m s
  | .vfsgnjn c d a b m => Sys2Proof.Machine.execVfsgnjn c d a b m s
  | .vfsgnjx c d a b m => Sys2Proof.Machine.execVfsgnjx c d a b m s
  | .vfmacPpVv c d a b m => Sys2Proof.Machine.execVfmacPpVv c d a b m s
  | .vfmacPpVx c d a x m => Sys2Proof.Machine.execVfmacPpVx c d a x m s
  | .vfmacNn c d a b m => Sys2Proof.Machine.execVfmacNn c d a b m s
  | .vfmacPn c d a b m => Sys2Proof.Machine.execVfmacPn c d a b m s
  | .vfmacNp c d a b m => Sys2Proof.Machine.execVfmacNp c d a b m s
  | .vfmad c d a b m => Sys2Proof.Machine.execVfmad c d a b m s
  | .vfcmpEqVv c d a b m => Sys2Proof.Machine.execVfcmpEqVv c d a b m s
  | .vfcmpEqVx c d a x m => Sys2Proof.Machine.execVfcmpEqVx c d a x m s
  | .vfcmpLtVv c d a b m => Sys2Proof.Machine.execVfcmpLtVv c d a b m s
  | .vfcmpLe c d a b m => Sys2Proof.Machine.execVfcmpLe c d a b m s
  | .vfcmpGt c d a x m => Sys2Proof.Machine.execVfcmpGt c d a x m s
  | .vfcmpGe c d a x m => Sys2Proof.Machine.execVfcmpGe c d a x m s
  | .vfcmpLtVx c d a x m => Sys2Proof.Machine.execVfcmpLtVx c d a x m s
  | .vfcmpNe c d a b m => Sys2Proof.Machine.execVfcmpNe c d a b m s
  | .vfkind c d a m => Sys2Proof.Machine.execVfkind c d a m s
  | .vfcmpUn c d a b m => Sys2Proof.Machine.execVfcmpUn c d a b m s
  | .vfcvt c d a y z m => Sys2Proof.Machine.execVfcvt c d a y z m s
  | .vfcvtU c d a y z m => Sys2Proof.Machine.execVfcvtU c d a y z m s
  | .vfcvtRtz c d a y z m => Sys2Proof.Machine.execVfcvtRtz c d a y z m s
  | .vfcvtURtz c d a y z m => Sys2Proof.Machine.execVfcvtURtz c d a y z m s
  | .vdrescale c d a x m => Sys2Proof.Machine.execVdrescale c d a x m s
  | .vfsumO c d a b m => Sys2Proof.Machine.execVfsumO c d a b m s
  | .vfsumT c d a b m => Sys2Proof.Machine.execVfsumT c d a b m s
  | .vfredmax c d a b m => Sys2Proof.Machine.execVfredmax c d a b m s
  | .vfredmin c d a b m => Sys2Proof.Machine.execVfredmin c d a b m s
  | .vrand c d m => Sys2Proof.Machine.execVrand c d m s
  | .vqaddVv c d a b m => Sys2Proof.Machine.execVqaddVv c d a b m s
  | .vqaddVx c d a x m => Sys2Proof.Machine.execVqaddVx c d a x m s
  | .vqsubVv c d a b m => Sys2Proof.Machine.execVqsubVv c d a b m s
  | .vqsubVx c d a x m => Sys2Proof.Machine.execVqsubVx c d a x m s
  | .vqrsub c d a x m => Sys2Proof.Machine.execVqrsub c d a x m s
  | .vqmulVv c d a b m => Sys2Proof.Machine.execVqmulVv c d a b m s
  | .vqmulVx c d a x m => Sys2Proof.Machine.execVqmulVx c d a x m s
  | .vqdivVv c d a b m => Sys2Proof.Machine.execVqdivVv c d a b m s
  | .vqdivVx c d a x m => Sys2Proof.Machine.execVqdivVx c d a x m s
  | .vqrdiv c d a x m => Sys2Proof.Machine.execVqrdiv c d a x m s
  | .vqneg c d a m => Sys2Proof.Machine.execVqneg c d a m s
  | .vqinv c d a m => Sys2Proof.Machine.execVqinv c d a m s
  | .vqmaccVv c d a b m => Sys2Proof.Machine.execVqmaccVv c d a b m s
  | .vqmaccVx c d a x m => Sys2Proof.Machine.execVqmaccVx c d a x m s
  | .vqeqVv c d a b m => Sys2Proof.Machine.execVqeqVv c d a b m s
  | .vqeqVx c d a x m => Sys2Proof.Machine.execVqeqVx c d a x m s
  | .vqencVv c d a b m => Sys2Proof.Machine.execVqencVv c d a b m s
  | .vqencVx c d a x m => Sys2Proof.Machine.execVqencVx c d a x m s
  | .vqencVi c d a i0 m => Sys2Proof.Machine.execVqencVi c d a i0 m s
  | .vqdec c d a m => Sys2Proof.Machine.execVqdec c d a m s
  | .vqdigVx c d a x m => Sys2Proof.Machine.execVqdigVx c d a x m s
  | .vqdigVi c d a i0 m => Sys2Proof.Machine.execVqdigVi c d a i0 m s
  | .vqval c d a m => Sys2Proof.Machine.execVqval c d a m s
  | .mmrow c d a s_ l o f => Sys2Proof.Machine.execMmrow c d a s_ l o f s
  | .mwld c t s_ f => Sys2Proof.Machine.execMwld c t s_ f s
  | .mwclr c s_ => Sys2Proof.Machine.execMwclr c s_ s
  | .vpclr c d => Sys2Proof.Machine.execVpclr c d s
  | .vpmclr c => Sys2Proof.Machine.execVpmclr c s
  | .vpmask c d a => Sys2Proof.Machine.execVpmask c d a s
  | .vid c d => Sys2Proof.Machine.execVid c d s
  | .vmvR c d a n => Sys2Proof.Machine.execVmvR c d a n s
  | .vstBo c v b o m h => Sys2Proof.Machine.execVstBo c v b o m h s
  | .badWord w unc => Sys2Proof.Machine.execBadWord w unc s
  | .fetchFault => Sys2Proof.Machine.execFetchFault s
  | .hartKill hid => Sys2Proof.Machine.execHartKill hid s
  | .chipIncarnationAnnouncement chip inc => Sys2Proof.Machine.execChipIncarnationAnnouncement chip inc s
  | .fabricFrameDrop fr => Sys2Proof.Machine.execFabricFrameDrop fr s
  | .tenbootComplete tag => Sys2Proof.Machine.execTenbootComplete tag s
  | .unbindingComplete core slot => Sys2Proof.Machine.execUnbindingComplete core slot s

end Sys2Proof.Machine
end

