-- ==== Sys2Proof/Machine/Moves.lean ====
section
/-! DEFINITION. The moves of the machine (entry 1): one move of a side of a hart, what its retirement counts and records, the events
that are due when time would pass, the work that units do on their own, and a tick of time. -/

namespace Sys2Proof.Machine

/-! One move of the forager -/

/-- The forager of the hart in hand can move: bound, in no explicit wait, and not halted but for one step, or for an instruction in
hand when the vector side or a trigger halted the hart (R276, R440, R445). -/
def Hart.foragerRuns (h : Hart) : Bool :=
  h.live && h.slot.isSome && !h.waiting &&
    (match h.halt with
     | none => true
     | some x => x.steps != 0 && !x.vsd || ((x.vsd || x.bp == 4) && h.iw.isSome))

/-- The next word fetched and run: a failing fetch traps or waits, a word that fails a check of R41 traps, and any other runs as the
instruction it decodes to. -/
noncomputable def State.foragerWord (s : State) : Out :=
  match s.fetch s.h.actor s.h.pc with
  | (s1, .trap c v) => .next (s1.trap c v)
  | (s1, .wait p) => .next (s1.stall p)
  | (s1, .word w) =>
    match wordFate false w, decode w with
    | none, some i => exec i s1
    | _, _ => exec (.badWord w false) s1

/-- The state with nothing done yet in this move. -/
def State.idle (s : State) : State := { s with did := .nothing }

/-- The instruction in hand, whose effect has begun, goes on waiting for its party (R108, R136, R139, R311, R342, R354). -/
def State.begunHeld (s : State) : Bool :=
  s.begunWaits s.h || (s.h.begun.any (fun b => b.what matches .command ..) && s.partyLate (s.h.iw.map (fun w => w.party)))

/-- The passes of the breakpoints at the forager's word are used up, if it ran (R440). -/
def State.spent (t : State) (pc : Word) : State := if t.did == .nothing then t else t.setH (Hart.spent pc)

/-- A move of the forager of the hart in hand: the end of an instruction that has begun its effect, a breakpoint, a pending asynchronous
trap, then the word (R402, R405, R439). -/
noncomputable def State.foragerMove (s : State) : Out :=
  if !s.h.foragerRuns then .next s
  else if s.h.begun.isSome then
    .next (if s.begunHeld then s else s.completeBegun.spent s.h.pc)
  else
    match s.foragerBreak with
    | (s1, true) => .next s1
    | (s1, false) =>
      match (if s1.h.iw.isNone then s1.boundary else none) with
      | some s2 => .next s2
      | none =>
        match s1.foragerWord with
        | .next t => .next (t.spent s.h.pc)
        | r => r

/-! One move of the vector side -/

/-- A halt lets the vector side go on: it did not hit and a convoy is in hand, or it hit and takes a step (R440). -/
def Hart.vectorPasses (h : Hart) : Bool :=
  match h.halt with
  | none => true
  | some x => if x.vsd then x.steps != 0 else !h.conv.isEmpty

/-- The breakpoints of KIND 2 on a word outside majors 0x22-0x28 (R439). -/
def State.wordBreak (s : State) : State × Bool :=
  if isMemory s.h.vword then (s, false) else s.meet ((s.breakpoints 2 s.h.vaddr).map (fun n => (n, s.h.vaddr)))

/-- The word at the head of the convoy runs. -/
noncomputable def State.vectorWord (s : State) : Out :=
  match s.wordBreak with
  | (s1, true) => .next s1
  | (s1, false) =>
    match decode s1.h.vword with
    | some i => exec i s1
    | none => .next s1

/-- The active elements that a word performed in one move: from the cut on, up to VL when the word completed, else to the new cut. -/
def elemsDone (h k : Hart) (whole : Bool) : Nat :=
  match h.conv, elemMask h.vword with
  | _ :: _, some m =>
    ((List.range h.vx.vl).filter (fun e => h.active m e && h.cut ≤ e && (if whole then e < k.vx.vl else e < k.cut))).length
  | _, _ => 0

/-- The multiply-accumulates of a word that completed (R268). -/
def macsDone (h : Hart) (whole : Bool) : Nat :=
  match h.conv, opOf h.vword with
  | _ :: _, some .mmrow => if whole then (aFmt (h.vword.extractLsb' 0 4).toNat).k * (aFmt (h.vword.extractLsb' 0 4).toNat).n else 0
  | _, _ => 0

/-- The elements and multiply-accumulates of a move of the vector side are counted (R415, counters 3 and 4). -/
def State.countWork (s t : State) : State :=
  let whole := t.did == .vector
  if t.h.hid == s.h.hid then (t.count s.h.tid 3 (elemsDone s.h t.h whole)).count s.h.tid 4 (macsDone s.h whole) else t

/-- A move of the vector side of the hart in hand: a block starts, a convoy issues, or the next word of a convoy runs. -/
noncomputable def State.vectorMove (s : State) : Out :=
  if !(s.h.vectorRuns && s.h.vectorPasses) then .next s
  else if s.h.run.isNone then (if s.h.queue.isEmpty then .next s else exec .blockStart s)
  else if s.h.conv.isEmpty then exec .convoyIssue s
  else
    match s.vectorWord with
    | .next t => .next (s.countWork t)
    | r => r

/-! What a move counts and records -/

/-- The main-clock cycles between two ticks (R17; the clock in MHz, a tick 1 ns). -/
def State.cyclesIn (s : State) (t u : Nat) : Nat := s.hub.clock * u / 1000 - s.hub.clock * t / 1000

/-- The oldest entry of the queue that has not started and is not sealed (R403). -/
def Hart.unsealed (h : Hart) : Option QEntry := h.queue.find? (fun e => !e.sld)

/-- A recorded instruction retires (R403): it takes a slot from the VRUN of the oldest unsealed entry on; a 65th seals the queue. -/
def Hart.recordSlot (h : Hart) (x : HistSlot) : Hart :=
  match h.unsealed with
  | none => { h with hist := [] }
  | some e =>
    let l := (slotsTo e.seq (x :: h.hist.reverse)).reverse
    if 64 < l.length then h.sealAll else { h with hist := l }

/-- A halted side has taken its step (R440). -/
def Hart.stepped (vsd : Bool) (h : Hart) : Hart :=
  match h.halt with
  | some x => if x.vsd == vsd && h.halt.isSome then { h with halt := some { x with steps := 0 } } else h
  | none => h

/-- What a move did is counted and recorded, for the hart in hand after it (R390, R403, R415): the one that moved, or the one that an event made
trap. A trap seals the queue, so that a pre-emption after it leaves the hart at its handler (R406; entry 68). -/
def State.account (s : State) : State :=
  let tid := s.h.tid
  match s.did with
  | .nothing => s.setH (fun h => if h.stop.isSome then h.stepped true else h)
  | .recorded reg old vrun =>
    (s.count tid 1 1).setH (fun h => ({ h with wd := 0 }.recordSlot { reg := reg, old := old, vrun := vrun }).stepped false)
  | .retired => (s.count tid 1 1).setH (fun h => { h with wd := 0 }.sealAll.stepped false)
  | .waits => s.setH (fun h => h.sealAll.stepped false)
  | .trapped => s.setH (fun h => h.sealAll.stepped false)
  | .vector => (s.count tid 2 1).setH (fun h => if h.conv.isEmpty then { h with wd := 0 }.stepped true else { h with wd := 0 })

/-! Stalls (R416, R444) -/

/-- What an explicit wait for an engine, a tile, a slot or a queue waits for (R416); none for the other kinds. -/
def WaitKind.stallParty (k : WaitKind) (h : Hart) : Option Word :=
  match k with
  | .rqpop => some h.ownVector
  | .twait n => some (partyWord 2 n)
  | .ewait e _ => some (partyWord 0 e)
  | .slot e => some (partyWord 0 e)
  | .elease _ _ => some (partyWord 1 12)
  | _ => none

/-- The stall that a side of a bound hart is in (R416): the party, the tick at which it began and the element. -/
def Hart.stallOf (h : Hart) (side : Side) : Option (Word × Nat × Nat) :=
  let implicit : IWait → Word × Nat × Nat := fun w => (w.party, w.since, w.elem)
  if h.slot.isNone then none
  else
    match side with
    | .vector => h.viw.map implicit
    | .forager =>
      (h.iw.map implicit).or
        ((h.wait.filter (fun w => w.ans.isNone)).bind (fun w => (w.kind.stallParty h).map (fun p => (p, w.issued, 0))))

/-- The engine that serves the wait for a party: the party, or the engine that fills or drains the tile (R334, R149). -/
def State.servingEngine (s : State) (h : Hart) (party : Word) : Option Nat :=
  let id := bits party.toNat 0 16
  if bits party.toNat 16 16 ≠ 0xFFFF then none
  else if bits party.toNat 60 4 = 0 then some id
  else if bits party.toNat 60 4 = 2 then some (s.tile h.core id).eng
  else none

/-- The tag that the move of a plough is charged to: the page's tenant, or 0 in hardware mode (R416). -/
def State.ploughTag (s : State) (f : Nat) : Nat := if bit s.hub.split 2 then (s.plough f).tag else 0

/-- The party of a hart's wait is the field die of a plough that owns lines for another tag (R67, R416). -/
def State.foreignPlough (s : State) (h : Hart) (party : Word) : Bool :=
  let id := bits party.toNat 0 16
  bits party.toNat 16 16 == 0xFFFF && bits party.toNat 60 4 == 1 && decide (8 ≤ id) && decide (id < 12) && (s.plough (id - 8)).own &&
    s.ploughTag (id - 8) != h.tid

/-- A lease request of a hart stands behind one of another tenant for an engine that could serve both. -/
def behindOther (h : Hart) : List LeaseReq → Bool
  | [] => false
  | q :: r =>
    if q.hid = h.hid then false
    else
      (q.tid ≠ h.tid && r.any (fun x => x.hid == h.hid &&
        (List.range 96).any (fun e => canServe e q.kind q.req && canServe e x.kind x.req))) || behindOther h r

/-- What a side of a hart waits for is behind a request of another tag (R416): the engine serves another tenant's command, a plough moves a page for
another tag, or an earlier lease request is another tenant's. -/
def State.foreignStall (s : State) (h : Hart) (side : Side) : Bool :=
  match h.stallOf side with
  | none => false
  | some (p, _, _) =>
    (s.servingEngine h p).any (fun e => (s.engine e).queue.head?.any (fun c => c.tid ≠ h.tid)) || s.foreignPlough h p ||
      (side == .forager && h.iw.isNone && behindOther h s.leaseQ)

/-- A tick is throttled for a hart: its lanes, its forager or one of its requests are held, or its core's clock is stopped (R390; entry 57). -/
def State.throttled (s : State) (h : Hart) : Bool := h.thr != 0 || (s.core h.core).clkStop != 0

/-- A side of a bound hart stalls (R416); a throttled cycle is no stall. -/
def State.stalls (s : State) (h : Hart) (side : Side) : Bool := !s.throttled h && (h.stallOf side).isSome

/-- The stall cycles of a hart in a tick, counted once (R415, counters 9 and 10): in XST when they are behind a request of another tag. -/
def State.countStall (t : State) (c : Nat) (h : Hart) : State :=
  if t.stalls h .forager || t.stalls h .vector then
    t.count h.tid (if t.foreignStall h .forager || t.foreignStall h .vector then 10 else 9) c
  else t

/-- The stall cycles of a side so far, and the side with none (R444). -/
def Hart.stallCycles (h : Hart) : Side → Nat
  | .forager => h.stallF
  | .vector => h.stallV
def Hart.stallOver (side : Side) (h : Hart) : Hart :=
  match side with
  | .forager => { h with stallF := 0 }
  | .vector => { h with stallV := 0 }

/-- The word that stalls (R444): the forager's, the vector word in hand, or the word that holds up the issue of its convoy. -/
def State.consumer (s : State) (h : Hart) : Side → Word
  | .forager => h.pc
  | .vector => if h.conv.isEmpty then (s.hold h.hid).issueWaits else h.vaddr

/-- The TYPE 3 record of a stall that ended after `c` cycles, if it lasted 2^STL of them (R444): PC names the consumer, CODE and PK the producer,
which is another tenant's traffic where the stall was last behind it (entry 36). -/
def State.stallRecord (t s : State) (h : Hart) (side : Side) (party : Word) (c : Nat) : State :=
  let other := s.foreignStall h side
  let kind := if other then 7 else bits party.toNat 60 4
  if 2 ^ bits (t.trctl h.tid) 8 5 ≤ c then
    t.traceHart h 3 (if other then 0 else bits party.toNat 0 16) (s.consumer h side) (word (kind * 2 ^ 60 + min c (2 ^ 32 - 1)))
  else t

/-- The stall of one side of a hart, if a move from `s` to `t` ended it (R444). -/
def State.endStall (s : State) (h : Hart) (t : State) (side : Side) : State :=
  match h.stallOf side with
  | none => t
  | some w =>
    if (t.hart h.hid).bind (fun k => k.stallOf side) = some w then t
    else (t.stallRecord s h side w.1 (((t.hart h.hid).getD h).stallCycles side)).updHart h.hid (Hart.stallOver side)

/-- The stalls that a move from `s` to `t` ended. -/
def State.endStalls (s t : State) : State := s.harts.foldl (fun u h => (s.endStall h u .forager) |> fun v => s.endStall h v .vector) t

/-- The commands that a move lets take a slot of their engine (R138). -/
def State.serveSlots (s : State) : State :=
  (s.engines.filter (fun e => !e.2.pend.isEmpty)).foldl (fun t e => t.fillSlots e.1 64) s

/-- What a move from `s` to `t` lets go on: the stalls that it ended are recorded, and requests that were held up are performed. -/
def State.goOn (s t : State) : State := ((s.endStalls t).serveSlots.serveHeld).serveChans

/-- The state after a move: what it did is counted, and what it lets go on does so. -/
def State.settle (s t : State) : State := s.goOn t.account

/-- A move followed by its accounts. -/
def State.run (s : State) (f : State → Out) : Out :=
  match f s.idle with
  | .next t => .next (s.settle t)
  | r => r

/-! Events that are due -/

/-- The event at which an explicit wait ends without its answer. -/
def Wait.event (hid : Nat) (w : Wait) : Option Instr :=
  match w.kind with
  | .rqpop => some (.rqpopExpiry hid)
  | .vsync _ => some (.vsyncExpiry hid)
  | .nap => some (.napExpiry hid)
  | .twait _ => some (.twaitExpiry hid)
  | .ewait _ _ => some (.ewaitExpiry hid)
  | .slot _ => some (.engineSlotExpiry hid)
  | .pageFault => some (.pfAnswerTimeout hid)
  | _ => none

/-- What is due at a hart: the end of its explicit wait, a request or an answer that is overdue, IWL, or its watchdog. -/
def State.dueHart (s : State) (h : Hart) : Option Instr :=
  match (h.wait.bind (fun w => if s.waitDue h.hid w then w.event h.hid else none)) with
  | some i => some i
  | none =>
    if (s.overdue h).isSome then some (.waitAnswerTimeout h.hid)
    else if (s.implicitDue h .forager).isSome then some (.iwlExpiry h.hid .forager)
    else if (s.implicitDue h .vector).isSome then some (.iwlExpiry h.hid .vector)
    else if s.dogDue h && h.dogStops then some (.watchdogExpiry h.hid)
    else none

/-- What is due at an object: an episode, a pending join, or a queued request. -/
def State.dueObject (s : State) (e : Nat × Option Obj) : Option Instr :=
  match e.2 with
  | none => none
  | some o =>
    match o.body with
    | .swarm b =>
      if s.episodeDue e.1 then some (.swarmDeadlineClose e.1)
      else (b.joins.find? (fun j => decide (j.dead ≤ s.gtb))).map (fun j => .swjoinExpiry j.hid)
    | .latch b => (b.queue.find? (fun q => decide (q.2 ≤ s.gtb))).map (fun q => .acqExpiry q.1)
    | .chan b =>
      match (b.waits true).find? (fun r => decide (r.dead ≤ s.gtb)) with
      | some r => some (.sendExpiry r.hid)
      | none => ((b.waits false).find? (fun r => decide (r.dead ≤ s.gtb))).map (fun r => .recvExpiry r.hid)

/-- A collective is due: complete, past its deadline, or without its swarm (R145). -/
def State.dueColl (s : State) (b : Coll) : Option Instr :=
  match s.swarm b.rcd with
  | some (_, w) => if b.complete w || decide (b.dead ≤ s.gtb) then some (.collectiveClose b.rcd) else none
  | none => some (.collectiveClose b.rcd)

/-- What is due at an engine: the end of its lease (R132), or a grant (R131). -/
def State.dueEngine (s : State) (e : Nat) : Option Instr :=
  if (s.engine e).leased && decide ((s.engine e).endAt ≤ s.gtb) then some (.leaseExpiry e)
  else if (s.nextLease e).isSome then some (.leaseGrant e) else none

/-- A quantum that has ended (R384). -/
def State.dueBind (s : State) (c : Nat × Core) : Option Instr :=
  (c.2.binds.find? (fun b => b.2.quantumDue s.gtb)).map (fun b => .quantumEnd c.1 b.1)

/-- The next arrival of a replay (R446). -/
def State.dueReplay (s : State) (t : Nat × Tenant) : Option Instr :=
  if !t.2.replay then none
  else
    match s.nextArrival t.1 with
    | some a => if s.gtb < t.2.logAt + a.offset then none else some (.replayDelivery t.1)
    | none => some (.replayDelivery t.1)

/-- A plough's epoch ends (R66). -/
def State.dueEpoch (s : State) (f : Nat) : Option Instr :=
  if !bit s.hub.split 2 && decide ((s.plough f).epochAt + 1000 * (s.plough f).epoch ≤ s.gtb) then some (.ploughEpochEnd f) else none

/-- Apiary's next decision (R386): a removal, then a bind. -/
def State.dueApiary (s : State) : Option Instr :=
  match s.apiaryRemove with
  | some (c, i) => some (.apiaryWaitingRemoval c i)
  | none => s.apiaryBind.map (fun x => .bindRecordSubmit x.1 x.2.1 x.2.2 false)

/-- The tick at which the next scrub pass is due (R74). -/
def State.scrubDue (s : State) : Nat := s.hub.scrubAt + s.hub.scrubp * 3600000000000

/-- A unit of the near tier or of the Comb that holds an error, as the scrub's event names it: a scrub changes no other (R74, R99). -/
def scrubOf (e : Nat × Nat) : Option Instr :=
  if e.2 = 0 then none
  else if e.1 < 2 ^ 40 then some (.patrolScrub (e.1 / 32)) else if isComb e.1 then some (.combPatrolScrub (e.1 - 2 ^ 52)) else none

/-- The next scrub of a pass that is due. -/
def State.dueScrub (s : State) : Option Instr := if s.scrubDue ≤ s.gtb then s.ecc.findSome? scrubOf else none

/-- An event of the tick that comes before its deadline tests: a logged arrival (R337), the end of a lease or a grant (R331). -/
def State.dueFirst (s : State) : Option Instr :=
  (s.tenants.findSome? s.dueReplay).or
    ((s.engines.map Prod.fst ++ (if s.leaseQ.isEmpty then [] else List.range 96)).findSome? s.dueEngine)

/-- A deadline of a request that waits at the hub, at an object or at a collective. -/
def State.dueRequest (s : State) : Option Instr :=
  (((s.leaseQ.find? (fun q => decide (q.dead ≤ s.gtb))).map (fun q => Instr.eleaseExpiry q.hid)).or (s.objs.findSome? s.dueObject)).or
    (s.colls.findSome? s.dueColl)

/-- What else is due: the end of a quantum, a job's record, a scrub, an epoch, or Apiary's next decision. -/
def State.dueLast (s : State) : Option Instr :=
  ((((s.cores.findSome? s.dueBind).or ((s.jobs.find? Job.due).map (fun j => Instr.jobRecordPost j.num))).or s.dueScrub).or
    ((List.range 4).findSome? s.dueEpoch)).or s.dueApiary

/-- The event that is due now, before time passes: the events of the tick, then the deadline tests (R331, R337), and waits end before quanta
do (R384). -/
def State.dueEvent (s : State) : Option Instr := ((s.dueFirst.or (s.harts.findSome? s.dueHart)).or s.dueRequest).or s.dueLast

/-! Work of the units -/

/-- An engine's next work: its running command can end, or the oldest one starts (R142, R143). -/
def State.engineWork (s : State) (e : Nat × Engine) : Option Instr :=
  match e.2.queue with
  | [] => none
  | c :: _ =>
    if !c.running then (if s.unconfirmed e.1 c then none else some (.engineCommandStart e.1))
    else if c.kind == 4 && c.res.isNone then none else some (.engineCommandEnd e.1)

/-- A tenant's register command, or change of state, that can complete. -/
noncomputable def State.tenantWork (s : State) (t : Nat × Tenant) : Option Instr :=
  if t.2.tinvBusy && !s.tinvOpen t.1 then some (.tinvComplete t.1)
  else if bits t.2.rostat.toNat 0 2 == 1 then some (.roreqComplete t.1)
  else if t.2.bootBusy && !t.2.bootChild.any (fun c => (s.hart c.1).any (fun h => h.created && decide (s.gtb < h.readyAt + bootLimit))) then
    some (.tenbootComplete t.1)
  else if t.2.st == 2 && s.allUnbound t.1 then some (.tenantFrozen t.1)
  else if t.2.releasing then some (.tenantReleased t.1) else none

/-- An unbinding of a slot is in progress, and can complete (R384, R402). -/
def State.unbinds (s : State) (core slot : Nat) : Bool :=
  ((s.bind core slot).unbinding != 0 || !(s.leavers core slot).isEmpty) && s.canUnbind core slot

/-- A core's unbinding in progress (R384), or its oldest queued recheck, whose runs agree (R430). -/
noncomputable def State.coreWork (s : State) (c : Nat × Core) : Option Instr :=
  match (List.range 8).find? (s.unbinds c.1) with
  | some i => some (.unbindingComplete c.1 i)
  | none => c.2.recheck.head?.map (fun r => .recheckRun r.hid 0 .agree)

/-- A bank that has not flipped (R111). -/
def flipWork (r : Nat × Option Region) : Option Instr := (r.2.bind (fun x => x.flipBanks.head?)).map (fun b => .planeFlip r.1 b)

/-- A plough's running move that nothing holds up (R67). -/
def State.ploughWork (s : State) (f : Nat) : Option Instr :=
  let p := s.plough f
  if p.stat == 1 && !s.pageOwned p.src.toNat (pageBytes p.big) && !s.pageOwned p.dst.toNat (pageBytes p.big) then
    some (.ploughMoveComplete f)
  else none

/-- The next work of the package's units. -/
noncomputable def State.unitWork (s : State) : Option Instr :=
  match s.regions.findSome? flipWork with
  | some i => some i
  | none =>
    match s.engines.findSome? s.engineWork with
    | some i => some i
    | none =>
      match s.tenants.findSome? s.tenantWork with
      | some i => some i
      | none =>
        match s.cores.findSome? s.coreWork with
        | some i => some i
        | none =>
          match (List.range 4).findSome? s.ploughWork with
          | some i => some i
          | none => if s.hub.zreqBusy then some .zreqComplete else none

/-! Time -/

/-- A cycle counts for a hart's watchdog (R390). -/
def Hart.eligible (h : Hart) : Bool := h.live && h.slot.isSome && !h.waiting && h.halt.isNone

/-- The watchdog count after `c` cycles: it is compared in every cycle, and so stops at WDL (R390, R391). -/
def dogAfter (wdl wd c : Nat) : Nat := if wdl ≤ wd then wd else min wdl (wd + c)

/-- A hart after a tick of `c` cycles: its watchdog count, and the stall cycles of its sides. -/
def State.tickHart (s : State) (c : Nat) (h : Hart) : Hart :=
  { h with wd := if h.eligible && !s.throttled h then dogAfter (s.core h.core).wdl.toNat h.wd c else h.wd, thr := h.thr - 1,
           stallF := if s.stalls h .forager then h.stallF + c else h.stallF,
           stallV := if s.stalls h .vector then h.stallV + c else h.stallV }

/-- The tenants that have a bound hart (R415, counter 0). -/
def State.boundTenants (s : State) : List Nat := ((s.harts.filter (fun h => h.slot.isSome)).map (fun h => h.tid)).eraseDups

/-- The next scrub period begins once every unit of the pass has been scrubbed (R74). -/
def State.nextScrub (s : State) : State := if s.scrubDue ≤ s.gtb then s.setHub (fun b => { b with scrubAt := s.gtb }) else s

/-- Time passes by a tick: the counters of R415, the watchdogs, and what the outside still holds up (entry 57). The GTB, a 64-bit count that never
decreases (R20, R21), stops at its last value: the spec says nothing of what follows (the model's choice, entry 52). -/
def State.pass (s : State) : State :=
  let c := s.cyclesIn s.gtb (s.gtb + 1)
  let s1 := s.boundTenants.foldl (fun t tid => t.count tid 0 c) s.nextScrub
  let s2 := s.harts.foldl (fun t h => t.countStall c h) s1
  let s3 := (s.cores.filter (fun e => e.2.clkStop ≠ 0)).foldl (fun t e => t.setCore e.1 (fun k => { k with clkStop := k.clkStop - 1 })) s2
  let s4 := (s.dies.filter (fun e => e.2.late ≠ 0)).foldl (fun t e => t.setDie e.1 (fun d => { d with late := d.late - 1 })) s3
  { s4 with gtb := min gtbEnd (s.gtb + 1), h := s.tickHart c s4.h, pool := s4.pool.map (s.tickHart c) }

/-- A tick of time; the dies that are no longer late answer what they have left unanswered (R27, R332). -/
def State.tick (s : State) : State := s.goOn s.pass.landPackets.sendSlow.readyChildren

/-- The next hart is taken in hand. -/
def State.rotate (s : State) : State :=
  match s.pool with
  | [] => s
  | k :: rest => { s with h := k, pool := if s.h.live then rest ++ [s.h] else rest }

/-! The next move -/

/-- An event, not an encoded instruction. -/
noncomputable def isEvent (i : Instr) : Bool := (encode i).isNone

/-- An event of the package. -/
def State.event (s : State) (i : Instr) : Out := s.run (exec i)

/-- The forager of a hart moves. -/
noncomputable def State.moveForager (s : State) (hid : Nat) : Out :=
  if (s.hart hid).isSome then (s.hold hid).run State.foragerMove else .next s

/-- The vector side of a hart moves. -/
noncomputable def State.moveVector (s : State) (hid : Nat) : Out :=
  if (s.hart hid).isSome then (s.hold hid).run State.vectorMove else .next s

/-- A move of the plan. -/
noncomputable def State.move (s : State) : Who → Out
  | .forager hid => s.moveForager hid
  | .vector hid => s.moveVector hid
  | .event i => if isEvent i then s.event i else .fault .planNotEvent

/-- Time passes up to the next move of the plan, or an event that is due comes first. -/
def State.wait (s : State) (m : Move) (rest : List Move) : Out :=
  match s.dueEvent with
  | some i => s.event i
  | none => .next { s.tick with plan := { m with dt := m.dt - 1 } :: rest }

/-- A move without a plan: each side of each hart, the units and time take turns. -/
noncomputable def State.ownMove (s : State) : Out :=
  if s.hub.phase = 0 then s.event .coldStart
  else
    match s.turn with
    | 0 => ({ s with turn := 1 } : State).moveForager s.h.hid
    | 1 => ({ s with turn := 2 } : State).moveVector s.h.hid
    | 2 =>
      match s.unitWork with
      | some i => ({ s with turn := 3 } : State).event i
      | none => .next { s with turn := 3 }
    | _ =>
      match s.dueEvent with
      | some i => s.event i
      | none => .next { s.tick.rotate with turn := 0 }

/-- An event that tests a deadline (R331, R337). -/
def testsDeadline : Instr → Bool
  | .rqpopExpiry _ | .vsyncExpiry _ | .napExpiry _ | .twaitExpiry _ | .ewaitExpiry _ | .eleaseExpiry _ | .engineSlotExpiry _
  | .swarmDeadlineClose _ | .swjoinExpiry _ | .acqExpiry _ | .sendExpiry _ | .recvExpiry _ | .waitAnswerTimeout _
  | .iwlExpiry _ _ | .pfAnswerTimeout _ => true
  | _ => false

/-- A move of the plan tests a deadline. -/
def Move.isTest (m : Move) : Bool :=
  match m.who with
  | .event i => testsDeadline i
  | _ => false

/-- The moves of the plan in the present tick, and those of later ticks. -/
def thisTick : List Move → List Move × List Move
  | [] => ([], [])
  | m :: rest =>
    if m.dt = 0 then
      match thisTick rest with
      | (a, b) => (m :: a, b)
    else ([], m :: rest)

/-- A planned deadline test comes after every event of its tick (R331, R337): those that are due, and the plan's other moves of the tick. Where the
plan ends with this tick, the machine's own moves come before its tests too, and make them as time passes (`State.ownMove`). -/
noncomputable def State.plannedTest (s : State) (m : Move) (rest : List Move) : Out :=
  match s.dueFirst, thisTick rest with
  | some i, _ => s.event i
  | none, (now, later) =>
    match now.find? (fun n => !n.isTest) with
    | some n => ({ s with plan := m :: now.erase n ++ later } : State).move n.who
    | none => if later.isEmpty then .next { s with plan := rest } else ({ s with plan := rest } : State).move m.who

/-- The next move (entry 1). -/
noncomputable def State.next (s : State) : Out :=
  match s.plan with
  | [] => s.ownMove
  | m :: rest =>
    if m.dt ≠ 0 then s.wait m rest else if m.isTest then s.plannedTest m rest else ({ s with plan := rest } : State).move m.who

/-! An instruction placed where the next move fetches it -/

/-- A hart of tenant 1 in mode S on core 0, bound in slot 0, whose PC is 0x40_0000. -/
def placedHart : Hart :=
  { Hart.blank with hid := 1, tid := 1, live := true, slot := some 0, mode := .s, pc := 0x400000#64 }

/-- A tenant whose page table maps its first GiB to the first GiB of the near tier: the root at 0x10_0000, its entry to a table at
0x20_0000, and there a leaf with R, W, X and U of the discipline OPN (R87, R88, R362); the pages of the tables and of the code are its own (R91). -/
def State.withPlaced (s : State) : State :=
  let s1 := (s.setTenant 1 (fun t => { t with st := 1, key := true, ptbase := 0x100001#64 }))
  let s2 := ((s1.store64 0x100000 0x200001).store64 0x200000 (0x1F + 5 * 2 ^ 60))
  let page : Nat → Word := fun k => word (2 ^ 63 + k * 2 ^ 61 + 2 ^ 32)
  let s3 : State := { s2 with rob := Tab.set 0 (Tab.set 0 (Tab.set 0 s2.rob 16 (page 1)) 32 (page 1)) 64 (page 0) }
  { (s3.setBind 0 0 (fun b => { b with v := true, tag := 1, lgm := 1, hart := 1 })) with
    h := placedHart, pool := if s.h.live then s.h :: s.pool else s.pool }

/-- A word of the scalar stream in memory, at the PC of the hart that moves next. -/
def State.placeScalar (s : State) (w : IWord) : State :=
  let t := s.withPlaced
  { (t.store 0x400000 (wordBytes w) false) with plan := { dt := 0, who := .forager 1 } :: t.plan }

/-- A word of the vector stream, issued as the one word of its convoy in a running block. -/
def State.placeVector (s : State) (w : IWord) : State :=
  let t := s.withPlaced
  let b : Block := { addr := 0x400000#64, seq := 0, rm := 0, fen := 0, fxf := 0, dscale := 0, qcfg := 0, rchk := 0, flags := 0 }
  let h1 : Hart := { t.h with run := some b, vpc := 0x400000#64, conv := [(0x400000#64, w)] }
  { (t.store 0x400000 (wordBytes w) false) with h := h1, plan := { dt := 0, who := .vector 1 } :: t.plan }

/-- An instruction's word placed where the next move runs it. -/
def State.placeWord (s : State) (w : IWord) : State :=
  if w.toNat < 2 ^ 31 then s.placeScalar w else s.placeVector w

end Sys2Proof.Machine
end

