-- ==== Sys2Proof/Machine/Step.lean ====
section
/-! DEFINITION. The step of the machine, and an instruction placed where the next step runs it. -/

namespace Sys2Proof.Machine

/-- One step: one move of a side of a hart, one event, or one tick (entry 1). -/
noncomputable def step (s : State) : Host.Outcome State Fault Refusal := s.next

/-- The state in which the next step runs the instruction that the decoder reads from the bits of an opcode-table row (entry 25). -/
def State.withFetchWord (s : State) (nbits w : Nat) : State := s.placeWord (BitVec.ofNat 32 (w % 2 ^ nbits))

end Sys2Proof.Machine
end

