-- ==== Sys2Proof/Safety.lean ====
section
/-! DEFINITION. What a safe run is, in the terms that claims use: memory in its one form, and the results, frames and completions
that statements speak of. -/

namespace Sys2Proof.Machine

/-- The canonical form of memory: addresses strictly rising, and no entry equal to what an unlisted address reads as. -/
def State.memWf (s : State) : Bool := Tab.wf 0 s.mem && Tab.wf false s.psn

/-- Every byte of memory reads as it did. -/
def SameBytes (s t : State) : Prop := ∀ a, t.byteAt a = s.byteAt a

/-- Every byte of memory reads as it did, but for the records of errors that reads have found, which go into the machine-check ring (R72, R435);
where no error is to be found, every byte at all. -/
def SameMemory (s t : State) : Prop := (∀ a, inMcRing a = false → t.byteAt a = s.byteAt a) ∧ (s.ecc = [] → SameBytes s t)

/-- Nothing changed but the hart in hand and the note of what was done. -/
def OnlyHart (s t : State) : Prop := { t with h := s.h, did := s.did } = s

/-- Of the scalar side of the hart in hand, nothing changed but x registers, the PC and what the instruction keeps while it waits; of the
vector side nothing at all. -/
def OnlyX (h k : Hart) : Prop := { k with x := h.x, pc := h.pc, iw := h.iw, begun := h.begun } = h

/-- Every x register but one reads as it did. -/
def OtherX (s t : State) (d : BitVec 5) : Prop := ∀ r : BitVec 5, r ≠ d → t.xr r = s.xr r

/-- x[d] holds a value; x0 reads 0 whatever is written (R177). -/
def WroteX (t : State) (d : BitVec 5) (v : Word) : Prop := t.xr d = if d = 0 then 0 else v

/-- An instruction that only writes x[d] has completed: the value, the next word, and nothing else. -/
def ResultX (s t : State) (d : BitVec 5) (v : Word) : Prop :=
  WroteX t d v ∧ OtherX s t d ∧ t.h.pc = s.h.pc + 4 ∧ OnlyX s.h t.h ∧ OnlyHart s t ∧ SameBytes s t

/-- An instruction without a register result has completed at an address: the PC, and nothing else. -/
def WentTo (s t : State) (pc : Word) : Prop :=
  t.h.pc = pc ∧ (∀ r : BitVec 5, t.xr r = s.xr r) ∧ OnlyX s.h t.h ∧ OnlyHart s t ∧ SameBytes s t

/-- The trap registers after an entry (R394), the handler's address, and that nothing else of the hart changed, but what its instruction
kept while it waited, the note of a PAGE being handled, and the events of R96 that a PAGE of their kind meets. -/
def Entered (h k : Hart) (cause : Nat) (tval tepc : Word) (vs : Bool) : Prop :=
  k.tcause = word cause ∧ k.tval = tval ∧ k.tepc = tepc ∧ k.tstat = word (h.mode.code + (if vs then 4 else 0)) ∧
    k.mode = h.mode.trapped ∧ k.pc = h.handler cause ∧
    { k with tcause := h.tcause, tval := h.tval, tepc := h.tepc, tstat := h.tstat, mode := h.mode, pc := h.pc, iw := h.iw, begun := h.begun,
             pageIn := h.pageIn, pagePend := if tablePage cause tval then h.pagePend else k.pagePend,
             pagePendV := if tablePage cause tval then h.pagePendV else k.pagePendV } = h

/-- The run of a machine from a state, for `n` steps without a stop. -/
def Steps : Nat → State → State → Prop
  | 0, s, t => s = t
  | n + 1, s, t => ∃ u, step s = .next u ∧ Steps n u t

end Sys2Proof.Machine
end

