-- ==== Sys2Proof/Certificates/Slice0/Obligations.lean ====
section
/-! DEFINITION. The statements for the provers. -/

namespace Sys2Proof.Claims

open Sys2Proof.Machine

/-- The results of XOP (R292, R293), each with its value for operands x and y. -/
def xopTable (d a b : BitVec 5) (x y : Word) : List (Instr × Word) :=
  [(.add d a b, x + y), (.sub d a b, x - y), (.and d a b, x &&& y), (.or d a b, x ||| y), (.xor d a b, x ^^^ y),
   (.sll d a b, x <<< (y.toNat % 64)), (.srl d a b, x >>> (y.toNat % 64)), (.sra d a b, x.sshiftRight (y.toNat % 64)),
   (.sltS d a b, if x.toInt < y.toInt then 1 else 0), (.sltU d a b, if x.toNat < y.toNat then 1 else 0),
   (.mul d a b, BitVec.ofInt 64 (x.toInt * y.toInt)), (.mulhiSs d a b, BitVec.ofInt 64 (x.toInt * y.toInt / 2 ^ 64)),
   (.mulhiUu d a b, BitVec.ofNat 64 (x.toNat * y.toNat / 2 ^ 64)),
   (.mulhiSu d a b, BitVec.ofInt 64 (x.toInt * (y.toNat : Int) / 2 ^ 64)),
   (.quoS d a b, if y = 0 then 0 else BitVec.ofInt 64 (Int.tdiv x.toInt y.toInt)),
   (.quoU d a b, if y = 0 then 0 else BitVec.ofNat 64 (x.toNat / y.toNat)),
   (.remS d a b, if y = 0 then x else BitVec.ofInt 64 (Int.tmod x.toInt y.toInt)),
   (.remU d a b, if y = 0 then x else BitVec.ofNat 64 (x.toNat % y.toNat)),
   (.minS d a b, if x.toInt < y.toInt then x else y), (.maxS d a b, if x.toInt < y.toInt then y else x),
   (.minU d a b, if x.toNat < y.toNat then x else y), (.maxU d a b, if x.toNat < y.toNat then y else x)]

/-- The results of the immediate majors (R294, R295) for an operand x. -/
def immTable (d a : BitVec 5) (i : BitVec 16) (n : BitVec 6) (x : Word) : List (Instr × Word) :=
  [(.addi d a i, x + i.signExtend 64), (.andi d a i, x &&& i.zeroExtend 64), (.ori d a i, x ||| i.zeroExtend 64),
   (.xori d a i, x ^^^ i.zeroExtend 64), (.slti d a i, if x.toInt < i.toInt then 1 else 0),
   (.sltiu d a i, if x.toNat < (i.signExtend 64).toNat then 1 else 0), (.slli d a n, x <<< n.toNat), (.srli d a n, x >>> n.toNat),
   (.srai d a n, x.sshiftRight n.toNat), (.lhi d a i, x <<< 16 ||| i.zeroExtend 64)]

/-- The branches with their conditions (R296). -/
def branchTable (a b : BitVec 5) (o : BitVec 13) (x y : Word) : List (Instr × Bool) :=
  [(.beq a b o, x == y), (.bne a b o, x != y), (.blt a b o, decide (x.toInt < y.toInt)), (.bge a b o, decide (y.toInt ≤ x.toInt)),
   (.bltu a b o, decide (x.toNat < y.toNat)), (.bgeu a b o, decide (y.toNat ≤ x.toNat))]

/-- The loads with their widths in bytes, and whether the value is sign-extended (R84). -/
def loadTable (d a : BitVec 5) (o : BitVec 13) : List (Instr × Nat × Bool) :=
  [(.ldB d a o, 1, true), (.ldH d a o, 2, true), (.ldW d a o, 4, true), (.ldD d a o, 8, false), (.ldBu d a o, 1, false),
   (.ldHu d a o, 2, false), (.ldWu d a o, 4, false)]

/-- The stores with their widths in bytes (R84). -/
def storeTable (d a : BitVec 5) (o : BitVec 13) : List (Instr × Nat) :=
  [(.stB d a o, 1), (.stH d a o, 2), (.stW d a o, 4), (.stD d a o, 8)]

/-- The FOP instructions (R244) with the bits and flags of their results in format g under mode rm, for operands x, y and the old z. -/
def fopTable (d a b : BitVec 5) (f : BitVec 2) (g : Fmt) (rm : BitVec 3) (x y z : Nat) : List (Instr × (Nat × Nat)) :=
  [(.fadd d a b f, g.add rm x y), (.fsub d a b f, g.sub rm x y), (.fmul d a b f, g.mul rm x y), (.fdiv d a b f, g.div rm x y),
   (.fsqrt d a f, g.sqrt rm x), (.fmin d a b f, g.minmax false x y), (.fmax d a b f, g.minmax true x y),
   (.fmacc d a b f, g.fma rm false false x y z), (.fsgnj d a b f, g.sgnj x y), (.fsgnjn d a b f, g.sgnjn x y),
   (.fsgnjx d a b f, g.sgnjx x y), (.feq d a b f, fopCmp .eq g x y), (.flt d a b f, fopCmp .lt g x y),
   (.fle d a b f, fopCmp .le g x y), (.fkind d a f, (g.kind x, 0))]

/-- The conversions of FOP (R238, R244): from format q, to a 64-bit integer, and from the integers v and u that x[xa] spells. -/
def fcvtTable (d a : BitVec 5) (f q : BitVec 2) (rm : BitVec 3) (x xq : Nat) (v u : Int) : List (Instr × (Nat × Nat)) :=
  let toInt := fun (m : BitVec 3) (lo hi : Int) =>
    let r := toIntFlags m lo hi ((fopFmt f).val x)
    (unsg r.1 64, r.2)
  [(.fcvtF d a f q, fcvtFmt rm (fopFmt f) (fopFmt q) xq), (.fcvtI d a f, toInt rm (-2 ^ 63) (2 ^ 63 - 1)),
   (.fcvtIRtz d a f, toInt 1 (-2 ^ 63) (2 ^ 63 - 1)), (.fcvtIu d a f, toInt rm 0 (2 ^ 64 - 1)),
   (.fcvtIuRtz d a f, toInt 1 0 (2 ^ 64 - 1)), (.fcvtFi d a f, (fopFmt f).round rm (intVal v)),
   (.fcvtFiu d a f, (fopFmt f).round rm (intVal u))]

/-- The AMO instructions with a width bit (R122, R123). -/
def amoTable (d a b : BitVec 5) (w : BitVec 1) (o : BitVec 2) (k : BitVec 3) : List (Instr × AmoOp) :=
  [(.amoSwap d a b w o k, .swap), (.amoCas d a b w o k, .cas), (.amoAdd d a b w o k, .add), (.amoAnd d a b w o k, .and),
   (.amoOr d a b w o k, .or), (.amoXor d a b w o k, .xor), (.amoSmin d a b w o k, .smin), (.amoSmax d a b w o k, .smax),
   (.amoUmin d a b w o k, .umin), (.amoUmax d a b w o k, .umax), (.amoLd d a w o k, .ld), (.amoFadd d a b w o k, .fadd),
   (.amoFmin d a b w o k, .fmin), (.amoFmax d a b w o k, .fmax)]

/-- The AMO instructions on exact rationals (R122): always 8 bytes. -/
def amoQTable (d a b : BitVec 5) (o : BitVec 2) (k : BitVec 3) : List (Instr × AmoOp) :=
  [(.amoQadd d a b o k, .qadd), (.amoQmul d a b o k, .qmul)]

/-- An AMO of `n` bytes at a place of main memory or of the Comb whose target can be read: the old value, sign-extended from 32 bits,
goes to xd, the flags into FXF, and the target holds the new value where the operation writes (R123). `u` is the state after the read. -/
def AmoEffect (o : AmoOp) (n : Nat) (s u t : State) (d b : BitVec 5) (p : Word) (pl : Place) (old : Nat) : Prop :=
  let r := o.eval n (u.amoModulus p) old (s.lowBytes b n) (s.lowBytes d n)
  WroteX t d (if n = 4 then BitVec.ofInt 64 (sgn old 32) else word old) ∧ OtherX s t d ∧ t.h.pc = s.h.pc + 4 ∧
    t.h.fxf = orFlags s.h.fxf r.2 ∧ OnlyX s.h { t.h with fxf := s.h.fxf } ∧
    OnlyHart (if o.writes old (s.lowBytes d n) then u.rmwAt s.h.actor pl (leBytes n r.1) false else u) t

/-- The state after an explicit wait's outcome is recorded by a trace record of TYPE 5, if tracing is on (R442). -/
def Traced (s : State) (v : Word) : State := s.traceHart s.h 5 0 s.h.pc v

/-- An instruction with a wait outcome v has completed at once: its trace record, then xd, the next word, and nothing else. -/
def Outcome (s t : State) (d : BitVec 5) (v : Word) : Prop := ResultX (Traced s v) t d v

/-- A WAIT instruction has completed at once over a state u, with one operation at its object's bank counted (R415): its trace record, xd
and the next word. -/
def AtBank (u t : State) (d : BitVec 5) (v : Word) : Prop :=
  WroteX t d v ∧ t.h.pc = u.h.pc + 4 ∧ ∃ w, Outcome u w d v ∧ t = w.count u.h.tid 7 1

/-- No die leaves a request unanswered (R27), so that no instruction waits for a die. -/
def Prompt (s : State) : Prop := ∀ x, (s.die x).late = 0

/-- The home die of a record answers its requests (R27, R98). -/
def HomeAnswers (s : State) (off : Nat) : Prop := (s.die (combHome off).1).late = 0

/-- The forager stands at its instruction, whose effect has begun, and waits under IWL for a party (R334, R402). -/
def HeldFor (t : State) (pc party : Word) : Prop := t.h.pc = pc ∧ t.h.begun ≠ none ∧ t.h.iw.map (fun w => w.party) = some party

/-- The state just before the bytes of a write are put at their place: the dirty-page log has been kept, the lines that a plough copies are
noted, and the sectors touched stand under the writer's key (R67, R77, R418). -/
def BesideWrite (s : State) (tag loc n : Nat) : State := ((s.logDirty loc).noteCopy loc).keyed tag loc n

/-- A write at a place leaves no trace beside its bytes: the page's tenant keeps no dirty-page log, and the sectors touched stand under no other
tag's key (R77, R418). -/
def PlainWrite (s : State) (tag loc n : Nat) : Prop := (s.tenant (robTag (s.robAt loc))).dlEn = false ∧ s.foreign tag loc n = false

/-- The highest rank that a gather through a proxy asks for is known (R139); a command of another kind asks for none. -/
def TopKnown (s : State) (c : Cmd) : Prop :=
  ∀ off o w, s.gatherProxy c = some (off, o, w) → ∃ x, s.h.iw = some x ∧ x.party = w.homeParty ∧ x.since < w.topAt

/-- The tests of a region descriptor in the order of R106, each with its code. -/
def regionTests (s : State) (bs : List Byte) (r : Region) : List (Bool × Nat) :=
  [(!(descriptorClean bs && r.valid), 1), (s.regions.any (fun e => e.2.any (fun q => q.overlaps r)), 2),
   (decide ((s.tenant r.tag).combq * 128 < s.combUse r.tag + r.footprint), 3), (!s.objOk r, 4), (s.freeRegion.isNone, 5)]

/-- A trigger that a mark sends has reached this chip and its peers (R445): a frame for each peer from ports that are up, a TYPE 7 record where
tracing is on, and, where FTRIG says so, the halt of the tenant's bound harts; no byte outside the tenant's trace ring, and no register, has
changed. -/
def TriggerSent (s t : State) (tag group : Nat) : Prop :=
  (s.portsUp = true → (s.tenant tag).replay = false → ∃ l, t.outbox = s.outbox ++ l ∧ l.map (fun f => f.dst) = s.hub.peers.map (fun p => p.1) ∧
    ∀ f ∈ l, f.kind = 9 ∧ f.tag = tag ∧ f.target = group ∧ f.data = leBytes 8 s.gtb) ∧
  (∀ h ∈ t.harts, bit (s.tenant tag).ftrig.toNat 62 = true → h.live = true → h.tid = tag → h.slot ≠ none → h.halt ≠ none) ∧
  (bit (s.tenant tag).ftrig.toNat 62 = false → t.pool = s.pool ∧ t.h.halt = s.h.halt) ∧
  (s.traceOn tag 7 = false → bit (s.tenant tag).ftrig.toNat 62 = false → SameBytes s t) ∧
  (bit (s.tenant tag).ftrig.toNat 62 = false → t.mem = (s.trace tag 0 12 7 s.hub.hchip (word s.gtb) (word group)).mem)

/-- The hart in hand is a live hart of this chip, bound to a slot (R276). -/
def Bound (s : State) : Prop := s.h.live = true ∧ s.h.slot ≠ none ∧ s.h.hid < 65536

/-- The hart in hand waits (R277): the PC stands, and its registers and every byte of memory are unchanged. -/
def NowWaits (s t : State) (k : WaitKind) (d : BitVec 5) (dead : Nat) : Prop :=
  t.h.wait = some { kind := k, dst := d.toNat, dead := dead, issued := s.gtb, ans := none } ∧
    { t.h with wait := s.h.wait, waitAt := s.h.waitAt, iw := s.h.iw } = s.h ∧ OnlyHart s t ∧ SameBytes s t

/-- A WAIT instruction's request waits at its object's bank, one operation of which is counted (R415). -/
def BankWaits (s t : State) (k : WaitKind) (d : BitVec 5) (dead : Nat) : Prop :=
  ∃ w, NowWaits s w k d dead ∧ t = w.count s.h.tid 7 1

/-- The hart in hand waits, and neither its PC nor an x register has moved. -/
def StandsBy (s t : State) (k : WaitKind) (d : BitVec 5) (dead : Nat) : Prop :=
  t.h.wait = some { kind := k, dst := d.toNat, dead := dead, issued := s.gtb, ans := none } ∧ t.h.pc = s.h.pc ∧
    ∀ x : BitVec 5, t.xr x = s.xr x

/-- A wait of the hart in hand has returned with a word: xd holds it, the hart goes on at the next word, and waits no longer (R277). -/
def Returned (s t : State) (d : BitVec 5) (v : Word) : Prop :=
  WroteX t d v ∧ OtherX s t d ∧ t.h.pc = s.h.pc + 4 ∧ t.h.wait = none

/-- A pointer names a record in an OPN region of the hart's tenant, at a Comb offset (R339). -/
def RecordAt (s : State) (p : Word) (off : Nat) : Prop :=
  window p = 3 ∧ p.toNat % 256 = 0 ∧ off = bits p.toNat 0 28 ∧
    ∃ i r, s.regionOf s.h.tid off = some (i, r) ∧ r.covers (off + 255) = true ∧ r.disc = 5

/-- The hart in hand owns the vector state of its lanes, or is not bound to any (R404), so that no VOWN comes first. -/
def OwnsLanes (s : State) : Prop := s.ownsLanes = true ∨ s.h.slot = none

/-- The registers that `cfgwr` sets to the value written, each with its legal values and its place in the hart (R300). -/
def cfgTable (s : State) : List (Nat × (Nat → Bool) × (Hart → Word)) :=
  [(0x003, fun x => x < 2 ^ 17, Hart.ecut),
   (0x010, fun x => x < 2 ^ 29 && bits x 19 5 == 0 && bits x 16 3 < 5 && bits x 10 6 == 0, Hart.fxf), (0x012, fun x => x < 2 ^ 8, Hart.dscale),
   (0x020, fun x => 1 ≤ x && x < 2 ^ 32, Hart.iwl), (0x021, fun x => 1 ≤ x && x ≤ 60000000000, Hart.maxwait),
   (0x040, fun x => x % 4 = 0 || x % 64 = 1, Hart.tvec), (0x041, fun x => x < 2 ^ 8, Hart.tcause), (0x042, fun _ => true, Hart.tval),
   (0x043, fun _ => true, Hart.tepc), (0x044, fun x => x < 2 ^ 3 && x % 4 < 3, Hart.tstat),
   (0x050, fun x => x < 2 || x == 2 && bit s.hub.feat0 2, fun h => h.rchk.zeroExtend 64), (0x080, fun _ => true, Hart.frecp)]

/-- The registers of the hub that mode D sets while the host negotiates, each with its legal values and the hub after it (R300, R451,
R452). -/
def cfgHubTable (s : State) (x : Nat) : List (Nat × Bool × Hub) :=
  [(0x051, decide (x < 2 ^ 6), { s.hub with split := x }), (0x060, true, { s.hub with feat0 := x % 64, featSet := true }), (0x061, true, s.hub),
   (0x062, true, s.hub), (0x063, true, s.hub)]

/-- The registers of the vector context and VCFG, which take no write, with their reserved bits (R7, R181). -/
def cfgFixed : List (Nat × Nat) := [(0x000, 2 ^ 64 - 2 ^ 17), (0x001, 2 ^ 63 - 2 ^ 8), (0x002, 2 ^ 64 - 2 ^ 24 + 0xFC)]

/-- The registers of the tenant window that a `cfgwr` writes (R421). -/
def windowWritten : List Nat := [0x100, 0x108, 0x300, 0x308, 0x310, 0x600]

/-- The forms of ONEW with the validity of their images and the objects they make (R341). -/
def onewTable (s : State) (d a : BitVec 5) (bs : List Byte) : List (Instr × Bool × ObjKind) :=
  [(.onewSwarm d a, s.swarmImage bs, newSwarm bs), (.onewLatch d a, s.latchImage s.h.tid bs, newLatch bs),
   (.onewChan d a, s.chanImage s.h.tid bs, newChan bs)]

/-- The issuing instructions with their kinds (R137). -/
def issueTable (d a t : BitVec 5) (r : BitVec 1) : List (Instr × Nat) :=
  [(.ecopy d a t r, 0), (.ecopyTfill d a t r, 1), (.tdrain d a t r, 2), (.ecomp d a t r, 3), (.ecoll d a t r, 4)]

/-- A command record at x[xa] reads as the bytes bs for the hart in hand, and its live lease and checks let it issue at engine e as
command c; u is the state in which it does (R138). -/
def Issues (s : State) (kind : Nat) (a : BitVec 5) (u : State) (e : Nat) (c : Cmd) (bs : List Byte) : Prop :=
  ∃ s1 s2 pl v, s.access s.h.actor .load (s.xr a) 64 64 = (s1, .ok pl) ∧ s1.readAt s1.h.actor pl 64 = (s2, v, false) ∧
    bs = leBytes 64 v ∧ s2.leaseOf s2.h.tid (word (dword bs 0)) = some e ∧
    s2.withLines (cmdOf s2.h kind bs (min (dword bs 5) (s2.gtb + s2.h.maxwait.toNat))) (s2.xr a) = (u, c) ∧
    TopKnown s2 (cmdOf s2.h kind bs (min (dword bs 5) (s2.gtb + s2.h.maxwait.toNat))) ∧ u.cmdReason e c bs = 0 ∧ u.drainUser c = none ∧ (u.engine e).queue.length < 4 ∧ (u.engine e).pend = [] ∧ u.slowest c.homes = none

/-- An image record at x[xa] reads as bs for the hart in hand (R310). -/
def ReadsImage (s : State) (a : BitVec 5) (u : State) (bs : List Byte) : Prop :=
  ∃ s1 pls, s.accessRun s.h.actor .load (s.xr a) 2 = (s1, .ok pls) ∧ s1.readPieces s1.h.actor pls = (u, bs, false)

/-! Vector words -/

/-- Of the machine, a vector word has changed nothing but the hart in hand, the recheck queue of its core and the counts of rechecks;
without redundant execution, not those either. -/
def OnlyLanes (s t : State) : Prop :=
  { t with h := s.h, did := s.did, cores := s.cores, tenants := s.tenants } = s ∧
    (∀ c, { t.core c with recheck := (s.core c).recheck } = s.core c) ∧ (s.h.rechk = 0 → OnlyHart s t)

/-- A vector word has completed, and sequencing goes on at an address: of the hart, the vector state is that of `k`, the flags are joined
to the block's, and nothing else has changed. -/
def VGone (s t : State) (k : Hart) (fl : Nat) (next : Word) : Prop :=
  t.h = { s.h with vx := k.vx, vpc := next, conv := s.h.conv.tail, cut := 0, votes := [], owed := false, app := none, viw := none,
                   again := false, passV := [], run := s.h.run.map (fun b => { b with flags := flOr b.flags fl }) } ∧ OnlyLanes s t

/-- A vector word has completed, and the next word follows. -/
def VDone (s t : State) (k : Hart) (fl : Nat) : Prop := VGone s t k fl (s.h.vaddr + 4)

/-- A word of the lanes as the tables below give it: the instruction, its issue checks, and the results of its elements. -/
abbrev LaneRow := Instr × Need × List (Nat × ERes)

/-- What a word of the lanes does: ILLOP when an issue check fails; else the trap of its results, or its completion with the vector
state of `k`. With redundant execution the trap comes when the word's recheck has ended (R430, R431). -/
def Lane (s : State) (e : LaneRow) (k : Hart) : Prop :=
  (s.h.issueOk e.2.1 = false → exec e.1 s = .next s.villop) ∧
    (s.h.issueOk e.2.1 = true → s.h.votes = [] →
      (s.h.run.bind (fun b => b.arithTrap e.2.2) = none → ∃ t, exec e.1 s = .next t ∧ VDone s t k (flagsOf e.2.2)) ∧
      (∀ c v, s.h.run.bind (fun b => b.arithTrap e.2.2) = some (c, v) →
        (s.h.rechk = 0 ∨ s.h.owed = true → exec e.1 s = .next (s.vtrap c v 0)) ∧
        (s.h.rechk ≠ 0 → s.h.owed = false → exec e.1 s = .next s.oweTrap)))

/-- An integer saturated to a range, and the flag IS when it changed (R213). -/
def saturated (w : Nat) (lo hi x : Int) : Nat × Nat :=
  if x < lo then (unsg lo w, flIS) else if hi < x then (unsg hi w, flIS) else (unsg x w, 0)

/-- The element-wise instructions of majors 0x29 to 0x2B that write vector registers (R213-R216), with their functions of two operands. -/
noncomputable def intTable (h : Hart) (c : BitVec 1) (d a b i : BitVec 6) (n : BitVec 5) (m : BitVec 3) : List LaneRow :=
  let w := h.sew
  let S := fun (x : Nat) => sgn x w
  let M : Int := (2 ^ w : Nat)
  let H : Int := (2 ^ (w - 1) : Nat)
  let row := fun (i : Instr) (g : Need) (B : VOpnd) (f : Nat → Nat → Nat × Nat) => (i, g, h.results m.toNat (bin f (h.opV a.toNat) B))
  let vv := fun (i : Instr) (t : BitVec 3 → BitVec 3 → Bool) (f : Nat → Nat → Nat × Nat) =>
    row i (need3 t d.toNat a.toNat b.toNat h) (h.opV b.toNat) f
  let vx := fun (i : Instr) (t : BitVec 3 → BitVec 3 → Bool) (f : Nat → Nat → Nat × Nat) =>
    row i (need2 t d.toNat a.toNat h) (h.opX b.toNat) f
  let vi := fun (j : Instr) (t : BitVec 3 → BitVec 3 → Bool) (f : Nat → Nat → Nat × Nat) =>
    row j (need2 t d.toNat a.toNat h) (h.opI i) f
  let vn := fun (j : Instr) (f : Nat → Nat → Nat × Nat) => row j (need2 intType d.toNat a.toNat h) (opC n.toNat) f
  [vv (.vaddVv c d a b m) intType (fun x y => (unsg ((x : Int) + y) w, 0)), vx (.vaddVx c d a b m) intType (fun x y => (unsg ((x : Int) + y) w, 0)),
   vi (.vaddVi c d a i m) intType (fun x y => (unsg ((x : Int) + y) w, 0)), vv (.vsubVv c d a b m) intType (fun x y => (unsg ((x : Int) - y) w, 0)),
   vx (.vsubVx c d a b m) intType (fun x y => (unsg ((x : Int) - y) w, 0)), vx (.vrsubVx c d a b m) intType (fun x y => (unsg ((y : Int) - x) w, 0)),
   vi (.vrsubVi c d a i m) intType (fun x y => (unsg ((y : Int) - x) w, 0)), vv (.vmulVv c d a b m) mulType (fun x y => (unsg ((x : Int) * y) w, 0)),
   vx (.vmulVx c d a b m) mulType (fun x y => (unsg ((x : Int) * y) w, 0)), vv (.vmulh c d a b m) mulType (fun x y => (unsg (S x * S y / M) w, 0)),
   vv (.vmulhuVv c d a b m) mulType (fun x y => (unsg ((x : Int) * y / M) w, 0)),
   vx (.vmulhuVx c d a b m) mulType (fun x y => (unsg ((x : Int) * y / M) w, 0)),
   vv (.vmulhsu c d a b m) mulType (fun x y => (unsg (S x * y / M) w, 0)),
   vv (.vsadd c d a b m) intType (fun x y => saturated w (-H) (H - 1) (S x + S y)),
   vv (.vsaddu c d a b m) intType (fun x y => saturated w 0 (M - 1) ((x : Int) + y)),
   vv (.vssub c d a b m) intType (fun x y => saturated w (-H) (H - 1) (S x - S y)),
   vv (.vssubu c d a b m) intType (fun x y => saturated w 0 (M - 1) ((x : Int) - y)),
   vv (.vandVv c d a b m) anyType (fun x y => (x &&& y, 0)), vx (.vandVx c d a b m) anyType (fun x y => (x &&& y, 0)),
   vv (.vorVv c d a b m) anyType (fun x y => (x ||| y, 0)), vx (.vorVx c d a b m) anyType (fun x y => (x ||| y, 0)),
   vv (.vxorVv c d a b m) anyType (fun x y => (x ^^^ y, 0)), vx (.vxorVx c d a b m) anyType (fun x y => (x ^^^ y, 0)),
   vi (.vxorVi c d a i m) anyType (fun x y => (x ^^^ y, 0)), vv (.vandn c d a b m) anyType (fun x y => (x &&& (2 ^ w - 1 - y), 0)),
   vv (.vmin c d a b m) intType (fun x y => (if S y < S x then y else x, 0)), vv (.vminu c d a b m) intType (fun x y => (min x y, 0)),
   vv (.vmax c d a b m) intType (fun x y => (if S x < S y then y else x, 0)), vv (.vmaxu c d a b m) intType (fun x y => (max x y, 0)),
   vv (.vsllVv c d a b m) intType (fun x y => (x * 2 ^ (y % w) % 2 ^ w, 0)), vn (.vsllVi c d a n m) (fun x y => (x * 2 ^ (y % w) % 2 ^ w, 0)),
   vv (.vsrlVv c d a b m) intType (fun x y => (x / 2 ^ (y % w), 0)), vn (.vsrlVi c d a n m) (fun x y => (x / 2 ^ (y % w), 0)),
   vv (.vsraVv c d a b m) intType (fun x y => (unsg (S x / (2 ^ (y % w) : Nat)) w, 0)),
   vn (.vsraVi c d a n m) (fun x y => (unsg (S x / (2 ^ (y % w) : Nat)) w, 0))]

/-- The forms of `vmerge` (R215): every element below VL takes the second operand where it is active, else the first. -/
noncomputable def mergeTable (h : Hart) (c : BitVec 1) (d a b i : BitVec 6) (m : BitVec 3) : List LaneRow :=
  let row := fun (B : VOpnd) => (List.range h.vx.vl).map (fun e =>
    let x := if h.active m.toNat e then B e else h.opV a.toNat e
    (e, ({ val := x.1, bad := x.2, fl := 0 } : ERes)))
  [(.vmergeVv c d a b m, need3 anyType d.toNat a.toNat b.toNat h, row (h.opV b.toNat)),
   (.vmergeVx c d a b m, need2 anyType d.toNat a.toNat h, row (h.opX b.toNat)),
   (.vmergeVi c d a i m, need2 anyType d.toNat a.toNat h, row (h.opI i))]

/-- The compares of major 0x2B (R216, R217), with their conditions. -/
noncomputable def compareTable (h : Hart) (c : BitVec 1) (d : BitVec 3) (a b : BitVec 6) (m : BitVec 3) : List LaneRow :=
  let S := fun (x : Nat) => sgn x h.sew
  let vv := fun (i : Instr) (f : Nat → Nat → Bool) =>
    (i, needM2 intType d.toNat a.toNat b.toNat h, h.results m.toNat (cond (fun x y => (f x y, 0)) (h.opV a.toNat) (h.opV b.toNat)))
  let vx := fun (i : Instr) (f : Nat → Nat → Bool) =>
    (i, needM1 intType d.toNat a.toNat h, h.results m.toNat (cond (fun x y => (f x y, 0)) (h.opV a.toNat) (h.opX b.toNat)))
  [vv (.vmseqVv c d a b m) (fun x y => decide (x = y)), vx (.vmseqVx c d a b m) (fun x y => decide (x = y)),
   vv (.vmsne c d a b m) (fun x y => decide (x ≠ y)), vv (.vmslt c d a b m) (fun x y => decide (S x < S y)),
   vv (.vmsltuVv c d a b m) (fun x y => decide (x < y)), vx (.vmsltuVx c d a b m) (fun x y => decide (x < y)),
   vv (.vmsle c d a b m) (fun x y => decide (S x ≤ S y)), vv (.vmsleu c d a b m) (fun x y => decide (x ≤ y)),
   vx (.vmsgt c d a b m) (fun x y => decide (S y < S x)), vx (.vmsgtu c d a b m) (fun x y => decide (y < x))]

/-- The bit-string instructions of R219 on strings of VL · SEW bits, and the operations of R220 on the bits of an element. -/
noncomputable def bitTable (h : Hart) (c : BitVec 1) (d a x : BitVec 6) (i : BitVec 5) (m : BitVec 3) : List LaneRow :=
  let w := h.sew
  let n := h.vx.vl * w
  let left := fun (k A D : Nat) => A * 2 ^ k % 2 ^ n + D / 2 ^ (n - k)
  let right := fun (k A D : Nat) => A / 2 ^ k + D % 2 ^ k * 2 ^ (n - k)
  let str := fun (j : Instr) (f : Nat → Nat → Nat → Nat) (k0 : Nat) (funnel : Bool) =>
    let k := min k0 n
    let A := h.str a.toNat h.vx.vl
    let D := if funnel then h.str d.toNat h.vx.vl else (0, 0)
    ((j, need2d anyType d.toNat a.toNat h, (List.range h.vx.vl).map (fun e =>
      (e, { val := bits (f k A.1 D.1) (e * w) w, bad := bits (f k A.2 D.2) (e * w) w != 0, fl := 0 }))) : LaneRow)
  let one := fun (j : Instr) (f : Nat → Nat) =>
    (j, need2 intType d.toNat a.toNat h, h.results m.toNat (bin (fun y _ => (f y, 0)) (h.opV a.toNat) (opC 0)))
  let X := (h.code x.toNat).toNat
  [str (.vbslVx c d a x) left X false, str (.vbslVi c d a i) left i.toNat false, str (.vbsrVx c d a x) right X false,
   str (.vbsrVi c d a i) right i.toNat false, str (.vfsl c d a x) left X true, str (.vfsr c d a x) right X true,
   one (.vpopc c d a m) (fun y => popcount w y % 2 ^ w), one (.vclz c d a m) (fun y => (w - bitLen y) % 2 ^ w),
   one (.vctz c d a m) (fun y => (lowestBit w y).getD w % 2 ^ w), one (.vbrev c d a m) (fun y => revBits w y)]

/-- The permutes of R222 to R224 that read their sources by element number. An element not below VL reads as 0. -/
noncomputable def permuteTable (h : Hart) (c : BitVec 1) (d a x : BitVec 6) (i : BitVec 5) (j : BitVec 4) (m : BitVec 3) : List LaneRow :=
  let A := fun (e : Nat) => ({ val := if e < h.vx.vl then (h.opV a.toNat e).1 else 0, bad := decide (e < h.vx.vl) && (h.opV a.toNat e).2, fl := 0 } : ERes)
  let X := (h.code x.toNat).toNat
  let new := ({ val := X % 2 ^ h.sew, bad := false, fl := 0 } : ERes)
  let row := fun (k : Instr) (l : List Nat) (f : Nat → ERes) => ((k, need2d anyType d.toNat a.toNat h, l.map (fun e => (e, f e))) : LaneRow)
  let act := h.actives m.toNat
  let from_ := fun (k : Nat) => act.filter (fun e => k ≤ e)
  [row (.vxchVx c d a x m) act (fun e => A (e ^^^ X)), row (.vxchVi c d a j m) act (fun e => A (e ^^^ 2 ^ j.toNat)),
   row (.vslideupVx c d a x m) (from_ X) (fun e => A (e - X)), row (.vslideupVi c d a i m) (from_ i.toNat) (fun e => A (e - i.toNat)),
   row (.vslidednVx c d a x m) act (fun e => A (e + X)), row (.vslidednVi c d a i m) act (fun e => A (e + i.toNat)),
   row (.vslide1up c d a x m) act (fun e => if e = 0 then new else A (e - 1)),
   row (.vslide1dn c d a x m) act (fun e => if e + 1 = h.vx.vl then new else A (e + 1)),
   row (.vpullVx c d a x m) act (fun _ => A X),
   row (.vcompress c d a m) (List.range act.length) (fun e => A (act.getD e 0)),
   (.vpullVv c d a x m, need3d anyType d.toNat a.toNat x.toNat h, act.map (fun e =>
     (e, { A (h.opV x.toNat e).1 with bad := (A (h.opV x.toNat e).1).bad || (h.opV x.toNat e).2 })))]

/-- The fold of a reduction or a scan: the value, and whether any part was poisoned. -/
def folded (f : Nat → Nat → Nat) (x : VOpnd) (z : Nat × Bool) (l : List Nat) : Nat × Bool :=
  (l.foldl (fun p e => f p (x e).1) z.1, z.2 || l.any (fun e => (x e).2))

/-- The integer reductions (R225) to element 0 of vd, which write nothing with VL = 0. -/
noncomputable def reduceTable (h : Hart) (c : BitVec 1) (d a b : BitVec 6) (m : BitVec 3) : List LaneRow :=
  let w := h.sew
  let z := h.opV b.toNat 0
  let act := h.actives m.toNat
  let need := needRed intType d.toNat a.toNat b.toNat h
  let row := fun (i : Instr) (f : Nat → Nat → Nat) =>
    let r := folded f (h.opV a.toNat) z act
    ((i, need, if h.vx.vl = 0 then [] else [(0, { val := r.1, bad := r.2, fl := 0 })]) : LaneRow)
  let sum := act.foldl (fun p e => p + sgn (h.opV a.toNat e).1 w) (sgn z.1 w)
  let sat := saturated w (-(2 ^ (w - 1) : Nat)) ((2 ^ (w - 1) : Nat) - 1) sum
  [row (.vredsum c d a b m) (fun x y => unsg ((x : Int) + y) w), row (.vredmax c d a b m) (fun x y => if sgn x w < sgn y w then y else x),
   row (.vredmaxu c d a b m) max, row (.vredmin c d a b m) (fun x y => if sgn y w < sgn x w then y else x),
   row (.vredminu c d a b m) min, row (.vredand c d a b m) (fun x y => x &&& y), row (.vredor c d a b m) (fun x y => x ||| y),
   row (.vredxor c d a b m) (fun x y => x ^^^ y),
   (.vredsums c d a b m, need, if h.vx.vl = 0 then [] else
     [(0, { val := sat.1, bad := (folded (fun x _ => x) (h.opV a.toNat) z act).2, fl := sat.2 })])]

/-- The scans (R226): at each active element, the fold of the active elements up to it, or before it. -/
noncomputable def scanTable (h : Hart) (c : BitVec 1) (d a b : BitVec 6) (m : BitVec 3) : List LaneRow :=
  let w := h.sew
  let act := h.actives m.toNat
  let row := fun (i : Instr) (incl : Bool) (f : Nat → Nat → Nat) =>
    ((i, needScan d.toNat a.toNat b.toNat h, act.map (fun e =>
      let r := folded f (h.opV a.toNat) (h.opV b.toNat 0) (act.filter (fun j => j < e || (incl && j == e)))
      (e, { val := r.1, bad := r.2, fl := 0 }))) : LaneRow)
  let sum := fun (x y : Nat) => unsg ((x : Int) + y) w
  [row (.vscansum c d a b m) true sum, row (.vxscansum c d a b m) false sum,
   row (.vscanmax c d a b m) true (fun x y => if sgn x w < sgn y w then y else x),
   row (.vscanmin c d a b m) true (fun x y => if sgn y w < sgn x w then y else x), row (.vscanmaxu c d a b m) true max,
   row (.vscanminu c d a b m) true min]

/-- The number of set bits of ma among the active elements below an element (R228). -/
def setBelow (h : Hart) (a m : BitVec 3) (e : Nat) : Nat := ((h.actives m.toNat).filter (fun j => j < e && h.maskBit a.toNat j)).length

/-- The mask instructions that write a mask (R227, R228), with the bit of each active element. -/
noncomputable def maskTable (h : Hart) (c : BitVec 1) (d a b m : BitVec 3) : List LaneRow :=
  let A := h.maskBit a.toNat
  let B := h.maskBit b.toNat
  let n := setBelow h a m
  let row := fun (i : Instr) (f : Nat → Bool) =>
    ((i, needM d.toNat h, (h.actives m.toNat).map (fun e => (e, { val := (f e).toNat, bad := false, fl := 0 }))) : LaneRow)
  [row (.mkand c d a b m) (fun e => A e && B e), row (.mkor c d a b m) (fun e => A e || B e), row (.mkxor c d a b m) (fun e => A e != B e),
   row (.mkandn c d a b m) (fun e => A e && !B e), row (.mknot c d a m) (fun e => !A e), row (.mkfill c d m) (fun _ => true),
   row (.mkspreadI c d a m) (fun e => n e != 0 || A e), row (.mkspreadX c d a m) (fun e => n e != 0),
   row (.mkparity c d a m) (fun e => (n e % 2 == 1) != A e), row (.mkfirst c d a m) (fun e => n e == 0 && A e)]

/-- The element-wise instructions of majors 0x30 and 0x31 that write vector registers (R233, R234), with the bits and flags of their
results in the current format under RM. -/
noncomputable def floatTable (h : Hart) (c : BitVec 1) (d a b : BitVec 6) (m : BitVec 3) : List LaneRow :=
  let f := h.fmt
  let rm := h.vrm
  let vv := fun (i : Instr) (g : Nat → Nat → Nat × Nat) =>
    ((i, need3 floatType d.toNat a.toNat b.toNat h, h.results m.toNat (bin g (h.opV a.toNat) (h.opV b.toNat))) : LaneRow)
  let vx := fun (i : Instr) (g : Nat → Nat → Nat × Nat) =>
    ((i, need2 floatType d.toNat a.toNat h, h.results m.toNat (bin g (h.opV a.toNat) (h.opX b.toNat))) : LaneRow)
  let one := fun (i : Instr) (g : Nat → Nat × Nat) =>
    ((i, need2 floatType d.toNat a.toNat h, h.results m.toNat (bin (fun x _ => g x) (h.opV a.toNat) (opC 0))) : LaneRow)
  let mac := fun (i : Instr) (n : Need) (y : VOpnd) (g : Nat → Nat → Nat → Nat × Nat) =>
    ((i, n, (h.actives m.toNat).map (fun e =>
      let r := g (h.opV a.toNat e).1 (y e).1 (h.opV d.toNat e).1
      (e, { val := r.1, bad := (h.opV a.toNat e).2 || (y e).2 || (h.opV d.toNat e).2, fl := r.2 }))) : LaneRow)
  let n3 := need3 floatType d.toNat a.toNat b.toNat h
  let B := h.opV b.toNat
  [vv (.vfaddVv c d a b m) (f.add rm), vx (.vfaddVx c d a b m) (f.add rm), vv (.vfsubVv c d a b m) (f.sub rm),
   vx (.vfsubVx c d a b m) (f.sub rm), vx (.vfrsub c d a b m) (fun x y => f.sub rm y x), vv (.vfmulVv c d a b m) (f.mul rm),
   vx (.vfmulVx c d a b m) (f.mul rm), vv (.vfdivVv c d a b m) (f.div rm), vx (.vfdivVx c d a b m) (f.div rm),
   vx (.vfrdiv c d a b m) (fun x y => f.div rm y x), one (.vfsqrt c d a m) (f.sqrt rm), vv (.vfmin c d a b m) (f.minmax false),
   vv (.vfmax c d a b m) (f.minmax true), vv (.vfsgnj c d a b m) f.sgnj, vv (.vfsgnjn c d a b m) f.sgnjn,
   vv (.vfsgnjx c d a b m) f.sgnjx, one (.vfkind c d a m) (fun x => (f.kind x, 0)),
   mac (.vfmacPpVv c d a b m) n3 B (fun x y z => f.fma rm false false x y z),
   mac (.vfmacPpVx c d a b m) (need2 floatType d.toNat a.toNat h) (h.opX b.toNat) (fun x y z => f.fma rm false false x y z),
   mac (.vfmacNn c d a b m) n3 B (fun x y z => f.fma rm true true x y z), mac (.vfmacPn c d a b m) n3 B (fun x y z => f.fma rm false true x y z),
   mac (.vfmacNp c d a b m) n3 B (fun x y z => f.fma rm true false x y z), mac (.vfmad c d a b m) n3 B (fun x y z => f.fma rm false false z x y)]

/-- The floating compares (R235). -/
noncomputable def fcmpTable (h : Hart) (c : BitVec 1) (d : BitVec 3) (a b : BitVec 6) (m : BitVec 3) : List LaneRow :=
  let vv := fun (i : Instr) (k : Cmp) =>
    ((i, needM2 floatType d.toNat a.toNat b.toNat h, h.results m.toNat (cond (h.fmt.cmp k) (h.opV a.toNat) (h.opV b.toNat))) : LaneRow)
  let vx := fun (i : Instr) (k : Cmp) =>
    ((i, needM1 floatType d.toNat a.toNat h, h.results m.toNat (cond (h.fmt.cmp k) (h.opV a.toNat) (h.opX b.toNat))) : LaneRow)
  [vv (.vfcmpEqVv c d a b m) .eq, vx (.vfcmpEqVx c d a b m) .eq, vv (.vfcmpLtVv c d a b m) .lt, vx (.vfcmpLtVx c d a b m) .lt,
   vv (.vfcmpLe c d a b m) .le, vx (.vfcmpGt c d a b m) .gt, vx (.vfcmpGe c d a b m) .ge, vv (.vfcmpNe c d a b m) .ne,
   vv (.vfcmpUn c d a b m) .un]

/-- The conversions of major 0x32 (R238, R240): a value of the source type, rounded once into the current type. -/
noncomputable def convertTable (h : Hart) (c : BitVec 1) (d a x : BitVec 6) (y z m : BitVec 3) : List LaneRow :=
  let t := h.vx.vtype
  let row := fun (i : Instr) (uns rtz : Bool) =>
    ((i, needCvt d.toNat a.toNat y z uns rtz h, (h.actives m.toNat).map (fun e =>
      let v := h.el (widthOf z) a.toNat e
      let r := if y = t.ty && z = t.sw then (v.1, 0)
        else intoType t.ty t.sw uns (if rtz then 1 else h.vrm) h.vscale (typedVal y z uns h.vscale v.1)
      (e, { val := r.1, bad := v.2, fl := r.2 }))) : LaneRow)
  [row (.vfcvt c d a y z m) false false, row (.vfcvtU c d a y z m) true false, row (.vfcvtRtz c d a y z m) false true,
   row (.vfcvtURtz c d a y z m) true true,
   (.vdrescale c d a x m, need2 (fun ty _ => ty == 3) d.toNat a.toNat h, (h.actives m.toNat).map (fun e =>
     let v := h.opV a.toNat e
     let r := dcode (dval v.1 (h.sew - 1) (sgn (h.code x.toNat).toNat 8)) (h.sew - 1) h.vscale
     (e, { val := r.1, bad := v.2, fl := r.2 })))]

/-- A sum or an extreme in ascending order from a start value, with its flags (R241). -/
def ordered (f : Nat → Nat → Nat × Nat) (z : Nat) (l : List Nat) : Nat × Nat :=
  l.foldl (fun p x => ((f p.1 x).1, flOr p.2 (f p.1 x).2)) (z, 0)

/-- The floating reductions (R206, R241) to element 0 of vd, which write nothing with VL = 0. -/
noncomputable def fsumTable (h : Hart) (c : BitVec 1) (d a b : BitVec 6) (m : BitVec 3) : List LaneRow :=
  let z := h.opV b.toNat 0
  let act := (h.actives m.toNat).map (fun e => (h.opV a.toNat e).1)
  let row := fun (i : Instr) (r : Nat × Nat) =>
    ((i, needRed floatType d.toNat a.toNat b.toNat h, if h.vx.vl = 0 then [] else
      [(0, { val := r.1, bad := z.2 || (h.actives m.toNat).any (fun e => (h.opV a.toNat e).2), fl := r.2 })]) : LaneRow)
  let spots := (List.range h.vx.vl).map (fun e => if h.active m.toNat e then some (h.opV a.toNat e).1 else none)
  [row (.vfsumO c d a b m) (ordered (h.fmt.add h.vrm) z.1 act), row (.vfredmax c d a b m) (ordered (h.fmt.minmax true) z.1 act),
   row (.vfredmin c d a b m) (ordered (h.fmt.minmax false) z.1 act), row (.vfsumT c d a b m) (treeTotal (h.fmt.add h.vrm) z.1 spots)]

/-- A result of an exact rational, or ND with the flag QN for a divisor that p divides (R252). -/
def ratRes (r : Option Nat) : Nat × Nat :=
  match r with
  | some x => (x, 0)
  | none => (qND, flQN)

/-- The instructions of majors 0x34 and 0x35 that write one group of residues (R252-R258): ND spreads from every operand used. -/
noncomputable def ratTable (h : Hart) (c : BitVec 1) (d a b : BitVec 6) (i : BitVec 5) (m : BitVec 3) : List LaneRow :=
  let q := h.qent
  let M := q.m
  let red := fun (x : Nat) => if x = qND then qND else x % M
  let two := fun (f : Nat → Nat → Option Nat) (x y : Nat) =>
    if red x = qND ∨ red y = qND then (qND, 0) else ratRes (f (red x) (red y))
  let one := fun (f : Nat → Option Nat) (x : Nat) => if red x = qND then (qND, 0) else ratRes (f (red x))
  let A := h.opV a.toNat
  let vv := fun (j : Instr) (f : Nat → Nat → Option Nat) =>
    ((j, need3 qType d.toNat a.toNat b.toNat h, h.results m.toNat (bin (two f) A (h.opV b.toNat))) : LaneRow)
  let vx := fun (j : Instr) (f : Nat → Nat → Option Nat) =>
    ((j, need2 qType d.toNat a.toNat h, h.results m.toNat (bin (two f) A (h.opX b.toNat))) : LaneRow)
  let v1 := fun (j : Instr) (f : Nat → Option Nat) =>
    ((j, need2 qType d.toNat a.toNat h, h.results m.toNat (bin (fun x _ => one f x) A (opC 0))) : LaneRow)
  let mac := fun (j : Instr) (n : Need) (y : VOpnd) =>
    ((j, n, (h.actives m.toNat).map (fun e =>
      let z := h.opV d.toNat e
      let r := if red (A e).1 = qND ∨ red (y e).1 = qND ∨ red z.1 = qND then qND else (red (A e).1 * red (y e).1 + red z.1) % M
      (e, { val := r, bad := (A e).2 || (y e).2 || z.2, fl := 0 }))) : LaneRow)
  let enc := fun (x y : Nat) => ratRes ((q.inv (sgn y 64 % (M : Int)).toNat).map (fun z => (sgn x 64 % (M : Int)).toNat * z % M))
  let divide := fun (x y : Nat) => (q.inv y).map (fun z => x * z % M)
  let n3 := need3 qType d.toNat a.toNat b.toNat h
  let n2 := need2 qType d.toNat a.toNat h
  let digit := fun (j x : Nat) => some (if q.k ≤ j then 0 else x / q.p ^ j % q.p)
  [vv (.vqaddVv c d a b m) (fun x y => some ((x + y) % M)), vx (.vqaddVx c d a b m) (fun x y => some ((x + y) % M)),
   vv (.vqsubVv c d a b m) (fun x y => some ((x + M - y) % M)), vx (.vqsubVx c d a b m) (fun x y => some ((x + M - y) % M)),
   vx (.vqrsub c d a b m) (fun x y => some ((y + M - x) % M)), vv (.vqmulVv c d a b m) (fun x y => some (x * y % M)),
   vx (.vqmulVx c d a b m) (fun x y => some (x * y % M)), vv (.vqdivVv c d a b m) divide, vx (.vqdivVx c d a b m) divide,
   vx (.vqrdiv c d a b m) (fun x y => divide y x), v1 (.vqneg c d a m) (fun x => some ((M - x) % M)), v1 (.vqinv c d a m) q.inv,
   mac (.vqmaccVv c d a b m) n3 (h.opV b.toNat), mac (.vqmaccVx c d a b m) n2 (h.opX b.toNat),
   (.vqencVv c d a b m, n3, h.results m.toNat (bin enc A (h.opV b.toNat))), (.vqencVx c d a b m, n2, h.results m.toNat (bin enc A (h.opX b.toNat))),
   (.vqencVi c d a i m, n2, h.results m.toNat (bin enc A (opC i.toNat))), v1 (.vqdigVx c d a b m) (digit (h.code b.toNat).toNat),
   v1 (.vqdigVi c d a i m) (digit i.toNat), v1 (.vqval c d a m) (fun x => some (q.valuation x))]

/-- `vqeq` (R254): ND equals ND and no residue. -/
noncomputable def ratEqTable (h : Hart) (c : BitVec 1) (d : BitVec 3) (a b : BitVec 6) (m : BitVec 3) : List LaneRow :=
  let red := fun (x : Nat) => if x = qND then qND else x % h.qent.m
  let eq := cond (fun x y => (decide (red x = red y), 0)) (h.opV a.toNat)
  [(.vqeqVv c d a b m, needM2 qType d.toNat a.toNat b.toNat h, h.results m.toNat (eq (h.opV b.toNat))),
   (.vqeqVx c d a b m, needM1 qType d.toNat a.toNat h, h.results m.toNat (eq (h.opX b.toNat)))]

/-- The results of `vrand` (R242): from the counter plus the element number. -/
def randResults (h : Hart) (m : BitVec 3) : List (Nat × ERes) :=
  (h.actives m.toNat).map (fun e => (e, { val := (h.vx.randWord (h.vx.rngc + word e)).toNat % 2 ^ h.sew, bad := false, fl := 0 }))

/-- One part of the results of `vqdec` (R257): numerators with flags, or denominators. -/
def decResults (h : Hart) (a : BitVec 6) (m : BitVec 3) (den : Bool) : List (Nat × ERes) :=
  (h.actives m.toNat).map (fun e =>
    let r := h.qent.decode (h.opV a.toNat e).1
    (e, { val := if den then r.2.1 else r.1, bad := (h.opV a.toNat e).2, fl := r.2.2 }))

/-- The words that write a scalar-side register from vector or mask state (R224, R228), with their issue checks, their values, and
whether what they read is poisoned. -/
noncomputable def codeTable (h : Hart) (c : BitVec 1) (d : BitVec 4) (a x : BitVec 6) (k m : BitVec 3) : List (Instr × Need × Word × Bool) :=
  let ones := (h.actives m.toNat).filter (h.maskBit k.toNat)
  let none_ : Nat := 2 ^ 64 - 1
  let i := (h.code x.toNat).toNat
  let v := if i < h.vx.vl then h.opV a.toNat i else (0, false)
  [(.mkcount c d k m, needNone h, word ones.length, false), (.mkfind c d k m, needNone h, word (ones.headD none_), false),
   (.mkfindL c d k m, needNone h, word (ones.getLastD none_), false), (.vextr c d a x, needCode a.toNat h, word v.1, v.2)]

/-- The sequencer operations (R317), with their results. -/
noncomputable def seqTable (h : Hart) (c : BitVec 1) (d : BitVec 4) (a b i : BitVec 6) (j : BitVec 12) : List (Instr × Word) :=
  let x := h.code a.toNat
  let y := h.code b.toNat
  [(.sadd c d a b, x + y), (.ssub c d a b, x - y), (.sand c d a b, x &&& y), (.sor c d a b, x ||| y), (.sxor c d a b, x ^^^ y),
   (.ssll c d a b, x <<< (y.toNat % 64)), (.ssrl c d a b, x >>> (y.toNat % 64)), (.smul c d a b, x * y),
   (.sminu c d a b, if x.toNat ≤ y.toNat then x else y), (.smaxu c d a b, if x.toNat ≤ y.toNat then y else x),
   (.saddi c d a i, x + i.signExtend 64), (.sli c d j, j.signExtend 64)]

/-- The control registers that the vector side reads (R318), with their values. -/
def vcfgTable (s : State) : List (Nat × Word) :=
  let h := s.h
  let run := fun (f : Block → Word) (x : Word) => (h.run.map f).getD x
  [(0x000, word h.vx.vl), (0x001, h.vx.vtype.word), (0x002, h.vcfgWord), (0x003, h.ecut), (0x010, run (fun b => orFlags b.fxf b.flags) h.fxf),
   (0x011, qcfgWord (run (fun b => b.qcfg) h.qcfg)), (0x012, run (fun b => b.dscale) h.dscale), (0x022, word s.gtb), (0x030, word h.hid),
   (0x070, Tab.get 0 h.vx.rngk 0), (0x071, Tab.get 0 h.vx.rngk 1), (0x072, Tab.get 0 h.vx.rngk 2), (0x073, Tab.get 0 h.vx.rngk 3),
   (0x074, h.vx.rngc)]

/-- The longest vector that VSETL grants (R184): VLMAX, and what the lanes allowed by the power controller hold. -/
def longest (h : Hart) (g : BitVec 2) (sw : BitVec 3) : Nat :=
  let vlmax := min (2 ^ g.toNat * h.maxvl (widthOf sw)) 65536
  if h.lp < h.lanes then min vlmax (h.lp * 1024 / widthOf sw) else vlmax

/-- A hart after VSETL grants a length. -/
def granted (h : Hart) (d : BitVec 4) (g : BitVec 2) (y sw : BitVec 3) (vl : Nat) : Hart :=
  { h with vx := { h.vx with vl := vl, vtype := { vill := false, g := g, ty := y, sw := sw }, sc := Tab.set 0 h.vx.sc d.toNat (word vl) } }

/-- The vector loads of R151 to R153, with their issue checks, element addresses, bit offsets and tiles (R155, R157), and whether they are
fault-only-first. -/
noncomputable def vloadTable (h : Hart) (c : BitVec 1) (v : BitVec 6) (b : BitVec 5) (k : BitVec 6) (t : BitVec 4) (m : BitVec 3) (hh : BitVec 1)
    (w : BitVec 2) (sc : BitVec 1) : List (Instr × Need × Walker × Word × Option Nat × Bool) :=
  let B := h.code b.toNat
  let K := h.code k.toNat
  [(.vld c v b m hh, needLoad anyType v.toNat h, unitWalk h B 0, 0, none, false),
   (.vldBo c v b k m hh, needLoad subType v.toNat h, unitWalk h B K.toNat, K, none, false),
   (.vldS c v b k m hh, needLoad byteType v.toNat h, stridedWalk B K, 0, none, false),
   (.vldT c v b t m hh, needLoad anyType v.toNat h, tileWalk h B t.toNat, 0, some t.toNat, false),
   (.vldFf c v b m hh, needLoad anyType v.toNat h, unitWalk h B 0, 0, none, true),
   (.vldFfBo c v b k m hh, needLoad subType v.toNat h, unitWalk h B K.toNat, K, none, true),
   (.vldx c v b k m w sc, needIndexed byteType v.toNat k.toNat w.toNat h, indexWalk h B k.toNat w.toNat sc, 0, none, false)]

/-- The vector stores of R151 to R153, in the same way. -/
noncomputable def vstoreTable (h : Hart) (c : BitVec 1) (v : BitVec 6) (b : BitVec 5) (k : BitVec 6) (t : BitVec 4) (m : BitVec 3) (hh : BitVec 1)
    (w : BitVec 2) (sc : BitVec 1) : List (Instr × Need × Walker × Word × Option Nat) :=
  let B := h.code b.toNat
  let K := h.code k.toNat
  [(.vst c v b m hh, needStore anyType v.toNat h, unitWalk h B 0, 0, none),
   (.vstBo c v b k m hh, needStore subType v.toNat h, unitWalk h B K.toNat, K, none),
   (.vstS c v b k m hh, needStore byteType v.toNat h, stridedWalk B K, 0, none),
   (.vstT c v b t m hh, needStore anyType v.toNat h, tileWalk h B t.toNat, 0, some t.toNat),
   (.vstx c v b k m w sc, needIndexedStore k.toNat w.toNat v.toNat h, indexWalk h B k.toNat w.toNat sc, 0, none)]

/-- The operations at the Comb banks (R126, R127). -/
noncomputable def vbopTable (c : BitVec 1) (v : BitVec 6) (b : BitVec 5) (i : BitVec 6) (m : BitVec 3) (p : BitVec 2) : List (Instr × AmoOp) :=
  [(.vbopAdd c v b i m p, .add), (.vbopAnd c v b i m p, .and), (.vbopOr c v b i m p, .or), (.vbopXor c v b i m p, .xor),
   (.vbopSmin c v b i m p, .smin), (.vbopSmax c v b i m p, .smax), (.vbopFadd c v b i m p, .fadd), (.vbopQadd c v b i m p, .qadd)]

/-- A vector memory word may begin its elements: its issue checks pass, its bit offset is below 8, its tile is READY, no element is
watched by a breakpoint and no recheck is queued. -/
def MemReady (s : State) (n : Need) (off : Word) (tile : Option Nat) : Prop :=
  s.h.issueOk n = true ∧ off.toNat < 8 ∧ (∀ t, tile = some t → (s.tile s.h.core t).st = 2) ∧ (s.core s.h.core).recheck = [] ∧
    s.breakpoints 2 s.h.vaddr = []

/-- The state in which the elements of a vector memory word begin: its wait for a tile is over. -/
def Started (s : State) (tile : Option Nat) : State :=
  match tile with
  | some t => s.setH (fun h => h.waitedFor (partyWord 2 t))
  | none => s

/-- A vector memory word has completed over a state u in which its elements are done: the next word follows, and nothing else of the
machine has changed since. -/
def MemDone (s u t : State) (vx : VCtx) : Prop :=
  t.h = { u.h with vx := vx, vpc := s.h.vaddr + 4, conv := s.h.conv.tail, cut := 0, votes := [], owed := false, app := none, viw := none,
                   again := false, passV := [] } ∧ OnlyHart u t

/-- A vector memory word has stopped at an element with a trap: ECUT is the element, and what was done before it stands. (A SPAWN in hand that
waits for its hart's enrolment meets the trap in modes S and D, R398; `VectorTraps` has that case.) -/
def MemTrapped (s u t : State) (e cause : Nat) (tval : Word) : Prop :=
  s.h.mode = .a ∨ s.h.begun = none → (∃ r, t.h.stop = some { cause := cause, tval := tval, tepc := s.h.vaddr, frec := r }) ∧ t.h.ecut = word e ∧ t.h.vx = u.h.vx ∧
    t.h.conv = [] ∧ t.h.x = s.h.x ∧ t.h.pc = s.h.pc

/-- A hart is in an explicit wait whose outcome is not decided. -/
def WaitsIn (s : State) (hid : Nat) (h : Hart) (w : Wait) : Prop :=
  s.hart hid = some h ∧ h.live = true ∧ h.wait = some w ∧ w.ans = none

/-- No die has decided the outcome of a hart's wait and keeps it (R331, R332). -/
def Undecided (s : State) (hid : Nat) (w : Wait) : Prop := ∀ r ∈ s.slow, r.hid = hid → r.tick ≠ w.issued

/-- The die that decides a wait answers at once (R27). -/
def AnswersNow (s : State) (w : Wait) : Prop := ∀ d, w.kind.decidedAt = some d → (s.die d).late = 0

/-- What a hart has become when its wait received the outcome v (R277, R289): a bound hart holds it in the destination and goes on at the
following word; an unbound one keeps it until it is next bound. Nothing else of it changes. -/
def Received (time : Nat) (h : Hart) (w : Wait) (v : Word) (k : Hart) : Prop :=
  if h.slot.isSome then
    k.wait = none ∧ k.pc = h.pc + 4 ∧ k.wd = 0 ∧ (∀ r, k.xr r = if r = w.dst ∧ r ≠ 0 then v else h.xr r) ∧
      { k with wait := h.wait, pc := h.pc, wd := h.wd, x := h.x } = h
  else
    k.wait = some { w with ans := some v } ∧ k.readyAt = time ∧ { k with wait := h.wait, readyAt := h.readyAt } = h

/-- One hart has received the outcome of its wait, and every other hart is as it was. -/
def Answered (s t : State) (hid : Nat) (h : Hart) (w : Wait) (v : Word) : Prop :=
  (∃ k, t.hart hid = some k ∧ Received s.gtb h w v k) ∧ ∀ n, n ≠ hid → t.hart n = s.hart n

/-- Nothing changed but harts and the counters of tenants. -/
def OnlyHarts (s t : State) : Prop := { t with h := s.h, pool := s.pool, tenants := s.tenants } = s

/-- Nothing changed but the blocks of tenants. -/
def OnlyTenants (s t : State) : Prop := { t with tenants := s.tenants } = s

/-- The ends of explicit waits that no bank decides: the event, whether the hart waits for it, and the outcome (R147, R150, R307, R308, R359). The
hart's own die judges them, but `ewait`, which its engine's die does (R331); LINES 0 in the outcome of `ewait` is log entry 18. -/
noncomputable def expiryTable (s : State) (h : Hart) (hid : Nat) (k : WaitKind) : List (Instr × Bool × Word) :=
  [(.rqpopExpiry hid, k.isRqpop, 1), (.napExpiry hid, k.isNap, 0), (.ewaitExpiry hid, k.isEwait, 0xFFF00001#64),
   (.vsyncExpiry hid, k.isVsync, word ((h.outstanding.headD 0).toNat * 2 ^ 40 + 1)),
   (.twaitExpiry hid, k.isTwait, word ((match k with | .twait n => (s.tile h.core n).st | _ => 0) * 2 ^ 32 + 1))]

/-- The events that change registers of the hub alone: the event, the condition under which it is taken, and the hub after it (R23, R76,
R449, R454). -/
noncomputable def hubTable (s : State) (v : Word) : List (Instr × Bool × Hub) :=
  let b := s.hub
  [(.ptpLockLoss, true, { b with lock := false, loss := true }), (.ptpLockAcquire, true, { b with lock := true }),
   (.hchipWrite v, b.phase == 6, { b with hchip := bits v.toNat 0 16 }), (.zreqComplete, true, { b with zreqBusy := false })]

/-- The hub after the close of negotiation (R449, R450). -/
def negotiated (b : Hub) : Hub := { b with phase := 7, feat0 := if b.featSet then b.feat0 else 0 }

/-- A location that a start leaves as it is: in a warm start, one of a region of the near tier whose clean bit reads 1 (R75, R448). -/
def Kept (s : State) (cold : Bool) (loc : Nat) : Prop := cold = false ∧ loc < 2 ^ 40 ∧ bit s.hub.cleanBits (loc / 2 ^ 30) = true

/-- A legal FTMAP value (R64): at most 16 slots, as many bits of PSET as LOGN says, and a capacity of 1 to 1024. -/
def ftmapLegal (x : Nat) : Prop := x % 8 ≤ 4 ∧ popcount 16 (bits x 48 16) = 2 ^ (x % 8) ∧ 1 ≤ bits x 32 11 ∧ bits x 32 11 ≤ 1024

/-- The boot hart of an image (R291). -/
def BootHart (s : State) (tag hid core : Nat) (i : Image) (k : Hart) : Prop :=
  k.live = true ∧ k.hid = hid ∧ k.tid = tag ∧ k.core = core ∧ k.mode = (if tag = 0 then .d else .s) ∧ k.pc = word i.entry ∧ k.cls = i.prio ∧
    k.maxwait = (s.tenant tag).bootMaxw ∧ k.slot = none

/-- The quotas of a TENCFG word (R410). -/
def quotasOf (x : Nat) (t : Tenant) : Tenant :=
  { t with combq := bits x 32 22, cpyq := bits x 24 8, cmpq := bits x 16 5, colq := bits x 8 5 }

/-- The patrol scrubs: the event, whether what it names is a sector of the near tier or a word of the Comb, its unit, and the die that counts
what it corrects (R72, R74, R99). -/
noncomputable def scrubTable (sector off : Nat) : List (Instr × Bool × Nat × Nat) :=
  [(.patrolScrub sector, decide (32 * sector < 2 ^ 40), 32 * sector, homeDie (32 * sector)),
   (.combPatrolScrub off, decide (off < 2 ^ 28), locComb (off / 8 * 8), (combHome (off / 8 * 8)).1)]

/-- The removals of a valid bind record (R381, R382, R384, R386): the event, whether it removes the record, and the record after it. -/
noncomputable def unbindTable (s : State) (h : Hart) (core slot : Nat) (d0 : Word) (host : Bool) : List (Instr × Bool × Bind) :=
  let b := s.bind core slot
  [(.bindRecordRemove core slot host, host == bit s.hub.split 1, b.removed),
   (.bindRecordSubmit core slot d0 host, host == bit s.hub.split 1 && !bit d0.toNat 63 && decide (slot < 8),
     b.removed.fields d0.toNat b.err b.tick false),
   (.apiaryWaitingRemoval core slot, !bit s.hub.split 1 && s.waitsTooLong h, b.removed),
   (.quantumEnd core slot, b.quantumDue s.gtb, b.removed)]

/-- The frames with their kinds and what each does once it is admitted (R461). -/
noncomputable def frameTable (fr : Frame) : List (Instr × Nat) :=
  [(.fabricPut fr, 1), (.fabricGet fr, 2), (.fabricGetResponse fr, 3), (.fabricChannelSend fr, 4), (.fabricSwarmArrival fr, 5),
   (.fabricSwarmResult fr, 6), (.fabricCollectiveData fr, 7), (.fabricCreditReturn fr, 8), (.fabricTrigger fr, 9)]

/-- A frame is admitted as one of a kind, and its incarnation is the one held for its sender (R26, R461). -/
def Admitted (s : State) (kind : Nat) (fr : Frame) : Prop := s.frameOk kind fr = true ∧ s.frameFresh fr = true

/-- A channel has no request waiting and a free slot, and takes messages of any hart or, for the host, of the host (R340, R356, R357). -/
def FreeSlot (s : State) (off tag pkind : Nat) (o : Obj) (b : Chan) : Prop :=
  s.chan off = some (o, b) ∧ o.tag = tag ∧ b.pkind = pkind ∧ b.senders = [] ∧ b.receivers = [] ∧ (b.tail - b.head).toNat < b.nslot

/-- The state in which a host send has been logged and is pending, with its deadline (R446, R457). -/
def hostPending (s : State) (tag : Nat) : State :=
  let x := s.tenant tag
  (s.logArrival tag (hostEntry 33 tag x.hsch.toNat (leBytes 8 x.hsmsg.toNat ++ leBytes 8 x.hsdl.toNat))).setTenant tag (fun t =>
    { t with hsres := 0xFF, hsDead := min gtbEnd (s.gtb + x.hsdl.toNat) })

/-- A plough's read of a leaf entry finds no error and its key (R72, R78). -/
def LeafReads (s : State) (ent : Nat) : Prop := s.hasMemory ent = true → s.ecc = [] ∧ s.hasKey (s.tableTag ent) = true

/-- Nothing is pending: no access from outside is held up, no die owes an answer, no command waits for a slot, no hart waits or is being created,
and no message waits for its receiver's lines. -/
def Quiet (s : State) : Prop :=
  s.held = [] ∧ s.slow = [] ∧ s.flying = [] ∧ (∀ e ∈ s.engines, e.2.pend = []) ∧
    (∀ h ∈ s.harts, h.created = false ∧ h.wait = none ∧ h.iw = none ∧ h.viw = none) ∧
    ∀ e ∈ s.objs, ∀ o b, e.2 = some o → o.body = .chan b → b.receiver = none

/-- The words of the tests of R29 to R40 and of the chapters that own the majors, each with its instruction. -/
noncomputable def wordTable : List (BitVec 32 × Instr) :=
  [(0x04642800#32, .add 3 4 5), (0x04642801#32, .sub 3 4 5), (0x054B6019#32, .quoU 10 11 12), (0x08A6FFFF#32, .addi 5 6 0xFFFF),
   (0x1CA6FFFF#32, .sltiu 5 6 0xFFFF), (0x20C7803F#32, .srai 6 7 63), (0x24A51234#32, .lhi 5 5 0x1234), (0x28E26010#32, .ldD 7 2 16),
   (0x2CA35FFC#32, .stW 5 3 0x1FFC), (0x3064485C#32, .amoCas 3 4 9 0 3 4), (0x34640401#32, .fcvtIRtz 3 4 0),
   (0x38A63FFE#32, .bne 5 6 0x1FFE), (0x3C200008#32, .jal 1 8), (0x452A0120#32, .spcastChk 9 10 2), (0x48740000#32, .vrun 3 20),
   (0x50A63B40#32, .acq 5 6 7 1), (0x54A63901#32, .ecopyTfill 5 6 7 0), (0x5C061020#32, .cfgwr 6 0x020), (0x6005302A#32, .tmark 5 0x02A),
   (0x64640200#32, .cregFind 3 4), (0x82404120#32, .vsetl 1 8 2 0 1 2), (0x8A404020#32, .vld 1 8 1 1 0),
   (0x96490A78#32, .vstApp 1 9 4 2 3 0), (0xA24A0017#32, .vbopQadd 1 9 8 0 0 2), (0xA61882A0#32, .vaddVv 1 3 4 5 2),
   (0xAE104185#32, .vsraVi 1 2 2 3 0), (0xB640863A#32, .vpush 1 8 4 12 3), (0xBA090000#32, .vredsum 1 1 8 0 0),
   (0xBE50600A#32, .mkcount 1 10 3 0), (0xC2108310#32, .vfaddVv 1 2 4 6 1), (0xC6108288#32, .vfcmpLtVv 1 2 4 5 0),
   (0xCA10C5B2#32, .vfcvtRtz 1 2 6 1 3 3), (0xCE090020#32, .vfsumO 1 1 8 0 2), (0xD2182117#32, .vqdivVv 1 3 1 2 1),
   (0xD6288105#32, .vqdigVi 1 5 4 2 0), (0xDA203DFB#32, .mmrow 1 4 1 3 2 31 11), (0xDE008804#32, .mwld 1 4 1 4), (0xE2420104#32, .vmvR 1 8 16 2)]

end Sys2Proof.Claims

open Sys2Proof Sys2Proof.Machine Sys2Proof.Claims

/-- Every XOP instruction completes with the value of R292 and R293 in xd, whatever registers it names.
Every immediate instruction completes with the value of R294 and R295 in xd. -/
def Obligations.XopResults : Prop :=
  (∀ (s : State) (d a b : BitVec 5), ∀ e ∈ xopTable d a b (s.xr a) (s.xr b), ∃ t, exec e.1 s = .next t ∧ ResultX s t d e.2) ∧
  (∀ (s : State) (d a : BitVec 5) (i : BitVec 16) (n : BitVec 6), ∀ e ∈ immTable d a i n (s.xr a),
    ∃ t, exec e.1 s = .next t ∧ ResultX s t d e.2)

/-- A branch goes to the address of the branch plus four times its signed offset if its condition holds, else to the next word; its word
is laid out in format S-B with major 0x0E, and the conditions 6 and 7 are reserved and make ILLOP of their words. -/
def Obligations.BranchResults : Prop :=
  (∀ (s : State) (a b : BitVec 5) (o : BitVec 13), ∀ e ∈ branchTable a b o (s.xr a) (s.xr b),
    ∃ t, exec e.1 s = .next t ∧ WentTo s t (if e.2 then s.h.pc + 4 * o.signExtend 64 else s.h.pc + 4)) ∧
  (∀ (a b : BitVec 5) (o : BitVec 13),
    ∀ e ∈ [(Instr.beq a b o, 0#3), (.bne a b o, 1#3), (.blt a b o, 2#3), (.bge a b o, 3#3), (.bltu a b o, 4#3), (.bgeu a b o, 5#3)],
      encode e.1 = some (0x0E#6 ++ a ++ b ++ e.2 ++ o)) ∧
  ∀ w : IWord, (w.extractLsb' 26 6).toNat = 0x0E → 6 ≤ (w.extractLsb' 13 3).toNat → wordFate false w = some .illop

/-- `jal` goes to its target, and `jalr` to one that is a multiple of 4; both write the address of the following word into xd.
`jalr` to a target that is not a multiple of 4 takes the trap ALIGN with the target in TVAL, and xd is unchanged. -/
def Obligations.JumpResults : Prop :=
  (∀ (s : State) (d a : BitVec 5) (o : BitVec 21) (i : BitVec 16),
    (∃ t, exec (.jal d o) s = .next t ∧ WroteX t d (s.h.pc + 4) ∧ OtherX s t d ∧ t.h.pc = s.h.pc + 4 * o.signExtend 64 ∧
      OnlyX s.h t.h ∧ OnlyHart s t ∧ SameBytes s t) ∧
    ((s.xr a + i.signExtend 64).toNat % 4 = 0 →
      ∃ t, exec (.jalr d a i) s = .next t ∧ WroteX t d (s.h.pc + 4) ∧ OtherX s t d ∧ t.h.pc = s.xr a + i.signExtend 64 ∧
        OnlyX s.h t.h ∧ OnlyHart s t ∧ SameBytes s t)) ∧
  (∀ (s : State) (d a : BitVec 5) (i : BitVec 16), (s.xr a + i.signExtend 64).toNat % 4 ≠ 0 → s.handlerOk cALIGN = true →
    ∃ t, exec (.jalr d a i) s = .next t ∧ Entered s.h t.h cALIGN (s.xr a + i.signExtend 64) s.h.pc false ∧
      ∀ r : BitVec 5, t.xr r = s.xr r)

/-- `sptest` writes the window code of x[xa]; the three forms of `spcast` write their values when their conditions hold. -/
def Obligations.SpaceResults : Prop :=
  ∀ (s : State) (d a : BitVec 5) (w : BitVec 2),
    (∃ t, exec (.sptest d a) s = .next t ∧ ResultX s t d (word (window (s.xr a)))) ∧
    (window (s.xr a) = w.toNat → ∃ t, exec (.spcastChk d a w) s = .next t ∧ ResultX s t d (s.xr a)) ∧
    ((s.xr a).toNat < 2 ^ offsetWidth w → ∃ t, exec (.spcastMk d a w) s = .next t ∧ ResultX s t d (s.h.makePointer w (s.xr a))) ∧
    (window (s.xr a) = w.toNat →
      ∃ t, exec (.spcastOff d a w) s = .next t ∧ ResultX s t d (word ((s.xr a).toNat % 2 ^ offsetWidth w)))

/-- A load whose access passes its checks and whose bytes read unpoisoned completes with their value in xd; memory is unchanged, but for the
record of an error that the read finds. -/
def Obligations.LoadResults : Prop :=
  ∀ (s s1 s2 : State) (d a : BitVec 5) (o : BitVec 13) (pl : Place) (v : Nat), ∀ e ∈ loadTable d a o,
    s.access s.h.actor .load (s.xr a + o.signExtend 64) e.2.1 e.2.1 = (s1, .ok pl) →
    s1.readAt s.h.actor pl e.2.1 = (s2, v, false) →
    ∃ t, exec e.1 s = .next t ∧
      WroteX t d (if e.2.2 then BitVec.ofInt 64 (sgn v (8 * e.2.1)) else word v) ∧ v = t.numFor s.h.tid pl.loc e.2.1 ∧ OtherX s t d ∧
      t.h.pc = s.h.pc + 4 ∧ OnlyX s.h t.h ∧ OnlyHart s2 t ∧ SameMemory s t

/-- A store to a place outside the Comb whose access passes its checks, by a tenant whose key is installed, writes the low bytes of
x[xd], lowest first, and no register changes. Every other byte is as the dirty-page log and the key of the written sectors leave it: where no log is
kept and no other tag's key is met, as it was. -/
def Obligations.StoreResults : Prop :=
  ∀ (s s1 : State) (d a : BitVec 5) (o : BitVec 13) (pl : Place), ∀ e ∈ storeTable d a o,
    s.access s.h.actor .store (s.xr a + o.signExtend 64) e.2 e.2 = (s1, .ok pl) → pl.reg = none → s1.hasKey s.h.tid = true →
    ∃ t, exec e.1 s = .next t ∧ t.h.pc = s.h.pc + 4 ∧ (∀ r : BitVec 5, t.xr r = s.xr r) ∧ OnlyX s.h t.h ∧
      (∀ i < e.2, t.byteAt (pl.loc + i) = BitVec.ofNat 8 ((s.xr d).toNat / 256 ^ i)) ∧
      ∀ x, x < pl.loc ∨ pl.loc + e.2 ≤ x → t.byteAt x = (BesideWrite (s1.markLine pl) s.h.tid pl.loc e.2).byteAt x ∧
        (PlainWrite s1 s.h.tid pl.loc e.2 → t.byteAt x = s1.byteAt x ∧ (inMcRing x = false → t.byteAt x = s.byteAt x))

/-- The checks of a scalar load or store in order: an invalid pointer raises SPACE, then a private or scratchpad pointer of another
hart or core raises FOREIGN, then a misaligned one ALIGN; TVAL is the pointer, and nothing else changes. -/
def Obligations.AccessOrder : Prop :=
  ∀ (s : State) (d a : BitVec 5) (o : BitVec 13),
    let p := s.xr a + o.signExtend 64
    ∀ e ∈ (loadTable d a o).map (fun e => (e.1, e.2.1)) ++ storeTable d a o,
      (window p = 15 → exec e.1 s = .next (s.trap cSPACE p)) ∧
      (window p = 1 ∧ bits p.toNat 40 16 ≠ s.h.hid ∨ window p = 2 ∧ bits p.toNat 40 8 ≠ s.h.core →
        exec e.1 s = .next (s.trap cFOREIGN p)) ∧
      (window p ≠ 15 ∧ ¬(window p = 1 ∧ bits p.toNat 40 16 ≠ s.h.hid) ∧ ¬(window p = 2 ∧ bits p.toNat 40 8 ≠ s.h.core) ∧
        p.toNat % e.2 ≠ 0 → exec e.1 s = .next (s.trap cALIGN p))

/-- A FOP whose flags raise no enabled exception writes its result, ORs its flags into FXF, and changes nothing else; otherwise it
takes FPE at the instruction, with the flags in TVAL, and xd and FXF are unchanged. -/
def Obligations.FopResults : Prop :=
  ∀ (s : State) (d a b : BitVec 5) (f q : BitVec 2),
    ∀ e ∈ fopTable d a b f (fopFmt f) s.rm (s.fr (fopFmt f) a) (s.fr (fopFmt f) b) (s.fr (fopFmt f) d) ++
        fcvtTable d a f q s.rm (s.fr (fopFmt f) a) (s.fr (fopFmt q) a) (s.xr a).toInt (s.xr a).toNat,
      (flTraps (fxfFen s.h.fxf) e.2.2 = false →
        ∃ t, exec e.1 s = .next t ∧ WroteX t d (word e.2.1) ∧ OtherX s t d ∧ t.h.pc = s.h.pc + 4 ∧
          t.h.fxf = orFlags s.h.fxf e.2.2 ∧ OnlyX s.h { t.h with fxf := s.h.fxf } ∧ OnlyHart s t ∧ SameBytes s t) ∧
      (flTraps (fxfFen s.h.fxf) e.2.2 = true → exec e.1 s = .next (s.trap cFPE (word (e.2.2 % 32))) ∧
        (s.handlerOk cFPE = true → ∃ t, exec e.1 s = .next t ∧ Entered s.h t.h cFPE (word (e.2.2 % 32)) s.h.pc false ∧
          t.h.fxf = s.h.fxf ∧ ∀ r : BitVec 5, t.xr r = s.xr r))

/-- An AMO whose access passes its checks and suits its target completes with the old value in xd and the new one in memory.
An AMO on a scratchpad address takes SPACE and leaves memory and registers alone. -/
def Obligations.AmoResults : Prop :=
  (∀ (s s1 u : State) (d a b : BitVec 5) (w : BitVec 1) (o : BitVec 2) (k : BitVec 3) (pl : Place) (old : Nat),
    (∀ e ∈ amoTable d a b w o k, window (s.xr a) ≠ 2 →
      s.access s.h.actor e.2.kind (s.xr a) (amoBytes w) (amoBytes w) = (s1, .ok pl) →
      s1.amoSuits e.2 (s.xr a) (amoBytes w) = true → (s1.amoNote e.2 pl (amoBytes w)).readAt s.h.actor pl (amoBytes w) = (u, old, false) →
      ∃ t, exec e.1 s = .next t ∧ AmoEffect e.2 (amoBytes w) s u t d (if e.2 = .ld then 0 else b) (s.xr a) pl old) ∧
    (∀ e ∈ amoQTable d a b o k, window (s.xr a) ≠ 2 →
      s.access s.h.actor e.2.kind (s.xr a) 8 8 = (s1, .ok pl) → s1.amoSuits e.2 (s.xr a) 8 = true →
      (s1.amoNote e.2 pl 8).readAt s.h.actor pl 8 = (u, old, false) →
      ∃ t, exec e.1 s = .next t ∧ AmoEffect e.2 8 s u t d b (s.xr a) pl old)) ∧
  (∀ (s : State) (d a b : BitVec 5) (w : BitVec 1) (o : BitVec 2) (k : BitVec 3), window (s.xr a) = 2 →
    ∀ e ∈ amoTable d a b w o k ++ amoQTable d a b o k, exec e.1 s = .next (s.trap cSPACE (s.xr a)))

/-- A fence with nothing outstanding completes and changes only the PC; `fence` and `fence.rel` with an outstanding command of the
hart wait for it, and the PC stands. -/
def Obligations.FenceResults : Prop :=
  ∀ (s : State) (k : BitVec 3),
    (∃ t, exec (.fenceAcq k) s = .next t ∧ WentTo s t (s.h.pc + 4)) ∧
    (s.fenceParty k.toNat = none → ∀ i ∈ [Instr.fence k, .fenceRel k], ∃ t, exec i s = .next t ∧ WentTo s t (s.h.pc + 4)) ∧
    (∀ p, s.fenceParty k.toNat = some p → ∀ i ∈ [Instr.fence k, .fenceRel k], exec i s = .next (s.stall p))

/-- Taking a trap (R394, R395): the trap registers, the mode and the PC change as the rule says, no other part of the hart does, but that a PAGE
of a poisoned table meets the pending event of its entry (R96), and of the rest only the count of traps and the trace ring. A PAGE that is posted to the host is taken when the host answers.
A hart without a handler that can be fetched takes no trap: it is GONE, and a KIND 11 record names the cause and the TEPC. -/
def Obligations.TrapEntry : Prop :=
  (∀ (s : State) (cause : Nat) (tval : Word), (s.setH (fun h => h.pageMet cause tval)).handlerOk cause = true →
    ¬(cause = cPAGE ∧ s.h.mode = .a ∧ bit s.hub.split 0 = true) →
    Entered s.h (s.trap cause tval).h cause tval s.h.pc false ∧ (∀ r : BitVec 5, (s.trap cause tval).xr r = s.xr r) ∧
      (s.trap cause tval).h.pagePend = (s.h.pageMet cause tval).pagePend ∧ (s.trap cause tval).h.pagePendV = (s.h.pageMet cause tval).pagePendV ∧
      OnlyHart ((s.count s.h.tid 12 1).traceHart s.h 6 cause s.h.pc tval) (s.trap cause tval)) ∧
  (∀ (s : State) (cause : Nat) (tval : Word), s.h.live = true → (s.setH (fun h => h.pageMet cause tval)).handlerOk cause = false →
    ¬(cause = cPAGE ∧ s.h.mode = .a ∧ bit s.hub.split 0 = true) →
    (s.trap cause tval).hart s.h.hid = none ∧
      ((s.hub.mchead + 2 ^ 32 - s.hub.mctail) % 2 ^ 32 < 4096 →
        (s.trap cause tval).mcRing = s.mcRing ++ [mcWords 11 s.h.die s.h.tid s.h.hid s.h.core s.h.pc s.gtb cause]))

/-- `trap` completes and then traps at the following word; `brk` traps before it takes effect; TVAL is the code. -/
def Obligations.TrapWords : Prop :=
  ∀ (s : State) (c : BitVec 12),
    (let u := (s.count s.h.tid 1 1).setH (fun h => { h.sealAll with wd := 0 })
     u.handlerOk cTRAP = true →
      ∃ t, exec (.trap c) s = .next t ∧ Entered u.h t.h cTRAP (c.zeroExtend 64) (s.h.pc + 4) false) ∧
    (s.handlerOk cBRK = true → ∃ t, exec (.brk c) s = .next t ∧ Entered s.h t.h cBRK (c.zeroExtend 64) s.h.pc false)

/-- `tret` in mode S or D, to a mode not above it: with no stopped vector side, the mode of TSTAT.PM and the PC of TEPC; with TSTAT.VS
and a stopped one, the held PC, and the vector side takes up the word at TEPC from ECUT; without VS, the trapped block is abandoned.
`tret` raises ILLOP in mode A, and where TSTAT.PM names a mode above the current one. -/
def Obligations.TrapReturn : Prop :=
  (∀ s : State, s.h.mode ≠ .a → (pmMode s.h.tstat).code ≤ s.h.mode.code →
    ∃ t, exec .tret s = .next t ∧ OnlyHart s t ∧ t.h.mode = pmMode s.h.tstat ∧ (∀ r : BitVec 5, t.xr r = s.xr r) ∧
      (s.h.stop = none → t.h.pc = s.h.tepc ∧ { t.h with mode := s.h.mode, pc := s.h.pc, held := s.h.held, iw := s.h.iw,
                                                        pageIn := s.h.pageIn } = s.h) ∧
      (s.h.stop ≠ none → bit s.h.tstat.toNat 2 = true →
        t.h.pc = s.h.held.getD s.h.tepc ∧ t.h.stop = none ∧ t.h.run = s.h.run ∧ t.h.conv = [] ∧ t.h.vpc = s.h.tepc ∧
          t.h.cut = s.h.ecut.toNat % 2 ^ 17 ∧ t.h.vx = s.h.vx ∧ t.h.queue = s.h.queue) ∧
      (s.h.stop ≠ none → bit s.h.tstat.toNat 2 = false →
        t.h.pc = s.h.tepc ∧ t.h.stop = none ∧ t.h.run = none ∧ t.h.vx = s.h.vx ∧ t.h.queue = s.h.queue ∧ t.h.replies = s.h.replies)) ∧
  (∀ s : State, s.h.mode = .a ∨ s.h.mode.code < (pmMode s.h.tstat).code → exec .tret s = .next (s.trap cILLOP 0x60001000#64))

/-- `tmark` leaves a TYPE 1 record with its code and x[xa] when tracing is on, and completes. With FTRIG armed and its code from CLO to CHI it
sends the trigger: a frame to each peer, and on this chip a TYPE 7 record and, where FTRIG says so, the halt of the tenant's bound harts, its own
among them. With FTRIG not armed, or its code outside CLO to CHI, only the PC moves beside the record; with tracing off too it has no effect. -/
def Obligations.MarkResults : Prop :=
  ∀ (s : State) (a : BitVec 5) (c : BitVec 12),
    let f := (s.tenant s.h.tid).ftrig.toNat
    let s1 := s.traceHart s.h 1 c.toNat s.h.pc (s.xr a)
    let sends := bit f 63 = true ∧ bits f 0 12 ≤ c.toNat ∧ c.toNat ≤ bits f 16 12
    (∃ t, exec (.tmark a c) s = .next t ∧ t.h.pc = s.h.pc + 4 ∧ (∀ r : BitVec 5, t.xr r = s.xr r) ∧ t.h.vx = s.h.vx ∧ t.h.queue = s.h.queue ∧
      t.h.mode = s.h.mode ∧ t.h.fxf = s.h.fxf ∧ (sends → TriggerSent s1 t s.h.tid (bits f 32 16)) ∧ (¬sends → WentTo s1 t (s.h.pc + 4))) ∧
    (¬sends → s.traceOn s.h.tid 1 = false → ∃ t, exec (.tmark a c) s = .next t ∧ WentTo s t (s.h.pc + 4))

/-- `cfgrd` of a register that the mode may read completes with its value, and changes nothing else; below the read mode it takes PROT
with the index, and an index that names no register takes ILLOP. -/
def Obligations.ControlReads : Prop :=
  ∀ (s : State) (d : BitVec 5) (i : BitVec 12),
    (cfgKnown i.toNat = true → (cfgReadS i.toNat = true → s.h.mode ≠ .a) →
      (cfgVector i.toNat = true → s.h.released = false → OwnsLanes s) →
      ∃ t, exec (.cfgrd d i) s = .next t ∧ ResultX s t d (s.cfgValue i.toNat)) ∧
    (cfgKnown i.toNat = true → cfgReadS i.toNat = true → s.h.mode = .a → exec (.cfgrd d i) s = .next (s.trap cPROT (word i.toNat))) ∧
    (cfgKnown i.toNat = false → exec (.cfgrd d i) s = .next (s.trap cILLOP (cfgWordOf 0 d 0 i)))

/-- `cfgwr` of a hart's register with a legal value, in a mode that may write it, completes: the register holds the value, a `cfgrd` would
read it, and nothing else changes but the PC; an illegal value takes ILLCFG, and too low a mode PROT, with the index in TVAL.
(That reserved bits of ROREQ take ILLCFG here, and not reason 2 of R421, is the model's reading: log entry 47.)
`cfgwr` completes for every other register that takes a write: QCFG reads back with the K of its entry; a key or counter of VRAND is
there for the forager at once; mode D sets SPLIT and FEAT0 in PHASE 6; the tenant window takes the writes of the VF window. A write of
VL, VTYPE or VCFG, or of a window register that takes none, completes and changes nothing; GTB, HID, TID and the weight slots take
ILLCFG, and an index that names no register ILLOP. -/
def Obligations.ControlWrites : Prop :=
  (∀ (s : State) (a : BitVec 5) (i : BitVec 12), cfgKnown i.toNat = true → s.h.mode.code < cfgWriteMode i.toNat →
    exec (.cfgwr a i) s = .next (s.trap cPROT (word i.toNat))) ∧
  (∀ (s : State) (a : BitVec 5) (i : BitVec 12), ∀ e ∈ cfgTable s, i.toNat = e.1 → cfgWriteMode e.1 ≤ s.h.mode.code →
    (e.2.1 (s.xr a).toNat = false → exec (.cfgwr a i) s = .next (s.trap cILLCFG (word e.1))) ∧
    (e.2.1 (s.xr a).toNat = true →
      ∃ t, exec (.cfgwr a i) s = .next t ∧ e.2.2 t.h = s.xr a ∧ t.cfgValue e.1 = s.xr a ∧ t.h.pc = s.h.pc + 4 ∧
        (∀ r : BitVec 5, t.xr r = s.xr r) ∧ OnlyHart s t)) ∧
  (∀ (s : State) (a : BitVec 5),
    let x := (s.xr a).toNat
    (x < 2 ^ 22 ∧ bits x 10 6 = 0 ∧ bits x 4 4 = 0 ∧ x % 16 < 8 →
      ∃ t, exec (.cfgwr a 0x011) s = .next t ∧ t.h.qcfg = word (setBits x 16 6 0) ∧ t.h.pc = s.h.pc + 4 ∧
        (∀ r : BitVec 5, t.xr r = s.xr r) ∧ OnlyHart s t) ∧
    (¬(x < 2 ^ 22 ∧ bits x 10 6 = 0 ∧ bits x 4 4 = 0 ∧ x % 16 < 8) → exec (.cfgwr a 0x011) s = .next (s.trap cILLCFG 0x011))) ∧
  (∀ (s : State) (a : BitVec 5) (i : BitVec 12), 0x070 ≤ i.toNat → i.toNat ≤ 0x074 → s.h.stop = none → s.h.run = none → s.h.queue = [] →
    s.h.released = true ∨ OwnsLanes s →
    ∃ t, exec (.cfgwr a i) s = .next t ∧ t.cfgValue i.toNat = s.xr a ∧ t.h.pc = s.h.pc + 4 ∧ (∀ r : BitVec 5, t.xr r = s.xr r) ∧
      t.h.vx.v = s.h.vx.v ∧ OnlyHart s t ∧ SameBytes s t) ∧
  (∀ (s : State) (a : BitVec 5) (i : BitVec 12),
    (∀ e ∈ cfgFixed, i.toNat = e.1 → s.h.released = true ∨ OwnsLanes s →
      ((s.xr a).toNat &&& e.2 = 0 → ∃ t, exec (.cfgwr a i) s = .next t ∧ WentTo s t (s.h.pc + 4)) ∧
      ((s.xr a).toNat &&& e.2 ≠ 0 → exec (.cfgwr a i) s = .next (s.trap cILLCFG (word e.1)))) ∧
    (i.toNat ∈ [0x022, 0x030, 0x031, 0x090, 0x091, 0x092, 0x093] → exec (.cfgwr a i) s = .next (s.trap cILLCFG (word i.toNat))) ∧
    (cfgKnown i.toNat = false → exec (.cfgwr a i) s = .next (s.trap cILLOP (cfgWordOf 1 0 a i)))) ∧
  (∀ (s : State) (a : BitVec 5) (i : BitVec 12), s.h.mode = .d → ∀ e ∈ cfgHubTable s (s.xr a).toNat, i.toNat = e.1 →
    (s.hub.phase = 6 → e.2.1 = true → ∃ t, exec (.cfgwr a i) s = .next t ∧ WentTo { s with hub := e.2.2 } t (s.h.pc + 4)) ∧
    (s.hub.phase ≠ 6 ∨ e.2.1 = false → exec (.cfgwr a i) s = .next (s.trap cILLCFG (word e.1)))) ∧
  (∀ (s : State) (a : BitVec 5) (i : BitVec 12), s.h.mode ≠ .a → 0x100 ≤ i.toNat → i.toNat < 0x200 →
    let off := (i.toNat - 0x100) * 8
    (0x400 ≤ off → off < 0x600 → exec (.cfgwr a i) s = .next (s.trap cPROT (word i.toNat))) ∧
    (off ∈ windowWritten → s.xr a &&& ~~~vfMask off = 0 →
      ∃ t, exec (.cfgwr a i) s = .next t ∧ t.h.pc = s.h.pc + 4 ∧ (∀ r : BitVec 5, t.xr r = s.xr r) ∧
        OnlyHart (s.vfWrite s.h.tid off (s.xr a)) t) ∧
    (off ∈ windowWritten → s.xr a &&& ~~~vfMask off ≠ 0 → exec (.cfgwr a i) s = .next (s.trap cILLCFG (word i.toNat))) ∧
    (¬(0x400 ≤ off ∧ off < 0x600) → off ∉ windowWritten → ∃ t, exec (.cfgwr a i) s = .next t ∧ WentTo s t (s.h.pc + 4)))

/-- `vrun` of a hart with lanes completes, whatever its operands: it appends the block with the modes and x8 to x15 of this instant, and
writes its sequence number.
The checks of `vrun`, in order: RELEASED, the window, the alignment; a full queue makes it wait for the vector side. In modes S and D the trap
of a stopped vector side that the forager has not taken yet is taken first. -/
def Obligations.RunResults : Prop :=
  (∀ (s : State) (d a : BitVec 5), s.h.trapWaits = false ∨ s.h.mode = .a → s.h.released = false → window (s.xr a) = 0 →
    (s.xr a).toNat % 64 = 0 → s.h.queue.length < 16 →
    ∃ t, exec (.vrun d a) s = .next t ∧ WroteX t d (s.h.bcnt.zeroExtend 64) ∧ OtherX s t d ∧ t.h.pc = s.h.pc + 4 ∧
      t.h.bcnt = s.h.bcnt + 1 ∧ OnlyX s.h { t.h with queue := s.h.queue, bcnt := s.h.bcnt } ∧ OnlyHart s t ∧ SameBytes s t ∧
      ∃ q, t.h.queue = s.h.queue ++ [q] ∧ q.addr = s.xr a ∧ q.args = (List.range 8).map (fun k => s.h.xr (8 + k)) ∧
        q.rm = fxfRm s.h.fxf ∧ q.fen = fxfFen s.h.fxf ∧ q.fxf = s.h.fxf ∧ q.dscale = s.h.dscale ∧ q.qcfg = s.h.qcfg ∧ q.rchk = s.h.rchk ∧
        q.seq = s.h.bcnt ∧ q.sld = false) ∧
  (∀ (s : State) (d a : BitVec 5), s.h.trapWaits = false ∨ s.h.mode = .a →
    (s.h.released = true → exec (.vrun d a) s = .next (s.trap cILLOP (word (0x12 * 2 ^ 26 + d.toNat * 2 ^ 21 + a.toNat * 2 ^ 16)))) ∧
    (s.h.released = false → window (s.xr a) ≠ 0 → exec (.vrun d a) s = .next (s.trap cSPACE (s.xr a))) ∧
    (s.h.released = false → window (s.xr a) = 0 → (s.xr a).toNat % 64 ≠ 0 → exec (.vrun d a) s = .next (s.trap cALIGN (s.xr a))) ∧
    (s.h.released = false → window (s.xr a) = 0 → (s.xr a).toNat % 64 = 0 → 16 ≤ s.h.queue.length →
      exec (.vrun d a) s = .next (s.stall (partyWord 4 s.h.hid)))) ∧
  (∀ (s : State) (d a : BitVec 5), s.h.stop ≠ none → s.h.held = none → s.h.mode ≠ .a → exec (.vrun d a) s = .next s.takeVectorTrap)

/-- `rqpop` takes the oldest reply; `vsync` returns 0 when no block is outstanding; either waits until its clamped deadline when there
is nothing to return, and `rqpop` under a past one returns 1. -/
def Obligations.ReplyResults : Prop :=
  ∀ (s : State) (d t : BitVec 5) (r : BitVec 1), s.h.trapWaits = false ∨ s.h.mode = .a →
    (∀ w sn rest, s.h.replies = (w, sn) :: rest →
      ∃ u, exec (.rqpop d t r) s = .next u ∧ u.h.replies = rest ∧ WroteX u d w ∧ OtherX s u d ∧ u.h.pc = s.h.pc + 4 ∧
        u.h.seen = sn.getD s.h.seen) ∧
    (s.h.replies = [] → s.deadline t r ≤ s.gtb → ∃ u, exec (.rqpop d t r) s = .next u ∧ Outcome s u d 1) ∧
    (s.h.replies = [] → s.gtb < s.deadline t r → ∃ u, exec (.rqpop d t r) s = .next u ∧ NowWaits s u .rqpop d (s.deadline t r)) ∧
    (s.h.outstanding = [] →
      ∃ u, exec (.vsync d t r) s = .next u ∧ WroteX u d 0 ∧ OtherX s u d ∧ u.h.pc = s.h.pc + 4 ∧ u.h.replies.length = s.h.replies.length) ∧
    (s.h.outstanding ≠ [] → s.gtb < s.deadline t r →
      ∃ u, exec (.vsync d t r) s = .next u ∧ NowWaits s u (.vsync (s.h.bcnt - 1)) d (s.deadline t r))

/-- `vrel` with an idle vector side leaves all vector state dead and the hart RELEASED, and writes 0; `vcfg` sets NRC, clears the
vector and mask registers, VL and VTYPE, and writes the register length in bits. -/
def Obligations.VectorLife : Prop :=
  ∀ (s : State) (d : BitVec 5) (n : BitVec 2), s.h.trapWaits = false → s.h.run = none → s.h.queue = [] → OwnsLanes s →
    (∃ t, exec (.vrel d) s = .next t ∧ t.h.released = true ∧ t.h.vx = VCtx.dead ∧ t.h.seen = Snap.dead ∧ WroteX t d 0 ∧ OtherX s t d ∧
      t.h.pc = s.h.pc + 4 ∧ t.h.fxf = s.h.fxf ∧ t.h.nrc = s.h.nrc ∧ SameBytes s t) ∧
    (s.h.released = false →
      ∃ t, exec (.vcfg d n) s = .next t ∧ t.h.nrc = n ∧ t.h.vx.v = [] ∧ t.h.vx.vp = [] ∧ t.h.vx.m = [] ∧ t.h.vx.vl = 0 ∧
        t.h.vx.vtype = VType.ill ∧ t.h.vx.sc = s.h.vx.sc ∧ WroteX t d (word (131072 * s.h.lanes / 2 ^ (3 + n.toNat))) ∧ OtherX s t d ∧
        t.h.pc = s.h.pc + 4 ∧ OnlyHart s t ∧ SameBytes s t)

/-- `spawn` of a valid image, for which a core and an id are chosen, makes a hart in mode A at the image's entry with its arguments in
x8 to x15, and writes its id, once the home bank of its swarm has answered: for a bank on another chip, or at a die that leaves requests unanswered,
the hart stands in CREATED, and the spawner waits for that bank. A refusal writes the lowest code in the order of R310; outside PHASE 7 it is code
4, which is the model's choice (log entry 88).
`exit` with an idle vector side ends the hart, once every home bank has answered its leave: no live hart has its id. Until then it waits for the
first that has not. -/
def Obligations.SpawnResults : Prop :=
  (∀ (s u : State) (d a : BitVec 5) (bs : List Byte), s.h.trapWaits = false ∨ s.h.mode = .a → ReadsImage s a u bs →
    (∀ hid core, u.hub.phase = 7 → u.admitImage u.h.tid (imageOf bs) = .ok (hid, core) →
      (u.proxySwarm (imageOf bs) = none → u.slowest (imageOf bs).homes = none →
        ∃ t k, exec (.spawn d a) s = .next t ∧ WroteX t d (word hid) ∧ t.h.pc = s.h.pc + 4 ∧ t.pool = u.pool ++ [k] ∧ k.hid = hid ∧
          k.core = core ∧ k.tid = u.h.tid ∧ k.mode = .a ∧ k.pc = word (imageOf bs).entry ∧ k.live = true ∧ k.fxf = 0 ∧ k.created = false ∧
          (∀ n < 8, k.xr (8 + n) = word ((imageOf bs).args.getD n 0))) ∧
      (∀ p, (∃ o b, u.proxySwarm (imageOf bs) = some (o, b) ∧ p = b.homeParty) ∨
          (u.proxySwarm (imageOf bs) = none ∧ ∃ x, u.slowest (imageOf bs).homes = some x ∧ p = partyWord 1 x) →
        ∃ t k, exec (.spawn d a) s = .next t ∧ HeldFor t s.h.pc p ∧ (∀ r : BitVec 5, t.xr r = s.xr r) ∧ t.pool = u.pool ++ [k] ∧
          k.hid = hid ∧ k.created = true)) ∧
    (∀ c, u.hub.phase = 7 → u.admitImage u.h.tid (imageOf bs) = .error c → c ≠ .rank ∨ u.slowest (imageOf bs).homes = none →
      ∃ t, exec (.spawn d a) s = .next t ∧ ResultX u t d (word (2 ^ 63 + c.code))) ∧
    (u.hub.phase ≠ 7 → ∃ t, exec (.spawn d a) s = .next t ∧ ResultX u t d (word (2 ^ 63 + 4)))) ∧
  (∀ s : State, s.h.live = true → s.h.trapWaits = false → s.h.run = none → s.h.queue = [] →
    let l := (s.swarmsOf s.h.hid).map (fun off => (off, s.gtb))
    let s1 := s.leaveAll s.h.hid
    (l.find? s1.leaveOpen = none → ∃ t, exec .exit s = .next t ∧ t.hart s.h.hid = none) ∧
    (∀ e, l.find? s1.leaveOpen = some e → ∃ t, exec .exit s = .next t ∧ HeldFor t s1.h.pc (s1.leaveParty e)))

/-- ONEW of a valid image in an OPN region, with room in the object table, makes the object with the lowest free number, which it
returns; `ofree` of a live object that no region names ends it and returns OK. Either waits, its effect performed, while the record's home die
gives no answer. -/
def Obligations.ObjectResults : Prop :=
  ∀ (s : State) (d a : BitVec 5) (off : Nat), RecordAt s (s.xr a) off →
    (∀ e ∈ onewTable s d a (s.bytesAt (locComb off) 256), e.2.1 = true → s.obj off = none → s.objCount < 16384 →
      ∀ n, s.freeNum = some n →
        (HomeAnswers s off → ∃ t w, exec e.1 s = .next t ∧ WroteX t d (word (n * 2 ^ 32)) ∧ t.h.pc = s.h.pc + 4 ∧
          ResultX (s.setObj off { num := n, tag := s.h.tid, body := e.2.2 }) w d (word (n * 2 ^ 32)) ∧ t = w.count s.h.tid 7 1) ∧
        (¬HomeAnswers s off → ∃ t, exec e.1 s = .next t ∧ HeldFor t s.h.pc (partyWord 1 (combHome off).1) ∧
          t.obj off = some { num := n, tag := s.h.tid, body := e.2.2 })) ∧
    (∀ o, s.obj off = some o → o.tag = s.h.tid → s.named o.tag off o.num = false →
      (HomeAnswers s off →
        ∃ t, exec (.ofree d a) s = .next t ∧ AtBank (s.endObject off o) t d 0xFFF00000#64 ∧ t.obj off = none) ∧
      (¬HomeAnswers s off → ∃ t, exec (.ofree d a) s = .next t ∧
        HeldFor t (s.endObject off o).h.pc (partyWord 1 (combHome off).1) ∧ t.obj off = none))

/-- `swjoin` completes with OK at a swarm that has no member in good standing, and makes the hart a member; at one that has, it waits for
the next close, or returns EXPIRED under a past deadline. `swleave` of a member completes with OK, and the hart is no member any more.
`swbar` and `step` complete with OK when every other member in good standing has arrived, and the episode advances; while one has not,
they wait as arrivals; a lapsed member receives LAPSED and a non-member REFUSED 7 at once. At a proxy the request goes to the home chip,
and the hart waits: `swleave`, which has no deadline, under IWL. A home die that leaves requests unanswered keeps the results back: the hart then
waits for them, and `swleave` under IWL. -/
def Obligations.SwarmResults : Prop :=
  ∀ (s : State) (d a t : BitVec 5) (r : BitVec 1) (off : Nat) (o : Obj) (b : Swarm), RecordAt s (s.xr a) off →
    s.swarm off = some (o, b) → o.tag = s.h.tid →
    (b.remote = 0 → o.memberOf s.h.hid = none → (s.xr d).toNat < 1024 → b.members.any (fun m => m.rank == (s.xr d).toNat) = false →
      b.joins.any (fun j => j.rank == (s.xr d).toNat && j.hid != s.h.hid) = false → (s.swarmsOf s.h.hid).length < 8 →
      (b.members.any (fun m => m.good) = true →
        (s.gtb < s.deadline t r → ∃ u, exec (.swjoin d a t r) s = .next u ∧
          BankWaits (s.pendJoin off o b (s.xr d).toNat (s.deadline t r)) u (.swjoin off (s.xr d).toNat) d (s.deadline t r)) ∧
        (s.deadline t r ≤ s.gtb → HomeAnswers s off →
          ∃ u, exec (.swjoin d a t r) s = .next u ∧ AtBank s u d (statusWord b.epi.toNat b.lowabs b.nabs 1))) ∧
      (b.members.any (fun m => m.good) = false → HomeAnswers s off → Bound s → s.naming 2 off = [] → b.joins = [] → b.closed = [] →
        (∀ m ∈ b.members, m.hid ≠ s.h.hid) →
        ∃ u o2 b2, exec (.swjoin d a t r) s = .next u ∧ Returned s u d (statusWord (b.epi + 1).toNat 0xFFF 0 0) ∧
          u.swarm off = some (o2, b2) ∧ b2.epi = b.epi + 1 ∧ b2.joins = [] ∧
          b2.members = b.members.map (fun m => { m with arrived := false }) ++
            [{ rank := (s.xr d).toNat, hid := s.h.hid, chip := 0xFFFF, good := true, arrived := false, dead := 0, tick := s.gtb,
               flip := false }])) ∧
    (b.remote = 0 → (o.memberOf s.h.hid).isSome = true →
      ∃ u, exec (.swleave d a) s = .next u ∧
        (HomeAnswers s off → AtBank (s.leaveAt off s.h.hid 0xFFFF) u d 0xFFF00000#64) ∧
        (¬HomeAnswers s off → HeldFor u (s.leaveAt off s.h.hid 0xFFFF).h.pc (partyWord 1 (combHome off).1)) ∧
        (b.joins = [] → ∃ o2 b2, u.swarm off = some (o2, b2) ∧ o2.memberOf s.h.hid = none)) ∧
    (b.remote = 0 → HomeAnswers s off → o.memberOf s.h.hid = none → ∀ i ∈ [Instr.swleave d a, .swbar d a t r, .step d a t r],
      ∃ u, exec i s = .next u ∧ AtBank s u d (statusWord 0 0xFFF 7 16)) ∧
    (b.remote = 0 → ¬HomeAnswers s off → ∀ v, (o.memberOf s.h.hid = none ∧ v = statusWord 0 0xFFF 7 16) ∨
        (∃ m, o.memberOf s.h.hid = some m ∧ m.good = false ∧ v = statusWord b.epi.toNat b.lowabs b.nabs 2) →
      s.slow.any (fun x => x.hid == s.h.hid && x.tick == s.gtb) = false → ∀ e ∈ [(Instr.swbar d a t r, false), (.step d a t r, true)],
      ∃ u, exec e.1 s = .next u ∧ StandsBy s u (.arrive off e.2) d (s.deadline t r) ∧
        u.slow = s.slow ++ [⟨(combHome off).1, s.h.hid, s.gtb, v, 0, none⟩]) ∧
    (b.remote = 0 → ∀ m, o.memberOf s.h.hid = some m → ∀ e ∈ [(Instr.swbar d a t r, false), (.step d a t r, true)],
      (m.good = true →
        exec e.1 s = .next (((s.startWait (.arrive off e.2) d (s.deadline t r)).arriveAt off s.h.hid 0xFFFF (s.deadline t r) s.gtb e.2).count
          s.h.tid 7 1) ∧
        (HomeAnswers s off → Bound s → s.naming 2 off = [] → b.joins = [] → b.closed = [] → (∀ k ∈ b.members, k.chip = 0xFFFF) →
          (∀ k ∈ b.members, k.hid = s.h.hid → k = m) → (∀ k ∈ b.members, k.good = true → k.hid ≠ s.h.hid → k.arrived = true) →
          ∃ u o2 b2, exec e.1 s = .next u ∧ Returned s u d (statusWord (b.epi + 1).toNat 0xFFF 0 0) ∧ u.swarm off = some (o2, b2) ∧
            b2.epi = b.epi + 1 ∧ b2.members = b.members.map (fun k =>
              if k = m then { k with arrived := false, dead := if m.arrived then min m.dead (s.deadline t r) else s.deadline t r,
                                     tick := s.gtb, flip := e.2 }
              else { k with arrived := false })) ∧
        (s.gtb < s.deadline t r → (∃ k ∈ b.members, k.good = true ∧ k.arrived = false ∧ k.hid ≠ s.h.hid) →
          ∃ u, exec e.1 s = .next u ∧ StandsBy s u (.arrive off e.2) d (s.deadline t r))) ∧
      (m.good = false → HomeAnswers s off →
        ∃ u, exec e.1 s = .next u ∧ AtBank s u d (statusWord b.epi.toNat b.lowabs b.nabs 2))) ∧
    (b.remote ≠ 0 → ∀ e ∈ [(Instr.swjoin d a t r, WaitKind.swjoin off (s.xr d).toNat), (.swbar d a t r, .arrive off false),
        (.step d a t r, .arrive off true)],
      ∃ u, exec e.1 s = .next u ∧ StandsBy s u e.2 d (s.deadline t r) ∧ SameBytes s u ∧
        ((s.tenant s.h.tid).replay = false → s.portsUp = true → u.outbox.length = s.outbox.length + 1)) ∧
    (b.remote ≠ 0 → ∃ u, exec (.swleave d a) s = .next u ∧ HeldFor u s.h.pc b.homeParty ∧ SameBytes s u ∧
      ((s.tenant s.h.tid).replay = false → s.portsUp = true → u.outbox.length = s.outbox.length + 1))

/-- `acq` of a free latch completes with OK and takes it; a held one makes it wait, or returns EXPIRED under a past deadline. `rel` of the
hart's own holding completes with OK and releases it; a holding that was revoked or whose latch has ended returns REVOKED or CLOSED.
`mend` and `adopt` of the holding that x[xd] names complete with OK, and take the latch from its holder, when every die that has a part
answers; else they return ABANDONED. The status word carries the holding's number. A home die that leaves requests unanswered keeps the results
back: the hart then waits for them, those without a deadline under IWL. -/
def Obligations.LatchResults : Prop :=
  ∀ (s : State) (d a t : BitVec 5) (r : BitVec 1) (off : Nat) (o : Obj) (b : Latch), RecordAt s (s.xr a) off →
    s.latch off = some (o, b) → o.tag = s.h.tid →
    let mine := fun (u : State) => ∃ o2 b2, u.latch off = some (o2, b2) ∧ b2.held = true ∧ b2.holder = s.h.hid ∧ b2.hold = b.hold + 1 ∧
      b2.queue = b.queue ∧ u.h.holds.find? (fun y => y.rcd == off) = some ⟨off, o.num, (b.hold + 1).toNat⟩
    let kept := fun (u : State) => u.setH (fun h => h.keep ⟨off, o.num, (b.hold + 1).toNat⟩)
    (¬(b.held = true ∧ b.holder = s.h.hid) → s.h.holds.length < 8 →
      (b.held = false → b.queue = [] → ∃ u, exec (.acq d a t r) s = .next u ∧
        (HomeAnswers s off → AtBank (kept (s.takeLatch off o b)) u d (statusWord (b.hold + 1).toNat 0xFFF 0 0) ∧ mine u) ∧
        (¬HomeAnswers s off → StandsBy s u (.acq off) d (s.deadline t r) ∧
          ∃ o2 b2, u.latch off = some (o2, b2) ∧ b2.held = true ∧ b2.holder = s.h.hid)) ∧
      (b.held = true ∨ b.queue ≠ [] →
        (s.deadline t r ≤ s.gtb → HomeAnswers s off →
          ∃ u, exec (.acq d a t r) s = .next u ∧ AtBank s u d (statusWord b.hold.toNat (s.holderRank b) 1 1)) ∧
        (s.gtb < s.deadline t r → ∃ u, exec (.acq d a t r) s = .next u ∧
          BankWaits (s.setBody off o (.latch { b with queue := b.queue ++ [(s.h.hid, s.deadline t r)] })) u (.acq off) d (s.deadline t r)))) ∧
    (∀ x, s.h.holds.find? (fun y => y.rcd == off) = some x →
      (HomeAnswers s off →
        (o.num = x.obj → b.hold.toNat = x.num → b.held = true →
          ∃ u, exec (.rel d a) s = .next u ∧ AtBank ((s.dropHolding off).releaseLatch off o b) u d (statusWord x.num 0xFFF 0 0) ∧
            (b.queue = [] → u.h.holds = s.h.holds.filter (fun y => y.rcd ≠ off) ∧
              ∃ o2 b2, u.latch off = some (o2, b2) ∧ b2.held = false ∧ b2.hold = b.hold)) ∧
        (o.num ≠ x.obj → ∃ u, exec (.rel d a) s = .next u ∧ AtBank (s.dropHolding off) u d (statusWord 0 0xFFF 0 6)) ∧
        (o.num = x.obj → b.hold.toNat ≠ x.num ∨ b.held = false →
          ∃ u, exec (.rel d a) s = .next u ∧ AtBank (s.dropHolding off) u d (statusWord x.num 0xFFF 0 3))) ∧
      (¬HomeAnswers s off → ∃ u, exec (.rel d a) s = .next u ∧ HeldFor u s.h.pc (partyWord 1 (combHome off).1))) ∧
    (s.h.holds.find? (fun y => y.rcd == off) = none → HomeAnswers s off →
      ∃ u, exec (.rel d a) s = .next u ∧ AtBank s u d (statusWord 0 0xFFF 7 16)) ∧
    (bits (s.xr d).toNat 32 32 = b.hold.toNat → b.held = true → b.holder ≠ s.h.hid → s.h.holds.length < 8 → Prompt s →
      (∃ u, exec (.mend d a) s = .next u ∧
        AtBank (kept ((s.mendGuards off o.num).takeLatch off o b)) u d (statusWord (b.hold + 1).toNat 0xFFF 0 0) ∧ mine u) ∧
      (∃ u, exec (.adopt d a) s = .next u ∧ AtBank (kept (s.takeLatch off o b)) u d (statusWord (b.hold + 1).toNat 0xFFF 0 0) ∧ mine u)) ∧
    (bits (s.xr d).toNat 32 32 ≠ b.hold.toNat ∨ b.held = false ∨ b.holder = s.h.hid → HomeAnswers s off → ∀ i ∈ [Instr.mend d a, .adopt d a],
      ∃ u, exec i s = .next u ∧ AtBank s u d (statusWord b.hold.toNat 0xFFF 0 4))

/-- `send` and `recv` whose buffers pass their checks make their requests at the channel's bank under the clamped deadline: `send` completes
with OK and the message's number when a slot is free and no request waits, and `recv` when a message is there and no line of its destination is
owned; the record's home die answers. `nap` completes with 0
under a past deadline, and else waits. -/
def Obligations.ChannelResults : Prop :=
  ∀ (s : State) (d a t : BitVec 5) (r : BitVec 1),
    (∀ off o b s1 pls, RecordAt s (s.xr a) off → s.chan off = some (o, b) → o.tag = s.h.tid →
      (window (s.xr d) = 1 → exec (.send d a t r) s = .next (s.trap cSPACE (s.xr d))) ∧
      (∀ s2 bs bad, window (s.xr d) ≠ 1 → s.accessRun s.h.actor .load (s.xr d) (b.sz / 64) = (s1, .ok pls) →
        s1.readPieces s1.h.actor pls = (s2, bs, bad) →
        exec (.send d a t r) s = .next (((s2.startWait (.send off (s.xr d)) d (s2.deadline t r)).sendAt off o b
          { hid := s2.h.hid, dead := s2.deadline t r, data := bs, bad := s2.piecesBad pls 0, dst := [] }).count s.h.tid 7 1) ∧
        (HomeAnswers s off → Bound s → b.pkind = 0 → b.senders = [] → b.receivers = [] → (b.tail - b.head).toNat < b.nslot →
          ∃ u o2 b2, exec (.send d a t r) s = .next u ∧ Returned s u d (statusWord b.tail.toNat 0xFFF 0 0) ∧
            u.chan off = some (o2, b2) ∧ b2.tail = b.tail + 1 ∧ b2.head = b.head ∧ b2.senders = [])) ∧
      (s.accessRun s.h.actor .store (s.xr d) (b.sz / 64) = (s1, .ok pls) →
        exec (.recv d a t r) s = .next (((s1.startWait (.recv off (s1.xr d)) d (s1.deadline t r)).recvAt off o b
          { hid := s1.h.hid, dead := s1.deadline t r, data := [], bad := [], dst := pls }).count s.h.tid 7 1) ∧
        (HomeAnswers s off → Bound s → b.senders = [] → b.receivers = [] → b.head ≠ b.tail → (∀ pl ∈ pls, (s1.ownedWait .store pl).2 = .ok pl) →
          ∃ u o2 b2, exec (.recv d a t r) s = .next u ∧ Returned s u d (statusWord b.head.toNat 0xFFF 0 0) ∧
            u.chan off = some (o2, b2) ∧ b2.head = b.head + 1 ∧ b2.tail = b.tail ∧ b2.receivers = []))) ∧
    (s.deadline t r ≤ s.gtb → ∃ u, exec (.nap d t r) s = .next u ∧ Outcome s u d 0) ∧
    (s.gtb < s.deadline t r → ∃ u, exec (.nap d t r) s = .next u ∧ NowWaits s u .nap d (s.deadline t r))

/-- `elease` below the tenant's quota, with a free engine that serves the request and for which no earlier request waits, is granted at
once, and completes when the hub answers; `elease.renew` of a live lease moves its end; `efree` ends it, and waits while the engine's die gives no
answer. -/
def Obligations.LeaseResults : Prop :=
  ∀ (s : State) (d a t : BitVec 5) (r : BitVec 1) (e : Nat),
    (∀ x ∈ [(Instr.eleaseCopy d a t r, 0), (.eleaseComp d a t r, 1), (.eleaseColl d a t r, 2)], leaseReqOk (s.xr a) = true →
      s.belowQuota s.h.tid x.2 = true → s.pickEngine s.h.die x.2 (s.xr a) = some e → s.nextLease e = none →
      ∃ u, exec x.1 s = .next u ∧
        ((s.die 12).late = 0 → Outcome (s.grantLease e s.h.tid) u d (word (((s.engine e).ser + 1).toNat * 2 ^ 48 + e * 2 ^ 40))) ∧
        ((s.die 12).late ≠ 0 → StandsBy s u (.elease x.2 (s.xr a)) d (s.deadline t r) ∧ (u.engine e).leased = true)) ∧
    (s.leaseOf s.h.tid (s.xr a) = some e →
      (∃ u, exec (.eleaseRenew d a t r) s = .next u ∧
        Outcome (s.setEngine e (fun g => { g with endAt := s.gtb + (s.tenant s.h.tid).leaseLen })) u d
          (word ((s.engine e).ser.toNat * 2 ^ 48 + e * 2 ^ 40))) ∧
      ((s.die (engineDie e)).late = 0 → ∃ u, exec (.efree d a) s = .next u ∧ ResultX (s.endLease e) u d 0) ∧
      ((s.die (engineDie e)).late ≠ 0 → ∃ u, exec (.efree d a) s = .next u ∧ HeldFor u (s.endLease e).h.pc (partyWord 0 e) ∧
        (u.engine e).leased = false)) ∧
    (s.leaseOf s.h.tid (s.xr a) = none → ∃ u, exec (.efree d a) s = .next u ∧ ResultX s u d 3)

/-- A command whose record and checks let it issue, at an engine with a free slot, enters the engine's queue, and its ticket goes to
xd: engine, sequence number, OK.
`estat` reads the status of a command once; `ewait` returns a final status at once, where the engine's die answers, and UNKNOWN in any case, and
else waits until its deadline. -/
def Obligations.CommandIssue : Prop :=
  (∀ (s u : State) (d a t : BitVec 5) (r : BitVec 1) (e : Nat) (c : Cmd) (bs : List Byte), ∀ x ∈ issueTable d a t r,
    Issues s x.2 a u e c bs →
    ∃ v, exec x.1 s = .next v ∧ Outcome (u.enqueue e c) v d (word (e * 2 ^ 48 + (u.engine e).seq.toNat * 2 ^ 16))) ∧
  (∀ (s : State) (d a t : BitVec 5) (r : BitVec 1),
    let w := s.cmdStatus s.h.tid (s.xr a)
    (∃ u, exec (.estat d a) s = .next u ∧ ResultX s u d w) ∧
    let e := bits (s.xr a).toNat 48 8
    let k := WaitKind.ewait e (BitVec.ofNat 32 (bits (s.xr a).toNat 16 32))
    (w.toNat % 256 = 22 ∨ (w.toNat % 256 ≠ 17 ∧ (s.die (engineDie e)).late = 0) → ∃ u, exec (.ewait d a t r) s = .next u ∧ Outcome s u d w) ∧
    (w.toNat % 256 ≠ 17 → w.toNat % 256 ≠ 22 → (s.die (engineDie e)).late ≠ 0 →
      ∃ u, exec (.ewait d a t r) s = .next u ∧ StandsBy s u k d (s.deadline t r)) ∧
    (w.toNat % 256 = 17 → s.gtb < s.deadline t r → ∃ u, exec (.ewait d a t r) s = .next u ∧ NowWaits s u k d (s.deadline t r)))

/-- Tile instructions on a tile of the hart's tenant: `tstat` reads it, `twait` returns at once unless it fills or drains, and `tset`
moves it between EMPTY and READY, or refuses and leaves it, and waits for a vector side that still uses it; another tenant's tile takes
PROT. (That this wait names that vector side, and not the tile, is the model's choice: log entry 89.) -/
def Obligations.TileResults : Prop :=
  ∀ (s : State) (d t : BitVec 5) (n : BitVec 4) (r : BitVec 1),
    let x := s.tile s.h.core n.toNat
    (x.tag = s.h.tid →
      (∃ u, exec (.tstat d n) s = .next u ∧ ResultX s u d (word (x.tag * 2 ^ 32 + x.eng * 2 ^ 24 + x.st))) ∧
      (x.st ≠ 1 → x.st ≠ 3 → ∃ u, exec (.twait d n t r) s = .next u ∧ Outcome s u d (word (x.st * 2 ^ 32))) ∧
      (∀ e ∈ [(Instr.tsetReady d n, 0, 2), (.tsetEmpty d n, 2, 0)],
        (∀ h, s.tileUser s.h.core n.toNat = some h → exec e.1 s = .next (s.stall (partyWord 4 h))) ∧
        (s.tileUser s.h.core n.toNat = none → x.st = e.2.1 → ∃ u, exec e.1 s = .next u ∧
          ResultX (s.setTile s.h.core n.toNat (fun y => { y with st := e.2.2 })) u d (word (e.2.2 * 2 ^ 32))) ∧
        (s.tileUser s.h.core n.toNat = none → x.st ≠ e.2.1 →
          ∃ u, exec e.1 s = .next u ∧ ResultX s u d (word (x.st * 2 ^ 32 + 16))))) ∧
    (x.tag ≠ s.h.tid → ∀ i ∈ [Instr.tstat d n, .twait d n t r, .tsetReady d n, .tsetEmpty d n],
      exec i s = .next (s.trap cPROT (word (0xE0 * 2 ^ 56 + s.h.core * 2 ^ 40 + n.toNat * 65536))))

/-- `creg.new` of a descriptor that passes the tests of R106 enters it under the lowest free region number; one that fails writes the code of the
first test that it fails. `creg.free` of a region of the hart's tenant removes it and zeroes its footprint, and waits for the slowest of its dies
that gives no answer; of another tenant's region, or of none, it writes code 6. `creg.find` names the region of a Comb pointer, and writes code 6
for a pointer that lies in no region of the tenant or outside the Comb. Each refusal leaves the table, and everything else, alone. -/
def Obligations.RegionResults : Prop :=
  ∀ (s : State) (d a : BitVec 5),
    let n := (s.xr a).toNat
    let refused := fun (u : State) (c : Nat) => ResultX s u d (word (2 ^ 63 + c))
    (∀ s1 s2 pl v, s.access s.h.actor .load (s.xr a) 64 64 = (s1, .ok pl) → s1.readAt s1.h.actor pl 64 = (s2, v, false) →
      let r := regionOfBytes s.h.tid (leBytes 64 v)
      ((regionTests s2 (leBytes 64 v) r).find? (fun x => x.1) = none →
        ∃ u k, exec (.cregNew d a) s = .next u ∧ s2.freeRegion = some k ∧ ResultX ((s2.setRegion k (some r)).refreshObj r) u d (word k) ∧
          u.region k = some r ∧ ∀ j, j ≠ k → u.region j = s2.region j) ∧
      (∀ x, (regionTests s2 (leBytes 64 v) r).find? (fun x => x.1) = some x →
        ∃ u, exec (.cregNew d a) s = .next u ∧ ResultX s2 u d (word (2 ^ 63 + x.2)) ∧ u.regions = s2.regions)) ∧
    (∀ r, s.region n = some r → r.tag = s.h.tid → n < 4096 →
      ∃ u, exec (.cregFree d a) s = .next u ∧ u.region n = none ∧
        (r.disc ≠ 2 → ∀ x, r.base ≤ x → x < r.base + r.footprint → x < 2 ^ 28 → u.byteAt (locComb x) = 0) ∧
        (s.slowest r.dies = none → ResultX (s.freeRegionAt n r) u d 0) ∧
        (∀ x, s.slowest r.dies = some x → HeldFor u (s.freeRegionAt n r).h.pc (partyWord 1 x))) ∧
    (s.region n = none ∨ (∃ r, s.region n = some r ∧ (r.tag ≠ s.h.tid ∨ 4096 ≤ n)) → ∃ u, exec (.cregFree d a) s = .next u ∧ refused u 6) ∧
    (∀ off k r, combOffset (s.xr a) = some off → s.regionOf s.h.tid off = some (k, r) →
      ∃ u, exec (.cregFind d a) s = .next u ∧ ResultX s u d (word k)) ∧
    (∀ off, combOffset (s.xr a) = some off → s.regionOf s.h.tid off = none → ∃ u, exec (.cregFind d a) s = .next u ∧ refused u 6) ∧
    (combOffset (s.xr a) = none → ∃ u, exec (.cregFind d a) s = .next u ∧ refused u 6)

/-- The integer, logic, shift and merge instructions complete with the exact results of R213 to R216 in the active elements of vd; the
saturating ones raise IS. -/
def Obligations.VectorInteger : Prop :=
  ∀ (s : State) (c : BitVec 1) (d a b i : BitVec 6) (n : BitVec 5) (m : BitVec 3),
    ∀ e ∈ intTable s.h c d a b i n m ++ mergeTable s.h c d a b i m, Lane s e (s.h.putEls s.h.sew d.toNat e.2.2)

/-- The integer compares and the mask instructions write the bits of the active elements of a mask, 0 where an operand is poisoned; pm
takes a bit for each of those. -/
def Obligations.VectorMasks : Prop :=
  ∀ (s : State) (c : BitVec 1) (d k l m : BitVec 3) (a b : BitVec 6),
    ∀ e ∈ compareTable s.h c d a b m ++ maskTable s.h c d k l m, Lane s e (s.h.putMask d.toNat e.2.2)

/-- Bit strings shift across elements, and the permutes move elements, reading every source before they write.
Reductions write element 0 of vd, and scans every active element. -/
def Obligations.VectorPermutes : Prop :=
  (∀ (s : State) (c : BitVec 1) (d a x : BitVec 6) (i : BitVec 5) (j : BitVec 4) (m : BitVec 3),
    ∀ e ∈ bitTable s.h c d a x i m ++ permuteTable s.h c d a x i j m, Lane s e (s.h.putEls s.h.sew d.toNat e.2.2)) ∧
  (∀ (s : State) (c : BitVec 1) (d a b : BitVec 6) (m : BitVec 3),
    ∀ e ∈ reduceTable s.h c d a b m ++ scanTable s.h c d a b m, Lane s e (s.h.putEls s.h.sew d.toNat e.2.2))

/-- What writing results means: the named elements of a group hold their bits and poison, every other element of every register and every
other mask bit is unchanged, and pm has a bit set for each poisoned one (R178, R180, R188). -/
def Obligations.VectorWrites : Prop :=
  (∀ (h : Hart) (w r g : Nat) (l : List (Nat × ERes)), 0 < w → 0 < h.maxvl w → r + g ≤ nrOf h.nrc → (l.map Prod.fst).Nodup →
    (∀ x ∈ l, x.1 < g * h.maxvl w) →
    let k := h.putEls w r l
    (∀ x ∈ l, k.el w r x.1 = (x.2.val % 2 ^ w, x.2.bad)) ∧
    (∀ q e, q < nrOf h.nrc → e < h.maxvl w → (∀ x ∈ l, ¬(r + x.1 / h.maxvl w = q ∧ x.1 % h.maxvl w = e)) → k.el w q e = h.el w q e) ∧
    (∀ j e, k.maskBit j e = true ↔ (j = 7 ∧ ∃ x ∈ l, x.1 = e ∧ x.2.bad = true) ∨ h.maskBit j e = true)) ∧
  (∀ (h : Hart) (d : Nat) (l : List (Nat × ERes)), (l.map Prod.fst).Nodup →
    let k := h.putMask d l
    (∀ x ∈ l, k.maskBit d x.1 = (x.2.val != 0 || (d == 7 && x.2.bad))) ∧
    (∀ j e, j ≠ d → (k.maskBit j e = true ↔ (j = 7 ∧ ∃ x ∈ l, x.1 = e ∧ x.2.bad = true) ∨ h.maskBit j e = true)) ∧
    (∀ e, (∀ x ∈ l, x.1 ≠ e) → k.maskBit d e = h.maskBit d e) ∧ k.vx.v = h.vx.v ∧ k.vx.vp = h.vx.vp)

/-- Vector floating point: element-wise arithmetic, conversions and sums complete with the results of the current format under the
block's RM in vd, compares in a mask; `vrand` advances its counter by VL. -/
def Obligations.VectorFloat : Prop :=
  ∀ (s : State) (c : BitVec 1) (d a b : BitVec 6) (k y z m : BitVec 3),
    (∀ e ∈ floatTable s.h c d a b m ++ convertTable s.h c d a b y z m ++ fsumTable s.h c d a b m,
      Lane s e (s.h.putEls s.h.sew d.toNat e.2.2)) ∧
    (∀ e ∈ fcmpTable s.h c k a b m, Lane s e (s.h.putMask k.toNat e.2.2)) ∧
    Lane s (.vrand c d m, Need.of (fun y _ => y != 4) [(d.toNat, s.h.grp)] (.regs d.toNat s.h.grp), randResults s.h m)
      (let h1 := s.h.putEls s.h.sew d.toNat (randResults s.h m)
       { h1 with vx := { h1.vx with rngc := s.h.vx.rngc + word s.h.vx.vl } })

/-- Exact rationals: every result is the residue of R252 to R258, ND and QN included; `vqdec` writes numerators to vd and denominators to
the group after it. -/
def Obligations.VectorRational : Prop :=
  ∀ (s : State) (c : BitVec 1) (d a b : BitVec 6) (i : BitVec 5) (k m : BitVec 3),
    (∀ e ∈ ratTable s.h c d a b i m, Lane s e (s.h.putEls s.h.sew d.toNat e.2.2)) ∧
    (∀ e ∈ ratEqTable s.h c k a b m, Lane s e (s.h.putMask k.toNat e.2.2)) ∧
    Lane s (.vqdec c d a m, Need.of qType [(d.toNat, 2 * s.h.grp), (a.toNat, s.h.grp)] (.regs d.toNat (2 * s.h.grp)), decResults s.h a m false)
      ((s.h.putEls s.h.sew d.toNat (decResults s.h a m false)).putEls s.h.sew (d.toNat + s.h.grp) (decResults s.h a m true))

/-- Words of the lanes with results of their own kinds: those that write a scalar-side register (SPOISON for a poisoned element), `vpush`
(the highest source index wins, and a collision raises XC) and `vrank`. -/
def Obligations.VectorGathers : Prop :=
  ∀ (s : State) (c : BitVec 1) (f : BitVec 4) (d a x : BitVec 6) (k m : BitVec 3), s.h.votes = [] →
    (∀ e ∈ codeTable s.h c f a x k m, s.h.issueOk e.2.1 = true →
      (e.2.2.2 = false → ∃ t, exec e.1 s = .next t ∧ VDone s t (s.h.setCode f.toNat e.2.2.1) 0) ∧
      (e.2.2.2 = true → exec e.1 s = .next (s.drainRechecks.vtrap cSPOISON (s.h.code x.toNat) 0))) ∧
    Lane s (.vrank c d k m, Need.of intType [(d.toNat, s.h.grp)] (.regs d.toNat s.h.grp),
      (s.h.actives m.toNat).map (fun e => (e, { val := setBelow s.h k m e % 2 ^ s.h.sew, bad := false, fl := 0 })))
      (s.h.putEls s.h.sew d.toNat
        ((s.h.actives m.toNat).map (fun e => (e, { val := setBelow s.h k m e % 2 ^ s.h.sew, bad := false, fl := 0 })))) ∧
    (let p := (s.h.actives m.toNat).foldl (s.h.pushOne a.toNat x.toNat) { win := [], xc := [], drop := [] }
     Lane s (.vpush c d a x m, need3d anyType d.toNat a.toNat x.toNat s.h,
         p.win.map (fun t => (t.1, { val := 0, bad := false, fl := if p.xc.contains t.1 then flXC else 0 })))
      (p.drop.foldl Hart.markPm (s.h.putEls s.h.sew d.toNat
        (p.win.map (fun t => (t.1, { val := (s.h.opV a.toNat (t.2 - 1)).1, bad := (s.h.opV a.toNat (t.2 - 1)).2, fl := 0 }))))))

/-- VMISC: `vpclr` clears poison and keeps values and pm, `vpmclr` clears pm, `vpmask` reads poison into a mask, `vid` writes element
numbers, `vmv.r` copies whole registers with their poison. -/
def Obligations.VectorMoves : Prop :=
  ∀ (s : State) (c : BitVec 1) (d a : BitVec 6) (k : BitVec 3) (n : BitVec 2),
    (s.h.issueOk (needVpclr d.toNat s.h) = true →
      ∃ t, exec (.vpclr c d) s = .next t ∧ VDone s t ((List.range s.h.vx.vl).foldl
        (fun h e => h.setEl h.sew d.toNat e (h.el h.sew d.toNat e).1 false) s.h) 0 ∧ t.h.vx.m = s.h.vx.m) ∧
    (∃ t, exec (.vpmclr c) s = .next t ∧ VDone s t { s.h with vx := { s.h.vx with m := Tab.set 0 s.h.vx.m 7 0 } } 0) ∧
    (s.h.issueOk (needVpmask k.toNat a.toNat s.h) = true →
      ∃ t, exec (.vpmask c k a) s = .next t ∧ t.h.vx.v = s.h.vx.v ∧ t.h.vx.vp = s.h.vx.vp ∧
        (∀ e, t.h.maskBit k.toNat e = if e < s.h.vx.vl then (s.h.el s.h.sew a.toNat e).2 else s.h.maskBit k.toNat e) ∧
        (∀ j e, j ≠ k.toNat → t.h.maskBit j e = s.h.maskBit j e) ∧ VDone s t t.h 0) ∧
    (s.h.issueOk (needVid d.toNat s.h) = true →
      ∃ t, exec (.vid c d) s = .next t ∧
        VDone s t (s.h.putEls s.h.sew d.toNat ((List.range s.h.vx.vl).map (fun e => (e, { val := e, bad := false, fl := 0 })))) 0) ∧
    (s.h.issueOk (needVmvR d.toNat a.toNat (2 ^ n.toNat) s.h) = true →
      ∃ t, exec (.vmvR c d a n) s = .next t ∧ VDone s t t.h 0 ∧ t.h.vx.m = s.h.vx.m ∧
        ∀ q < nrOf s.h.nrc,
          let src := if d.toNat ≤ q ∧ q < d.toNat + 2 ^ n.toNat then a.toNat + (q - d.toNat) else q
          Tab.get 0 t.h.vx.v (s.h.phys q) = Tab.get 0 s.h.vx.v (s.h.phys src) ∧
            Tab.get 0 t.h.vx.vp (s.h.phys q) = Tab.get 0 s.h.vx.vp (s.h.phys src))

/-- The sequencer: its operations write a scalar-side register, `vcfgrd` reads a control register or raises ILLOP for one it may not
read, and VSETL grants the smaller of the requested length and the longest one, which `vsetl.max` grants whole. -/
def Obligations.SequencerResults : Prop :=
  ∀ (s : State) (c : BitVec 1) (d : BitVec 4) (a b i : BitVec 6) (j r : BitVec 12) (g : BitVec 2) (y sw : BitVec 3),
    (∀ e ∈ seqTable s.h c d a b i j, ∃ t, exec e.1 s = .next t ∧ VDone s t (s.h.setCode d.toNat e.2) 0 ∧ OnlyHart s t) ∧
    (∀ e ∈ vcfgTable s, r.toNat = e.1 → ∃ t, exec (.vcfgrd c d r) s = .next t ∧ VDone s t (s.h.setCode d.toNat e.2) 0 ∧ OnlyHart s t) ∧
    ((∀ e ∈ vcfgTable s, r.toNat ≠ e.1) → exec (.vcfgrd c d r) s = .next s.villop) ∧
    (∃ t, exec (.vsetl c d a g y sw) s = .next t ∧ VDone s t (granted s.h d g y sw (min (s.h.code a.toNat).toNat (longest s.h g sw))) 0) ∧
    (∃ t, exec (.vsetlMax c d g y sw) s = .next t ∧ VDone s t (granted s.h d g y sw (longest s.h g sw)) 0)

/-- Loops (R314-R316): `vloop` and `vloop.r` complete where the word at the loop's end is its `vlend`, and open the loop or, with a count of
0, pass over it; `vlend` completes at the loop's end, and counts and goes back while the limit is not reached, else closes the loop; `vexit`
completes while its loop is open, and leaves it and those opened inside it. A loop that is not open, or that is, where it must not be, takes
ILLOP, and one whose end lies outside the block ILLOP at that end, which is the model's reading (log entry 31). -/
def Obligations.LoopResults : Prop :=
  ∀ (s : State) (c : BitVec 1) (l k : BitVec 2) (f b : BitVec 10) (n : BitVec 6) (m : BitVec 3),
    (let fin := s.h.vaddr + 4 * f.zeroExtend 64
     ∀ s1 w, s.h.vx.loop l.toNat = none → s.h.inBlock fin = true → s.fetch s.h.actor fin = (s1, .word w) → isVlend w l = true →
      ∀ e ∈ [(Instr.vloop c l f n, 0), (.vloopR c l f n k, k.toNat + 1)], (e.2 ≠ 0 → s.h.vx.rotating = none) →
        let count := (s.h.code n.toNat).toNat
        ∃ t, exec e.1 s = .next t ∧ t.h.code (16 + l.toNat) = 0 ∧ (∀ i, i ≠ 16 + l.toNat → t.h.code i = s.h.code i) ∧ SameBytes s1 t ∧
          t.h.vx.v = s.h.vx.v ∧ t.h.vx.vl = s.h.vx.vl ∧
          (count = 0 → t.h.vpc = fin + 4 ∧ t.h.vx.loops = s.h.vx.loops ∧ t.h.vx.m = s.h.vx.m) ∧
          (count ≠ 0 → t.h.vpc = s.h.vaddr + 4 ∧ t.h.vx.m = (if e.2 = 0 then s.h.vx.m else (s.h.vx.predicates e.2 count 0).m) ∧ t.h.vx.loops =
            { ctr := l.toNat, stages := e.2, count := count, lim := if e.2 = 0 then count else count + e.2 - 1, top := s.h.vaddr + 4, fin := fin }
              :: s.h.vx.loops)) ∧
    (∀ x, s.h.vx.loop l.toNat = some x → s.h.vaddr = x.fin → s.h.vaddr - 4 * b.zeroExtend 64 = x.top →
      ∃ t, exec (.vlend c l b) s = .next t ∧ t.h.code (16 + l.toNat) = s.h.code (16 + l.toNat) + 1 ∧
        (∀ i, i ≠ 16 + l.toNat → t.h.code i = s.h.code i) ∧ OnlyHart s t ∧ t.h.vx.v = s.h.vx.v ∧
        ((s.h.code (16 + l.toNat) + 1).toNat < x.lim → t.h.vpc = x.top ∧ t.h.vx.loops = s.h.vx.loops) ∧
        (x.lim ≤ (s.h.code (16 + l.toNat) + 1).toNat →
          t.h.vpc = s.h.vaddr + 4 ∧ t.h.vx.loops = s.h.vx.loops.filter (fun y => y.ctr ≠ l.toNat))) ∧
    (∀ x, s.h.vx.loop l.toNat = some x →
      ∃ t, exec (.vexit c l m) s = .next t ∧ OnlyHart s t ∧
        (m = 0 ∨ s.h.actives m.toNat ≠ [] → t.h.vpc = x.fin + 4 ∧
          t.h.vx.loops = (s.h.vx.loops.dropWhile (fun y => y.ctr ≠ l.toNat)).tail) ∧
        (m ≠ 0 → s.h.actives m.toNat = [] → t.h.vpc = s.h.vaddr + 4 ∧ t.h.vx = s.h.vx)) ∧
    (s.h.vx.loop l.toNat = none → ∀ i ∈ [Instr.vlend c l b, .vexit c l m], exec i s = .next s.villop) ∧
    (let fin := s.h.vaddr + 4 * f.zeroExtend 64
     ∀ i ∈ [Instr.vloop c l f n, .vloopR c l f n k],
      (s.h.vx.loop l.toNat ≠ none → exec i s = .next s.villop) ∧
      (s.h.vx.loop l.toNat = none → s.h.inBlock fin = false → exec i s = .next (s.beyond fin)))

/-- `vreply` appends a reply of kind 2 with its code and the low half of a register, and `vend` one of kind 1 with VL, and ends the
block, whose flags go into FXF; either waits while the reply queue is full, and `vend` is ILLOP while a loop is open. -/
def Obligations.BlockEnd : Prop :=
  ∀ (s : State) (c : BitVec 1) (r k : BitVec 6) (b : Block), s.h.run = some b → s.h.live = true → s.h.wait = none →
    (s.core s.h.core).recheck = [] →
    (s.h.replies.length < 16 →
      (∃ t, exec (.vreply c r k) s = .next t ∧ VDone s { t with h := { t.h with replies := s.h.replies } } s.h 0 ∧
        t.h.replies = s.h.replies ++ [(word (2 * 2 ^ 56 + b.seq.toNat * 2 ^ 40 + k.toNat * 2 ^ 32 + (s.h.code r.toNat).toNat % 2 ^ 32), none)]) ∧
      (s.h.vx.loops = [] → ∃ t, exec (.vend c) s = .next t ∧ OnlyHart s t ∧ t.h.run = none ∧ t.h.vx = s.h.vx ∧
        t.h.fxf = orFlags s.h.fxf b.flags ∧ t.h.x = s.h.x ∧ t.h.pc = s.h.pc ∧ t.h.queue = s.h.queue ∧
        t.h.replies = s.h.replies ++ [(word (2 ^ 56 + b.seq.toNat * 2 ^ 40 + s.h.vx.vl % 2 ^ 32), some s.h.vx.snap)])) ∧
    (16 ≤ s.h.replies.length → exec (.vreply c r k) s = .next (s.vstall (partyWord 5 s.h.hid) 0) ∧
      (s.h.vx.loops = [] → exec (.vend c) s = .next (s.vstall (partyWord 5 s.h.hid) 0))) ∧
    (s.h.vx.loops ≠ [] → exec (.vend c) s = .next s.villop)

/-- A vector-side trap stops the vector side at its word with ECUT, unwinds the convoy and joins the block's flags to FXF; the registers,
the queue and memory stand. A SPAWN in hand of a hart in mode S or D that waits for its hart's enrolment ends, and has no effect. In mode A the
forager of a bound hart that is not halted takes the trap once at its next boundary, with VS = 1, the word's address in TEPC and its own PC held;
with an instruction in hand that waits, it does not yet. -/
def Obligations.VectorTraps : Prop :=
  (∀ (s : State) (cause cut : Nat) (tval : Word), s.h.mode = .a ∨ s.h.begun = none →
    let t := s.vtrap cause tval cut
    t.h.stop = some { cause := cause, tval := tval, tepc := s.h.vaddr, frec := [] } ∧ t.h.ecut = word cut ∧
      t.h.conv = [] ∧ t.h.vx = s.h.vx ∧ t.h.run = s.h.run ∧ t.h.queue = s.h.queue ∧ t.h.x = s.h.x ∧ t.h.pc = s.h.pc ∧ t.h.mode = s.h.mode ∧
      t.h.fxf = orFlags s.h.fxf ((s.h.run.map (fun b => b.flags)).getD 0) ∧ SameBytes s t ∧
      ((s.core s.h.core).recheck = [] → OnlyHart s t)) ∧
  (∀ (s : State) (cause cut c off : Nat) (x : Nat) (y tval : Word), s.h.mode ≠ .a → s.h.begun = some ⟨x, y, .child c off⟩ →
    let t := s.vtrap cause tval cut
    t.h.stop = some { cause := cause, tval := tval, tepc := s.h.vaddr, frec := [] } ∧ t.h.ecut = word cut ∧ t.h.conv = [] ∧
      t.h.begun = none ∧ t.h.iw = none) ∧
  (∀ (s : State) (v : VStop), s.h.stop = some v → s.h.mode = .a → s.h.wait = none →
    (s.h.iw ≠ none ∨ s.h.held ≠ none ∨ s.h.slot = none ∨ (∃ x, s.h.halt = some x ∧ x.steps = 0) → exec .vectorTrapDelivery s = .next s) ∧
    (s.h.iw = none → s.h.held = none → s.h.slot ≠ none → s.h.halt = none → s.h.pagePend = [] → (s.core s.h.core).recheck = [] →
      (s.setH (fun h => h.pageMet v.cause v.tval)).handlerOk v.cause = true → ¬(v.cause = cPAGE ∧ bit s.hub.split 0 = true) →
      ∃ t, exec .vectorTrapDelivery s = .next t ∧ t.h.held = some s.h.pc ∧
        Entered { s.h with held := some s.h.pc } t.h v.cause v.tval v.tepc true ∧ t.h.stop = some v))

/-- The matrix engine: `mmrow` whose checks pass, and whose outputs raise no enabled flag, completes with its outputs in vd; `mwld` whose checks
pass completes with the READY tile in a slot, with the word's format, also for a tile whose header is not valid (the model's reading: log entry 23), and its tag; `mwclr` whose checks pass completes with the slot free; a failing check
takes its trap and a wait leaves the word in hand. -/
def Obligations.MatrixResults : Prop :=
  ∀ (s : State) (c : BitVec 1) (d a : BitVec 6) (k l : BitVec 2) (o : BitVec 5) (f n : BitVec 4),
    let w := s.h.vword.zeroExtend 64
    (s.mmrowCheck w d.toNat a.toNat k.toNat l.toNat o.toNat f.toNat = .ok → (s.core s.h.core).rowFail = 0 →
      let r := s.rowOutputs d.toNat a.toNat k.toNat l.toNat o.toNat f.toNat false
      (s.h.run.bind (fun b => b.arithTrap r) = none →
        ∃ t, exec (.mmrow c d a k l o f) s = .next t ∧ VDone s t (s.h.putEls (aFmt f.toNat).acc d.toNat r) (flagsOf r) ∧ OnlyHart s t) ∧
      (∀ i v, s.h.run.bind (fun b => b.arithTrap r) = some (i, v) → exec (.mmrow c d a k l o f) s = .next (s.vtrap i v 0))) ∧
    (s.mwldCheck w n.toNat k.toNat = .ok →
      ∃ t, exec (.mwld c n k f) s = .next t ∧ t.h.vx = s.h.vx ∧ t.h.conv = s.h.conv.tail ∧ t.h.vpc = s.h.vaddr + 4 ∧ SameMemory s t ∧
        (t.wslot s.h.core k.toNat).st = 2 ∧ (t.wslot s.h.core k.toNat).tag = s.h.tid ∧ (t.wslot s.h.core k.toNat).fmt = f.toNat ∧
        (∀ j, j ≠ k.toNat → t.wslot s.h.core j = s.wslot s.h.core j)) ∧
    (s.mwclrCheck w k.toNat = .ok →
      ∃ t, exec (.mwclr c k) s = .next t ∧ t.h.vx = s.h.vx ∧ t.h.conv = s.h.conv.tail ∧ t.h.vpc = s.h.vaddr + 4 ∧ SameBytes s t ∧
        (t.wslot s.h.core k.toNat).st = 0 ∧ (t.wslot s.h.core k.toNat).tag = 0 ∧
        (∀ j, j ≠ k.toNat → t.wslot s.h.core j = s.wslot s.h.core j)) ∧
    (∀ e ∈ [(Instr.mmrow c d a k l o f, s.mmrowCheck w d.toNat a.toNat k.toNat l.toNat o.toNat f.toNat),
            (.mwld c n k f, s.mwldCheck w n.toNat k.toNat), (.mwclr c k, s.mwclrCheck w k.toNat)],
      (∀ i v, e.2 = .trap i v → exec e.1 s = .next (s.vtrap i v 0)) ∧ (∀ p, e.2 = .wait p → exec e.1 s = .next (s.vstall p 0)))

/-- Where the elements of a vector load or store lie (R155, R156): consecutive bits from a base and a bit offset, a signed byte stride, an
offset in a tile of the hart's core, and an unsigned index counted in elements or in bytes.
A poisoned index gives a poisoned 0 in a load, and SPOISON with the element number in a store and in an operation at the banks (R129; that it is
so for an operation at the banks, and TVAL, are the model's reading: log entry 24). -/
def Obligations.VectorAddresses : Prop :=
  (∀ (h : Hart) (b k : Word) (off e i w t : Nat) (sc : BitVec 1),
    (h.elAddr (unitWalk h b off) e = b + word ((off + e * h.sew) / 8) ∧ h.elShift (unitWalk h b off) e = (off + e * h.sew) % 8) ∧
    (h.elAddr (stridedWalk b k) e = b + BitVec.ofInt 64 (k.toInt * e) ∧ h.elShift (stridedWalk b k) e = 0) ∧
    (h.elAddr (tileWalk h b t) e = word (0xE0 * 2 ^ 56 + h.core * 2 ^ 40 + t * 65536) + b + word (e * h.sew / 8) ∧
      h.elShift (tileWalk h b t) e = e * h.sew % 8) ∧
    (let x := (h.el (if w = 0 then h.sew else 8 * 2 ^ w) i e).1
     h.elAddr (indexWalk h b i w sc) e = b + word (x * (if sc = 1 then 1 else h.sew / 8)) ∧ h.elShift (indexWalk h b i w sc) e = 0)) ∧
  (∀ (s : State) (w : Walker) (o : AmoOp) (v e : Nat), (s.h.idx w e).2 = true →
    s.loadElem w v e = (s.setH (fun h => h.putEl h.sew v e 0 true), .ok []) ∧ s.storeElem w v e = (s, .trap cSPOISON (word e)) ∧
      s.bopElem o w v e = (s, .trap cSPOISON (word e)))

/-- Vector loads: when every element from the cut on passes its checks, the word completes with those elements in vd, and memory is
unchanged, but for the records of errors that the reads find; a failing element traps with its number in ECUT, but shortens VL in a fault-only-first load; a wait leaves the word in hand.
So each load completes with nothing changed when no element is active from the cut on, and with the bits and the poison that its one
element reads when one is: then vd holds them. -/
def Obligations.VectorLoads : Prop :=
  ∀ (s u : State) (c : BitVec 1) (v : BitVec 6) (b : BitVec 5) (k : BitVec 6) (t : BitVec 4) (m : BitVec 3) (hh : BitVec 1) (w : BitVec 2)
    (sc : BitVec 1), ∀ e ∈ vloadTable s.h c v b k t m hh w sc, MemReady s e.2.1 e.2.2.2.1 e.2.2.2.2.1 →
    let s0 := Started s e.2.2.2.2.1
    let run := State.runElems (fun z j => z.loadElem e.2.2.1 v.toNat j) (s.h.elAddr e.2.2.1) s.h.cut (s.h.fromCut m.toNat) s0
    (run = (u, .all) → ∃ r, exec e.1 s = .next r ∧ MemDone s u r u.h.vx ∧ SameMemory s r ∧ r.h.x = s.h.x ∧ r.h.pc = s.h.pc ∧
      r.h.vx.vl = s.h.vx.vl ∧ r.h.vx.sc = s.h.vx.sc ∧ r.h.queue = s.h.queue) ∧
    (∀ j a x, run = (u, .trap j a x) →
      (e.2.2.2.2.2 = false ∨ j = 0 ∨ a = cMCHK → ∃ r, exec e.1 s = .next r ∧ MemTrapped s u r j a x) ∧
      (e.2.2.2.2.2 = true → j ≠ 0 → a ≠ cMCHK → ∃ r, exec e.1 s = .next r ∧ MemDone s u r { u.h.vx with vl := j })) ∧
    (∀ j p, run = (u, .wait j p) → exec e.1 s = .next (u.vstall p j)) ∧
    (s.h.fromCut m.toNat = [] → ∃ r, exec e.1 s = .next r ∧ MemDone s s0 r s.h.vx) ∧
    (∀ j s1 pl s2 x bad, s.h.fromCut m.toNat = [j] → 8 ≤ s.h.sew → (s.h.idx e.2.2.1 j).2 = false →
      s0.elemChecks .load e.2.2.1 j = (s1, .ok [pl]) → s1.readAt s.h.actor pl (s.h.elBytes e.2.2.1 j) = (s2, x, bad) →
      ∃ r, exec e.1 s = .next r ∧
        MemDone s s2 r (s.h.putEl s.h.sew v.toNat j (bits x (s.h.elShift e.2.2.1 j) s.h.sew) bad).vx ∧ SameMemory s r)

/-- Vector stores: the word completes when every element from the cut on is stored; no register changes. So each store completes with nothing
changed when no element is active from the cut on, and with its one element written when one is. An element of whole bytes puts its bytes at
its place, lowest first, and a narrower one only its bits; every other byte is as the dirty-page log and the key of the written
sectors leave it. -/
def Obligations.VectorStores : Prop :=
  (∀ (s u : State) (c : BitVec 1) (v : BitVec 6) (b : BitVec 5) (k : BitVec 6) (t : BitVec 4) (m : BitVec 3) (hh : BitVec 1) (w : BitVec 2)
    (sc : BitVec 1), ∀ e ∈ vstoreTable s.h c v b k t m hh w sc, MemReady s e.2.1 e.2.2.2.1 e.2.2.2.2 →
    let s0 := Started s e.2.2.2.2
    let run := State.runElems (fun z j => z.storeElem e.2.2.1 v.toNat j) (s.h.elAddr e.2.2.1) s.h.cut (s.h.fromCut m.toNat) s0
    (run = (u, .all) → ∃ r, exec e.1 s = .next r ∧ MemDone s u r s.h.vx ∧ SameBytes u r ∧ r.h.x = s.h.x ∧ r.h.pc = s.h.pc ∧
      r.h.queue = s.h.queue) ∧
    (∀ j a x, run = (u, .trap j a x) → ∃ r, exec e.1 s = .next r ∧ MemTrapped s u r j a x) ∧
    (∀ j p, run = (u, .wait j p) → exec e.1 s = .next (u.vstall p j)) ∧
    (s.h.fromCut m.toNat = [] → ∃ r, exec e.1 s = .next r ∧ MemDone s s0 r s.h.vx ∧ SameBytes s r) ∧
    (∀ j s1 pl, s.h.fromCut m.toNat = [j] → 8 ≤ s.h.sew → (s.h.idx e.2.2.1 j).2 = false →
      s0.elemChecks .store e.2.2.1 j = (s1, .ok [pl]) →
      let x := s.h.el s.h.sew v.toNat j
      ∃ r, exec e.1 s = .next r ∧ MemDone s (s1.writeAt s.h.actor pl (leBytes (s.h.elBytes e.2.2.1 j) x.1) x.2) r s.h.vx)) ∧
  (∀ (s s1 : State) (w : Walker) (v e : Nat) (pl : Place), (s.h.idx w e).2 = false → s.elemChecks .store w e = (s1, .ok [pl]) →
    pl.reg = none → s1.hasKey s.h.tid = true →
    let x := (s.h.el s.h.sew v e).1
    ∃ r, s.storeElem w v e = (r, .ok []) ∧ r.h.vx = s.h.vx ∧
      (8 ≤ s.h.sew →
        (∀ i < s.h.elBytes w e, r.byteAt (pl.loc + i) = BitVec.ofNat 8 (x / 256 ^ i)) ∧
        ∀ a, a < pl.loc ∨ pl.loc + s.h.elBytes w e ≤ a → r.byteAt a = (BesideWrite (s1.markLine pl) s.h.tid pl.loc (s.h.elBytes w e)).byteAt a) ∧
      (s.h.sew < 8 → s.h.elShift w e + s.h.sew ≤ 8 →
        r.byteAt pl.loc = BitVec.ofNat 8 (setBits (s1.numFor s.h.tid pl.loc 1) (s.h.elShift w e) s.h.sew x) ∧
        ∀ a, a ≠ pl.loc → r.byteAt a = (BesideWrite (s1.markLine pl) s.h.tid pl.loc 1).byteAt a))

/-- Described blocks: VLDD completes with the values of its blocks rounded into the current type, and VSTD with its blocks written, when
no block fails a check and no result raises an enabled flag; a result that does takes FPE before anything is written. So both complete when
VL is 0, with nothing changed, and when one block holds the whole vector, passes its checks and raises no enabled flag. (The values under the
poison of an invalid block are log entry 26, and TVAL as the flags of all elements joined is log entry 46: the model's readings.) -/
def Obligations.DescribedBlocks : Prop :=
  ∀ (s u : State) (c : BitVec 1) (v : BitVec 6) (b : BitVec 5) (i : BitVec 6) (m : BitVec 3) (w : BitVec 2) (f : BitVec 3),
    (∀ e ∈ [(Instr.vldd c v b m, needLoad describedType v.toNat s.h, blkAddr b.toNat),
            (.vlddX c v b i m w, needIndexed describedType v.toNat i.toNat w.toNat s.h, blkIndexed b.toNat i.toNat w.toNat)],
      MemReady s e.2.1 0 none →
      (∀ g, State.blocks (e.2.2 s.h) m.toNat s.h.cut (s.h.vx.vl + 1) 0 0 s [] = (u, g) →
        (u.h.run.bind (fun k => k.firstTrap g.res) = none → g.fin = .all →
          ∃ r, exec e.1 s = .next r ∧ r.h.vx = (u.h.putEls s.h.sew v.toNat g.res).vx ∧ SameMemory s r ∧ r.h.vpc = s.h.vaddr + 4 ∧
            r.h.conv = s.h.conv.tail ∧ r.h.x = s.h.x ∧ r.h.run = s.h.run.map (fun k => { k with flags := flOr k.flags (flagsOf g.res) })) ∧
        (u.h.run.bind (fun k => k.firstTrap g.res) ≠ none → exec e.1 s = .next (u.vtrap cFPE (word (flagsOf g.res % 32)) 0))) ∧
      (s.h.vx.vl = 0 → ∃ r, exec e.1 s = .next r ∧ MemDone s s r s.h.vx ∧ SameBytes s r) ∧
      (∀ p s1 pl s2 k, s.h.cut = 0 → 0 < s.h.vx.vl → e.2.2 s.h 0 = some p → s.access s.h.actor .load p 64 64 = (s1, .ok pl) →
        s1.readBlk pl = (s2, k) → s.h.vx.vl ≤ k.fmt.count →
        let l := (s.h.actives m.toNat).map (fun j => (j, s.h.blkResult k j))
        s.h.run.bind (fun y => y.firstTrap l) = none →
        ∃ r, exec e.1 s = .next r ∧ r.h.vx = (s.h.putEls s.h.sew v.toNat l).vx ∧ SameMemory s r ∧ r.h.vpc = s.h.vaddr + 4)) ∧
    (∀ d, dFmt f.toNat = some d → MemReady s (needStore describedType v.toNat s.h) 0 none → s.h.cut = 0 →
      let js := List.range ((s.h.vx.vl + d.count - 1) / d.count)
      let l := (List.range s.h.vx.vl).map (fun e => (e, s.h.describe d v.toNat e))
      (∀ parts p, s.blkChecks (s.h.code b.toNat) d 0 js = (u, parts, .all, p) →
        (u.h.run.bind (fun k => k.firstTrap l) = none →
          ∃ r, exec (.vstd c v b f) s = .next r ∧ r.h.vx = s.h.vx ∧ r.h.vpc = s.h.vaddr + 4 ∧ r.h.x = s.h.x ∧
            r.h.run.map (fun k => k.flags) = s.h.run.map (fun k => flOr k.flags (flagsOf l)) ∧
            SameBytes (parts.foldl (fun z x => z.writePart x (z.h.outBlk f.toNat d l x.num)) (u.sameRoom s)) r) ∧
        (u.h.run.bind (fun k => k.firstTrap l) ≠ none →
          exec (.vstd c v b f) s = .next ((u.sameRoom s).vtrap cFPE (word (flagsOf l % 32)) 0))) ∧
      (s.h.vx.vl = 0 → ∃ r, exec (.vstd c v b f) s = .next r ∧ MemDone s s r s.h.vx ∧ SameBytes s r) ∧
      (∀ s1 pl, 0 < s.h.vx.vl → s.h.vx.vl ≤ d.count → s.access s.h.actor .store (s.h.code b.toNat) 64 64 = (s1, .ok pl) →
        s.h.run.bind (fun k => k.firstTrap l) = none →
        ∃ r, exec (.vstd c v b f) s = .next r ∧ r.h.vx = s.h.vx ∧ r.h.vpc = s.h.vaddr + 4 ∧
          SameBytes ((s1.sameRoom s).writeBlk pl (s.h.outBlk f.toNat d l 0)) r))

/-- Compress-and-append (R171): the header's checks, the reservation of as many slots as fit, one store for each granted element, and the
result word with T, W, the overflow bit and no fault; a header that is not valid takes DISC, a poisoned one SPOISON before it, with the
base in TVAL (the model's readings: log entry 29). So `vst.app` completes
whenever its header is valid and no slot is granted, and when every granted slot's store passes its checks. -/
def Obligations.AppendResults : Prop :=
  ∀ (s s1 s2 u : State) (c : BitVec 1) (v : BitVec 6) (b : BitVec 5) (r m : BitVec 3) (hh : BitVec 1) (pl : Place) (x : Nat) (bad : Bool),
    MemReady s (needStore byteType v.toNat s.h) 0 none → s.h.app = none → s.h.cut = 0 → s.appHeader (s.h.code b.toNat) = (s1, .ok pl) →
    s1.readAt s1.h.actor pl 32 = (s2, x, bad) →
    let cap := bits x 64 32
    let n := (s.h.actives m.toNat).length
    let g := min n (cap - bits x 128 32)
    let ok := bits x 96 32 = 0 ∧ bits x 160 96 = 0 ∧ bits x 128 32 ≤ cap
    (bad = true → exec (.vstApp c v b r m hh) s = .next (s2.vtrap cSPOISON (s.h.code b.toNat) 0)) ∧
    (bad = false → ¬ok → exec (.vstApp c v b r m hh) s = .next (s2.vtrap cDISC (s.h.code b.toNat) 0)) ∧
    (bad = false → ok →
      let s3 := (s2.rmwAt s2.h.actor { pl with loc := pl.loc + 16 } (leBytes 8 (bits x 128 32 + g)) false).setH
        (fun h => { h with app := some (word (bits x 0 64), bits x 128 32, g, n), viw := none })
      State.runElems (fun z e => z.appElem v.toNat m.toNat (word (bits x 0 64)) (bits x 128 32) e)
        (s3.h.appAddr m.toNat (word (bits x 0 64)) (bits x 128 32)) 0 ((s3.h.actives m.toNat).take g) s3 = (u, .all) →
      ∃ t, exec (.vstApp c v b r m hh) s = .next t ∧ SameBytes u t ∧ t.h.vpc = s.h.vaddr + 4 ∧ t.h.app = none ∧ t.h.vx.v = s.h.vx.v ∧
        t.h.code (8 + r.toNat) = word ((if g < n then 2 ^ 63 else 0) + g * 2 ^ 40 + bits x 128 32) ∧
        ∀ i, i ≠ 8 + r.toNat → t.h.code i = s.h.code i) ∧
    (bad = false → ok → g = 0 → ∃ t, exec (.vstApp c v b r m hh) s = .next t ∧ t.h.vpc = s.h.vaddr + 4 ∧ t.h.vx.v = s.h.vx.v ∧
      t.h.code (8 + r.toNat) = word ((if 0 < n then 2 ^ 63 else 0) + bits x 128 32))

/-- Operations at the Comb banks: a base outside the Comb takes SPACE; when every element passes its checks, and no flag of `vbop.fadd` is
enabled, the word completes and no register changes; an element combines with the word at its home, and leaves a poisoned one as it is. So
each operation completes with nothing changed when no element is active from the cut on, and with its one element combined when one is.
`vbop.fadd` that raises an enabled flag takes FPE with nothing applied (the model's reading: log entry 43). -/
def Obligations.BankOperations : Prop :=
  (∀ (s u : State) (c : BitVec 1) (v : BitVec 6) (b : BitVec 5) (i : BitVec 6) (m : BitVec 3) (p : BitVec 2),
    ∀ e ∈ vbopTable c v b i m p, MemReady s (needVbop e.2 v.toNat i.toNat p.toNat s.h) 0 none →
    let B := s.h.code b.toNat
    let w := if p = 1 then indexWalk s.h B i.toNat 0 0 else if p = 2 then stridedWalk B 0 else unitWalk s.h B 0
    let s0 := if e.2 = .fadd then s.setH (fun h => h.setRaised 0) else s
    let run := State.runElems (fun z j => z.bopElem e.2 w v.toNat j) (s.h.elAddr w) s.h.cut (s.h.fromCut m.toNat) s0
    let fpe := fun (z : State) => e.2 = .fadd ∧ s.h.run.any (fun k => flTraps k.fen z.h.raised) = true
    (window B ≠ 3 → exec e.1 s = .next (s.vtrap cSPACE B 0)) ∧
    (window B = 3 → run = (u, .all) → ¬fpe u → ∃ r, exec e.1 s = .next r ∧
      MemDone s (if e.2 = .fadd then u.raise s.h.raised else u) r s.h.vx ∧ SameBytes u r ∧ r.h.x = s.h.x ∧ r.h.pc = s.h.pc) ∧
    (window B = 3 → ∀ j a x, run = (u, .trap j a x) → ¬fpe u → ∃ r, exec e.1 s = .next r ∧ MemTrapped s u r j a x) ∧
    (window B = 3 → ∀ x, run = (u, x) → fpe u → exec e.1 s = .next (s.vtrap cFPE (word (u.h.raised % 32)) 0)) ∧
    (window B = 3 → s.h.fromCut m.toNat = [] → ∃ r, exec e.1 s = .next r ∧ r.h.vx = s.h.vx ∧ r.h.vpc = s.h.vaddr + 4 ∧ SameBytes s r) ∧
    (∀ j s1 pl s2 old, window B = 3 → s.h.fromCut m.toNat = [j] → (s.h.idx w j).2 = false →
      s0.bopChecks e.2 (s.h.elAddr w j) (s.h.sew / 8) = (s1, .ok [pl]) →
      (s1.amoNote e.2 pl (s.h.sew / 8)).readAt s.h.actor pl (s.h.sew / 8) = (s2, old, false) →
      let x := s.h.el s.h.sew v.toNat j
      let q := e.2.eval (s.h.sew / 8) (s2.amoModulus (s.h.elAddr w j)) old x.1 0
      (e.2 = .fadd → ∀ k, s.h.run = some k → flTraps k.fen q.2 = false) →
      ∃ r, exec e.1 s = .next r ∧ r.h.vx = s.h.vx ∧ r.h.vpc = s.h.vaddr + 4 ∧
        SameBytes (s2.rmwAt s.h.actor pl (leBytes (s.h.sew / 8) q.1) x.2) r)) ∧
  (∀ (s s1 : State) (o : AmoOp) (p : Word) (pl : Place) (n v old : Nat) (bad : Bool),
    ((s.amoNote o pl n).readAt s.h.actor pl n = (s1, old, true) → s.bopApply o p pl n v bad = s1) ∧
    ((s.amoNote o pl n).readAt s.h.actor pl n = (s1, old, false) →
      SameBytes (s1.rmwAt s1.h.actor pl (leBytes n (o.eval n (s1.amoModulus p) old v 0).1) bad) (s.bopApply o p pl n v bad)))

/-- Each of these words, written out from the spec's encodings, decodes to its instruction, and that instruction's word is it. -/
def Obligations.DecodesWords : Prop :=
  ∀ e ∈ wordTable, decode e.1 = some e.2 ∧ encode e.2 = some e.1

/-- Decoding the word of a well-formed instruction gives it back, with every operand at every value that the encoding admits. -/
def Obligations.RoundTrip : Prop :=
  ∀ (i : Instr) (w : BitVec 32), encode i = some w → wellFormed i = true → decode w = some i

/-- A step runs the decoded instruction: the forager of a bound hart that nothing holds up fetches the word at its PC and runs the
instruction it decodes to; the vector side runs the word at the head of its convoy; an event of the plan runs, one that tests a deadline
after the other events and moves of its tick, those of the plan included. The rest of the step only counts and records what was done, and lets go
on what that frees. Before a later move of the plan what is due runs, and time passes when nothing is. Without a plan, a package in PHASE 0 starts,
and a hart's forager and vector side, the units and time take turns (the plan and the turns are the model's choice: entry 1). A tick of time of a
package in which nothing is pending moves the GTB by one and changes no byte. -/
def Obligations.StepRuns : Prop :=
  (∀ (s s1 : State) (hid : Nat) (rest : List Move) (w : IWord) (i : Instr),
    s.plan = { dt := 0, who := .forager hid } :: rest → s.h.live = true → s.h.hid = hid → s.h.slot ≠ none → s.h.wait = none →
    s.h.halt = none → s.h.begun = none → s.h.pagePend = [] → (s.h.trapWaits = false ∨ s.h.mode ≠ .a) →
    (s.breakpoints 0 s.h.pc = [] ∨ s.h.iw ≠ none) →
    ({ s with plan := rest } : State).idle.fetch s.h.actor s.h.pc = (s1, .word w) → wordFate false w = none → decode w = some i →
    step s = match exec i s1 with
      | .next t => .next (({ s with plan := rest } : State).settle (if t.did = .nothing then t else t.setH (Hart.spent s.h.pc)))
      | r => r) ∧
  (∀ (s : State) (hid : Nat) (rest : List Move) (i : Instr) (b : Block) (c : Word × IWord) (l : List (Word × IWord)),
    s.plan = { dt := 0, who := .vector hid } :: rest → s.h.live = true → s.h.hid = hid → s.h.slot ≠ none → s.h.released = false →
    s.h.stop = none → s.h.halt = none → s.h.run = some b → s.h.conv = c :: l → (isMemory c.2 = true ∨ s.breakpoints 2 c.1 = []) →
    decode c.2 = some i →
    step s = match exec i ({ s with plan := rest } : State).idle with
      | .next t => .next (({ s with plan := rest } : State).settle (({ s with plan := rest } : State).idle.countWork t))
      | r => r) ∧
  (∀ (s : State) (rest : List Move) (i : Instr), s.plan = { dt := 0, who := .event i } :: rest → encode i = none →
    (testsDeadline i = false ∨
      s.dueFirst = none ∧ (∀ m ∈ (thisTick rest).1, m.isTest = true) ∧ (thisTick rest).2 ≠ []) →
    step s = match exec i ({ s with plan := rest } : State).idle with
      | .next t => .next (({ s with plan := rest } : State).settle t)
      | r => r) ∧
  (∀ (s : State) (rest : List Move) (i : Instr), s.plan = { dt := 0, who := .event i } :: rest → testsDeadline i = true →
    (∀ j, s.dueFirst = some j → step s = match exec j s.idle with
      | .next t => .next (s.settle t)
      | r => r) ∧
    (∀ n, s.dueFirst = none → (thisTick rest).1.find? (fun m => !m.isTest) = some n →
      step s = step { s with plan := n :: { dt := 0, who := .event i } :: (thisTick rest).1.erase n ++ (thisTick rest).2 }) ∧
    (s.dueFirst = none → (∀ m ∈ (thisTick rest).1, m.isTest = true) → (thisTick rest).2 = [] → step s = .next { s with plan := rest })) ∧
  (∀ (s : State) (rest : List Move) (i : Instr) (w : BitVec 32), s.plan = { dt := 0, who := .event i } :: rest → encode i = some w →
    step s = .fault .planNotEvent) ∧
  (∀ (s : State) (m : Move) (rest : List Move), s.plan = m :: rest → m.dt ≠ 0 →
    (∀ j, s.dueEvent = some j → step s = match exec j s.idle with
      | .next t => .next (s.settle t)
      | r => r) ∧
    (s.dueEvent = none → step s = .next { s.tick with plan := { m with dt := m.dt - 1 } :: rest })) ∧
  (∀ s : State, s.plan = [] →
    (s.hub.phase = 0 → step s = match exec .coldStart s.idle with
      | .next t => .next (s.settle t)
      | r => r) ∧
    (s.hub.phase ≠ 0 → s.turn = 0 → step s = step { s with plan := [{ dt := 0, who := .forager s.h.hid }], turn := 1 }) ∧
    (s.hub.phase ≠ 0 → s.turn = 1 → step s = step { s with plan := [{ dt := 0, who := .vector s.h.hid }], turn := 2 }) ∧
    (s.hub.phase ≠ 0 → s.turn = 3 → s.dueEvent = none → step s = .next { s.tick.rotate with turn := 0 })) ∧
  (∀ s : State, Quiet s → s.tick.gtb = min (2 ^ 64 - 1) (s.gtb + 1) ∧ SameBytes s s.tick ∧ s.rotate.gtb = s.gtb ∧ SameBytes s s.rotate)

/-- What reset leaves, as the registers' own rules give it: PHASE 0 and no hart; memory with nothing listed; the ring size, the scrub
period, the far-tier map, the refusal counts; every tenant FREE with MAXW and TRCTL at their values; WDL, the breakpoints,
the tiles and the weight slots of every core; the ploughs; no lease, no object, no region. The lease length of a tenant, for which no rule gives a
value, is the model's choice (log entry 2). -/
def Obligations.ResetValues : Prop :=
  State.reset.hub.phase = 0 ∧ State.reset.harts = [] ∧ (∀ a, State.reset.byteAt a = 0) ∧ State.reset.hub.hevn = 7 ∧
    State.reset.hub.scrubp = 24 ∧ State.reset.hub.ftmap = 0 ∧ State.reset.hub.hevd = 0 ∧ State.reset.hub.mcdrop = 0 ∧
    State.reset.hub.incdrop = 0 ∧ State.reset.hub.hchip = 0xFFFF ∧
    (∀ t, (State.reset.tenant t).st = 0 ∧ (State.reset.tenant t).ptbase = 0 ∧ (State.reset.tenant t).bootMaxw = 10000000000 ∧
      (State.reset.tenant t).trctl = 0xA04 ∧ (State.reset.tenant t).leaseLen = 100000) ∧
    (∀ c, (State.reset.core c).wdl = 50000000 ∧ (∀ n, (State.reset.dbpc c n) = 0xFFFF0000) ∧ (∀ n, State.reset.tile c n = Tile.reset) ∧
      (∀ n, Tab.get WSlot.reset (State.reset.core c).slots n = WSlot.reset) ∧ ∀ n, (State.reset.bind c n).v = false) ∧
    (∀ f, (State.reset.plough f).epoch = 100 ∧ (State.reset.plough f).thr = 64 ∧ (State.reset.plough f).max = 16 ∧
      (State.reset.plough f).stat = 0) ∧
    (∀ e, (State.reset.engine e).leased = false) ∧ (∀ n, State.reset.region n = none) ∧ ∀ off, State.reset.obj off = none

/-- Memory and its poison marks have their one form at reset: no entry equals what an unlisted address reads as. -/
def Obligations.ResetMemory : Prop :=
  State.reset.memWf = true

/-- Every step keeps the one form of memory and of its poison marks. -/
def Obligations.StepMemory : Prop :=
  ∀ s t : State, s.memWf = true → step s = .next t → t.memWf = true

/-- The ends of explicit waits. A wait that no bank decides ends at its deadline with its outcome, and only then and for a hart that waits for it:
the hart's own die judges it, or, for `ewait`, the engine's die (R331), which, while it leaves requests unanswered, keeps the outcome; LINES 0 in the
outcome of `ewait` is the model's choice (log entry 18). A wait whose outcome its die has decided and keeps does not end so. A hart that waits
for an engine's slot issues nothing; a request at a bank or at the dispatcher leaves its queue, and its hart receives EXPIRED; an episode closes at
the first deadline among its arrivals, with the absent ranks lapsed. -/
def Obligations.WaitExpiries : Prop :=
  (∀ (s : State) (hid : Nat) (h : Hart) (w : Wait), WaitsIn s hid h w →
    ∀ e ∈ expiryTable s h hid w.kind,
      (w.dead ≤ s.gtb → e.2.1 = true → Undecided s hid w →
        (AnswersNow s w → ∃ t, exec e.1 s = .next t ∧ Answered s t hid h w e.2.2 ∧ OnlyHarts (s.traceHart h 5 0 h.pc e.2.2) t) ∧
        (∀ d, w.kind.decidedAt = some d → (s.die d).late ≠ 0 →
          exec e.1 s = .next { s with slow := s.slow ++ [⟨d, hid, w.issued, e.2.2, 0, none⟩] })) ∧
      (s.gtb < w.dead ∨ e.2.1 = false ∨ ¬Undecided s hid w → exec e.1 s = .next s)) ∧
  (∀ (s : State) (hid : Nat) (h : Hart) (w : Wait), WaitsIn s hid h w → hid < 65536 → Undecided s hid w → AnswersNow s w →
    (∀ e, w.kind = .slot e → w.dead ≤ s.gtb → ∃ t, exec (.engineSlotExpiry hid) s = .next t ∧ Answered s t hid h w 1 ∧
      (t.engine e).queue = (s.engine e).queue ∧ (t.engine e).pend = (s.engine e).pend.filter (fun c => c.hid ≠ hid)) ∧
    (∀ q kind req, w.kind = .elease kind req → s.leaseQ.find? (fun q => q.hid == hid && decide (q.dead ≤ s.gtb)) = some q →
      ∃ t, exec (.eleaseExpiry hid) s = .next t ∧ Answered s t hid h w 0xFF0000000001#64 ∧ t.leaseQ = s.leaseQ.erase q) ∧
    (∀ off o b j rank, s.dueJoin hid = some (off, o, b, j) → w.kind = .swjoin off rank → j.tick = w.issued →
      ∃ t o2, exec (.swjoinExpiry hid) s = .next t ∧ Answered s t hid h w (statusWord b.epi.toNat b.lowabs b.nabs 1) ∧
        t.swarm off = some (o2, { b with joins := b.joins.erase j })) ∧
    (∀ off o b q, s.dueAcq hid = some (off, o, b, q) → w.kind = .acq off →
      ∃ t o2, exec (.acqExpiry hid) s = .next t ∧ Answered s t hid h w (statusWord b.hold.toNat (s.holderRank b) 1 1) ∧
        t.latch off = some (o2, { b with queue := b.queue.erase q })) ∧
    (∀ off o b r msg, s.dueChan hid true = some (off, o, b, r) → w.kind = .send off msg → b.receivers = [] →
      b.nslot ≤ (b.tail - b.head).toNat →
      ∃ t o2, exec (.sendExpiry hid) s = .next t ∧ Answered s t hid h w 0xFFF00001#64 ∧
        t.chan off = some (o2, { b with senders := b.senders.erase r })) ∧
    (∀ off o b r dst, s.dueChan hid false = some (off, o, b, r) → w.kind = .recv off dst →
      ∃ t o2, exec (.recvExpiry hid) s = .next t ∧ Answered s t hid h w (recvExpired b) ∧
        t.chan off = some (o2, { b with receivers := b.receivers.erase r }))) ∧
  (∀ (s : State) (off : Nat) (o : Obj) (b : Swarm), s.swarm off = some (o, b) → s.episodeDue off = true → s.naming 2 off = [] →
    b.closed = [] → b.joins = [] →
    let gone := (b.members.filter (fun m => m.good && !m.arrived)).map (fun m => m.rank)
    ∃ t o2 b2, exec (.swarmDeadlineClose off) s = .next t ∧ t.swarm off = some (o2, b2) ∧ b2.epi = b.epi + 1 ∧
      b2.cst = (if gone = [] then 0 else 1) ∧ b2.lowabs = lowRank gone ∧ b2.nabs = gone.length ∧ b2.ctick = s.gtb ∧
      b2.members = b.members.map (fun m => { m with good := m.good && m.arrived, arrived := false }))

/-- The traps that deadlines and words raise at the forager. An overdue answer gives WAITX naming the die that decides, with the hart
waiting no more and its request under another number; an implicit wait past IWL gives WAITX with the awaited party, after what its
instruction takes back; a watchdog count at WDL gives WDOG, behind a pending PAGE or vector trap; each with the PC in TEPC; nothing happens
before they are due. A hart that is not bound becomes READY at its WAITX. A posted page fault that the host resumes runs again, and one that it
refuses, or does not answer within MAXWAIT, enters the trap. A word that fails a check of the scalar stream traps with the word in TVAL, and a fetch
that fails traps or waits; that the record of a word which cannot be read gives the PC as its address is the model's reading (log entry 51). -/
def Obligations.EventTraps : Prop :=
  (∀ (s : State) (hid : Nat) (h : Hart), s.hart hid = some h →
    (∀ w, s.overdue h = some w →
      let u := (s.abandonWait h w).hold hid
      let k : Hart := { u.h with wait := none, readyAt := if h.slot = none then s.gtb else h.readyAt }
      ({ u with h := k } : State).handlerOk cWAITX = true →
        ∃ t, exec (.waitAnswerTimeout hid) s = .next t ∧ Entered k t.h cWAITX (s.deciderWord w.kind h) h.pc false ∧
          { k with wait := h.wait, readyAt := h.readyAt, fabOut := h.fabOut } = h) ∧
    (s.overdue h = none → exec (.waitAnswerTimeout hid) s = .next s) ∧
    (∀ p, s.implicitDue h .forager = some p →
      let u := (match h.begun with
        | some b => (s.hold hid).takeBack b
        | none => s.hold hid).setH (fun k => k.spent k.pc)
      u.handlerOk cWAITX = true → ∃ t, exec (.iwlExpiry hid .forager) s = .next t ∧ Entered u.h t.h cWAITX p u.h.pc false) ∧
    (s.implicitDue h .forager = none → exec (.iwlExpiry hid .forager) s = .next s) ∧
    (∀ p, s.implicitDue h .vector = some p →
      exec (.iwlExpiry hid .vector) s = .next (if h.conv.isEmpty then (s.hold hid).issueOut p else (s.hold hid).waitOut p)) ∧
    (s.implicitDue h .vector = none → exec (.iwlExpiry hid .vector) s = .next s) ∧
    (s.dogDue h = true → h.dogStops = true →
      let u := (s.hold hid).dropIssue
      let k : Hart := { (if h.iw = none then u.h else u.h.spent h.pc) with wd := 0 }
      (∀ b, u.boundary = some b → exec (.watchdogExpiry hid) s = .next b) ∧
      (u.boundary = none → ({ u with h := k } : State).handlerOk cWDOG = true →
        ∃ t, exec (.watchdogExpiry hid) s = .next t ∧ Entered k t.h cWDOG (word h.wd) h.pc false)) ∧
    (s.dogDue h = false ∨ h.dogStops = false → exec (.watchdogExpiry hid) s = .next s) ∧
    (∀ (v : Word) (x : VStop) (vs : Bool), h.post = some (x, vs) →
      let k : Hart := { h with post := none, wait := none, readyAt := s.gtb }
      (bits v.toNat 0 16 = hid → bit v.toNat 63 = true → bit v.toNat 62 = false →
        ∃ t, exec (.hostPfAnswer h.tid v) s = .next t ∧ t.gtb = s.gtb ∧ SameBytes s t ∧
          t.h = if vs then { k with vpc := x.tepc, conv := [], cut := bits h.ecut.toNat 0 17, again := h.again || x.tepc != h.vpc, votes := [],
                                    owed := false, app := none, stop := none, viw := none, held := none }
            else k) ∧
      (bits v.toNat 0 16 = hid → bit v.toNat 63 = true → bit v.toNat 62 = true →
        ({ s.hold hid with h := k } : State).handlerOk x.cause = true →
        ∃ t, exec (.hostPfAnswer h.tid v) s = .next t ∧ Entered k t.h x.cause x.tval x.tepc vs) ∧
      (∀ w, h.wait = some w →
        (w.dead ≤ s.gtb → ({ s.hold hid with h := k } : State).handlerOk x.cause = true →
          ∃ t, exec (.pfAnswerTimeout hid) s = .next t ∧ Entered k t.h x.cause x.tval x.tepc vs) ∧
        (s.gtb < w.dead → exec (.pfAnswerTimeout hid) s = .next s)))) ∧
  (∀ (s : State) (w : IWord),
    (wordFate false w = some .illop → exec (.badWord w false) s = .next (s.trap cILLOP (w.zeroExtend 64))) ∧
    (wordFate false w = some .illstream → exec (.badWord w false) s = .next (s.trap cILLSTREAM (w.zeroExtend 64))) ∧
    exec (.badWord w true) s = .next ((s.mcheck 12 s.h.die s.h.tid s.h.hid s.h.core s.h.pc 0).trap cMCHK 0)) ∧
  (∀ (s s1 : State) (c : Nat) (v p : Word),
    (s.fetch s.h.actor s.h.pc = (s1, .trap c v) → exec .fetchFault s = .next (s1.trap c v)) ∧
    (s.fetch s.h.actor s.h.pc = (s1, .wait p) → exec .fetchFault s = .next (s1.stall p)))

/-- Starts, resets and the hub. A start ends every hart, frees every tenant, zeroes memory (a warm one all but the regions whose clean bit is
1, with their marks), advances every incarnation and gives PHASE 6, or 8 when the firmware fails its check; a cold one also clears the GTB. A
reset of a die's cores ends its harts, empties its tiles and weight slots and leaves one KIND 13 record. The close of negotiation announces
the chip to its peers, if its ports are up, and a peer with a new incarnation has restarted: its harts are members of this chip's swarms no longer.
GTBSET, FTMAP and HCHIP are taken in PHASE 6 alone. A zeroing clears its region, whose clean bit reads 1 only once the zeroing ends. A scrub corrects a
single-bit error, which its die counts, and marks an uncorrectable unit poisoned, and changes no byte but those of its record in the machine-check
ring. The model's choices here: the bytes are cleared at GO (log entry 40); incarnations that advance at a start and at a field die's reset, and dies
that leave reset at a start (entry 54); the skip goes by the clean bit as it stands (entry 55); what a start keeps of the hub (entry 90). -/
def Obligations.MachineEvents : Prop :=
  (∀ (s : State) (cold : Bool), ∃ t, exec (if cold then .coldStart else .warmStart) s = .next t ∧
    t.hub.phase = (if s.hub.fwBad then 8 else 6) ∧ t.gtb = (if cold then 0 else s.gtb) ∧ t.harts = [] ∧ t.tenants = [] ∧
    (∀ a, (Kept s cold a → t.byteAt a = s.byteAt a ∧ Tab.get false t.psn a = Tab.get false s.psn a) ∧
      (¬Kept s cold a → t.byteAt a = 0 ∧ Tab.get false t.psn a = false)) ∧
    t.cores = [] ∧ t.engines = [] ∧ t.regions = [] ∧ t.objs = [] ∧ t.rob = [] ∧ t.allot = [] ∧ t.hub.clean = Hub.reset.clean ∧
    t.hub.chipInc = s.hub.chipInc + 1 ∧
    t.hub.lock = s.hub.lock ∧ t.hub.loss = (!cold && s.hub.loss) ∧ t.hub.peers = (if cold then [] else s.hub.peers) ∧ (∀ d, d < 13 → (t.die d).inc = (s.die d).inc + 1 ∧ (t.die d).inReset = false) ∧ t.plan = s.plan) ∧
  (∀ (s : State) (die : Nat),
    (die < 8 → ∃ t, exec (.dieCoreReset die) s = .next t ∧ (∀ k ∈ t.harts, k.die ≠ die) ∧ (t.die die).inReset = true ∧
      (∀ c, c / 25 = die → (t.core c).tiles = [] ∧ (t.core c).slots = []) ∧
      ((s.hub.mchead + 2 ^ 32 - s.hub.mctail) % 2 ^ 32 < 4096 → t.mcRing = s.mcRing ++ [mcWords 13 die 0 0xFFFF die 0 s.gtb 0])) ∧
    ((s.die die).inReset = true → ∃ t, exec (.dieLeavesReset die) s = .next t ∧ (t.die die).inReset = false ∧
      (t.die die).inc = (s.die die).inc + 1 ∧ { t with dies := s.dies } = s) ∧
    (∃ t, exec (.fieldDieReset die) s = .next t ∧ (t.plough die).stat = (if (s.plough die).stat = 1 then 4 else (s.plough die).stat) ∧
      (t.plough die).own = false ∧ (∀ c ∈ t.copied, c.1 ≠ die) ∧ (t.die (8 + die)).inc = (s.die (8 + die)).inc + 1 ∧ SameBytes s t)) ∧
  (∀ (s : State) (v : Word) (chip : Nat) (inc : BitVec 12),
    (∀ e ∈ hubTable s v, exec e.1 s = .next (if e.2.1 then { s with hub := e.2.2 } else s)) ∧
    (s.hub.phase ≠ 6 → exec .negotiationClose s = .next s) ∧
    (s.hub.phase = 6 → ∃ t, exec .negotiationClose s = .next t ∧ { t with hub := s.hub, outbox := s.outbox } = s ∧
      { t.hub with fabSeq := s.hub.fabSeq } = negotiated s.hub ∧
      (bit (negotiated s.hub).feat0 1 = true → s.hub.hchip ≠ 0xFFFF → (s.tenant 0).replay = false → ∃ fr, t.outbox = s.outbox ++ [fr] ∧
        fr.dst = 0xFFFF ∧ fr.src = s.hub.hchip ∧ fr.inc = s.hub.chipInc)) ∧
    (∃ t, exec (.chipIncarnationAnnouncement chip inc) s = .next t ∧ SameBytes s t ∧
      t.hub = { s.hub with peers := Tab.set none s.hub.peers chip (some inc.toNat) } ∧
      (Tab.get none s.hub.peers chip = none ∨ Tab.get none s.hub.peers chip = some inc.toNat → { t with hub := s.hub } = s) ∧
      (∀ old, Tab.get none s.hub.peers chip = some old → old ≠ inc.toNat →
        (∀ off, t.obj off = (s.obj off).map (ghostChip chip)) ∧ ∀ fr ∈ t.parts, fr.src ≠ chip)) ∧
    (∃ t, exec (.gtbsetWrite v) s = .next t ∧
      if s.hub.phase = 6 ∧ s.hub.cold = true ∧ s.hub.gtbSet = false ∧ s.hub.spawned = false then
        t.gtb = v.toNat ∧ t.hub.gtbSet = true ∧ SameBytes s t
      else t = s) ∧
    (∃ t, exec (.ftmapWrite v) s = .next t ∧ { t with hub := s.hub } = s ∧
      (s.hub.phase = 6 ∧ ftmapLegal v.toNat → t.hub.ftmap = v &&& 0xFFFF07FF00000007#64 ∧ t.hub.refused = s.hub.refused) ∧
      (s.hub.phase ≠ 8 → ¬(s.hub.phase = 6 ∧ ftmapLegal v.toNat) → t.hub.ftmap = s.hub.ftmap ∧ t.hub.refused = satInc s.hub.refused 32) ∧
      (s.hub.phase = 8 → t = s)) ∧
    (s.hub.zreqBusy = true ∨ s.hub.phase = 8 → exec (.zreqGo v) s = .next s) ∧
    (s.hub.zreqBusy = false → s.hub.phase ≠ 8 → bit v.toNat 63 = true →
      let n := bits v.toNat 0 10
      ∃ t, exec (.zreqGo v) s = .next t ∧ t.hub.zreqBusy = true ∧ bit t.hub.cleanBits n = false ∧
        bit ({ t.hub with zreqBusy := false } : Hub).cleanBits n = true ∧
        ∀ a, t.byteAt a = (if n * 2 ^ 30 ≤ a ∧ a < (n + 1) * 2 ^ 30 then 0 else s.byteAt a))) ∧
  (∀ (s : State) (sector off : Nat), ∀ e ∈ scrubTable sector off, ∃ t, exec e.1 s = .next t ∧
    (∀ a, inMcRing a = false → t.byteAt a = s.byteAt a) ∧
    (e.2.1 = false ∨ Tab.get 0 s.ecc e.2.2.1 = 0 → t = s) ∧
    (e.2.1 = true → Tab.get 0 s.ecc e.2.2.1 = 1 → Tab.get 0 t.ecc e.2.2.1 = 0 ∧ { t with ecc := s.ecc, dies := s.dies } = s ∧
      (t.die e.2.2.2).corrected = (s.die e.2.2.2).corrected + 1) ∧
    (e.2.1 = true → 2 ≤ Tab.get 0 s.ecc e.2.2.1 → inMcRing e.2.2.1 = false → Tab.get 0 t.ecc e.2.2.1 = 0 ∧ Tab.get false t.psn e.2.2.1 = true))

/-- A tenant's registers and states. TINV discards translations and reads BUSY until every access under them has been performed; ROREQ gives, takes
or clears a reverse ownership entry of an allotted page, or is refused with its reason; TENBOOT makes the boot hart; a tenant goes from FREE to
ACTIVE, FREEZING, FROZEN once its harts are unbound, back to ACTIVE, or to FREE with its harts, leases, translations, entries and registers gone. None
of these registers answers in PHASE 8. Which reason refuses a reverse-ownership request (log entry 47), the boot of tag 0 (entry 19) and a boot hart
whose enrolment waits (entry 63) are the model's readings. -/
def Obligations.TenantEvents : Prop :=
  (∀ (s : State) (tag : Nat) (v : Word),
    ((s.tenant tag).tinvBusy = false → s.hub.phase ≠ 8 → ∃ t, exec (.tinvGo tag v) s = .next t ∧ (t.tenant tag).tinvBusy = bit v.toNat 0 ∧
      t.tlb = (if bit v.toNat 0 then s.tlb.filter (fun e => !tinvHits tag (v &&& 0x00FFFFFFFFFF0303#64) e) else s.tlb) ∧
      OnlyTenants s { t with tlb := s.tlb }) ∧
    ((s.tenant tag).tinvBusy = true ∨ s.hub.phase = 8 → exec (.tinvGo tag v) s = .next s) ∧
    ((∃ e ∈ s.engines, ∃ c ∈ e.2.queue ++ e.2.pend, c.tid = tag) → exec (.tinvComplete tag) s = .next s) ∧
    ((∃ e ∈ s.objs, ∃ o b, ∃ r ∈ b.receivers, e.2 = some o ∧ o.body = .chan b ∧ o.tag = tag ∧ ∃ pl ∈ r.dst, isMain pl.loc = true) →
      exec (.tinvComplete tag) s = .next s) ∧
    ((∀ e ∈ s.engines, ∀ c ∈ e.2.queue ++ e.2.pend, c.tid ≠ tag) →
      (∀ e ∈ s.objs, ∀ o b, e.2 = some o → o.body = .chan b → o.tag = tag → ∀ r ∈ b.receivers, ∀ pl ∈ r.dst, isMain pl.loc = false) →
      ∃ t, exec (.tinvComplete tag) s = .next t ∧ t.tenant tag = { s.tenant tag with tinvBusy := false } ∧ OnlyTenants s t)) ∧
  (∀ (s : State) (tag : Nat) (v : Word),
    (bits (s.tenant tag).rostat.toNat 0 2 = 1 ∨ s.hub.phase = 8 → exec (.roreqGo tag v) s = .next s) ∧
    (bits (s.tenant tag).rostat.toNat 0 2 ≠ 1 → s.hub.phase ≠ 8 → bit v.toNat 63 = true →
      ∃ t, exec (.roreqGo tag v) s = .next t ∧ OnlyTenants s t ∧
        t.tenant tag = { s.tenant tag with roreq := v &&& 0xE3FFFF0FFFFFFFFF#64, rostat := 1,
                                           roBad := decide (bits v.toNat 58 3 ≠ 0 ∨ bits v.toNat 36 4 ≠ 0) }) ∧
    (bits (s.tenant tag).rostat.toNat 0 2 = 1 →
      let x := (s.tenant tag).roreq.toNat
      let pn := bits x 0 36
      ∃ t, exec (.roreqComplete tag) s = .next t ∧ OnlyTenants s { t with rob := s.rob } ∧ (∀ p, p ≠ pn → Tab.get 0 t.rob p = Tab.get 0 s.rob p) ∧
        (s.roreqReason tag x ≠ 0 →
          t.rob = s.rob ∧ t.tenant tag = { s.tenant tag with rostat := word (s.roreqReason tag x * 2 ^ 8 + 3) }) ∧
        (s.roreqReason tag x = 0 → t.tenant tag = { s.tenant tag with rostat := 2 } ∧
          (bits x 61 2 = 0 → Tab.get 0 t.rob pn = robEntry 0 tag (bits x 56 2) (bits x 40 16)) ∧
          (bits x 61 2 = 1 → Tab.get 0 t.rob pn = robEntry 1 tag 0 0) ∧
          (bits x 61 2 = 2 → robValid (Tab.get 0 t.rob pn).toNat = false)))) ∧
  (∀ (s : State) (tag : Nat) (v : Word),
    ((s.tenant tag).bootBusy = false → (if tag = 0 then 6 ≤ s.hub.phase else (s.tenant tag).st = 1) → s.hub.phase ≠ 8 → bit v.toNat 63 = true →
      ∃ t, exec (.tenbootGo tag v) s = .next t ∧ OnlyTenants s t ∧
        t.tenant tag = { s.tenant tag with bootRec := word (bits v.toNat 0 56), bootBusy := true, bootRes := 0 }) ∧
    ((s.tenant tag).bootBusy = true ∨ s.hub.phase = 8 → bit v.toNat 63 = true → exec (.tenbootGo tag v) s = .next s) ∧
    (bit v.toNat 63 = false → s.hub.phase ≠ 8 → ∃ t, exec (.tenbootGo tag v) s = .next t ∧ OnlyTenants s t ∧
      t.tenant tag = { s.tenant tag with bootRec := word (bits v.toNat 0 56) }) ∧
    ((s.tenant tag).bootBusy = false → exec (.tenbootComplete tag) s = .next s) ∧
    (∀ s1 s2 pls bs hid core, (s.tenant tag).bootBusy = true → (s.tenant tag).bootChild = none →
      s.accessRun (hostActor tag) .load (s.tenant tag).bootRec 2 = (s1, .ok pls) →
      s1.readPieces (hostActor tag) pls = (s2, bs, false) → s2.coresFor tag 4 ≠ [] → (tag ≠ 0 → (s2.tenant tag).st = 1) →
      s2.admitImage tag (imageOf bs) = .ok (hid, core) →
      ∃ t, exec (.tenbootComplete tag) s = .next t ∧
        (s2.proxySwarm (imageOf bs) = none → s2.slowest (imageOf bs).homes = none →
          (t.tenant tag).bootBusy = false ∧ (t.tenant tag).bootRes = 1 ∧ ∃ k ∈ t.pool, BootHart s2 tag hid core (imageOf bs) k ∧ k.created = false) ∧
        (s2.proxySwarm (imageOf bs) ≠ none ∨ s2.slowest (imageOf bs).homes ≠ none →
          (t.tenant tag).bootChild = some (hid, bits (imageOf bs).swarm 0 28) ∧
            ∃ k ∈ t.pool, BootHart s2 tag hid core (imageOf bs) k ∧ k.created = true))) ∧
  (∀ (s : State) (tag : Nat) (v : Word), tag ≠ 0 → (s.tenant tag).releasing = false → s.hub.phase ≠ 8 →
    (tencfgOk (withState v 1).toNat = true → (s.tenant tag).st = 0 → s.hub.phase = 7 →
      ∃ t, exec (.tenantActivate tag v) s = .next t ∧ OnlyTenants s t ∧
        t.tenant tag = { quotasOf (withState v 1).toNat (s.tenant tag) with st := 1, key := true, keyGen := (s.tenant tag).keyGen + 1 }) ∧
    (tencfgOk (withState v 1).toNat = true → (s.tenant tag).st = 3 →
      ∃ t, exec (.tenantThaw tag v) s = .next t ∧ OnlyTenants s t ∧ t.tenant tag = { quotasOf (withState v 1).toNat (s.tenant tag) with st := 1 }) ∧
    (tencfgOk (withState v 3).toNat = true → (s.tenant tag).st = 1 →
      ∃ t, exec (.tenantFreeze tag v) s = .next t ∧ (t.tenant tag).st = 2 ∧ ∀ e, (t.engine e).leased = true → (t.engine e).tid ≠ tag) ∧
    (tencfgOk (withState v 0).toNat = true → (s.tenant tag).st = 3 →
      ∃ t, exec (.tenantRelease tag v) s = .next t ∧ (t.tenant tag).releasing = true ∧ (t.tenant tag).combq = 0 ∧ (t.tenant tag).ptbase = 0 ∧
        (∀ k ∈ t.harts, k.tid ≠ tag) ∧ ∀ e ∈ t.tlb, e.tag ≠ tag)) ∧
  (∀ (s : State) (tag : Nat), tag ≠ 0 →
    ((s.tenant tag).st = 2 → (∀ k ∈ s.harts, k.tid = tag → k.slot = none ∧ k.leaving = none) →
      ∃ t, exec (.tenantFrozen tag) s = .next t ∧ OnlyTenants s t ∧ t.tenant tag = { s.tenant tag with st := 3 }) ∧
    ((s.tenant tag).st ≠ 2 ∨ (∃ k ∈ s.harts, k.tid = tag ∧ (k.slot ≠ none ∨ k.leaving ≠ none)) → exec (.tenantFrozen tag) s = .next s) ∧
    (∀ v, (s.tenant tag).releasing = true → (s.tenant tag).st = 3 → s.hub.phase ≠ 8 → tencfgOk (withState v 3).toNat = true →
      ∃ t, exec (.tenantFreeze tag v) s = .next t ∧ OnlyTenants s t ∧ t.tenant tag = quotasOf (withState v 3).toNat (s.tenant tag)) ∧
    ((s.tenant tag).releasing = true → ∃ t, exec (.tenantReleased tag) s = .next t ∧ SameBytes s t ∧
      t.tenant tag = { s.tenant tag with
        st := 0, releasing := false, key := false,
        hsres := if bits (s.tenant tag).hsres.toNat 0 8 = 0xFF then statusWord 0 0xFFF 0 6 else (s.tenant tag).hsres } ∧
      (∀ fr ∈ t.held, fr.tag ≠ tag) ∧
      (∀ p, robValid (Tab.get 0 t.rob p).toNat = true → robTag (Tab.get 0 t.rob p).toNat ≠ tag) ∧ ∀ p, Tab.get 0 t.allot p ≠ tag)) ∧
  (∀ (s : State) (core idx slot : Nat) (v : Word),
    (idx < 2 → s.hub.phase ≠ 8 → ∃ t, exec (.pmapWrite core idx v) s = .next t ∧
      let new := s.pmapWith core idx v
      if pmapOk new = true ∧ (s.core core).binds = [] then Tab.get 0 (t.core core).pmap idx = v
      else pmapOk new = false → (t.core core).pmap = (s.core core).pmap ∧ t.hub.refused = satInc s.hub.refused 32) ∧
    (s.hub.phase ≠ 8 → s.slotUsed core slot = false → (s.core core).recheck = [] →
      ∃ t, exec (.weightSlotFreeMgmt core slot) s = .next t ∧ { t with cores := s.cores } = s ∧
        let m := Tab.get WSlot.reset (t.core core).slots slot
        m.st = 0 ∧ m.tag = 0 ∧ m.psn = false) ∧
    (s.slotUsed core slot = true → ∃ t, exec (.weightSlotFreeMgmt core slot) s = .next t ∧ { t with held := s.held } = s) ∧
    (s.hub.phase = 8 → ∀ i ∈ [Instr.weightSlotFreeMgmt core slot, .pmapWrite core idx v], exec i s = .next s))

/-- Scheduling. A record that passes its checks binds its hart; a valid record that is removed, whether by its writer, by Apiary or at the
end of its quantum, reads V = 0 from then on and pre-empts its hart, or, while an instruction of it whose effect has begun waits for its party, has it
pre-empted once that instruction completes; its lanes stay taken until the unbinding completes. Over the power limit LP falls first, then the
clock; a killed hart is gone. A bound hart's vector side takes the oldest entry with the modes of its VRUN, a convoy issues, traps whole, or waits,
and a queued word whose runs agree leaves the queue, while a vote that gives another result, or fails, takes the vector side back to before the word.
The model's choices and readings here: the step over the power limit (log entry 17), the word that holds a convoy of another hart on its weight slot
(entry 77), the entries of the history buffer that queued words hold (entry 78), that all words of a convoy are checked at issue (entry 30), and
where the vector side restarts after a vote (entry 22). -/
def Obligations.ScheduleEvents : Prop :=
  (∀ (s : State) (core slot : Nat) (d0 : Word) (host : Bool) (h : Hart), s.hart (bits d0.toNat 0 16) = some h → h.live = true →
    bit d0.toNat 63 = true → host = bit s.hub.split 1 → slot < 8 → (s.bind core slot).v = false → (s.die (dieOfCore core)).inReset = false →
    s.hub.phase ≠ 8 → s.bindErr core slot d0.toNat = 0 → s.restoreBad = [] →
    ∃ t, exec (.bindRecordSubmit core slot d0 host) s = .next t ∧ t.hart (bits d0.toNat 0 16) = some (h.bound slot) ∧
      let b := t.bind core slot
      b.v = true ∧ b.err = 0 ∧ b.tick = s.gtb ∧ b.hart = bits d0.toNat 0 16 ∧ b.tag = bits d0.toNat 32 10 ∧ b.lgm = bits d0.toNat 16 8 ∧
        b.quant = if host then (s.bind core slot).quant else s.quantum (bits d0.toNat 56 3)) ∧
  (∀ (s : State) (core slot : Nat) (d0 : Word) (host : Bool) (h : Hart), s.hart (s.bind core slot).hart = some h → h.live = true →
    (s.bind core slot).v = true → h.core = core → h.slot = some slot → s.hub.phase ≠ 8 →
    ∀ e ∈ unbindTable s h core slot d0 host, e.2.1 = true →
      (h.pagePend = [] → (h.trapWaits = false ∨ h.mode ≠ .a) → h.begun = none → s.dogDue h = false → (s.core core).recheck = [] →
        ∃ t, exec e.1 s = .next t ∧ t.hart (s.bind core slot).hart = some (h.preempted s.gtb) ∧ t.bind core slot = e.2.2 ∧ SameBytes s t) ∧
      (s.begunWaits h = true → ∃ t, exec e.1 s = .next t ∧ t.bind core slot = e.2.2 ∧ SameBytes s t ∧
        t.hart (s.bind core slot).hart = some { h.stopConvoy with slot := none, leaving := some slot })) ∧
  (∀ (s : State) (core slot : Nat),
    (s.leavers core slot = [] → ∃ t, exec (.unbindingComplete core slot) s = .next t ∧ { t with cores := s.cores } = s ∧
      t.bind core slot = { s.bind core slot with unbinding := 0 }) ∧
    (s.leavers core slot ≠ [] → (∀ h ∈ s.leavers core slot, s.begunWaits h = true) → exec (.unbindingComplete core slot) s = .next s) ∧
    (∀ (h : Hart) (b : Begun), s.leavers core slot = [h] → s.hart h.hid = some h → h.live = true → h.begun = some ⟨b.dst, b.val, .stands⟩ → s.begunWaits h = false →
      h.slot = none → h.pagePend = [] → (h.trapWaits = false ∨ h.mode ≠ .a) → (s.core core).recheck = [] →
      ∃ t, exec (.unbindingComplete core slot) s = .next t ∧ (t.bind core slot).unbinding = 0 ∧ SameBytes s t ∧
        t.hart h.hid = some (h.finishBegun.sealAll.preempted s.gtb))) ∧
  (∀ (s : State) (watts : Nat),
    (s.hub.power < watts → ∀ h, s.lowerable 0 5 = some h → exec (.powerSample watts) s = .next (s.updHart h.hid lowerLp)) ∧
    (s.hub.power < watts → s.lowerable 0 5 = none → 1600 < s.hub.clock →
      exec (.powerSample watts) s = .next { s with hub := { s.hub with clock := max 1600 (s.hub.clock - 100) } }) ∧
    (watts ≤ s.hub.power → s.hub.power * 95 < watts * 100 → exec (.powerSample watts) s = .next s)) ∧
  (∀ (s : State) (hid : Nat) (h : Hart), s.hart hid = some h → ∃ t, exec (.hartKill hid) s = .next t ∧ t.hart hid = none ∧
    SameBytes s t ∧ (∀ slot, h.slot = some slot → (t.bind h.core slot).v = false) ∧ ∀ n, n ≠ hid → t.hart n = s.hart n) ∧
  (∀ (s : State) (e : QEntry) (rest : List QEntry), s.h.queue = e :: rest → s.h.vectorRuns = true → s.h.run = none → OwnsLanes s →
    ∃ t, exec .blockStart s = .next t ∧ OnlyHart s t ∧ t.h.queue = rest ∧ t.h.vpc = e.addr ∧ t.h.x = s.h.x ∧ t.h.pc = s.h.pc ∧
      t.h.run = some { addr := e.addr, seq := e.seq, rm := e.rm, fen := e.fen, fxf := e.fxf, dscale := e.dscale, qcfg := e.qcfg,
                       rchk := e.rchk, flags := 0 } ∧
      ∀ i < 8, t.h.code i = e.args.getD i 0) ∧
  (∀ (s s1 : State) (l : List Slot), s.h.vectorRuns = true → s.h.run ≠ none → s.h.conv = [] → OwnsLanes s → s.h.pagePendV = [] →
    s.h.inBlock s.h.vpc = true → s.fetchConvoy s.h.vpc true 1024 [] = (s1, .words l) → (∀ x ∈ l, s1.breakpoints 1 x.1 = []) →
    (s1.convoyFate l = .ok → s1.entriesFor l = true → ∃ t, exec .convoyIssue s = .next t ∧
      t.h.conv = l.filterMap (fun x => x.2.map (fun w => (x.1, w))) ∧ t.h.vpc = s1.h.vpc ∧ t.h.vx = s1.h.vx ∧ OnlyHart s1 t) ∧
    (∀ c v a, s1.convoyFate l = .trap c v a → exec .convoyIssue s = .next (s1.convoyTrap c v a)) ∧
    (∀ p a, s1.convoyFate l = .wait p a → exec .convoyIssue s = .next (s1.vstallAt p s1.h.cut 1)) ∧
    (s1.convoyFate l = .hold ∨ s1.convoyFate l = .ok ∧ s1.entriesFor l = false →
      exec .convoyIssue s = .next { s1 with h := { s1.h with viw := none } })) ∧
  (∀ (s : State) (hid elem : Nat) (h : Hart) (r : Recheck), s.hart hid = some h → h.live = true →
    (s.core h.core).recheck.find? (fun r => r.hid == hid) = some r →
    (∃ t, exec (.recheckRun hid elem .agree) s = .next t ∧ (t.core h.core).recheck = (s.core h.core).recheck.erase r ∧
      t.hart hid = some h ∧ SameBytes s t) ∧
    (∀ a b c at_ w rest, r.conv = (at_, w) :: rest →
      let v := voteOf elem a b c
      (({ h with vx := r.vx } : Hart).votesOn w elem = true → (∀ x ∈ r.votes, x.elem ≠ elem) →
        ∃ t, exec (.recheckRun hid elem (.runs a b c)) s = .next t ∧ (∀ x, inMcRing x = false → t.byteAt x = s.byteAt x) ∧
          (a = b → SameBytes s t) ∧
          (v.res = none → v.failed = false → t.hart hid = some h ∧ (t.core h.core).recheck = keepVote hid v (s.core h.core).recheck) ∧
          (v.res ≠ none ∨ v.failed = true →
            t.hart hid = some (h.unwind r v) ∧ (t.core h.core).recheck = (s.core h.core).recheck.filter (fun x => x.hid != hid))) ∧
      (({ h with vx := r.vx } : Hart).votesOn w elem = false ∨ (∃ x ∈ r.votes, x.elem = elem) →
        exec (.recheckRun hid elem (.runs a b c)) s = .next s)))

/-- The units. The dispatcher grants a waiting request a free engine; a lease that ends leaves its engine with no command; the oldest
command starts once the homes of its lines have confirmed, and at its end its final status is kept; a collective closes with one set of
absent ranks; a plough starts a legal move and gives the page, its entry and its reverse ownership to the destination, once it owns the
lines written meanwhile; a bank flips the words of a closed episode; a halted hart goes on, or takes one step. The model's choices and readings here:
a command whose lines' homes have not confirmed is not started (log entry 82), a command writes at its end (entry 18), and a plough's move has two
completion events, and STAT 3 where its leaf entry has changed meanwhile (entry 20). -/
def Obligations.UnitEvents : Prop :=
  (∀ (s : State) (e : Nat) (q : LeaseReq) (h : Hart) (w : Wait) (kind : Nat) (req : Word), s.nextLease e = some q → WaitsIn s q.hid h w →
    w.kind = .elease kind req → AnswersNow s w → ∃ t, exec (.leaseGrant e) s = .next t ∧ t.leaseQ = s.leaseQ.erase q ∧
      t.engine e = { s.engine e with leased := true, tid := q.tid, endAt := s.gtb + (s.tenant q.tid).leaseLen, ser := (s.engine e).ser + 1 } ∧
      Answered s t q.hid h w (handle ((s.engine e).ser + 1) e 0)) ∧
  (∀ (s : State) (e : Nat), (s.engine e).leased = true →
    (∃ t, exec (.leaseRevoke e) s = .next t ∧ (t.engine e).leased = false ∧ (t.engine e).queue = [] ∧ (t.engine e).pend = []) ∧
    ((s.engine e).endAt ≤ s.gtb →
      ∃ t, exec (.leaseExpiry e) s = .next t ∧ (t.engine e).leased = false ∧ (t.engine e).queue = [] ∧ (t.engine e).pend = []) ∧
    (s.gtb < (s.engine e).endAt → exec (.leaseExpiry e) s = .next s)) ∧
  (∀ (s : State) (e : Nat) (c : Cmd) (rest : List Cmd), (s.engine e).queue = c :: rest →
    (c.running = false → s.unconfirmed e c = true → exec (.engineCommandStart e) s = .next s) ∧
    (c.running = false → s.unconfirmed e c = false → c.kind ≠ 4 → ∃ t, exec (.engineCommandStart e) s = .next t ∧ SameBytes s t ∧
      (t.engine e).queue = (c :: rest).map (fun x => if x.seq = c.seq then { x with running := true } else x)) ∧
    (c.running = true → c.kind < 3 →
      let r := ({ st := s, lines := 0, bad := false, fault := none } : Work).copy c (c.inOrder (copyPieces c.lines c.src c.dst))
      let w := statusWord (min r.lines (2 ^ 32 - 1)) 0xFFF 0 (if r.fault.isSome || c.rcdLine.code != 0 then 18 else if r.bad then 19 else 0)
      ∃ t, exec (.engineCommandEnd e) s = .next t ∧ (t.engine e).stats.head? = some { seq := c.seq, tid := c.tid, word := w }) ∧
    (c.running = true → c.kind = 3 → ∀ s1 bs, s.readSource c (c.len / 64) c.src 0 = (s1, .ok (bs, [])) → compressed c.op bs = none →
      ∃ t, exec (.engineCommandEnd e) s = .next t ∧
        (t.engine e).stats.head? = some { seq := c.seq, tid := c.tid, word := statusWord 0 0xFFF 0 18 }) ∧
    (c.running = true → c.kind = 3 → ∀ s1 bs bad out, s.readSource c (c.len / 64) c.src 0 = (s1, .ok (bs, bad)) →
      compressed c.op bs = some out → ∃ t n, ∃ st ∈ [0, 18, 19, 20], exec (.engineCommandEnd e) s = .next t ∧
        (t.engine e).stats.head? = some { seq := c.seq, tid := c.tid, word := statusWord n 0xFFF 0 st }) ∧
    (c.running = true → c.kind = 4 → c.res = none → exec (.engineCommandEnd e) s = .next s) ∧
    (c.running = true → c.kind = 4 → ∀ x, c.res = some x → ∃ t n, ∃ st ∈ [0, 18, 19, 21], exec (.engineCommandEnd e) s = .next t ∧
      (t.engine e).stats.head? = some { seq := c.seq, tid := c.tid, word := statusWord n x.lowabs x.nabs st })) ∧
  (∀ (s : State) (rcd : Nat) (b : Coll) (o : Obj) (w : Swarm), s.coll rcd = some b → s.swarm rcd = some (o, w) →
    (b.complete w = true ∨ b.dead ≤ s.gtb → ∃ t o2 w2, exec (.collectiveClose rcd) s = .next t ∧ t.coll rcd = none ∧
      t.swarm rcd = some (o2, w2) ∧ w2.absents = (b.absent w).foldl (fun a k => setBit a k true) 0) ∧
    (b.complete w = false → s.gtb < b.dead → exec (.collectiveClose rcd) s = .next s)) ∧
  (∀ (s : State) (f : Nat) (v : Word),
    ((s.plough f).stat = 1 ∨ s.hub.phase = 8 → exec (.ploughMoveGo f v) s = .next s) ∧
    ((s.plough f).stat ≠ 1 → s.hub.phase ≠ 8 → bits v.toNat 16 10 ≤ 512 → bit v.toNat 0 = true →
      let q := { s.plough f with tag := bits v.toNat 16 10, big := bit v.toNat 1 }
      ∃ t, exec (.ploughMoveGo f v) s = .next t ∧ (∀ a, inMcRing a = false → t.byteAt a = s.byteAt a) ∧
        (LeafReads s q.ent.toNat → { t with ploughs := s.ploughs } = s) ∧
        (t.plough f).stat = if bit s.hub.split 2 && (s.readLeaf q.ent.toNat).moveOk q then 1 else 3) ∧
    (let p := s.plough f
     let n := pageBytes p.big
     let u := s.readLeaf p.ent.toNat
     (LeafReads s p.ent.toNat → u = s) ∧
     (p.stat = 1 → s.pageOwned p.src.toNat n = false → s.pageOwned p.dst.toNat n = false → bit s.hub.split 2 = true →
      (u.moveOk p = true → p.own = false → (∃ c ∈ s.copied, c.1 = f) →
        exec (.ploughMoveComplete f) s = .next (u.setPlough f (fun q => { q with own := true }))) ∧
      (u.moveOk p = true → p.src ≠ p.dst → (p.own = true ∨ ∀ c ∈ s.copied, c.1 ≠ f) → ∃ t, exec (.ploughMoveComplete f) s = .next t ∧
        (t.plough f).own = false ∧ (∀ c ∈ t.copied, c.1 ≠ f) ∧
        ((t.plough f).stat = 2 ∨ (t.plough f).stat = 5) ∧ pteAddr (t.numAt p.ent.toNat 8) = p.dst.toNat ∧
        ∀ i < n / 65536, Tab.get 0 t.rob (p.dst.toNat / 65536 + i) = Tab.get 0 s.rob (p.src.toNat / 65536 + i) ∧
          robValid (Tab.get 0 t.rob (p.src.toNat / 65536 + i)).toNat = false) ∧
      (u.moveOk p = false → ∃ t, exec (.ploughMoveComplete f) s = .next t ∧ (t.plough f).stat = 3 ∧
        { t with ploughs := s.ploughs, copied := s.copied } = u))) ∧
    (∃ t, exec (.ploughEpochEnd f) s = .next t ∧ (t.plough f).heat = [] ∧ (t.plough f).epochAt = s.gtb)) ∧
  (∀ (s : State) (n bank x : Nat) (r : Region) (p : PlnWord), s.region n = some r →
    (r.flipBanks.contains bank = false → exec (.planeFlip n bank) s = .next s) ∧
    (r.flipBanks.contains bank = true → r.flip = [(x, p)] → (combHome x).2 = bank → x + r.width ≤ r.report →
      (∀ off o b, combOffset r.obj = some off → s.swarm off = some (o, b) → b.closed = [] ∧ (x + r.width ≤ off ∨ off + 256 ≤ x)) →
      ∃ t r2, exec (.planeFlip n bank) s = .next t ∧ t.region n = some r2 ∧ r2.flip = [] ∧
        r2.flipBanks = r.flipBanks.filter (fun c => !([bank] : List Nat).contains c) ∧
        t.numAt (locComb x) r.width = (p.next r).1 % 2 ^ (8 * r.width))) ∧
  (∀ (s : State) (core slot : Nat) (h : Hart) (x : Halt), s.slotHart core slot = some h → s.hart h.hid = some h → h.live = true →
    h.halt = some x →
    (∃ t, exec (.debugResume core slot) s = .next t ∧ SameBytes s t ∧
      t.hart h.hid = some { h with halt := none } ∧ ∀ n, n ≠ h.hid → t.hart n = s.hart n) ∧
    (∃ t, exec (.debugStep core slot) s = .next t ∧ SameBytes s t ∧
      t.hart h.hid = some { h with halt := some { x with steps := 1 } } ∧ ∀ n, n ≠ h.hid → t.hart n = s.hart n))

/-- What reaches the package from outside. A frame that is not well formed, from an unknown chip or of an unknown or FREE tenant is dropped
and counted, and a stale one in INCDROP; an admitted one puts its bytes, answers a get or waits for a line's owner, sends a message, arrives
at a swarm, delivers a result to the hart that waits for that request and to no other, contributes, is kept until the other parts of its
message arrive, or triggers. A log is replayed in order and never early. The host reads and writes OPN memory through its windows, its writes in
order, sends to its channels, and writes management registers; a WDL below its least value is ignored (R391); a finished job posts its record; an
SPDM request changes nothing. The payloads of frames, and that a frame both stale and not well formed counts as the latter, are the model's
(log entry 15); so are the offset of WDL, for which the spec gives none, and the other places that no rule names (entry 16). -/
def Obligations.OutsideEvents : Prop :=
  (∀ (s : State) (fr : Frame), ∀ e ∈ frameTable fr,
    (s.frameOk e.2 fr = false → exec e.1 s = .next { s with hub := { s.hub with fabDrop := s.hub.fabDrop + 1 } }) ∧
    (s.frameOk e.2 fr = true → s.frameFresh fr = false →
      exec e.1 s = .next { s with hub := { s.hub with incdrop := satInc s.hub.incdrop 32 } })) ∧
  (∀ (s : State) (fr : Frame),
    ((fr.kind = 0 ∨ 9 < fr.kind) → exec (.fabricFrameDrop fr) s = .next { s with hub := { s.hub with fabDrop := s.hub.fabDrop + 1 } }) ∧
    (s.frameOk fr.kind fr = true → 1 ≤ fr.kind → fr.kind ≤ 9 → s.frameFresh fr = false →
      exec (.fabricFrameDrop fr) s = .next { s with hub := { s.hub with incdrop := satInc s.hub.incdrop 32 } })) ∧
  (∀ (s s1 : State) (fr : Frame) (pl : Place), ∀ e ∈ [(Instr.fabricPut fr, 1), (Instr.fabricGetResponse fr, 3)], Admitted s e.2 fr →
    fr.data ≠ [] → fr.data.length ≤ 64 - (word fr.target).toNat % 64 →
    (s.logArrival fr.tag fr).access (hostActor fr.tag) .store (word fr.target) fr.data.length 1 = (s1, .ok pl) →
    s1.openPlace fr.tag (word fr.target) pl = true → pl.reg = none → s1.hasKey fr.tag = true →
    ∃ t, exec e.1 s = .next t ∧ ∀ i < fr.data.length, t.byteAt (pl.loc + i) = fr.data.getD i 0) ∧
  (∀ (s : State) (fr : Frame),
    (∀ s1 bs, Admitted s 2 fr →
      s.outsideGet fr.tag 150 (word fr.target) (min 9000 (frameDw fr 0)) = (s1, some bs) →
      (s1.tenant fr.tag).replay = false → s1.portsUp = true → ∃ t r, exec (.fabricGet fr) s = .next t ∧ t.outbox = s1.outbox ++ [r] ∧
        r.kind = 3 ∧ r.dst = fr.src ∧ r.tag = fr.tag ∧ r.target = frameDw fr 1 ∧ r.data = bs) ∧
    (∀ s1, Admitted s 2 fr →
      s.outsideGet fr.tag 150 (word fr.target) (min 9000 (frameDw fr 0)) = (s1, none) →
      exec (.fabricGet fr) s = .next { s1 with held := s1.held ++ [fr] }) ∧
    (∀ off o b, Admitted s 4 fr → s.objNum fr.target = some (off, o) → FreeSlot s off fr.tag 0 o b → fr.data.length = 16 + b.sz →
      ∃ t o2 b2, exec (.fabricChannelSend fr) s = .next t ∧ t.chan off = some (o2, b2) ∧ b2.tail = b.tail + 1 ∧ b2.head = b.head ∧
        b2.senders = []) ∧
    (∀ off o b m, Admitted s 5 fr → s.objNum fr.target = some (off, o) → s.swarm off = some (o, b) → o.tag = fr.tag → b.xchip = true →
      frameDw fr 0 = 4 → b.members.find? (fun m => m.hid == farId fr.src (frameDw fr 1)) = some m → m.good = true → m.chip = fr.src →
      s.gtb < frameDw fr 3 → (∃ k ∈ b.members, k.good = true ∧ k.arrived = false ∧ k.hid ≠ m.hid) →
      ∃ t o2 b2, exec (.fabricSwarmArrival fr) s = .next t ∧ t.swarm off = some (o2, b2) ∧ b2.epi = b.epi ∧
        ∃ k ∈ b2.members, k.hid = m.hid ∧ k.arrived = true) ∧
    (∀ off h w f, Admitted s 6 fr → s.proxyOf fr.tag fr.src fr.target = some off → WaitsIn s (frameDw fr 0) h w →
      w.kind = .arrive off f → h.created = false → w.issued = frameDw fr 2 → ∃ t, exec (.fabricSwarmResult fr) s = .next t ∧
        Answered s t (frameDw fr 0) { h with fxf := orFlags h.fxf (frameDw fr 3) } w (word (frameDw fr 1))) ∧
    (∀ off h, Admitted s 6 fr → s.proxyOf fr.tag fr.src fr.target = some off → s.hart (frameDw fr 0) = some h → h.created = false →
      (∀ w, h.wait = some w → w.issued ≠ frameDw fr 2) → h.begun = none → (∀ k ∈ s.harts, (off, frameDw fr 2) ∉ k.fabOut) →
      exec (.fabricSwarmResult fr) s = .next (s.logArrival fr.tag fr)) ∧
    (∀ c, Admitted s 7 fr → frameDw fr 0 = 1 → c ∈ (s.engine (frameDw fr 2)).queue → s.collCmd fr = some c →
      ∃ t r, exec (.fabricCollectiveData fr) s = .next t ∧ r.lowabs = frameDw fr 4 ∧ r.nabs = frameDw fr 5 ∧
        { c with res := some r } ∈ (t.engine (frameDw fr 2)).queue) ∧
    (∀ i, Admitted s 7 fr → frameDw fr 0 = 4 → i < frameDw fr 1 → i ≠ frameDw fr 2 →
      (∀ x ∈ s.parts, sameMessage fr x = true → frameDw x 2 ≠ i) →
      ∃ t, exec (.fabricCollectiveData fr) s = .next t ∧ fr ∈ t.parts ∧ { t with parts := s.parts } = s.logArrival fr.tag fr) ∧
    (Admitted s 8 fr → exec (.fabricCreditReturn fr) s = .next (s.logArrival fr.tag fr)) ∧
    (Admitted s 9 fr → bit (s.tenant fr.tag).ftrig.toNat 63 = true → bit (s.tenant fr.tag).ftrig.toNat 62 = true →
      bits (s.tenant fr.tag).ftrig.toNat 32 16 = fr.target → ∃ t, exec (.fabricTrigger fr) s = .next t ∧
        ∀ k ∈ t.harts, k.live = true → k.tid = fr.tag → k.slot ≠ none → k.halt ≠ none)) ∧
  (∀ (s : State) (tag : Nat), (s.tenant tag).replay = true →
    (s.nextArrival tag = none →
      ∃ t, exec (.replayDelivery tag) s = .next t ∧ OnlyTenants s t ∧ t.tenant tag = { s.tenant tag with replay := false }) ∧
    (∀ a, s.nextArrival tag = some a → s.gtb < (s.tenant tag).logAt + a.offset → exec (.replayDelivery tag) s = .next s) ∧
    (∀ a off o b, s.nextArrival tag = some a → (s.tenant tag).logAt + a.offset ≤ s.gtb → a.ev.kind = 4 →
      s.objNum a.ev.target = some (off, o) → FreeSlot s off a.ev.tag 0 o b → a.ev.data.length = 16 + b.sz →
      ∃ t o2 b2, exec (.replayDelivery tag) s = .next t ∧ t.alog = s.alog.erase a ∧ t.chan off = some (o2, b2) ∧ b2.tail = b.tail + 1)) ∧
  (∀ (s s1 : State) (tag bar off : Nat) (data : List Byte) (pl : Place), (s.tenant tag).st ≠ 0 → barHas bar off data.length = true →
    s.behind tag = false → data ≠ [] → data.length ≤ 64 - (barPointer bar off).toNat % 64 →
    (s.logArrival tag (hostEntry 32 tag (bar * 2 ^ 60 + off) data)).access (hostActor tag) .store (barPointer bar off) data.length 1
      = (s1, .ok pl) →
    s1.openPlace tag (barPointer bar off) pl = true → pl.reg = none → s1.hasKey tag = true →
    ∃ t, exec (.hostMemoryWrite tag bar off data) s = .next t ∧ ∀ i < data.length, t.byteAt (pl.loc + i) = data.getD i 0) ∧
  (∀ (s : State) (tag bar off size : Nat) (data : List Byte),
    (∃ t, exec (.hostMemoryRead tag bar off size) s = .next t ∧ (∀ a, inMcRing a = false → t.byteAt a = s.byteAt a) ∧ t.h.x = s.h.x ∧
      t.h.pc = s.h.pc ∧ t.gtb = s.gtb) ∧
    ((s.tenant tag).st ≠ 0 → s.behind tag = true → ∃ t, exec (.hostMemoryWrite tag bar off data) s = .next t ∧ SameBytes s t ∧
      t.held = s.held ++ [hostEntry 32 tag (bar * 2 ^ 60 + off) data]) ∧
    ((s.tenant tag).st = 0 → exec (.hostMemoryWrite tag bar off data) s = .next s)) ∧
  (∀ (s s1 : State) (tag off : Nat) (o : Obj) (b : Chan) (bs : List Byte) (bad : List Nat), tag ≤ 512 → (s.tenant tag).st ≠ 0 →
    (s.tenant tag).sendPending = false → combOffset (s.tenant tag).hsch = some off → FreeSlot s off tag 2 o b →
    (hostPending s tag).hostMessage tag (s.tenant tag).hsmsg b.sz = (s1, .ok bs bad) →
    ∃ t o2 b2, exec (.hostSend tag) s = .next t ∧ t.chan off = some (o2, b2) ∧ b2.tail = b.tail + 1 ∧
      (t.tenant tag).hsres = statusWord b.tail.toNat 0xFFF 0 0) ∧
  (∀ (s : State) (job : Word) (j : Job), s.jobs.find? (fun j => j.num == job && j.due) = some j →
    ∃ t, exec (.jobRecordPost job) s = .next t ∧ t.jobs = s.jobs.erase j ∧ SameBytes s t ∧
      ((s.hub.hevh + 2 ^ 32 - s.hub.hevt) % 2 ^ 32 + ((s.jobRecord j).length + 55) / 56 ≤ 2 ^ s.hub.hevn →
        t.hostRing = s.hostRing ++ hostEntries 4 j.tag s.hub.evseq (((s.jobRecord j).length + 55) / 56) (((s.jobRecord j).length + 55) / 56)
          (s.jobRecord j))) ∧
  (∀ (s : State) (q : SpdmReq), exec (.spdmRequest q) s = .next s) ∧
  (∀ (s : State) (sp : MgmtSpace) (n off : Nat) (v : Word),
    (s.hub.phase < 6 ∨ s.hub.phase = 8 → exec (.mgmtRegisterWrite sp off v) s = .next s) ∧
    (6 ≤ s.hub.phase → s.hub.phase ≠ 8 → n < 200 →
      (1000000 ≤ bits v.toNat 0 32 → ∃ t, exec (.mgmtRegisterWrite (.core n) 0x010 v) s = .next t ∧
        t.core n = { s.core n with wdl := word (bits v.toNat 0 32) } ∧ { t with cores := s.cores } = s) ∧
      (bits v.toNat 0 32 < 1000000 → exec (.mgmtRegisterWrite (.core n) 0x010 v) s = .next s)))
end

