-- ==== Sys2Proof/Laws/Code.lean ====
section
/-! SUPPORT. The laws of words as the encoder spells them: a field put down is the field read back. -/

namespace Sys2Proof

/-- `len` bits of a number, from bit `lo` on. -/
def partOf (n lo len : Nat) : BitVec len := BitVec.ofNat len (n / 2 ^ lo)

/-- A field of a word is a part of the number that spells it. -/
theorem extract_wordOf (n lo len : Nat) (h : lo + len ≤ 32) : (wordOf n).extractLsb' lo len = partOf n lo len := by
  apply BitVec.eq_of_toNat_eq
  simp only [wordOf, partOf, BitVec.extractLsb'_toNat, BitVec.toNat_ofNat, Nat.shiftRight_eq_div_pow]
  rw [show (2 : Nat) ^ 32 = 2 ^ lo * 2 ^ (32 - lo) by rw [← Nat.pow_add]; congr 1; omega, Nat.mod_mul_right_div_self,
    Nat.mod_mod_of_dvd]
  exact Nat.pow_dvd_pow 2 (by omega)

/-- The fields below the one read fall away. -/
theorem partOf_put {k lo len : Nat} (x : BitVec k) (a : Nat) (h : k ≤ lo) : partOf (put x a) lo len = partOf a (lo - k) len := by
  unfold partOf put
  rw [show lo = k + (lo - k) by omega, Nat.pow_add, ← Nat.div_div_eq_div_mul, Nat.mul_comm a, Nat.mul_add_div (by positivity),
    Nat.div_eq_of_lt x.isLt]
  simp

/-- The lowest field put down is read back. -/
theorem partOf_put_zero {k : Nat} (x : BitVec k) (a : Nat) : partOf (put x a) 0 k = x := by
  apply BitVec.eq_of_toNat_eq
  simp [partOf, put, Nat.mod_eq_of_lt x.isLt]

/-- A word whose operation is found and whose values are admitted decodes to what its fields build. -/
theorem decode_of_op {w : IWord} {op : Op} (h : opOf w = some op) (hv : valuesOk w op = true) : decode w = some (build w op) := by
  simp [decode, decodeWord, h, hv, Except.toOption]

end Sys2Proof
end

