-- ==== Sys2Proof/Laws/State.lean ====
section
/-! SUPPORT. What each update of the state leaves in each field. -/

namespace Sys2Proof.Machine

variable (s : State)

@[simp] theorem State.h_setH (f : Hart → Hart) : (s.setH f).h = f s.h := rfl
@[simp] theorem State.pool_setH (f : Hart → Hart) : (s.setH f).pool = s.pool := rfl
@[simp] theorem State.gtb_setH (f : Hart → Hart) : (s.setH f).gtb = s.gtb := rfl
@[simp] theorem State.mem_setH (f : Hart → Hart) : (s.setH f).mem = s.mem := rfl
@[simp] theorem State.psn_setH (f : Hart → Hart) : (s.setH f).psn = s.psn := rfl
@[simp] theorem State.ecc_setH (f : Hart → Hart) : (s.setH f).ecc = s.ecc := rfl
@[simp] theorem State.keys_setH (f : Hart → Hart) : (s.setH f).keys = s.keys := rfl
@[simp] theorem State.copied_setH (f : Hart → Hart) : (s.setH f).copied = s.copied := rfl
@[simp] theorem State.rob_setH (f : Hart → Hart) : (s.setH f).rob = s.rob := rfl
@[simp] theorem State.robBad_setH (f : Hart → Hart) : (s.setH f).robBad = s.robBad := rfl
@[simp] theorem State.allot_setH (f : Hart → Hart) : (s.setH f).allot = s.allot := rfl
@[simp] theorem State.tlb_setH (f : Hart → Hart) : (s.setH f).tlb = s.tlb := rfl
@[simp] theorem State.tlbFill_setH (f : Hart → Hart) : (s.setH f).tlbFill = s.tlbFill := rfl
@[simp] theorem State.tableRep_setH (f : Hart → Hart) : (s.setH f).tableRep = s.tableRep := rfl
@[simp] theorem State.grdMarks_setH (f : Hart → Hart) : (s.setH f).grdMarks = s.grdMarks := rfl
@[simp] theorem State.cores_setH (f : Hart → Hart) : (s.setH f).cores = s.cores := rfl
@[simp] theorem State.tenants_setH (f : Hart → Hart) : (s.setH f).tenants = s.tenants := rfl
@[simp] theorem State.engines_setH (f : Hart → Hart) : (s.setH f).engines = s.engines := rfl
@[simp] theorem State.leaseQ_setH (f : Hart → Hart) : (s.setH f).leaseQ = s.leaseQ := rfl
@[simp] theorem State.colls_setH (f : Hart → Hart) : (s.setH f).colls = s.colls := rfl
@[simp] theorem State.objs_setH (f : Hart → Hart) : (s.setH f).objs = s.objs := rfl
@[simp] theorem State.regions_setH (f : Hart → Hart) : (s.setH f).regions = s.regions := rfl
@[simp] theorem State.ploughs_setH (f : Hart → Hart) : (s.setH f).ploughs = s.ploughs := rfl
@[simp] theorem State.dies_setH (f : Hart → Hart) : (s.setH f).dies = s.dies := rfl
@[simp] theorem State.hub_setH (f : Hart → Hart) : (s.setH f).hub = s.hub := rfl
@[simp] theorem State.mcRing_setH (f : Hart → Hart) : (s.setH f).mcRing = s.mcRing := rfl
@[simp] theorem State.hostRing_setH (f : Hart → Hart) : (s.setH f).hostRing = s.hostRing := rfl
@[simp] theorem State.alog_setH (f : Hart → Hart) : (s.setH f).alog = s.alog := rfl
@[simp] theorem State.held_setH (f : Hart → Hart) : (s.setH f).held = s.held := rfl
@[simp] theorem State.parts_setH (f : Hart → Hart) : (s.setH f).parts = s.parts := rfl
@[simp] theorem State.outbox_setH (f : Hart → Hart) : (s.setH f).outbox = s.outbox := rfl
@[simp] theorem State.jobs_setH (f : Hart → Hart) : (s.setH f).jobs = s.jobs := rfl
@[simp] theorem State.restoreBad_setH (f : Hart → Hart) : (s.setH f).restoreBad = s.restoreBad := rfl
@[simp] theorem State.flying_setH (f : Hart → Hart) : (s.setH f).flying = s.flying := rfl
@[simp] theorem State.slow_setH (f : Hart → Hart) : (s.setH f).slow = s.slow := rfl
@[simp] theorem State.free_setH (f : Hart → Hart) : (s.setH f).free = s.free := rfl
@[simp] theorem State.did_setH (f : Hart → Hart) : (s.setH f).did = s.did := rfl
@[simp] theorem State.plan_setH (f : Hart → Hart) : (s.setH f).plan = s.plan := rfl
@[simp] theorem State.turn_setH (f : Hart → Hart) : (s.setH f).turn = s.turn := rfl

@[simp] theorem State.h_updHart (n : Nat) (f : Hart → Hart) : (s.updHart n f).h = onHid n f s.h := rfl
@[simp] theorem State.pool_updHart (n : Nat) (f : Hart → Hart) : (s.updHart n f).pool = s.pool.map (onHid n f) := rfl
@[simp] theorem State.gtb_updHart (n : Nat) (f : Hart → Hart) : (s.updHart n f).gtb = s.gtb := rfl
@[simp] theorem State.mem_updHart (n : Nat) (f : Hart → Hart) : (s.updHart n f).mem = s.mem := rfl
@[simp] theorem State.psn_updHart (n : Nat) (f : Hart → Hart) : (s.updHart n f).psn = s.psn := rfl
@[simp] theorem State.ecc_updHart (n : Nat) (f : Hart → Hart) : (s.updHart n f).ecc = s.ecc := rfl
@[simp] theorem State.keys_updHart (n : Nat) (f : Hart → Hart) : (s.updHart n f).keys = s.keys := rfl
@[simp] theorem State.copied_updHart (n : Nat) (f : Hart → Hart) : (s.updHart n f).copied = s.copied := rfl
@[simp] theorem State.rob_updHart (n : Nat) (f : Hart → Hart) : (s.updHart n f).rob = s.rob := rfl
@[simp] theorem State.robBad_updHart (n : Nat) (f : Hart → Hart) : (s.updHart n f).robBad = s.robBad := rfl
@[simp] theorem State.allot_updHart (n : Nat) (f : Hart → Hart) : (s.updHart n f).allot = s.allot := rfl
@[simp] theorem State.tlb_updHart (n : Nat) (f : Hart → Hart) : (s.updHart n f).tlb = s.tlb := rfl
@[simp] theorem State.tlbFill_updHart (n : Nat) (f : Hart → Hart) : (s.updHart n f).tlbFill = s.tlbFill := rfl
@[simp] theorem State.tableRep_updHart (n : Nat) (f : Hart → Hart) : (s.updHart n f).tableRep = s.tableRep := rfl
@[simp] theorem State.grdMarks_updHart (n : Nat) (f : Hart → Hart) : (s.updHart n f).grdMarks = s.grdMarks := rfl
@[simp] theorem State.cores_updHart (n : Nat) (f : Hart → Hart) : (s.updHart n f).cores = s.cores := rfl
@[simp] theorem State.tenants_updHart (n : Nat) (f : Hart → Hart) : (s.updHart n f).tenants = s.tenants := rfl
@[simp] theorem State.engines_updHart (n : Nat) (f : Hart → Hart) : (s.updHart n f).engines = s.engines := rfl
@[simp] theorem State.leaseQ_updHart (n : Nat) (f : Hart → Hart) : (s.updHart n f).leaseQ = s.leaseQ := rfl
@[simp] theorem State.colls_updHart (n : Nat) (f : Hart → Hart) : (s.updHart n f).colls = s.colls := rfl
@[simp] theorem State.objs_updHart (n : Nat) (f : Hart → Hart) : (s.updHart n f).objs = s.objs := rfl
@[simp] theorem State.regions_updHart (n : Nat) (f : Hart → Hart) : (s.updHart n f).regions = s.regions := rfl
@[simp] theorem State.ploughs_updHart (n : Nat) (f : Hart → Hart) : (s.updHart n f).ploughs = s.ploughs := rfl
@[simp] theorem State.dies_updHart (n : Nat) (f : Hart → Hart) : (s.updHart n f).dies = s.dies := rfl
@[simp] theorem State.hub_updHart (n : Nat) (f : Hart → Hart) : (s.updHart n f).hub = s.hub := rfl
@[simp] theorem State.mcRing_updHart (n : Nat) (f : Hart → Hart) : (s.updHart n f).mcRing = s.mcRing := rfl
@[simp] theorem State.hostRing_updHart (n : Nat) (f : Hart → Hart) : (s.updHart n f).hostRing = s.hostRing := rfl
@[simp] theorem State.alog_updHart (n : Nat) (f : Hart → Hart) : (s.updHart n f).alog = s.alog := rfl
@[simp] theorem State.held_updHart (n : Nat) (f : Hart → Hart) : (s.updHart n f).held = s.held := rfl
@[simp] theorem State.parts_updHart (n : Nat) (f : Hart → Hart) : (s.updHart n f).parts = s.parts := rfl
@[simp] theorem State.outbox_updHart (n : Nat) (f : Hart → Hart) : (s.updHart n f).outbox = s.outbox := rfl
@[simp] theorem State.jobs_updHart (n : Nat) (f : Hart → Hart) : (s.updHart n f).jobs = s.jobs := rfl
@[simp] theorem State.restoreBad_updHart (n : Nat) (f : Hart → Hart) : (s.updHart n f).restoreBad = s.restoreBad := rfl
@[simp] theorem State.flying_updHart (n : Nat) (f : Hart → Hart) : (s.updHart n f).flying = s.flying := rfl
@[simp] theorem State.slow_updHart (n : Nat) (f : Hart → Hart) : (s.updHart n f).slow = s.slow := rfl
@[simp] theorem State.free_updHart (n : Nat) (f : Hart → Hart) : (s.updHart n f).free = s.free := rfl
@[simp] theorem State.did_updHart (n : Nat) (f : Hart → Hart) : (s.updHart n f).did = s.did := rfl
@[simp] theorem State.plan_updHart (n : Nat) (f : Hart → Hart) : (s.updHart n f).plan = s.plan := rfl
@[simp] theorem State.turn_updHart (n : Nat) (f : Hart → Hart) : (s.updHart n f).turn = s.turn := rfl

@[simp] theorem State.h_idle : (s.idle).h = s.h := rfl
@[simp] theorem State.pool_idle : (s.idle).pool = s.pool := rfl
@[simp] theorem State.gtb_idle : (s.idle).gtb = s.gtb := rfl
@[simp] theorem State.mem_idle : (s.idle).mem = s.mem := rfl
@[simp] theorem State.psn_idle : (s.idle).psn = s.psn := rfl
@[simp] theorem State.ecc_idle : (s.idle).ecc = s.ecc := rfl
@[simp] theorem State.keys_idle : (s.idle).keys = s.keys := rfl
@[simp] theorem State.copied_idle : (s.idle).copied = s.copied := rfl
@[simp] theorem State.rob_idle : (s.idle).rob = s.rob := rfl
@[simp] theorem State.robBad_idle : (s.idle).robBad = s.robBad := rfl
@[simp] theorem State.allot_idle : (s.idle).allot = s.allot := rfl
@[simp] theorem State.tlb_idle : (s.idle).tlb = s.tlb := rfl
@[simp] theorem State.tlbFill_idle : (s.idle).tlbFill = s.tlbFill := rfl
@[simp] theorem State.tableRep_idle : (s.idle).tableRep = s.tableRep := rfl
@[simp] theorem State.grdMarks_idle : (s.idle).grdMarks = s.grdMarks := rfl
@[simp] theorem State.cores_idle : (s.idle).cores = s.cores := rfl
@[simp] theorem State.tenants_idle : (s.idle).tenants = s.tenants := rfl
@[simp] theorem State.engines_idle : (s.idle).engines = s.engines := rfl
@[simp] theorem State.leaseQ_idle : (s.idle).leaseQ = s.leaseQ := rfl
@[simp] theorem State.colls_idle : (s.idle).colls = s.colls := rfl
@[simp] theorem State.objs_idle : (s.idle).objs = s.objs := rfl
@[simp] theorem State.regions_idle : (s.idle).regions = s.regions := rfl
@[simp] theorem State.ploughs_idle : (s.idle).ploughs = s.ploughs := rfl
@[simp] theorem State.dies_idle : (s.idle).dies = s.dies := rfl
@[simp] theorem State.hub_idle : (s.idle).hub = s.hub := rfl
@[simp] theorem State.mcRing_idle : (s.idle).mcRing = s.mcRing := rfl
@[simp] theorem State.hostRing_idle : (s.idle).hostRing = s.hostRing := rfl
@[simp] theorem State.alog_idle : (s.idle).alog = s.alog := rfl
@[simp] theorem State.held_idle : (s.idle).held = s.held := rfl
@[simp] theorem State.parts_idle : (s.idle).parts = s.parts := rfl
@[simp] theorem State.outbox_idle : (s.idle).outbox = s.outbox := rfl
@[simp] theorem State.jobs_idle : (s.idle).jobs = s.jobs := rfl
@[simp] theorem State.restoreBad_idle : (s.idle).restoreBad = s.restoreBad := rfl
@[simp] theorem State.flying_idle : (s.idle).flying = s.flying := rfl
@[simp] theorem State.slow_idle : (s.idle).slow = s.slow := rfl
@[simp] theorem State.free_idle : (s.idle).free = s.free := rfl
@[simp] theorem State.did_idle : (s.idle).did = .nothing := rfl
@[simp] theorem State.plan_idle : (s.idle).plan = s.plan := rfl
@[simp] theorem State.turn_idle : (s.idle).turn = s.turn := rfl

@[simp] theorem State.h_goto (a : Word) (x : Did) : (s.goto a x).h = { s.h with pc := a, iw := none } := rfl
@[simp] theorem State.pool_goto (a : Word) (x : Did) : (s.goto a x).pool = s.pool := rfl
@[simp] theorem State.gtb_goto (a : Word) (x : Did) : (s.goto a x).gtb = s.gtb := rfl
@[simp] theorem State.mem_goto (a : Word) (x : Did) : (s.goto a x).mem = s.mem := rfl
@[simp] theorem State.psn_goto (a : Word) (x : Did) : (s.goto a x).psn = s.psn := rfl
@[simp] theorem State.ecc_goto (a : Word) (x : Did) : (s.goto a x).ecc = s.ecc := rfl
@[simp] theorem State.keys_goto (a : Word) (x : Did) : (s.goto a x).keys = s.keys := rfl
@[simp] theorem State.copied_goto (a : Word) (x : Did) : (s.goto a x).copied = s.copied := rfl
@[simp] theorem State.rob_goto (a : Word) (x : Did) : (s.goto a x).rob = s.rob := rfl
@[simp] theorem State.robBad_goto (a : Word) (x : Did) : (s.goto a x).robBad = s.robBad := rfl
@[simp] theorem State.allot_goto (a : Word) (x : Did) : (s.goto a x).allot = s.allot := rfl
@[simp] theorem State.tlb_goto (a : Word) (x : Did) : (s.goto a x).tlb = s.tlb := rfl
@[simp] theorem State.tlbFill_goto (a : Word) (x : Did) : (s.goto a x).tlbFill = s.tlbFill := rfl
@[simp] theorem State.tableRep_goto (a : Word) (x : Did) : (s.goto a x).tableRep = s.tableRep := rfl
@[simp] theorem State.grdMarks_goto (a : Word) (x : Did) : (s.goto a x).grdMarks = s.grdMarks := rfl
@[simp] theorem State.cores_goto (a : Word) (x : Did) : (s.goto a x).cores = s.cores := rfl
@[simp] theorem State.tenants_goto (a : Word) (x : Did) : (s.goto a x).tenants = s.tenants := rfl
@[simp] theorem State.engines_goto (a : Word) (x : Did) : (s.goto a x).engines = s.engines := rfl
@[simp] theorem State.leaseQ_goto (a : Word) (x : Did) : (s.goto a x).leaseQ = s.leaseQ := rfl
@[simp] theorem State.colls_goto (a : Word) (x : Did) : (s.goto a x).colls = s.colls := rfl
@[simp] theorem State.objs_goto (a : Word) (x : Did) : (s.goto a x).objs = s.objs := rfl
@[simp] theorem State.regions_goto (a : Word) (x : Did) : (s.goto a x).regions = s.regions := rfl
@[simp] theorem State.ploughs_goto (a : Word) (x : Did) : (s.goto a x).ploughs = s.ploughs := rfl
@[simp] theorem State.dies_goto (a : Word) (x : Did) : (s.goto a x).dies = s.dies := rfl
@[simp] theorem State.hub_goto (a : Word) (x : Did) : (s.goto a x).hub = s.hub := rfl
@[simp] theorem State.mcRing_goto (a : Word) (x : Did) : (s.goto a x).mcRing = s.mcRing := rfl
@[simp] theorem State.hostRing_goto (a : Word) (x : Did) : (s.goto a x).hostRing = s.hostRing := rfl
@[simp] theorem State.alog_goto (a : Word) (x : Did) : (s.goto a x).alog = s.alog := rfl
@[simp] theorem State.held_goto (a : Word) (x : Did) : (s.goto a x).held = s.held := rfl
@[simp] theorem State.parts_goto (a : Word) (x : Did) : (s.goto a x).parts = s.parts := rfl
@[simp] theorem State.outbox_goto (a : Word) (x : Did) : (s.goto a x).outbox = s.outbox := rfl
@[simp] theorem State.jobs_goto (a : Word) (x : Did) : (s.goto a x).jobs = s.jobs := rfl
@[simp] theorem State.restoreBad_goto (a : Word) (x : Did) : (s.goto a x).restoreBad = s.restoreBad := rfl
@[simp] theorem State.flying_goto (a : Word) (x : Did) : (s.goto a x).flying = s.flying := rfl
@[simp] theorem State.slow_goto (a : Word) (x : Did) : (s.goto a x).slow = s.slow := rfl
@[simp] theorem State.free_goto (a : Word) (x : Did) : (s.goto a x).free = s.free := rfl
@[simp] theorem State.did_goto (a : Word) (x : Did) : (s.goto a x).did = x := rfl
@[simp] theorem State.plan_goto (a : Word) (x : Did) : (s.goto a x).plan = s.plan := rfl
@[simp] theorem State.turn_goto (a : Word) (x : Did) : (s.goto a x).turn = s.turn := rfl

@[simp] theorem State.h_retire (d : BitVec 5) (v : Word) : (s.retire d v).h = { s.h.setX d.toNat v with pc := s.h.pc + 4, iw := none } := rfl
@[simp] theorem State.pool_retire (d : BitVec 5) (v : Word) : (s.retire d v).pool = s.pool := rfl
@[simp] theorem State.gtb_retire (d : BitVec 5) (v : Word) : (s.retire d v).gtb = s.gtb := rfl
@[simp] theorem State.mem_retire (d : BitVec 5) (v : Word) : (s.retire d v).mem = s.mem := rfl
@[simp] theorem State.psn_retire (d : BitVec 5) (v : Word) : (s.retire d v).psn = s.psn := rfl
@[simp] theorem State.ecc_retire (d : BitVec 5) (v : Word) : (s.retire d v).ecc = s.ecc := rfl
@[simp] theorem State.keys_retire (d : BitVec 5) (v : Word) : (s.retire d v).keys = s.keys := rfl
@[simp] theorem State.copied_retire (d : BitVec 5) (v : Word) : (s.retire d v).copied = s.copied := rfl
@[simp] theorem State.rob_retire (d : BitVec 5) (v : Word) : (s.retire d v).rob = s.rob := rfl
@[simp] theorem State.robBad_retire (d : BitVec 5) (v : Word) : (s.retire d v).robBad = s.robBad := rfl
@[simp] theorem State.allot_retire (d : BitVec 5) (v : Word) : (s.retire d v).allot = s.allot := rfl
@[simp] theorem State.tlb_retire (d : BitVec 5) (v : Word) : (s.retire d v).tlb = s.tlb := rfl
@[simp] theorem State.tlbFill_retire (d : BitVec 5) (v : Word) : (s.retire d v).tlbFill = s.tlbFill := rfl
@[simp] theorem State.tableRep_retire (d : BitVec 5) (v : Word) : (s.retire d v).tableRep = s.tableRep := rfl
@[simp] theorem State.grdMarks_retire (d : BitVec 5) (v : Word) : (s.retire d v).grdMarks = s.grdMarks := rfl
@[simp] theorem State.cores_retire (d : BitVec 5) (v : Word) : (s.retire d v).cores = s.cores := rfl
@[simp] theorem State.tenants_retire (d : BitVec 5) (v : Word) : (s.retire d v).tenants = s.tenants := rfl
@[simp] theorem State.engines_retire (d : BitVec 5) (v : Word) : (s.retire d v).engines = s.engines := rfl
@[simp] theorem State.leaseQ_retire (d : BitVec 5) (v : Word) : (s.retire d v).leaseQ = s.leaseQ := rfl
@[simp] theorem State.colls_retire (d : BitVec 5) (v : Word) : (s.retire d v).colls = s.colls := rfl
@[simp] theorem State.objs_retire (d : BitVec 5) (v : Word) : (s.retire d v).objs = s.objs := rfl
@[simp] theorem State.regions_retire (d : BitVec 5) (v : Word) : (s.retire d v).regions = s.regions := rfl
@[simp] theorem State.ploughs_retire (d : BitVec 5) (v : Word) : (s.retire d v).ploughs = s.ploughs := rfl
@[simp] theorem State.dies_retire (d : BitVec 5) (v : Word) : (s.retire d v).dies = s.dies := rfl
@[simp] theorem State.hub_retire (d : BitVec 5) (v : Word) : (s.retire d v).hub = s.hub := rfl
@[simp] theorem State.mcRing_retire (d : BitVec 5) (v : Word) : (s.retire d v).mcRing = s.mcRing := rfl
@[simp] theorem State.hostRing_retire (d : BitVec 5) (v : Word) : (s.retire d v).hostRing = s.hostRing := rfl
@[simp] theorem State.alog_retire (d : BitVec 5) (v : Word) : (s.retire d v).alog = s.alog := rfl
@[simp] theorem State.held_retire (d : BitVec 5) (v : Word) : (s.retire d v).held = s.held := rfl
@[simp] theorem State.parts_retire (d : BitVec 5) (v : Word) : (s.retire d v).parts = s.parts := rfl
@[simp] theorem State.outbox_retire (d : BitVec 5) (v : Word) : (s.retire d v).outbox = s.outbox := rfl
@[simp] theorem State.jobs_retire (d : BitVec 5) (v : Word) : (s.retire d v).jobs = s.jobs := rfl
@[simp] theorem State.restoreBad_retire (d : BitVec 5) (v : Word) : (s.retire d v).restoreBad = s.restoreBad := rfl
@[simp] theorem State.flying_retire (d : BitVec 5) (v : Word) : (s.retire d v).flying = s.flying := rfl
@[simp] theorem State.slow_retire (d : BitVec 5) (v : Word) : (s.retire d v).slow = s.slow := rfl
@[simp] theorem State.free_retire (d : BitVec 5) (v : Word) : (s.retire d v).free = s.free := rfl
@[simp] theorem State.did_retire (d : BitVec 5) (v : Word) : (s.retire d v).did = .recorded d.toNat (s.xr d) none := rfl
@[simp] theorem State.plan_retire (d : BitVec 5) (v : Word) : (s.retire d v).plan = s.plan := rfl
@[simp] theorem State.turn_retire (d : BitVec 5) (v : Word) : (s.retire d v).turn = s.turn := rfl

@[simp] theorem State.h_retireX (d : BitVec 5) (v : Word) : (s.retireX d v).h = { s.h.setX d.toNat v with pc := s.h.pc + 4, iw := none, begun := none } := rfl
@[simp] theorem State.pool_retireX (d : BitVec 5) (v : Word) : (s.retireX d v).pool = s.pool := rfl
@[simp] theorem State.gtb_retireX (d : BitVec 5) (v : Word) : (s.retireX d v).gtb = s.gtb := rfl
@[simp] theorem State.mem_retireX (d : BitVec 5) (v : Word) : (s.retireX d v).mem = s.mem := rfl
@[simp] theorem State.psn_retireX (d : BitVec 5) (v : Word) : (s.retireX d v).psn = s.psn := rfl
@[simp] theorem State.ecc_retireX (d : BitVec 5) (v : Word) : (s.retireX d v).ecc = s.ecc := rfl
@[simp] theorem State.keys_retireX (d : BitVec 5) (v : Word) : (s.retireX d v).keys = s.keys := rfl
@[simp] theorem State.copied_retireX (d : BitVec 5) (v : Word) : (s.retireX d v).copied = s.copied := rfl
@[simp] theorem State.rob_retireX (d : BitVec 5) (v : Word) : (s.retireX d v).rob = s.rob := rfl
@[simp] theorem State.robBad_retireX (d : BitVec 5) (v : Word) : (s.retireX d v).robBad = s.robBad := rfl
@[simp] theorem State.allot_retireX (d : BitVec 5) (v : Word) : (s.retireX d v).allot = s.allot := rfl
@[simp] theorem State.tlb_retireX (d : BitVec 5) (v : Word) : (s.retireX d v).tlb = s.tlb := rfl
@[simp] theorem State.tlbFill_retireX (d : BitVec 5) (v : Word) : (s.retireX d v).tlbFill = s.tlbFill := rfl
@[simp] theorem State.tableRep_retireX (d : BitVec 5) (v : Word) : (s.retireX d v).tableRep = s.tableRep := rfl
@[simp] theorem State.grdMarks_retireX (d : BitVec 5) (v : Word) : (s.retireX d v).grdMarks = s.grdMarks := rfl
@[simp] theorem State.cores_retireX (d : BitVec 5) (v : Word) : (s.retireX d v).cores = s.cores := rfl
@[simp] theorem State.tenants_retireX (d : BitVec 5) (v : Word) : (s.retireX d v).tenants = s.tenants := rfl
@[simp] theorem State.engines_retireX (d : BitVec 5) (v : Word) : (s.retireX d v).engines = s.engines := rfl
@[simp] theorem State.leaseQ_retireX (d : BitVec 5) (v : Word) : (s.retireX d v).leaseQ = s.leaseQ := rfl
@[simp] theorem State.colls_retireX (d : BitVec 5) (v : Word) : (s.retireX d v).colls = s.colls := rfl
@[simp] theorem State.objs_retireX (d : BitVec 5) (v : Word) : (s.retireX d v).objs = s.objs := rfl
@[simp] theorem State.regions_retireX (d : BitVec 5) (v : Word) : (s.retireX d v).regions = s.regions := rfl
@[simp] theorem State.ploughs_retireX (d : BitVec 5) (v : Word) : (s.retireX d v).ploughs = s.ploughs := rfl
@[simp] theorem State.dies_retireX (d : BitVec 5) (v : Word) : (s.retireX d v).dies = s.dies := rfl
@[simp] theorem State.hub_retireX (d : BitVec 5) (v : Word) : (s.retireX d v).hub = s.hub := rfl
@[simp] theorem State.mcRing_retireX (d : BitVec 5) (v : Word) : (s.retireX d v).mcRing = s.mcRing := rfl
@[simp] theorem State.hostRing_retireX (d : BitVec 5) (v : Word) : (s.retireX d v).hostRing = s.hostRing := rfl
@[simp] theorem State.alog_retireX (d : BitVec 5) (v : Word) : (s.retireX d v).alog = s.alog := rfl
@[simp] theorem State.held_retireX (d : BitVec 5) (v : Word) : (s.retireX d v).held = s.held := rfl
@[simp] theorem State.parts_retireX (d : BitVec 5) (v : Word) : (s.retireX d v).parts = s.parts := rfl
@[simp] theorem State.outbox_retireX (d : BitVec 5) (v : Word) : (s.retireX d v).outbox = s.outbox := rfl
@[simp] theorem State.jobs_retireX (d : BitVec 5) (v : Word) : (s.retireX d v).jobs = s.jobs := rfl
@[simp] theorem State.restoreBad_retireX (d : BitVec 5) (v : Word) : (s.retireX d v).restoreBad = s.restoreBad := rfl
@[simp] theorem State.flying_retireX (d : BitVec 5) (v : Word) : (s.retireX d v).flying = s.flying := rfl
@[simp] theorem State.slow_retireX (d : BitVec 5) (v : Word) : (s.retireX d v).slow = s.slow := rfl
@[simp] theorem State.free_retireX (d : BitVec 5) (v : Word) : (s.retireX d v).free = s.free := rfl
@[simp] theorem State.did_retireX (d : BitVec 5) (v : Word) : (s.retireX d v).did = .retired := rfl
@[simp] theorem State.plan_retireX (d : BitVec 5) (v : Word) : (s.retireX d v).plan = s.plan := rfl
@[simp] theorem State.turn_retireX (d : BitVec 5) (v : Word) : (s.retireX d v).turn = s.turn := rfl

@[simp] theorem State.h_retire0 : (s.retire0).h = { s.h with pc := s.h.pc + 4, iw := none } := rfl
@[simp] theorem State.pool_retire0 : (s.retire0).pool = s.pool := rfl
@[simp] theorem State.gtb_retire0 : (s.retire0).gtb = s.gtb := rfl
@[simp] theorem State.mem_retire0 : (s.retire0).mem = s.mem := rfl
@[simp] theorem State.psn_retire0 : (s.retire0).psn = s.psn := rfl
@[simp] theorem State.ecc_retire0 : (s.retire0).ecc = s.ecc := rfl
@[simp] theorem State.keys_retire0 : (s.retire0).keys = s.keys := rfl
@[simp] theorem State.copied_retire0 : (s.retire0).copied = s.copied := rfl
@[simp] theorem State.rob_retire0 : (s.retire0).rob = s.rob := rfl
@[simp] theorem State.robBad_retire0 : (s.retire0).robBad = s.robBad := rfl
@[simp] theorem State.allot_retire0 : (s.retire0).allot = s.allot := rfl
@[simp] theorem State.tlb_retire0 : (s.retire0).tlb = s.tlb := rfl
@[simp] theorem State.tlbFill_retire0 : (s.retire0).tlbFill = s.tlbFill := rfl
@[simp] theorem State.tableRep_retire0 : (s.retire0).tableRep = s.tableRep := rfl
@[simp] theorem State.grdMarks_retire0 : (s.retire0).grdMarks = s.grdMarks := rfl
@[simp] theorem State.cores_retire0 : (s.retire0).cores = s.cores := rfl
@[simp] theorem State.tenants_retire0 : (s.retire0).tenants = s.tenants := rfl
@[simp] theorem State.engines_retire0 : (s.retire0).engines = s.engines := rfl
@[simp] theorem State.leaseQ_retire0 : (s.retire0).leaseQ = s.leaseQ := rfl
@[simp] theorem State.colls_retire0 : (s.retire0).colls = s.colls := rfl
@[simp] theorem State.objs_retire0 : (s.retire0).objs = s.objs := rfl
@[simp] theorem State.regions_retire0 : (s.retire0).regions = s.regions := rfl
@[simp] theorem State.ploughs_retire0 : (s.retire0).ploughs = s.ploughs := rfl
@[simp] theorem State.dies_retire0 : (s.retire0).dies = s.dies := rfl
@[simp] theorem State.hub_retire0 : (s.retire0).hub = s.hub := rfl
@[simp] theorem State.mcRing_retire0 : (s.retire0).mcRing = s.mcRing := rfl
@[simp] theorem State.hostRing_retire0 : (s.retire0).hostRing = s.hostRing := rfl
@[simp] theorem State.alog_retire0 : (s.retire0).alog = s.alog := rfl
@[simp] theorem State.held_retire0 : (s.retire0).held = s.held := rfl
@[simp] theorem State.parts_retire0 : (s.retire0).parts = s.parts := rfl
@[simp] theorem State.outbox_retire0 : (s.retire0).outbox = s.outbox := rfl
@[simp] theorem State.jobs_retire0 : (s.retire0).jobs = s.jobs := rfl
@[simp] theorem State.restoreBad_retire0 : (s.retire0).restoreBad = s.restoreBad := rfl
@[simp] theorem State.flying_retire0 : (s.retire0).flying = s.flying := rfl
@[simp] theorem State.slow_retire0 : (s.retire0).slow = s.slow := rfl
@[simp] theorem State.free_retire0 : (s.retire0).free = s.free := rfl
@[simp] theorem State.did_retire0 : (s.retire0).did = .retired := rfl
@[simp] theorem State.plan_retire0 : (s.retire0).plan = s.plan := rfl
@[simp] theorem State.turn_retire0 : (s.retire0).turn = s.turn := rfl

@[simp] theorem State.h_setTenant (n : Nat) (f : Tenant → Tenant) : (s.setTenant n f).h = s.h := rfl
@[simp] theorem State.pool_setTenant (n : Nat) (f : Tenant → Tenant) : (s.setTenant n f).pool = s.pool := rfl
@[simp] theorem State.gtb_setTenant (n : Nat) (f : Tenant → Tenant) : (s.setTenant n f).gtb = s.gtb := rfl
@[simp] theorem State.mem_setTenant (n : Nat) (f : Tenant → Tenant) : (s.setTenant n f).mem = s.mem := rfl
@[simp] theorem State.psn_setTenant (n : Nat) (f : Tenant → Tenant) : (s.setTenant n f).psn = s.psn := rfl
@[simp] theorem State.ecc_setTenant (n : Nat) (f : Tenant → Tenant) : (s.setTenant n f).ecc = s.ecc := rfl
@[simp] theorem State.keys_setTenant (n : Nat) (f : Tenant → Tenant) : (s.setTenant n f).keys = s.keys := rfl
@[simp] theorem State.copied_setTenant (n : Nat) (f : Tenant → Tenant) : (s.setTenant n f).copied = s.copied := rfl
@[simp] theorem State.rob_setTenant (n : Nat) (f : Tenant → Tenant) : (s.setTenant n f).rob = s.rob := rfl
@[simp] theorem State.robBad_setTenant (n : Nat) (f : Tenant → Tenant) : (s.setTenant n f).robBad = s.robBad := rfl
@[simp] theorem State.allot_setTenant (n : Nat) (f : Tenant → Tenant) : (s.setTenant n f).allot = s.allot := rfl
@[simp] theorem State.tlb_setTenant (n : Nat) (f : Tenant → Tenant) : (s.setTenant n f).tlb = s.tlb := rfl
@[simp] theorem State.tlbFill_setTenant (n : Nat) (f : Tenant → Tenant) : (s.setTenant n f).tlbFill = s.tlbFill := rfl
@[simp] theorem State.tableRep_setTenant (n : Nat) (f : Tenant → Tenant) : (s.setTenant n f).tableRep = s.tableRep := rfl
@[simp] theorem State.grdMarks_setTenant (n : Nat) (f : Tenant → Tenant) : (s.setTenant n f).grdMarks = s.grdMarks := rfl
@[simp] theorem State.cores_setTenant (n : Nat) (f : Tenant → Tenant) : (s.setTenant n f).cores = s.cores := rfl
@[simp] theorem State.tenants_setTenant (n : Nat) (f : Tenant → Tenant) : (s.setTenant n f).tenants = Tab.set Tenant.reset s.tenants n (f (s.tenant n)) := rfl
@[simp] theorem State.engines_setTenant (n : Nat) (f : Tenant → Tenant) : (s.setTenant n f).engines = s.engines := rfl
@[simp] theorem State.leaseQ_setTenant (n : Nat) (f : Tenant → Tenant) : (s.setTenant n f).leaseQ = s.leaseQ := rfl
@[simp] theorem State.colls_setTenant (n : Nat) (f : Tenant → Tenant) : (s.setTenant n f).colls = s.colls := rfl
@[simp] theorem State.objs_setTenant (n : Nat) (f : Tenant → Tenant) : (s.setTenant n f).objs = s.objs := rfl
@[simp] theorem State.regions_setTenant (n : Nat) (f : Tenant → Tenant) : (s.setTenant n f).regions = s.regions := rfl
@[simp] theorem State.ploughs_setTenant (n : Nat) (f : Tenant → Tenant) : (s.setTenant n f).ploughs = s.ploughs := rfl
@[simp] theorem State.dies_setTenant (n : Nat) (f : Tenant → Tenant) : (s.setTenant n f).dies = s.dies := rfl
@[simp] theorem State.hub_setTenant (n : Nat) (f : Tenant → Tenant) : (s.setTenant n f).hub = s.hub := rfl
@[simp] theorem State.mcRing_setTenant (n : Nat) (f : Tenant → Tenant) : (s.setTenant n f).mcRing = s.mcRing := rfl
@[simp] theorem State.hostRing_setTenant (n : Nat) (f : Tenant → Tenant) : (s.setTenant n f).hostRing = s.hostRing := rfl
@[simp] theorem State.alog_setTenant (n : Nat) (f : Tenant → Tenant) : (s.setTenant n f).alog = s.alog := rfl
@[simp] theorem State.held_setTenant (n : Nat) (f : Tenant → Tenant) : (s.setTenant n f).held = s.held := rfl
@[simp] theorem State.parts_setTenant (n : Nat) (f : Tenant → Tenant) : (s.setTenant n f).parts = s.parts := rfl
@[simp] theorem State.outbox_setTenant (n : Nat) (f : Tenant → Tenant) : (s.setTenant n f).outbox = s.outbox := rfl
@[simp] theorem State.jobs_setTenant (n : Nat) (f : Tenant → Tenant) : (s.setTenant n f).jobs = s.jobs := rfl
@[simp] theorem State.restoreBad_setTenant (n : Nat) (f : Tenant → Tenant) : (s.setTenant n f).restoreBad = s.restoreBad := rfl
@[simp] theorem State.flying_setTenant (n : Nat) (f : Tenant → Tenant) : (s.setTenant n f).flying = s.flying := rfl
@[simp] theorem State.slow_setTenant (n : Nat) (f : Tenant → Tenant) : (s.setTenant n f).slow = s.slow := rfl
@[simp] theorem State.free_setTenant (n : Nat) (f : Tenant → Tenant) : (s.setTenant n f).free = s.free := rfl
@[simp] theorem State.did_setTenant (n : Nat) (f : Tenant → Tenant) : (s.setTenant n f).did = s.did := rfl
@[simp] theorem State.plan_setTenant (n : Nat) (f : Tenant → Tenant) : (s.setTenant n f).plan = s.plan := rfl
@[simp] theorem State.turn_setTenant (n : Nat) (f : Tenant → Tenant) : (s.setTenant n f).turn = s.turn := rfl

@[simp] theorem State.h_setCore (n : Nat) (f : Core → Core) : (s.setCore n f).h = s.h := rfl
@[simp] theorem State.pool_setCore (n : Nat) (f : Core → Core) : (s.setCore n f).pool = s.pool := rfl
@[simp] theorem State.gtb_setCore (n : Nat) (f : Core → Core) : (s.setCore n f).gtb = s.gtb := rfl
@[simp] theorem State.mem_setCore (n : Nat) (f : Core → Core) : (s.setCore n f).mem = s.mem := rfl
@[simp] theorem State.psn_setCore (n : Nat) (f : Core → Core) : (s.setCore n f).psn = s.psn := rfl
@[simp] theorem State.ecc_setCore (n : Nat) (f : Core → Core) : (s.setCore n f).ecc = s.ecc := rfl
@[simp] theorem State.keys_setCore (n : Nat) (f : Core → Core) : (s.setCore n f).keys = s.keys := rfl
@[simp] theorem State.copied_setCore (n : Nat) (f : Core → Core) : (s.setCore n f).copied = s.copied := rfl
@[simp] theorem State.rob_setCore (n : Nat) (f : Core → Core) : (s.setCore n f).rob = s.rob := rfl
@[simp] theorem State.robBad_setCore (n : Nat) (f : Core → Core) : (s.setCore n f).robBad = s.robBad := rfl
@[simp] theorem State.allot_setCore (n : Nat) (f : Core → Core) : (s.setCore n f).allot = s.allot := rfl
@[simp] theorem State.tlb_setCore (n : Nat) (f : Core → Core) : (s.setCore n f).tlb = s.tlb := rfl
@[simp] theorem State.tlbFill_setCore (n : Nat) (f : Core → Core) : (s.setCore n f).tlbFill = s.tlbFill := rfl
@[simp] theorem State.tableRep_setCore (n : Nat) (f : Core → Core) : (s.setCore n f).tableRep = s.tableRep := rfl
@[simp] theorem State.grdMarks_setCore (n : Nat) (f : Core → Core) : (s.setCore n f).grdMarks = s.grdMarks := rfl
@[simp] theorem State.cores_setCore (n : Nat) (f : Core → Core) : (s.setCore n f).cores = Tab.set Core.reset s.cores n (f (s.core n)) := rfl
@[simp] theorem State.tenants_setCore (n : Nat) (f : Core → Core) : (s.setCore n f).tenants = s.tenants := rfl
@[simp] theorem State.engines_setCore (n : Nat) (f : Core → Core) : (s.setCore n f).engines = s.engines := rfl
@[simp] theorem State.leaseQ_setCore (n : Nat) (f : Core → Core) : (s.setCore n f).leaseQ = s.leaseQ := rfl
@[simp] theorem State.colls_setCore (n : Nat) (f : Core → Core) : (s.setCore n f).colls = s.colls := rfl
@[simp] theorem State.objs_setCore (n : Nat) (f : Core → Core) : (s.setCore n f).objs = s.objs := rfl
@[simp] theorem State.regions_setCore (n : Nat) (f : Core → Core) : (s.setCore n f).regions = s.regions := rfl
@[simp] theorem State.ploughs_setCore (n : Nat) (f : Core → Core) : (s.setCore n f).ploughs = s.ploughs := rfl
@[simp] theorem State.dies_setCore (n : Nat) (f : Core → Core) : (s.setCore n f).dies = s.dies := rfl
@[simp] theorem State.hub_setCore (n : Nat) (f : Core → Core) : (s.setCore n f).hub = s.hub := rfl
@[simp] theorem State.mcRing_setCore (n : Nat) (f : Core → Core) : (s.setCore n f).mcRing = s.mcRing := rfl
@[simp] theorem State.hostRing_setCore (n : Nat) (f : Core → Core) : (s.setCore n f).hostRing = s.hostRing := rfl
@[simp] theorem State.alog_setCore (n : Nat) (f : Core → Core) : (s.setCore n f).alog = s.alog := rfl
@[simp] theorem State.held_setCore (n : Nat) (f : Core → Core) : (s.setCore n f).held = s.held := rfl
@[simp] theorem State.parts_setCore (n : Nat) (f : Core → Core) : (s.setCore n f).parts = s.parts := rfl
@[simp] theorem State.outbox_setCore (n : Nat) (f : Core → Core) : (s.setCore n f).outbox = s.outbox := rfl
@[simp] theorem State.jobs_setCore (n : Nat) (f : Core → Core) : (s.setCore n f).jobs = s.jobs := rfl
@[simp] theorem State.restoreBad_setCore (n : Nat) (f : Core → Core) : (s.setCore n f).restoreBad = s.restoreBad := rfl
@[simp] theorem State.flying_setCore (n : Nat) (f : Core → Core) : (s.setCore n f).flying = s.flying := rfl
@[simp] theorem State.slow_setCore (n : Nat) (f : Core → Core) : (s.setCore n f).slow = s.slow := rfl
@[simp] theorem State.free_setCore (n : Nat) (f : Core → Core) : (s.setCore n f).free = s.free := rfl
@[simp] theorem State.did_setCore (n : Nat) (f : Core → Core) : (s.setCore n f).did = s.did := rfl
@[simp] theorem State.plan_setCore (n : Nat) (f : Core → Core) : (s.setCore n f).plan = s.plan := rfl
@[simp] theorem State.turn_setCore (n : Nat) (f : Core → Core) : (s.setCore n f).turn = s.turn := rfl

@[simp] theorem State.h_setDie (n : Nat) (f : Die → Die) : (s.setDie n f).h = s.h := rfl
@[simp] theorem State.pool_setDie (n : Nat) (f : Die → Die) : (s.setDie n f).pool = s.pool := rfl
@[simp] theorem State.gtb_setDie (n : Nat) (f : Die → Die) : (s.setDie n f).gtb = s.gtb := rfl
@[simp] theorem State.mem_setDie (n : Nat) (f : Die → Die) : (s.setDie n f).mem = s.mem := rfl
@[simp] theorem State.psn_setDie (n : Nat) (f : Die → Die) : (s.setDie n f).psn = s.psn := rfl
@[simp] theorem State.ecc_setDie (n : Nat) (f : Die → Die) : (s.setDie n f).ecc = s.ecc := rfl
@[simp] theorem State.keys_setDie (n : Nat) (f : Die → Die) : (s.setDie n f).keys = s.keys := rfl
@[simp] theorem State.copied_setDie (n : Nat) (f : Die → Die) : (s.setDie n f).copied = s.copied := rfl
@[simp] theorem State.rob_setDie (n : Nat) (f : Die → Die) : (s.setDie n f).rob = s.rob := rfl
@[simp] theorem State.robBad_setDie (n : Nat) (f : Die → Die) : (s.setDie n f).robBad = s.robBad := rfl
@[simp] theorem State.allot_setDie (n : Nat) (f : Die → Die) : (s.setDie n f).allot = s.allot := rfl
@[simp] theorem State.tlb_setDie (n : Nat) (f : Die → Die) : (s.setDie n f).tlb = s.tlb := rfl
@[simp] theorem State.tlbFill_setDie (n : Nat) (f : Die → Die) : (s.setDie n f).tlbFill = s.tlbFill := rfl
@[simp] theorem State.tableRep_setDie (n : Nat) (f : Die → Die) : (s.setDie n f).tableRep = s.tableRep := rfl
@[simp] theorem State.grdMarks_setDie (n : Nat) (f : Die → Die) : (s.setDie n f).grdMarks = s.grdMarks := rfl
@[simp] theorem State.cores_setDie (n : Nat) (f : Die → Die) : (s.setDie n f).cores = s.cores := rfl
@[simp] theorem State.tenants_setDie (n : Nat) (f : Die → Die) : (s.setDie n f).tenants = s.tenants := rfl
@[simp] theorem State.engines_setDie (n : Nat) (f : Die → Die) : (s.setDie n f).engines = s.engines := rfl
@[simp] theorem State.leaseQ_setDie (n : Nat) (f : Die → Die) : (s.setDie n f).leaseQ = s.leaseQ := rfl
@[simp] theorem State.colls_setDie (n : Nat) (f : Die → Die) : (s.setDie n f).colls = s.colls := rfl
@[simp] theorem State.objs_setDie (n : Nat) (f : Die → Die) : (s.setDie n f).objs = s.objs := rfl
@[simp] theorem State.regions_setDie (n : Nat) (f : Die → Die) : (s.setDie n f).regions = s.regions := rfl
@[simp] theorem State.ploughs_setDie (n : Nat) (f : Die → Die) : (s.setDie n f).ploughs = s.ploughs := rfl
@[simp] theorem State.dies_setDie (n : Nat) (f : Die → Die) : (s.setDie n f).dies = Tab.set Die.reset s.dies n (f (s.die n)) := rfl
@[simp] theorem State.hub_setDie (n : Nat) (f : Die → Die) : (s.setDie n f).hub = s.hub := rfl
@[simp] theorem State.mcRing_setDie (n : Nat) (f : Die → Die) : (s.setDie n f).mcRing = s.mcRing := rfl
@[simp] theorem State.hostRing_setDie (n : Nat) (f : Die → Die) : (s.setDie n f).hostRing = s.hostRing := rfl
@[simp] theorem State.alog_setDie (n : Nat) (f : Die → Die) : (s.setDie n f).alog = s.alog := rfl
@[simp] theorem State.held_setDie (n : Nat) (f : Die → Die) : (s.setDie n f).held = s.held := rfl
@[simp] theorem State.parts_setDie (n : Nat) (f : Die → Die) : (s.setDie n f).parts = s.parts := rfl
@[simp] theorem State.outbox_setDie (n : Nat) (f : Die → Die) : (s.setDie n f).outbox = s.outbox := rfl
@[simp] theorem State.jobs_setDie (n : Nat) (f : Die → Die) : (s.setDie n f).jobs = s.jobs := rfl
@[simp] theorem State.restoreBad_setDie (n : Nat) (f : Die → Die) : (s.setDie n f).restoreBad = s.restoreBad := rfl
@[simp] theorem State.flying_setDie (n : Nat) (f : Die → Die) : (s.setDie n f).flying = s.flying := rfl
@[simp] theorem State.slow_setDie (n : Nat) (f : Die → Die) : (s.setDie n f).slow = s.slow := rfl
@[simp] theorem State.free_setDie (n : Nat) (f : Die → Die) : (s.setDie n f).free = s.free := rfl
@[simp] theorem State.did_setDie (n : Nat) (f : Die → Die) : (s.setDie n f).did = s.did := rfl
@[simp] theorem State.plan_setDie (n : Nat) (f : Die → Die) : (s.setDie n f).plan = s.plan := rfl
@[simp] theorem State.turn_setDie (n : Nat) (f : Die → Die) : (s.setDie n f).turn = s.turn := rfl

@[simp] theorem State.h_setEngine (n : Nat) (f : Engine → Engine) : (s.setEngine n f).h = s.h := rfl
@[simp] theorem State.pool_setEngine (n : Nat) (f : Engine → Engine) : (s.setEngine n f).pool = s.pool := rfl
@[simp] theorem State.gtb_setEngine (n : Nat) (f : Engine → Engine) : (s.setEngine n f).gtb = s.gtb := rfl
@[simp] theorem State.mem_setEngine (n : Nat) (f : Engine → Engine) : (s.setEngine n f).mem = s.mem := rfl
@[simp] theorem State.psn_setEngine (n : Nat) (f : Engine → Engine) : (s.setEngine n f).psn = s.psn := rfl
@[simp] theorem State.ecc_setEngine (n : Nat) (f : Engine → Engine) : (s.setEngine n f).ecc = s.ecc := rfl
@[simp] theorem State.keys_setEngine (n : Nat) (f : Engine → Engine) : (s.setEngine n f).keys = s.keys := rfl
@[simp] theorem State.copied_setEngine (n : Nat) (f : Engine → Engine) : (s.setEngine n f).copied = s.copied := rfl
@[simp] theorem State.rob_setEngine (n : Nat) (f : Engine → Engine) : (s.setEngine n f).rob = s.rob := rfl
@[simp] theorem State.robBad_setEngine (n : Nat) (f : Engine → Engine) : (s.setEngine n f).robBad = s.robBad := rfl
@[simp] theorem State.allot_setEngine (n : Nat) (f : Engine → Engine) : (s.setEngine n f).allot = s.allot := rfl
@[simp] theorem State.tlb_setEngine (n : Nat) (f : Engine → Engine) : (s.setEngine n f).tlb = s.tlb := rfl
@[simp] theorem State.tlbFill_setEngine (n : Nat) (f : Engine → Engine) : (s.setEngine n f).tlbFill = s.tlbFill := rfl
@[simp] theorem State.tableRep_setEngine (n : Nat) (f : Engine → Engine) : (s.setEngine n f).tableRep = s.tableRep := rfl
@[simp] theorem State.grdMarks_setEngine (n : Nat) (f : Engine → Engine) : (s.setEngine n f).grdMarks = s.grdMarks := rfl
@[simp] theorem State.cores_setEngine (n : Nat) (f : Engine → Engine) : (s.setEngine n f).cores = s.cores := rfl
@[simp] theorem State.tenants_setEngine (n : Nat) (f : Engine → Engine) : (s.setEngine n f).tenants = s.tenants := rfl
@[simp] theorem State.engines_setEngine (n : Nat) (f : Engine → Engine) : (s.setEngine n f).engines = Tab.set Engine.reset s.engines n (f (s.engine n)) := rfl
@[simp] theorem State.leaseQ_setEngine (n : Nat) (f : Engine → Engine) : (s.setEngine n f).leaseQ = s.leaseQ := rfl
@[simp] theorem State.colls_setEngine (n : Nat) (f : Engine → Engine) : (s.setEngine n f).colls = s.colls := rfl
@[simp] theorem State.objs_setEngine (n : Nat) (f : Engine → Engine) : (s.setEngine n f).objs = s.objs := rfl
@[simp] theorem State.regions_setEngine (n : Nat) (f : Engine → Engine) : (s.setEngine n f).regions = s.regions := rfl
@[simp] theorem State.ploughs_setEngine (n : Nat) (f : Engine → Engine) : (s.setEngine n f).ploughs = s.ploughs := rfl
@[simp] theorem State.dies_setEngine (n : Nat) (f : Engine → Engine) : (s.setEngine n f).dies = s.dies := rfl
@[simp] theorem State.hub_setEngine (n : Nat) (f : Engine → Engine) : (s.setEngine n f).hub = s.hub := rfl
@[simp] theorem State.mcRing_setEngine (n : Nat) (f : Engine → Engine) : (s.setEngine n f).mcRing = s.mcRing := rfl
@[simp] theorem State.hostRing_setEngine (n : Nat) (f : Engine → Engine) : (s.setEngine n f).hostRing = s.hostRing := rfl
@[simp] theorem State.alog_setEngine (n : Nat) (f : Engine → Engine) : (s.setEngine n f).alog = s.alog := rfl
@[simp] theorem State.held_setEngine (n : Nat) (f : Engine → Engine) : (s.setEngine n f).held = s.held := rfl
@[simp] theorem State.parts_setEngine (n : Nat) (f : Engine → Engine) : (s.setEngine n f).parts = s.parts := rfl
@[simp] theorem State.outbox_setEngine (n : Nat) (f : Engine → Engine) : (s.setEngine n f).outbox = s.outbox := rfl
@[simp] theorem State.jobs_setEngine (n : Nat) (f : Engine → Engine) : (s.setEngine n f).jobs = s.jobs := rfl
@[simp] theorem State.restoreBad_setEngine (n : Nat) (f : Engine → Engine) : (s.setEngine n f).restoreBad = s.restoreBad := rfl
@[simp] theorem State.flying_setEngine (n : Nat) (f : Engine → Engine) : (s.setEngine n f).flying = s.flying := rfl
@[simp] theorem State.slow_setEngine (n : Nat) (f : Engine → Engine) : (s.setEngine n f).slow = s.slow := rfl
@[simp] theorem State.free_setEngine (n : Nat) (f : Engine → Engine) : (s.setEngine n f).free = s.free := rfl
@[simp] theorem State.did_setEngine (n : Nat) (f : Engine → Engine) : (s.setEngine n f).did = s.did := rfl
@[simp] theorem State.plan_setEngine (n : Nat) (f : Engine → Engine) : (s.setEngine n f).plan = s.plan := rfl
@[simp] theorem State.turn_setEngine (n : Nat) (f : Engine → Engine) : (s.setEngine n f).turn = s.turn := rfl

@[simp] theorem State.h_setPlough (n : Nat) (f : Plough → Plough) : (s.setPlough n f).h = s.h := rfl
@[simp] theorem State.pool_setPlough (n : Nat) (f : Plough → Plough) : (s.setPlough n f).pool = s.pool := rfl
@[simp] theorem State.gtb_setPlough (n : Nat) (f : Plough → Plough) : (s.setPlough n f).gtb = s.gtb := rfl
@[simp] theorem State.mem_setPlough (n : Nat) (f : Plough → Plough) : (s.setPlough n f).mem = s.mem := rfl
@[simp] theorem State.psn_setPlough (n : Nat) (f : Plough → Plough) : (s.setPlough n f).psn = s.psn := rfl
@[simp] theorem State.ecc_setPlough (n : Nat) (f : Plough → Plough) : (s.setPlough n f).ecc = s.ecc := rfl
@[simp] theorem State.keys_setPlough (n : Nat) (f : Plough → Plough) : (s.setPlough n f).keys = s.keys := rfl
@[simp] theorem State.copied_setPlough (n : Nat) (f : Plough → Plough) : (s.setPlough n f).copied = s.copied := rfl
@[simp] theorem State.rob_setPlough (n : Nat) (f : Plough → Plough) : (s.setPlough n f).rob = s.rob := rfl
@[simp] theorem State.robBad_setPlough (n : Nat) (f : Plough → Plough) : (s.setPlough n f).robBad = s.robBad := rfl
@[simp] theorem State.allot_setPlough (n : Nat) (f : Plough → Plough) : (s.setPlough n f).allot = s.allot := rfl
@[simp] theorem State.tlb_setPlough (n : Nat) (f : Plough → Plough) : (s.setPlough n f).tlb = s.tlb := rfl
@[simp] theorem State.tlbFill_setPlough (n : Nat) (f : Plough → Plough) : (s.setPlough n f).tlbFill = s.tlbFill := rfl
@[simp] theorem State.tableRep_setPlough (n : Nat) (f : Plough → Plough) : (s.setPlough n f).tableRep = s.tableRep := rfl
@[simp] theorem State.grdMarks_setPlough (n : Nat) (f : Plough → Plough) : (s.setPlough n f).grdMarks = s.grdMarks := rfl
@[simp] theorem State.cores_setPlough (n : Nat) (f : Plough → Plough) : (s.setPlough n f).cores = s.cores := rfl
@[simp] theorem State.tenants_setPlough (n : Nat) (f : Plough → Plough) : (s.setPlough n f).tenants = s.tenants := rfl
@[simp] theorem State.engines_setPlough (n : Nat) (f : Plough → Plough) : (s.setPlough n f).engines = s.engines := rfl
@[simp] theorem State.leaseQ_setPlough (n : Nat) (f : Plough → Plough) : (s.setPlough n f).leaseQ = s.leaseQ := rfl
@[simp] theorem State.colls_setPlough (n : Nat) (f : Plough → Plough) : (s.setPlough n f).colls = s.colls := rfl
@[simp] theorem State.objs_setPlough (n : Nat) (f : Plough → Plough) : (s.setPlough n f).objs = s.objs := rfl
@[simp] theorem State.regions_setPlough (n : Nat) (f : Plough → Plough) : (s.setPlough n f).regions = s.regions := rfl
@[simp] theorem State.ploughs_setPlough (n : Nat) (f : Plough → Plough) : (s.setPlough n f).ploughs = Tab.set Plough.reset s.ploughs n (f (s.plough n)) := rfl
@[simp] theorem State.dies_setPlough (n : Nat) (f : Plough → Plough) : (s.setPlough n f).dies = s.dies := rfl
@[simp] theorem State.hub_setPlough (n : Nat) (f : Plough → Plough) : (s.setPlough n f).hub = s.hub := rfl
@[simp] theorem State.mcRing_setPlough (n : Nat) (f : Plough → Plough) : (s.setPlough n f).mcRing = s.mcRing := rfl
@[simp] theorem State.hostRing_setPlough (n : Nat) (f : Plough → Plough) : (s.setPlough n f).hostRing = s.hostRing := rfl
@[simp] theorem State.alog_setPlough (n : Nat) (f : Plough → Plough) : (s.setPlough n f).alog = s.alog := rfl
@[simp] theorem State.held_setPlough (n : Nat) (f : Plough → Plough) : (s.setPlough n f).held = s.held := rfl
@[simp] theorem State.parts_setPlough (n : Nat) (f : Plough → Plough) : (s.setPlough n f).parts = s.parts := rfl
@[simp] theorem State.outbox_setPlough (n : Nat) (f : Plough → Plough) : (s.setPlough n f).outbox = s.outbox := rfl
@[simp] theorem State.jobs_setPlough (n : Nat) (f : Plough → Plough) : (s.setPlough n f).jobs = s.jobs := rfl
@[simp] theorem State.restoreBad_setPlough (n : Nat) (f : Plough → Plough) : (s.setPlough n f).restoreBad = s.restoreBad := rfl
@[simp] theorem State.flying_setPlough (n : Nat) (f : Plough → Plough) : (s.setPlough n f).flying = s.flying := rfl
@[simp] theorem State.slow_setPlough (n : Nat) (f : Plough → Plough) : (s.setPlough n f).slow = s.slow := rfl
@[simp] theorem State.free_setPlough (n : Nat) (f : Plough → Plough) : (s.setPlough n f).free = s.free := rfl
@[simp] theorem State.did_setPlough (n : Nat) (f : Plough → Plough) : (s.setPlough n f).did = s.did := rfl
@[simp] theorem State.plan_setPlough (n : Nat) (f : Plough → Plough) : (s.setPlough n f).plan = s.plan := rfl
@[simp] theorem State.turn_setPlough (n : Nat) (f : Plough → Plough) : (s.setPlough n f).turn = s.turn := rfl

@[simp] theorem State.h_setHub (f : Hub → Hub) : (s.setHub f).h = s.h := rfl
@[simp] theorem State.pool_setHub (f : Hub → Hub) : (s.setHub f).pool = s.pool := rfl
@[simp] theorem State.gtb_setHub (f : Hub → Hub) : (s.setHub f).gtb = s.gtb := rfl
@[simp] theorem State.mem_setHub (f : Hub → Hub) : (s.setHub f).mem = s.mem := rfl
@[simp] theorem State.psn_setHub (f : Hub → Hub) : (s.setHub f).psn = s.psn := rfl
@[simp] theorem State.ecc_setHub (f : Hub → Hub) : (s.setHub f).ecc = s.ecc := rfl
@[simp] theorem State.keys_setHub (f : Hub → Hub) : (s.setHub f).keys = s.keys := rfl
@[simp] theorem State.copied_setHub (f : Hub → Hub) : (s.setHub f).copied = s.copied := rfl
@[simp] theorem State.rob_setHub (f : Hub → Hub) : (s.setHub f).rob = s.rob := rfl
@[simp] theorem State.robBad_setHub (f : Hub → Hub) : (s.setHub f).robBad = s.robBad := rfl
@[simp] theorem State.allot_setHub (f : Hub → Hub) : (s.setHub f).allot = s.allot := rfl
@[simp] theorem State.tlb_setHub (f : Hub → Hub) : (s.setHub f).tlb = s.tlb := rfl
@[simp] theorem State.tlbFill_setHub (f : Hub → Hub) : (s.setHub f).tlbFill = s.tlbFill := rfl
@[simp] theorem State.tableRep_setHub (f : Hub → Hub) : (s.setHub f).tableRep = s.tableRep := rfl
@[simp] theorem State.grdMarks_setHub (f : Hub → Hub) : (s.setHub f).grdMarks = s.grdMarks := rfl
@[simp] theorem State.cores_setHub (f : Hub → Hub) : (s.setHub f).cores = s.cores := rfl
@[simp] theorem State.tenants_setHub (f : Hub → Hub) : (s.setHub f).tenants = s.tenants := rfl
@[simp] theorem State.engines_setHub (f : Hub → Hub) : (s.setHub f).engines = s.engines := rfl
@[simp] theorem State.leaseQ_setHub (f : Hub → Hub) : (s.setHub f).leaseQ = s.leaseQ := rfl
@[simp] theorem State.colls_setHub (f : Hub → Hub) : (s.setHub f).colls = s.colls := rfl
@[simp] theorem State.objs_setHub (f : Hub → Hub) : (s.setHub f).objs = s.objs := rfl
@[simp] theorem State.regions_setHub (f : Hub → Hub) : (s.setHub f).regions = s.regions := rfl
@[simp] theorem State.ploughs_setHub (f : Hub → Hub) : (s.setHub f).ploughs = s.ploughs := rfl
@[simp] theorem State.dies_setHub (f : Hub → Hub) : (s.setHub f).dies = s.dies := rfl
@[simp] theorem State.hub_setHub (f : Hub → Hub) : (s.setHub f).hub = f s.hub := rfl
@[simp] theorem State.mcRing_setHub (f : Hub → Hub) : (s.setHub f).mcRing = s.mcRing := rfl
@[simp] theorem State.hostRing_setHub (f : Hub → Hub) : (s.setHub f).hostRing = s.hostRing := rfl
@[simp] theorem State.alog_setHub (f : Hub → Hub) : (s.setHub f).alog = s.alog := rfl
@[simp] theorem State.held_setHub (f : Hub → Hub) : (s.setHub f).held = s.held := rfl
@[simp] theorem State.parts_setHub (f : Hub → Hub) : (s.setHub f).parts = s.parts := rfl
@[simp] theorem State.outbox_setHub (f : Hub → Hub) : (s.setHub f).outbox = s.outbox := rfl
@[simp] theorem State.jobs_setHub (f : Hub → Hub) : (s.setHub f).jobs = s.jobs := rfl
@[simp] theorem State.restoreBad_setHub (f : Hub → Hub) : (s.setHub f).restoreBad = s.restoreBad := rfl
@[simp] theorem State.flying_setHub (f : Hub → Hub) : (s.setHub f).flying = s.flying := rfl
@[simp] theorem State.slow_setHub (f : Hub → Hub) : (s.setHub f).slow = s.slow := rfl
@[simp] theorem State.free_setHub (f : Hub → Hub) : (s.setHub f).free = s.free := rfl
@[simp] theorem State.did_setHub (f : Hub → Hub) : (s.setHub f).did = s.did := rfl
@[simp] theorem State.plan_setHub (f : Hub → Hub) : (s.setHub f).plan = s.plan := rfl
@[simp] theorem State.turn_setHub (f : Hub → Hub) : (s.setHub f).turn = s.turn := rfl

@[simp] theorem State.h_setRegion (n : Nat) (r : Option Region) : (s.setRegion n r).h = s.h := rfl
@[simp] theorem State.pool_setRegion (n : Nat) (r : Option Region) : (s.setRegion n r).pool = s.pool := rfl
@[simp] theorem State.gtb_setRegion (n : Nat) (r : Option Region) : (s.setRegion n r).gtb = s.gtb := rfl
@[simp] theorem State.mem_setRegion (n : Nat) (r : Option Region) : (s.setRegion n r).mem = s.mem := rfl
@[simp] theorem State.psn_setRegion (n : Nat) (r : Option Region) : (s.setRegion n r).psn = s.psn := rfl
@[simp] theorem State.ecc_setRegion (n : Nat) (r : Option Region) : (s.setRegion n r).ecc = s.ecc := rfl
@[simp] theorem State.keys_setRegion (n : Nat) (r : Option Region) : (s.setRegion n r).keys = s.keys := rfl
@[simp] theorem State.copied_setRegion (n : Nat) (r : Option Region) : (s.setRegion n r).copied = s.copied := rfl
@[simp] theorem State.rob_setRegion (n : Nat) (r : Option Region) : (s.setRegion n r).rob = s.rob := rfl
@[simp] theorem State.robBad_setRegion (n : Nat) (r : Option Region) : (s.setRegion n r).robBad = s.robBad := rfl
@[simp] theorem State.allot_setRegion (n : Nat) (r : Option Region) : (s.setRegion n r).allot = s.allot := rfl
@[simp] theorem State.tlb_setRegion (n : Nat) (r : Option Region) : (s.setRegion n r).tlb = s.tlb := rfl
@[simp] theorem State.tlbFill_setRegion (n : Nat) (r : Option Region) : (s.setRegion n r).tlbFill = s.tlbFill := rfl
@[simp] theorem State.tableRep_setRegion (n : Nat) (r : Option Region) : (s.setRegion n r).tableRep = s.tableRep := rfl
@[simp] theorem State.grdMarks_setRegion (n : Nat) (r : Option Region) : (s.setRegion n r).grdMarks = s.grdMarks := rfl
@[simp] theorem State.cores_setRegion (n : Nat) (r : Option Region) : (s.setRegion n r).cores = s.cores := rfl
@[simp] theorem State.tenants_setRegion (n : Nat) (r : Option Region) : (s.setRegion n r).tenants = s.tenants := rfl
@[simp] theorem State.engines_setRegion (n : Nat) (r : Option Region) : (s.setRegion n r).engines = s.engines := rfl
@[simp] theorem State.leaseQ_setRegion (n : Nat) (r : Option Region) : (s.setRegion n r).leaseQ = s.leaseQ := rfl
@[simp] theorem State.colls_setRegion (n : Nat) (r : Option Region) : (s.setRegion n r).colls = s.colls := rfl
@[simp] theorem State.objs_setRegion (n : Nat) (r : Option Region) : (s.setRegion n r).objs = s.objs := rfl
@[simp] theorem State.regions_setRegion (n : Nat) (r : Option Region) : (s.setRegion n r).regions = Tab.set none s.regions n r := rfl
@[simp] theorem State.ploughs_setRegion (n : Nat) (r : Option Region) : (s.setRegion n r).ploughs = s.ploughs := rfl
@[simp] theorem State.dies_setRegion (n : Nat) (r : Option Region) : (s.setRegion n r).dies = s.dies := rfl
@[simp] theorem State.hub_setRegion (n : Nat) (r : Option Region) : (s.setRegion n r).hub = s.hub := rfl
@[simp] theorem State.mcRing_setRegion (n : Nat) (r : Option Region) : (s.setRegion n r).mcRing = s.mcRing := rfl
@[simp] theorem State.hostRing_setRegion (n : Nat) (r : Option Region) : (s.setRegion n r).hostRing = s.hostRing := rfl
@[simp] theorem State.alog_setRegion (n : Nat) (r : Option Region) : (s.setRegion n r).alog = s.alog := rfl
@[simp] theorem State.held_setRegion (n : Nat) (r : Option Region) : (s.setRegion n r).held = s.held := rfl
@[simp] theorem State.parts_setRegion (n : Nat) (r : Option Region) : (s.setRegion n r).parts = s.parts := rfl
@[simp] theorem State.outbox_setRegion (n : Nat) (r : Option Region) : (s.setRegion n r).outbox = s.outbox := rfl
@[simp] theorem State.jobs_setRegion (n : Nat) (r : Option Region) : (s.setRegion n r).jobs = s.jobs := rfl
@[simp] theorem State.restoreBad_setRegion (n : Nat) (r : Option Region) : (s.setRegion n r).restoreBad = s.restoreBad := rfl
@[simp] theorem State.flying_setRegion (n : Nat) (r : Option Region) : (s.setRegion n r).flying = s.flying := rfl
@[simp] theorem State.slow_setRegion (n : Nat) (r : Option Region) : (s.setRegion n r).slow = s.slow := rfl
@[simp] theorem State.free_setRegion (n : Nat) (r : Option Region) : (s.setRegion n r).free = s.free := rfl
@[simp] theorem State.did_setRegion (n : Nat) (r : Option Region) : (s.setRegion n r).did = s.did := rfl
@[simp] theorem State.plan_setRegion (n : Nat) (r : Option Region) : (s.setRegion n r).plan = s.plan := rfl
@[simp] theorem State.turn_setRegion (n : Nat) (r : Option Region) : (s.setRegion n r).turn = s.turn := rfl

@[simp] theorem State.h_startWait (k : WaitKind) (d : BitVec 5) (n : Nat) : (s.startWait k d n).h = { s.h with iw := none, waitAt := s.gtb, wait := some { kind := k, dst := d.toNat, dead := n, issued := s.gtb, ans := none } } := rfl
@[simp] theorem State.pool_startWait (k : WaitKind) (d : BitVec 5) (n : Nat) : (s.startWait k d n).pool = s.pool := rfl
@[simp] theorem State.gtb_startWait (k : WaitKind) (d : BitVec 5) (n : Nat) : (s.startWait k d n).gtb = s.gtb := rfl
@[simp] theorem State.mem_startWait (k : WaitKind) (d : BitVec 5) (n : Nat) : (s.startWait k d n).mem = s.mem := rfl
@[simp] theorem State.psn_startWait (k : WaitKind) (d : BitVec 5) (n : Nat) : (s.startWait k d n).psn = s.psn := rfl
@[simp] theorem State.ecc_startWait (k : WaitKind) (d : BitVec 5) (n : Nat) : (s.startWait k d n).ecc = s.ecc := rfl
@[simp] theorem State.keys_startWait (k : WaitKind) (d : BitVec 5) (n : Nat) : (s.startWait k d n).keys = s.keys := rfl
@[simp] theorem State.copied_startWait (k : WaitKind) (d : BitVec 5) (n : Nat) : (s.startWait k d n).copied = s.copied := rfl
@[simp] theorem State.rob_startWait (k : WaitKind) (d : BitVec 5) (n : Nat) : (s.startWait k d n).rob = s.rob := rfl
@[simp] theorem State.robBad_startWait (k : WaitKind) (d : BitVec 5) (n : Nat) : (s.startWait k d n).robBad = s.robBad := rfl
@[simp] theorem State.allot_startWait (k : WaitKind) (d : BitVec 5) (n : Nat) : (s.startWait k d n).allot = s.allot := rfl
@[simp] theorem State.tlb_startWait (k : WaitKind) (d : BitVec 5) (n : Nat) : (s.startWait k d n).tlb = s.tlb := rfl
@[simp] theorem State.tlbFill_startWait (k : WaitKind) (d : BitVec 5) (n : Nat) : (s.startWait k d n).tlbFill = s.tlbFill := rfl
@[simp] theorem State.tableRep_startWait (k : WaitKind) (d : BitVec 5) (n : Nat) : (s.startWait k d n).tableRep = s.tableRep := rfl
@[simp] theorem State.grdMarks_startWait (k : WaitKind) (d : BitVec 5) (n : Nat) : (s.startWait k d n).grdMarks = s.grdMarks := rfl
@[simp] theorem State.cores_startWait (k : WaitKind) (d : BitVec 5) (n : Nat) : (s.startWait k d n).cores = s.cores := rfl
@[simp] theorem State.tenants_startWait (k : WaitKind) (d : BitVec 5) (n : Nat) : (s.startWait k d n).tenants = s.tenants := rfl
@[simp] theorem State.engines_startWait (k : WaitKind) (d : BitVec 5) (n : Nat) : (s.startWait k d n).engines = s.engines := rfl
@[simp] theorem State.leaseQ_startWait (k : WaitKind) (d : BitVec 5) (n : Nat) : (s.startWait k d n).leaseQ = s.leaseQ := rfl
@[simp] theorem State.colls_startWait (k : WaitKind) (d : BitVec 5) (n : Nat) : (s.startWait k d n).colls = s.colls := rfl
@[simp] theorem State.objs_startWait (k : WaitKind) (d : BitVec 5) (n : Nat) : (s.startWait k d n).objs = s.objs := rfl
@[simp] theorem State.regions_startWait (k : WaitKind) (d : BitVec 5) (n : Nat) : (s.startWait k d n).regions = s.regions := rfl
@[simp] theorem State.ploughs_startWait (k : WaitKind) (d : BitVec 5) (n : Nat) : (s.startWait k d n).ploughs = s.ploughs := rfl
@[simp] theorem State.dies_startWait (k : WaitKind) (d : BitVec 5) (n : Nat) : (s.startWait k d n).dies = s.dies := rfl
@[simp] theorem State.hub_startWait (k : WaitKind) (d : BitVec 5) (n : Nat) : (s.startWait k d n).hub = s.hub := rfl
@[simp] theorem State.mcRing_startWait (k : WaitKind) (d : BitVec 5) (n : Nat) : (s.startWait k d n).mcRing = s.mcRing := rfl
@[simp] theorem State.hostRing_startWait (k : WaitKind) (d : BitVec 5) (n : Nat) : (s.startWait k d n).hostRing = s.hostRing := rfl
@[simp] theorem State.alog_startWait (k : WaitKind) (d : BitVec 5) (n : Nat) : (s.startWait k d n).alog = s.alog := rfl
@[simp] theorem State.held_startWait (k : WaitKind) (d : BitVec 5) (n : Nat) : (s.startWait k d n).held = s.held := rfl
@[simp] theorem State.parts_startWait (k : WaitKind) (d : BitVec 5) (n : Nat) : (s.startWait k d n).parts = s.parts := rfl
@[simp] theorem State.outbox_startWait (k : WaitKind) (d : BitVec 5) (n : Nat) : (s.startWait k d n).outbox = s.outbox := rfl
@[simp] theorem State.jobs_startWait (k : WaitKind) (d : BitVec 5) (n : Nat) : (s.startWait k d n).jobs = s.jobs := rfl
@[simp] theorem State.restoreBad_startWait (k : WaitKind) (d : BitVec 5) (n : Nat) : (s.startWait k d n).restoreBad = s.restoreBad := rfl
@[simp] theorem State.flying_startWait (k : WaitKind) (d : BitVec 5) (n : Nat) : (s.startWait k d n).flying = s.flying := rfl
@[simp] theorem State.slow_startWait (k : WaitKind) (d : BitVec 5) (n : Nat) : (s.startWait k d n).slow = s.slow := rfl
@[simp] theorem State.free_startWait (k : WaitKind) (d : BitVec 5) (n : Nat) : (s.startWait k d n).free = s.free := rfl
@[simp] theorem State.did_startWait (k : WaitKind) (d : BitVec 5) (n : Nat) : (s.startWait k d n).did = .waits := rfl
@[simp] theorem State.plan_startWait (k : WaitKind) (d : BitVec 5) (n : Nat) : (s.startWait k d n).plan = s.plan := rfl
@[simp] theorem State.turn_startWait (k : WaitKind) (d : BitVec 5) (n : Nat) : (s.startWait k d n).turn = s.turn := rfl

@[simp] theorem State.h_store (a : Nat) (l : List Byte) (b : Bool) : (s.store a l b).h = s.h := rfl
@[simp] theorem State.pool_store (a : Nat) (l : List Byte) (b : Bool) : (s.store a l b).pool = s.pool := rfl
@[simp] theorem State.gtb_store (a : Nat) (l : List Byte) (b : Bool) : (s.store a l b).gtb = s.gtb := rfl
@[simp] theorem State.mem_store (a : Nat) (l : List Byte) (b : Bool) : (s.store a l b).mem = putBytes s.mem a l := rfl
@[simp] theorem State.psn_store (a : Nat) (l : List Byte) (b : Bool) : (s.store a l b).psn = marksAfter s.psn a l.length b := rfl
@[simp] theorem State.ecc_store (a : Nat) (l : List Byte) (b : Bool) : (s.store a l b).ecc = eccAfter s.ecc a l.length := rfl
@[simp] theorem State.keys_store (a : Nat) (l : List Byte) (b : Bool) : (s.store a l b).keys = s.keys := rfl
@[simp] theorem State.copied_store (a : Nat) (l : List Byte) (b : Bool) : (s.store a l b).copied = s.copied := rfl
@[simp] theorem State.rob_store (a : Nat) (l : List Byte) (b : Bool) : (s.store a l b).rob = s.rob := rfl
@[simp] theorem State.robBad_store (a : Nat) (l : List Byte) (b : Bool) : (s.store a l b).robBad = s.robBad := rfl
@[simp] theorem State.allot_store (a : Nat) (l : List Byte) (b : Bool) : (s.store a l b).allot = s.allot := rfl
@[simp] theorem State.tlb_store (a : Nat) (l : List Byte) (b : Bool) : (s.store a l b).tlb = s.tlb := rfl
@[simp] theorem State.tlbFill_store (a : Nat) (l : List Byte) (b : Bool) : (s.store a l b).tlbFill = s.tlbFill := rfl
@[simp] theorem State.tableRep_store (a : Nat) (l : List Byte) (b : Bool) : (s.store a l b).tableRep = repAfter s.tableRep a l.length b := rfl
@[simp] theorem State.grdMarks_store (a : Nat) (l : List Byte) (b : Bool) : (s.store a l b).grdMarks = s.grdMarks := rfl
@[simp] theorem State.cores_store (a : Nat) (l : List Byte) (b : Bool) : (s.store a l b).cores = s.cores := rfl
@[simp] theorem State.tenants_store (a : Nat) (l : List Byte) (b : Bool) : (s.store a l b).tenants = s.tenants := rfl
@[simp] theorem State.engines_store (a : Nat) (l : List Byte) (b : Bool) : (s.store a l b).engines = s.engines := rfl
@[simp] theorem State.leaseQ_store (a : Nat) (l : List Byte) (b : Bool) : (s.store a l b).leaseQ = s.leaseQ := rfl
@[simp] theorem State.colls_store (a : Nat) (l : List Byte) (b : Bool) : (s.store a l b).colls = s.colls := rfl
@[simp] theorem State.objs_store (a : Nat) (l : List Byte) (b : Bool) : (s.store a l b).objs = s.objs := rfl
@[simp] theorem State.regions_store (a : Nat) (l : List Byte) (b : Bool) : (s.store a l b).regions = s.regions := rfl
@[simp] theorem State.ploughs_store (a : Nat) (l : List Byte) (b : Bool) : (s.store a l b).ploughs = s.ploughs := rfl
@[simp] theorem State.dies_store (a : Nat) (l : List Byte) (b : Bool) : (s.store a l b).dies = s.dies := rfl
@[simp] theorem State.hub_store (a : Nat) (l : List Byte) (b : Bool) : (s.store a l b).hub = { s.hub with clean := cleanAfter s.hub.clean a } := rfl
@[simp] theorem State.mcRing_store (a : Nat) (l : List Byte) (b : Bool) : (s.store a l b).mcRing = s.mcRing := rfl
@[simp] theorem State.hostRing_store (a : Nat) (l : List Byte) (b : Bool) : (s.store a l b).hostRing = s.hostRing := rfl
@[simp] theorem State.alog_store (a : Nat) (l : List Byte) (b : Bool) : (s.store a l b).alog = s.alog := rfl
@[simp] theorem State.held_store (a : Nat) (l : List Byte) (b : Bool) : (s.store a l b).held = s.held := rfl
@[simp] theorem State.parts_store (a : Nat) (l : List Byte) (b : Bool) : (s.store a l b).parts = s.parts := rfl
@[simp] theorem State.outbox_store (a : Nat) (l : List Byte) (b : Bool) : (s.store a l b).outbox = s.outbox := rfl
@[simp] theorem State.jobs_store (a : Nat) (l : List Byte) (b : Bool) : (s.store a l b).jobs = s.jobs := rfl
@[simp] theorem State.restoreBad_store (a : Nat) (l : List Byte) (b : Bool) : (s.store a l b).restoreBad = s.restoreBad := rfl
@[simp] theorem State.flying_store (a : Nat) (l : List Byte) (b : Bool) : (s.store a l b).flying = s.flying := rfl
@[simp] theorem State.slow_store (a : Nat) (l : List Byte) (b : Bool) : (s.store a l b).slow = s.slow := rfl
@[simp] theorem State.free_store (a : Nat) (l : List Byte) (b : Bool) : (s.store a l b).free = s.free := rfl
@[simp] theorem State.did_store (a : Nat) (l : List Byte) (b : Bool) : (s.store a l b).did = s.did := rfl
@[simp] theorem State.plan_store (a : Nat) (l : List Byte) (b : Bool) : (s.store a l b).plan = s.plan := rfl
@[simp] theorem State.turn_store (a : Nat) (l : List Byte) (b : Bool) : (s.store a l b).turn = s.turn := rfl

end Sys2Proof.Machine
end

