-- ==== Sys2Proof/Laws/Tab.lean ====
section
/-! SUPPORT. The laws of sparse tables: what a read gives after a write, and that every write keeps the canonical form. -/

namespace Sys2Proof

theorem Tab.find_erase_self {α : Type} (t : Tab α) (k : Nat) : Tab.find (Tab.erase t k) k = none := by
  induction t with
  | nil => rfl
  | cons e r ih =>
    obtain ⟨k', v⟩ := e
    simp only [Tab.erase]
    split
    · exact ih
    · rename_i h; simp [Tab.find, h, ih]

theorem Tab.find_erase_other {α : Type} (t : Tab α) (k j : Nat) (h : j ≠ k) :
    Tab.find (Tab.erase t k) j = Tab.find t j := by
  induction t with
  | nil => rfl
  | cons e r ih =>
    obtain ⟨k', v⟩ := e
    simp only [Tab.erase, Tab.find]
    split
    · rename_i hk; subst hk; simp [Ne.symm h, ih]
    · simp only [Tab.find, ih]

theorem Tab.find_insert_self {α : Type} (t : Tab α) (k : Nat) (v : α) (h : Tab.find t k = none) :
    Tab.find (Tab.insert t k v) k = some v := by
  induction t with
  | nil => simp [Tab.insert, Tab.find]
  | cons e r ih =>
    obtain ⟨k', v'⟩ := e
    simp only [Tab.find] at h
    split at h
    · simp at h
    · rename_i hk
      simp only [Tab.insert]
      split <;> simp [Tab.find, hk, ih h]

theorem Tab.find_insert_other {α : Type} (t : Tab α) (k j : Nat) (v : α) (h : j ≠ k) :
    Tab.find (Tab.insert t k v) j = Tab.find t j := by
  induction t with
  | nil => simp [Tab.insert, Tab.find, Ne.symm h]
  | cons e r ih =>
    obtain ⟨k', v'⟩ := e
    simp only [Tab.insert]
    split <;> simp [Tab.find, Ne.symm h, ih]

/-- A read of the key written gives the value written. -/
@[simp] theorem Tab.get_set_self {α : Type} [DecidableEq α] (d : α) (t : Tab α) (k : Nat) (v : α) :
    Tab.get d (Tab.set d t k v) k = v := by
  unfold Tab.get Tab.set
  split
  · rename_i h; subst h; simp [Tab.find_erase_self]
  · simp [Tab.find_insert_self _ _ _ (Tab.find_erase_self t k)]

/-- A write leaves every other key alone. -/
theorem Tab.get_set_other {α : Type} [DecidableEq α] (d : α) (t : Tab α) (k j : Nat) (v : α) (h : j ≠ k) :
    Tab.get d (Tab.set d t k v) j = Tab.get d t j := by
  unfold Tab.get Tab.set
  split
  · rw [Tab.find_erase_other _ _ _ h]
  · rw [Tab.find_insert_other _ _ _ _ h, Tab.find_erase_other _ _ _ h]

theorem Tab.get_set {α : Type} [DecidableEq α] (d : α) (t : Tab α) (k j : Nat) (v : α) :
    Tab.get d (Tab.set d t k v) j = if j = k then v else Tab.get d t j := by
  split
  · rename_i h; subst h; simp
  · rename_i h; exact Tab.get_set_other d t k j v h

theorem Tab.above_mono {α : Type} [DecidableEq α] (d : α) (t : Tab α) (j k : Nat) (hjk : j < k)
    (h : Tab.above k t = true) : Tab.above j t = true := by
  cases t with
  | nil => rfl
  | cons e r => simp only [Tab.above, decide_eq_true_eq] at *; omega

theorem Tab.above_erase {α : Type} [DecidableEq α] (d : α) (t : Tab α) (j k : Nat)
    (hw : Tab.wf d t = true) (h : Tab.above j t = true) : Tab.above j (Tab.erase t k) = true := by
  induction t with
  | nil => rfl
  | cons e r ih =>
    obtain ⟨k', v⟩ := e
    simp only [Tab.wf, Bool.and_eq_true] at hw
    simp only [Tab.erase]
    split
    · apply ih hw.2
      simp only [Tab.above, decide_eq_true_eq] at h
      exact Tab.above_mono d r j k' h hw.1.2
    · exact h

theorem Tab.wf_erase {α : Type} [DecidableEq α] (d : α) (t : Tab α) (k : Nat) (h : Tab.wf d t = true) :
    Tab.wf d (Tab.erase t k) = true := by
  induction t with
  | nil => rfl
  | cons e r ih =>
    obtain ⟨k', v⟩ := e
    have hw := h
    simp only [Tab.wf, Bool.and_eq_true] at hw
    simp only [Tab.erase]
    split
    · exact ih hw.2
    · simp only [Tab.wf, Bool.and_eq_true]
      exact ⟨⟨hw.1.1, Tab.above_erase d r k' k hw.2 hw.1.2⟩, ih hw.2⟩

theorem Tab.above_insert {α : Type} (t : Tab α) (j k : Nat) (v : α) (hj : j < k) (h : Tab.above j t = true) :
    Tab.above j (Tab.insert t k v) = true := by
  cases t with
  | nil => simpa [Tab.insert, Tab.above] using hj
  | cons e r =>
    simp only [Tab.insert]
    split
    · simpa [Tab.above] using hj
    · exact h

theorem Tab.wf_insert {α : Type} [DecidableEq α] (d : α) (t : Tab α) (k : Nat) (v : α) (hv : v ≠ d)
    (hn : Tab.find t k = none) (h : Tab.wf d t = true) : Tab.wf d (Tab.insert t k v) = true := by
  induction t with
  | nil => simp [Tab.insert, Tab.wf, Tab.above, hv]
  | cons e r ih =>
    obtain ⟨k', v'⟩ := e
    have hw := h
    simp only [Tab.wf, Bool.and_eq_true] at hw
    simp only [Tab.find] at hn
    split at hn
    · simp at hn
    · rename_i hk
      simp only [Tab.insert]
      split
      · rename_i hlt
        rw [Tab.wf]; simp [hv, Tab.above, hlt, h]
      · simp only [Tab.wf, Bool.and_eq_true]
        exact ⟨⟨hw.1.1, Tab.above_insert r k' k v (by omega) hw.1.2⟩, ih hn hw.2⟩

/-- Every write keeps the canonical form. -/
theorem Tab.wf_set {α : Type} [DecidableEq α] (d : α) (t : Tab α) (k : Nat) (v : α) (h : Tab.wf d t = true) :
    Tab.wf d (Tab.set d t k v) = true := by
  unfold Tab.set
  split
  · exact Tab.wf_erase d t k h
  · rename_i hv
    exact Tab.wf_insert d _ k v hv (Tab.find_erase_self t k) (Tab.wf_erase d t k h)

@[simp] theorem Tab.get_nil {α : Type} (d : α) (k : Nat) : Tab.get d ([] : Tab α) k = d := rfl

end Sys2Proof
end

