-- ==== Sys2Proof/Laws/Mem.lean ====
section
/-! SUPPORT. The laws of memory: what a read gives after a write, and that every operation on memory keeps its one form. -/

namespace Sys2Proof

/-- Every key above a bound stays above it when entries go. -/
theorem Tab.above_filter {α : Type} [DecidableEq α] (d : α) (t : Tab α) (p : Nat × α → Bool) (k : Nat) (hw : Tab.wf d t = true)
    (h : Tab.above k t = true) : Tab.above k (t.filter p) = true := by
  induction t with
  | nil => rfl
  | cons e r ih =>
    obtain ⟨j, v⟩ := e
    simp only [Tab.wf, Bool.and_eq_true] at hw
    simp only [Tab.above, decide_eq_true_eq] at h
    rw [List.filter_cons]
    split
    · simpa [Tab.above] using h
    · exact ih hw.2 (Tab.above_mono d r k j h hw.1.2)

/-- Taking entries out keeps the canonical form. -/
theorem Tab.wf_filter {α : Type} [DecidableEq α] (d : α) (t : Tab α) (p : Nat × α → Bool) (hw : Tab.wf d t = true) :
    Tab.wf d (t.filter p) = true := by
  induction t with
  | nil => rfl
  | cons e r ih =>
    obtain ⟨j, v⟩ := e
    have h := hw
    simp only [Tab.wf, Bool.and_eq_true] at h
    rw [List.filter_cons]
    split
    · simp only [Tab.wf, Bool.and_eq_true]
      exact ⟨⟨h.1.1, Tab.above_filter d r p j h.2 h.1.2⟩, ih h.2⟩
    · exact ih h.2

/-- A table without some of its keys: the others read as they did, and those read as unlisted. -/
theorem Tab.get_filter {α : Type} (d : α) (t : Tab α) (p : Nat → Bool) (k : Nat) :
    Tab.get d (t.filter (fun e => p e.1)) k = if p k then Tab.get d t k else d := by
  unfold Tab.get
  induction t with
  | nil => simp [Tab.find]
  | cons e r ih =>
    obtain ⟨j, v⟩ := e
    rw [List.filter_cons]
    by_cases hj : j = k
    · subst hj
      by_cases hp : p j = true
      · simp [hp, Tab.find]
      · simp only [Bool.not_eq_true] at hp
        simp only [hp, Bool.false_eq_true, if_false] at ih ⊢
        exact ih
    · by_cases hp : p j = true
      · simp only [hp, if_true, Tab.find, hj, if_false]
        exact ih
      · simp only [Bool.not_eq_true] at hp
        simp only [hp, Bool.false_eq_true, if_false, Tab.find, hj]
        exact ih

namespace Machine

/-- A byte of memory after a run of bytes was written: the run's own byte, or what was there. -/
theorem get_putBytes (m : Tab Byte) (a : Nat) (l : List Byte) (x : Nat) :
    Tab.get 0 (putBytes m a l) x = if a ≤ x ∧ x < a + l.length then l.getD (x - a) 0 else Tab.get 0 m x := by
  induction l generalizing m a with
  | nil => rw [if_neg (by simp only [List.length_nil]; omega)]; rfl
  | cons b r ih =>
    rw [putBytes, ih, Tab.get_set]
    by_cases h1 : x = a
    · subst h1
      rw [if_neg (by omega), if_pos rfl, if_pos ⟨Nat.le_refl _, by simp⟩, Nat.sub_self]; rfl
    · by_cases h2 : a + 1 ≤ x ∧ x < a + 1 + r.length
      · rw [if_pos h2, if_pos (by simp; omega), show x - a = (x - (a + 1)) + 1 by omega]
        simp
      · rw [if_neg h2, if_neg h1, if_neg (by simp; omega)]

/-- A byte after a write at its home. -/
theorem byteAt_store (s : State) (a : Nat) (l : List Byte) (b : Bool) (x : Nat) :
    (s.store a l b).byteAt x = if a ≤ x ∧ x < a + l.length then l.getD (x - a) 0 else s.byteAt x := get_putBytes s.mem a l x

/-- A write leaves every byte outside its run alone. -/
theorem byteAt_store_other (s : State) (a : Nat) (l : List Byte) (b : Bool) (x : Nat) (h : x < a ∨ a + l.length ≤ x) :
    (s.store a l b).byteAt x = s.byteAt x := by
  rw [byteAt_store, if_neg (by omega)]

/-- The bytes of a run are read back. -/
theorem bytesAt_store (s : State) (a : Nat) (l : List Byte) (b : Bool) : (s.store a l b).bytesAt a l.length = l := by
  suffices h : ∀ (t : State) (r : List Byte) (k : Nat), (∀ i < r.length, t.byteAt (k + i) = r.getD i 0) → t.bytesAt k r.length = r by
    apply h
    intro i hi
    rw [byteAt_store, if_pos (by omega), Nat.add_sub_cancel_left]
  intro t r
  induction r with
  | nil => intro _ _; rfl
  | cons b r ih =>
    intro k hk
    have h0 := hk 0 (by simp)
    simp only [Nat.add_zero, List.getD_cons_zero] at h0
    rw [List.length_cons, State.bytesAt, h0, ih]
    intro i hi
    have h1 := hk (i + 1) (by simpa using hi)
    simpa [Nat.add_assoc, Nat.add_comm 1 i] using h1

/-- The number of a run of little-endian bytes. -/
theorem leNat_leBytes (n v : Nat) : leNat (leBytes n v) = v % 256 ^ n := by
  induction n generalizing v with
  | zero => simp [leBytes, leNat, Nat.mod_one]
  | succ n ih =>
    simp only [leBytes, leNat, ih, BitVec.toNat_ofNat]
    rw [show 256 ^ (n + 1) = 256 * 256 ^ n by rw [Nat.pow_succ, Nat.mul_comm], Nat.mod_mul]

@[simp] theorem length_leBytes (n v : Nat) : (leBytes n v).length = n := by
  induction n generalizing v with
  | zero => rfl
  | succ n ih => simp [leBytes, ih]

/-- A number stored is read back. -/
theorem numAt_store (s : State) (a n v : Nat) (b : Bool) : (s.store a (leBytes n v) b).numAt a n = v % 256 ^ n := by
  have h := bytesAt_store s a (leBytes n v) b
  rw [length_leBytes] at h
  rw [State.numAt, h, leNat_leBytes]

/-! The one form -/

theorem wf_putBytes (m : Tab Byte) (a : Nat) (l : List Byte) (h : Tab.wf 0 m = true) : Tab.wf 0 (putBytes m a l) = true := by
  induction l generalizing m a with
  | nil => exact h
  | cons b r ih => exact ih _ _ (Tab.wf_set 0 m a b h)

theorem wf_putMarks (p : Tab Bool) (b : Bool) (l : List Nat) (h : Tab.wf false p = true) : Tab.wf false (putMarks p b l) = true := by
  unfold putMarks
  induction l generalizing p with
  | nil => exact h
  | cons u r ih => exact ih _ (Tab.wf_set false p u b h)

theorem wf_marksAfter (p : Tab Bool) (a n : Nat) (b : Bool) (h : Tab.wf false p = true) : Tab.wf false (marksAfter p a n b) = true := by
  unfold marksAfter
  split <;> exact wf_putMarks _ _ _ h

/-- The one form says this of bytes and of marks. -/
theorem State.memWf_iff (s : State) : s.memWf = true ↔ Tab.wf 0 s.mem = true ∧ Tab.wf false s.psn = true := by
  simp [State.memWf]

/-- The form depends on bytes and marks alone. -/
theorem State.memWf_of_eq {s t : State} (h : s.memWf = true) (hm : t.mem = s.mem) (hp : t.psn = s.psn) : t.memWf = true := by
  simpa [State.memWf, hm, hp] using h

@[simp] theorem memWf_setH (s : State) (f : Hart → Hart) : (s.setH f).memWf = s.memWf := rfl
@[simp] theorem memWf_updHart (s : State) (n : Nat) (f : Hart → Hart) : (s.updHart n f).memWf = s.memWf := rfl
@[simp] theorem memWf_setTenant (s : State) (n : Nat) (f : Tenant → Tenant) : (s.setTenant n f).memWf = s.memWf := rfl
@[simp] theorem memWf_setCore (s : State) (n : Nat) (f : Core → Core) : (s.setCore n f).memWf = s.memWf := rfl
@[simp] theorem memWf_setDie (s : State) (n : Nat) (f : Die → Die) : (s.setDie n f).memWf = s.memWf := rfl
@[simp] theorem memWf_setEngine (s : State) (n : Nat) (f : Engine → Engine) : (s.setEngine n f).memWf = s.memWf := rfl
@[simp] theorem memWf_setPlough (s : State) (n : Nat) (f : Plough → Plough) : (s.setPlough n f).memWf = s.memWf := rfl
@[simp] theorem memWf_setHub (s : State) (f : Hub → Hub) : (s.setHub f).memWf = s.memWf := rfl
@[simp] theorem memWf_setRegion (s : State) (n : Nat) (r : Option Region) : (s.setRegion n r).memWf = s.memWf := rfl
@[simp] theorem memWf_retire (s : State) (d : BitVec 5) (v : Word) : (s.retire d v).memWf = s.memWf := rfl
@[simp] theorem memWf_retireX (s : State) (d : BitVec 5) (v : Word) : (s.retireX d v).memWf = s.memWf := rfl
@[simp] theorem memWf_retire0 (s : State) : s.retire0.memWf = s.memWf := rfl
@[simp] theorem memWf_goto (s : State) (a : Word) (x : Did) : (s.goto a x).memWf = s.memWf := rfl
@[simp] theorem memWf_startWait (s : State) (k : WaitKind) (d : BitVec 5) (n : Nat) : (s.startWait k d n).memWf = s.memWf := rfl
@[simp] theorem memWf_idle (s : State) : s.idle.memWf = s.memWf := rfl

/-- A write at its home keeps the form. -/
theorem memWf_store (s : State) (a : Nat) (l : List Byte) (b : Bool) (h : s.memWf = true) : (s.store a l b).memWf = true := by
  rw [State.memWf_iff] at *
  exact ⟨wf_putBytes _ _ _ h.1, wf_marksAfter _ _ _ _ h.2⟩

theorem memWf_store64 (s : State) (a v : Nat) (h : s.memWf = true) : (s.store64 a v).memWf = true := memWf_store s _ _ _ h

/-- A counter leaves memory alone. -/
@[simp] theorem State.mem_count (s : State) (t i n : Nat) : (s.count t i n).mem = s.mem := by unfold State.count; split <;> rfl
@[simp] theorem State.psn_count (s : State) (t i n : Nat) : (s.count t i n).psn = s.psn := by unfold State.count; split <;> rfl

theorem memWf_count (s : State) (t i n : Nat) (h : s.memWf = true) : (s.count t i n).memWf = true :=
  State.memWf_of_eq h (s.mem_count t i n) (s.psn_count t i n)

/-- A host event and a machine-check record leave memory alone. -/
@[simp] theorem State.mem_hostPost (s : State) (a b : Nat) (l : List Byte) : (s.hostPost a b l).mem = s.mem := by
  unfold State.hostPost; simp only []; split <;> rfl
@[simp] theorem State.psn_hostPost (s : State) (a b : Nat) (l : List Byte) : (s.hostPost a b l).psn = s.psn := by
  unfold State.hostPost; simp only []; split <;> rfl
theorem memWf_hostPost (s : State) (a b : Nat) (l : List Byte) (h : s.memWf = true) : (s.hostPost a b l).memWf = true :=
  State.memWf_of_eq h (s.mem_hostPost a b l) (s.psn_hostPost a b l)

/-! Keys -/

/-- A sector put under a key keeps the form. -/
theorem memWf_rekey (s : State) (t u : Nat) (h : s.memWf = true) : (s.rekey t u).memWf = true := by
  rw [State.memWf_iff] at *
  refine ⟨?_, h.2⟩
  show Tab.wf 0 (if s.foreignAt t u then _ else s.mem) = true
  split
  · exact wf_putBytes _ _ _ h.1
  · exact h.1

/-- The sectors that a write touches, put under its key, keep the form. -/
theorem memWf_keyed (s : State) (t a n : Nat) (h : s.memWf = true) : (s.keyed t a n).memWf = true := by
  unfold State.keyed
  split
  · generalize unitsOf a n = l
    induction l generalizing s with
    | nil => exact h
    | cons u r ih => exact ih _ (memWf_rekey s t u h)
  · exact h

/-- A sector put under a key leaves every other sector's bytes alone. -/
theorem byteAt_rekey (s : State) (t u x : Nat) (h : x < u ∨ u + 32 ≤ x) : (s.rekey t u).byteAt x = s.byteAt x := by
  show Tab.get 0 (if s.foreignAt t u then putBytes s.mem u ((List.range 32).map (fun i => s.plainByte t (u + i))) else s.mem) x = _
  split
  · rw [get_putBytes, if_neg (by simp only [List.length_map, List.length_range]; omega)]; rfl
  · rfl

/-- The sectors that a write touches, put under its key, leave the bytes of every other sector alone. -/
theorem byteAt_keyed (s : State) (t a n x : Nat) (h : ∀ u ∈ unitsOf a n, x < u ∨ u + 32 ≤ x) : (s.keyed t a n).byteAt x = s.byteAt x := by
  unfold State.keyed
  split
  · revert h
    generalize unitsOf a n = l
    induction l generalizing s with
    | nil => exact fun _ => rfl
    | cons u r ih =>
      intro h
      exact (ih (s.rekey t u) (fun v hv => h v (List.mem_cons_of_mem u hv))).trans (byteAt_rekey s t u x (h u List.mem_cons_self))
  · rfl

/-- A write of the device keeps the form. -/
theorem memWf_storeDev (s : State) (a : Nat) (l : List Byte) (h : s.memWf = true) : (s.storeDev a l).memWf = true :=
  memWf_store _ _ _ _ (memWf_keyed s 0 a l.length h)

/-! Machine-check records -/

/-- A record is 64 bytes. -/
theorem length_record (k d t h u : Nat) (w : Word) (n m : Nat) :
    ((mcWords k d t h u w n m).flatMap (fun w => leBytes 8 w.toNat)).length = 64 := by
  simp [mcWords]

/-- The sectors of a record of the ring are two, and lie in the ring. -/
theorem unitsOf_mcAt (i : Nat) : unitsOf (mcAt i) 64 = [mcAt i, mcAt i + 32] := by
  obtain ⟨k, hk, hm⟩ : ∃ k, mcAt i = 64 * k ∧ 64 * k + 64 ≤ 2 ^ 40 := by
    refine ⟨_, rfl, ?_⟩
    have h1 := Nat.mod_lt Config.mcPlace (show 0 < 2 ^ 34 - 4096 by decide)
    have h2 := Nat.mod_lt i (show 0 < 4096 by decide)
    generalize Config.mcPlace % (2 ^ 34 - 4096) = p at *
    generalize i % 4096 = q at *
    omega
  have main : ∀ y, y < 2 ^ 40 → unitSize y = 32 := by
    intro y hy
    rw [unitSize, if_pos]
    simp only [isMain, decide_eq_true_eq]
    omega
  rw [hk]
  unfold unitsOf unitOf
  rw [main _ (by omega), main _ (by omega), if_neg (by decide), show (64 * k + 64 - 1) / 32 * 32 = 64 * k + 32 by omega,
    show 64 * k / 32 * 32 = 64 * k by omega, show (64 * k + 32 - 64 * k) / 32 + 1 = 2 by omega]
  rfl

/-- A location outside the ring is in none of its records. -/
theorem outside_mcAt (i x : Nat) (h : inMcRing x = false) : x < mcAt i ∨ mcAt i + 64 ≤ x := by
  unfold inMcRing mcAt at h
  unfold mcAt
  have h2 := Nat.mod_lt i (show 0 < 4096 by decide)
  generalize Config.mcPlace % (2 ^ 34 - 4096) = p at *
  rw [Bool.and_eq_false_iff, decide_eq_false_iff_not, decide_eq_false_iff_not] at h
  omega

/-- A record put into the ring writes no byte outside it, and keeps the form. -/
theorem putRecord_keeps (s : State) (r : List Word) (hr : (r.flatMap (fun w => leBytes 8 w.toNat)).length = 64) :
    (∀ x, inMcRing x = false → (s.putRecord r).byteAt x = s.byteAt x) ∧ (s.memWf = true → (s.putRecord r).memWf = true) := by
  refine ⟨fun x hx => ?_, fun h => memWf_storeDev s _ _ h⟩
  show (s.storeDev _ _).byteAt x = _
  have ho := outside_mcAt s.hub.mchead x hx
  rw [State.storeDev, byteAt_store_other _ _ _ _ _ (by rw [hr]; exact ho), byteAt_keyed]
  rw [hr, unitsOf_mcAt]
  intro u hu
  simp only [List.mem_cons, List.not_mem_nil, or_false] at hu
  omega

/-- A record written, dropped or posted: nothing but the ring is written, and the form is kept. -/
theorem recorded_keeps (s : State) (p : Prop) [Decidable p] (c : Nat) (r : List Word) (g : Hub → Hub)
    (hr : (r.flatMap (fun w => leBytes 8 w.toNat)).length = 64) :
    let s1 := if p then s.putRecord r else s.setHub g
    let t := if bit s1.hub.split 3 then s1.hostPost 2 c (r.flatMap (fun w => leBytes 8 w.toNat)) else s1
    (∀ x, inMcRing x = false → t.byteAt x = s.byteAt x) ∧ (s.memWf = true → t.memWf = true) := by
  intro s1 t
  have h1 : (∀ x, inMcRing x = false → s1.byteAt x = s.byteAt x) ∧ (s.memWf = true → s1.memWf = true) := by
    show (∀ x, inMcRing x = false → (if p then s.putRecord r else s.setHub g).byteAt x = s.byteAt x) ∧
      (s.memWf = true → (if p then s.putRecord r else s.setHub g).memWf = true)
    split
    · exact putRecord_keeps s r hr
    · exact ⟨fun _ _ => rfl, id⟩
  unfold t
  generalize s1 = u at *
  split
  · exact ⟨fun x hx => (congrArg (Tab.get 0 · x) (u.mem_hostPost _ _ _)).trans (h1.1 x hx), fun h => memWf_hostPost _ _ _ _ (h1.2 h)⟩
  · exact h1

theorem mcheck_keeps (s : State) (a b c d e : Nat) (w : Word) (f : Nat) :
    (∀ x, inMcRing x = false → (s.mcheck a b c d e w f).byteAt x = s.byteAt x) ∧
      (s.memWf = true → (s.mcheck a b c d e w f).memWf = true) :=
  recorded_keeps s _ c (mcWords a b c d e w s.gtb f) (fun h => { h with mcdrop := satInc h.mcdrop 32 }) (length_record ..)

/-- A machine-check record writes no byte outside its ring. -/
theorem byteAt_mcheck (s : State) (a b c d e : Nat) (w : Word) (f x : Nat) (h : inMcRing x = false) :
    (s.mcheck a b c d e w f).byteAt x = s.byteAt x := (mcheck_keeps s a b c d e w f).1 x h

theorem memWf_mcheck (s : State) (a b c d e : Nat) (w : Word) (f : Nat) (h : s.memWf = true) :
    (s.mcheck a b c d e w f).memWf = true := (mcheck_keeps s a b c d e w f).2 h

theorem memWf_mcheckMem (s : State) (k t h a : Nat) (hw : s.memWf = true) : (s.mcheckMem k t h a).memWf = true := memWf_mcheck _ _ _ _ _ _ _ _ hw

theorem memWf_mcheckUnit (s : State) (t h u : Nat) (hw : s.memWf = true) : (s.mcheckUnit t h u).memWf = true := by
  unfold State.mcheckUnit
  split
  · exact memWf_mcheckMem _ _ _ _ _ hw
  · split <;> exact memWf_mcheck _ _ _ _ _ _ _ _ hw

theorem byteAt_mcheckUnit (s : State) (t h u x : Nat) (hx : inMcRing x = false) : (s.mcheckUnit t h u).byteAt x = s.byteAt x := by
  unfold State.mcheckUnit
  split
  · exact byteAt_mcheck _ _ _ _ _ _ _ _ _ hx
  · split <;> exact byteAt_mcheck _ _ _ _ _ _ _ _ _ hx

/-- The check of a read at a unit writes no byte outside the ring. -/
theorem byteAt_checkUnit (s : State) (t h u x : Nat) (hx : inMcRing x = false) : (s.checkUnit t h u).byteAt x = s.byteAt x := by
  unfold State.checkUnit
  split
  · rfl
  · rfl
  · simp only []
    split
    · rfl
    · exact byteAt_mcheckUnit _ _ _ _ _ hx

theorem memWf_checkUnit (s : State) (t h u : Nat) (hw : s.memWf = true) : (s.checkUnit t h u).memWf = true := by
  unfold State.checkUnit
  split
  · exact hw
  · exact State.memWf_of_eq hw rfl rfl
  · simp only []
    split
    · exact State.memWf_of_eq hw rfl rfl
    · refine memWf_mcheckUnit _ t h u ?_
      rw [State.memWf_iff] at *
      exact ⟨hw.1, wf_putMarks _ _ _ hw.2⟩

theorem memWf_checkRead (s : State) (t h a n : Nat) (hw : s.memWf = true) : (s.checkRead t h a n).memWf = true := by
  unfold State.checkRead
  split
  · exact hw
  · suffices hl : ∀ (l : List Nat) (z : State), z.memWf = true → (l.foldl (fun q u => q.checkUnit t h u) z).memWf = true from hl _ _ hw
    intro l
    induction l with
    | nil => exact fun _ hz => hz
    | cons u r ih => exact fun z hz => ih _ (memWf_checkUnit z t h u hz)

/-- The dirty-page log keeps the form. -/
theorem memWf_logDirty (s : State) (a : Nat) (h : s.memWf = true) : (s.logDirty a).memWf = true := by
  unfold State.logDirty
  split
  · exact h
  · simp only []
    split
    · exact h
    · have h0 := memWf_checkRead s 0 noHart ((s.tenant (robTag (s.robAt a))).dbmp.toNat + a / 65536 / 8) 1 h
      split
      · exact h0
      · split
        · exact memWf_storeDev _ _ _ (memWf_storeDev _ _ _ h0)
        · exact memWf_storeDev _ _ _ (memWf_checkRead _ _ _ _ _ (memWf_storeDev _ _ _ h0))

theorem memWf_countMem (s : State) (t a n : Nat) (h : s.memWf = true) : (s.countMem t a n).memWf = true := by
  unfold State.countMem
  generalize 2 ^ 40 = k
  by_cases h1 : a < k
  · rw [if_pos h1]; exact memWf_count _ _ _ _ h
  · rw [if_neg h1]
    by_cases h2 : isMain a = true
    · rw [if_pos h2]; exact memWf_count _ _ _ _ h
    · rw [if_neg h2]
      by_cases h3 : isComb a = true
      · rw [if_pos h3]; exact memWf_count _ _ _ _ h
      · rw [if_neg h3]; exact h

theorem mem_countMem (s : State) (t a n : Nat) : (s.countMem t a n).mem = s.mem := by
  unfold State.countMem
  generalize 2 ^ 40 = k
  by_cases h1 : a < k
  · rw [if_pos h1, State.mem_count]
  · rw [if_neg h1]
    by_cases h2 : isMain a = true
    · rw [if_pos h2, State.mem_count]
    · rw [if_neg h2]
      by_cases h3 : isComb a = true
      · rw [if_pos h3, State.mem_count]
      · rw [if_neg h3]

/-- An object's record put into its slot keeps the form. -/
theorem memWf_setObj (s : State) (n : Nat) (o : Obj) (h : s.memWf = true) : (s.setObj n o).memWf = true := by
  unfold State.setObj
  generalize unitsOf (locComb n) 256 = l
  rw [State.memWf_iff] at *
  exact ⟨wf_putBytes _ _ _ h.1, wf_putMarks _ _ _ h.2⟩

/-- The lines noted for a plough are no bytes of memory. -/
@[simp] theorem memWf_noteCopy (s : State) (a : Nat) : (s.noteCopy a).memWf = s.memWf := rfl

theorem memWf_perform (s : State) (t i a : Nat) (l : List Byte) (b : Bool) (h : s.memWf = true) : (s.perform t i a l b).memWf = true := by
  unfold State.perform
  split
  · exact memWf_mcheckMem _ _ _ _ _ h
  · exact memWf_store _ _ _ _ (memWf_keyed _ _ _ _ (memWf_logDirty s a h))

/-- A write and a read by a requester keep the form. -/
theorem memWf_write (s : State) (t i a : Nat) (l : List Byte) (b : Bool) (h : s.memWf = true) : (s.write t i a l b).memWf = true := by
  unfold State.write
  split
  · exact memWf_perform _ _ _ _ _ _ h
  · exact memWf_countMem _ _ _ _ (memWf_perform _ _ _ _ _ _ h)

theorem memWf_free (s : State) (n : Nat) (h : s.memWf = true) : ({ s with free := n } : State).memWf = true := h

theorem memWf_read (s : State) (t i a n : Nat) (h : s.memWf = true) : (s.read t i a n).1.memWf = true := by
  unfold State.read
  by_cases hk : (isMain a && !s.hasKey t) = true
  · rw [if_pos hk]
    exact memWf_free _ _ (memWf_mcheckMem _ _ _ _ _ h)
  · rw [if_neg hk]
    exact memWf_countMem _ _ _ _ (memWf_checkRead _ _ _ _ _ h)

/-- A trace record keeps the form. -/
theorem memWf_trace (s : State) (a b c d e : Nat) (p v : Word) (h : s.memWf = true) : (s.trace a b c d e p v).memWf = true := by
  unfold State.trace
  split
  · exact h
  · split
    · exact h
    · simp only []
      split
      · exact memWf_store64 _ _ _ h
      · exact memWf_store64 _ _ _ (memWf_store _ _ _ _ h)

theorem memWf_traceHart (s : State) (k : Hart) (a b : Nat) (p v : Word) (h : s.memWf = true) : (s.traceHart k a b p v).memWf = true :=
  memWf_trace s _ _ _ _ _ _ _ h

/-- Poison put over marked units, and a range that is zeroed or freed, keep the form. -/
theorem memWf_marked (s : State) (b : Bool) (l : List Nat) (h : s.memWf = true) :
    ({ s with psn := putMarks s.psn b l } : State).memWf = true := by
  rw [State.memWf_iff] at *
  exact ⟨h.1, wf_putMarks _ _ _ h.2⟩

theorem memWf_filter (s : State) (p : Nat × Byte → Bool) (q : Nat × Bool → Bool) (h : s.memWf = true) :
    ({ s with mem := s.mem.filter p, psn := s.psn.filter q } : State).memWf = true := by
  rw [State.memWf_iff] at *
  exact ⟨Tab.wf_filter _ _ _ h.1, Tab.wf_filter _ _ _ h.2⟩

/-- A range moved to another keeps the form. -/
theorem wf_moveTab {α : Type} [DecidableEq α] (d : α) (t : Tab α) (src dst n : Nat) (h : Tab.wf d t = true) :
    Tab.wf d (moveTab d t src dst n) = true := by
  unfold moveTab
  generalize t.filter (fun e => src ≤ e.1 && e.1 < src + n) = l
  have h2 := Tab.wf_filter d t (fun e => e.1 < dst || dst + n ≤ e.1) h
  generalize t.filter (fun e => e.1 < dst || dst + n ≤ e.1) = u at h2
  induction l generalizing u with
  | nil => exact h2
  | cons e r ih => exact ih _ (Tab.wf_set d u _ _ h2)


/-- A page deciphered in place keeps the form. -/
theorem memWf_recrypt (s : State) (t a n : Nat) (h : s.memWf = true) : (s.recrypt t a n).memWf = true := by
  unfold State.recrypt
  generalize s.keys.filter _ = l
  induction l generalizing s with
  | nil => exact h
  | cons e r ih => exact ih _ (memWf_rekey s t e.1 h)

theorem memWf_dropObj (s : State) (n : Nat) (h : s.memWf = true) : (s.dropObj n).memWf = true := by
  unfold State.dropObj
  generalize unitsOf (locComb n) 256 = l
  generalize List.replicate 256 (0 : Byte) = z
  rw [State.memWf_iff] at *
  exact ⟨wf_putBytes _ _ _ h.1, wf_putMarks _ _ _ h.2⟩

end Machine

end Sys2Proof
end

