-- ==== Sys2Proof/Laws/Ops.lean ====
section
/-! SUPPORT. What the operations that every meaning is written over do: registers, retirement, the checks of an access, reads and
writes at their homes, traps and waits. -/

namespace Sys2Proof.Machine

/-! Registers -/

/-- A register after a write: the value at its own number, 0 at x0, and what was there elsewhere (R177). -/
theorem xr_setX (h : Hart) (d r : Nat) (v : Word) : (h.setX d v).xr r = if r = d then (if d = 0 then 0 else v) else h.xr r := by
  unfold Hart.setX Hart.xr
  by_cases hd : d = 0
  · subst hd; by_cases hr : r = 0 <;> simp [hr]
  · by_cases hr : r = d
    · subst hr; simp [hd]
    · simp [hd, hr, Tab.get_set_other]

@[simp] theorem xr_zero (h : Hart) : h.xr 0 = 0 := rfl

/-- A write of a scalar register changes the scalar registers only. -/
theorem setX_only (h : Hart) (d : Nat) (v : Word) : { h.setX d v with x := h.x } = h := by
  unfold Hart.setX; split <;> rfl

/-- What a retired instruction leaves: its destination, the other registers, the next word, and the rest of the hart. -/
theorem retire_xr (s : State) (d : BitVec 5) (v : Word) (r : Nat) :
    (s.retire d v).h.xr r = if r = d.toNat then (if d.toNat = 0 then 0 else v) else s.h.xr r := xr_setX s.h d.toNat r v

theorem retire_only (s : State) (d : BitVec 5) (v : Word) :
    { (s.retire d v).h with x := s.h.x, pc := s.h.pc, iw := s.h.iw, begun := s.h.begun } = s.h := by
  unfold State.retire Hart.setX; split <;> rfl

@[simp] theorem retire_pc (s : State) (d : BitVec 5) (v : Word) : (s.retire d v).h.pc = s.h.pc + 4 := rfl

theorem retire_rest (s : State) (d : BitVec 5) (v : Word) : { s.retire d v with h := s.h, did := s.did } = s := rfl

theorem retireX_xr (s : State) (d : BitVec 5) (v : Word) (r : Nat) :
    (s.retireX d v).h.xr r = if r = d.toNat then (if d.toNat = 0 then 0 else v) else s.h.xr r := xr_setX s.h d.toNat r v

theorem retireX_only (s : State) (d : BitVec 5) (v : Word) :
    { (s.retireX d v).h with x := s.h.x, pc := s.h.pc, iw := s.h.iw, begun := s.h.begun } = s.h := by
  unfold State.retireX Hart.setX; split <;> rfl

@[simp] theorem retireX_pc (s : State) (d : BitVec 5) (v : Word) : (s.retireX d v).h.pc = s.h.pc + 4 := rfl

theorem retireX_rest (s : State) (d : BitVec 5) (v : Word) : { s.retireX d v with h := s.h, did := s.did } = s := rfl

/-! Vector registers -/

/-- An element write changes the vector registers only. -/
theorem putEl_only (h : Hart) (w r e v : Nat) (b : Bool) : { h.putEl w r e v b with vx := h.vx } = h := by
  unfold Hart.putEl; split <;> rfl

/-- So does a list of them. -/
theorem putEls_only (w r : Nat) (l : List (Nat × ERes)) (h : Hart) : { h.putEls w r l with vx := h.vx } = h := by
  induction l generalizing h with
  | nil => rfl
  | cons e l ih =>
    have h1 := ih (h.putEl w r e.1 e.2.val e.2.bad)
    have h2 := putEl_only h w r e.1 e.2.val e.2.bad
    have h3 : h.putEls w r (e :: l) = (h.putEl w r e.1 e.2.val e.2.bad).putEls w r l := rfl
    rw [h3]
    generalize (h.putEl w r e.1 e.2.val e.2.bad).putEls w r l = q at *
    generalize h.putEl w r e.1 e.2.val e.2.bad = p at *
    cases q; cases p; cases h; simp_all

/-- A word held for the second execution leaves the hart in hand alone. -/
theorem enqueueRecheck_h (s : State) : s.enqueueRecheck.h = s.h := by
  unfold State.enqueueRecheck
  split
  · rfl
  · split
    · simp only []
      split
      · rfl
      · unfold State.count; split <;> rfl
    · simp only []
      split
      · rfl
      · unfold State.count State.setCore; split <;> rfl

/-! The checks of an access write no byte but machine-check records -/

theorem heat_mem (s : State) (e pa : Nat) (b : Bool) : (s.heat e pa b).mem = s.mem ∧ (s.heat e pa b).psn = s.psn := by
  unfold State.heat
  generalize 2 ^ 40 = k
  by_cases h : (decide (pa < k) || bit s.hub.split 2) = true
  · rw [if_pos h]; exact ⟨rfl, rfl⟩
  · rw [if_neg h]; exact ⟨State.mem_setPlough s _ _, State.psn_setPlough s _ _⟩

/-- The same bytes but in the ring of machine-check records, and a memory whose form holds if it did. -/
def KeepsMem (s t : State) : Prop := (∀ x, inMcRing x = false → t.byteAt x = s.byteAt x) ∧ (s.memWf = true → t.memWf = true)
theorem KeepsMem.tr {s t u : State} (h : KeepsMem s t) (h2 : KeepsMem t u) : KeepsMem s u :=
  ⟨fun x hx => (h2.1 x hx).trans (h.1 x hx), h2.2 ∘ h.2⟩
theorem KeepsMem.same (s : State) : KeepsMem s s := ⟨fun _ _ => rfl, id⟩
theorem keepsMem_of_eq {s t : State} (h : t.mem = s.mem) (h2 : t.psn = s.psn) : KeepsMem s t :=
  ⟨fun x _ => congrArg (Tab.get 0 · x) h, fun w => State.memWf_of_eq w h h2⟩
theorem mem_pended (s : State) (k : Hart) (l : List Hart) : KeepsMem s { s with h := k, pool := l } := keepsMem_of_eq rfl rfl
theorem mem_reported (s : State) (l : List Nat) : KeepsMem s { s with tableRep := l } := keepsMem_of_eq rfl rfl
theorem mem_forgot (s : State) (l : List TlbEntry) : KeepsMem s { s with tlb := l } := keepsMem_of_eq rfl rfl
theorem mem_mchecked (s : State) (a b c d e : Nat) (w : Word) (f : Nat) : KeepsMem s (s.mcheck a b c d e w f) :=
  mcheck_keeps s a b c d e w f
theorem mem_mcheckedAt (s : State) (k t h a : Nat) : KeepsMem s (s.mcheckMem k t h a) := mem_mchecked s _ _ _ _ _ _ _
theorem mem_checked (s : State) (t h u : Nat) : KeepsMem s (s.checkUnit t h u) := ⟨fun x hx => byteAt_checkUnit s t h u x hx, memWf_checkUnit s t h u⟩
theorem mem_countedMem (s : State) (t a n : Nat) : KeepsMem s (s.countMem t a n) := ⟨fun x _ => congrArg (Tab.get 0 · x) (mem_countMem s t a n), memWf_countMem s t a n⟩
theorem mem_heated (s : State) (e pa : Nat) (b : Bool) : KeepsMem s (s.heat e pa b) := keepsMem_of_eq (heat_mem s e pa b).1 (heat_mem s e pa b).2
theorem mem_recalled (s : State) (e l : Nat) : KeepsMem s (s.recallLine e l) := keepsMem_of_eq rfl rfl

theorem mem_kept (s : State) (t : TlbEntry) : KeepsMem s (s.keepXlat t) := by
  unfold State.keepXlat
  split
  · exact mem_forgot _ _
  · exact .same s

/-- The reads of a walk change no byte. -/
theorem walkReads_mem (s : State) (a : Actor) (va : Nat) : KeepsMem s (s.walkReads a va) := by
  unfold State.walkReads
  generalize s.path a.tid va = l
  suffices hl : ∀ (l : List Nat) (z : State), KeepsMem z (l.foldl (fun t pa =>
      (if Tab.get 0 t.ecc (unitOf pa) = 1 then t.checkUnit a.tid a.hid (unitOf pa) else t).countMem (robTag (s.robAt pa)) pa 8) z) from hl l s
  intro l
  induction l with
  | nil => exact .same
  | cons u r ih =>
    intro z
    refine KeepsMem.tr ?_ (ih _)
    refine KeepsMem.tr ?_ (mem_countedMem _ _ _ _)
    split
    · exact mem_checked _ _ _ _
    · exact .same z

/-- A poisoned table entry met by a walk changes no byte, by its parts. -/
theorem entryPoison_parts (s : State) (a : Actor) (pa t : Nat) (w : Word) (l : List TlbEntry) (c : State → Bool) :
    let s1 : State := { s with tlb := l }
    let s2 : State := if c s1 then { s1.mcheckMem 6 a.tid a.hid pa with tableRep := pa :: s1.tableRep } else s1
    KeepsMem s { s2 with h := pendPage t w s2.h, pool := s2.pool.map (pendPage t w) } := by
  intro s1 s2
  refine KeepsMem.tr ?_ (mem_pended s2 _ _)
  show KeepsMem s (if c s1 then { s1.mcheckMem 6 a.tid a.hid pa with tableRep := pa :: s1.tableRep } else s1)
  split
  · exact ((mem_forgot s l).tr (mem_mcheckedAt s1 _ _ _ _)).tr (mem_reported _ _)
  · exact mem_forgot s l

theorem entryPoison_mem (s : State) (a : Actor) (pa : Nat) : KeepsMem s (s.entryPoison a pa) :=
  entryPoison_parts s a pa (if robTag (s.robAt pa) = 0 then a.tid else robTag (s.robAt pa)) (word (2 ^ 63 + pa))
    (s.tlb.filter (fun t => !t.tables.contains (pa / 65536)))
    (fun s1 => robTag (s.robAt pa) = 0 && !s1.tableRep.contains pa)

theorem tablePoison_mem (s : State) (a : Actor) (pa : Nat) : KeepsMem s (s.tablePoison a pa) := by
  refine KeepsMem.tr ?_ (entryPoison_mem _ a pa)
  split
  · exact mem_checked _ _ _ _
  · exact (mem_checked _ _ _ _).tr (mem_mcheckedAt _ _ _ _ _)

theorem translate_mem (s : State) (a : Actor) (p : Word) : KeepsMem s (s.translate a p).1 := by
  have h0 := walkReads_mem s a (bits p.toNat 0 56)
  unfold State.translate
  simp only []
  split
  · exact mem_heated _ _ _ _
  · split
    · split
      · exact h0
      · exact (h0.tr (mem_heated _ _ _ _)).tr (mem_kept _ _)
    · exact h0
    · exact h0
    · exact h0.tr (mem_mcheckedAt _ _ _ _ _)
    · exact h0.tr (tablePoison_mem _ a _)

theorem ownedWait_mem (s : State) (k : AKind) (pl : Place) : KeepsMem s (s.ownedWait k pl).1 := by
  unfold State.ownedWait
  split
  · exact .same s
  · split
    · exact mem_recalled _ _ _
    · split
      · exact .same s
      · split <;> exact .same s

theorem pageAccess_mem (s : State) (a : Actor) (k : AKind) (p : Word) : KeepsMem s (s.pageAccess a k p).1 := by
  have h := translate_mem s a p
  unfold State.pageAccess
  split
  · rename_i e; rw [e] at h; exact h
  · rename_i e; rw [e] at h
    simp only []
    split
    · exact h
    · split
      · exact h.tr (mem_mcheckedAt _ _ _ _ _)
      · split
        · exact h
        · split
          · exact h.tr (ownedWait_mem _ _ _)
          · exact h

theorem combAccess_mem (s : State) (a : Actor) (k : AKind) (p : Word) (n : Nat) : KeepsMem s (s.combAccess a k p n).1 := by
  unfold State.combAccess
  simp only []
  split
  · exact .same s
  · split
    · exact .same s
    · split
      · exact ownedWait_mem _ _ _
      · exact .same s

theorem scratchAccess_mem (s : State) (a : Actor) (k : AKind) (p : Word) : KeepsMem s (s.scratchAccess a k p).1 := by
  unfold State.scratchAccess
  simp only []
  split
  · exact .same s
  · split
    · exact .same s
    · exact ownedWait_mem _ _ _

/-- The checks of R85 change no byte of memory, and they keep its form. -/
theorem access_mem (s : State) (a : Actor) (k : AKind) (p : Word) (n m : Nat) : KeepsMem s (s.access a k p n m).1 := by
  unfold State.access
  simp only []
  split
  · exact .same s
  · split
    · exact .same s
    · split
      · exact .same s
      · split
        · exact scratchAccess_mem s a k p
        · split
          · exact combAccess_mem s a k p n
          · exact pageAccess_mem s a k p

theorem memWf_access (s : State) (a : Actor) (k : AKind) (p : Word) (n m : Nat) (h : s.memWf = true) :
    (s.access a k p n m).1.memWf = true := (access_mem s a k p n m).2 h

theorem pieces_mem (s : State) (a : Actor) (k : AKind) (p q : Word) (n : Nat) : KeepsMem s (s.pieces a k p q n).1 := by
  induction n generalizing s q with
  | zero => exact .same s
  | succ n ih =>
    have h := access_mem s a k q 64 64
    unfold State.pieces
    split
    · rename_i e; rw [e] at h; exact h
    · rename_i e; rw [e] at h; exact h
    · rename_i s1 pl e
      rw [e] at h
      have h2 := ih s1 (q + 64)
      split
      · rename_i e2; rw [e2] at h2; exact h.tr h2
      · exact h.tr h2

theorem memWf_accessRun (s : State) (a : Actor) (k : AKind) (p : Word) (n : Nat) (h : s.memWf = true) :
    (s.accessRun a k p n).1.memWf = true := (pieces_mem s a k p p n).2 h

/-! Reads and writes at their homes keep the form of memory -/

theorem memWf_readAt (s : State) (a : Actor) (pl : Place) (n : Nat) (h : s.memWf = true) : (s.readAt a pl n).1.memWf = true :=
  memWf_read s _ _ _ _ h

theorem memWf_readPieces (s : State) (a : Actor) (l : List Place) (h : s.memWf = true) : (s.readPieces a l).1.memWf = true := by
  induction l generalizing s with
  | nil => exact h
  | cons pl r ih => exact ih _ (memWf_readAt s a pl 64 h)

theorem memWf_markLine (s : State) (pl : Place) (h : s.memWf = true) : (s.markLine pl).memWf = true := by
  unfold State.markLine
  split
  · split <;> exact h
  · exact h

theorem memWf_planeStore (s : State) (n : Nat) (r : Region) (x off v : Nat) (b : Bool) (h : s.memWf = true) :
    (s.planeStore n r x off v b).memWf = true := by
  unfold State.planeStore
  split
  · exact h
  · split
    · exact h
    · split <;> exact h

theorem memWf_readOld (s : State) (a : Actor) (r : Region) (off len : Nat) (h : s.memWf = true) : (s.readOld a r off len).memWf = true := by
  unfold State.readOld
  generalize r.unjournalled off len = l
  induction l generalizing s with
  | nil => exact h
  | cons w q ih => exact ih _ (memWf_checkRead s _ _ _ _ h)

theorem memWf_guardNote (s : State) (a : Actor) (n : Nat) (r : Region) (off len : Nat) (h : s.memWf = true) :
    (s.guardNote a n r off len).memWf = true := by
  unfold State.guardNote
  split
  · exact h
  · split
    · exact h
    · exact memWf_readOld s a r off len h

theorem memWf_combStore (s : State) (a : Actor) (n : Nat) (r : Region) (off : Nat) (l : List Byte) (b : Bool) (h : s.memWf = true) :
    (s.combStore a n r off l b).memWf = true := by
  unfold State.combStore
  split
  · exact memWf_count _ _ _ _ (memWf_planeStore s _ _ _ _ _ _ h)
  · exact memWf_write _ _ _ _ _ _ (memWf_guardNote s _ _ _ _ _ h)

/-- A write at its place keeps the form. -/
theorem memWf_writeAt (s : State) (a : Actor) (pl : Place) (l : List Byte) (b : Bool) (h : s.memWf = true) :
    (s.writeAt a pl l b).memWf = true := by
  unfold State.writeAt
  split
  · split
    · exact memWf_combStore _ _ _ _ _ _ _ h
    · exact h
  · exact memWf_write _ _ _ _ _ _ (memWf_markLine _ _ h)

/-- A fetch keeps the form. -/
theorem memWf_fetch (s : State) (a : Actor) (pc : Word) (h : s.memWf = true) : (s.fetch a pc).1.memWf = true := by
  have h1 := memWf_access s a .fetch pc 4 4 h
  unfold State.fetch
  split
  · exact h
  · split
    · rename_i e; rw [e] at h1; exact h1
    · rename_i e; rw [e] at h1; exact h1
    · rename_i pl e; rw [e] at h1
      have h2 := memWf_read _ a.tid a.hid pl.loc 4 h1
      split
      rename_i e2
      rw [e2] at h2
      split
      · exact memWf_mcheck _ _ _ _ _ _ _ _ h2
      · exact h2

/-! Traps and waits keep it -/

theorem memWf_unbindNotice (s : State) (a b c d : Nat) (h : s.memWf = true) : (s.unbindNotice a b c d).memWf = true := by
  unfold State.unbindNotice
  split
  · exact memWf_hostPost _ _ _ _ h
  · exact h

theorem memWf_endHart (s : State) (n : Nat) (h : s.memWf = true) : (s.endHart n).memWf = true := by
  unfold State.endHart
  split
  · exact h
  · simp only []
    split
    · exact memWf_unbindNotice _ _ _ _ _ h
    · exact h

/-- The form is the same with another hart in hand. -/
theorem memWf_with (s : State) (k : Hart) (d : Did) (h : s.memWf = true) : ({ s with h := k, did := d } : State).memWf = true := h

theorem memWf_withDid (s : State) (d : Did) (h : s.memWf = true) : ({ s with did := d } : State).memWf = true := h

theorem memWf_enterTrap (s : State) (c : Nat) (v e : Word) (vs : Bool) (h : s.memWf = true) : (s.enterTrap c v e vs).memWf = true := by
  unfold State.enterTrap
  split
  · exact memWf_with _ _ _ (memWf_traceHart _ _ _ _ _ _ (memWf_count _ _ _ _ h))
  · exact memWf_withDid _ _ (memWf_endHart _ _ (memWf_mcheck _ _ _ _ _ _ _ _ h))

theorem memWf_takeTrap (s : State) (v : VStop) (vs : Bool) (h : s.memWf = true) : (s.takeTrap v vs).memWf = true := by
  unfold State.takeTrap
  simp only []
  split
  · exact memWf_with _ _ _ (memWf_hostPost _ _ _ _ h)
  · exact memWf_enterTrap _ _ _ _ _ h

theorem memWf_trap (s : State) (c : Nat) (v : Word) (h : s.memWf = true) : (s.trap c v).memWf = true := memWf_takeTrap s _ _ h

theorem memWf_trapAfter (s : State) (c : Nat) (v : Word) (h : s.memWf = true) : (s.trapAfter c v).memWf = true :=
  memWf_takeTrap s _ _ h

theorem memWf_finishWait (s : State) (d : BitVec 5) (v : Word) (h : s.memWf = true) : (s.finishWait d v).memWf = true :=
  memWf_traceHart s _ _ _ _ _ h

theorem memWf_stall (s : State) (p : Word) (h : s.memWf = true) : (s.stall p).memWf = true := h

theorem memWf_answer (s : State) (n : Nat) (v : Word) (h : s.memWf = true) : (s.answer n v).memWf = true := by
  unfold State.answer
  split
  · exact h
  · split
    · simp only []
      split
      · exact memWf_count _ _ _ _ (memWf_traceHart _ _ _ _ _ _ h)
      · exact memWf_traceHart _ _ _ _ _ _ h
    · exact h

theorem memWf_respond (s : State) (n : Nat) (w : Wait) (v : Word) (f : Nat) (k : Option Holding) (h : s.memWf = true) :
    (s.respond n w v f k).memWf = true := by
  unfold State.respond
  split
  · exact memWf_answer _ _ _ h
  · split
    · exact memWf_answer _ _ _ h
    · split <;> exact h

theorem memWf_answerIf (s : State) (n : Nat) (p : WaitKind → Bool) (v : Word) (h : s.memWf = true) : (s.answerIf n p v).memWf = true := by
  unfold State.answerIf
  split
  · split
    · exact memWf_respond _ _ _ _ _ _ h
    · exact h
  · exact h

/-- An explicit wait that returns at once, or once its die answers, keeps the form. -/
theorem memWf_finishAt (s : State) (k : WaitKind) (d : BitVec 5) (n : Nat) (v : Word) (x : Option Holding) (h : s.memWf = true) :
    (s.finishAt k d n v x).memWf = true := by
  unfold State.finishAt
  split
  · exact memWf_finishWait _ _ _ h
  · simp only []
    split
    · exact memWf_respond _ _ _ _ _ _ h
    · exact h

/-- An instruction whose effect has begun keeps it, whether it retires or waits. -/
theorem memWf_retireWhen (s : State) (l : List Nat) (d : BitVec 5) (v : Word) (b : Begins) (h : s.memWf = true) :
    (s.retireWhen l d v b).memWf = true := by
  unfold State.retireWhen
  split <;> exact h

/-- An instruction that goes on at its place keeps the form if what it does there keeps it. -/
theorem memWf_atPlace (r : State × Res) (f : State → Place → Out) (h : r.1.memWf = true)
    (hf : ∀ s pl t, s.memWf = true → f s pl = .next t → t.memWf = true) (t : State) (ht : State.atPlace r f = .next t) :
    t.memWf = true := by
  obtain ⟨s, x⟩ := r
  cases x with
  | ok pl => exact hf s pl t h ht
  | trap c v => cases ht; exact memWf_trap _ _ _ h
  | wait p => cases ht; exact memWf_stall _ _ h

theorem memWf_atPieces (r : State × ResAll) (f : State → List Place → Out) (h : r.1.memWf = true)
    (hf : ∀ s pl t, s.memWf = true → f s pl = .next t → t.memWf = true) (t : State) (ht : State.atPieces r f = .next t) :
    t.memWf = true := by
  obtain ⟨s, x⟩ := r
  cases x with
  | ok pl => exact hf s pl t h ht
  | trap c v => cases ht; exact memWf_trap _ _ _ h
  | wait p => cases ht; exact memWf_stall _ _ h

end Sys2Proof.Machine
end

