-- ==== Sys2Proof/Laws/PerInstr.lean ====
section
/-! SUPPORT. Statements made of each instruction on its own. -/

namespace Sys2Proof.Laws.RoundTrip

set_option linter.unusedSimpArgs false

/-- The word of a well-formed instruction decodes to it. -/
def Statement (i : Instr) : Prop := ∀ w : IWord, encode i = some w → wellFormed i = true → decode w = some i

/-- An event has no word. -/
theorem ofNone {i : Instr} (h : encode i = none) : Statement i := by
  intro w hw
  rw [h] at hw
  cases hw

/-- An instruction whose word names its operation, with values that are admitted, and builds it again. -/
theorem ofOp {i : Instr} {op : Op} {n : Nat} (he : encode i = some (wordOf n)) (ho : wellFormed i = true → opOf (wordOf n) = some op)
    (hv : wellFormed i = true → valuesOk (wordOf n) op = true) (hb : build (wordOf n) op = i) : Statement i := by
  intro w hw hf
  obtain rfl : wordOf n = w := Option.some.inj (he.symm.trans hw)
  rw [decode_of_op (ho hf) (hv hf), hb]

theorem coldStart : Statement (.coldStart) := ofNone rfl

theorem warmStart : Statement (.warmStart) := ofNone rfl

theorem dieCoreReset (x0) : Statement (.dieCoreReset x0) := ofNone rfl

theorem dieLeavesReset (x0) : Statement (.dieLeavesReset x0) := ofNone rfl

theorem fieldDieReset (x0) : Statement (.fieldDieReset x0) := ofNone rfl

theorem ptpLockLoss : Statement (.ptpLockLoss) := ofNone rfl

theorem ptpLockAcquire : Statement (.ptpLockAcquire) := ofNone rfl

theorem negotiationClose : Statement (.negotiationClose) := ofNone rfl

theorem gtbsetWrite (x0) : Statement (.gtbsetWrite x0) := ofNone rfl

theorem ftmapWrite (x0) : Statement (.ftmapWrite x0) := ofNone rfl

theorem hchipWrite (x0) : Statement (.hchipWrite x0) := ofNone rfl

theorem mgmtRegisterWrite (x0 x1 x2) : Statement (.mgmtRegisterWrite x0 x1 x2) := ofNone rfl

theorem blockStart : Statement (.blockStart) := ofNone rfl

theorem convoyIssue : Statement (.convoyIssue) := ofNone rfl

theorem vectorTrapDelivery : Statement (.vectorTrapDelivery) := ofNone rfl

theorem pfAnswerTimeout (x0) : Statement (.pfAnswerTimeout x0) := ofNone rfl

theorem hostPfAnswer (x0 x1) : Statement (.hostPfAnswer x0 x1) := ofNone rfl

theorem iwlExpiry (x0 x1) : Statement (.iwlExpiry x0 x1) := ofNone rfl

theorem waitAnswerTimeout (x0) : Statement (.waitAnswerTimeout x0) := ofNone rfl

theorem rqpopExpiry (x0) : Statement (.rqpopExpiry x0) := ofNone rfl

theorem vsyncExpiry (x0) : Statement (.vsyncExpiry x0) := ofNone rfl

theorem napExpiry (x0) : Statement (.napExpiry x0) := ofNone rfl

theorem twaitExpiry (x0) : Statement (.twaitExpiry x0) := ofNone rfl

theorem ewaitExpiry (x0) : Statement (.ewaitExpiry x0) := ofNone rfl

theorem eleaseExpiry (x0) : Statement (.eleaseExpiry x0) := ofNone rfl

theorem engineSlotExpiry (x0) : Statement (.engineSlotExpiry x0) := ofNone rfl

theorem swarmDeadlineClose (x0) : Statement (.swarmDeadlineClose x0) := ofNone rfl

theorem swjoinExpiry (x0) : Statement (.swjoinExpiry x0) := ofNone rfl

theorem acqExpiry (x0) : Statement (.acqExpiry x0) := ofNone rfl

theorem sendExpiry (x0) : Statement (.sendExpiry x0) := ofNone rfl

theorem recvExpiry (x0) : Statement (.recvExpiry x0) := ofNone rfl

theorem planeFlip (x0 x1) : Statement (.planeFlip x0 x1) := ofNone rfl

theorem patrolScrub (x0) : Statement (.patrolScrub x0) := ofNone rfl

theorem combPatrolScrub (x0) : Statement (.combPatrolScrub x0) := ofNone rfl

theorem zreqGo (x0) : Statement (.zreqGo x0) := ofNone rfl

theorem zreqComplete : Statement (.zreqComplete) := ofNone rfl

theorem tinvGo (x0 x1) : Statement (.tinvGo x0 x1) := ofNone rfl

theorem tinvComplete (x0) : Statement (.tinvComplete x0) := ofNone rfl

theorem roreqGo (x0 x1) : Statement (.roreqGo x0 x1) := ofNone rfl

theorem roreqComplete (x0) : Statement (.roreqComplete x0) := ofNone rfl

theorem tenbootGo (x0 x1) : Statement (.tenbootGo x0 x1) := ofNone rfl

theorem tenantActivate (x0 x1) : Statement (.tenantActivate x0 x1) := ofNone rfl

theorem tenantFreeze (x0 x1) : Statement (.tenantFreeze x0 x1) := ofNone rfl

theorem tenantFrozen (x0) : Statement (.tenantFrozen x0) := ofNone rfl

theorem tenantThaw (x0 x1) : Statement (.tenantThaw x0 x1) := ofNone rfl

theorem tenantRelease (x0 x1) : Statement (.tenantRelease x0 x1) := ofNone rfl

theorem tenantReleased (x0) : Statement (.tenantReleased x0) := ofNone rfl

theorem pmapWrite (x0 x1 x2) : Statement (.pmapWrite x0 x1 x2) := ofNone rfl

theorem weightSlotFreeMgmt (x0 x1) : Statement (.weightSlotFreeMgmt x0 x1) := ofNone rfl

theorem bindRecordSubmit (x0 x1 x2 x3) : Statement (.bindRecordSubmit x0 x1 x2 x3) := ofNone rfl

theorem bindRecordRemove (x0 x1 x2) : Statement (.bindRecordRemove x0 x1 x2) := ofNone rfl

theorem quantumEnd (x0 x1) : Statement (.quantumEnd x0 x1) := ofNone rfl

theorem apiaryWaitingRemoval (x0 x1) : Statement (.apiaryWaitingRemoval x0 x1) := ofNone rfl

theorem powerSample (x0) : Statement (.powerSample x0) := ofNone rfl

theorem watchdogExpiry (x0) : Statement (.watchdogExpiry x0) := ofNone rfl

theorem leaseGrant (x0) : Statement (.leaseGrant x0) := ofNone rfl

theorem leaseExpiry (x0) : Statement (.leaseExpiry x0) := ofNone rfl

theorem leaseRevoke (x0) : Statement (.leaseRevoke x0) := ofNone rfl

theorem engineCommandStart (x0) : Statement (.engineCommandStart x0) := ofNone rfl

theorem engineCommandEnd (x0) : Statement (.engineCommandEnd x0) := ofNone rfl

theorem collectiveClose (x0) : Statement (.collectiveClose x0) := ofNone rfl

theorem ploughMoveGo (x0 x1) : Statement (.ploughMoveGo x0 x1) := ofNone rfl

theorem ploughMoveComplete (x0) : Statement (.ploughMoveComplete x0) := ofNone rfl

theorem ploughEpochEnd (x0) : Statement (.ploughEpochEnd x0) := ofNone rfl

theorem recheckRun (x0 x1 x2) : Statement (.recheckRun x0 x1 x2) := ofNone rfl

theorem debugResume (x0 x1) : Statement (.debugResume x0 x1) := ofNone rfl

theorem debugStep (x0 x1) : Statement (.debugStep x0 x1) := ofNone rfl

theorem fabricPut (x0) : Statement (.fabricPut x0) := ofNone rfl

theorem fabricGet (x0) : Statement (.fabricGet x0) := ofNone rfl

theorem fabricGetResponse (x0) : Statement (.fabricGetResponse x0) := ofNone rfl

theorem fabricChannelSend (x0) : Statement (.fabricChannelSend x0) := ofNone rfl

theorem fabricSwarmArrival (x0) : Statement (.fabricSwarmArrival x0) := ofNone rfl

theorem fabricSwarmResult (x0) : Statement (.fabricSwarmResult x0) := ofNone rfl

theorem fabricCollectiveData (x0) : Statement (.fabricCollectiveData x0) := ofNone rfl

theorem fabricCreditReturn (x0) : Statement (.fabricCreditReturn x0) := ofNone rfl

theorem fabricTrigger (x0) : Statement (.fabricTrigger x0) := ofNone rfl

theorem replayDelivery (x0) : Statement (.replayDelivery x0) := ofNone rfl

theorem hostSend (x0) : Statement (.hostSend x0) := ofNone rfl

theorem hostMemoryWrite (x0 x1 x2 x3) : Statement (.hostMemoryWrite x0 x1 x2 x3) := ofNone rfl

theorem hostMemoryRead (x0 x1 x2 x3) : Statement (.hostMemoryRead x0 x1 x2 x3) := ofNone rfl

theorem jobRecordPost (x0) : Statement (.jobRecordPost x0) := ofNone rfl

theorem spdmRequest (x0) : Statement (.spdmRequest x0) := ofNone rfl

theorem add (d a b) : Statement (.add d a b) :=
  ofOp (op := .add) (n := 0 |> put 1#6 |> put d |> put a |> put b |> put 0#11) rfl
    (fun _ => by simp [opOf, opXop, extract_wordOf, partOf_put, partOf_put_zero, Nat.reduceLeDiff, Nat.reduceAdd, Nat.reduceSub])
    (fun _ => rfl)
    (by
      change Instr.add _ _ _ = _
      simp only [extract_wordOf, partOf_put, partOf_put_zero, Nat.reduceLeDiff, Nat.reduceAdd, Nat.reduceSub])

theorem sub (d a b) : Statement (.sub d a b) :=
  ofOp (op := .sub) (n := 0 |> put 1#6 |> put d |> put a |> put b |> put 1#11) rfl
    (fun _ => by simp [opOf, opXop, extract_wordOf, partOf_put, partOf_put_zero, Nat.reduceLeDiff, Nat.reduceAdd, Nat.reduceSub])
    (fun _ => rfl)
    (by
      change Instr.sub _ _ _ = _
      simp only [extract_wordOf, partOf_put, partOf_put_zero, Nat.reduceLeDiff, Nat.reduceAdd, Nat.reduceSub])

theorem and (d a b) : Statement (.and d a b) :=
  ofOp (op := .and) (n := 0 |> put 1#6 |> put d |> put a |> put b |> put 2#11) rfl
    (fun _ => by simp [opOf, opXop, extract_wordOf, partOf_put, partOf_put_zero, Nat.reduceLeDiff, Nat.reduceAdd, Nat.reduceSub])
    (fun _ => rfl)
    (by
      change Instr.and _ _ _ = _
      simp only [extract_wordOf, partOf_put, partOf_put_zero, Nat.reduceLeDiff, Nat.reduceAdd, Nat.reduceSub])

theorem or (d a b) : Statement (.or d a b) :=
  ofOp (op := .or) (n := 0 |> put 1#6 |> put d |> put a |> put b |> put 3#11) rfl
    (fun _ => by simp [opOf, opXop, extract_wordOf, partOf_put, partOf_put_zero, Nat.reduceLeDiff, Nat.reduceAdd, Nat.reduceSub])
    (fun _ => rfl)
    (by
      change Instr.or _ _ _ = _
      simp only [extract_wordOf, partOf_put, partOf_put_zero, Nat.reduceLeDiff, Nat.reduceAdd, Nat.reduceSub])

theorem xor (d a b) : Statement (.xor d a b) :=
  ofOp (op := .xor) (n := 0 |> put 1#6 |> put d |> put a |> put b |> put 4#11) rfl
    (fun _ => by simp [opOf, opXop, extract_wordOf, partOf_put, partOf_put_zero, Nat.reduceLeDiff, Nat.reduceAdd, Nat.reduceSub])
    (fun _ => rfl)
    (by
      change Instr.xor _ _ _ = _
      simp only [extract_wordOf, partOf_put, partOf_put_zero, Nat.reduceLeDiff, Nat.reduceAdd, Nat.reduceSub])

theorem sll (d a b) : Statement (.sll d a b) :=
  ofOp (op := .sll) (n := 0 |> put 1#6 |> put d |> put a |> put b |> put 5#11) rfl
    (fun _ => by simp [opOf, opXop, extract_wordOf, partOf_put, partOf_put_zero, Nat.reduceLeDiff, Nat.reduceAdd, Nat.reduceSub])
    (fun _ => rfl)
    (by
      change Instr.sll _ _ _ = _
      simp only [extract_wordOf, partOf_put, partOf_put_zero, Nat.reduceLeDiff, Nat.reduceAdd, Nat.reduceSub])

theorem srl (d a b) : Statement (.srl d a b) :=
  ofOp (op := .srl) (n := 0 |> put 1#6 |> put d |> put a |> put b |> put 6#11) rfl
    (fun _ => by simp [opOf, opXop, extract_wordOf, partOf_put, partOf_put_zero, Nat.reduceLeDiff, Nat.reduceAdd, Nat.reduceSub])
    (fun _ => rfl)
    (by
      change Instr.srl _ _ _ = _
      simp only [extract_wordOf, partOf_put, partOf_put_zero, Nat.reduceLeDiff, Nat.reduceAdd, Nat.reduceSub])

theorem sra (d a b) : Statement (.sra d a b) :=
  ofOp (op := .sra) (n := 0 |> put 1#6 |> put d |> put a |> put b |> put 7#11) rfl
    (fun _ => by simp [opOf, opXop, extract_wordOf, partOf_put, partOf_put_zero, Nat.reduceLeDiff, Nat.reduceAdd, Nat.reduceSub])
    (fun _ => rfl)
    (by
      change Instr.sra _ _ _ = _
      simp only [extract_wordOf, partOf_put, partOf_put_zero, Nat.reduceLeDiff, Nat.reduceAdd, Nat.reduceSub])

theorem sltS (d a b) : Statement (.sltS d a b) :=
  ofOp (op := .sltS) (n := 0 |> put 1#6 |> put d |> put a |> put b |> put 8#11) rfl
    (fun _ => by simp [opOf, opXop, extract_wordOf, partOf_put, partOf_put_zero, Nat.reduceLeDiff, Nat.reduceAdd, Nat.reduceSub])
    (fun _ => rfl)
    (by
      change Instr.sltS _ _ _ = _
      simp only [extract_wordOf, partOf_put, partOf_put_zero, Nat.reduceLeDiff, Nat.reduceAdd, Nat.reduceSub])

theorem sltU (d a b) : Statement (.sltU d a b) :=
  ofOp (op := .sltU) (n := 0 |> put 1#6 |> put d |> put a |> put b |> put 9#11) rfl
    (fun _ => by simp [opOf, opXop, extract_wordOf, partOf_put, partOf_put_zero, Nat.reduceLeDiff, Nat.reduceAdd, Nat.reduceSub])
    (fun _ => rfl)
    (by
      change Instr.sltU _ _ _ = _
      simp only [extract_wordOf, partOf_put, partOf_put_zero, Nat.reduceLeDiff, Nat.reduceAdd, Nat.reduceSub])

theorem mul (d a b) : Statement (.mul d a b) :=
  ofOp (op := .mul) (n := 0 |> put 1#6 |> put d |> put a |> put b |> put 16#11) rfl
    (fun _ => by simp [opOf, opXop, extract_wordOf, partOf_put, partOf_put_zero, Nat.reduceLeDiff, Nat.reduceAdd, Nat.reduceSub])
    (fun _ => rfl)
    (by
      change Instr.mul _ _ _ = _
      simp only [extract_wordOf, partOf_put, partOf_put_zero, Nat.reduceLeDiff, Nat.reduceAdd, Nat.reduceSub])

theorem mulhiSs (d a b) : Statement (.mulhiSs d a b) :=
  ofOp (op := .mulhiSs) (n := 0 |> put 1#6 |> put d |> put a |> put b |> put 17#11) rfl
    (fun _ => by simp [opOf, opXop, extract_wordOf, partOf_put, partOf_put_zero, Nat.reduceLeDiff, Nat.reduceAdd, Nat.reduceSub])
    (fun _ => rfl)
    (by
      change Instr.mulhiSs _ _ _ = _
      simp only [extract_wordOf, partOf_put, partOf_put_zero, Nat.reduceLeDiff, Nat.reduceAdd, Nat.reduceSub])

theorem mulhiUu (d a b) : Statement (.mulhiUu d a b) :=
  ofOp (op := .mulhiUu) (n := 0 |> put 1#6 |> put d |> put a |> put b |> put 18#11) rfl
    (fun _ => by simp [opOf, opXop, extract_wordOf, partOf_put, partOf_put_zero, Nat.reduceLeDiff, Nat.reduceAdd, Nat.reduceSub])
    (fun _ => rfl)
    (by
      change Instr.mulhiUu _ _ _ = _
      simp only [extract_wordOf, partOf_put, partOf_put_zero, Nat.reduceLeDiff, Nat.reduceAdd, Nat.reduceSub])

theorem mulhiSu (d a b) : Statement (.mulhiSu d a b) :=
  ofOp (op := .mulhiSu) (n := 0 |> put 1#6 |> put d |> put a |> put b |> put 19#11) rfl
    (fun _ => by simp [opOf, opXop, extract_wordOf, partOf_put, partOf_put_zero, Nat.reduceLeDiff, Nat.reduceAdd, Nat.reduceSub])
    (fun _ => rfl)
    (by
      change Instr.mulhiSu _ _ _ = _
      simp only [extract_wordOf, partOf_put, partOf_put_zero, Nat.reduceLeDiff, Nat.reduceAdd, Nat.reduceSub])

theorem quoS (d a b) : Statement (.quoS d a b) :=
  ofOp (op := .quoS) (n := 0 |> put 1#6 |> put d |> put a |> put b |> put 24#11) rfl
    (fun _ => by simp [opOf, opXop, extract_wordOf, partOf_put, partOf_put_zero, Nat.reduceLeDiff, Nat.reduceAdd, Nat.reduceSub])
    (fun _ => rfl)
    (by
      change Instr.quoS _ _ _ = _
      simp only [extract_wordOf, partOf_put, partOf_put_zero, Nat.reduceLeDiff, Nat.reduceAdd, Nat.reduceSub])

theorem quoU (d a b) : Statement (.quoU d a b) :=
  ofOp (op := .quoU) (n := 0 |> put 1#6 |> put d |> put a |> put b |> put 25#11) rfl
    (fun _ => by simp [opOf, opXop, extract_wordOf, partOf_put, partOf_put_zero, Nat.reduceLeDiff, Nat.reduceAdd, Nat.reduceSub])
    (fun _ => rfl)
    (by
      change Instr.quoU _ _ _ = _
      simp only [extract_wordOf, partOf_put, partOf_put_zero, Nat.reduceLeDiff, Nat.reduceAdd, Nat.reduceSub])

theorem remS (d a b) : Statement (.remS d a b) :=
  ofOp (op := .remS) (n := 0 |> put 1#6 |> put d |> put a |> put b |> put 26#11) rfl
    (fun _ => by simp [opOf, opXop, extract_wordOf, partOf_put, partOf_put_zero, Nat.reduceLeDiff, Nat.reduceAdd, Nat.reduceSub])
    (fun _ => rfl)
    (by
      change Instr.remS _ _ _ = _
      simp only [extract_wordOf, partOf_put, partOf_put_zero, Nat.reduceLeDiff, Nat.reduceAdd, Nat.reduceSub])

theorem remU (d a b) : Statement (.remU d a b) :=
  ofOp (op := .remU) (n := 0 |> put 1#6 |> put d |> put a |> put b |> put 27#11) rfl
    (fun _ => by simp [opOf, opXop, extract_wordOf, partOf_put, partOf_put_zero, Nat.reduceLeDiff, Nat.reduceAdd, Nat.reduceSub])
    (fun _ => rfl)
    (by
      change Instr.remU _ _ _ = _
      simp only [extract_wordOf, partOf_put, partOf_put_zero, Nat.reduceLeDiff, Nat.reduceAdd, Nat.reduceSub])

theorem minS (d a b) : Statement (.minS d a b) :=
  ofOp (op := .minS) (n := 0 |> put 1#6 |> put d |> put a |> put b |> put 32#11) rfl
    (fun _ => by simp [opOf, opXop, extract_wordOf, partOf_put, partOf_put_zero, Nat.reduceLeDiff, Nat.reduceAdd, Nat.reduceSub])
    (fun _ => rfl)
    (by
      change Instr.minS _ _ _ = _
      simp only [extract_wordOf, partOf_put, partOf_put_zero, Nat.reduceLeDiff, Nat.reduceAdd, Nat.reduceSub])

theorem maxS (d a b) : Statement (.maxS d a b) :=
  ofOp (op := .maxS) (n := 0 |> put 1#6 |> put d |> put a |> put b |> put 33#11) rfl
    (fun _ => by simp [opOf, opXop, extract_wordOf, partOf_put, partOf_put_zero, Nat.reduceLeDiff, Nat.reduceAdd, Nat.reduceSub])
    (fun _ => rfl)
    (by
      change Instr.maxS _ _ _ = _
      simp only [extract_wordOf, partOf_put, partOf_put_zero, Nat.reduceLeDiff, Nat.reduceAdd, Nat.reduceSub])

theorem minU (d a b) : Statement (.minU d a b) :=
  ofOp (op := .minU) (n := 0 |> put 1#6 |> put d |> put a |> put b |> put 34#11) rfl
    (fun _ => by simp [opOf, opXop, extract_wordOf, partOf_put, partOf_put_zero, Nat.reduceLeDiff, Nat.reduceAdd, Nat.reduceSub])
    (fun _ => rfl)
    (by
      change Instr.minU _ _ _ = _
      simp only [extract_wordOf, partOf_put, partOf_put_zero, Nat.reduceLeDiff, Nat.reduceAdd, Nat.reduceSub])

theorem maxU (d a b) : Statement (.maxU d a b) :=
  ofOp (op := .maxU) (n := 0 |> put 1#6 |> put d |> put a |> put b |> put 35#11) rfl
    (fun _ => by simp [opOf, opXop, extract_wordOf, partOf_put, partOf_put_zero, Nat.reduceLeDiff, Nat.reduceAdd, Nat.reduceSub])
    (fun _ => rfl)
    (by
      change Instr.maxU _ _ _ = _
      simp only [extract_wordOf, partOf_put, partOf_put_zero, Nat.reduceLeDiff, Nat.reduceAdd, Nat.reduceSub])

theorem addi (d a i) : Statement (.addi d a i) :=
  ofOp (op := .addi) (n := 0 |> put 2#6 |> put d |> put a |> put i) rfl
    (fun _ => by simp [opOf, extract_wordOf, partOf_put, partOf_put_zero, Nat.reduceLeDiff, Nat.reduceAdd, Nat.reduceSub])
    (fun _ => rfl)
    (by
      change Instr.addi _ _ _ = _
      simp only [extract_wordOf, partOf_put, partOf_put_zero, Nat.reduceLeDiff, Nat.reduceAdd, Nat.reduceSub])

theorem andi (d a i) : Statement (.andi d a i) :=
  ofOp (op := .andi) (n := 0 |> put 3#6 |> put d |> put a |> put i) rfl
    (fun _ => by simp [opOf, extract_wordOf, partOf_put, partOf_put_zero, Nat.reduceLeDiff, Nat.reduceAdd, Nat.reduceSub])
    (fun _ => rfl)
    (by
      change Instr.andi _ _ _ = _
      simp only [extract_wordOf, partOf_put, partOf_put_zero, Nat.reduceLeDiff, Nat.reduceAdd, Nat.reduceSub])

theorem ori (d a i) : Statement (.ori d a i) :=
  ofOp (op := .ori) (n := 0 |> put 4#6 |> put d |> put a |> put i) rfl
    (fun _ => by simp [opOf, extract_wordOf, partOf_put, partOf_put_zero, Nat.reduceLeDiff, Nat.reduceAdd, Nat.reduceSub])
    (fun _ => rfl)
    (by
      change Instr.ori _ _ _ = _
      simp only [extract_wordOf, partOf_put, partOf_put_zero, Nat.reduceLeDiff, Nat.reduceAdd, Nat.reduceSub])

theorem xori (d a i) : Statement (.xori d a i) :=
  ofOp (op := .xori) (n := 0 |> put 5#6 |> put d |> put a |> put i) rfl
    (fun _ => by simp [opOf, extract_wordOf, partOf_put, partOf_put_zero, Nat.reduceLeDiff, Nat.reduceAdd, Nat.reduceSub])
    (fun _ => rfl)
    (by
      change Instr.xori _ _ _ = _
      simp only [extract_wordOf, partOf_put, partOf_put_zero, Nat.reduceLeDiff, Nat.reduceAdd, Nat.reduceSub])

theorem slti (d a i) : Statement (.slti d a i) :=
  ofOp (op := .slti) (n := 0 |> put 6#6 |> put d |> put a |> put i) rfl
    (fun _ => by simp [opOf, extract_wordOf, partOf_put, partOf_put_zero, Nat.reduceLeDiff, Nat.reduceAdd, Nat.reduceSub])
    (fun _ => rfl)
    (by
      change Instr.slti _ _ _ = _
      simp only [extract_wordOf, partOf_put, partOf_put_zero, Nat.reduceLeDiff, Nat.reduceAdd, Nat.reduceSub])

theorem sltiu (d a i) : Statement (.sltiu d a i) :=
  ofOp (op := .sltiu) (n := 0 |> put 7#6 |> put d |> put a |> put i) rfl
    (fun _ => by simp [opOf, extract_wordOf, partOf_put, partOf_put_zero, Nat.reduceLeDiff, Nat.reduceAdd, Nat.reduceSub])
    (fun _ => rfl)
    (by
      change Instr.sltiu _ _ _ = _
      simp only [extract_wordOf, partOf_put, partOf_put_zero, Nat.reduceLeDiff, Nat.reduceAdd, Nat.reduceSub])

theorem slli (d a s) : Statement (.slli d a s) :=
  ofOp (op := .slli) (n := 0 |> put 8#6 |> put d |> put a |> put 0#2 |> put 0#8 |> put s) rfl
    (fun _ => by simp [opOf, opXshi, extract_wordOf, partOf_put, partOf_put_zero, Nat.reduceLeDiff, Nat.reduceAdd, Nat.reduceSub])
    (fun _ => rfl)
    (by
      change Instr.slli _ _ _ = _
      simp only [extract_wordOf, partOf_put, partOf_put_zero, Nat.reduceLeDiff, Nat.reduceAdd, Nat.reduceSub])

theorem srli (d a s) : Statement (.srli d a s) :=
  ofOp (op := .srli) (n := 0 |> put 8#6 |> put d |> put a |> put 1#2 |> put 0#8 |> put s) rfl
    (fun _ => by simp [opOf, opXshi, extract_wordOf, partOf_put, partOf_put_zero, Nat.reduceLeDiff, Nat.reduceAdd, Nat.reduceSub])
    (fun _ => rfl)
    (by
      change Instr.srli _ _ _ = _
      simp only [extract_wordOf, partOf_put, partOf_put_zero, Nat.reduceLeDiff, Nat.reduceAdd, Nat.reduceSub])

theorem srai (d a s) : Statement (.srai d a s) :=
  ofOp (op := .srai) (n := 0 |> put 8#6 |> put d |> put a |> put 2#2 |> put 0#8 |> put s) rfl
    (fun _ => by simp [opOf, opXshi, extract_wordOf, partOf_put, partOf_put_zero, Nat.reduceLeDiff, Nat.reduceAdd, Nat.reduceSub])
    (fun _ => rfl)
    (by
      change Instr.srai _ _ _ = _
      simp only [extract_wordOf, partOf_put, partOf_put_zero, Nat.reduceLeDiff, Nat.reduceAdd, Nat.reduceSub])

theorem lhi (d a i) : Statement (.lhi d a i) :=
  ofOp (op := .lhi) (n := 0 |> put 9#6 |> put d |> put a |> put i) rfl
    (fun _ => by simp [opOf, extract_wordOf, partOf_put, partOf_put_zero, Nat.reduceLeDiff, Nat.reduceAdd, Nat.reduceSub])
    (fun _ => rfl)
    (by
      change Instr.lhi _ _ _ = _
      simp only [extract_wordOf, partOf_put, partOf_put_zero, Nat.reduceLeDiff, Nat.reduceAdd, Nat.reduceSub])

theorem ldB (d a o) : Statement (.ldB d a o) :=
  ofOp (op := .ldB) (n := 0 |> put 10#6 |> put d |> put a |> put 0#3 |> put o) rfl
    (fun _ => by simp [opOf, opLd, extract_wordOf, partOf_put, partOf_put_zero, Nat.reduceLeDiff, Nat.reduceAdd, Nat.reduceSub])
    (fun _ => rfl)
    (by
      change Instr.ldB _ _ _ = _
      simp only [extract_wordOf, partOf_put, partOf_put_zero, Nat.reduceLeDiff, Nat.reduceAdd, Nat.reduceSub])

theorem ldH (d a o) : Statement (.ldH d a o) :=
  ofOp (op := .ldH) (n := 0 |> put 10#6 |> put d |> put a |> put 1#3 |> put o) rfl
    (fun _ => by simp [opOf, opLd, extract_wordOf, partOf_put, partOf_put_zero, Nat.reduceLeDiff, Nat.reduceAdd, Nat.reduceSub])
    (fun _ => rfl)
    (by
      change Instr.ldH _ _ _ = _
      simp only [extract_wordOf, partOf_put, partOf_put_zero, Nat.reduceLeDiff, Nat.reduceAdd, Nat.reduceSub])

theorem ldW (d a o) : Statement (.ldW d a o) :=
  ofOp (op := .ldW) (n := 0 |> put 10#6 |> put d |> put a |> put 2#3 |> put o) rfl
    (fun _ => by simp [opOf, opLd, extract_wordOf, partOf_put, partOf_put_zero, Nat.reduceLeDiff, Nat.reduceAdd, Nat.reduceSub])
    (fun _ => rfl)
    (by
      change Instr.ldW _ _ _ = _
      simp only [extract_wordOf, partOf_put, partOf_put_zero, Nat.reduceLeDiff, Nat.reduceAdd, Nat.reduceSub])

theorem ldD (d a o) : Statement (.ldD d a o) :=
  ofOp (op := .ldD) (n := 0 |> put 10#6 |> put d |> put a |> put 3#3 |> put o) rfl
    (fun _ => by simp [opOf, opLd, extract_wordOf, partOf_put, partOf_put_zero, Nat.reduceLeDiff, Nat.reduceAdd, Nat.reduceSub])
    (fun _ => rfl)
    (by
      change Instr.ldD _ _ _ = _
      simp only [extract_wordOf, partOf_put, partOf_put_zero, Nat.reduceLeDiff, Nat.reduceAdd, Nat.reduceSub])

theorem ldBu (d a o) : Statement (.ldBu d a o) :=
  ofOp (op := .ldBu) (n := 0 |> put 10#6 |> put d |> put a |> put 4#3 |> put o) rfl
    (fun _ => by simp [opOf, opLd, extract_wordOf, partOf_put, partOf_put_zero, Nat.reduceLeDiff, Nat.reduceAdd, Nat.reduceSub])
    (fun _ => rfl)
    (by
      change Instr.ldBu _ _ _ = _
      simp only [extract_wordOf, partOf_put, partOf_put_zero, Nat.reduceLeDiff, Nat.reduceAdd, Nat.reduceSub])

theorem ldHu (d a o) : Statement (.ldHu d a o) :=
  ofOp (op := .ldHu) (n := 0 |> put 10#6 |> put d |> put a |> put 5#3 |> put o) rfl
    (fun _ => by simp [opOf, opLd, extract_wordOf, partOf_put, partOf_put_zero, Nat.reduceLeDiff, Nat.reduceAdd, Nat.reduceSub])
    (fun _ => rfl)
    (by
      change Instr.ldHu _ _ _ = _
      simp only [extract_wordOf, partOf_put, partOf_put_zero, Nat.reduceLeDiff, Nat.reduceAdd, Nat.reduceSub])

theorem ldWu (d a o) : Statement (.ldWu d a o) :=
  ofOp (op := .ldWu) (n := 0 |> put 10#6 |> put d |> put a |> put 6#3 |> put o) rfl
    (fun _ => by simp [opOf, opLd, extract_wordOf, partOf_put, partOf_put_zero, Nat.reduceLeDiff, Nat.reduceAdd, Nat.reduceSub])
    (fun _ => rfl)
    (by
      change Instr.ldWu _ _ _ = _
      simp only [extract_wordOf, partOf_put, partOf_put_zero, Nat.reduceLeDiff, Nat.reduceAdd, Nat.reduceSub])

theorem stB (d a o) : Statement (.stB d a o) :=
  ofOp (op := .stB) (n := 0 |> put 11#6 |> put d |> put a |> put 0#3 |> put o) rfl
    (fun _ => by simp [opOf, opSt, extract_wordOf, partOf_put, partOf_put_zero, Nat.reduceLeDiff, Nat.reduceAdd, Nat.reduceSub])
    (fun _ => rfl)
    (by
      change Instr.stB _ _ _ = _
      simp only [extract_wordOf, partOf_put, partOf_put_zero, Nat.reduceLeDiff, Nat.reduceAdd, Nat.reduceSub])

theorem stH (d a o) : Statement (.stH d a o) :=
  ofOp (op := .stH) (n := 0 |> put 11#6 |> put d |> put a |> put 1#3 |> put o) rfl
    (fun _ => by simp [opOf, opSt, extract_wordOf, partOf_put, partOf_put_zero, Nat.reduceLeDiff, Nat.reduceAdd, Nat.reduceSub])
    (fun _ => rfl)
    (by
      change Instr.stH _ _ _ = _
      simp only [extract_wordOf, partOf_put, partOf_put_zero, Nat.reduceLeDiff, Nat.reduceAdd, Nat.reduceSub])

theorem stW (d a o) : Statement (.stW d a o) :=
  ofOp (op := .stW) (n := 0 |> put 11#6 |> put d |> put a |> put 2#3 |> put o) rfl
    (fun _ => by simp [opOf, opSt, extract_wordOf, partOf_put, partOf_put_zero, Nat.reduceLeDiff, Nat.reduceAdd, Nat.reduceSub])
    (fun _ => rfl)
    (by
      change Instr.stW _ _ _ = _
      simp only [extract_wordOf, partOf_put, partOf_put_zero, Nat.reduceLeDiff, Nat.reduceAdd, Nat.reduceSub])

theorem stD (d a o) : Statement (.stD d a o) :=
  ofOp (op := .stD) (n := 0 |> put 11#6 |> put d |> put a |> put 3#3 |> put o) rfl
    (fun _ => by simp [opOf, opSt, extract_wordOf, partOf_put, partOf_put_zero, Nat.reduceLeDiff, Nat.reduceAdd, Nat.reduceSub])
    (fun _ => rfl)
    (by
      change Instr.stD _ _ _ = _
      simp only [extract_wordOf, partOf_put, partOf_put_zero, Nat.reduceLeDiff, Nat.reduceAdd, Nat.reduceSub])

theorem amoSwap (d a b w q s) : Statement (.amoSwap d a b w q s) :=
  ofOp (op := .amoSwap) (n := 0 |> put 12#6 |> put d |> put a |> put b |> put 0#5 |> put w |> put q |> put s) rfl
    (fun _ => by simp [opOf, opAmo, extract_wordOf, partOf_put, partOf_put_zero, Nat.reduceLeDiff, Nat.reduceAdd, Nat.reduceSub])
    (fun hw => by
      change (scopeOk ((wordOf (0 |> put 12#6 |> put d |> put a |> put b |> put 0#5 |> put w |> put q |> put s)).extractLsb' 0 3)) = true
      simp only [extract_wordOf, partOf_put, partOf_put_zero, Nat.reduceLeDiff, Nat.reduceAdd, Nat.reduceSub]
      exact hw)
    (by
      change Instr.amoSwap _ _ _ _ _ _ = _
      simp only [extract_wordOf, partOf_put, partOf_put_zero, Nat.reduceLeDiff, Nat.reduceAdd, Nat.reduceSub])

theorem amoCas (d a b w q s) : Statement (.amoCas d a b w q s) :=
  ofOp (op := .amoCas) (n := 0 |> put 12#6 |> put d |> put a |> put b |> put 1#5 |> put w |> put q |> put s) rfl
    (fun _ => by simp [opOf, opAmo, extract_wordOf, partOf_put, partOf_put_zero, Nat.reduceLeDiff, Nat.reduceAdd, Nat.reduceSub])
    (fun hw => by
      change (scopeOk ((wordOf (0 |> put 12#6 |> put d |> put a |> put b |> put 1#5 |> put w |> put q |> put s)).extractLsb' 0 3)) = true
      simp only [extract_wordOf, partOf_put, partOf_put_zero, Nat.reduceLeDiff, Nat.reduceAdd, Nat.reduceSub]
      exact hw)
    (by
      change Instr.amoCas _ _ _ _ _ _ = _
      simp only [extract_wordOf, partOf_put, partOf_put_zero, Nat.reduceLeDiff, Nat.reduceAdd, Nat.reduceSub])

theorem amoAdd (d a b w q s) : Statement (.amoAdd d a b w q s) :=
  ofOp (op := .amoAdd) (n := 0 |> put 12#6 |> put d |> put a |> put b |> put 2#5 |> put w |> put q |> put s) rfl
    (fun _ => by simp [opOf, opAmo, extract_wordOf, partOf_put, partOf_put_zero, Nat.reduceLeDiff, Nat.reduceAdd, Nat.reduceSub])
    (fun hw => by
      change (scopeOk ((wordOf (0 |> put 12#6 |> put d |> put a |> put b |> put 2#5 |> put w |> put q |> put s)).extractLsb' 0 3)) = true
      simp only [extract_wordOf, partOf_put, partOf_put_zero, Nat.reduceLeDiff, Nat.reduceAdd, Nat.reduceSub]
      exact hw)
    (by
      change Instr.amoAdd _ _ _ _ _ _ = _
      simp only [extract_wordOf, partOf_put, partOf_put_zero, Nat.reduceLeDiff, Nat.reduceAdd, Nat.reduceSub])

theorem amoAnd (d a b w q s) : Statement (.amoAnd d a b w q s) :=
  ofOp (op := .amoAnd) (n := 0 |> put 12#6 |> put d |> put a |> put b |> put 3#5 |> put w |> put q |> put s) rfl
    (fun _ => by simp [opOf, opAmo, extract_wordOf, partOf_put, partOf_put_zero, Nat.reduceLeDiff, Nat.reduceAdd, Nat.reduceSub])
    (fun hw => by
      change (scopeOk ((wordOf (0 |> put 12#6 |> put d |> put a |> put b |> put 3#5 |> put w |> put q |> put s)).extractLsb' 0 3)) = true
      simp only [extract_wordOf, partOf_put, partOf_put_zero, Nat.reduceLeDiff, Nat.reduceAdd, Nat.reduceSub]
      exact hw)
    (by
      change Instr.amoAnd _ _ _ _ _ _ = _
      simp only [extract_wordOf, partOf_put, partOf_put_zero, Nat.reduceLeDiff, Nat.reduceAdd, Nat.reduceSub])

theorem amoOr (d a b w q s) : Statement (.amoOr d a b w q s) :=
  ofOp (op := .amoOr) (n := 0 |> put 12#6 |> put d |> put a |> put b |> put 4#5 |> put w |> put q |> put s) rfl
    (fun _ => by simp [opOf, opAmo, extract_wordOf, partOf_put, partOf_put_zero, Nat.reduceLeDiff, Nat.reduceAdd, Nat.reduceSub])
    (fun hw => by
      change (scopeOk ((wordOf (0 |> put 12#6 |> put d |> put a |> put b |> put 4#5 |> put w |> put q |> put s)).extractLsb' 0 3)) = true
      simp only [extract_wordOf, partOf_put, partOf_put_zero, Nat.reduceLeDiff, Nat.reduceAdd, Nat.reduceSub]
      exact hw)
    (by
      change Instr.amoOr _ _ _ _ _ _ = _
      simp only [extract_wordOf, partOf_put, partOf_put_zero, Nat.reduceLeDiff, Nat.reduceAdd, Nat.reduceSub])

theorem amoXor (d a b w q s) : Statement (.amoXor d a b w q s) :=
  ofOp (op := .amoXor) (n := 0 |> put 12#6 |> put d |> put a |> put b |> put 5#5 |> put w |> put q |> put s) rfl
    (fun _ => by simp [opOf, opAmo, extract_wordOf, partOf_put, partOf_put_zero, Nat.reduceLeDiff, Nat.reduceAdd, Nat.reduceSub])
    (fun hw => by
      change (scopeOk ((wordOf (0 |> put 12#6 |> put d |> put a |> put b |> put 5#5 |> put w |> put q |> put s)).extractLsb' 0 3)) = true
      simp only [extract_wordOf, partOf_put, partOf_put_zero, Nat.reduceLeDiff, Nat.reduceAdd, Nat.reduceSub]
      exact hw)
    (by
      change Instr.amoXor _ _ _ _ _ _ = _
      simp only [extract_wordOf, partOf_put, partOf_put_zero, Nat.reduceLeDiff, Nat.reduceAdd, Nat.reduceSub])

theorem amoSmin (d a b w q s) : Statement (.amoSmin d a b w q s) :=
  ofOp (op := .amoSmin) (n := 0 |> put 12#6 |> put d |> put a |> put b |> put 6#5 |> put w |> put q |> put s) rfl
    (fun _ => by simp [opOf, opAmo, extract_wordOf, partOf_put, partOf_put_zero, Nat.reduceLeDiff, Nat.reduceAdd, Nat.reduceSub])
    (fun hw => by
      change (scopeOk ((wordOf (0 |> put 12#6 |> put d |> put a |> put b |> put 6#5 |> put w |> put q |> put s)).extractLsb' 0 3)) = true
      simp only [extract_wordOf, partOf_put, partOf_put_zero, Nat.reduceLeDiff, Nat.reduceAdd, Nat.reduceSub]
      exact hw)
    (by
      change Instr.amoSmin _ _ _ _ _ _ = _
      simp only [extract_wordOf, partOf_put, partOf_put_zero, Nat.reduceLeDiff, Nat.reduceAdd, Nat.reduceSub])

theorem amoSmax (d a b w q s) : Statement (.amoSmax d a b w q s) :=
  ofOp (op := .amoSmax) (n := 0 |> put 12#6 |> put d |> put a |> put b |> put 7#5 |> put w |> put q |> put s) rfl
    (fun _ => by simp [opOf, opAmo, extract_wordOf, partOf_put, partOf_put_zero, Nat.reduceLeDiff, Nat.reduceAdd, Nat.reduceSub])
    (fun hw => by
      change (scopeOk ((wordOf (0 |> put 12#6 |> put d |> put a |> put b |> put 7#5 |> put w |> put q |> put s)).extractLsb' 0 3)) = true
      simp only [extract_wordOf, partOf_put, partOf_put_zero, Nat.reduceLeDiff, Nat.reduceAdd, Nat.reduceSub]
      exact hw)
    (by
      change Instr.amoSmax _ _ _ _ _ _ = _
      simp only [extract_wordOf, partOf_put, partOf_put_zero, Nat.reduceLeDiff, Nat.reduceAdd, Nat.reduceSub])

theorem amoUmin (d a b w q s) : Statement (.amoUmin d a b w q s) :=
  ofOp (op := .amoUmin) (n := 0 |> put 12#6 |> put d |> put a |> put b |> put 8#5 |> put w |> put q |> put s) rfl
    (fun _ => by simp [opOf, opAmo, extract_wordOf, partOf_put, partOf_put_zero, Nat.reduceLeDiff, Nat.reduceAdd, Nat.reduceSub])
    (fun hw => by
      change (scopeOk ((wordOf (0 |> put 12#6 |> put d |> put a |> put b |> put 8#5 |> put w |> put q |> put s)).extractLsb' 0 3)) = true
      simp only [extract_wordOf, partOf_put, partOf_put_zero, Nat.reduceLeDiff, Nat.reduceAdd, Nat.reduceSub]
      exact hw)
    (by
      change Instr.amoUmin _ _ _ _ _ _ = _
      simp only [extract_wordOf, partOf_put, partOf_put_zero, Nat.reduceLeDiff, Nat.reduceAdd, Nat.reduceSub])

theorem amoUmax (d a b w q s) : Statement (.amoUmax d a b w q s) :=
  ofOp (op := .amoUmax) (n := 0 |> put 12#6 |> put d |> put a |> put b |> put 9#5 |> put w |> put q |> put s) rfl
    (fun _ => by simp [opOf, opAmo, extract_wordOf, partOf_put, partOf_put_zero, Nat.reduceLeDiff, Nat.reduceAdd, Nat.reduceSub])
    (fun hw => by
      change (scopeOk ((wordOf (0 |> put 12#6 |> put d |> put a |> put b |> put 9#5 |> put w |> put q |> put s)).extractLsb' 0 3)) = true
      simp only [extract_wordOf, partOf_put, partOf_put_zero, Nat.reduceLeDiff, Nat.reduceAdd, Nat.reduceSub]
      exact hw)
    (by
      change Instr.amoUmax _ _ _ _ _ _ = _
      simp only [extract_wordOf, partOf_put, partOf_put_zero, Nat.reduceLeDiff, Nat.reduceAdd, Nat.reduceSub])

theorem amoLd (d a w q s) : Statement (.amoLd d a w q s) :=
  ofOp (op := .amoLd) (n := 0 |> put 12#6 |> put d |> put a |> put 0#5 |> put 10#5 |> put w |> put q |> put s) rfl
    (fun _ => by simp [opOf, opAmo, extract_wordOf, partOf_put, partOf_put_zero, Nat.reduceLeDiff, Nat.reduceAdd, Nat.reduceSub])
    (fun hw => by
      change (scopeOk ((wordOf (0 |> put 12#6 |> put d |> put a |> put 0#5 |> put 10#5 |> put w |> put q |> put s)).extractLsb' 0 3)) = true
      simp only [extract_wordOf, partOf_put, partOf_put_zero, Nat.reduceLeDiff, Nat.reduceAdd, Nat.reduceSub]
      exact hw)
    (by
      change Instr.amoLd _ _ _ _ _ = _
      simp only [extract_wordOf, partOf_put, partOf_put_zero, Nat.reduceLeDiff, Nat.reduceAdd, Nat.reduceSub])

theorem amoFadd (d a b w q s) : Statement (.amoFadd d a b w q s) :=
  ofOp (op := .amoFadd) (n := 0 |> put 12#6 |> put d |> put a |> put b |> put 11#5 |> put w |> put q |> put s) rfl
    (fun _ => by simp [opOf, opAmo, extract_wordOf, partOf_put, partOf_put_zero, Nat.reduceLeDiff, Nat.reduceAdd, Nat.reduceSub])
    (fun hw => by
      change (scopeOk ((wordOf (0 |> put 12#6 |> put d |> put a |> put b |> put 11#5 |> put w |> put q |> put s)).extractLsb' 0 3)) = true
      simp only [extract_wordOf, partOf_put, partOf_put_zero, Nat.reduceLeDiff, Nat.reduceAdd, Nat.reduceSub]
      exact hw)
    (by
      change Instr.amoFadd _ _ _ _ _ _ = _
      simp only [extract_wordOf, partOf_put, partOf_put_zero, Nat.reduceLeDiff, Nat.reduceAdd, Nat.reduceSub])

theorem amoFmin (d a b w q s) : Statement (.amoFmin d a b w q s) :=
  ofOp (op := .amoFmin) (n := 0 |> put 12#6 |> put d |> put a |> put b |> put 12#5 |> put w |> put q |> put s) rfl
    (fun _ => by simp [opOf, opAmo, extract_wordOf, partOf_put, partOf_put_zero, Nat.reduceLeDiff, Nat.reduceAdd, Nat.reduceSub])
    (fun hw => by
      change (scopeOk ((wordOf (0 |> put 12#6 |> put d |> put a |> put b |> put 12#5 |> put w |> put q |> put s)).extractLsb' 0 3)) = true
      simp only [extract_wordOf, partOf_put, partOf_put_zero, Nat.reduceLeDiff, Nat.reduceAdd, Nat.reduceSub]
      exact hw)
    (by
      change Instr.amoFmin _ _ _ _ _ _ = _
      simp only [extract_wordOf, partOf_put, partOf_put_zero, Nat.reduceLeDiff, Nat.reduceAdd, Nat.reduceSub])

theorem amoFmax (d a b w q s) : Statement (.amoFmax d a b w q s) :=
  ofOp (op := .amoFmax) (n := 0 |> put 12#6 |> put d |> put a |> put b |> put 13#5 |> put w |> put q |> put s) rfl
    (fun _ => by simp [opOf, opAmo, extract_wordOf, partOf_put, partOf_put_zero, Nat.reduceLeDiff, Nat.reduceAdd, Nat.reduceSub])
    (fun hw => by
      change (scopeOk ((wordOf (0 |> put 12#6 |> put d |> put a |> put b |> put 13#5 |> put w |> put q |> put s)).extractLsb' 0 3)) = true
      simp only [extract_wordOf, partOf_put, partOf_put_zero, Nat.reduceLeDiff, Nat.reduceAdd, Nat.reduceSub]
      exact hw)
    (by
      change Instr.amoFmax _ _ _ _ _ _ = _
      simp only [extract_wordOf, partOf_put, partOf_put_zero, Nat.reduceLeDiff, Nat.reduceAdd, Nat.reduceSub])

theorem amoQadd (d a b q s) : Statement (.amoQadd d a b q s) :=
  ofOp (op := .amoQadd) (n := 0 |> put 12#6 |> put d |> put a |> put b |> put 14#5 |> put 1#1 |> put q |> put s) rfl
    (fun _ => by simp [opOf, opAmo, extract_wordOf, partOf_put, partOf_put_zero, Nat.reduceLeDiff, Nat.reduceAdd, Nat.reduceSub])
    (fun hw => by
      change (scopeOk ((wordOf (0 |> put 12#6 |> put d |> put a |> put b |> put 14#5 |> put 1#1 |> put q |> put s)).extractLsb' 0 3)) = true
      simp only [extract_wordOf, partOf_put, partOf_put_zero, Nat.reduceLeDiff, Nat.reduceAdd, Nat.reduceSub]
      exact hw)
    (by
      change Instr.amoQadd _ _ _ _ _ = _
      simp only [extract_wordOf, partOf_put, partOf_put_zero, Nat.reduceLeDiff, Nat.reduceAdd, Nat.reduceSub])

theorem amoQmul (d a b q s) : Statement (.amoQmul d a b q s) :=
  ofOp (op := .amoQmul) (n := 0 |> put 12#6 |> put d |> put a |> put b |> put 15#5 |> put 1#1 |> put q |> put s) rfl
    (fun _ => by simp [opOf, opAmo, extract_wordOf, partOf_put, partOf_put_zero, Nat.reduceLeDiff, Nat.reduceAdd, Nat.reduceSub])
    (fun hw => by
      change (scopeOk ((wordOf (0 |> put 12#6 |> put d |> put a |> put b |> put 15#5 |> put 1#1 |> put q |> put s)).extractLsb' 0 3)) = true
      simp only [extract_wordOf, partOf_put, partOf_put_zero, Nat.reduceLeDiff, Nat.reduceAdd, Nat.reduceSub]
      exact hw)
    (by
      change Instr.amoQmul _ _ _ _ _ = _
      simp only [extract_wordOf, partOf_put, partOf_put_zero, Nat.reduceLeDiff, Nat.reduceAdd, Nat.reduceSub])

theorem fadd (d a b f) : Statement (.fadd d a b f) :=
  ofOp (op := .fadd) (n := 0 |> put 13#6 |> put d |> put a |> put b |> put 0#5 |> put f |> put 0#4) rfl
    (fun _ => by simp [opOf, opFop, extract_wordOf, partOf_put, partOf_put_zero, Nat.reduceLeDiff, Nat.reduceAdd, Nat.reduceSub])
    (fun _ => rfl)
    (by
      change Instr.fadd _ _ _ _ = _
      simp only [extract_wordOf, partOf_put, partOf_put_zero, Nat.reduceLeDiff, Nat.reduceAdd, Nat.reduceSub])

theorem fsub (d a b f) : Statement (.fsub d a b f) :=
  ofOp (op := .fsub) (n := 0 |> put 13#6 |> put d |> put a |> put b |> put 1#5 |> put f |> put 0#4) rfl
    (fun _ => by simp [opOf, opFop, extract_wordOf, partOf_put, partOf_put_zero, Nat.reduceLeDiff, Nat.reduceAdd, Nat.reduceSub])
    (fun _ => rfl)
    (by
      change Instr.fsub _ _ _ _ = _
      simp only [extract_wordOf, partOf_put, partOf_put_zero, Nat.reduceLeDiff, Nat.reduceAdd, Nat.reduceSub])

theorem fmul (d a b f) : Statement (.fmul d a b f) :=
  ofOp (op := .fmul) (n := 0 |> put 13#6 |> put d |> put a |> put b |> put 2#5 |> put f |> put 0#4) rfl
    (fun _ => by simp [opOf, opFop, extract_wordOf, partOf_put, partOf_put_zero, Nat.reduceLeDiff, Nat.reduceAdd, Nat.reduceSub])
    (fun _ => rfl)
    (by
      change Instr.fmul _ _ _ _ = _
      simp only [extract_wordOf, partOf_put, partOf_put_zero, Nat.reduceLeDiff, Nat.reduceAdd, Nat.reduceSub])

theorem fdiv (d a b f) : Statement (.fdiv d a b f) :=
  ofOp (op := .fdiv) (n := 0 |> put 13#6 |> put d |> put a |> put b |> put 3#5 |> put f |> put 0#4) rfl
    (fun _ => by simp [opOf, opFop, extract_wordOf, partOf_put, partOf_put_zero, Nat.reduceLeDiff, Nat.reduceAdd, Nat.reduceSub])
    (fun _ => rfl)
    (by
      change Instr.fdiv _ _ _ _ = _
      simp only [extract_wordOf, partOf_put, partOf_put_zero, Nat.reduceLeDiff, Nat.reduceAdd, Nat.reduceSub])

theorem fsqrt (d a f) : Statement (.fsqrt d a f) :=
  ofOp (op := .fsqrt) (n := 0 |> put 13#6 |> put d |> put a |> put 0#5 |> put 4#5 |> put f |> put 0#4) rfl
    (fun _ => by simp [opOf, opFop, extract_wordOf, partOf_put, partOf_put_zero, Nat.reduceLeDiff, Nat.reduceAdd, Nat.reduceSub])
    (fun _ => rfl)
    (by
      change Instr.fsqrt _ _ _ = _
      simp only [extract_wordOf, partOf_put, partOf_put_zero, Nat.reduceLeDiff, Nat.reduceAdd, Nat.reduceSub])

theorem fmin (d a b f) : Statement (.fmin d a b f) :=
  ofOp (op := .fmin) (n := 0 |> put 13#6 |> put d |> put a |> put b |> put 5#5 |> put f |> put 0#4) rfl
    (fun _ => by simp [opOf, opFop, extract_wordOf, partOf_put, partOf_put_zero, Nat.reduceLeDiff, Nat.reduceAdd, Nat.reduceSub])
    (fun _ => rfl)
    (by
      change Instr.fmin _ _ _ _ = _
      simp only [extract_wordOf, partOf_put, partOf_put_zero, Nat.reduceLeDiff, Nat.reduceAdd, Nat.reduceSub])

theorem fmax (d a b f) : Statement (.fmax d a b f) :=
  ofOp (op := .fmax) (n := 0 |> put 13#6 |> put d |> put a |> put b |> put 6#5 |> put f |> put 0#4) rfl
    (fun _ => by simp [opOf, opFop, extract_wordOf, partOf_put, partOf_put_zero, Nat.reduceLeDiff, Nat.reduceAdd, Nat.reduceSub])
    (fun _ => rfl)
    (by
      change Instr.fmax _ _ _ _ = _
      simp only [extract_wordOf, partOf_put, partOf_put_zero, Nat.reduceLeDiff, Nat.reduceAdd, Nat.reduceSub])

theorem fmacc (d a b f) : Statement (.fmacc d a b f) :=
  ofOp (op := .fmacc) (n := 0 |> put 13#6 |> put d |> put a |> put b |> put 7#5 |> put f |> put 0#4) rfl
    (fun _ => by simp [opOf, opFop, extract_wordOf, partOf_put, partOf_put_zero, Nat.reduceLeDiff, Nat.reduceAdd, Nat.reduceSub])
    (fun _ => rfl)
    (by
      change Instr.fmacc _ _ _ _ = _
      simp only [extract_wordOf, partOf_put, partOf_put_zero, Nat.reduceLeDiff, Nat.reduceAdd, Nat.reduceSub])

theorem fsgnj (d a b f) : Statement (.fsgnj d a b f) :=
  ofOp (op := .fsgnj) (n := 0 |> put 13#6 |> put d |> put a |> put b |> put 8#5 |> put f |> put 0#4) rfl
    (fun _ => by simp [opOf, opFop, extract_wordOf, partOf_put, partOf_put_zero, Nat.reduceLeDiff, Nat.reduceAdd, Nat.reduceSub])
    (fun _ => rfl)
    (by
      change Instr.fsgnj _ _ _ _ = _
      simp only [extract_wordOf, partOf_put, partOf_put_zero, Nat.reduceLeDiff, Nat.reduceAdd, Nat.reduceSub])

theorem fsgnjn (d a b f) : Statement (.fsgnjn d a b f) :=
  ofOp (op := .fsgnjn) (n := 0 |> put 13#6 |> put d |> put a |> put b |> put 9#5 |> put f |> put 0#4) rfl
    (fun _ => by simp [opOf, opFop, extract_wordOf, partOf_put, partOf_put_zero, Nat.reduceLeDiff, Nat.reduceAdd, Nat.reduceSub])
    (fun _ => rfl)
    (by
      change Instr.fsgnjn _ _ _ _ = _
      simp only [extract_wordOf, partOf_put, partOf_put_zero, Nat.reduceLeDiff, Nat.reduceAdd, Nat.reduceSub])

theorem fsgnjx (d a b f) : Statement (.fsgnjx d a b f) :=
  ofOp (op := .fsgnjx) (n := 0 |> put 13#6 |> put d |> put a |> put b |> put 10#5 |> put f |> put 0#4) rfl
    (fun _ => by simp [opOf, opFop, extract_wordOf, partOf_put, partOf_put_zero, Nat.reduceLeDiff, Nat.reduceAdd, Nat.reduceSub])
    (fun _ => rfl)
    (by
      change Instr.fsgnjx _ _ _ _ = _
      simp only [extract_wordOf, partOf_put, partOf_put_zero, Nat.reduceLeDiff, Nat.reduceAdd, Nat.reduceSub])

theorem feq (d a b f) : Statement (.feq d a b f) :=
  ofOp (op := .feq) (n := 0 |> put 13#6 |> put d |> put a |> put b |> put 11#5 |> put f |> put 0#4) rfl
    (fun _ => by simp [opOf, opFop, extract_wordOf, partOf_put, partOf_put_zero, Nat.reduceLeDiff, Nat.reduceAdd, Nat.reduceSub])
    (fun _ => rfl)
    (by
      change Instr.feq _ _ _ _ = _
      simp only [extract_wordOf, partOf_put, partOf_put_zero, Nat.reduceLeDiff, Nat.reduceAdd, Nat.reduceSub])

theorem flt (d a b f) : Statement (.flt d a b f) :=
  ofOp (op := .flt) (n := 0 |> put 13#6 |> put d |> put a |> put b |> put 12#5 |> put f |> put 0#4) rfl
    (fun _ => by simp [opOf, opFop, extract_wordOf, partOf_put, partOf_put_zero, Nat.reduceLeDiff, Nat.reduceAdd, Nat.reduceSub])
    (fun _ => rfl)
    (by
      change Instr.flt _ _ _ _ = _
      simp only [extract_wordOf, partOf_put, partOf_put_zero, Nat.reduceLeDiff, Nat.reduceAdd, Nat.reduceSub])

theorem fle (d a b f) : Statement (.fle d a b f) :=
  ofOp (op := .fle) (n := 0 |> put 13#6 |> put d |> put a |> put b |> put 13#5 |> put f |> put 0#4) rfl
    (fun _ => by simp [opOf, opFop, extract_wordOf, partOf_put, partOf_put_zero, Nat.reduceLeDiff, Nat.reduceAdd, Nat.reduceSub])
    (fun _ => rfl)
    (by
      change Instr.fle _ _ _ _ = _
      simp only [extract_wordOf, partOf_put, partOf_put_zero, Nat.reduceLeDiff, Nat.reduceAdd, Nat.reduceSub])

theorem fkind (d a f) : Statement (.fkind d a f) :=
  ofOp (op := .fkind) (n := 0 |> put 13#6 |> put d |> put a |> put 0#5 |> put 14#5 |> put f |> put 0#4) rfl
    (fun _ => by simp [opOf, opFop, extract_wordOf, partOf_put, partOf_put_zero, Nat.reduceLeDiff, Nat.reduceAdd, Nat.reduceSub])
    (fun _ => rfl)
    (by
      change Instr.fkind _ _ _ = _
      simp only [extract_wordOf, partOf_put, partOf_put_zero, Nat.reduceLeDiff, Nat.reduceAdd, Nat.reduceSub])

theorem fcvtF (d a f s) : Statement (.fcvtF d a f s) :=
  ofOp (op := .fcvtF) (n := 0 |> put 13#6 |> put d |> put a |> put 0#5 |> put 15#5 |> put f |> put 0#2 |> put s) rfl
    (fun _ => by simp [opOf, opFop, extract_wordOf, partOf_put, partOf_put_zero, Nat.reduceLeDiff, Nat.reduceAdd, Nat.reduceSub])
    (fun _ => rfl)
    (by
      change Instr.fcvtF _ _ _ _ = _
      simp only [extract_wordOf, partOf_put, partOf_put_zero, Nat.reduceLeDiff, Nat.reduceAdd, Nat.reduceSub])

theorem fcvtI (d a f) : Statement (.fcvtI d a f) :=
  ofOp (op := .fcvtI) (n := 0 |> put 13#6 |> put d |> put a |> put 0#5 |> put 16#5 |> put f |> put 0#4) rfl
    (fun _ => by simp [opOf, opFop, extract_wordOf, partOf_put, partOf_put_zero, Nat.reduceLeDiff, Nat.reduceAdd, Nat.reduceSub])
    (fun _ => rfl)
    (by
      change Instr.fcvtI _ _ _ = _
      simp only [extract_wordOf, partOf_put, partOf_put_zero, Nat.reduceLeDiff, Nat.reduceAdd, Nat.reduceSub])

theorem fcvtIRtz (d a f) : Statement (.fcvtIRtz d a f) :=
  ofOp (op := .fcvtIRtz) (n := 0 |> put 13#6 |> put d |> put a |> put 0#5 |> put 16#5 |> put f |> put 1#4) rfl
    (fun _ => by simp [opOf, opFop, extract_wordOf, partOf_put, partOf_put_zero, Nat.reduceLeDiff, Nat.reduceAdd, Nat.reduceSub])
    (fun _ => rfl)
    (by
      change Instr.fcvtIRtz _ _ _ = _
      simp only [extract_wordOf, partOf_put, partOf_put_zero, Nat.reduceLeDiff, Nat.reduceAdd, Nat.reduceSub])

theorem fcvtIu (d a f) : Statement (.fcvtIu d a f) :=
  ofOp (op := .fcvtIu) (n := 0 |> put 13#6 |> put d |> put a |> put 0#5 |> put 16#5 |> put f |> put 2#4) rfl
    (fun _ => by simp [opOf, opFop, extract_wordOf, partOf_put, partOf_put_zero, Nat.reduceLeDiff, Nat.reduceAdd, Nat.reduceSub])
    (fun _ => rfl)
    (by
      change Instr.fcvtIu _ _ _ = _
      simp only [extract_wordOf, partOf_put, partOf_put_zero, Nat.reduceLeDiff, Nat.reduceAdd, Nat.reduceSub])

theorem fcvtIuRtz (d a f) : Statement (.fcvtIuRtz d a f) :=
  ofOp (op := .fcvtIuRtz) (n := 0 |> put 13#6 |> put d |> put a |> put 0#5 |> put 16#5 |> put f |> put 3#4) rfl
    (fun _ => by simp [opOf, opFop, extract_wordOf, partOf_put, partOf_put_zero, Nat.reduceLeDiff, Nat.reduceAdd, Nat.reduceSub])
    (fun _ => rfl)
    (by
      change Instr.fcvtIuRtz _ _ _ = _
      simp only [extract_wordOf, partOf_put, partOf_put_zero, Nat.reduceLeDiff, Nat.reduceAdd, Nat.reduceSub])

theorem fcvtFi (d a f) : Statement (.fcvtFi d a f) :=
  ofOp (op := .fcvtFi) (n := 0 |> put 13#6 |> put d |> put a |> put 0#5 |> put 17#5 |> put f |> put 0#4) rfl
    (fun _ => by simp [opOf, opFop, extract_wordOf, partOf_put, partOf_put_zero, Nat.reduceLeDiff, Nat.reduceAdd, Nat.reduceSub])
    (fun _ => rfl)
    (by
      change Instr.fcvtFi _ _ _ = _
      simp only [extract_wordOf, partOf_put, partOf_put_zero, Nat.reduceLeDiff, Nat.reduceAdd, Nat.reduceSub])

theorem fcvtFiu (d a f) : Statement (.fcvtFiu d a f) :=
  ofOp (op := .fcvtFiu) (n := 0 |> put 13#6 |> put d |> put a |> put 0#5 |> put 17#5 |> put f |> put 2#4) rfl
    (fun _ => by simp [opOf, opFop, extract_wordOf, partOf_put, partOf_put_zero, Nat.reduceLeDiff, Nat.reduceAdd, Nat.reduceSub])
    (fun _ => rfl)
    (by
      change Instr.fcvtFiu _ _ _ = _
      simp only [extract_wordOf, partOf_put, partOf_put_zero, Nat.reduceLeDiff, Nat.reduceAdd, Nat.reduceSub])

theorem beq (a b o) : Statement (.beq a b o) :=
  ofOp (op := .beq) (n := 0 |> put 14#6 |> put a |> put b |> put 0#3 |> put o) rfl
    (fun _ => by simp [opOf, opBr, extract_wordOf, partOf_put, partOf_put_zero, Nat.reduceLeDiff, Nat.reduceAdd, Nat.reduceSub])
    (fun _ => rfl)
    (by
      change Instr.beq _ _ _ = _
      simp only [extract_wordOf, partOf_put, partOf_put_zero, Nat.reduceLeDiff, Nat.reduceAdd, Nat.reduceSub])

theorem bne (a b o) : Statement (.bne a b o) :=
  ofOp (op := .bne) (n := 0 |> put 14#6 |> put a |> put b |> put 1#3 |> put o) rfl
    (fun _ => by simp [opOf, opBr, extract_wordOf, partOf_put, partOf_put_zero, Nat.reduceLeDiff, Nat.reduceAdd, Nat.reduceSub])
    (fun _ => rfl)
    (by
      change Instr.bne _ _ _ = _
      simp only [extract_wordOf, partOf_put, partOf_put_zero, Nat.reduceLeDiff, Nat.reduceAdd, Nat.reduceSub])

theorem blt (a b o) : Statement (.blt a b o) :=
  ofOp (op := .blt) (n := 0 |> put 14#6 |> put a |> put b |> put 2#3 |> put o) rfl
    (fun _ => by simp [opOf, opBr, extract_wordOf, partOf_put, partOf_put_zero, Nat.reduceLeDiff, Nat.reduceAdd, Nat.reduceSub])
    (fun _ => rfl)
    (by
      change Instr.blt _ _ _ = _
      simp only [extract_wordOf, partOf_put, partOf_put_zero, Nat.reduceLeDiff, Nat.reduceAdd, Nat.reduceSub])

theorem bge (a b o) : Statement (.bge a b o) :=
  ofOp (op := .bge) (n := 0 |> put 14#6 |> put a |> put b |> put 3#3 |> put o) rfl
    (fun _ => by simp [opOf, opBr, extract_wordOf, partOf_put, partOf_put_zero, Nat.reduceLeDiff, Nat.reduceAdd, Nat.reduceSub])
    (fun _ => rfl)
    (by
      change Instr.bge _ _ _ = _
      simp only [extract_wordOf, partOf_put, partOf_put_zero, Nat.reduceLeDiff, Nat.reduceAdd, Nat.reduceSub])

theorem bltu (a b o) : Statement (.bltu a b o) :=
  ofOp (op := .bltu) (n := 0 |> put 14#6 |> put a |> put b |> put 4#3 |> put o) rfl
    (fun _ => by simp [opOf, opBr, extract_wordOf, partOf_put, partOf_put_zero, Nat.reduceLeDiff, Nat.reduceAdd, Nat.reduceSub])
    (fun _ => rfl)
    (by
      change Instr.bltu _ _ _ = _
      simp only [extract_wordOf, partOf_put, partOf_put_zero, Nat.reduceLeDiff, Nat.reduceAdd, Nat.reduceSub])

theorem bgeu (a b o) : Statement (.bgeu a b o) :=
  ofOp (op := .bgeu) (n := 0 |> put 14#6 |> put a |> put b |> put 5#3 |> put o) rfl
    (fun _ => by simp [opOf, opBr, extract_wordOf, partOf_put, partOf_put_zero, Nat.reduceLeDiff, Nat.reduceAdd, Nat.reduceSub])
    (fun _ => rfl)
    (by
      change Instr.bgeu _ _ _ = _
      simp only [extract_wordOf, partOf_put, partOf_put_zero, Nat.reduceLeDiff, Nat.reduceAdd, Nat.reduceSub])

theorem jal (d o) : Statement (.jal d o) :=
  ofOp (op := .jal) (n := 0 |> put 15#6 |> put d |> put o) rfl
    (fun _ => by simp [opOf, extract_wordOf, partOf_put, partOf_put_zero, Nat.reduceLeDiff, Nat.reduceAdd, Nat.reduceSub])
    (fun _ => rfl)
    (by
      change Instr.jal _ _ = _
      simp only [extract_wordOf, partOf_put, partOf_put_zero, Nat.reduceLeDiff, Nat.reduceAdd, Nat.reduceSub])

theorem jalr (d a i) : Statement (.jalr d a i) :=
  ofOp (op := .jalr) (n := 0 |> put 16#6 |> put d |> put a |> put i) rfl
    (fun _ => by simp [opOf, extract_wordOf, partOf_put, partOf_put_zero, Nat.reduceLeDiff, Nat.reduceAdd, Nat.reduceSub])
    (fun _ => rfl)
    (by
      change Instr.jalr _ _ _ = _
      simp only [extract_wordOf, partOf_put, partOf_put_zero, Nat.reduceLeDiff, Nat.reduceAdd, Nat.reduceSub])

theorem sptest (d a) : Statement (.sptest d a) :=
  ofOp (op := .sptest) (n := 0 |> put 17#6 |> put d |> put a |> put 0#5 |> put 0#3 |> put 0#8) rfl
    (fun _ => by simp [opOf, opSpace, extract_wordOf, partOf_put, partOf_put_zero, Nat.reduceLeDiff, Nat.reduceAdd, Nat.reduceSub])
    (fun _ => rfl)
    (by
      change Instr.sptest _ _ = _
      simp only [extract_wordOf, partOf_put, partOf_put_zero, Nat.reduceLeDiff, Nat.reduceAdd, Nat.reduceSub])

theorem spcastChk (d a w) : Statement (.spcastChk d a w) :=
  ofOp (op := .spcastChk) (n := 0 |> put 17#6 |> put d |> put a |> put 0#5 |> put 1#3 |> put 0#2 |> put w |> put 0#4) rfl
    (fun _ => by simp [opOf, opSpace, extract_wordOf, partOf_put, partOf_put_zero, Nat.reduceLeDiff, Nat.reduceAdd, Nat.reduceSub])
    (fun _ => rfl)
    (by
      change Instr.spcastChk _ _ _ = _
      simp only [extract_wordOf, partOf_put, partOf_put_zero, Nat.reduceLeDiff, Nat.reduceAdd, Nat.reduceSub])

theorem spcastMk (d a w) : Statement (.spcastMk d a w) :=
  ofOp (op := .spcastMk) (n := 0 |> put 17#6 |> put d |> put a |> put 0#5 |> put 2#3 |> put 0#2 |> put w |> put 0#4) rfl
    (fun _ => by simp [opOf, opSpace, extract_wordOf, partOf_put, partOf_put_zero, Nat.reduceLeDiff, Nat.reduceAdd, Nat.reduceSub])
    (fun _ => rfl)
    (by
      change Instr.spcastMk _ _ _ = _
      simp only [extract_wordOf, partOf_put, partOf_put_zero, Nat.reduceLeDiff, Nat.reduceAdd, Nat.reduceSub])

theorem spcastOff (d a w) : Statement (.spcastOff d a w) :=
  ofOp (op := .spcastOff) (n := 0 |> put 17#6 |> put d |> put a |> put 0#5 |> put 3#3 |> put 0#2 |> put w |> put 0#4) rfl
    (fun _ => by simp [opOf, opSpace, extract_wordOf, partOf_put, partOf_put_zero, Nat.reduceLeDiff, Nat.reduceAdd, Nat.reduceSub])
    (fun _ => rfl)
    (by
      change Instr.spcastOff _ _ _ = _
      simp only [extract_wordOf, partOf_put, partOf_put_zero, Nat.reduceLeDiff, Nat.reduceAdd, Nat.reduceSub])

theorem vrun (d a) : Statement (.vrun d a) :=
  ofOp (op := .vrun) (n := 0 |> put 18#6 |> put d |> put a |> put 0#5 |> put 0#4 |> put 0#7) rfl
    (fun _ => by simp [opOf, opVctl, extract_wordOf, partOf_put, partOf_put_zero, Nat.reduceLeDiff, Nat.reduceAdd, Nat.reduceSub])
    (fun _ => rfl)
    (by
      change Instr.vrun _ _ = _
      simp only [extract_wordOf, partOf_put, partOf_put_zero, Nat.reduceLeDiff, Nat.reduceAdd, Nat.reduceSub])

theorem rqpop (d t r) : Statement (.rqpop d t r) :=
  ofOp (op := .rqpop) (n := 0 |> put 18#6 |> put d |> put 0#5 |> put t |> put 1#4 |> put r |> put 0#6) rfl
    (fun _ => by simp [opOf, opVctl, extract_wordOf, partOf_put, partOf_put_zero, Nat.reduceLeDiff, Nat.reduceAdd, Nat.reduceSub])
    (fun _ => rfl)
    (by
      change Instr.rqpop _ _ _ = _
      simp only [extract_wordOf, partOf_put, partOf_put_zero, Nat.reduceLeDiff, Nat.reduceAdd, Nat.reduceSub])

theorem vsync (d t r) : Statement (.vsync d t r) :=
  ofOp (op := .vsync) (n := 0 |> put 18#6 |> put d |> put 0#5 |> put t |> put 2#4 |> put r |> put 0#6) rfl
    (fun _ => by simp [opOf, opVctl, extract_wordOf, partOf_put, partOf_put_zero, Nat.reduceLeDiff, Nat.reduceAdd, Nat.reduceSub])
    (fun _ => rfl)
    (by
      change Instr.vsync _ _ _ = _
      simp only [extract_wordOf, partOf_put, partOf_put_zero, Nat.reduceLeDiff, Nat.reduceAdd, Nat.reduceSub])

theorem vrel (d) : Statement (.vrel d) :=
  ofOp (op := .vrel) (n := 0 |> put 18#6 |> put d |> put 0#10 |> put 3#4 |> put 0#7) rfl
    (fun _ => by simp [opOf, opVctl, extract_wordOf, partOf_put, partOf_put_zero, Nat.reduceLeDiff, Nat.reduceAdd, Nat.reduceSub])
    (fun _ => rfl)
    (by
      change Instr.vrel _ = _
      simp only [extract_wordOf, partOf_put, partOf_put_zero, Nat.reduceLeDiff, Nat.reduceAdd, Nat.reduceSub])

theorem spawn (d a) : Statement (.spawn d a) :=
  ofOp (op := .spawn) (n := 0 |> put 19#6 |> put d |> put a |> put 0#5 |> put 0#11) rfl
    (fun _ => by simp [opOf, opHart, extract_wordOf, partOf_put, partOf_put_zero, Nat.reduceLeDiff, Nat.reduceAdd, Nat.reduceSub])
    (fun _ => rfl)
    (by
      change Instr.spawn _ _ = _
      simp only [extract_wordOf, partOf_put, partOf_put_zero, Nat.reduceLeDiff, Nat.reduceAdd, Nat.reduceSub])

theorem exit : Statement (.exit) :=
  ofOp (op := .exit) (n := 0 |> put 19#6 |> put 0#15 |> put 1#11) rfl
    (fun _ => by simp [opOf, opHart, extract_wordOf, partOf_put, partOf_put_zero, Nat.reduceLeDiff, Nat.reduceAdd, Nat.reduceSub])
    (fun _ => rfl)
    rfl

theorem onewSwarm (d a) : Statement (.onewSwarm d a) :=
  ofOp (op := .onewSwarm) (n := 0 |> put 20#6 |> put d |> put a |> put 0#5 |> put 0#4 |> put 0#1 |> put 0#6) rfl
    (fun _ => by simp [opOf, opWait, extract_wordOf, partOf_put, partOf_put_zero, Nat.reduceLeDiff, Nat.reduceAdd, Nat.reduceSub])
    (fun _ => rfl)
    (by
      change Instr.onewSwarm _ _ = _
      simp only [extract_wordOf, partOf_put, partOf_put_zero, Nat.reduceLeDiff, Nat.reduceAdd, Nat.reduceSub])

theorem onewLatch (d a) : Statement (.onewLatch d a) :=
  ofOp (op := .onewLatch) (n := 0 |> put 20#6 |> put d |> put a |> put 0#5 |> put 0#4 |> put 0#1 |> put 1#6) rfl
    (fun _ => by simp [opOf, opWait, extract_wordOf, partOf_put, partOf_put_zero, Nat.reduceLeDiff, Nat.reduceAdd, Nat.reduceSub])
    (fun _ => rfl)
    (by
      change Instr.onewLatch _ _ = _
      simp only [extract_wordOf, partOf_put, partOf_put_zero, Nat.reduceLeDiff, Nat.reduceAdd, Nat.reduceSub])

theorem onewChan (d a) : Statement (.onewChan d a) :=
  ofOp (op := .onewChan) (n := 0 |> put 20#6 |> put d |> put a |> put 0#5 |> put 0#4 |> put 0#1 |> put 2#6) rfl
    (fun _ => by simp [opOf, opWait, extract_wordOf, partOf_put, partOf_put_zero, Nat.reduceLeDiff, Nat.reduceAdd, Nat.reduceSub])
    (fun _ => rfl)
    (by
      change Instr.onewChan _ _ = _
      simp only [extract_wordOf, partOf_put, partOf_put_zero, Nat.reduceLeDiff, Nat.reduceAdd, Nat.reduceSub])

theorem ofree (d a) : Statement (.ofree d a) :=
  ofOp (op := .ofree) (n := 0 |> put 20#6 |> put d |> put a |> put 0#5 |> put 1#4 |> put 0#1 |> put 0#6) rfl
    (fun _ => by simp [opOf, opWait, extract_wordOf, partOf_put, partOf_put_zero, Nat.reduceLeDiff, Nat.reduceAdd, Nat.reduceSub])
    (fun _ => rfl)
    (by
      change Instr.ofree _ _ = _
      simp only [extract_wordOf, partOf_put, partOf_put_zero, Nat.reduceLeDiff, Nat.reduceAdd, Nat.reduceSub])

theorem swjoin (d a t r) : Statement (.swjoin d a t r) :=
  ofOp (op := .swjoin) (n := 0 |> put 20#6 |> put d |> put a |> put t |> put 2#4 |> put r |> put 0#6) rfl
    (fun _ => by simp [opOf, opWait, extract_wordOf, partOf_put, partOf_put_zero, Nat.reduceLeDiff, Nat.reduceAdd, Nat.reduceSub])
    (fun _ => rfl)
    (by
      change Instr.swjoin _ _ _ _ = _
      simp only [extract_wordOf, partOf_put, partOf_put_zero, Nat.reduceLeDiff, Nat.reduceAdd, Nat.reduceSub])

theorem swleave (d a) : Statement (.swleave d a) :=
  ofOp (op := .swleave) (n := 0 |> put 20#6 |> put d |> put a |> put 0#5 |> put 3#4 |> put 0#1 |> put 0#6) rfl
    (fun _ => by simp [opOf, opWait, extract_wordOf, partOf_put, partOf_put_zero, Nat.reduceLeDiff, Nat.reduceAdd, Nat.reduceSub])
    (fun _ => rfl)
    (by
      change Instr.swleave _ _ = _
      simp only [extract_wordOf, partOf_put, partOf_put_zero, Nat.reduceLeDiff, Nat.reduceAdd, Nat.reduceSub])

theorem swbar (d a t r) : Statement (.swbar d a t r) :=
  ofOp (op := .swbar) (n := 0 |> put 20#6 |> put d |> put a |> put t |> put 4#4 |> put r |> put 0#6) rfl
    (fun _ => by simp [opOf, opWait, extract_wordOf, partOf_put, partOf_put_zero, Nat.reduceLeDiff, Nat.reduceAdd, Nat.reduceSub])
    (fun _ => rfl)
    (by
      change Instr.swbar _ _ _ _ = _
      simp only [extract_wordOf, partOf_put, partOf_put_zero, Nat.reduceLeDiff, Nat.reduceAdd, Nat.reduceSub])

theorem step (d a t r) : Statement (.step d a t r) :=
  ofOp (op := .step) (n := 0 |> put 20#6 |> put d |> put a |> put t |> put 5#4 |> put r |> put 0#6) rfl
    (fun _ => by simp [opOf, opWait, extract_wordOf, partOf_put, partOf_put_zero, Nat.reduceLeDiff, Nat.reduceAdd, Nat.reduceSub])
    (fun _ => rfl)
    (by
      change Instr.step _ _ _ _ = _
      simp only [extract_wordOf, partOf_put, partOf_put_zero, Nat.reduceLeDiff, Nat.reduceAdd, Nat.reduceSub])

theorem acq (d a t r) : Statement (.acq d a t r) :=
  ofOp (op := .acq) (n := 0 |> put 20#6 |> put d |> put a |> put t |> put 6#4 |> put r |> put 0#6) rfl
    (fun _ => by simp [opOf, opWait, extract_wordOf, partOf_put, partOf_put_zero, Nat.reduceLeDiff, Nat.reduceAdd, Nat.reduceSub])
    (fun _ => rfl)
    (by
      change Instr.acq _ _ _ _ = _
      simp only [extract_wordOf, partOf_put, partOf_put_zero, Nat.reduceLeDiff, Nat.reduceAdd, Nat.reduceSub])

theorem rel (d a) : Statement (.rel d a) :=
  ofOp (op := .rel) (n := 0 |> put 20#6 |> put d |> put a |> put 0#5 |> put 7#4 |> put 0#1 |> put 0#6) rfl
    (fun _ => by simp [opOf, opWait, extract_wordOf, partOf_put, partOf_put_zero, Nat.reduceLeDiff, Nat.reduceAdd, Nat.reduceSub])
    (fun _ => rfl)
    (by
      change Instr.rel _ _ = _
      simp only [extract_wordOf, partOf_put, partOf_put_zero, Nat.reduceLeDiff, Nat.reduceAdd, Nat.reduceSub])

theorem mend (d a) : Statement (.mend d a) :=
  ofOp (op := .mend) (n := 0 |> put 20#6 |> put d |> put a |> put 0#5 |> put 8#4 |> put 0#1 |> put 0#6) rfl
    (fun _ => by simp [opOf, opWait, extract_wordOf, partOf_put, partOf_put_zero, Nat.reduceLeDiff, Nat.reduceAdd, Nat.reduceSub])
    (fun _ => rfl)
    (by
      change Instr.mend _ _ = _
      simp only [extract_wordOf, partOf_put, partOf_put_zero, Nat.reduceLeDiff, Nat.reduceAdd, Nat.reduceSub])

theorem adopt (d a) : Statement (.adopt d a) :=
  ofOp (op := .adopt) (n := 0 |> put 20#6 |> put d |> put a |> put 0#5 |> put 9#4 |> put 0#1 |> put 0#6) rfl
    (fun _ => by simp [opOf, opWait, extract_wordOf, partOf_put, partOf_put_zero, Nat.reduceLeDiff, Nat.reduceAdd, Nat.reduceSub])
    (fun _ => rfl)
    (by
      change Instr.adopt _ _ = _
      simp only [extract_wordOf, partOf_put, partOf_put_zero, Nat.reduceLeDiff, Nat.reduceAdd, Nat.reduceSub])

theorem send (d a t r) : Statement (.send d a t r) :=
  ofOp (op := .send) (n := 0 |> put 20#6 |> put d |> put a |> put t |> put 10#4 |> put r |> put 0#6) rfl
    (fun _ => by simp [opOf, opWait, extract_wordOf, partOf_put, partOf_put_zero, Nat.reduceLeDiff, Nat.reduceAdd, Nat.reduceSub])
    (fun _ => rfl)
    (by
      change Instr.send _ _ _ _ = _
      simp only [extract_wordOf, partOf_put, partOf_put_zero, Nat.reduceLeDiff, Nat.reduceAdd, Nat.reduceSub])

theorem recv (d a t r) : Statement (.recv d a t r) :=
  ofOp (op := .recv) (n := 0 |> put 20#6 |> put d |> put a |> put t |> put 11#4 |> put r |> put 0#6) rfl
    (fun _ => by simp [opOf, opWait, extract_wordOf, partOf_put, partOf_put_zero, Nat.reduceLeDiff, Nat.reduceAdd, Nat.reduceSub])
    (fun _ => rfl)
    (by
      change Instr.recv _ _ _ _ = _
      simp only [extract_wordOf, partOf_put, partOf_put_zero, Nat.reduceLeDiff, Nat.reduceAdd, Nat.reduceSub])

theorem nap (d t r) : Statement (.nap d t r) :=
  ofOp (op := .nap) (n := 0 |> put 20#6 |> put d |> put 0#5 |> put t |> put 12#4 |> put r |> put 0#6) rfl
    (fun _ => by simp [opOf, opWait, extract_wordOf, partOf_put, partOf_put_zero, Nat.reduceLeDiff, Nat.reduceAdd, Nat.reduceSub])
    (fun _ => rfl)
    (by
      change Instr.nap _ _ _ = _
      simp only [extract_wordOf, partOf_put, partOf_put_zero, Nat.reduceLeDiff, Nat.reduceAdd, Nat.reduceSub])

theorem eleaseCopy (d a t r) : Statement (.eleaseCopy d a t r) :=
  ofOp (op := .eleaseCopy) (n := 0 |> put 21#6 |> put d |> put a |> put t |> put 0#4 |> put r |> put 0#6) rfl
    (fun _ => by simp [opOf, opEng, extract_wordOf, partOf_put, partOf_put_zero, Nat.reduceLeDiff, Nat.reduceAdd, Nat.reduceSub])
    (fun _ => rfl)
    (by
      change Instr.eleaseCopy _ _ _ _ = _
      simp only [extract_wordOf, partOf_put, partOf_put_zero, Nat.reduceLeDiff, Nat.reduceAdd, Nat.reduceSub])

theorem eleaseComp (d a t r) : Statement (.eleaseComp d a t r) :=
  ofOp (op := .eleaseComp) (n := 0 |> put 21#6 |> put d |> put a |> put t |> put 0#4 |> put r |> put 1#6) rfl
    (fun _ => by simp [opOf, opEng, extract_wordOf, partOf_put, partOf_put_zero, Nat.reduceLeDiff, Nat.reduceAdd, Nat.reduceSub])
    (fun _ => rfl)
    (by
      change Instr.eleaseComp _ _ _ _ = _
      simp only [extract_wordOf, partOf_put, partOf_put_zero, Nat.reduceLeDiff, Nat.reduceAdd, Nat.reduceSub])

theorem eleaseColl (d a t r) : Statement (.eleaseColl d a t r) :=
  ofOp (op := .eleaseColl) (n := 0 |> put 21#6 |> put d |> put a |> put t |> put 0#4 |> put r |> put 2#6) rfl
    (fun _ => by simp [opOf, opEng, extract_wordOf, partOf_put, partOf_put_zero, Nat.reduceLeDiff, Nat.reduceAdd, Nat.reduceSub])
    (fun _ => rfl)
    (by
      change Instr.eleaseColl _ _ _ _ = _
      simp only [extract_wordOf, partOf_put, partOf_put_zero, Nat.reduceLeDiff, Nat.reduceAdd, Nat.reduceSub])

theorem eleaseRenew (d a t r) : Statement (.eleaseRenew d a t r) :=
  ofOp (op := .eleaseRenew) (n := 0 |> put 21#6 |> put d |> put a |> put t |> put 0#4 |> put r |> put 4#6) rfl
    (fun _ => by simp [opOf, opEng, extract_wordOf, partOf_put, partOf_put_zero, Nat.reduceLeDiff, Nat.reduceAdd, Nat.reduceSub])
    (fun _ => rfl)
    (by
      change Instr.eleaseRenew _ _ _ _ = _
      simp only [extract_wordOf, partOf_put, partOf_put_zero, Nat.reduceLeDiff, Nat.reduceAdd, Nat.reduceSub])

theorem efree (d a) : Statement (.efree d a) :=
  ofOp (op := .efree) (n := 0 |> put 21#6 |> put d |> put a |> put 0#5 |> put 1#4 |> put 0#1 |> put 0#6) rfl
    (fun _ => by simp [opOf, opEng, extract_wordOf, partOf_put, partOf_put_zero, Nat.reduceLeDiff, Nat.reduceAdd, Nat.reduceSub])
    (fun _ => rfl)
    (by
      change Instr.efree _ _ = _
      simp only [extract_wordOf, partOf_put, partOf_put_zero, Nat.reduceLeDiff, Nat.reduceAdd, Nat.reduceSub])

theorem ecopy (d a t r) : Statement (.ecopy d a t r) :=
  ofOp (op := .ecopy) (n := 0 |> put 21#6 |> put d |> put a |> put t |> put 2#4 |> put r |> put 0#6) rfl
    (fun _ => by simp [opOf, opEng, extract_wordOf, partOf_put, partOf_put_zero, Nat.reduceLeDiff, Nat.reduceAdd, Nat.reduceSub])
    (fun _ => rfl)
    (by
      change Instr.ecopy _ _ _ _ = _
      simp only [extract_wordOf, partOf_put, partOf_put_zero, Nat.reduceLeDiff, Nat.reduceAdd, Nat.reduceSub])

theorem ecopyTfill (d a t r) : Statement (.ecopyTfill d a t r) :=
  ofOp (op := .ecopyTfill) (n := 0 |> put 21#6 |> put d |> put a |> put t |> put 2#4 |> put r |> put 1#6) rfl
    (fun _ => by simp [opOf, opEng, extract_wordOf, partOf_put, partOf_put_zero, Nat.reduceLeDiff, Nat.reduceAdd, Nat.reduceSub])
    (fun _ => rfl)
    (by
      change Instr.ecopyTfill _ _ _ _ = _
      simp only [extract_wordOf, partOf_put, partOf_put_zero, Nat.reduceLeDiff, Nat.reduceAdd, Nat.reduceSub])

theorem ecomp (d a t r) : Statement (.ecomp d a t r) :=
  ofOp (op := .ecomp) (n := 0 |> put 21#6 |> put d |> put a |> put t |> put 3#4 |> put r |> put 0#6) rfl
    (fun _ => by simp [opOf, opEng, extract_wordOf, partOf_put, partOf_put_zero, Nat.reduceLeDiff, Nat.reduceAdd, Nat.reduceSub])
    (fun _ => rfl)
    (by
      change Instr.ecomp _ _ _ _ = _
      simp only [extract_wordOf, partOf_put, partOf_put_zero, Nat.reduceLeDiff, Nat.reduceAdd, Nat.reduceSub])

theorem ecoll (d a t r) : Statement (.ecoll d a t r) :=
  ofOp (op := .ecoll) (n := 0 |> put 21#6 |> put d |> put a |> put t |> put 4#4 |> put r |> put 0#6) rfl
    (fun _ => by simp [opOf, opEng, extract_wordOf, partOf_put, partOf_put_zero, Nat.reduceLeDiff, Nat.reduceAdd, Nat.reduceSub])
    (fun _ => rfl)
    (by
      change Instr.ecoll _ _ _ _ = _
      simp only [extract_wordOf, partOf_put, partOf_put_zero, Nat.reduceLeDiff, Nat.reduceAdd, Nat.reduceSub])

theorem estat (d a) : Statement (.estat d a) :=
  ofOp (op := .estat) (n := 0 |> put 21#6 |> put d |> put a |> put 0#5 |> put 5#4 |> put 0#1 |> put 0#6) rfl
    (fun _ => by simp [opOf, opEng, extract_wordOf, partOf_put, partOf_put_zero, Nat.reduceLeDiff, Nat.reduceAdd, Nat.reduceSub])
    (fun _ => rfl)
    (by
      change Instr.estat _ _ = _
      simp only [extract_wordOf, partOf_put, partOf_put_zero, Nat.reduceLeDiff, Nat.reduceAdd, Nat.reduceSub])

theorem ewait (d a t r) : Statement (.ewait d a t r) :=
  ofOp (op := .ewait) (n := 0 |> put 21#6 |> put d |> put a |> put t |> put 6#4 |> put r |> put 0#6) rfl
    (fun _ => by simp [opOf, opEng, extract_wordOf, partOf_put, partOf_put_zero, Nat.reduceLeDiff, Nat.reduceAdd, Nat.reduceSub])
    (fun _ => rfl)
    (by
      change Instr.ewait _ _ _ _ = _
      simp only [extract_wordOf, partOf_put, partOf_put_zero, Nat.reduceLeDiff, Nat.reduceAdd, Nat.reduceSub])

theorem tstat (d n) : Statement (.tstat d n) :=
  ofOp (op := .tstat) (n := 0 |> put 21#6 |> put d |> put 0#1 |> put n |> put 0#5 |> put 7#4 |> put 0#1 |> put 0#6) rfl
    (fun _ => by simp [opOf, opEng, extract_wordOf, partOf_put, partOf_put_zero, Nat.reduceLeDiff, Nat.reduceAdd, Nat.reduceSub])
    (fun _ => rfl)
    (by
      change Instr.tstat _ _ = _
      simp only [extract_wordOf, partOf_put, partOf_put_zero, Nat.reduceLeDiff, Nat.reduceAdd, Nat.reduceSub])

theorem twait (d n t r) : Statement (.twait d n t r) :=
  ofOp (op := .twait) (n := 0 |> put 21#6 |> put d |> put 0#1 |> put n |> put t |> put 8#4 |> put r |> put 0#6) rfl
    (fun _ => by simp [opOf, opEng, extract_wordOf, partOf_put, partOf_put_zero, Nat.reduceLeDiff, Nat.reduceAdd, Nat.reduceSub])
    (fun _ => rfl)
    (by
      change Instr.twait _ _ _ _ = _
      simp only [extract_wordOf, partOf_put, partOf_put_zero, Nat.reduceLeDiff, Nat.reduceAdd, Nat.reduceSub])

theorem tsetEmpty (d n) : Statement (.tsetEmpty d n) :=
  ofOp (op := .tsetEmpty) (n := 0 |> put 21#6 |> put d |> put 0#1 |> put n |> put 0#5 |> put 9#4 |> put 0#1 |> put 0#6) rfl
    (fun _ => by simp [opOf, opEng, extract_wordOf, partOf_put, partOf_put_zero, Nat.reduceLeDiff, Nat.reduceAdd, Nat.reduceSub])
    (fun _ => rfl)
    (by
      change Instr.tsetEmpty _ _ = _
      simp only [extract_wordOf, partOf_put, partOf_put_zero, Nat.reduceLeDiff, Nat.reduceAdd, Nat.reduceSub])

theorem tsetReady (d n) : Statement (.tsetReady d n) :=
  ofOp (op := .tsetReady) (n := 0 |> put 21#6 |> put d |> put 0#1 |> put n |> put 0#5 |> put 9#4 |> put 0#1 |> put 2#6) rfl
    (fun _ => by simp [opOf, opEng, extract_wordOf, partOf_put, partOf_put_zero, Nat.reduceLeDiff, Nat.reduceAdd, Nat.reduceSub])
    (fun _ => rfl)
    (by
      change Instr.tsetReady _ _ = _
      simp only [extract_wordOf, partOf_put, partOf_put_zero, Nat.reduceLeDiff, Nat.reduceAdd, Nat.reduceSub])

theorem tdrain (d a t r) : Statement (.tdrain d a t r) :=
  ofOp (op := .tdrain) (n := 0 |> put 21#6 |> put d |> put a |> put t |> put 10#4 |> put r |> put 0#6) rfl
    (fun _ => by simp [opOf, opEng, extract_wordOf, partOf_put, partOf_put_zero, Nat.reduceLeDiff, Nat.reduceAdd, Nat.reduceSub])
    (fun _ => rfl)
    (by
      change Instr.tdrain _ _ _ _ = _
      simp only [extract_wordOf, partOf_put, partOf_put_zero, Nat.reduceLeDiff, Nat.reduceAdd, Nat.reduceSub])

theorem fence (s) : Statement (.fence s) :=
  ofOp (op := .fence) (n := 0 |> put 22#6 |> put 0#21 |> put 0#2 |> put s) rfl
    (fun _ => by simp [opOf, opFence, extract_wordOf, partOf_put, partOf_put_zero, Nat.reduceLeDiff, Nat.reduceAdd, Nat.reduceSub])
    (fun hw => by
      change (scopeOk ((wordOf (0 |> put 22#6 |> put 0#21 |> put 0#2 |> put s)).extractLsb' 0 3)) = true
      simp only [extract_wordOf, partOf_put, partOf_put_zero, Nat.reduceLeDiff, Nat.reduceAdd, Nat.reduceSub]
      exact hw)
    (by
      change Instr.fence _ = _
      simp only [extract_wordOf, partOf_put, partOf_put_zero, Nat.reduceLeDiff, Nat.reduceAdd, Nat.reduceSub])

theorem fenceAcq (s) : Statement (.fenceAcq s) :=
  ofOp (op := .fenceAcq) (n := 0 |> put 22#6 |> put 0#21 |> put 1#2 |> put s) rfl
    (fun _ => by simp [opOf, opFence, extract_wordOf, partOf_put, partOf_put_zero, Nat.reduceLeDiff, Nat.reduceAdd, Nat.reduceSub])
    (fun hw => by
      change (scopeOk ((wordOf (0 |> put 22#6 |> put 0#21 |> put 1#2 |> put s)).extractLsb' 0 3)) = true
      simp only [extract_wordOf, partOf_put, partOf_put_zero, Nat.reduceLeDiff, Nat.reduceAdd, Nat.reduceSub]
      exact hw)
    (by
      change Instr.fenceAcq _ = _
      simp only [extract_wordOf, partOf_put, partOf_put_zero, Nat.reduceLeDiff, Nat.reduceAdd, Nat.reduceSub])

theorem fenceRel (s) : Statement (.fenceRel s) :=
  ofOp (op := .fenceRel) (n := 0 |> put 22#6 |> put 0#21 |> put 2#2 |> put s) rfl
    (fun _ => by simp [opOf, opFence, extract_wordOf, partOf_put, partOf_put_zero, Nat.reduceLeDiff, Nat.reduceAdd, Nat.reduceSub])
    (fun hw => by
      change (scopeOk ((wordOf (0 |> put 22#6 |> put 0#21 |> put 2#2 |> put s)).extractLsb' 0 3)) = true
      simp only [extract_wordOf, partOf_put, partOf_put_zero, Nat.reduceLeDiff, Nat.reduceAdd, Nat.reduceSub]
      exact hw)
    (by
      change Instr.fenceRel _ = _
      simp only [extract_wordOf, partOf_put, partOf_put_zero, Nat.reduceLeDiff, Nat.reduceAdd, Nat.reduceSub])

theorem cfgrd (d i) : Statement (.cfgrd d i) :=
  ofOp (op := .cfgrd) (n := 0 |> put 23#6 |> put d |> put 0#5 |> put 0#4 |> put i) rfl
    (fun _ => by simp [opOf, opCfg, extract_wordOf, partOf_put, partOf_put_zero, Nat.reduceLeDiff, Nat.reduceAdd, Nat.reduceSub])
    (fun _ => rfl)
    (by
      change Instr.cfgrd _ _ = _
      simp only [extract_wordOf, partOf_put, partOf_put_zero, Nat.reduceLeDiff, Nat.reduceAdd, Nat.reduceSub])

theorem cfgwr (a i) : Statement (.cfgwr a i) :=
  ofOp (op := .cfgwr) (n := 0 |> put 23#6 |> put 0#5 |> put a |> put 1#4 |> put i) rfl
    (fun _ => by simp [opOf, opCfg, extract_wordOf, partOf_put, partOf_put_zero, Nat.reduceLeDiff, Nat.reduceAdd, Nat.reduceSub])
    (fun _ => rfl)
    (by
      change Instr.cfgwr _ _ = _
      simp only [extract_wordOf, partOf_put, partOf_put_zero, Nat.reduceLeDiff, Nat.reduceAdd, Nat.reduceSub])

theorem trap (c) : Statement (.trap c) :=
  ofOp (op := .trap) (n := 0 |> put 24#6 |> put 0#10 |> put 0#4 |> put c) rfl
    (fun _ => by simp [opOf, opSys, extract_wordOf, partOf_put, partOf_put_zero, Nat.reduceLeDiff, Nat.reduceAdd, Nat.reduceSub])
    (fun _ => rfl)
    (by
      change Instr.trap _ = _
      simp only [extract_wordOf, partOf_put, partOf_put_zero, Nat.reduceLeDiff, Nat.reduceAdd, Nat.reduceSub])

theorem tret : Statement (.tret) :=
  ofOp (op := .tret) (n := 0 |> put 24#6 |> put 0#10 |> put 1#4 |> put 0#12) rfl
    (fun _ => by simp [opOf, opSys, extract_wordOf, partOf_put, partOf_put_zero, Nat.reduceLeDiff, Nat.reduceAdd, Nat.reduceSub])
    (fun _ => rfl)
    rfl

theorem brk (c) : Statement (.brk c) :=
  ofOp (op := .brk) (n := 0 |> put 24#6 |> put 0#10 |> put 2#4 |> put c) rfl
    (fun _ => by simp [opOf, opSys, extract_wordOf, partOf_put, partOf_put_zero, Nat.reduceLeDiff, Nat.reduceAdd, Nat.reduceSub])
    (fun _ => rfl)
    (by
      change Instr.brk _ = _
      simp only [extract_wordOf, partOf_put, partOf_put_zero, Nat.reduceLeDiff, Nat.reduceAdd, Nat.reduceSub])

theorem tmark (a c) : Statement (.tmark a c) :=
  ofOp (op := .tmark) (n := 0 |> put 24#6 |> put 0#5 |> put a |> put 3#4 |> put c) rfl
    (fun _ => by simp [opOf, opSys, extract_wordOf, partOf_put, partOf_put_zero, Nat.reduceLeDiff, Nat.reduceAdd, Nat.reduceSub])
    (fun _ => rfl)
    (by
      change Instr.tmark _ _ = _
      simp only [extract_wordOf, partOf_put, partOf_put_zero, Nat.reduceLeDiff, Nat.reduceAdd, Nat.reduceSub])

theorem cregNew (d a) : Statement (.cregNew d a) :=
  ofOp (op := .cregNew) (n := 0 |> put 25#6 |> put d |> put a |> put 0#5 |> put 0#3 |> put 0#8) rfl
    (fun _ => by simp [opOf, opCreg, extract_wordOf, partOf_put, partOf_put_zero, Nat.reduceLeDiff, Nat.reduceAdd, Nat.reduceSub])
    (fun _ => rfl)
    (by
      change Instr.cregNew _ _ = _
      simp only [extract_wordOf, partOf_put, partOf_put_zero, Nat.reduceLeDiff, Nat.reduceAdd, Nat.reduceSub])

theorem cregFree (d a) : Statement (.cregFree d a) :=
  ofOp (op := .cregFree) (n := 0 |> put 25#6 |> put d |> put a |> put 0#5 |> put 1#3 |> put 0#8) rfl
    (fun _ => by simp [opOf, opCreg, extract_wordOf, partOf_put, partOf_put_zero, Nat.reduceLeDiff, Nat.reduceAdd, Nat.reduceSub])
    (fun _ => rfl)
    (by
      change Instr.cregFree _ _ = _
      simp only [extract_wordOf, partOf_put, partOf_put_zero, Nat.reduceLeDiff, Nat.reduceAdd, Nat.reduceSub])

theorem cregFind (d a) : Statement (.cregFind d a) :=
  ofOp (op := .cregFind) (n := 0 |> put 25#6 |> put d |> put a |> put 0#5 |> put 2#3 |> put 0#8) rfl
    (fun _ => by simp [opOf, opCreg, extract_wordOf, partOf_put, partOf_put_zero, Nat.reduceLeDiff, Nat.reduceAdd, Nat.reduceSub])
    (fun _ => rfl)
    (by
      change Instr.cregFind _ _ = _
      simp only [extract_wordOf, partOf_put, partOf_put_zero, Nat.reduceLeDiff, Nat.reduceAdd, Nat.reduceSub])

theorem vcfg (d n) : Statement (.vcfg d n) :=
  ofOp (op := .vcfg) (n := 0 |> put 26#6 |> put d |> put 0#19 |> put n) rfl
    (fun _ => by simp [opOf, opVcfg, extract_wordOf, partOf_put, partOf_put_zero, Nat.reduceLeDiff, Nat.reduceAdd, Nat.reduceSub])
    (fun _ => rfl)
    (by
      change Instr.vcfg _ _ = _
      simp only [extract_wordOf, partOf_put, partOf_put_zero, Nat.reduceLeDiff, Nat.reduceAdd, Nat.reduceSub])

theorem vsetl (c d a g y s) : Statement (.vsetl c d a g y s) :=
  ofOp (op := .vsetl) (n := 0 |> put 32#6 |> put c |> put 0#2 |> put d |> put a |> put g |> put y |> put 0#1 |> put s |> put 0#1 |> put 0#3) rfl
    (fun _ => by simp [opOf, opVset, extract_wordOf, partOf_put, partOf_put_zero, Nat.reduceLeDiff, Nat.reduceAdd, Nat.reduceSub])
    (fun hw => by
      change (codeOk ((wordOf (0 |> put 32#6 |> put c |> put 0#2 |> put d |> put a |> put g |> put y |> put 0#1 |> put s |> put 0#1 |> put 0#3)).extractLsb' 13 6) && typeOk ((wordOf (0 |> put 32#6 |> put c |> put 0#2 |> put d |> put a |> put g |> put y |> put 0#1 |> put s |> put 0#1 |> put 0#3)).extractLsb' 8 3) ((wordOf (0 |> put 32#6 |> put c |> put 0#2 |> put d |> put a |> put g |> put y |> put 0#1 |> put s |> put 0#1 |> put 0#3)).extractLsb' 4 3)) = true
      simp only [extract_wordOf, partOf_put, partOf_put_zero, Nat.reduceLeDiff, Nat.reduceAdd, Nat.reduceSub]
      exact hw)
    (by
      change Instr.vsetl _ _ _ _ _ _ = _
      simp only [extract_wordOf, partOf_put, partOf_put_zero, Nat.reduceLeDiff, Nat.reduceAdd, Nat.reduceSub])

theorem vsetlMax (c d g y s) : Statement (.vsetlMax c d g y s) :=
  ofOp (op := .vsetlMax) (n := 0 |> put 32#6 |> put c |> put 0#2 |> put d |> put 0#6 |> put g |> put y |> put 0#1 |> put s |> put 1#1 |> put 0#3) rfl
    (fun _ => by simp [opOf, opVset, extract_wordOf, partOf_put, partOf_put_zero, Nat.reduceLeDiff, Nat.reduceAdd, Nat.reduceSub])
    (fun hw => by
      change (typeOk ((wordOf (0 |> put 32#6 |> put c |> put 0#2 |> put d |> put 0#6 |> put g |> put y |> put 0#1 |> put s |> put 1#1 |> put 0#3)).extractLsb' 8 3) ((wordOf (0 |> put 32#6 |> put c |> put 0#2 |> put d |> put 0#6 |> put g |> put y |> put 0#1 |> put s |> put 1#1 |> put 0#3)).extractLsb' 4 3)) = true
      simp only [extract_wordOf, partOf_put, partOf_put_zero, Nat.reduceLeDiff, Nat.reduceAdd, Nat.reduceSub]
      exact hw)
    (by
      change Instr.vsetlMax _ _ _ _ _ = _
      simp only [extract_wordOf, partOf_put, partOf_put_zero, Nat.reduceLeDiff, Nat.reduceAdd, Nat.reduceSub])

theorem vloop (c l f n) : Statement (.vloop c l f n) :=
  ofOp (op := .vloop) (n := 0 |> put 33#6 |> put c |> put l |> put f |> put n |> put 0#5 |> put 0#2) rfl
    (fun _ => by simp [opOf, opVblk, extract_wordOf, partOf_put, partOf_put_zero, Nat.reduceLeDiff, Nat.reduceAdd, Nat.reduceSub])
    (fun hw => by
      change (((wordOf (0 |> put 33#6 |> put c |> put l |> put f |> put n |> put 0#5 |> put 0#2)).extractLsb' 13 10) != 0 && codeOk ((wordOf (0 |> put 33#6 |> put c |> put l |> put f |> put n |> put 0#5 |> put 0#2)).extractLsb' 7 6)) = true
      simp only [extract_wordOf, partOf_put, partOf_put_zero, Nat.reduceLeDiff, Nat.reduceAdd, Nat.reduceSub]
      exact hw)
    (by
      change Instr.vloop _ _ _ _ = _
      simp only [extract_wordOf, partOf_put, partOf_put_zero, Nat.reduceLeDiff, Nat.reduceAdd, Nat.reduceSub])

theorem vloopR (c l f n s) : Statement (.vloopR c l f n s) :=
  ofOp (op := .vloopR) (n := 0 |> put 33#6 |> put c |> put l |> put f |> put n |> put 0#5 |> put s) rfl
    (fun hw => by
      have hs : s ≠ 0 := by
        have h2 : ((f != 0 && codeOk n && s != 0) : Bool) = true := hw
        simp only [Bool.and_eq_true, bne_iff_ne] at h2
        exact h2.2
      revert hs
      simp [opOf, opVblk, extract_wordOf, partOf_put, partOf_put_zero, Nat.reduceLeDiff, Nat.reduceAdd, Nat.reduceSub]
      split <;> simp_all)
    (fun hw => by
      change (((wordOf (0 |> put 33#6 |> put c |> put l |> put f |> put n |> put 0#5 |> put s)).extractLsb' 13 10) != 0 && codeOk ((wordOf (0 |> put 33#6 |> put c |> put l |> put f |> put n |> put 0#5 |> put s)).extractLsb' 7 6) && ((wordOf (0 |> put 33#6 |> put c |> put l |> put f |> put n |> put 0#5 |> put s)).extractLsb' 0 2) != 0) = true
      simp only [extract_wordOf, partOf_put, partOf_put_zero, Nat.reduceLeDiff, Nat.reduceAdd, Nat.reduceSub]
      exact hw)
    (by
      change Instr.vloopR _ _ _ _ _ = _
      simp only [extract_wordOf, partOf_put, partOf_put_zero, Nat.reduceLeDiff, Nat.reduceAdd, Nat.reduceSub])

theorem vlend (c l b) : Statement (.vlend c l b) :=
  ofOp (op := .vlend) (n := 0 |> put 33#6 |> put c |> put l |> put b |> put 0#6 |> put 2#5 |> put 0#2) rfl
    (fun _ => by simp [opOf, opVblk, extract_wordOf, partOf_put, partOf_put_zero, Nat.reduceLeDiff, Nat.reduceAdd, Nat.reduceSub])
    (fun hw => by
      change (((wordOf (0 |> put 33#6 |> put c |> put l |> put b |> put 0#6 |> put 2#5 |> put 0#2)).extractLsb' 13 10) != 0) = true
      simp only [extract_wordOf, partOf_put, partOf_put_zero, Nat.reduceLeDiff, Nat.reduceAdd, Nat.reduceSub]
      exact hw)
    (by
      change Instr.vlend _ _ _ = _
      simp only [extract_wordOf, partOf_put, partOf_put_zero, Nat.reduceLeDiff, Nat.reduceAdd, Nat.reduceSub])

theorem vexit (c l m) : Statement (.vexit c l m) :=
  ofOp (op := .vexit) (n := 0 |> put 33#6 |> put c |> put l |> put 0#13 |> put m |> put 2#5 |> put 1#2) rfl
    (fun _ => by simp [opOf, opVblk, extract_wordOf, partOf_put, partOf_put_zero, Nat.reduceLeDiff, Nat.reduceAdd, Nat.reduceSub])
    (fun _ => rfl)
    (by
      change Instr.vexit _ _ _ = _
      simp only [extract_wordOf, partOf_put, partOf_put_zero, Nat.reduceLeDiff, Nat.reduceAdd, Nat.reduceSub])

theorem vreply (c r k) : Statement (.vreply c r k) :=
  ofOp (op := .vreply) (n := 0 |> put 33#6 |> put c |> put r |> put 0#6 |> put k |> put 2#5 |> put 2#2) rfl
    (fun _ => by simp [opOf, opVblk, extract_wordOf, partOf_put, partOf_put_zero, Nat.reduceLeDiff, Nat.reduceAdd, Nat.reduceSub])
    (fun hw => by
      change (codeOk ((wordOf (0 |> put 33#6 |> put c |> put r |> put 0#6 |> put k |> put 2#5 |> put 2#2)).extractLsb' 19 6)) = true
      simp only [extract_wordOf, partOf_put, partOf_put_zero, Nat.reduceLeDiff, Nat.reduceAdd, Nat.reduceSub]
      exact hw)
    (by
      change Instr.vreply _ _ _ = _
      simp only [extract_wordOf, partOf_put, partOf_put_zero, Nat.reduceLeDiff, Nat.reduceAdd, Nat.reduceSub])

theorem vend (c) : Statement (.vend c) :=
  ofOp (op := .vend) (n := 0 |> put 33#6 |> put c |> put 0#18 |> put 4#5 |> put 0#2) rfl
    (fun _ => by simp [opOf, opVblk, extract_wordOf, partOf_put, partOf_put_zero, Nat.reduceLeDiff, Nat.reduceAdd, Nat.reduceSub])
    (fun _ => rfl)
    (by
      change Instr.vend _ = _
      simp only [extract_wordOf, partOf_put, partOf_put_zero, Nat.reduceLeDiff, Nat.reduceAdd, Nat.reduceSub])

theorem sadd (c d a b) : Statement (.sadd c d a b) :=
  ofOp (op := .sadd) (n := 0 |> put 33#6 |> put c |> put 0#2 |> put d |> put a |> put b |> put 8#5 |> put 0#2) rfl
    (fun _ => by simp [opOf, opVblk, extract_wordOf, partOf_put, partOf_put_zero, Nat.reduceLeDiff, Nat.reduceAdd, Nat.reduceSub])
    (fun hw => by
      change (codeOk ((wordOf (0 |> put 33#6 |> put c |> put 0#2 |> put d |> put a |> put b |> put 8#5 |> put 0#2)).extractLsb' 13 6) && codeOk ((wordOf (0 |> put 33#6 |> put c |> put 0#2 |> put d |> put a |> put b |> put 8#5 |> put 0#2)).extractLsb' 7 6)) = true
      simp only [extract_wordOf, partOf_put, partOf_put_zero, Nat.reduceLeDiff, Nat.reduceAdd, Nat.reduceSub]
      exact hw)
    (by
      change Instr.sadd _ _ _ _ = _
      simp only [extract_wordOf, partOf_put, partOf_put_zero, Nat.reduceLeDiff, Nat.reduceAdd, Nat.reduceSub])

theorem ssub (c d a b) : Statement (.ssub c d a b) :=
  ofOp (op := .ssub) (n := 0 |> put 33#6 |> put c |> put 0#2 |> put d |> put a |> put b |> put 8#5 |> put 1#2) rfl
    (fun _ => by simp [opOf, opVblk, extract_wordOf, partOf_put, partOf_put_zero, Nat.reduceLeDiff, Nat.reduceAdd, Nat.reduceSub])
    (fun hw => by
      change (codeOk ((wordOf (0 |> put 33#6 |> put c |> put 0#2 |> put d |> put a |> put b |> put 8#5 |> put 1#2)).extractLsb' 13 6) && codeOk ((wordOf (0 |> put 33#6 |> put c |> put 0#2 |> put d |> put a |> put b |> put 8#5 |> put 1#2)).extractLsb' 7 6)) = true
      simp only [extract_wordOf, partOf_put, partOf_put_zero, Nat.reduceLeDiff, Nat.reduceAdd, Nat.reduceSub]
      exact hw)
    (by
      change Instr.ssub _ _ _ _ = _
      simp only [extract_wordOf, partOf_put, partOf_put_zero, Nat.reduceLeDiff, Nat.reduceAdd, Nat.reduceSub])

theorem sand (c d a b) : Statement (.sand c d a b) :=
  ofOp (op := .sand) (n := 0 |> put 33#6 |> put c |> put 0#2 |> put d |> put a |> put b |> put 8#5 |> put 2#2) rfl
    (fun _ => by simp [opOf, opVblk, extract_wordOf, partOf_put, partOf_put_zero, Nat.reduceLeDiff, Nat.reduceAdd, Nat.reduceSub])
    (fun hw => by
      change (codeOk ((wordOf (0 |> put 33#6 |> put c |> put 0#2 |> put d |> put a |> put b |> put 8#5 |> put 2#2)).extractLsb' 13 6) && codeOk ((wordOf (0 |> put 33#6 |> put c |> put 0#2 |> put d |> put a |> put b |> put 8#5 |> put 2#2)).extractLsb' 7 6)) = true
      simp only [extract_wordOf, partOf_put, partOf_put_zero, Nat.reduceLeDiff, Nat.reduceAdd, Nat.reduceSub]
      exact hw)
    (by
      change Instr.sand _ _ _ _ = _
      simp only [extract_wordOf, partOf_put, partOf_put_zero, Nat.reduceLeDiff, Nat.reduceAdd, Nat.reduceSub])

theorem sor (c d a b) : Statement (.sor c d a b) :=
  ofOp (op := .sor) (n := 0 |> put 33#6 |> put c |> put 0#2 |> put d |> put a |> put b |> put 8#5 |> put 3#2) rfl
    (fun _ => by simp [opOf, opVblk, extract_wordOf, partOf_put, partOf_put_zero, Nat.reduceLeDiff, Nat.reduceAdd, Nat.reduceSub])
    (fun hw => by
      change (codeOk ((wordOf (0 |> put 33#6 |> put c |> put 0#2 |> put d |> put a |> put b |> put 8#5 |> put 3#2)).extractLsb' 13 6) && codeOk ((wordOf (0 |> put 33#6 |> put c |> put 0#2 |> put d |> put a |> put b |> put 8#5 |> put 3#2)).extractLsb' 7 6)) = true
      simp only [extract_wordOf, partOf_put, partOf_put_zero, Nat.reduceLeDiff, Nat.reduceAdd, Nat.reduceSub]
      exact hw)
    (by
      change Instr.sor _ _ _ _ = _
      simp only [extract_wordOf, partOf_put, partOf_put_zero, Nat.reduceLeDiff, Nat.reduceAdd, Nat.reduceSub])

theorem sxor (c d a b) : Statement (.sxor c d a b) :=
  ofOp (op := .sxor) (n := 0 |> put 33#6 |> put c |> put 0#2 |> put d |> put a |> put b |> put 9#5 |> put 0#2) rfl
    (fun _ => by simp [opOf, opVblk, extract_wordOf, partOf_put, partOf_put_zero, Nat.reduceLeDiff, Nat.reduceAdd, Nat.reduceSub])
    (fun hw => by
      change (codeOk ((wordOf (0 |> put 33#6 |> put c |> put 0#2 |> put d |> put a |> put b |> put 9#5 |> put 0#2)).extractLsb' 13 6) && codeOk ((wordOf (0 |> put 33#6 |> put c |> put 0#2 |> put d |> put a |> put b |> put 9#5 |> put 0#2)).extractLsb' 7 6)) = true
      simp only [extract_wordOf, partOf_put, partOf_put_zero, Nat.reduceLeDiff, Nat.reduceAdd, Nat.reduceSub]
      exact hw)
    (by
      change Instr.sxor _ _ _ _ = _
      simp only [extract_wordOf, partOf_put, partOf_put_zero, Nat.reduceLeDiff, Nat.reduceAdd, Nat.reduceSub])

theorem ssll (c d a b) : Statement (.ssll c d a b) :=
  ofOp (op := .ssll) (n := 0 |> put 33#6 |> put c |> put 0#2 |> put d |> put a |> put b |> put 9#5 |> put 1#2) rfl
    (fun _ => by simp [opOf, opVblk, extract_wordOf, partOf_put, partOf_put_zero, Nat.reduceLeDiff, Nat.reduceAdd, Nat.reduceSub])
    (fun hw => by
      change (codeOk ((wordOf (0 |> put 33#6 |> put c |> put 0#2 |> put d |> put a |> put b |> put 9#5 |> put 1#2)).extractLsb' 13 6) && codeOk ((wordOf (0 |> put 33#6 |> put c |> put 0#2 |> put d |> put a |> put b |> put 9#5 |> put 1#2)).extractLsb' 7 6)) = true
      simp only [extract_wordOf, partOf_put, partOf_put_zero, Nat.reduceLeDiff, Nat.reduceAdd, Nat.reduceSub]
      exact hw)
    (by
      change Instr.ssll _ _ _ _ = _
      simp only [extract_wordOf, partOf_put, partOf_put_zero, Nat.reduceLeDiff, Nat.reduceAdd, Nat.reduceSub])

theorem ssrl (c d a b) : Statement (.ssrl c d a b) :=
  ofOp (op := .ssrl) (n := 0 |> put 33#6 |> put c |> put 0#2 |> put d |> put a |> put b |> put 9#5 |> put 2#2) rfl
    (fun _ => by simp [opOf, opVblk, extract_wordOf, partOf_put, partOf_put_zero, Nat.reduceLeDiff, Nat.reduceAdd, Nat.reduceSub])
    (fun hw => by
      change (codeOk ((wordOf (0 |> put 33#6 |> put c |> put 0#2 |> put d |> put a |> put b |> put 9#5 |> put 2#2)).extractLsb' 13 6) && codeOk ((wordOf (0 |> put 33#6 |> put c |> put 0#2 |> put d |> put a |> put b |> put 9#5 |> put 2#2)).extractLsb' 7 6)) = true
      simp only [extract_wordOf, partOf_put, partOf_put_zero, Nat.reduceLeDiff, Nat.reduceAdd, Nat.reduceSub]
      exact hw)
    (by
      change Instr.ssrl _ _ _ _ = _
      simp only [extract_wordOf, partOf_put, partOf_put_zero, Nat.reduceLeDiff, Nat.reduceAdd, Nat.reduceSub])

theorem smul (c d a b) : Statement (.smul c d a b) :=
  ofOp (op := .smul) (n := 0 |> put 33#6 |> put c |> put 0#2 |> put d |> put a |> put b |> put 9#5 |> put 3#2) rfl
    (fun _ => by simp [opOf, opVblk, extract_wordOf, partOf_put, partOf_put_zero, Nat.reduceLeDiff, Nat.reduceAdd, Nat.reduceSub])
    (fun hw => by
      change (codeOk ((wordOf (0 |> put 33#6 |> put c |> put 0#2 |> put d |> put a |> put b |> put 9#5 |> put 3#2)).extractLsb' 13 6) && codeOk ((wordOf (0 |> put 33#6 |> put c |> put 0#2 |> put d |> put a |> put b |> put 9#5 |> put 3#2)).extractLsb' 7 6)) = true
      simp only [extract_wordOf, partOf_put, partOf_put_zero, Nat.reduceLeDiff, Nat.reduceAdd, Nat.reduceSub]
      exact hw)
    (by
      change Instr.smul _ _ _ _ = _
      simp only [extract_wordOf, partOf_put, partOf_put_zero, Nat.reduceLeDiff, Nat.reduceAdd, Nat.reduceSub])

theorem sminu (c d a b) : Statement (.sminu c d a b) :=
  ofOp (op := .sminu) (n := 0 |> put 33#6 |> put c |> put 0#2 |> put d |> put a |> put b |> put 10#5 |> put 0#2) rfl
    (fun _ => by simp [opOf, opVblk, extract_wordOf, partOf_put, partOf_put_zero, Nat.reduceLeDiff, Nat.reduceAdd, Nat.reduceSub])
    (fun hw => by
      change (codeOk ((wordOf (0 |> put 33#6 |> put c |> put 0#2 |> put d |> put a |> put b |> put 10#5 |> put 0#2)).extractLsb' 13 6) && codeOk ((wordOf (0 |> put 33#6 |> put c |> put 0#2 |> put d |> put a |> put b |> put 10#5 |> put 0#2)).extractLsb' 7 6)) = true
      simp only [extract_wordOf, partOf_put, partOf_put_zero, Nat.reduceLeDiff, Nat.reduceAdd, Nat.reduceSub]
      exact hw)
    (by
      change Instr.sminu _ _ _ _ = _
      simp only [extract_wordOf, partOf_put, partOf_put_zero, Nat.reduceLeDiff, Nat.reduceAdd, Nat.reduceSub])

theorem smaxu (c d a b) : Statement (.smaxu c d a b) :=
  ofOp (op := .smaxu) (n := 0 |> put 33#6 |> put c |> put 0#2 |> put d |> put a |> put b |> put 10#5 |> put 1#2) rfl
    (fun _ => by simp [opOf, opVblk, extract_wordOf, partOf_put, partOf_put_zero, Nat.reduceLeDiff, Nat.reduceAdd, Nat.reduceSub])
    (fun hw => by
      change (codeOk ((wordOf (0 |> put 33#6 |> put c |> put 0#2 |> put d |> put a |> put b |> put 10#5 |> put 1#2)).extractLsb' 13 6) && codeOk ((wordOf (0 |> put 33#6 |> put c |> put 0#2 |> put d |> put a |> put b |> put 10#5 |> put 1#2)).extractLsb' 7 6)) = true
      simp only [extract_wordOf, partOf_put, partOf_put_zero, Nat.reduceLeDiff, Nat.reduceAdd, Nat.reduceSub]
      exact hw)
    (by
      change Instr.smaxu _ _ _ _ = _
      simp only [extract_wordOf, partOf_put, partOf_put_zero, Nat.reduceLeDiff, Nat.reduceAdd, Nat.reduceSub])

theorem saddi (c d a i) : Statement (.saddi c d a i) :=
  ofOp (op := .saddi) (n := 0 |> put 33#6 |> put c |> put 0#2 |> put d |> put a |> put i |> put 12#5 |> put 0#2) rfl
    (fun _ => by simp [opOf, opVblk, extract_wordOf, partOf_put, partOf_put_zero, Nat.reduceLeDiff, Nat.reduceAdd, Nat.reduceSub])
    (fun hw => by
      change (codeOk ((wordOf (0 |> put 33#6 |> put c |> put 0#2 |> put d |> put a |> put i |> put 12#5 |> put 0#2)).extractLsb' 13 6)) = true
      simp only [extract_wordOf, partOf_put, partOf_put_zero, Nat.reduceLeDiff, Nat.reduceAdd, Nat.reduceSub]
      exact hw)
    (by
      change Instr.saddi _ _ _ _ = _
      simp only [extract_wordOf, partOf_put, partOf_put_zero, Nat.reduceLeDiff, Nat.reduceAdd, Nat.reduceSub])

theorem sli (c d i) : Statement (.sli c d i) :=
  ofOp (op := .sli) (n := 0 |> put 33#6 |> put c |> put 0#2 |> put d |> put i |> put 12#5 |> put 1#2) rfl
    (fun _ => by simp [opOf, opVblk, extract_wordOf, partOf_put, partOf_put_zero, Nat.reduceLeDiff, Nat.reduceAdd, Nat.reduceSub])
    (fun _ => rfl)
    (by
      change Instr.sli _ _ _ = _
      simp only [extract_wordOf, partOf_put, partOf_put_zero, Nat.reduceLeDiff, Nat.reduceAdd, Nat.reduceSub])

theorem vcfgrd (c d r) : Statement (.vcfgrd c d r) :=
  ofOp (op := .vcfgrd) (n := 0 |> put 33#6 |> put c |> put 0#2 |> put d |> put r |> put 16#5 |> put 0#2) rfl
    (fun _ => by simp [opOf, opVblk, extract_wordOf, partOf_put, partOf_put_zero, Nat.reduceLeDiff, Nat.reduceAdd, Nat.reduceSub])
    (fun _ => rfl)
    (by
      change Instr.vcfgrd _ _ _ = _
      simp only [extract_wordOf, partOf_put, partOf_put_zero, Nat.reduceLeDiff, Nat.reduceAdd, Nat.reduceSub])

theorem vld (c v b m h) : Statement (.vld c v b m h) :=
  ofOp (op := .vld) (n := 0 |> put 34#6 |> put c |> put v |> put b |> put 0#6 |> put m |> put 0#3 |> put 0#1 |> put h) rfl
    (fun _ => by simp [opOf, opVld, extract_wordOf, partOf_put, partOf_put_zero, Nat.reduceLeDiff, Nat.reduceAdd, Nat.reduceSub])
    (fun hw => by
      change (baseOk ((wordOf (0 |> put 34#6 |> put c |> put v |> put b |> put 0#6 |> put m |> put 0#3 |> put 0#1 |> put h)).extractLsb' 14 5)) = true
      simp only [extract_wordOf, partOf_put, partOf_put_zero, Nat.reduceLeDiff, Nat.reduceAdd, Nat.reduceSub]
      exact hw)
    (by
      change Instr.vld _ _ _ _ _ = _
      simp only [extract_wordOf, partOf_put, partOf_put_zero, Nat.reduceLeDiff, Nat.reduceAdd, Nat.reduceSub])

theorem vldBo (c v b o m h) : Statement (.vldBo c v b o m h) :=
  ofOp (op := .vldBo) (n := 0 |> put 34#6 |> put c |> put v |> put b |> put o |> put m |> put 1#3 |> put 0#1 |> put h) rfl
    (fun _ => by simp [opOf, opVld, extract_wordOf, partOf_put, partOf_put_zero, Nat.reduceLeDiff, Nat.reduceAdd, Nat.reduceSub])
    (fun hw => by
      change (baseOk ((wordOf (0 |> put 34#6 |> put c |> put v |> put b |> put o |> put m |> put 1#3 |> put 0#1 |> put h)).extractLsb' 14 5) && codeOk ((wordOf (0 |> put 34#6 |> put c |> put v |> put b |> put o |> put m |> put 1#3 |> put 0#1 |> put h)).extractLsb' 8 6)) = true
      simp only [extract_wordOf, partOf_put, partOf_put_zero, Nat.reduceLeDiff, Nat.reduceAdd, Nat.reduceSub]
      exact hw)
    (by
      change Instr.vldBo _ _ _ _ _ _ = _
      simp only [extract_wordOf, partOf_put, partOf_put_zero, Nat.reduceLeDiff, Nat.reduceAdd, Nat.reduceSub])

theorem vldS (c v b s m h) : Statement (.vldS c v b s m h) :=
  ofOp (op := .vldS) (n := 0 |> put 34#6 |> put c |> put v |> put b |> put s |> put m |> put 2#3 |> put 0#1 |> put h) rfl
    (fun _ => by simp [opOf, opVld, extract_wordOf, partOf_put, partOf_put_zero, Nat.reduceLeDiff, Nat.reduceAdd, Nat.reduceSub])
    (fun hw => by
      change (baseOk ((wordOf (0 |> put 34#6 |> put c |> put v |> put b |> put s |> put m |> put 2#3 |> put 0#1 |> put h)).extractLsb' 14 5) && codeOk ((wordOf (0 |> put 34#6 |> put c |> put v |> put b |> put s |> put m |> put 2#3 |> put 0#1 |> put h)).extractLsb' 8 6)) = true
      simp only [extract_wordOf, partOf_put, partOf_put_zero, Nat.reduceLeDiff, Nat.reduceAdd, Nat.reduceSub]
      exact hw)
    (by
      change Instr.vldS _ _ _ _ _ _ = _
      simp only [extract_wordOf, partOf_put, partOf_put_zero, Nat.reduceLeDiff, Nat.reduceAdd, Nat.reduceSub])

theorem vldT (c v b t m h) : Statement (.vldT c v b t m h) :=
  ofOp (op := .vldT) (n := 0 |> put 34#6 |> put c |> put v |> put b |> put 0#2 |> put t |> put m |> put 4#3 |> put 0#1 |> put h) rfl
    (fun _ => by simp [opOf, opVld, extract_wordOf, partOf_put, partOf_put_zero, Nat.reduceLeDiff, Nat.reduceAdd, Nat.reduceSub])
    (fun hw => by
      change (baseOk ((wordOf (0 |> put 34#6 |> put c |> put v |> put b |> put 0#2 |> put t |> put m |> put 4#3 |> put 0#1 |> put h)).extractLsb' 14 5)) = true
      simp only [extract_wordOf, partOf_put, partOf_put_zero, Nat.reduceLeDiff, Nat.reduceAdd, Nat.reduceSub]
      exact hw)
    (by
      change Instr.vldT _ _ _ _ _ _ = _
      simp only [extract_wordOf, partOf_put, partOf_put_zero, Nat.reduceLeDiff, Nat.reduceAdd, Nat.reduceSub])

theorem vldFf (c v b m h) : Statement (.vldFf c v b m h) :=
  ofOp (op := .vldFf) (n := 0 |> put 34#6 |> put c |> put v |> put b |> put 0#6 |> put m |> put 6#3 |> put 0#1 |> put h) rfl
    (fun _ => by simp [opOf, opVld, extract_wordOf, partOf_put, partOf_put_zero, Nat.reduceLeDiff, Nat.reduceAdd, Nat.reduceSub])
    (fun hw => by
      change (baseOk ((wordOf (0 |> put 34#6 |> put c |> put v |> put b |> put 0#6 |> put m |> put 6#3 |> put 0#1 |> put h)).extractLsb' 14 5)) = true
      simp only [extract_wordOf, partOf_put, partOf_put_zero, Nat.reduceLeDiff, Nat.reduceAdd, Nat.reduceSub]
      exact hw)
    (by
      change Instr.vldFf _ _ _ _ _ = _
      simp only [extract_wordOf, partOf_put, partOf_put_zero, Nat.reduceLeDiff, Nat.reduceAdd, Nat.reduceSub])

theorem vldFfBo (c v b o m h) : Statement (.vldFfBo c v b o m h) :=
  ofOp (op := .vldFfBo) (n := 0 |> put 34#6 |> put c |> put v |> put b |> put o |> put m |> put 7#3 |> put 0#1 |> put h) rfl
    (fun _ => by simp [opOf, opVld, extract_wordOf, partOf_put, partOf_put_zero, Nat.reduceLeDiff, Nat.reduceAdd, Nat.reduceSub])
    (fun hw => by
      change (baseOk ((wordOf (0 |> put 34#6 |> put c |> put v |> put b |> put o |> put m |> put 7#3 |> put 0#1 |> put h)).extractLsb' 14 5) && codeOk ((wordOf (0 |> put 34#6 |> put c |> put v |> put b |> put o |> put m |> put 7#3 |> put 0#1 |> put h)).extractLsb' 8 6)) = true
      simp only [extract_wordOf, partOf_put, partOf_put_zero, Nat.reduceLeDiff, Nat.reduceAdd, Nat.reduceSub]
      exact hw)
    (by
      change Instr.vldFfBo _ _ _ _ _ _ = _
      simp only [extract_wordOf, partOf_put, partOf_put_zero, Nat.reduceLeDiff, Nat.reduceAdd, Nat.reduceSub])

theorem vldx (c v b i m w s) : Statement (.vldx c v b i m w s) :=
  ofOp (op := .vldx) (n := 0 |> put 35#6 |> put c |> put v |> put b |> put i |> put m |> put 0#2 |> put w |> put s) rfl
    (fun _ => by simp [opOf, opVldx, extract_wordOf, partOf_put, partOf_put_zero, Nat.reduceLeDiff, Nat.reduceAdd, Nat.reduceSub])
    (fun hw => by
      change (baseOk ((wordOf (0 |> put 35#6 |> put c |> put v |> put b |> put i |> put m |> put 0#2 |> put w |> put s)).extractLsb' 14 5)) = true
      simp only [extract_wordOf, partOf_put, partOf_put_zero, Nat.reduceLeDiff, Nat.reduceAdd, Nat.reduceSub]
      exact hw)
    (by
      change Instr.vldx _ _ _ _ _ _ _ = _
      simp only [extract_wordOf, partOf_put, partOf_put_zero, Nat.reduceLeDiff, Nat.reduceAdd, Nat.reduceSub])

theorem vldd (c v b m) : Statement (.vldd c v b m) :=
  ofOp (op := .vldd) (n := 0 |> put 36#6 |> put c |> put v |> put b |> put 0#6 |> put m |> put 0#2 |> put 0#3) rfl
    (fun _ => by simp [opOf, opVldd, extract_wordOf, partOf_put, partOf_put_zero, Nat.reduceLeDiff, Nat.reduceAdd, Nat.reduceSub])
    (fun hw => by
      change (baseOk ((wordOf (0 |> put 36#6 |> put c |> put v |> put b |> put 0#6 |> put m |> put 0#2 |> put 0#3)).extractLsb' 14 5)) = true
      simp only [extract_wordOf, partOf_put, partOf_put_zero, Nat.reduceLeDiff, Nat.reduceAdd, Nat.reduceSub]
      exact hw)
    (by
      change Instr.vldd _ _ _ _ = _
      simp only [extract_wordOf, partOf_put, partOf_put_zero, Nat.reduceLeDiff, Nat.reduceAdd, Nat.reduceSub])

theorem vlddX (c v b i m w) : Statement (.vlddX c v b i m w) :=
  ofOp (op := .vlddX) (n := 0 |> put 36#6 |> put c |> put v |> put b |> put i |> put m |> put 1#2 |> put w |> put 0#1) rfl
    (fun _ => by simp [opOf, opVldd, extract_wordOf, partOf_put, partOf_put_zero, Nat.reduceLeDiff, Nat.reduceAdd, Nat.reduceSub])
    (fun hw => by
      change (baseOk ((wordOf (0 |> put 36#6 |> put c |> put v |> put b |> put i |> put m |> put 1#2 |> put w |> put 0#1)).extractLsb' 14 5) && ((wordOf (0 |> put 36#6 |> put c |> put v |> put b |> put i |> put m |> put 1#2 |> put w |> put 0#1)).extractLsb' 1 2) != 0) = true
      simp only [extract_wordOf, partOf_put, partOf_put_zero, Nat.reduceLeDiff, Nat.reduceAdd, Nat.reduceSub]
      exact hw)
    (by
      change Instr.vlddX _ _ _ _ _ _ = _
      simp only [extract_wordOf, partOf_put, partOf_put_zero, Nat.reduceLeDiff, Nat.reduceAdd, Nat.reduceSub])

theorem vst (c v b m h) : Statement (.vst c v b m h) :=
  ofOp (op := .vst) (n := 0 |> put 37#6 |> put c |> put v |> put b |> put 0#6 |> put m |> put 0#3 |> put 0#1 |> put h) rfl
    (fun _ => by simp [opOf, opVst, extract_wordOf, partOf_put, partOf_put_zero, Nat.reduceLeDiff, Nat.reduceAdd, Nat.reduceSub])
    (fun hw => by
      change (baseOk ((wordOf (0 |> put 37#6 |> put c |> put v |> put b |> put 0#6 |> put m |> put 0#3 |> put 0#1 |> put h)).extractLsb' 14 5)) = true
      simp only [extract_wordOf, partOf_put, partOf_put_zero, Nat.reduceLeDiff, Nat.reduceAdd, Nat.reduceSub]
      exact hw)
    (by
      change Instr.vst _ _ _ _ _ = _
      simp only [extract_wordOf, partOf_put, partOf_put_zero, Nat.reduceLeDiff, Nat.reduceAdd, Nat.reduceSub])

theorem vstS (c v b s m h) : Statement (.vstS c v b s m h) :=
  ofOp (op := .vstS) (n := 0 |> put 37#6 |> put c |> put v |> put b |> put s |> put m |> put 2#3 |> put 0#1 |> put h) rfl
    (fun _ => by simp [opOf, opVst, extract_wordOf, partOf_put, partOf_put_zero, Nat.reduceLeDiff, Nat.reduceAdd, Nat.reduceSub])
    (fun hw => by
      change (baseOk ((wordOf (0 |> put 37#6 |> put c |> put v |> put b |> put s |> put m |> put 2#3 |> put 0#1 |> put h)).extractLsb' 14 5) && codeOk ((wordOf (0 |> put 37#6 |> put c |> put v |> put b |> put s |> put m |> put 2#3 |> put 0#1 |> put h)).extractLsb' 8 6)) = true
      simp only [extract_wordOf, partOf_put, partOf_put_zero, Nat.reduceLeDiff, Nat.reduceAdd, Nat.reduceSub]
      exact hw)
    (by
      change Instr.vstS _ _ _ _ _ _ = _
      simp only [extract_wordOf, partOf_put, partOf_put_zero, Nat.reduceLeDiff, Nat.reduceAdd, Nat.reduceSub])

theorem vstT (c v b t m h) : Statement (.vstT c v b t m h) :=
  ofOp (op := .vstT) (n := 0 |> put 37#6 |> put c |> put v |> put b |> put 0#2 |> put t |> put m |> put 4#3 |> put 0#1 |> put h) rfl
    (fun _ => by simp [opOf, opVst, extract_wordOf, partOf_put, partOf_put_zero, Nat.reduceLeDiff, Nat.reduceAdd, Nat.reduceSub])
    (fun hw => by
      change (baseOk ((wordOf (0 |> put 37#6 |> put c |> put v |> put b |> put 0#2 |> put t |> put m |> put 4#3 |> put 0#1 |> put h)).extractLsb' 14 5)) = true
      simp only [extract_wordOf, partOf_put, partOf_put_zero, Nat.reduceLeDiff, Nat.reduceAdd, Nat.reduceSub]
      exact hw)
    (by
      change Instr.vstT _ _ _ _ _ _ = _
      simp only [extract_wordOf, partOf_put, partOf_put_zero, Nat.reduceLeDiff, Nat.reduceAdd, Nat.reduceSub])

theorem vstApp (c v b r m h) : Statement (.vstApp c v b r m h) :=
  ofOp (op := .vstApp) (n := 0 |> put 37#6 |> put c |> put v |> put b |> put 1#3 |> put r |> put m |> put 6#3 |> put 0#1 |> put h) rfl
    (fun _ => by simp [opOf, opVst, extract_wordOf, partOf_put, partOf_put_zero, Nat.reduceLeDiff, Nat.reduceAdd, Nat.reduceSub])
    (fun hw => by
      change (baseOk ((wordOf (0 |> put 37#6 |> put c |> put v |> put b |> put 1#3 |> put r |> put m |> put 6#3 |> put 0#1 |> put h)).extractLsb' 14 5)) = true
      simp only [extract_wordOf, partOf_put, partOf_put_zero, Nat.reduceLeDiff, Nat.reduceAdd, Nat.reduceSub]
      exact hw)
    (by
      change Instr.vstApp _ _ _ _ _ _ = _
      simp only [extract_wordOf, partOf_put, partOf_put_zero, Nat.reduceLeDiff, Nat.reduceAdd, Nat.reduceSub])

theorem vstx (c v b i m w s) : Statement (.vstx c v b i m w s) :=
  ofOp (op := .vstx) (n := 0 |> put 38#6 |> put c |> put v |> put b |> put i |> put m |> put 0#2 |> put w |> put s) rfl
    (fun _ => by simp [opOf, opVstx, extract_wordOf, partOf_put, partOf_put_zero, Nat.reduceLeDiff, Nat.reduceAdd, Nat.reduceSub])
    (fun hw => by
      change (baseOk ((wordOf (0 |> put 38#6 |> put c |> put v |> put b |> put i |> put m |> put 0#2 |> put w |> put s)).extractLsb' 14 5)) = true
      simp only [extract_wordOf, partOf_put, partOf_put_zero, Nat.reduceLeDiff, Nat.reduceAdd, Nat.reduceSub]
      exact hw)
    (by
      change Instr.vstx _ _ _ _ _ _ _ = _
      simp only [extract_wordOf, partOf_put, partOf_put_zero, Nat.reduceLeDiff, Nat.reduceAdd, Nat.reduceSub])

theorem vstd (c v b f) : Statement (.vstd c v b f) :=
  ofOp (op := .vstd) (n := 0 |> put 39#6 |> put c |> put v |> put b |> put 0#11 |> put f) rfl
    (fun _ => by simp [opOf, opVstd, extract_wordOf, partOf_put, partOf_put_zero, Nat.reduceLeDiff, Nat.reduceAdd, Nat.reduceSub])
    (fun hw => by
      change (baseOk ((wordOf (0 |> put 39#6 |> put c |> put v |> put b |> put 0#11 |> put f)).extractLsb' 14 5) && ((wordOf (0 |> put 39#6 |> put c |> put v |> put b |> put 0#11 |> put f)).extractLsb' 0 3) != 0) = true
      simp only [extract_wordOf, partOf_put, partOf_put_zero, Nat.reduceLeDiff, Nat.reduceAdd, Nat.reduceSub]
      exact hw)
    (by
      change Instr.vstd _ _ _ _ = _
      simp only [extract_wordOf, partOf_put, partOf_put_zero, Nat.reduceLeDiff, Nat.reduceAdd, Nat.reduceSub])

theorem vbopAdd (c v b i m p) : Statement (.vbopAdd c v b i m p) :=
  ofOp (op := .vbopAdd) (n := 0 |> put 40#6 |> put c |> put v |> put b |> put i |> put m |> put p |> put 0#3) rfl
    (fun _ => by simp [opOf, opVbop, extract_wordOf, partOf_put, partOf_put_zero, Nat.reduceLeDiff, Nat.reduceAdd, Nat.reduceSub])
    (fun hw => by
      change (baseOk ((wordOf (0 |> put 40#6 |> put c |> put v |> put b |> put i |> put m |> put p |> put 0#3)).extractLsb' 14 5) && bopOk ((wordOf (0 |> put 40#6 |> put c |> put v |> put b |> put i |> put m |> put p |> put 0#3)).extractLsb' 3 2) ((wordOf (0 |> put 40#6 |> put c |> put v |> put b |> put i |> put m |> put p |> put 0#3)).extractLsb' 8 6)) = true
      simp only [extract_wordOf, partOf_put, partOf_put_zero, Nat.reduceLeDiff, Nat.reduceAdd, Nat.reduceSub]
      exact hw)
    (by
      change Instr.vbopAdd _ _ _ _ _ _ = _
      simp only [extract_wordOf, partOf_put, partOf_put_zero, Nat.reduceLeDiff, Nat.reduceAdd, Nat.reduceSub])

theorem vbopAnd (c v b i m p) : Statement (.vbopAnd c v b i m p) :=
  ofOp (op := .vbopAnd) (n := 0 |> put 40#6 |> put c |> put v |> put b |> put i |> put m |> put p |> put 1#3) rfl
    (fun _ => by simp [opOf, opVbop, extract_wordOf, partOf_put, partOf_put_zero, Nat.reduceLeDiff, Nat.reduceAdd, Nat.reduceSub])
    (fun hw => by
      change (baseOk ((wordOf (0 |> put 40#6 |> put c |> put v |> put b |> put i |> put m |> put p |> put 1#3)).extractLsb' 14 5) && bopOk ((wordOf (0 |> put 40#6 |> put c |> put v |> put b |> put i |> put m |> put p |> put 1#3)).extractLsb' 3 2) ((wordOf (0 |> put 40#6 |> put c |> put v |> put b |> put i |> put m |> put p |> put 1#3)).extractLsb' 8 6)) = true
      simp only [extract_wordOf, partOf_put, partOf_put_zero, Nat.reduceLeDiff, Nat.reduceAdd, Nat.reduceSub]
      exact hw)
    (by
      change Instr.vbopAnd _ _ _ _ _ _ = _
      simp only [extract_wordOf, partOf_put, partOf_put_zero, Nat.reduceLeDiff, Nat.reduceAdd, Nat.reduceSub])

theorem vbopOr (c v b i m p) : Statement (.vbopOr c v b i m p) :=
  ofOp (op := .vbopOr) (n := 0 |> put 40#6 |> put c |> put v |> put b |> put i |> put m |> put p |> put 2#3) rfl
    (fun _ => by simp [opOf, opVbop, extract_wordOf, partOf_put, partOf_put_zero, Nat.reduceLeDiff, Nat.reduceAdd, Nat.reduceSub])
    (fun hw => by
      change (baseOk ((wordOf (0 |> put 40#6 |> put c |> put v |> put b |> put i |> put m |> put p |> put 2#3)).extractLsb' 14 5) && bopOk ((wordOf (0 |> put 40#6 |> put c |> put v |> put b |> put i |> put m |> put p |> put 2#3)).extractLsb' 3 2) ((wordOf (0 |> put 40#6 |> put c |> put v |> put b |> put i |> put m |> put p |> put 2#3)).extractLsb' 8 6)) = true
      simp only [extract_wordOf, partOf_put, partOf_put_zero, Nat.reduceLeDiff, Nat.reduceAdd, Nat.reduceSub]
      exact hw)
    (by
      change Instr.vbopOr _ _ _ _ _ _ = _
      simp only [extract_wordOf, partOf_put, partOf_put_zero, Nat.reduceLeDiff, Nat.reduceAdd, Nat.reduceSub])

theorem vbopXor (c v b i m p) : Statement (.vbopXor c v b i m p) :=
  ofOp (op := .vbopXor) (n := 0 |> put 40#6 |> put c |> put v |> put b |> put i |> put m |> put p |> put 3#3) rfl
    (fun _ => by simp [opOf, opVbop, extract_wordOf, partOf_put, partOf_put_zero, Nat.reduceLeDiff, Nat.reduceAdd, Nat.reduceSub])
    (fun hw => by
      change (baseOk ((wordOf (0 |> put 40#6 |> put c |> put v |> put b |> put i |> put m |> put p |> put 3#3)).extractLsb' 14 5) && bopOk ((wordOf (0 |> put 40#6 |> put c |> put v |> put b |> put i |> put m |> put p |> put 3#3)).extractLsb' 3 2) ((wordOf (0 |> put 40#6 |> put c |> put v |> put b |> put i |> put m |> put p |> put 3#3)).extractLsb' 8 6)) = true
      simp only [extract_wordOf, partOf_put, partOf_put_zero, Nat.reduceLeDiff, Nat.reduceAdd, Nat.reduceSub]
      exact hw)
    (by
      change Instr.vbopXor _ _ _ _ _ _ = _
      simp only [extract_wordOf, partOf_put, partOf_put_zero, Nat.reduceLeDiff, Nat.reduceAdd, Nat.reduceSub])

theorem vbopSmin (c v b i m p) : Statement (.vbopSmin c v b i m p) :=
  ofOp (op := .vbopSmin) (n := 0 |> put 40#6 |> put c |> put v |> put b |> put i |> put m |> put p |> put 4#3) rfl
    (fun _ => by simp [opOf, opVbop, extract_wordOf, partOf_put, partOf_put_zero, Nat.reduceLeDiff, Nat.reduceAdd, Nat.reduceSub])
    (fun hw => by
      change (baseOk ((wordOf (0 |> put 40#6 |> put c |> put v |> put b |> put i |> put m |> put p |> put 4#3)).extractLsb' 14 5) && bopOk ((wordOf (0 |> put 40#6 |> put c |> put v |> put b |> put i |> put m |> put p |> put 4#3)).extractLsb' 3 2) ((wordOf (0 |> put 40#6 |> put c |> put v |> put b |> put i |> put m |> put p |> put 4#3)).extractLsb' 8 6)) = true
      simp only [extract_wordOf, partOf_put, partOf_put_zero, Nat.reduceLeDiff, Nat.reduceAdd, Nat.reduceSub]
      exact hw)
    (by
      change Instr.vbopSmin _ _ _ _ _ _ = _
      simp only [extract_wordOf, partOf_put, partOf_put_zero, Nat.reduceLeDiff, Nat.reduceAdd, Nat.reduceSub])

theorem vbopSmax (c v b i m p) : Statement (.vbopSmax c v b i m p) :=
  ofOp (op := .vbopSmax) (n := 0 |> put 40#6 |> put c |> put v |> put b |> put i |> put m |> put p |> put 5#3) rfl
    (fun _ => by simp [opOf, opVbop, extract_wordOf, partOf_put, partOf_put_zero, Nat.reduceLeDiff, Nat.reduceAdd, Nat.reduceSub])
    (fun hw => by
      change (baseOk ((wordOf (0 |> put 40#6 |> put c |> put v |> put b |> put i |> put m |> put p |> put 5#3)).extractLsb' 14 5) && bopOk ((wordOf (0 |> put 40#6 |> put c |> put v |> put b |> put i |> put m |> put p |> put 5#3)).extractLsb' 3 2) ((wordOf (0 |> put 40#6 |> put c |> put v |> put b |> put i |> put m |> put p |> put 5#3)).extractLsb' 8 6)) = true
      simp only [extract_wordOf, partOf_put, partOf_put_zero, Nat.reduceLeDiff, Nat.reduceAdd, Nat.reduceSub]
      exact hw)
    (by
      change Instr.vbopSmax _ _ _ _ _ _ = _
      simp only [extract_wordOf, partOf_put, partOf_put_zero, Nat.reduceLeDiff, Nat.reduceAdd, Nat.reduceSub])

theorem vbopFadd (c v b i m p) : Statement (.vbopFadd c v b i m p) :=
  ofOp (op := .vbopFadd) (n := 0 |> put 40#6 |> put c |> put v |> put b |> put i |> put m |> put p |> put 6#3) rfl
    (fun _ => by simp [opOf, opVbop, extract_wordOf, partOf_put, partOf_put_zero, Nat.reduceLeDiff, Nat.reduceAdd, Nat.reduceSub])
    (fun hw => by
      change (baseOk ((wordOf (0 |> put 40#6 |> put c |> put v |> put b |> put i |> put m |> put p |> put 6#3)).extractLsb' 14 5) && bopOk ((wordOf (0 |> put 40#6 |> put c |> put v |> put b |> put i |> put m |> put p |> put 6#3)).extractLsb' 3 2) ((wordOf (0 |> put 40#6 |> put c |> put v |> put b |> put i |> put m |> put p |> put 6#3)).extractLsb' 8 6)) = true
      simp only [extract_wordOf, partOf_put, partOf_put_zero, Nat.reduceLeDiff, Nat.reduceAdd, Nat.reduceSub]
      exact hw)
    (by
      change Instr.vbopFadd _ _ _ _ _ _ = _
      simp only [extract_wordOf, partOf_put, partOf_put_zero, Nat.reduceLeDiff, Nat.reduceAdd, Nat.reduceSub])

theorem vbopQadd (c v b i m p) : Statement (.vbopQadd c v b i m p) :=
  ofOp (op := .vbopQadd) (n := 0 |> put 40#6 |> put c |> put v |> put b |> put i |> put m |> put p |> put 7#3) rfl
    (fun _ => by simp [opOf, opVbop, extract_wordOf, partOf_put, partOf_put_zero, Nat.reduceLeDiff, Nat.reduceAdd, Nat.reduceSub])
    (fun hw => by
      change (baseOk ((wordOf (0 |> put 40#6 |> put c |> put v |> put b |> put i |> put m |> put p |> put 7#3)).extractLsb' 14 5) && bopOk ((wordOf (0 |> put 40#6 |> put c |> put v |> put b |> put i |> put m |> put p |> put 7#3)).extractLsb' 3 2) ((wordOf (0 |> put 40#6 |> put c |> put v |> put b |> put i |> put m |> put p |> put 7#3)).extractLsb' 8 6)) = true
      simp only [extract_wordOf, partOf_put, partOf_put_zero, Nat.reduceLeDiff, Nat.reduceAdd, Nat.reduceSub]
      exact hw)
    (by
      change Instr.vbopQadd _ _ _ _ _ _ = _
      simp only [extract_wordOf, partOf_put, partOf_put_zero, Nat.reduceLeDiff, Nat.reduceAdd, Nat.reduceSub])

theorem vaddVv (c d a b m) : Statement (.vaddVv c d a b m) :=
  ofOp (op := .vaddVv) (n := 0 |> put 41#6 |> put c |> put d |> put a |> put b |> put m |> put 0#4) rfl
    (fun _ => by simp [opOf, opVint, extract_wordOf, partOf_put, partOf_put_zero, Nat.reduceLeDiff, Nat.reduceAdd, Nat.reduceSub])
    (fun _ => rfl)
    (by
      change Instr.vaddVv _ _ _ _ _ = _
      simp only [extract_wordOf, partOf_put, partOf_put_zero, Nat.reduceLeDiff, Nat.reduceAdd, Nat.reduceSub])

theorem vaddVi (c d a i m) : Statement (.vaddVi c d a i m) :=
  ofOp (op := .vaddVi) (n := 0 |> put 41#6 |> put c |> put d |> put a |> put i |> put m |> put 1#4) rfl
    (fun _ => by simp [opOf, opVint, extract_wordOf, partOf_put, partOf_put_zero, Nat.reduceLeDiff, Nat.reduceAdd, Nat.reduceSub])
    (fun _ => rfl)
    (by
      change Instr.vaddVi _ _ _ _ _ = _
      simp only [extract_wordOf, partOf_put, partOf_put_zero, Nat.reduceLeDiff, Nat.reduceAdd, Nat.reduceSub])

theorem vaddVx (c d a x m) : Statement (.vaddVx c d a x m) :=
  ofOp (op := .vaddVx) (n := 0 |> put 41#6 |> put c |> put d |> put a |> put x |> put m |> put 2#4) rfl
    (fun _ => by simp [opOf, opVint, extract_wordOf, partOf_put, partOf_put_zero, Nat.reduceLeDiff, Nat.reduceAdd, Nat.reduceSub])
    (fun hw => by
      change (codeOk ((wordOf (0 |> put 41#6 |> put c |> put d |> put a |> put x |> put m |> put 2#4)).extractLsb' 7 6)) = true
      simp only [extract_wordOf, partOf_put, partOf_put_zero, Nat.reduceLeDiff, Nat.reduceAdd, Nat.reduceSub]
      exact hw)
    (by
      change Instr.vaddVx _ _ _ _ _ = _
      simp only [extract_wordOf, partOf_put, partOf_put_zero, Nat.reduceLeDiff, Nat.reduceAdd, Nat.reduceSub])

theorem vsubVv (c d a b m) : Statement (.vsubVv c d a b m) :=
  ofOp (op := .vsubVv) (n := 0 |> put 41#6 |> put c |> put d |> put a |> put b |> put m |> put 3#4) rfl
    (fun _ => by simp [opOf, opVint, extract_wordOf, partOf_put, partOf_put_zero, Nat.reduceLeDiff, Nat.reduceAdd, Nat.reduceSub])
    (fun _ => rfl)
    (by
      change Instr.vsubVv _ _ _ _ _ = _
      simp only [extract_wordOf, partOf_put, partOf_put_zero, Nat.reduceLeDiff, Nat.reduceAdd, Nat.reduceSub])

theorem vsubVx (c d a x m) : Statement (.vsubVx c d a x m) :=
  ofOp (op := .vsubVx) (n := 0 |> put 41#6 |> put c |> put d |> put a |> put x |> put m |> put 4#4) rfl
    (fun _ => by simp [opOf, opVint, extract_wordOf, partOf_put, partOf_put_zero, Nat.reduceLeDiff, Nat.reduceAdd, Nat.reduceSub])
    (fun hw => by
      change (codeOk ((wordOf (0 |> put 41#6 |> put c |> put d |> put a |> put x |> put m |> put 4#4)).extractLsb' 7 6)) = true
      simp only [extract_wordOf, partOf_put, partOf_put_zero, Nat.reduceLeDiff, Nat.reduceAdd, Nat.reduceSub]
      exact hw)
    (by
      change Instr.vsubVx _ _ _ _ _ = _
      simp only [extract_wordOf, partOf_put, partOf_put_zero, Nat.reduceLeDiff, Nat.reduceAdd, Nat.reduceSub])

theorem vrsubVx (c d a x m) : Statement (.vrsubVx c d a x m) :=
  ofOp (op := .vrsubVx) (n := 0 |> put 41#6 |> put c |> put d |> put a |> put x |> put m |> put 5#4) rfl
    (fun _ => by simp [opOf, opVint, extract_wordOf, partOf_put, partOf_put_zero, Nat.reduceLeDiff, Nat.reduceAdd, Nat.reduceSub])
    (fun hw => by
      change (codeOk ((wordOf (0 |> put 41#6 |> put c |> put d |> put a |> put x |> put m |> put 5#4)).extractLsb' 7 6)) = true
      simp only [extract_wordOf, partOf_put, partOf_put_zero, Nat.reduceLeDiff, Nat.reduceAdd, Nat.reduceSub]
      exact hw)
    (by
      change Instr.vrsubVx _ _ _ _ _ = _
      simp only [extract_wordOf, partOf_put, partOf_put_zero, Nat.reduceLeDiff, Nat.reduceAdd, Nat.reduceSub])

theorem vrsubVi (c d a i m) : Statement (.vrsubVi c d a i m) :=
  ofOp (op := .vrsubVi) (n := 0 |> put 41#6 |> put c |> put d |> put a |> put i |> put m |> put 6#4) rfl
    (fun _ => by simp [opOf, opVint, extract_wordOf, partOf_put, partOf_put_zero, Nat.reduceLeDiff, Nat.reduceAdd, Nat.reduceSub])
    (fun _ => rfl)
    (by
      change Instr.vrsubVi _ _ _ _ _ = _
      simp only [extract_wordOf, partOf_put, partOf_put_zero, Nat.reduceLeDiff, Nat.reduceAdd, Nat.reduceSub])

theorem vmulVv (c d a b m) : Statement (.vmulVv c d a b m) :=
  ofOp (op := .vmulVv) (n := 0 |> put 41#6 |> put c |> put d |> put a |> put b |> put m |> put 7#4) rfl
    (fun _ => by simp [opOf, opVint, extract_wordOf, partOf_put, partOf_put_zero, Nat.reduceLeDiff, Nat.reduceAdd, Nat.reduceSub])
    (fun _ => rfl)
    (by
      change Instr.vmulVv _ _ _ _ _ = _
      simp only [extract_wordOf, partOf_put, partOf_put_zero, Nat.reduceLeDiff, Nat.reduceAdd, Nat.reduceSub])

theorem vmulVx (c d a x m) : Statement (.vmulVx c d a x m) :=
  ofOp (op := .vmulVx) (n := 0 |> put 41#6 |> put c |> put d |> put a |> put x |> put m |> put 8#4) rfl
    (fun _ => by simp [opOf, opVint, extract_wordOf, partOf_put, partOf_put_zero, Nat.reduceLeDiff, Nat.reduceAdd, Nat.reduceSub])
    (fun hw => by
      change (codeOk ((wordOf (0 |> put 41#6 |> put c |> put d |> put a |> put x |> put m |> put 8#4)).extractLsb' 7 6)) = true
      simp only [extract_wordOf, partOf_put, partOf_put_zero, Nat.reduceLeDiff, Nat.reduceAdd, Nat.reduceSub]
      exact hw)
    (by
      change Instr.vmulVx _ _ _ _ _ = _
      simp only [extract_wordOf, partOf_put, partOf_put_zero, Nat.reduceLeDiff, Nat.reduceAdd, Nat.reduceSub])

theorem vmulh (c d a b m) : Statement (.vmulh c d a b m) :=
  ofOp (op := .vmulh) (n := 0 |> put 41#6 |> put c |> put d |> put a |> put b |> put m |> put 9#4) rfl
    (fun _ => by simp [opOf, opVint, extract_wordOf, partOf_put, partOf_put_zero, Nat.reduceLeDiff, Nat.reduceAdd, Nat.reduceSub])
    (fun _ => rfl)
    (by
      change Instr.vmulh _ _ _ _ _ = _
      simp only [extract_wordOf, partOf_put, partOf_put_zero, Nat.reduceLeDiff, Nat.reduceAdd, Nat.reduceSub])

theorem vmulhuVv (c d a b m) : Statement (.vmulhuVv c d a b m) :=
  ofOp (op := .vmulhuVv) (n := 0 |> put 41#6 |> put c |> put d |> put a |> put b |> put m |> put 10#4) rfl
    (fun _ => by simp [opOf, opVint, extract_wordOf, partOf_put, partOf_put_zero, Nat.reduceLeDiff, Nat.reduceAdd, Nat.reduceSub])
    (fun _ => rfl)
    (by
      change Instr.vmulhuVv _ _ _ _ _ = _
      simp only [extract_wordOf, partOf_put, partOf_put_zero, Nat.reduceLeDiff, Nat.reduceAdd, Nat.reduceSub])

theorem vmulhuVx (c d a x m) : Statement (.vmulhuVx c d a x m) :=
  ofOp (op := .vmulhuVx) (n := 0 |> put 41#6 |> put c |> put d |> put a |> put x |> put m |> put 11#4) rfl
    (fun _ => by simp [opOf, opVint, extract_wordOf, partOf_put, partOf_put_zero, Nat.reduceLeDiff, Nat.reduceAdd, Nat.reduceSub])
    (fun hw => by
      change (codeOk ((wordOf (0 |> put 41#6 |> put c |> put d |> put a |> put x |> put m |> put 11#4)).extractLsb' 7 6)) = true
      simp only [extract_wordOf, partOf_put, partOf_put_zero, Nat.reduceLeDiff, Nat.reduceAdd, Nat.reduceSub]
      exact hw)
    (by
      change Instr.vmulhuVx _ _ _ _ _ = _
      simp only [extract_wordOf, partOf_put, partOf_put_zero, Nat.reduceLeDiff, Nat.reduceAdd, Nat.reduceSub])

theorem vmulhsu (c d a b m) : Statement (.vmulhsu c d a b m) :=
  ofOp (op := .vmulhsu) (n := 0 |> put 41#6 |> put c |> put d |> put a |> put b |> put m |> put 12#4) rfl
    (fun _ => by simp [opOf, opVint, extract_wordOf, partOf_put, partOf_put_zero, Nat.reduceLeDiff, Nat.reduceAdd, Nat.reduceSub])
    (fun _ => rfl)
    (by
      change Instr.vmulhsu _ _ _ _ _ = _
      simp only [extract_wordOf, partOf_put, partOf_put_zero, Nat.reduceLeDiff, Nat.reduceAdd, Nat.reduceSub])

theorem vsadd (c d a b m) : Statement (.vsadd c d a b m) :=
  ofOp (op := .vsadd) (n := 0 |> put 41#6 |> put c |> put d |> put a |> put b |> put m |> put 13#4) rfl
    (fun _ => by simp [opOf, opVint, extract_wordOf, partOf_put, partOf_put_zero, Nat.reduceLeDiff, Nat.reduceAdd, Nat.reduceSub])
    (fun _ => rfl)
    (by
      change Instr.vsadd _ _ _ _ _ = _
      simp only [extract_wordOf, partOf_put, partOf_put_zero, Nat.reduceLeDiff, Nat.reduceAdd, Nat.reduceSub])

theorem vsaddu (c d a b m) : Statement (.vsaddu c d a b m) :=
  ofOp (op := .vsaddu) (n := 0 |> put 41#6 |> put c |> put d |> put a |> put b |> put m |> put 14#4) rfl
    (fun _ => by simp [opOf, opVint, extract_wordOf, partOf_put, partOf_put_zero, Nat.reduceLeDiff, Nat.reduceAdd, Nat.reduceSub])
    (fun _ => rfl)
    (by
      change Instr.vsaddu _ _ _ _ _ = _
      simp only [extract_wordOf, partOf_put, partOf_put_zero, Nat.reduceLeDiff, Nat.reduceAdd, Nat.reduceSub])

theorem vssub (c d a b m) : Statement (.vssub c d a b m) :=
  ofOp (op := .vssub) (n := 0 |> put 41#6 |> put c |> put d |> put a |> put b |> put m |> put 15#4) rfl
    (fun _ => by simp [opOf, opVint, extract_wordOf, partOf_put, partOf_put_zero, Nat.reduceLeDiff, Nat.reduceAdd, Nat.reduceSub])
    (fun _ => rfl)
    (by
      change Instr.vssub _ _ _ _ _ = _
      simp only [extract_wordOf, partOf_put, partOf_put_zero, Nat.reduceLeDiff, Nat.reduceAdd, Nat.reduceSub])

theorem vandVv (c d a b m) : Statement (.vandVv c d a b m) :=
  ofOp (op := .vandVv) (n := 0 |> put 42#6 |> put c |> put d |> put a |> put b |> put m |> put 0#4) rfl
    (fun _ => by simp [opOf, opVlogic, extract_wordOf, partOf_put, partOf_put_zero, Nat.reduceLeDiff, Nat.reduceAdd, Nat.reduceSub])
    (fun _ => rfl)
    (by
      change Instr.vandVv _ _ _ _ _ = _
      simp only [extract_wordOf, partOf_put, partOf_put_zero, Nat.reduceLeDiff, Nat.reduceAdd, Nat.reduceSub])

theorem vandVx (c d a x m) : Statement (.vandVx c d a x m) :=
  ofOp (op := .vandVx) (n := 0 |> put 42#6 |> put c |> put d |> put a |> put x |> put m |> put 1#4) rfl
    (fun _ => by simp [opOf, opVlogic, extract_wordOf, partOf_put, partOf_put_zero, Nat.reduceLeDiff, Nat.reduceAdd, Nat.reduceSub])
    (fun hw => by
      change (codeOk ((wordOf (0 |> put 42#6 |> put c |> put d |> put a |> put x |> put m |> put 1#4)).extractLsb' 7 6)) = true
      simp only [extract_wordOf, partOf_put, partOf_put_zero, Nat.reduceLeDiff, Nat.reduceAdd, Nat.reduceSub]
      exact hw)
    (by
      change Instr.vandVx _ _ _ _ _ = _
      simp only [extract_wordOf, partOf_put, partOf_put_zero, Nat.reduceLeDiff, Nat.reduceAdd, Nat.reduceSub])

theorem vorVv (c d a b m) : Statement (.vorVv c d a b m) :=
  ofOp (op := .vorVv) (n := 0 |> put 42#6 |> put c |> put d |> put a |> put b |> put m |> put 2#4) rfl
    (fun _ => by simp [opOf, opVlogic, extract_wordOf, partOf_put, partOf_put_zero, Nat.reduceLeDiff, Nat.reduceAdd, Nat.reduceSub])
    (fun _ => rfl)
    (by
      change Instr.vorVv _ _ _ _ _ = _
      simp only [extract_wordOf, partOf_put, partOf_put_zero, Nat.reduceLeDiff, Nat.reduceAdd, Nat.reduceSub])

theorem vorVx (c d a x m) : Statement (.vorVx c d a x m) :=
  ofOp (op := .vorVx) (n := 0 |> put 42#6 |> put c |> put d |> put a |> put x |> put m |> put 3#4) rfl
    (fun _ => by simp [opOf, opVlogic, extract_wordOf, partOf_put, partOf_put_zero, Nat.reduceLeDiff, Nat.reduceAdd, Nat.reduceSub])
    (fun hw => by
      change (codeOk ((wordOf (0 |> put 42#6 |> put c |> put d |> put a |> put x |> put m |> put 3#4)).extractLsb' 7 6)) = true
      simp only [extract_wordOf, partOf_put, partOf_put_zero, Nat.reduceLeDiff, Nat.reduceAdd, Nat.reduceSub]
      exact hw)
    (by
      change Instr.vorVx _ _ _ _ _ = _
      simp only [extract_wordOf, partOf_put, partOf_put_zero, Nat.reduceLeDiff, Nat.reduceAdd, Nat.reduceSub])

theorem vxorVv (c d a b m) : Statement (.vxorVv c d a b m) :=
  ofOp (op := .vxorVv) (n := 0 |> put 42#6 |> put c |> put d |> put a |> put b |> put m |> put 4#4) rfl
    (fun _ => by simp [opOf, opVlogic, extract_wordOf, partOf_put, partOf_put_zero, Nat.reduceLeDiff, Nat.reduceAdd, Nat.reduceSub])
    (fun _ => rfl)
    (by
      change Instr.vxorVv _ _ _ _ _ = _
      simp only [extract_wordOf, partOf_put, partOf_put_zero, Nat.reduceLeDiff, Nat.reduceAdd, Nat.reduceSub])

theorem vxorVi (c d a i m) : Statement (.vxorVi c d a i m) :=
  ofOp (op := .vxorVi) (n := 0 |> put 42#6 |> put c |> put d |> put a |> put i |> put m |> put 5#4) rfl
    (fun _ => by simp [opOf, opVlogic, extract_wordOf, partOf_put, partOf_put_zero, Nat.reduceLeDiff, Nat.reduceAdd, Nat.reduceSub])
    (fun _ => rfl)
    (by
      change Instr.vxorVi _ _ _ _ _ = _
      simp only [extract_wordOf, partOf_put, partOf_put_zero, Nat.reduceLeDiff, Nat.reduceAdd, Nat.reduceSub])

theorem vxorVx (c d a x m) : Statement (.vxorVx c d a x m) :=
  ofOp (op := .vxorVx) (n := 0 |> put 42#6 |> put c |> put d |> put a |> put x |> put m |> put 6#4) rfl
    (fun _ => by simp [opOf, opVlogic, extract_wordOf, partOf_put, partOf_put_zero, Nat.reduceLeDiff, Nat.reduceAdd, Nat.reduceSub])
    (fun hw => by
      change (codeOk ((wordOf (0 |> put 42#6 |> put c |> put d |> put a |> put x |> put m |> put 6#4)).extractLsb' 7 6)) = true
      simp only [extract_wordOf, partOf_put, partOf_put_zero, Nat.reduceLeDiff, Nat.reduceAdd, Nat.reduceSub]
      exact hw)
    (by
      change Instr.vxorVx _ _ _ _ _ = _
      simp only [extract_wordOf, partOf_put, partOf_put_zero, Nat.reduceLeDiff, Nat.reduceAdd, Nat.reduceSub])

theorem vandn (c d a b m) : Statement (.vandn c d a b m) :=
  ofOp (op := .vandn) (n := 0 |> put 42#6 |> put c |> put d |> put a |> put b |> put m |> put 7#4) rfl
    (fun _ => by simp [opOf, opVlogic, extract_wordOf, partOf_put, partOf_put_zero, Nat.reduceLeDiff, Nat.reduceAdd, Nat.reduceSub])
    (fun _ => rfl)
    (by
      change Instr.vandn _ _ _ _ _ = _
      simp only [extract_wordOf, partOf_put, partOf_put_zero, Nat.reduceLeDiff, Nat.reduceAdd, Nat.reduceSub])

theorem vmergeVv (c d a b m) : Statement (.vmergeVv c d a b m) :=
  ofOp (op := .vmergeVv) (n := 0 |> put 42#6 |> put c |> put d |> put a |> put b |> put m |> put 8#4) rfl
    (fun _ => by simp [opOf, opVlogic, extract_wordOf, partOf_put, partOf_put_zero, Nat.reduceLeDiff, Nat.reduceAdd, Nat.reduceSub])
    (fun hw => by
      change (mergeOk ((wordOf (0 |> put 42#6 |> put c |> put d |> put a |> put b |> put m |> put 8#4)).extractLsb' 4 3) ((wordOf (0 |> put 42#6 |> put c |> put d |> put a |> put b |> put m |> put 8#4)).extractLsb' 13 6)) = true
      simp only [extract_wordOf, partOf_put, partOf_put_zero, Nat.reduceLeDiff, Nat.reduceAdd, Nat.reduceSub]
      exact hw)
    (by
      change Instr.vmergeVv _ _ _ _ _ = _
      simp only [extract_wordOf, partOf_put, partOf_put_zero, Nat.reduceLeDiff, Nat.reduceAdd, Nat.reduceSub])

theorem vmergeVx (c d a x m) : Statement (.vmergeVx c d a x m) :=
  ofOp (op := .vmergeVx) (n := 0 |> put 42#6 |> put c |> put d |> put a |> put x |> put m |> put 9#4) rfl
    (fun _ => by simp [opOf, opVlogic, extract_wordOf, partOf_put, partOf_put_zero, Nat.reduceLeDiff, Nat.reduceAdd, Nat.reduceSub])
    (fun hw => by
      change (codeOk ((wordOf (0 |> put 42#6 |> put c |> put d |> put a |> put x |> put m |> put 9#4)).extractLsb' 7 6) && mergeOk ((wordOf (0 |> put 42#6 |> put c |> put d |> put a |> put x |> put m |> put 9#4)).extractLsb' 4 3) ((wordOf (0 |> put 42#6 |> put c |> put d |> put a |> put x |> put m |> put 9#4)).extractLsb' 13 6)) = true
      simp only [extract_wordOf, partOf_put, partOf_put_zero, Nat.reduceLeDiff, Nat.reduceAdd, Nat.reduceSub]
      exact hw)
    (by
      change Instr.vmergeVx _ _ _ _ _ = _
      simp only [extract_wordOf, partOf_put, partOf_put_zero, Nat.reduceLeDiff, Nat.reduceAdd, Nat.reduceSub])

theorem vmergeVi (c d a i m) : Statement (.vmergeVi c d a i m) :=
  ofOp (op := .vmergeVi) (n := 0 |> put 42#6 |> put c |> put d |> put a |> put i |> put m |> put 10#4) rfl
    (fun _ => by simp [opOf, opVlogic, extract_wordOf, partOf_put, partOf_put_zero, Nat.reduceLeDiff, Nat.reduceAdd, Nat.reduceSub])
    (fun hw => by
      change (mergeOk ((wordOf (0 |> put 42#6 |> put c |> put d |> put a |> put i |> put m |> put 10#4)).extractLsb' 4 3) ((wordOf (0 |> put 42#6 |> put c |> put d |> put a |> put i |> put m |> put 10#4)).extractLsb' 13 6)) = true
      simp only [extract_wordOf, partOf_put, partOf_put_zero, Nat.reduceLeDiff, Nat.reduceAdd, Nat.reduceSub]
      exact hw)
    (by
      change Instr.vmergeVi _ _ _ _ _ = _
      simp only [extract_wordOf, partOf_put, partOf_put_zero, Nat.reduceLeDiff, Nat.reduceAdd, Nat.reduceSub])

theorem vmin (c d a b m) : Statement (.vmin c d a b m) :=
  ofOp (op := .vmin) (n := 0 |> put 42#6 |> put c |> put d |> put a |> put b |> put m |> put 11#4) rfl
    (fun _ => by simp [opOf, opVlogic, extract_wordOf, partOf_put, partOf_put_zero, Nat.reduceLeDiff, Nat.reduceAdd, Nat.reduceSub])
    (fun _ => rfl)
    (by
      change Instr.vmin _ _ _ _ _ = _
      simp only [extract_wordOf, partOf_put, partOf_put_zero, Nat.reduceLeDiff, Nat.reduceAdd, Nat.reduceSub])

theorem vminu (c d a b m) : Statement (.vminu c d a b m) :=
  ofOp (op := .vminu) (n := 0 |> put 42#6 |> put c |> put d |> put a |> put b |> put m |> put 12#4) rfl
    (fun _ => by simp [opOf, opVlogic, extract_wordOf, partOf_put, partOf_put_zero, Nat.reduceLeDiff, Nat.reduceAdd, Nat.reduceSub])
    (fun _ => rfl)
    (by
      change Instr.vminu _ _ _ _ _ = _
      simp only [extract_wordOf, partOf_put, partOf_put_zero, Nat.reduceLeDiff, Nat.reduceAdd, Nat.reduceSub])

theorem vmax (c d a b m) : Statement (.vmax c d a b m) :=
  ofOp (op := .vmax) (n := 0 |> put 42#6 |> put c |> put d |> put a |> put b |> put m |> put 13#4) rfl
    (fun _ => by simp [opOf, opVlogic, extract_wordOf, partOf_put, partOf_put_zero, Nat.reduceLeDiff, Nat.reduceAdd, Nat.reduceSub])
    (fun _ => rfl)
    (by
      change Instr.vmax _ _ _ _ _ = _
      simp only [extract_wordOf, partOf_put, partOf_put_zero, Nat.reduceLeDiff, Nat.reduceAdd, Nat.reduceSub])

theorem vmaxu (c d a b m) : Statement (.vmaxu c d a b m) :=
  ofOp (op := .vmaxu) (n := 0 |> put 42#6 |> put c |> put d |> put a |> put b |> put m |> put 14#4) rfl
    (fun _ => by simp [opOf, opVlogic, extract_wordOf, partOf_put, partOf_put_zero, Nat.reduceLeDiff, Nat.reduceAdd, Nat.reduceSub])
    (fun _ => rfl)
    (by
      change Instr.vmaxu _ _ _ _ _ = _
      simp only [extract_wordOf, partOf_put, partOf_put_zero, Nat.reduceLeDiff, Nat.reduceAdd, Nat.reduceSub])

theorem vssubu (c d a b m) : Statement (.vssubu c d a b m) :=
  ofOp (op := .vssubu) (n := 0 |> put 42#6 |> put c |> put d |> put a |> put b |> put m |> put 15#4) rfl
    (fun _ => by simp [opOf, opVlogic, extract_wordOf, partOf_put, partOf_put_zero, Nat.reduceLeDiff, Nat.reduceAdd, Nat.reduceSub])
    (fun _ => rfl)
    (by
      change Instr.vssubu _ _ _ _ _ = _
      simp only [extract_wordOf, partOf_put, partOf_put_zero, Nat.reduceLeDiff, Nat.reduceAdd, Nat.reduceSub])

theorem vsllVv (c d a b m) : Statement (.vsllVv c d a b m) :=
  ofOp (op := .vsllVv) (n := 0 |> put 43#6 |> put c |> put d |> put a |> put b |> put m |> put 0#4) rfl
    (fun _ => by simp [opOf, opVshift, extract_wordOf, partOf_put, partOf_put_zero, Nat.reduceLeDiff, Nat.reduceAdd, Nat.reduceSub])
    (fun _ => rfl)
    (by
      change Instr.vsllVv _ _ _ _ _ = _
      simp only [extract_wordOf, partOf_put, partOf_put_zero, Nat.reduceLeDiff, Nat.reduceAdd, Nat.reduceSub])

theorem vsllVi (c d a i m) : Statement (.vsllVi c d a i m) :=
  ofOp (op := .vsllVi) (n := 0 |> put 43#6 |> put c |> put d |> put a |> put 0#1 |> put i |> put m |> put 1#4) rfl
    (fun _ => by simp [opOf, opVshift, extract_wordOf, partOf_put, partOf_put_zero, Nat.reduceLeDiff, Nat.reduceAdd, Nat.reduceSub])
    (fun _ => rfl)
    (by
      change Instr.vsllVi _ _ _ _ _ = _
      simp only [extract_wordOf, partOf_put, partOf_put_zero, Nat.reduceLeDiff, Nat.reduceAdd, Nat.reduceSub])

theorem vsrlVv (c d a b m) : Statement (.vsrlVv c d a b m) :=
  ofOp (op := .vsrlVv) (n := 0 |> put 43#6 |> put c |> put d |> put a |> put b |> put m |> put 2#4) rfl
    (fun _ => by simp [opOf, opVshift, extract_wordOf, partOf_put, partOf_put_zero, Nat.reduceLeDiff, Nat.reduceAdd, Nat.reduceSub])
    (fun _ => rfl)
    (by
      change Instr.vsrlVv _ _ _ _ _ = _
      simp only [extract_wordOf, partOf_put, partOf_put_zero, Nat.reduceLeDiff, Nat.reduceAdd, Nat.reduceSub])

theorem vsrlVi (c d a i m) : Statement (.vsrlVi c d a i m) :=
  ofOp (op := .vsrlVi) (n := 0 |> put 43#6 |> put c |> put d |> put a |> put 0#1 |> put i |> put m |> put 3#4) rfl
    (fun _ => by simp [opOf, opVshift, extract_wordOf, partOf_put, partOf_put_zero, Nat.reduceLeDiff, Nat.reduceAdd, Nat.reduceSub])
    (fun _ => rfl)
    (by
      change Instr.vsrlVi _ _ _ _ _ = _
      simp only [extract_wordOf, partOf_put, partOf_put_zero, Nat.reduceLeDiff, Nat.reduceAdd, Nat.reduceSub])

theorem vsraVv (c d a b m) : Statement (.vsraVv c d a b m) :=
  ofOp (op := .vsraVv) (n := 0 |> put 43#6 |> put c |> put d |> put a |> put b |> put m |> put 4#4) rfl
    (fun _ => by simp [opOf, opVshift, extract_wordOf, partOf_put, partOf_put_zero, Nat.reduceLeDiff, Nat.reduceAdd, Nat.reduceSub])
    (fun _ => rfl)
    (by
      change Instr.vsraVv _ _ _ _ _ = _
      simp only [extract_wordOf, partOf_put, partOf_put_zero, Nat.reduceLeDiff, Nat.reduceAdd, Nat.reduceSub])

theorem vsraVi (c d a i m) : Statement (.vsraVi c d a i m) :=
  ofOp (op := .vsraVi) (n := 0 |> put 43#6 |> put c |> put d |> put a |> put 0#1 |> put i |> put m |> put 5#4) rfl
    (fun _ => by simp [opOf, opVshift, extract_wordOf, partOf_put, partOf_put_zero, Nat.reduceLeDiff, Nat.reduceAdd, Nat.reduceSub])
    (fun _ => rfl)
    (by
      change Instr.vsraVi _ _ _ _ _ = _
      simp only [extract_wordOf, partOf_put, partOf_put_zero, Nat.reduceLeDiff, Nat.reduceAdd, Nat.reduceSub])

theorem vmseqVv (c d a b m) : Statement (.vmseqVv c d a b m) :=
  ofOp (op := .vmseqVv) (n := 0 |> put 43#6 |> put c |> put 0#3 |> put d |> put a |> put b |> put m |> put 6#4) rfl
    (fun _ => by simp [opOf, opVshift, extract_wordOf, partOf_put, partOf_put_zero, Nat.reduceLeDiff, Nat.reduceAdd, Nat.reduceSub])
    (fun hw => by
      change (((wordOf (0 |> put 43#6 |> put c |> put 0#3 |> put d |> put a |> put b |> put m |> put 6#4)).extractLsb' 19 3) != 0) = true
      simp only [extract_wordOf, partOf_put, partOf_put_zero, Nat.reduceLeDiff, Nat.reduceAdd, Nat.reduceSub]
      exact hw)
    (by
      change Instr.vmseqVv _ _ _ _ _ = _
      simp only [extract_wordOf, partOf_put, partOf_put_zero, Nat.reduceLeDiff, Nat.reduceAdd, Nat.reduceSub])

theorem vmseqVx (c d a x m) : Statement (.vmseqVx c d a x m) :=
  ofOp (op := .vmseqVx) (n := 0 |> put 43#6 |> put c |> put 0#3 |> put d |> put a |> put x |> put m |> put 7#4) rfl
    (fun _ => by simp [opOf, opVshift, extract_wordOf, partOf_put, partOf_put_zero, Nat.reduceLeDiff, Nat.reduceAdd, Nat.reduceSub])
    (fun hw => by
      change (codeOk ((wordOf (0 |> put 43#6 |> put c |> put 0#3 |> put d |> put a |> put x |> put m |> put 7#4)).extractLsb' 7 6) && ((wordOf (0 |> put 43#6 |> put c |> put 0#3 |> put d |> put a |> put x |> put m |> put 7#4)).extractLsb' 19 3) != 0) = true
      simp only [extract_wordOf, partOf_put, partOf_put_zero, Nat.reduceLeDiff, Nat.reduceAdd, Nat.reduceSub]
      exact hw)
    (by
      change Instr.vmseqVx _ _ _ _ _ = _
      simp only [extract_wordOf, partOf_put, partOf_put_zero, Nat.reduceLeDiff, Nat.reduceAdd, Nat.reduceSub])

theorem vmsne (c d a b m) : Statement (.vmsne c d a b m) :=
  ofOp (op := .vmsne) (n := 0 |> put 43#6 |> put c |> put 0#3 |> put d |> put a |> put b |> put m |> put 8#4) rfl
    (fun _ => by simp [opOf, opVshift, extract_wordOf, partOf_put, partOf_put_zero, Nat.reduceLeDiff, Nat.reduceAdd, Nat.reduceSub])
    (fun hw => by
      change (((wordOf (0 |> put 43#6 |> put c |> put 0#3 |> put d |> put a |> put b |> put m |> put 8#4)).extractLsb' 19 3) != 0) = true
      simp only [extract_wordOf, partOf_put, partOf_put_zero, Nat.reduceLeDiff, Nat.reduceAdd, Nat.reduceSub]
      exact hw)
    (by
      change Instr.vmsne _ _ _ _ _ = _
      simp only [extract_wordOf, partOf_put, partOf_put_zero, Nat.reduceLeDiff, Nat.reduceAdd, Nat.reduceSub])

theorem vmslt (c d a b m) : Statement (.vmslt c d a b m) :=
  ofOp (op := .vmslt) (n := 0 |> put 43#6 |> put c |> put 0#3 |> put d |> put a |> put b |> put m |> put 9#4) rfl
    (fun _ => by simp [opOf, opVshift, extract_wordOf, partOf_put, partOf_put_zero, Nat.reduceLeDiff, Nat.reduceAdd, Nat.reduceSub])
    (fun hw => by
      change (((wordOf (0 |> put 43#6 |> put c |> put 0#3 |> put d |> put a |> put b |> put m |> put 9#4)).extractLsb' 19 3) != 0) = true
      simp only [extract_wordOf, partOf_put, partOf_put_zero, Nat.reduceLeDiff, Nat.reduceAdd, Nat.reduceSub]
      exact hw)
    (by
      change Instr.vmslt _ _ _ _ _ = _
      simp only [extract_wordOf, partOf_put, partOf_put_zero, Nat.reduceLeDiff, Nat.reduceAdd, Nat.reduceSub])

theorem vmsltuVv (c d a b m) : Statement (.vmsltuVv c d a b m) :=
  ofOp (op := .vmsltuVv) (n := 0 |> put 43#6 |> put c |> put 0#3 |> put d |> put a |> put b |> put m |> put 10#4) rfl
    (fun _ => by simp [opOf, opVshift, extract_wordOf, partOf_put, partOf_put_zero, Nat.reduceLeDiff, Nat.reduceAdd, Nat.reduceSub])
    (fun hw => by
      change (((wordOf (0 |> put 43#6 |> put c |> put 0#3 |> put d |> put a |> put b |> put m |> put 10#4)).extractLsb' 19 3) != 0) = true
      simp only [extract_wordOf, partOf_put, partOf_put_zero, Nat.reduceLeDiff, Nat.reduceAdd, Nat.reduceSub]
      exact hw)
    (by
      change Instr.vmsltuVv _ _ _ _ _ = _
      simp only [extract_wordOf, partOf_put, partOf_put_zero, Nat.reduceLeDiff, Nat.reduceAdd, Nat.reduceSub])

theorem vmsle (c d a b m) : Statement (.vmsle c d a b m) :=
  ofOp (op := .vmsle) (n := 0 |> put 43#6 |> put c |> put 0#3 |> put d |> put a |> put b |> put m |> put 11#4) rfl
    (fun _ => by simp [opOf, opVshift, extract_wordOf, partOf_put, partOf_put_zero, Nat.reduceLeDiff, Nat.reduceAdd, Nat.reduceSub])
    (fun hw => by
      change (((wordOf (0 |> put 43#6 |> put c |> put 0#3 |> put d |> put a |> put b |> put m |> put 11#4)).extractLsb' 19 3) != 0) = true
      simp only [extract_wordOf, partOf_put, partOf_put_zero, Nat.reduceLeDiff, Nat.reduceAdd, Nat.reduceSub]
      exact hw)
    (by
      change Instr.vmsle _ _ _ _ _ = _
      simp only [extract_wordOf, partOf_put, partOf_put_zero, Nat.reduceLeDiff, Nat.reduceAdd, Nat.reduceSub])

theorem vmsleu (c d a b m) : Statement (.vmsleu c d a b m) :=
  ofOp (op := .vmsleu) (n := 0 |> put 43#6 |> put c |> put 0#3 |> put d |> put a |> put b |> put m |> put 12#4) rfl
    (fun _ => by simp [opOf, opVshift, extract_wordOf, partOf_put, partOf_put_zero, Nat.reduceLeDiff, Nat.reduceAdd, Nat.reduceSub])
    (fun hw => by
      change (((wordOf (0 |> put 43#6 |> put c |> put 0#3 |> put d |> put a |> put b |> put m |> put 12#4)).extractLsb' 19 3) != 0) = true
      simp only [extract_wordOf, partOf_put, partOf_put_zero, Nat.reduceLeDiff, Nat.reduceAdd, Nat.reduceSub]
      exact hw)
    (by
      change Instr.vmsleu _ _ _ _ _ = _
      simp only [extract_wordOf, partOf_put, partOf_put_zero, Nat.reduceLeDiff, Nat.reduceAdd, Nat.reduceSub])

theorem vmsgt (c d a x m) : Statement (.vmsgt c d a x m) :=
  ofOp (op := .vmsgt) (n := 0 |> put 43#6 |> put c |> put 0#3 |> put d |> put a |> put x |> put m |> put 13#4) rfl
    (fun _ => by simp [opOf, opVshift, extract_wordOf, partOf_put, partOf_put_zero, Nat.reduceLeDiff, Nat.reduceAdd, Nat.reduceSub])
    (fun hw => by
      change (codeOk ((wordOf (0 |> put 43#6 |> put c |> put 0#3 |> put d |> put a |> put x |> put m |> put 13#4)).extractLsb' 7 6) && ((wordOf (0 |> put 43#6 |> put c |> put 0#3 |> put d |> put a |> put x |> put m |> put 13#4)).extractLsb' 19 3) != 0) = true
      simp only [extract_wordOf, partOf_put, partOf_put_zero, Nat.reduceLeDiff, Nat.reduceAdd, Nat.reduceSub]
      exact hw)
    (by
      change Instr.vmsgt _ _ _ _ _ = _
      simp only [extract_wordOf, partOf_put, partOf_put_zero, Nat.reduceLeDiff, Nat.reduceAdd, Nat.reduceSub])

theorem vmsgtu (c d a x m) : Statement (.vmsgtu c d a x m) :=
  ofOp (op := .vmsgtu) (n := 0 |> put 43#6 |> put c |> put 0#3 |> put d |> put a |> put x |> put m |> put 14#4) rfl
    (fun _ => by simp [opOf, opVshift, extract_wordOf, partOf_put, partOf_put_zero, Nat.reduceLeDiff, Nat.reduceAdd, Nat.reduceSub])
    (fun hw => by
      change (codeOk ((wordOf (0 |> put 43#6 |> put c |> put 0#3 |> put d |> put a |> put x |> put m |> put 14#4)).extractLsb' 7 6) && ((wordOf (0 |> put 43#6 |> put c |> put 0#3 |> put d |> put a |> put x |> put m |> put 14#4)).extractLsb' 19 3) != 0) = true
      simp only [extract_wordOf, partOf_put, partOf_put_zero, Nat.reduceLeDiff, Nat.reduceAdd, Nat.reduceSub]
      exact hw)
    (by
      change Instr.vmsgtu _ _ _ _ _ = _
      simp only [extract_wordOf, partOf_put, partOf_put_zero, Nat.reduceLeDiff, Nat.reduceAdd, Nat.reduceSub])

theorem vmsltuVx (c d a x m) : Statement (.vmsltuVx c d a x m) :=
  ofOp (op := .vmsltuVx) (n := 0 |> put 43#6 |> put c |> put 0#3 |> put d |> put a |> put x |> put m |> put 15#4) rfl
    (fun _ => by simp [opOf, opVshift, extract_wordOf, partOf_put, partOf_put_zero, Nat.reduceLeDiff, Nat.reduceAdd, Nat.reduceSub])
    (fun hw => by
      change (codeOk ((wordOf (0 |> put 43#6 |> put c |> put 0#3 |> put d |> put a |> put x |> put m |> put 15#4)).extractLsb' 7 6) && ((wordOf (0 |> put 43#6 |> put c |> put 0#3 |> put d |> put a |> put x |> put m |> put 15#4)).extractLsb' 19 3) != 0) = true
      simp only [extract_wordOf, partOf_put, partOf_put_zero, Nat.reduceLeDiff, Nat.reduceAdd, Nat.reduceSub]
      exact hw)
    (by
      change Instr.vmsltuVx _ _ _ _ _ = _
      simp only [extract_wordOf, partOf_put, partOf_put_zero, Nat.reduceLeDiff, Nat.reduceAdd, Nat.reduceSub])

theorem vbslVx (c d a x) : Statement (.vbslVx c d a x) :=
  ofOp (op := .vbslVx) (n := 0 |> put 44#6 |> put c |> put d |> put a |> put x |> put 0#3 |> put 0#4) rfl
    (fun _ => by simp [opOf, opVbits, extract_wordOf, partOf_put, partOf_put_zero, Nat.reduceLeDiff, Nat.reduceAdd, Nat.reduceSub])
    (fun hw => by
      change (codeOk ((wordOf (0 |> put 44#6 |> put c |> put d |> put a |> put x |> put 0#3 |> put 0#4)).extractLsb' 7 6)) = true
      simp only [extract_wordOf, partOf_put, partOf_put_zero, Nat.reduceLeDiff, Nat.reduceAdd, Nat.reduceSub]
      exact hw)
    (by
      change Instr.vbslVx _ _ _ _ = _
      simp only [extract_wordOf, partOf_put, partOf_put_zero, Nat.reduceLeDiff, Nat.reduceAdd, Nat.reduceSub])

theorem vbslVi (c d a i) : Statement (.vbslVi c d a i) :=
  ofOp (op := .vbslVi) (n := 0 |> put 44#6 |> put c |> put d |> put a |> put 0#1 |> put i |> put 0#3 |> put 1#4) rfl
    (fun _ => by simp [opOf, opVbits, extract_wordOf, partOf_put, partOf_put_zero, Nat.reduceLeDiff, Nat.reduceAdd, Nat.reduceSub])
    (fun _ => rfl)
    (by
      change Instr.vbslVi _ _ _ _ = _
      simp only [extract_wordOf, partOf_put, partOf_put_zero, Nat.reduceLeDiff, Nat.reduceAdd, Nat.reduceSub])

theorem vbsrVx (c d a x) : Statement (.vbsrVx c d a x) :=
  ofOp (op := .vbsrVx) (n := 0 |> put 44#6 |> put c |> put d |> put a |> put x |> put 0#3 |> put 2#4) rfl
    (fun _ => by simp [opOf, opVbits, extract_wordOf, partOf_put, partOf_put_zero, Nat.reduceLeDiff, Nat.reduceAdd, Nat.reduceSub])
    (fun hw => by
      change (codeOk ((wordOf (0 |> put 44#6 |> put c |> put d |> put a |> put x |> put 0#3 |> put 2#4)).extractLsb' 7 6)) = true
      simp only [extract_wordOf, partOf_put, partOf_put_zero, Nat.reduceLeDiff, Nat.reduceAdd, Nat.reduceSub]
      exact hw)
    (by
      change Instr.vbsrVx _ _ _ _ = _
      simp only [extract_wordOf, partOf_put, partOf_put_zero, Nat.reduceLeDiff, Nat.reduceAdd, Nat.reduceSub])

theorem vbsrVi (c d a i) : Statement (.vbsrVi c d a i) :=
  ofOp (op := .vbsrVi) (n := 0 |> put 44#6 |> put c |> put d |> put a |> put 0#1 |> put i |> put 0#3 |> put 3#4) rfl
    (fun _ => by simp [opOf, opVbits, extract_wordOf, partOf_put, partOf_put_zero, Nat.reduceLeDiff, Nat.reduceAdd, Nat.reduceSub])
    (fun _ => rfl)
    (by
      change Instr.vbsrVi _ _ _ _ = _
      simp only [extract_wordOf, partOf_put, partOf_put_zero, Nat.reduceLeDiff, Nat.reduceAdd, Nat.reduceSub])

theorem vfsl (c d a x) : Statement (.vfsl c d a x) :=
  ofOp (op := .vfsl) (n := 0 |> put 44#6 |> put c |> put d |> put a |> put x |> put 0#3 |> put 4#4) rfl
    (fun _ => by simp [opOf, opVbits, extract_wordOf, partOf_put, partOf_put_zero, Nat.reduceLeDiff, Nat.reduceAdd, Nat.reduceSub])
    (fun hw => by
      change (codeOk ((wordOf (0 |> put 44#6 |> put c |> put d |> put a |> put x |> put 0#3 |> put 4#4)).extractLsb' 7 6)) = true
      simp only [extract_wordOf, partOf_put, partOf_put_zero, Nat.reduceLeDiff, Nat.reduceAdd, Nat.reduceSub]
      exact hw)
    (by
      change Instr.vfsl _ _ _ _ = _
      simp only [extract_wordOf, partOf_put, partOf_put_zero, Nat.reduceLeDiff, Nat.reduceAdd, Nat.reduceSub])

theorem vfsr (c d a x) : Statement (.vfsr c d a x) :=
  ofOp (op := .vfsr) (n := 0 |> put 44#6 |> put c |> put d |> put a |> put x |> put 0#3 |> put 5#4) rfl
    (fun _ => by simp [opOf, opVbits, extract_wordOf, partOf_put, partOf_put_zero, Nat.reduceLeDiff, Nat.reduceAdd, Nat.reduceSub])
    (fun hw => by
      change (codeOk ((wordOf (0 |> put 44#6 |> put c |> put d |> put a |> put x |> put 0#3 |> put 5#4)).extractLsb' 7 6)) = true
      simp only [extract_wordOf, partOf_put, partOf_put_zero, Nat.reduceLeDiff, Nat.reduceAdd, Nat.reduceSub]
      exact hw)
    (by
      change Instr.vfsr _ _ _ _ = _
      simp only [extract_wordOf, partOf_put, partOf_put_zero, Nat.reduceLeDiff, Nat.reduceAdd, Nat.reduceSub])

theorem vpopc (c d a m) : Statement (.vpopc c d a m) :=
  ofOp (op := .vpopc) (n := 0 |> put 44#6 |> put c |> put d |> put a |> put 0#6 |> put m |> put 6#4) rfl
    (fun _ => by simp [opOf, opVbits, extract_wordOf, partOf_put, partOf_put_zero, Nat.reduceLeDiff, Nat.reduceAdd, Nat.reduceSub])
    (fun _ => rfl)
    (by
      change Instr.vpopc _ _ _ _ = _
      simp only [extract_wordOf, partOf_put, partOf_put_zero, Nat.reduceLeDiff, Nat.reduceAdd, Nat.reduceSub])

theorem vclz (c d a m) : Statement (.vclz c d a m) :=
  ofOp (op := .vclz) (n := 0 |> put 44#6 |> put c |> put d |> put a |> put 0#6 |> put m |> put 7#4) rfl
    (fun _ => by simp [opOf, opVbits, extract_wordOf, partOf_put, partOf_put_zero, Nat.reduceLeDiff, Nat.reduceAdd, Nat.reduceSub])
    (fun _ => rfl)
    (by
      change Instr.vclz _ _ _ _ = _
      simp only [extract_wordOf, partOf_put, partOf_put_zero, Nat.reduceLeDiff, Nat.reduceAdd, Nat.reduceSub])

theorem vctz (c d a m) : Statement (.vctz c d a m) :=
  ofOp (op := .vctz) (n := 0 |> put 44#6 |> put c |> put d |> put a |> put 0#6 |> put m |> put 8#4) rfl
    (fun _ => by simp [opOf, opVbits, extract_wordOf, partOf_put, partOf_put_zero, Nat.reduceLeDiff, Nat.reduceAdd, Nat.reduceSub])
    (fun _ => rfl)
    (by
      change Instr.vctz _ _ _ _ = _
      simp only [extract_wordOf, partOf_put, partOf_put_zero, Nat.reduceLeDiff, Nat.reduceAdd, Nat.reduceSub])

theorem vbrev (c d a m) : Statement (.vbrev c d a m) :=
  ofOp (op := .vbrev) (n := 0 |> put 44#6 |> put c |> put d |> put a |> put 0#6 |> put m |> put 9#4) rfl
    (fun _ => by simp [opOf, opVbits, extract_wordOf, partOf_put, partOf_put_zero, Nat.reduceLeDiff, Nat.reduceAdd, Nat.reduceSub])
    (fun _ => rfl)
    (by
      change Instr.vbrev _ _ _ _ = _
      simp only [extract_wordOf, partOf_put, partOf_put_zero, Nat.reduceLeDiff, Nat.reduceAdd, Nat.reduceSub])

theorem vxchVx (c d a x m) : Statement (.vxchVx c d a x m) :=
  ofOp (op := .vxchVx) (n := 0 |> put 45#6 |> put c |> put d |> put a |> put x |> put m |> put 0#4) rfl
    (fun _ => by simp [opOf, opVperm, extract_wordOf, partOf_put, partOf_put_zero, Nat.reduceLeDiff, Nat.reduceAdd, Nat.reduceSub])
    (fun hw => by
      change (codeOk ((wordOf (0 |> put 45#6 |> put c |> put d |> put a |> put x |> put m |> put 0#4)).extractLsb' 7 6)) = true
      simp only [extract_wordOf, partOf_put, partOf_put_zero, Nat.reduceLeDiff, Nat.reduceAdd, Nat.reduceSub]
      exact hw)
    (by
      change Instr.vxchVx _ _ _ _ _ = _
      simp only [extract_wordOf, partOf_put, partOf_put_zero, Nat.reduceLeDiff, Nat.reduceAdd, Nat.reduceSub])

theorem vxchVi (c d a i m) : Statement (.vxchVi c d a i m) :=
  ofOp (op := .vxchVi) (n := 0 |> put 45#6 |> put c |> put d |> put a |> put 0#2 |> put i |> put m |> put 1#4) rfl
    (fun _ => by simp [opOf, opVperm, extract_wordOf, partOf_put, partOf_put_zero, Nat.reduceLeDiff, Nat.reduceAdd, Nat.reduceSub])
    (fun _ => rfl)
    (by
      change Instr.vxchVi _ _ _ _ _ = _
      simp only [extract_wordOf, partOf_put, partOf_put_zero, Nat.reduceLeDiff, Nat.reduceAdd, Nat.reduceSub])

theorem vslideupVx (c d a x m) : Statement (.vslideupVx c d a x m) :=
  ofOp (op := .vslideupVx) (n := 0 |> put 45#6 |> put c |> put d |> put a |> put x |> put m |> put 2#4) rfl
    (fun _ => by simp [opOf, opVperm, extract_wordOf, partOf_put, partOf_put_zero, Nat.reduceLeDiff, Nat.reduceAdd, Nat.reduceSub])
    (fun hw => by
      change (codeOk ((wordOf (0 |> put 45#6 |> put c |> put d |> put a |> put x |> put m |> put 2#4)).extractLsb' 7 6)) = true
      simp only [extract_wordOf, partOf_put, partOf_put_zero, Nat.reduceLeDiff, Nat.reduceAdd, Nat.reduceSub]
      exact hw)
    (by
      change Instr.vslideupVx _ _ _ _ _ = _
      simp only [extract_wordOf, partOf_put, partOf_put_zero, Nat.reduceLeDiff, Nat.reduceAdd, Nat.reduceSub])

theorem vslideupVi (c d a i m) : Statement (.vslideupVi c d a i m) :=
  ofOp (op := .vslideupVi) (n := 0 |> put 45#6 |> put c |> put d |> put a |> put 0#1 |> put i |> put m |> put 3#4) rfl
    (fun _ => by simp [opOf, opVperm, extract_wordOf, partOf_put, partOf_put_zero, Nat.reduceLeDiff, Nat.reduceAdd, Nat.reduceSub])
    (fun _ => rfl)
    (by
      change Instr.vslideupVi _ _ _ _ _ = _
      simp only [extract_wordOf, partOf_put, partOf_put_zero, Nat.reduceLeDiff, Nat.reduceAdd, Nat.reduceSub])

theorem vslidednVx (c d a x m) : Statement (.vslidednVx c d a x m) :=
  ofOp (op := .vslidednVx) (n := 0 |> put 45#6 |> put c |> put d |> put a |> put x |> put m |> put 4#4) rfl
    (fun _ => by simp [opOf, opVperm, extract_wordOf, partOf_put, partOf_put_zero, Nat.reduceLeDiff, Nat.reduceAdd, Nat.reduceSub])
    (fun hw => by
      change (codeOk ((wordOf (0 |> put 45#6 |> put c |> put d |> put a |> put x |> put m |> put 4#4)).extractLsb' 7 6)) = true
      simp only [extract_wordOf, partOf_put, partOf_put_zero, Nat.reduceLeDiff, Nat.reduceAdd, Nat.reduceSub]
      exact hw)
    (by
      change Instr.vslidednVx _ _ _ _ _ = _
      simp only [extract_wordOf, partOf_put, partOf_put_zero, Nat.reduceLeDiff, Nat.reduceAdd, Nat.reduceSub])

theorem vslidednVi (c d a i m) : Statement (.vslidednVi c d a i m) :=
  ofOp (op := .vslidednVi) (n := 0 |> put 45#6 |> put c |> put d |> put a |> put 0#1 |> put i |> put m |> put 5#4) rfl
    (fun _ => by simp [opOf, opVperm, extract_wordOf, partOf_put, partOf_put_zero, Nat.reduceLeDiff, Nat.reduceAdd, Nat.reduceSub])
    (fun _ => rfl)
    (by
      change Instr.vslidednVi _ _ _ _ _ = _
      simp only [extract_wordOf, partOf_put, partOf_put_zero, Nat.reduceLeDiff, Nat.reduceAdd, Nat.reduceSub])

theorem vslide1up (c d a x m) : Statement (.vslide1up c d a x m) :=
  ofOp (op := .vslide1up) (n := 0 |> put 45#6 |> put c |> put d |> put a |> put x |> put m |> put 6#4) rfl
    (fun _ => by simp [opOf, opVperm, extract_wordOf, partOf_put, partOf_put_zero, Nat.reduceLeDiff, Nat.reduceAdd, Nat.reduceSub])
    (fun hw => by
      change (codeOk ((wordOf (0 |> put 45#6 |> put c |> put d |> put a |> put x |> put m |> put 6#4)).extractLsb' 7 6)) = true
      simp only [extract_wordOf, partOf_put, partOf_put_zero, Nat.reduceLeDiff, Nat.reduceAdd, Nat.reduceSub]
      exact hw)
    (by
      change Instr.vslide1up _ _ _ _ _ = _
      simp only [extract_wordOf, partOf_put, partOf_put_zero, Nat.reduceLeDiff, Nat.reduceAdd, Nat.reduceSub])

theorem vslide1dn (c d a x m) : Statement (.vslide1dn c d a x m) :=
  ofOp (op := .vslide1dn) (n := 0 |> put 45#6 |> put c |> put d |> put a |> put x |> put m |> put 7#4) rfl
    (fun _ => by simp [opOf, opVperm, extract_wordOf, partOf_put, partOf_put_zero, Nat.reduceLeDiff, Nat.reduceAdd, Nat.reduceSub])
    (fun hw => by
      change (codeOk ((wordOf (0 |> put 45#6 |> put c |> put d |> put a |> put x |> put m |> put 7#4)).extractLsb' 7 6)) = true
      simp only [extract_wordOf, partOf_put, partOf_put_zero, Nat.reduceLeDiff, Nat.reduceAdd, Nat.reduceSub]
      exact hw)
    (by
      change Instr.vslide1dn _ _ _ _ _ = _
      simp only [extract_wordOf, partOf_put, partOf_put_zero, Nat.reduceLeDiff, Nat.reduceAdd, Nat.reduceSub])

theorem vpullVv (c d a b m) : Statement (.vpullVv c d a b m) :=
  ofOp (op := .vpullVv) (n := 0 |> put 45#6 |> put c |> put d |> put a |> put b |> put m |> put 8#4) rfl
    (fun _ => by simp [opOf, opVperm, extract_wordOf, partOf_put, partOf_put_zero, Nat.reduceLeDiff, Nat.reduceAdd, Nat.reduceSub])
    (fun _ => rfl)
    (by
      change Instr.vpullVv _ _ _ _ _ = _
      simp only [extract_wordOf, partOf_put, partOf_put_zero, Nat.reduceLeDiff, Nat.reduceAdd, Nat.reduceSub])

theorem vpullVx (c d a x m) : Statement (.vpullVx c d a x m) :=
  ofOp (op := .vpullVx) (n := 0 |> put 45#6 |> put c |> put d |> put a |> put x |> put m |> put 9#4) rfl
    (fun _ => by simp [opOf, opVperm, extract_wordOf, partOf_put, partOf_put_zero, Nat.reduceLeDiff, Nat.reduceAdd, Nat.reduceSub])
    (fun hw => by
      change (codeOk ((wordOf (0 |> put 45#6 |> put c |> put d |> put a |> put x |> put m |> put 9#4)).extractLsb' 7 6)) = true
      simp only [extract_wordOf, partOf_put, partOf_put_zero, Nat.reduceLeDiff, Nat.reduceAdd, Nat.reduceSub]
      exact hw)
    (by
      change Instr.vpullVx _ _ _ _ _ = _
      simp only [extract_wordOf, partOf_put, partOf_put_zero, Nat.reduceLeDiff, Nat.reduceAdd, Nat.reduceSub])

theorem vpush (c d a b m) : Statement (.vpush c d a b m) :=
  ofOp (op := .vpush) (n := 0 |> put 45#6 |> put c |> put d |> put a |> put b |> put m |> put 10#4) rfl
    (fun _ => by simp [opOf, opVperm, extract_wordOf, partOf_put, partOf_put_zero, Nat.reduceLeDiff, Nat.reduceAdd, Nat.reduceSub])
    (fun _ => rfl)
    (by
      change Instr.vpush _ _ _ _ _ = _
      simp only [extract_wordOf, partOf_put, partOf_put_zero, Nat.reduceLeDiff, Nat.reduceAdd, Nat.reduceSub])

theorem vcompress (c d a m) : Statement (.vcompress c d a m) :=
  ofOp (op := .vcompress) (n := 0 |> put 45#6 |> put c |> put d |> put a |> put 0#6 |> put m |> put 11#4) rfl
    (fun _ => by simp [opOf, opVperm, extract_wordOf, partOf_put, partOf_put_zero, Nat.reduceLeDiff, Nat.reduceAdd, Nat.reduceSub])
    (fun _ => rfl)
    (by
      change Instr.vcompress _ _ _ _ = _
      simp only [extract_wordOf, partOf_put, partOf_put_zero, Nat.reduceLeDiff, Nat.reduceAdd, Nat.reduceSub])

theorem vextr (c d a x) : Statement (.vextr c d a x) :=
  ofOp (op := .vextr) (n := 0 |> put 45#6 |> put c |> put 0#2 |> put d |> put a |> put x |> put 0#3 |> put 12#4) rfl
    (fun _ => by simp [opOf, opVperm, extract_wordOf, partOf_put, partOf_put_zero, Nat.reduceLeDiff, Nat.reduceAdd, Nat.reduceSub])
    (fun hw => by
      change (codeOk ((wordOf (0 |> put 45#6 |> put c |> put 0#2 |> put d |> put a |> put x |> put 0#3 |> put 12#4)).extractLsb' 7 6)) = true
      simp only [extract_wordOf, partOf_put, partOf_put_zero, Nat.reduceLeDiff, Nat.reduceAdd, Nat.reduceSub]
      exact hw)
    (by
      change Instr.vextr _ _ _ _ = _
      simp only [extract_wordOf, partOf_put, partOf_put_zero, Nat.reduceLeDiff, Nat.reduceAdd, Nat.reduceSub])

theorem vredsum (c d a b m) : Statement (.vredsum c d a b m) :=
  ofOp (op := .vredsum) (n := 0 |> put 46#6 |> put c |> put d |> put a |> put b |> put m |> put 0#4) rfl
    (fun _ => by simp [opOf, opVred, extract_wordOf, partOf_put, partOf_put_zero, Nat.reduceLeDiff, Nat.reduceAdd, Nat.reduceSub])
    (fun _ => rfl)
    (by
      change Instr.vredsum _ _ _ _ _ = _
      simp only [extract_wordOf, partOf_put, partOf_put_zero, Nat.reduceLeDiff, Nat.reduceAdd, Nat.reduceSub])

theorem vredsums (c d a b m) : Statement (.vredsums c d a b m) :=
  ofOp (op := .vredsums) (n := 0 |> put 46#6 |> put c |> put d |> put a |> put b |> put m |> put 1#4) rfl
    (fun _ => by simp [opOf, opVred, extract_wordOf, partOf_put, partOf_put_zero, Nat.reduceLeDiff, Nat.reduceAdd, Nat.reduceSub])
    (fun _ => rfl)
    (by
      change Instr.vredsums _ _ _ _ _ = _
      simp only [extract_wordOf, partOf_put, partOf_put_zero, Nat.reduceLeDiff, Nat.reduceAdd, Nat.reduceSub])

theorem vredmax (c d a b m) : Statement (.vredmax c d a b m) :=
  ofOp (op := .vredmax) (n := 0 |> put 46#6 |> put c |> put d |> put a |> put b |> put m |> put 2#4) rfl
    (fun _ => by simp [opOf, opVred, extract_wordOf, partOf_put, partOf_put_zero, Nat.reduceLeDiff, Nat.reduceAdd, Nat.reduceSub])
    (fun _ => rfl)
    (by
      change Instr.vredmax _ _ _ _ _ = _
      simp only [extract_wordOf, partOf_put, partOf_put_zero, Nat.reduceLeDiff, Nat.reduceAdd, Nat.reduceSub])

theorem vredmaxu (c d a b m) : Statement (.vredmaxu c d a b m) :=
  ofOp (op := .vredmaxu) (n := 0 |> put 46#6 |> put c |> put d |> put a |> put b |> put m |> put 3#4) rfl
    (fun _ => by simp [opOf, opVred, extract_wordOf, partOf_put, partOf_put_zero, Nat.reduceLeDiff, Nat.reduceAdd, Nat.reduceSub])
    (fun _ => rfl)
    (by
      change Instr.vredmaxu _ _ _ _ _ = _
      simp only [extract_wordOf, partOf_put, partOf_put_zero, Nat.reduceLeDiff, Nat.reduceAdd, Nat.reduceSub])

theorem vredmin (c d a b m) : Statement (.vredmin c d a b m) :=
  ofOp (op := .vredmin) (n := 0 |> put 46#6 |> put c |> put d |> put a |> put b |> put m |> put 4#4) rfl
    (fun _ => by simp [opOf, opVred, extract_wordOf, partOf_put, partOf_put_zero, Nat.reduceLeDiff, Nat.reduceAdd, Nat.reduceSub])
    (fun _ => rfl)
    (by
      change Instr.vredmin _ _ _ _ _ = _
      simp only [extract_wordOf, partOf_put, partOf_put_zero, Nat.reduceLeDiff, Nat.reduceAdd, Nat.reduceSub])

theorem vredminu (c d a b m) : Statement (.vredminu c d a b m) :=
  ofOp (op := .vredminu) (n := 0 |> put 46#6 |> put c |> put d |> put a |> put b |> put m |> put 5#4) rfl
    (fun _ => by simp [opOf, opVred, extract_wordOf, partOf_put, partOf_put_zero, Nat.reduceLeDiff, Nat.reduceAdd, Nat.reduceSub])
    (fun _ => rfl)
    (by
      change Instr.vredminu _ _ _ _ _ = _
      simp only [extract_wordOf, partOf_put, partOf_put_zero, Nat.reduceLeDiff, Nat.reduceAdd, Nat.reduceSub])

theorem vredand (c d a b m) : Statement (.vredand c d a b m) :=
  ofOp (op := .vredand) (n := 0 |> put 46#6 |> put c |> put d |> put a |> put b |> put m |> put 6#4) rfl
    (fun _ => by simp [opOf, opVred, extract_wordOf, partOf_put, partOf_put_zero, Nat.reduceLeDiff, Nat.reduceAdd, Nat.reduceSub])
    (fun _ => rfl)
    (by
      change Instr.vredand _ _ _ _ _ = _
      simp only [extract_wordOf, partOf_put, partOf_put_zero, Nat.reduceLeDiff, Nat.reduceAdd, Nat.reduceSub])

theorem vredor (c d a b m) : Statement (.vredor c d a b m) :=
  ofOp (op := .vredor) (n := 0 |> put 46#6 |> put c |> put d |> put a |> put b |> put m |> put 7#4) rfl
    (fun _ => by simp [opOf, opVred, extract_wordOf, partOf_put, partOf_put_zero, Nat.reduceLeDiff, Nat.reduceAdd, Nat.reduceSub])
    (fun _ => rfl)
    (by
      change Instr.vredor _ _ _ _ _ = _
      simp only [extract_wordOf, partOf_put, partOf_put_zero, Nat.reduceLeDiff, Nat.reduceAdd, Nat.reduceSub])

theorem vredxor (c d a b m) : Statement (.vredxor c d a b m) :=
  ofOp (op := .vredxor) (n := 0 |> put 46#6 |> put c |> put d |> put a |> put b |> put m |> put 8#4) rfl
    (fun _ => by simp [opOf, opVred, extract_wordOf, partOf_put, partOf_put_zero, Nat.reduceLeDiff, Nat.reduceAdd, Nat.reduceSub])
    (fun _ => rfl)
    (by
      change Instr.vredxor _ _ _ _ _ = _
      simp only [extract_wordOf, partOf_put, partOf_put_zero, Nat.reduceLeDiff, Nat.reduceAdd, Nat.reduceSub])

theorem vscansum (c d a b m) : Statement (.vscansum c d a b m) :=
  ofOp (op := .vscansum) (n := 0 |> put 46#6 |> put c |> put d |> put a |> put b |> put m |> put 9#4) rfl
    (fun _ => by simp [opOf, opVred, extract_wordOf, partOf_put, partOf_put_zero, Nat.reduceLeDiff, Nat.reduceAdd, Nat.reduceSub])
    (fun _ => rfl)
    (by
      change Instr.vscansum _ _ _ _ _ = _
      simp only [extract_wordOf, partOf_put, partOf_put_zero, Nat.reduceLeDiff, Nat.reduceAdd, Nat.reduceSub])

theorem vscanmax (c d a b m) : Statement (.vscanmax c d a b m) :=
  ofOp (op := .vscanmax) (n := 0 |> put 46#6 |> put c |> put d |> put a |> put b |> put m |> put 10#4) rfl
    (fun _ => by simp [opOf, opVred, extract_wordOf, partOf_put, partOf_put_zero, Nat.reduceLeDiff, Nat.reduceAdd, Nat.reduceSub])
    (fun _ => rfl)
    (by
      change Instr.vscanmax _ _ _ _ _ = _
      simp only [extract_wordOf, partOf_put, partOf_put_zero, Nat.reduceLeDiff, Nat.reduceAdd, Nat.reduceSub])

theorem vscanmin (c d a b m) : Statement (.vscanmin c d a b m) :=
  ofOp (op := .vscanmin) (n := 0 |> put 46#6 |> put c |> put d |> put a |> put b |> put m |> put 11#4) rfl
    (fun _ => by simp [opOf, opVred, extract_wordOf, partOf_put, partOf_put_zero, Nat.reduceLeDiff, Nat.reduceAdd, Nat.reduceSub])
    (fun _ => rfl)
    (by
      change Instr.vscanmin _ _ _ _ _ = _
      simp only [extract_wordOf, partOf_put, partOf_put_zero, Nat.reduceLeDiff, Nat.reduceAdd, Nat.reduceSub])

theorem vxscansum (c d a b m) : Statement (.vxscansum c d a b m) :=
  ofOp (op := .vxscansum) (n := 0 |> put 46#6 |> put c |> put d |> put a |> put b |> put m |> put 12#4) rfl
    (fun _ => by simp [opOf, opVred, extract_wordOf, partOf_put, partOf_put_zero, Nat.reduceLeDiff, Nat.reduceAdd, Nat.reduceSub])
    (fun _ => rfl)
    (by
      change Instr.vxscansum _ _ _ _ _ = _
      simp only [extract_wordOf, partOf_put, partOf_put_zero, Nat.reduceLeDiff, Nat.reduceAdd, Nat.reduceSub])

theorem vscanmaxu (c d a b m) : Statement (.vscanmaxu c d a b m) :=
  ofOp (op := .vscanmaxu) (n := 0 |> put 46#6 |> put c |> put d |> put a |> put b |> put m |> put 13#4) rfl
    (fun _ => by simp [opOf, opVred, extract_wordOf, partOf_put, partOf_put_zero, Nat.reduceLeDiff, Nat.reduceAdd, Nat.reduceSub])
    (fun _ => rfl)
    (by
      change Instr.vscanmaxu _ _ _ _ _ = _
      simp only [extract_wordOf, partOf_put, partOf_put_zero, Nat.reduceLeDiff, Nat.reduceAdd, Nat.reduceSub])

theorem vscanminu (c d a b m) : Statement (.vscanminu c d a b m) :=
  ofOp (op := .vscanminu) (n := 0 |> put 46#6 |> put c |> put d |> put a |> put b |> put m |> put 14#4) rfl
    (fun _ => by simp [opOf, opVred, extract_wordOf, partOf_put, partOf_put_zero, Nat.reduceLeDiff, Nat.reduceAdd, Nat.reduceSub])
    (fun _ => rfl)
    (by
      change Instr.vscanminu _ _ _ _ _ = _
      simp only [extract_wordOf, partOf_put, partOf_put_zero, Nat.reduceLeDiff, Nat.reduceAdd, Nat.reduceSub])

theorem mkand (c d a b m) : Statement (.mkand c d a b m) :=
  ofOp (op := .mkand) (n := 0 |> put 47#6 |> put c |> put 0#3 |> put d |> put 0#3 |> put a |> put 0#3 |> put b |> put m |> put 0#4) rfl
    (fun _ => by simp [opOf, opVmask, extract_wordOf, partOf_put, partOf_put_zero, Nat.reduceLeDiff, Nat.reduceAdd, Nat.reduceSub])
    (fun hw => by
      change (((wordOf (0 |> put 47#6 |> put c |> put 0#3 |> put d |> put 0#3 |> put a |> put 0#3 |> put b |> put m |> put 0#4)).extractLsb' 19 3) != 0 && ((wordOf (0 |> put 47#6 |> put c |> put 0#3 |> put d |> put 0#3 |> put a |> put 0#3 |> put b |> put m |> put 0#4)).extractLsb' 13 3) != 0 && ((wordOf (0 |> put 47#6 |> put c |> put 0#3 |> put d |> put 0#3 |> put a |> put 0#3 |> put b |> put m |> put 0#4)).extractLsb' 7 3) != 0) = true
      simp only [extract_wordOf, partOf_put, partOf_put_zero, Nat.reduceLeDiff, Nat.reduceAdd, Nat.reduceSub]
      exact hw)
    (by
      change Instr.mkand _ _ _ _ _ = _
      simp only [extract_wordOf, partOf_put, partOf_put_zero, Nat.reduceLeDiff, Nat.reduceAdd, Nat.reduceSub])

theorem mkor (c d a b m) : Statement (.mkor c d a b m) :=
  ofOp (op := .mkor) (n := 0 |> put 47#6 |> put c |> put 0#3 |> put d |> put 0#3 |> put a |> put 0#3 |> put b |> put m |> put 1#4) rfl
    (fun _ => by simp [opOf, opVmask, extract_wordOf, partOf_put, partOf_put_zero, Nat.reduceLeDiff, Nat.reduceAdd, Nat.reduceSub])
    (fun hw => by
      change (((wordOf (0 |> put 47#6 |> put c |> put 0#3 |> put d |> put 0#3 |> put a |> put 0#3 |> put b |> put m |> put 1#4)).extractLsb' 19 3) != 0 && ((wordOf (0 |> put 47#6 |> put c |> put 0#3 |> put d |> put 0#3 |> put a |> put 0#3 |> put b |> put m |> put 1#4)).extractLsb' 13 3) != 0 && ((wordOf (0 |> put 47#6 |> put c |> put 0#3 |> put d |> put 0#3 |> put a |> put 0#3 |> put b |> put m |> put 1#4)).extractLsb' 7 3) != 0) = true
      simp only [extract_wordOf, partOf_put, partOf_put_zero, Nat.reduceLeDiff, Nat.reduceAdd, Nat.reduceSub]
      exact hw)
    (by
      change Instr.mkor _ _ _ _ _ = _
      simp only [extract_wordOf, partOf_put, partOf_put_zero, Nat.reduceLeDiff, Nat.reduceAdd, Nat.reduceSub])

theorem mkxor (c d a b m) : Statement (.mkxor c d a b m) :=
  ofOp (op := .mkxor) (n := 0 |> put 47#6 |> put c |> put 0#3 |> put d |> put 0#3 |> put a |> put 0#3 |> put b |> put m |> put 2#4) rfl
    (fun _ => by simp [opOf, opVmask, extract_wordOf, partOf_put, partOf_put_zero, Nat.reduceLeDiff, Nat.reduceAdd, Nat.reduceSub])
    (fun hw => by
      change (((wordOf (0 |> put 47#6 |> put c |> put 0#3 |> put d |> put 0#3 |> put a |> put 0#3 |> put b |> put m |> put 2#4)).extractLsb' 19 3) != 0 && ((wordOf (0 |> put 47#6 |> put c |> put 0#3 |> put d |> put 0#3 |> put a |> put 0#3 |> put b |> put m |> put 2#4)).extractLsb' 13 3) != 0 && ((wordOf (0 |> put 47#6 |> put c |> put 0#3 |> put d |> put 0#3 |> put a |> put 0#3 |> put b |> put m |> put 2#4)).extractLsb' 7 3) != 0) = true
      simp only [extract_wordOf, partOf_put, partOf_put_zero, Nat.reduceLeDiff, Nat.reduceAdd, Nat.reduceSub]
      exact hw)
    (by
      change Instr.mkxor _ _ _ _ _ = _
      simp only [extract_wordOf, partOf_put, partOf_put_zero, Nat.reduceLeDiff, Nat.reduceAdd, Nat.reduceSub])

theorem mkandn (c d a b m) : Statement (.mkandn c d a b m) :=
  ofOp (op := .mkandn) (n := 0 |> put 47#6 |> put c |> put 0#3 |> put d |> put 0#3 |> put a |> put 0#3 |> put b |> put m |> put 3#4) rfl
    (fun _ => by simp [opOf, opVmask, extract_wordOf, partOf_put, partOf_put_zero, Nat.reduceLeDiff, Nat.reduceAdd, Nat.reduceSub])
    (fun hw => by
      change (((wordOf (0 |> put 47#6 |> put c |> put 0#3 |> put d |> put 0#3 |> put a |> put 0#3 |> put b |> put m |> put 3#4)).extractLsb' 19 3) != 0 && ((wordOf (0 |> put 47#6 |> put c |> put 0#3 |> put d |> put 0#3 |> put a |> put 0#3 |> put b |> put m |> put 3#4)).extractLsb' 13 3) != 0 && ((wordOf (0 |> put 47#6 |> put c |> put 0#3 |> put d |> put 0#3 |> put a |> put 0#3 |> put b |> put m |> put 3#4)).extractLsb' 7 3) != 0) = true
      simp only [extract_wordOf, partOf_put, partOf_put_zero, Nat.reduceLeDiff, Nat.reduceAdd, Nat.reduceSub]
      exact hw)
    (by
      change Instr.mkandn _ _ _ _ _ = _
      simp only [extract_wordOf, partOf_put, partOf_put_zero, Nat.reduceLeDiff, Nat.reduceAdd, Nat.reduceSub])

theorem mknot (c d a m) : Statement (.mknot c d a m) :=
  ofOp (op := .mknot) (n := 0 |> put 47#6 |> put c |> put 0#3 |> put d |> put 0#3 |> put a |> put 0#6 |> put m |> put 4#4) rfl
    (fun _ => by simp [opOf, opVmask, extract_wordOf, partOf_put, partOf_put_zero, Nat.reduceLeDiff, Nat.reduceAdd, Nat.reduceSub])
    (fun hw => by
      change (((wordOf (0 |> put 47#6 |> put c |> put 0#3 |> put d |> put 0#3 |> put a |> put 0#6 |> put m |> put 4#4)).extractLsb' 19 3) != 0 && ((wordOf (0 |> put 47#6 |> put c |> put 0#3 |> put d |> put 0#3 |> put a |> put 0#6 |> put m |> put 4#4)).extractLsb' 13 3) != 0) = true
      simp only [extract_wordOf, partOf_put, partOf_put_zero, Nat.reduceLeDiff, Nat.reduceAdd, Nat.reduceSub]
      exact hw)
    (by
      change Instr.mknot _ _ _ _ = _
      simp only [extract_wordOf, partOf_put, partOf_put_zero, Nat.reduceLeDiff, Nat.reduceAdd, Nat.reduceSub])

theorem mkfill (c d m) : Statement (.mkfill c d m) :=
  ofOp (op := .mkfill) (n := 0 |> put 47#6 |> put c |> put 0#3 |> put d |> put 0#12 |> put m |> put 5#4) rfl
    (fun _ => by simp [opOf, opVmask, extract_wordOf, partOf_put, partOf_put_zero, Nat.reduceLeDiff, Nat.reduceAdd, Nat.reduceSub])
    (fun hw => by
      change (((wordOf (0 |> put 47#6 |> put c |> put 0#3 |> put d |> put 0#12 |> put m |> put 5#4)).extractLsb' 19 3) != 0) = true
      simp only [extract_wordOf, partOf_put, partOf_put_zero, Nat.reduceLeDiff, Nat.reduceAdd, Nat.reduceSub]
      exact hw)
    (by
      change Instr.mkfill _ _ _ = _
      simp only [extract_wordOf, partOf_put, partOf_put_zero, Nat.reduceLeDiff, Nat.reduceAdd, Nat.reduceSub])

theorem mkspreadI (c d a m) : Statement (.mkspreadI c d a m) :=
  ofOp (op := .mkspreadI) (n := 0 |> put 47#6 |> put c |> put 0#3 |> put d |> put 0#3 |> put a |> put 0#6 |> put m |> put 6#4) rfl
    (fun _ => by simp [opOf, opVmask, extract_wordOf, partOf_put, partOf_put_zero, Nat.reduceLeDiff, Nat.reduceAdd, Nat.reduceSub])
    (fun hw => by
      change (((wordOf (0 |> put 47#6 |> put c |> put 0#3 |> put d |> put 0#3 |> put a |> put 0#6 |> put m |> put 6#4)).extractLsb' 19 3) != 0 && ((wordOf (0 |> put 47#6 |> put c |> put 0#3 |> put d |> put 0#3 |> put a |> put 0#6 |> put m |> put 6#4)).extractLsb' 13 3) != 0) = true
      simp only [extract_wordOf, partOf_put, partOf_put_zero, Nat.reduceLeDiff, Nat.reduceAdd, Nat.reduceSub]
      exact hw)
    (by
      change Instr.mkspreadI _ _ _ _ = _
      simp only [extract_wordOf, partOf_put, partOf_put_zero, Nat.reduceLeDiff, Nat.reduceAdd, Nat.reduceSub])

theorem mkspreadX (c d a m) : Statement (.mkspreadX c d a m) :=
  ofOp (op := .mkspreadX) (n := 0 |> put 47#6 |> put c |> put 0#3 |> put d |> put 0#3 |> put a |> put 0#6 |> put m |> put 7#4) rfl
    (fun _ => by simp [opOf, opVmask, extract_wordOf, partOf_put, partOf_put_zero, Nat.reduceLeDiff, Nat.reduceAdd, Nat.reduceSub])
    (fun hw => by
      change (((wordOf (0 |> put 47#6 |> put c |> put 0#3 |> put d |> put 0#3 |> put a |> put 0#6 |> put m |> put 7#4)).extractLsb' 19 3) != 0 && ((wordOf (0 |> put 47#6 |> put c |> put 0#3 |> put d |> put 0#3 |> put a |> put 0#6 |> put m |> put 7#4)).extractLsb' 13 3) != 0) = true
      simp only [extract_wordOf, partOf_put, partOf_put_zero, Nat.reduceLeDiff, Nat.reduceAdd, Nat.reduceSub]
      exact hw)
    (by
      change Instr.mkspreadX _ _ _ _ = _
      simp only [extract_wordOf, partOf_put, partOf_put_zero, Nat.reduceLeDiff, Nat.reduceAdd, Nat.reduceSub])

theorem mkparity (c d a m) : Statement (.mkparity c d a m) :=
  ofOp (op := .mkparity) (n := 0 |> put 47#6 |> put c |> put 0#3 |> put d |> put 0#3 |> put a |> put 0#6 |> put m |> put 8#4) rfl
    (fun _ => by simp [opOf, opVmask, extract_wordOf, partOf_put, partOf_put_zero, Nat.reduceLeDiff, Nat.reduceAdd, Nat.reduceSub])
    (fun hw => by
      change (((wordOf (0 |> put 47#6 |> put c |> put 0#3 |> put d |> put 0#3 |> put a |> put 0#6 |> put m |> put 8#4)).extractLsb' 19 3) != 0 && ((wordOf (0 |> put 47#6 |> put c |> put 0#3 |> put d |> put 0#3 |> put a |> put 0#6 |> put m |> put 8#4)).extractLsb' 13 3) != 0) = true
      simp only [extract_wordOf, partOf_put, partOf_put_zero, Nat.reduceLeDiff, Nat.reduceAdd, Nat.reduceSub]
      exact hw)
    (by
      change Instr.mkparity _ _ _ _ = _
      simp only [extract_wordOf, partOf_put, partOf_put_zero, Nat.reduceLeDiff, Nat.reduceAdd, Nat.reduceSub])

theorem mkfirst (c d a m) : Statement (.mkfirst c d a m) :=
  ofOp (op := .mkfirst) (n := 0 |> put 47#6 |> put c |> put 0#3 |> put d |> put 0#3 |> put a |> put 0#6 |> put m |> put 9#4) rfl
    (fun _ => by simp [opOf, opVmask, extract_wordOf, partOf_put, partOf_put_zero, Nat.reduceLeDiff, Nat.reduceAdd, Nat.reduceSub])
    (fun hw => by
      change (((wordOf (0 |> put 47#6 |> put c |> put 0#3 |> put d |> put 0#3 |> put a |> put 0#6 |> put m |> put 9#4)).extractLsb' 19 3) != 0 && ((wordOf (0 |> put 47#6 |> put c |> put 0#3 |> put d |> put 0#3 |> put a |> put 0#6 |> put m |> put 9#4)).extractLsb' 13 3) != 0) = true
      simp only [extract_wordOf, partOf_put, partOf_put_zero, Nat.reduceLeDiff, Nat.reduceAdd, Nat.reduceSub]
      exact hw)
    (by
      change Instr.mkfirst _ _ _ _ = _
      simp only [extract_wordOf, partOf_put, partOf_put_zero, Nat.reduceLeDiff, Nat.reduceAdd, Nat.reduceSub])

theorem mkcount (c d a m) : Statement (.mkcount c d a m) :=
  ofOp (op := .mkcount) (n := 0 |> put 47#6 |> put c |> put 0#2 |> put d |> put 0#3 |> put a |> put 0#6 |> put m |> put 10#4) rfl
    (fun _ => by simp [opOf, opVmask, extract_wordOf, partOf_put, partOf_put_zero, Nat.reduceLeDiff, Nat.reduceAdd, Nat.reduceSub])
    (fun hw => by
      change (((wordOf (0 |> put 47#6 |> put c |> put 0#2 |> put d |> put 0#3 |> put a |> put 0#6 |> put m |> put 10#4)).extractLsb' 13 3) != 0) = true
      simp only [extract_wordOf, partOf_put, partOf_put_zero, Nat.reduceLeDiff, Nat.reduceAdd, Nat.reduceSub]
      exact hw)
    (by
      change Instr.mkcount _ _ _ _ = _
      simp only [extract_wordOf, partOf_put, partOf_put_zero, Nat.reduceLeDiff, Nat.reduceAdd, Nat.reduceSub])

theorem mkfind (c d a m) : Statement (.mkfind c d a m) :=
  ofOp (op := .mkfind) (n := 0 |> put 47#6 |> put c |> put 0#2 |> put d |> put 0#3 |> put a |> put 0#6 |> put m |> put 11#4) rfl
    (fun _ => by simp [opOf, opVmask, extract_wordOf, partOf_put, partOf_put_zero, Nat.reduceLeDiff, Nat.reduceAdd, Nat.reduceSub])
    (fun hw => by
      change (((wordOf (0 |> put 47#6 |> put c |> put 0#2 |> put d |> put 0#3 |> put a |> put 0#6 |> put m |> put 11#4)).extractLsb' 13 3) != 0) = true
      simp only [extract_wordOf, partOf_put, partOf_put_zero, Nat.reduceLeDiff, Nat.reduceAdd, Nat.reduceSub]
      exact hw)
    (by
      change Instr.mkfind _ _ _ _ = _
      simp only [extract_wordOf, partOf_put, partOf_put_zero, Nat.reduceLeDiff, Nat.reduceAdd, Nat.reduceSub])

theorem mkfindL (c d a m) : Statement (.mkfindL c d a m) :=
  ofOp (op := .mkfindL) (n := 0 |> put 47#6 |> put c |> put 0#2 |> put d |> put 0#3 |> put a |> put 0#6 |> put m |> put 12#4) rfl
    (fun _ => by simp [opOf, opVmask, extract_wordOf, partOf_put, partOf_put_zero, Nat.reduceLeDiff, Nat.reduceAdd, Nat.reduceSub])
    (fun hw => by
      change (((wordOf (0 |> put 47#6 |> put c |> put 0#2 |> put d |> put 0#3 |> put a |> put 0#6 |> put m |> put 12#4)).extractLsb' 13 3) != 0) = true
      simp only [extract_wordOf, partOf_put, partOf_put_zero, Nat.reduceLeDiff, Nat.reduceAdd, Nat.reduceSub]
      exact hw)
    (by
      change Instr.mkfindL _ _ _ _ = _
      simp only [extract_wordOf, partOf_put, partOf_put_zero, Nat.reduceLeDiff, Nat.reduceAdd, Nat.reduceSub])

theorem vrank (c d a m) : Statement (.vrank c d a m) :=
  ofOp (op := .vrank) (n := 0 |> put 47#6 |> put c |> put d |> put 0#3 |> put a |> put 0#6 |> put m |> put 13#4) rfl
    (fun _ => by simp [opOf, opVmask, extract_wordOf, partOf_put, partOf_put_zero, Nat.reduceLeDiff, Nat.reduceAdd, Nat.reduceSub])
    (fun hw => by
      change (((wordOf (0 |> put 47#6 |> put c |> put d |> put 0#3 |> put a |> put 0#6 |> put m |> put 13#4)).extractLsb' 13 3) != 0) = true
      simp only [extract_wordOf, partOf_put, partOf_put_zero, Nat.reduceLeDiff, Nat.reduceAdd, Nat.reduceSub]
      exact hw)
    (by
      change Instr.vrank _ _ _ _ = _
      simp only [extract_wordOf, partOf_put, partOf_put_zero, Nat.reduceLeDiff, Nat.reduceAdd, Nat.reduceSub])

theorem vfaddVv (c d a b m) : Statement (.vfaddVv c d a b m) :=
  ofOp (op := .vfaddVv) (n := 0 |> put 48#6 |> put c |> put d |> put a |> put b |> put m |> put 0#4) rfl
    (fun _ => by simp [opOf, opVfarith, extract_wordOf, partOf_put, partOf_put_zero, Nat.reduceLeDiff, Nat.reduceAdd, Nat.reduceSub])
    (fun _ => rfl)
    (by
      change Instr.vfaddVv _ _ _ _ _ = _
      simp only [extract_wordOf, partOf_put, partOf_put_zero, Nat.reduceLeDiff, Nat.reduceAdd, Nat.reduceSub])

theorem vfaddVx (c d a x m) : Statement (.vfaddVx c d a x m) :=
  ofOp (op := .vfaddVx) (n := 0 |> put 48#6 |> put c |> put d |> put a |> put x |> put m |> put 1#4) rfl
    (fun _ => by simp [opOf, opVfarith, extract_wordOf, partOf_put, partOf_put_zero, Nat.reduceLeDiff, Nat.reduceAdd, Nat.reduceSub])
    (fun hw => by
      change (codeOk ((wordOf (0 |> put 48#6 |> put c |> put d |> put a |> put x |> put m |> put 1#4)).extractLsb' 7 6)) = true
      simp only [extract_wordOf, partOf_put, partOf_put_zero, Nat.reduceLeDiff, Nat.reduceAdd, Nat.reduceSub]
      exact hw)
    (by
      change Instr.vfaddVx _ _ _ _ _ = _
      simp only [extract_wordOf, partOf_put, partOf_put_zero, Nat.reduceLeDiff, Nat.reduceAdd, Nat.reduceSub])

theorem vfsubVv (c d a b m) : Statement (.vfsubVv c d a b m) :=
  ofOp (op := .vfsubVv) (n := 0 |> put 48#6 |> put c |> put d |> put a |> put b |> put m |> put 2#4) rfl
    (fun _ => by simp [opOf, opVfarith, extract_wordOf, partOf_put, partOf_put_zero, Nat.reduceLeDiff, Nat.reduceAdd, Nat.reduceSub])
    (fun _ => rfl)
    (by
      change Instr.vfsubVv _ _ _ _ _ = _
      simp only [extract_wordOf, partOf_put, partOf_put_zero, Nat.reduceLeDiff, Nat.reduceAdd, Nat.reduceSub])

theorem vfsubVx (c d a x m) : Statement (.vfsubVx c d a x m) :=
  ofOp (op := .vfsubVx) (n := 0 |> put 48#6 |> put c |> put d |> put a |> put x |> put m |> put 3#4) rfl
    (fun _ => by simp [opOf, opVfarith, extract_wordOf, partOf_put, partOf_put_zero, Nat.reduceLeDiff, Nat.reduceAdd, Nat.reduceSub])
    (fun hw => by
      change (codeOk ((wordOf (0 |> put 48#6 |> put c |> put d |> put a |> put x |> put m |> put 3#4)).extractLsb' 7 6)) = true
      simp only [extract_wordOf, partOf_put, partOf_put_zero, Nat.reduceLeDiff, Nat.reduceAdd, Nat.reduceSub]
      exact hw)
    (by
      change Instr.vfsubVx _ _ _ _ _ = _
      simp only [extract_wordOf, partOf_put, partOf_put_zero, Nat.reduceLeDiff, Nat.reduceAdd, Nat.reduceSub])

theorem vfrsub (c d a x m) : Statement (.vfrsub c d a x m) :=
  ofOp (op := .vfrsub) (n := 0 |> put 48#6 |> put c |> put d |> put a |> put x |> put m |> put 4#4) rfl
    (fun _ => by simp [opOf, opVfarith, extract_wordOf, partOf_put, partOf_put_zero, Nat.reduceLeDiff, Nat.reduceAdd, Nat.reduceSub])
    (fun hw => by
      change (codeOk ((wordOf (0 |> put 48#6 |> put c |> put d |> put a |> put x |> put m |> put 4#4)).extractLsb' 7 6)) = true
      simp only [extract_wordOf, partOf_put, partOf_put_zero, Nat.reduceLeDiff, Nat.reduceAdd, Nat.reduceSub]
      exact hw)
    (by
      change Instr.vfrsub _ _ _ _ _ = _
      simp only [extract_wordOf, partOf_put, partOf_put_zero, Nat.reduceLeDiff, Nat.reduceAdd, Nat.reduceSub])

theorem vfmulVv (c d a b m) : Statement (.vfmulVv c d a b m) :=
  ofOp (op := .vfmulVv) (n := 0 |> put 48#6 |> put c |> put d |> put a |> put b |> put m |> put 5#4) rfl
    (fun _ => by simp [opOf, opVfarith, extract_wordOf, partOf_put, partOf_put_zero, Nat.reduceLeDiff, Nat.reduceAdd, Nat.reduceSub])
    (fun _ => rfl)
    (by
      change Instr.vfmulVv _ _ _ _ _ = _
      simp only [extract_wordOf, partOf_put, partOf_put_zero, Nat.reduceLeDiff, Nat.reduceAdd, Nat.reduceSub])

theorem vfmulVx (c d a x m) : Statement (.vfmulVx c d a x m) :=
  ofOp (op := .vfmulVx) (n := 0 |> put 48#6 |> put c |> put d |> put a |> put x |> put m |> put 6#4) rfl
    (fun _ => by simp [opOf, opVfarith, extract_wordOf, partOf_put, partOf_put_zero, Nat.reduceLeDiff, Nat.reduceAdd, Nat.reduceSub])
    (fun hw => by
      change (codeOk ((wordOf (0 |> put 48#6 |> put c |> put d |> put a |> put x |> put m |> put 6#4)).extractLsb' 7 6)) = true
      simp only [extract_wordOf, partOf_put, partOf_put_zero, Nat.reduceLeDiff, Nat.reduceAdd, Nat.reduceSub]
      exact hw)
    (by
      change Instr.vfmulVx _ _ _ _ _ = _
      simp only [extract_wordOf, partOf_put, partOf_put_zero, Nat.reduceLeDiff, Nat.reduceAdd, Nat.reduceSub])

theorem vfdivVv (c d a b m) : Statement (.vfdivVv c d a b m) :=
  ofOp (op := .vfdivVv) (n := 0 |> put 48#6 |> put c |> put d |> put a |> put b |> put m |> put 7#4) rfl
    (fun _ => by simp [opOf, opVfarith, extract_wordOf, partOf_put, partOf_put_zero, Nat.reduceLeDiff, Nat.reduceAdd, Nat.reduceSub])
    (fun _ => rfl)
    (by
      change Instr.vfdivVv _ _ _ _ _ = _
      simp only [extract_wordOf, partOf_put, partOf_put_zero, Nat.reduceLeDiff, Nat.reduceAdd, Nat.reduceSub])

theorem vfdivVx (c d a x m) : Statement (.vfdivVx c d a x m) :=
  ofOp (op := .vfdivVx) (n := 0 |> put 48#6 |> put c |> put d |> put a |> put x |> put m |> put 8#4) rfl
    (fun _ => by simp [opOf, opVfarith, extract_wordOf, partOf_put, partOf_put_zero, Nat.reduceLeDiff, Nat.reduceAdd, Nat.reduceSub])
    (fun hw => by
      change (codeOk ((wordOf (0 |> put 48#6 |> put c |> put d |> put a |> put x |> put m |> put 8#4)).extractLsb' 7 6)) = true
      simp only [extract_wordOf, partOf_put, partOf_put_zero, Nat.reduceLeDiff, Nat.reduceAdd, Nat.reduceSub]
      exact hw)
    (by
      change Instr.vfdivVx _ _ _ _ _ = _
      simp only [extract_wordOf, partOf_put, partOf_put_zero, Nat.reduceLeDiff, Nat.reduceAdd, Nat.reduceSub])

theorem vfrdiv (c d a x m) : Statement (.vfrdiv c d a x m) :=
  ofOp (op := .vfrdiv) (n := 0 |> put 48#6 |> put c |> put d |> put a |> put x |> put m |> put 9#4) rfl
    (fun _ => by simp [opOf, opVfarith, extract_wordOf, partOf_put, partOf_put_zero, Nat.reduceLeDiff, Nat.reduceAdd, Nat.reduceSub])
    (fun hw => by
      change (codeOk ((wordOf (0 |> put 48#6 |> put c |> put d |> put a |> put x |> put m |> put 9#4)).extractLsb' 7 6)) = true
      simp only [extract_wordOf, partOf_put, partOf_put_zero, Nat.reduceLeDiff, Nat.reduceAdd, Nat.reduceSub]
      exact hw)
    (by
      change Instr.vfrdiv _ _ _ _ _ = _
      simp only [extract_wordOf, partOf_put, partOf_put_zero, Nat.reduceLeDiff, Nat.reduceAdd, Nat.reduceSub])

theorem vfsqrt (c d a m) : Statement (.vfsqrt c d a m) :=
  ofOp (op := .vfsqrt) (n := 0 |> put 48#6 |> put c |> put d |> put a |> put 0#6 |> put m |> put 10#4) rfl
    (fun _ => by simp [opOf, opVfarith, extract_wordOf, partOf_put, partOf_put_zero, Nat.reduceLeDiff, Nat.reduceAdd, Nat.reduceSub])
    (fun _ => rfl)
    (by
      change Instr.vfsqrt _ _ _ _ = _
      simp only [extract_wordOf, partOf_put, partOf_put_zero, Nat.reduceLeDiff, Nat.reduceAdd, Nat.reduceSub])

theorem vfmin (c d a b m) : Statement (.vfmin c d a b m) :=
  ofOp (op := .vfmin) (n := 0 |> put 48#6 |> put c |> put d |> put a |> put b |> put m |> put 11#4) rfl
    (fun _ => by simp [opOf, opVfarith, extract_wordOf, partOf_put, partOf_put_zero, Nat.reduceLeDiff, Nat.reduceAdd, Nat.reduceSub])
    (fun _ => rfl)
    (by
      change Instr.vfmin _ _ _ _ _ = _
      simp only [extract_wordOf, partOf_put, partOf_put_zero, Nat.reduceLeDiff, Nat.reduceAdd, Nat.reduceSub])

theorem vfmax (c d a b m) : Statement (.vfmax c d a b m) :=
  ofOp (op := .vfmax) (n := 0 |> put 48#6 |> put c |> put d |> put a |> put b |> put m |> put 12#4) rfl
    (fun _ => by simp [opOf, opVfarith, extract_wordOf, partOf_put, partOf_put_zero, Nat.reduceLeDiff, Nat.reduceAdd, Nat.reduceSub])
    (fun _ => rfl)
    (by
      change Instr.vfmax _ _ _ _ _ = _
      simp only [extract_wordOf, partOf_put, partOf_put_zero, Nat.reduceLeDiff, Nat.reduceAdd, Nat.reduceSub])

theorem vfsgnj (c d a b m) : Statement (.vfsgnj c d a b m) :=
  ofOp (op := .vfsgnj) (n := 0 |> put 48#6 |> put c |> put d |> put a |> put b |> put m |> put 13#4) rfl
    (fun _ => by simp [opOf, opVfarith, extract_wordOf, partOf_put, partOf_put_zero, Nat.reduceLeDiff, Nat.reduceAdd, Nat.reduceSub])
    (fun _ => rfl)
    (by
      change Instr.vfsgnj _ _ _ _ _ = _
      simp only [extract_wordOf, partOf_put, partOf_put_zero, Nat.reduceLeDiff, Nat.reduceAdd, Nat.reduceSub])

theorem vfsgnjn (c d a b m) : Statement (.vfsgnjn c d a b m) :=
  ofOp (op := .vfsgnjn) (n := 0 |> put 48#6 |> put c |> put d |> put a |> put b |> put m |> put 14#4) rfl
    (fun _ => by simp [opOf, opVfarith, extract_wordOf, partOf_put, partOf_put_zero, Nat.reduceLeDiff, Nat.reduceAdd, Nat.reduceSub])
    (fun _ => rfl)
    (by
      change Instr.vfsgnjn _ _ _ _ _ = _
      simp only [extract_wordOf, partOf_put, partOf_put_zero, Nat.reduceLeDiff, Nat.reduceAdd, Nat.reduceSub])

theorem vfsgnjx (c d a b m) : Statement (.vfsgnjx c d a b m) :=
  ofOp (op := .vfsgnjx) (n := 0 |> put 48#6 |> put c |> put d |> put a |> put b |> put m |> put 15#4) rfl
    (fun _ => by simp [opOf, opVfarith, extract_wordOf, partOf_put, partOf_put_zero, Nat.reduceLeDiff, Nat.reduceAdd, Nat.reduceSub])
    (fun _ => rfl)
    (by
      change Instr.vfsgnjx _ _ _ _ _ = _
      simp only [extract_wordOf, partOf_put, partOf_put_zero, Nat.reduceLeDiff, Nat.reduceAdd, Nat.reduceSub])

theorem vfmacPpVv (c d a b m) : Statement (.vfmacPpVv c d a b m) :=
  ofOp (op := .vfmacPpVv) (n := 0 |> put 49#6 |> put c |> put d |> put a |> put b |> put m |> put 0#4) rfl
    (fun _ => by simp [opOf, opVfmac, extract_wordOf, partOf_put, partOf_put_zero, Nat.reduceLeDiff, Nat.reduceAdd, Nat.reduceSub])
    (fun _ => rfl)
    (by
      change Instr.vfmacPpVv _ _ _ _ _ = _
      simp only [extract_wordOf, partOf_put, partOf_put_zero, Nat.reduceLeDiff, Nat.reduceAdd, Nat.reduceSub])

theorem vfmacPpVx (c d a x m) : Statement (.vfmacPpVx c d a x m) :=
  ofOp (op := .vfmacPpVx) (n := 0 |> put 49#6 |> put c |> put d |> put a |> put x |> put m |> put 1#4) rfl
    (fun _ => by simp [opOf, opVfmac, extract_wordOf, partOf_put, partOf_put_zero, Nat.reduceLeDiff, Nat.reduceAdd, Nat.reduceSub])
    (fun hw => by
      change (codeOk ((wordOf (0 |> put 49#6 |> put c |> put d |> put a |> put x |> put m |> put 1#4)).extractLsb' 7 6)) = true
      simp only [extract_wordOf, partOf_put, partOf_put_zero, Nat.reduceLeDiff, Nat.reduceAdd, Nat.reduceSub]
      exact hw)
    (by
      change Instr.vfmacPpVx _ _ _ _ _ = _
      simp only [extract_wordOf, partOf_put, partOf_put_zero, Nat.reduceLeDiff, Nat.reduceAdd, Nat.reduceSub])

theorem vfmacNn (c d a b m) : Statement (.vfmacNn c d a b m) :=
  ofOp (op := .vfmacNn) (n := 0 |> put 49#6 |> put c |> put d |> put a |> put b |> put m |> put 2#4) rfl
    (fun _ => by simp [opOf, opVfmac, extract_wordOf, partOf_put, partOf_put_zero, Nat.reduceLeDiff, Nat.reduceAdd, Nat.reduceSub])
    (fun _ => rfl)
    (by
      change Instr.vfmacNn _ _ _ _ _ = _
      simp only [extract_wordOf, partOf_put, partOf_put_zero, Nat.reduceLeDiff, Nat.reduceAdd, Nat.reduceSub])

theorem vfmacPn (c d a b m) : Statement (.vfmacPn c d a b m) :=
  ofOp (op := .vfmacPn) (n := 0 |> put 49#6 |> put c |> put d |> put a |> put b |> put m |> put 3#4) rfl
    (fun _ => by simp [opOf, opVfmac, extract_wordOf, partOf_put, partOf_put_zero, Nat.reduceLeDiff, Nat.reduceAdd, Nat.reduceSub])
    (fun _ => rfl)
    (by
      change Instr.vfmacPn _ _ _ _ _ = _
      simp only [extract_wordOf, partOf_put, partOf_put_zero, Nat.reduceLeDiff, Nat.reduceAdd, Nat.reduceSub])

theorem vfmacNp (c d a b m) : Statement (.vfmacNp c d a b m) :=
  ofOp (op := .vfmacNp) (n := 0 |> put 49#6 |> put c |> put d |> put a |> put b |> put m |> put 4#4) rfl
    (fun _ => by simp [opOf, opVfmac, extract_wordOf, partOf_put, partOf_put_zero, Nat.reduceLeDiff, Nat.reduceAdd, Nat.reduceSub])
    (fun _ => rfl)
    (by
      change Instr.vfmacNp _ _ _ _ _ = _
      simp only [extract_wordOf, partOf_put, partOf_put_zero, Nat.reduceLeDiff, Nat.reduceAdd, Nat.reduceSub])

theorem vfmad (c d a b m) : Statement (.vfmad c d a b m) :=
  ofOp (op := .vfmad) (n := 0 |> put 49#6 |> put c |> put d |> put a |> put b |> put m |> put 5#4) rfl
    (fun _ => by simp [opOf, opVfmac, extract_wordOf, partOf_put, partOf_put_zero, Nat.reduceLeDiff, Nat.reduceAdd, Nat.reduceSub])
    (fun _ => rfl)
    (by
      change Instr.vfmad _ _ _ _ _ = _
      simp only [extract_wordOf, partOf_put, partOf_put_zero, Nat.reduceLeDiff, Nat.reduceAdd, Nat.reduceSub])

theorem vfcmpEqVv (c d a b m) : Statement (.vfcmpEqVv c d a b m) :=
  ofOp (op := .vfcmpEqVv) (n := 0 |> put 49#6 |> put c |> put 0#3 |> put d |> put a |> put b |> put m |> put 6#4) rfl
    (fun _ => by simp [opOf, opVfmac, extract_wordOf, partOf_put, partOf_put_zero, Nat.reduceLeDiff, Nat.reduceAdd, Nat.reduceSub])
    (fun hw => by
      change (((wordOf (0 |> put 49#6 |> put c |> put 0#3 |> put d |> put a |> put b |> put m |> put 6#4)).extractLsb' 19 3) != 0) = true
      simp only [extract_wordOf, partOf_put, partOf_put_zero, Nat.reduceLeDiff, Nat.reduceAdd, Nat.reduceSub]
      exact hw)
    (by
      change Instr.vfcmpEqVv _ _ _ _ _ = _
      simp only [extract_wordOf, partOf_put, partOf_put_zero, Nat.reduceLeDiff, Nat.reduceAdd, Nat.reduceSub])

theorem vfcmpEqVx (c d a x m) : Statement (.vfcmpEqVx c d a x m) :=
  ofOp (op := .vfcmpEqVx) (n := 0 |> put 49#6 |> put c |> put 0#3 |> put d |> put a |> put x |> put m |> put 7#4) rfl
    (fun _ => by simp [opOf, opVfmac, extract_wordOf, partOf_put, partOf_put_zero, Nat.reduceLeDiff, Nat.reduceAdd, Nat.reduceSub])
    (fun hw => by
      change (codeOk ((wordOf (0 |> put 49#6 |> put c |> put 0#3 |> put d |> put a |> put x |> put m |> put 7#4)).extractLsb' 7 6) && ((wordOf (0 |> put 49#6 |> put c |> put 0#3 |> put d |> put a |> put x |> put m |> put 7#4)).extractLsb' 19 3) != 0) = true
      simp only [extract_wordOf, partOf_put, partOf_put_zero, Nat.reduceLeDiff, Nat.reduceAdd, Nat.reduceSub]
      exact hw)
    (by
      change Instr.vfcmpEqVx _ _ _ _ _ = _
      simp only [extract_wordOf, partOf_put, partOf_put_zero, Nat.reduceLeDiff, Nat.reduceAdd, Nat.reduceSub])

theorem vfcmpLtVv (c d a b m) : Statement (.vfcmpLtVv c d a b m) :=
  ofOp (op := .vfcmpLtVv) (n := 0 |> put 49#6 |> put c |> put 0#3 |> put d |> put a |> put b |> put m |> put 8#4) rfl
    (fun _ => by simp [opOf, opVfmac, extract_wordOf, partOf_put, partOf_put_zero, Nat.reduceLeDiff, Nat.reduceAdd, Nat.reduceSub])
    (fun hw => by
      change (((wordOf (0 |> put 49#6 |> put c |> put 0#3 |> put d |> put a |> put b |> put m |> put 8#4)).extractLsb' 19 3) != 0) = true
      simp only [extract_wordOf, partOf_put, partOf_put_zero, Nat.reduceLeDiff, Nat.reduceAdd, Nat.reduceSub]
      exact hw)
    (by
      change Instr.vfcmpLtVv _ _ _ _ _ = _
      simp only [extract_wordOf, partOf_put, partOf_put_zero, Nat.reduceLeDiff, Nat.reduceAdd, Nat.reduceSub])

theorem vfcmpLe (c d a b m) : Statement (.vfcmpLe c d a b m) :=
  ofOp (op := .vfcmpLe) (n := 0 |> put 49#6 |> put c |> put 0#3 |> put d |> put a |> put b |> put m |> put 9#4) rfl
    (fun _ => by simp [opOf, opVfmac, extract_wordOf, partOf_put, partOf_put_zero, Nat.reduceLeDiff, Nat.reduceAdd, Nat.reduceSub])
    (fun hw => by
      change (((wordOf (0 |> put 49#6 |> put c |> put 0#3 |> put d |> put a |> put b |> put m |> put 9#4)).extractLsb' 19 3) != 0) = true
      simp only [extract_wordOf, partOf_put, partOf_put_zero, Nat.reduceLeDiff, Nat.reduceAdd, Nat.reduceSub]
      exact hw)
    (by
      change Instr.vfcmpLe _ _ _ _ _ = _
      simp only [extract_wordOf, partOf_put, partOf_put_zero, Nat.reduceLeDiff, Nat.reduceAdd, Nat.reduceSub])

theorem vfcmpGt (c d a x m) : Statement (.vfcmpGt c d a x m) :=
  ofOp (op := .vfcmpGt) (n := 0 |> put 49#6 |> put c |> put 0#3 |> put d |> put a |> put x |> put m |> put 10#4) rfl
    (fun _ => by simp [opOf, opVfmac, extract_wordOf, partOf_put, partOf_put_zero, Nat.reduceLeDiff, Nat.reduceAdd, Nat.reduceSub])
    (fun hw => by
      change (codeOk ((wordOf (0 |> put 49#6 |> put c |> put 0#3 |> put d |> put a |> put x |> put m |> put 10#4)).extractLsb' 7 6) && ((wordOf (0 |> put 49#6 |> put c |> put 0#3 |> put d |> put a |> put x |> put m |> put 10#4)).extractLsb' 19 3) != 0) = true
      simp only [extract_wordOf, partOf_put, partOf_put_zero, Nat.reduceLeDiff, Nat.reduceAdd, Nat.reduceSub]
      exact hw)
    (by
      change Instr.vfcmpGt _ _ _ _ _ = _
      simp only [extract_wordOf, partOf_put, partOf_put_zero, Nat.reduceLeDiff, Nat.reduceAdd, Nat.reduceSub])

theorem vfcmpGe (c d a x m) : Statement (.vfcmpGe c d a x m) :=
  ofOp (op := .vfcmpGe) (n := 0 |> put 49#6 |> put c |> put 0#3 |> put d |> put a |> put x |> put m |> put 11#4) rfl
    (fun _ => by simp [opOf, opVfmac, extract_wordOf, partOf_put, partOf_put_zero, Nat.reduceLeDiff, Nat.reduceAdd, Nat.reduceSub])
    (fun hw => by
      change (codeOk ((wordOf (0 |> put 49#6 |> put c |> put 0#3 |> put d |> put a |> put x |> put m |> put 11#4)).extractLsb' 7 6) && ((wordOf (0 |> put 49#6 |> put c |> put 0#3 |> put d |> put a |> put x |> put m |> put 11#4)).extractLsb' 19 3) != 0) = true
      simp only [extract_wordOf, partOf_put, partOf_put_zero, Nat.reduceLeDiff, Nat.reduceAdd, Nat.reduceSub]
      exact hw)
    (by
      change Instr.vfcmpGe _ _ _ _ _ = _
      simp only [extract_wordOf, partOf_put, partOf_put_zero, Nat.reduceLeDiff, Nat.reduceAdd, Nat.reduceSub])

theorem vfcmpLtVx (c d a x m) : Statement (.vfcmpLtVx c d a x m) :=
  ofOp (op := .vfcmpLtVx) (n := 0 |> put 49#6 |> put c |> put 0#3 |> put d |> put a |> put x |> put m |> put 12#4) rfl
    (fun _ => by simp [opOf, opVfmac, extract_wordOf, partOf_put, partOf_put_zero, Nat.reduceLeDiff, Nat.reduceAdd, Nat.reduceSub])
    (fun hw => by
      change (codeOk ((wordOf (0 |> put 49#6 |> put c |> put 0#3 |> put d |> put a |> put x |> put m |> put 12#4)).extractLsb' 7 6) && ((wordOf (0 |> put 49#6 |> put c |> put 0#3 |> put d |> put a |> put x |> put m |> put 12#4)).extractLsb' 19 3) != 0) = true
      simp only [extract_wordOf, partOf_put, partOf_put_zero, Nat.reduceLeDiff, Nat.reduceAdd, Nat.reduceSub]
      exact hw)
    (by
      change Instr.vfcmpLtVx _ _ _ _ _ = _
      simp only [extract_wordOf, partOf_put, partOf_put_zero, Nat.reduceLeDiff, Nat.reduceAdd, Nat.reduceSub])

theorem vfcmpNe (c d a b m) : Statement (.vfcmpNe c d a b m) :=
  ofOp (op := .vfcmpNe) (n := 0 |> put 49#6 |> put c |> put 0#3 |> put d |> put a |> put b |> put m |> put 13#4) rfl
    (fun _ => by simp [opOf, opVfmac, extract_wordOf, partOf_put, partOf_put_zero, Nat.reduceLeDiff, Nat.reduceAdd, Nat.reduceSub])
    (fun hw => by
      change (((wordOf (0 |> put 49#6 |> put c |> put 0#3 |> put d |> put a |> put b |> put m |> put 13#4)).extractLsb' 19 3) != 0) = true
      simp only [extract_wordOf, partOf_put, partOf_put_zero, Nat.reduceLeDiff, Nat.reduceAdd, Nat.reduceSub]
      exact hw)
    (by
      change Instr.vfcmpNe _ _ _ _ _ = _
      simp only [extract_wordOf, partOf_put, partOf_put_zero, Nat.reduceLeDiff, Nat.reduceAdd, Nat.reduceSub])

theorem vfkind (c d a m) : Statement (.vfkind c d a m) :=
  ofOp (op := .vfkind) (n := 0 |> put 49#6 |> put c |> put d |> put a |> put 0#6 |> put m |> put 14#4) rfl
    (fun _ => by simp [opOf, opVfmac, extract_wordOf, partOf_put, partOf_put_zero, Nat.reduceLeDiff, Nat.reduceAdd, Nat.reduceSub])
    (fun _ => rfl)
    (by
      change Instr.vfkind _ _ _ _ = _
      simp only [extract_wordOf, partOf_put, partOf_put_zero, Nat.reduceLeDiff, Nat.reduceAdd, Nat.reduceSub])

theorem vfcmpUn (c d a b m) : Statement (.vfcmpUn c d a b m) :=
  ofOp (op := .vfcmpUn) (n := 0 |> put 49#6 |> put c |> put 0#3 |> put d |> put a |> put b |> put m |> put 15#4) rfl
    (fun _ => by simp [opOf, opVfmac, extract_wordOf, partOf_put, partOf_put_zero, Nat.reduceLeDiff, Nat.reduceAdd, Nat.reduceSub])
    (fun hw => by
      change (((wordOf (0 |> put 49#6 |> put c |> put 0#3 |> put d |> put a |> put b |> put m |> put 15#4)).extractLsb' 19 3) != 0) = true
      simp only [extract_wordOf, partOf_put, partOf_put_zero, Nat.reduceLeDiff, Nat.reduceAdd, Nat.reduceSub]
      exact hw)
    (by
      change Instr.vfcmpUn _ _ _ _ _ = _
      simp only [extract_wordOf, partOf_put, partOf_put_zero, Nat.reduceLeDiff, Nat.reduceAdd, Nat.reduceSub])

theorem vfcvt (c d a y z m) : Statement (.vfcvt c d a y z m) :=
  ofOp (op := .vfcvt) (n := 0 |> put 50#6 |> put c |> put d |> put a |> put y |> put z |> put m |> put 0#4) rfl
    (fun _ => by simp [opOf, opVfcvt, extract_wordOf, partOf_put, partOf_put_zero, Nat.reduceLeDiff, Nat.reduceAdd, Nat.reduceSub])
    (fun hw => by
      change (cvtTypeOk ((wordOf (0 |> put 50#6 |> put c |> put d |> put a |> put y |> put z |> put m |> put 0#4)).extractLsb' 10 3) ((wordOf (0 |> put 50#6 |> put c |> put d |> put a |> put y |> put z |> put m |> put 0#4)).extractLsb' 7 3)) = true
      simp only [extract_wordOf, partOf_put, partOf_put_zero, Nat.reduceLeDiff, Nat.reduceAdd, Nat.reduceSub]
      exact hw)
    (by
      change Instr.vfcvt _ _ _ _ _ _ = _
      simp only [extract_wordOf, partOf_put, partOf_put_zero, Nat.reduceLeDiff, Nat.reduceAdd, Nat.reduceSub])

theorem vfcvtU (c d a y z m) : Statement (.vfcvtU c d a y z m) :=
  ofOp (op := .vfcvtU) (n := 0 |> put 50#6 |> put c |> put d |> put a |> put y |> put z |> put m |> put 1#4) rfl
    (fun _ => by simp [opOf, opVfcvt, extract_wordOf, partOf_put, partOf_put_zero, Nat.reduceLeDiff, Nat.reduceAdd, Nat.reduceSub])
    (fun hw => by
      change (cvtTypeOk ((wordOf (0 |> put 50#6 |> put c |> put d |> put a |> put y |> put z |> put m |> put 1#4)).extractLsb' 10 3) ((wordOf (0 |> put 50#6 |> put c |> put d |> put a |> put y |> put z |> put m |> put 1#4)).extractLsb' 7 3)) = true
      simp only [extract_wordOf, partOf_put, partOf_put_zero, Nat.reduceLeDiff, Nat.reduceAdd, Nat.reduceSub]
      exact hw)
    (by
      change Instr.vfcvtU _ _ _ _ _ _ = _
      simp only [extract_wordOf, partOf_put, partOf_put_zero, Nat.reduceLeDiff, Nat.reduceAdd, Nat.reduceSub])

theorem vfcvtRtz (c d a y z m) : Statement (.vfcvtRtz c d a y z m) :=
  ofOp (op := .vfcvtRtz) (n := 0 |> put 50#6 |> put c |> put d |> put a |> put y |> put z |> put m |> put 2#4) rfl
    (fun _ => by simp [opOf, opVfcvt, extract_wordOf, partOf_put, partOf_put_zero, Nat.reduceLeDiff, Nat.reduceAdd, Nat.reduceSub])
    (fun hw => by
      change (cvtTypeOk ((wordOf (0 |> put 50#6 |> put c |> put d |> put a |> put y |> put z |> put m |> put 2#4)).extractLsb' 10 3) ((wordOf (0 |> put 50#6 |> put c |> put d |> put a |> put y |> put z |> put m |> put 2#4)).extractLsb' 7 3)) = true
      simp only [extract_wordOf, partOf_put, partOf_put_zero, Nat.reduceLeDiff, Nat.reduceAdd, Nat.reduceSub]
      exact hw)
    (by
      change Instr.vfcvtRtz _ _ _ _ _ _ = _
      simp only [extract_wordOf, partOf_put, partOf_put_zero, Nat.reduceLeDiff, Nat.reduceAdd, Nat.reduceSub])

theorem vfcvtURtz (c d a y z m) : Statement (.vfcvtURtz c d a y z m) :=
  ofOp (op := .vfcvtURtz) (n := 0 |> put 50#6 |> put c |> put d |> put a |> put y |> put z |> put m |> put 3#4) rfl
    (fun _ => by simp [opOf, opVfcvt, extract_wordOf, partOf_put, partOf_put_zero, Nat.reduceLeDiff, Nat.reduceAdd, Nat.reduceSub])
    (fun hw => by
      change (cvtTypeOk ((wordOf (0 |> put 50#6 |> put c |> put d |> put a |> put y |> put z |> put m |> put 3#4)).extractLsb' 10 3) ((wordOf (0 |> put 50#6 |> put c |> put d |> put a |> put y |> put z |> put m |> put 3#4)).extractLsb' 7 3)) = true
      simp only [extract_wordOf, partOf_put, partOf_put_zero, Nat.reduceLeDiff, Nat.reduceAdd, Nat.reduceSub]
      exact hw)
    (by
      change Instr.vfcvtURtz _ _ _ _ _ _ = _
      simp only [extract_wordOf, partOf_put, partOf_put_zero, Nat.reduceLeDiff, Nat.reduceAdd, Nat.reduceSub])

theorem vdrescale (c d a x m) : Statement (.vdrescale c d a x m) :=
  ofOp (op := .vdrescale) (n := 0 |> put 50#6 |> put c |> put d |> put a |> put x |> put m |> put 4#4) rfl
    (fun _ => by simp [opOf, opVfcvt, extract_wordOf, partOf_put, partOf_put_zero, Nat.reduceLeDiff, Nat.reduceAdd, Nat.reduceSub])
    (fun hw => by
      change (codeOk ((wordOf (0 |> put 50#6 |> put c |> put d |> put a |> put x |> put m |> put 4#4)).extractLsb' 7 6)) = true
      simp only [extract_wordOf, partOf_put, partOf_put_zero, Nat.reduceLeDiff, Nat.reduceAdd, Nat.reduceSub]
      exact hw)
    (by
      change Instr.vdrescale _ _ _ _ _ = _
      simp only [extract_wordOf, partOf_put, partOf_put_zero, Nat.reduceLeDiff, Nat.reduceAdd, Nat.reduceSub])

theorem vfsumO (c d a b m) : Statement (.vfsumO c d a b m) :=
  ofOp (op := .vfsumO) (n := 0 |> put 51#6 |> put c |> put d |> put a |> put b |> put m |> put 0#4) rfl
    (fun _ => by simp [opOf, opVfred, extract_wordOf, partOf_put, partOf_put_zero, Nat.reduceLeDiff, Nat.reduceAdd, Nat.reduceSub])
    (fun _ => rfl)
    (by
      change Instr.vfsumO _ _ _ _ _ = _
      simp only [extract_wordOf, partOf_put, partOf_put_zero, Nat.reduceLeDiff, Nat.reduceAdd, Nat.reduceSub])

theorem vfsumT (c d a b m) : Statement (.vfsumT c d a b m) :=
  ofOp (op := .vfsumT) (n := 0 |> put 51#6 |> put c |> put d |> put a |> put b |> put m |> put 1#4) rfl
    (fun _ => by simp [opOf, opVfred, extract_wordOf, partOf_put, partOf_put_zero, Nat.reduceLeDiff, Nat.reduceAdd, Nat.reduceSub])
    (fun _ => rfl)
    (by
      change Instr.vfsumT _ _ _ _ _ = _
      simp only [extract_wordOf, partOf_put, partOf_put_zero, Nat.reduceLeDiff, Nat.reduceAdd, Nat.reduceSub])

theorem vfredmax (c d a b m) : Statement (.vfredmax c d a b m) :=
  ofOp (op := .vfredmax) (n := 0 |> put 51#6 |> put c |> put d |> put a |> put b |> put m |> put 2#4) rfl
    (fun _ => by simp [opOf, opVfred, extract_wordOf, partOf_put, partOf_put_zero, Nat.reduceLeDiff, Nat.reduceAdd, Nat.reduceSub])
    (fun _ => rfl)
    (by
      change Instr.vfredmax _ _ _ _ _ = _
      simp only [extract_wordOf, partOf_put, partOf_put_zero, Nat.reduceLeDiff, Nat.reduceAdd, Nat.reduceSub])

theorem vfredmin (c d a b m) : Statement (.vfredmin c d a b m) :=
  ofOp (op := .vfredmin) (n := 0 |> put 51#6 |> put c |> put d |> put a |> put b |> put m |> put 3#4) rfl
    (fun _ => by simp [opOf, opVfred, extract_wordOf, partOf_put, partOf_put_zero, Nat.reduceLeDiff, Nat.reduceAdd, Nat.reduceSub])
    (fun _ => rfl)
    (by
      change Instr.vfredmin _ _ _ _ _ = _
      simp only [extract_wordOf, partOf_put, partOf_put_zero, Nat.reduceLeDiff, Nat.reduceAdd, Nat.reduceSub])

theorem vrand (c d m) : Statement (.vrand c d m) :=
  ofOp (op := .vrand) (n := 0 |> put 51#6 |> put c |> put d |> put 0#12 |> put m |> put 4#4) rfl
    (fun _ => by simp [opOf, opVfred, extract_wordOf, partOf_put, partOf_put_zero, Nat.reduceLeDiff, Nat.reduceAdd, Nat.reduceSub])
    (fun _ => rfl)
    (by
      change Instr.vrand _ _ _ = _
      simp only [extract_wordOf, partOf_put, partOf_put_zero, Nat.reduceLeDiff, Nat.reduceAdd, Nat.reduceSub])

theorem vqaddVv (c d a b m) : Statement (.vqaddVv c d a b m) :=
  ofOp (op := .vqaddVv) (n := 0 |> put 52#6 |> put c |> put d |> put a |> put b |> put m |> put 0#4) rfl
    (fun _ => by simp [opOf, opVqarith, extract_wordOf, partOf_put, partOf_put_zero, Nat.reduceLeDiff, Nat.reduceAdd, Nat.reduceSub])
    (fun _ => rfl)
    (by
      change Instr.vqaddVv _ _ _ _ _ = _
      simp only [extract_wordOf, partOf_put, partOf_put_zero, Nat.reduceLeDiff, Nat.reduceAdd, Nat.reduceSub])

theorem vqaddVx (c d a x m) : Statement (.vqaddVx c d a x m) :=
  ofOp (op := .vqaddVx) (n := 0 |> put 52#6 |> put c |> put d |> put a |> put x |> put m |> put 1#4) rfl
    (fun _ => by simp [opOf, opVqarith, extract_wordOf, partOf_put, partOf_put_zero, Nat.reduceLeDiff, Nat.reduceAdd, Nat.reduceSub])
    (fun hw => by
      change (codeOk ((wordOf (0 |> put 52#6 |> put c |> put d |> put a |> put x |> put m |> put 1#4)).extractLsb' 7 6)) = true
      simp only [extract_wordOf, partOf_put, partOf_put_zero, Nat.reduceLeDiff, Nat.reduceAdd, Nat.reduceSub]
      exact hw)
    (by
      change Instr.vqaddVx _ _ _ _ _ = _
      simp only [extract_wordOf, partOf_put, partOf_put_zero, Nat.reduceLeDiff, Nat.reduceAdd, Nat.reduceSub])

theorem vqsubVv (c d a b m) : Statement (.vqsubVv c d a b m) :=
  ofOp (op := .vqsubVv) (n := 0 |> put 52#6 |> put c |> put d |> put a |> put b |> put m |> put 2#4) rfl
    (fun _ => by simp [opOf, opVqarith, extract_wordOf, partOf_put, partOf_put_zero, Nat.reduceLeDiff, Nat.reduceAdd, Nat.reduceSub])
    (fun _ => rfl)
    (by
      change Instr.vqsubVv _ _ _ _ _ = _
      simp only [extract_wordOf, partOf_put, partOf_put_zero, Nat.reduceLeDiff, Nat.reduceAdd, Nat.reduceSub])

theorem vqsubVx (c d a x m) : Statement (.vqsubVx c d a x m) :=
  ofOp (op := .vqsubVx) (n := 0 |> put 52#6 |> put c |> put d |> put a |> put x |> put m |> put 3#4) rfl
    (fun _ => by simp [opOf, opVqarith, extract_wordOf, partOf_put, partOf_put_zero, Nat.reduceLeDiff, Nat.reduceAdd, Nat.reduceSub])
    (fun hw => by
      change (codeOk ((wordOf (0 |> put 52#6 |> put c |> put d |> put a |> put x |> put m |> put 3#4)).extractLsb' 7 6)) = true
      simp only [extract_wordOf, partOf_put, partOf_put_zero, Nat.reduceLeDiff, Nat.reduceAdd, Nat.reduceSub]
      exact hw)
    (by
      change Instr.vqsubVx _ _ _ _ _ = _
      simp only [extract_wordOf, partOf_put, partOf_put_zero, Nat.reduceLeDiff, Nat.reduceAdd, Nat.reduceSub])

theorem vqrsub (c d a x m) : Statement (.vqrsub c d a x m) :=
  ofOp (op := .vqrsub) (n := 0 |> put 52#6 |> put c |> put d |> put a |> put x |> put m |> put 4#4) rfl
    (fun _ => by simp [opOf, opVqarith, extract_wordOf, partOf_put, partOf_put_zero, Nat.reduceLeDiff, Nat.reduceAdd, Nat.reduceSub])
    (fun hw => by
      change (codeOk ((wordOf (0 |> put 52#6 |> put c |> put d |> put a |> put x |> put m |> put 4#4)).extractLsb' 7 6)) = true
      simp only [extract_wordOf, partOf_put, partOf_put_zero, Nat.reduceLeDiff, Nat.reduceAdd, Nat.reduceSub]
      exact hw)
    (by
      change Instr.vqrsub _ _ _ _ _ = _
      simp only [extract_wordOf, partOf_put, partOf_put_zero, Nat.reduceLeDiff, Nat.reduceAdd, Nat.reduceSub])

theorem vqmulVv (c d a b m) : Statement (.vqmulVv c d a b m) :=
  ofOp (op := .vqmulVv) (n := 0 |> put 52#6 |> put c |> put d |> put a |> put b |> put m |> put 5#4) rfl
    (fun _ => by simp [opOf, opVqarith, extract_wordOf, partOf_put, partOf_put_zero, Nat.reduceLeDiff, Nat.reduceAdd, Nat.reduceSub])
    (fun _ => rfl)
    (by
      change Instr.vqmulVv _ _ _ _ _ = _
      simp only [extract_wordOf, partOf_put, partOf_put_zero, Nat.reduceLeDiff, Nat.reduceAdd, Nat.reduceSub])

theorem vqmulVx (c d a x m) : Statement (.vqmulVx c d a x m) :=
  ofOp (op := .vqmulVx) (n := 0 |> put 52#6 |> put c |> put d |> put a |> put x |> put m |> put 6#4) rfl
    (fun _ => by simp [opOf, opVqarith, extract_wordOf, partOf_put, partOf_put_zero, Nat.reduceLeDiff, Nat.reduceAdd, Nat.reduceSub])
    (fun hw => by
      change (codeOk ((wordOf (0 |> put 52#6 |> put c |> put d |> put a |> put x |> put m |> put 6#4)).extractLsb' 7 6)) = true
      simp only [extract_wordOf, partOf_put, partOf_put_zero, Nat.reduceLeDiff, Nat.reduceAdd, Nat.reduceSub]
      exact hw)
    (by
      change Instr.vqmulVx _ _ _ _ _ = _
      simp only [extract_wordOf, partOf_put, partOf_put_zero, Nat.reduceLeDiff, Nat.reduceAdd, Nat.reduceSub])

theorem vqdivVv (c d a b m) : Statement (.vqdivVv c d a b m) :=
  ofOp (op := .vqdivVv) (n := 0 |> put 52#6 |> put c |> put d |> put a |> put b |> put m |> put 7#4) rfl
    (fun _ => by simp [opOf, opVqarith, extract_wordOf, partOf_put, partOf_put_zero, Nat.reduceLeDiff, Nat.reduceAdd, Nat.reduceSub])
    (fun _ => rfl)
    (by
      change Instr.vqdivVv _ _ _ _ _ = _
      simp only [extract_wordOf, partOf_put, partOf_put_zero, Nat.reduceLeDiff, Nat.reduceAdd, Nat.reduceSub])

theorem vqdivVx (c d a x m) : Statement (.vqdivVx c d a x m) :=
  ofOp (op := .vqdivVx) (n := 0 |> put 52#6 |> put c |> put d |> put a |> put x |> put m |> put 8#4) rfl
    (fun _ => by simp [opOf, opVqarith, extract_wordOf, partOf_put, partOf_put_zero, Nat.reduceLeDiff, Nat.reduceAdd, Nat.reduceSub])
    (fun hw => by
      change (codeOk ((wordOf (0 |> put 52#6 |> put c |> put d |> put a |> put x |> put m |> put 8#4)).extractLsb' 7 6)) = true
      simp only [extract_wordOf, partOf_put, partOf_put_zero, Nat.reduceLeDiff, Nat.reduceAdd, Nat.reduceSub]
      exact hw)
    (by
      change Instr.vqdivVx _ _ _ _ _ = _
      simp only [extract_wordOf, partOf_put, partOf_put_zero, Nat.reduceLeDiff, Nat.reduceAdd, Nat.reduceSub])

theorem vqrdiv (c d a x m) : Statement (.vqrdiv c d a x m) :=
  ofOp (op := .vqrdiv) (n := 0 |> put 52#6 |> put c |> put d |> put a |> put x |> put m |> put 9#4) rfl
    (fun _ => by simp [opOf, opVqarith, extract_wordOf, partOf_put, partOf_put_zero, Nat.reduceLeDiff, Nat.reduceAdd, Nat.reduceSub])
    (fun hw => by
      change (codeOk ((wordOf (0 |> put 52#6 |> put c |> put d |> put a |> put x |> put m |> put 9#4)).extractLsb' 7 6)) = true
      simp only [extract_wordOf, partOf_put, partOf_put_zero, Nat.reduceLeDiff, Nat.reduceAdd, Nat.reduceSub]
      exact hw)
    (by
      change Instr.vqrdiv _ _ _ _ _ = _
      simp only [extract_wordOf, partOf_put, partOf_put_zero, Nat.reduceLeDiff, Nat.reduceAdd, Nat.reduceSub])

theorem vqneg (c d a m) : Statement (.vqneg c d a m) :=
  ofOp (op := .vqneg) (n := 0 |> put 52#6 |> put c |> put d |> put a |> put 0#6 |> put m |> put 10#4) rfl
    (fun _ => by simp [opOf, opVqarith, extract_wordOf, partOf_put, partOf_put_zero, Nat.reduceLeDiff, Nat.reduceAdd, Nat.reduceSub])
    (fun _ => rfl)
    (by
      change Instr.vqneg _ _ _ _ = _
      simp only [extract_wordOf, partOf_put, partOf_put_zero, Nat.reduceLeDiff, Nat.reduceAdd, Nat.reduceSub])

theorem vqinv (c d a m) : Statement (.vqinv c d a m) :=
  ofOp (op := .vqinv) (n := 0 |> put 52#6 |> put c |> put d |> put a |> put 0#6 |> put m |> put 11#4) rfl
    (fun _ => by simp [opOf, opVqarith, extract_wordOf, partOf_put, partOf_put_zero, Nat.reduceLeDiff, Nat.reduceAdd, Nat.reduceSub])
    (fun _ => rfl)
    (by
      change Instr.vqinv _ _ _ _ = _
      simp only [extract_wordOf, partOf_put, partOf_put_zero, Nat.reduceLeDiff, Nat.reduceAdd, Nat.reduceSub])

theorem vqmaccVv (c d a b m) : Statement (.vqmaccVv c d a b m) :=
  ofOp (op := .vqmaccVv) (n := 0 |> put 52#6 |> put c |> put d |> put a |> put b |> put m |> put 12#4) rfl
    (fun _ => by simp [opOf, opVqarith, extract_wordOf, partOf_put, partOf_put_zero, Nat.reduceLeDiff, Nat.reduceAdd, Nat.reduceSub])
    (fun _ => rfl)
    (by
      change Instr.vqmaccVv _ _ _ _ _ = _
      simp only [extract_wordOf, partOf_put, partOf_put_zero, Nat.reduceLeDiff, Nat.reduceAdd, Nat.reduceSub])

theorem vqmaccVx (c d a x m) : Statement (.vqmaccVx c d a x m) :=
  ofOp (op := .vqmaccVx) (n := 0 |> put 52#6 |> put c |> put d |> put a |> put x |> put m |> put 13#4) rfl
    (fun _ => by simp [opOf, opVqarith, extract_wordOf, partOf_put, partOf_put_zero, Nat.reduceLeDiff, Nat.reduceAdd, Nat.reduceSub])
    (fun hw => by
      change (codeOk ((wordOf (0 |> put 52#6 |> put c |> put d |> put a |> put x |> put m |> put 13#4)).extractLsb' 7 6)) = true
      simp only [extract_wordOf, partOf_put, partOf_put_zero, Nat.reduceLeDiff, Nat.reduceAdd, Nat.reduceSub]
      exact hw)
    (by
      change Instr.vqmaccVx _ _ _ _ _ = _
      simp only [extract_wordOf, partOf_put, partOf_put_zero, Nat.reduceLeDiff, Nat.reduceAdd, Nat.reduceSub])

theorem vqeqVv (c d a b m) : Statement (.vqeqVv c d a b m) :=
  ofOp (op := .vqeqVv) (n := 0 |> put 52#6 |> put c |> put 0#3 |> put d |> put a |> put b |> put m |> put 14#4) rfl
    (fun _ => by simp [opOf, opVqarith, extract_wordOf, partOf_put, partOf_put_zero, Nat.reduceLeDiff, Nat.reduceAdd, Nat.reduceSub])
    (fun hw => by
      change (((wordOf (0 |> put 52#6 |> put c |> put 0#3 |> put d |> put a |> put b |> put m |> put 14#4)).extractLsb' 19 3) != 0) = true
      simp only [extract_wordOf, partOf_put, partOf_put_zero, Nat.reduceLeDiff, Nat.reduceAdd, Nat.reduceSub]
      exact hw)
    (by
      change Instr.vqeqVv _ _ _ _ _ = _
      simp only [extract_wordOf, partOf_put, partOf_put_zero, Nat.reduceLeDiff, Nat.reduceAdd, Nat.reduceSub])

theorem vqeqVx (c d a x m) : Statement (.vqeqVx c d a x m) :=
  ofOp (op := .vqeqVx) (n := 0 |> put 52#6 |> put c |> put 0#3 |> put d |> put a |> put x |> put m |> put 15#4) rfl
    (fun _ => by simp [opOf, opVqarith, extract_wordOf, partOf_put, partOf_put_zero, Nat.reduceLeDiff, Nat.reduceAdd, Nat.reduceSub])
    (fun hw => by
      change (codeOk ((wordOf (0 |> put 52#6 |> put c |> put 0#3 |> put d |> put a |> put x |> put m |> put 15#4)).extractLsb' 7 6) && ((wordOf (0 |> put 52#6 |> put c |> put 0#3 |> put d |> put a |> put x |> put m |> put 15#4)).extractLsb' 19 3) != 0) = true
      simp only [extract_wordOf, partOf_put, partOf_put_zero, Nat.reduceLeDiff, Nat.reduceAdd, Nat.reduceSub]
      exact hw)
    (by
      change Instr.vqeqVx _ _ _ _ _ = _
      simp only [extract_wordOf, partOf_put, partOf_put_zero, Nat.reduceLeDiff, Nat.reduceAdd, Nat.reduceSub])

theorem vqencVv (c d a b m) : Statement (.vqencVv c d a b m) :=
  ofOp (op := .vqencVv) (n := 0 |> put 53#6 |> put c |> put d |> put a |> put b |> put m |> put 0#4) rfl
    (fun _ => by simp [opOf, opVqcode, extract_wordOf, partOf_put, partOf_put_zero, Nat.reduceLeDiff, Nat.reduceAdd, Nat.reduceSub])
    (fun _ => rfl)
    (by
      change Instr.vqencVv _ _ _ _ _ = _
      simp only [extract_wordOf, partOf_put, partOf_put_zero, Nat.reduceLeDiff, Nat.reduceAdd, Nat.reduceSub])

theorem vqencVx (c d a x m) : Statement (.vqencVx c d a x m) :=
  ofOp (op := .vqencVx) (n := 0 |> put 53#6 |> put c |> put d |> put a |> put x |> put m |> put 1#4) rfl
    (fun _ => by simp [opOf, opVqcode, extract_wordOf, partOf_put, partOf_put_zero, Nat.reduceLeDiff, Nat.reduceAdd, Nat.reduceSub])
    (fun hw => by
      change (codeOk ((wordOf (0 |> put 53#6 |> put c |> put d |> put a |> put x |> put m |> put 1#4)).extractLsb' 7 6)) = true
      simp only [extract_wordOf, partOf_put, partOf_put_zero, Nat.reduceLeDiff, Nat.reduceAdd, Nat.reduceSub]
      exact hw)
    (by
      change Instr.vqencVx _ _ _ _ _ = _
      simp only [extract_wordOf, partOf_put, partOf_put_zero, Nat.reduceLeDiff, Nat.reduceAdd, Nat.reduceSub])

theorem vqencVi (c d a i m) : Statement (.vqencVi c d a i m) :=
  ofOp (op := .vqencVi) (n := 0 |> put 53#6 |> put c |> put d |> put a |> put 0#1 |> put i |> put m |> put 2#4) rfl
    (fun _ => by simp [opOf, opVqcode, extract_wordOf, partOf_put, partOf_put_zero, Nat.reduceLeDiff, Nat.reduceAdd, Nat.reduceSub])
    (fun _ => rfl)
    (by
      change Instr.vqencVi _ _ _ _ _ = _
      simp only [extract_wordOf, partOf_put, partOf_put_zero, Nat.reduceLeDiff, Nat.reduceAdd, Nat.reduceSub])

theorem vqdec (c d a m) : Statement (.vqdec c d a m) :=
  ofOp (op := .vqdec) (n := 0 |> put 53#6 |> put c |> put d |> put a |> put 0#6 |> put m |> put 3#4) rfl
    (fun _ => by simp [opOf, opVqcode, extract_wordOf, partOf_put, partOf_put_zero, Nat.reduceLeDiff, Nat.reduceAdd, Nat.reduceSub])
    (fun _ => rfl)
    (by
      change Instr.vqdec _ _ _ _ = _
      simp only [extract_wordOf, partOf_put, partOf_put_zero, Nat.reduceLeDiff, Nat.reduceAdd, Nat.reduceSub])

theorem vqdigVx (c d a x m) : Statement (.vqdigVx c d a x m) :=
  ofOp (op := .vqdigVx) (n := 0 |> put 53#6 |> put c |> put d |> put a |> put x |> put m |> put 4#4) rfl
    (fun _ => by simp [opOf, opVqcode, extract_wordOf, partOf_put, partOf_put_zero, Nat.reduceLeDiff, Nat.reduceAdd, Nat.reduceSub])
    (fun hw => by
      change (codeOk ((wordOf (0 |> put 53#6 |> put c |> put d |> put a |> put x |> put m |> put 4#4)).extractLsb' 7 6)) = true
      simp only [extract_wordOf, partOf_put, partOf_put_zero, Nat.reduceLeDiff, Nat.reduceAdd, Nat.reduceSub]
      exact hw)
    (by
      change Instr.vqdigVx _ _ _ _ _ = _
      simp only [extract_wordOf, partOf_put, partOf_put_zero, Nat.reduceLeDiff, Nat.reduceAdd, Nat.reduceSub])

theorem vqdigVi (c d a i m) : Statement (.vqdigVi c d a i m) :=
  ofOp (op := .vqdigVi) (n := 0 |> put 53#6 |> put c |> put d |> put a |> put 0#1 |> put i |> put m |> put 5#4) rfl
    (fun _ => by simp [opOf, opVqcode, extract_wordOf, partOf_put, partOf_put_zero, Nat.reduceLeDiff, Nat.reduceAdd, Nat.reduceSub])
    (fun _ => rfl)
    (by
      change Instr.vqdigVi _ _ _ _ _ = _
      simp only [extract_wordOf, partOf_put, partOf_put_zero, Nat.reduceLeDiff, Nat.reduceAdd, Nat.reduceSub])

theorem vqval (c d a m) : Statement (.vqval c d a m) :=
  ofOp (op := .vqval) (n := 0 |> put 53#6 |> put c |> put d |> put a |> put 0#6 |> put m |> put 6#4) rfl
    (fun _ => by simp [opOf, opVqcode, extract_wordOf, partOf_put, partOf_put_zero, Nat.reduceLeDiff, Nat.reduceAdd, Nat.reduceSub])
    (fun _ => rfl)
    (by
      change Instr.vqval _ _ _ _ = _
      simp only [extract_wordOf, partOf_put, partOf_put_zero, Nat.reduceLeDiff, Nat.reduceAdd, Nat.reduceSub])

theorem mmrow (c d a s l o f) : Statement (.mmrow c d a s l o f) :=
  ofOp (op := .mmrow) (n := 0 |> put 54#6 |> put c |> put d |> put a |> put s |> put l |> put o |> put f) rfl
    (fun _ => by simp [opOf, extract_wordOf, partOf_put, partOf_put_zero, Nat.reduceLeDiff, Nat.reduceAdd, Nat.reduceSub])
    (fun hw => by
      change (fmtOk ((wordOf (0 |> put 54#6 |> put c |> put d |> put a |> put s |> put l |> put o |> put f)).extractLsb' 0 4)) = true
      simp only [extract_wordOf, partOf_put, partOf_put_zero, Nat.reduceLeDiff, Nat.reduceAdd, Nat.reduceSub]
      exact hw)
    (by
      change Instr.mmrow _ _ _ _ _ _ _ = _
      simp only [extract_wordOf, partOf_put, partOf_put_zero, Nat.reduceLeDiff, Nat.reduceAdd, Nat.reduceSub])

theorem mwld (c t s f) : Statement (.mwld c t s f) :=
  ofOp (op := .mwld) (n := 0 |> put 55#6 |> put c |> put 0#6 |> put 0#2 |> put t |> put s |> put 0#7 |> put f) rfl
    (fun _ => by simp [opOf, opMslot, extract_wordOf, partOf_put, partOf_put_zero, Nat.reduceLeDiff, Nat.reduceAdd, Nat.reduceSub])
    (fun hw => by
      change (fmtOk ((wordOf (0 |> put 55#6 |> put c |> put 0#6 |> put 0#2 |> put t |> put s |> put 0#7 |> put f)).extractLsb' 0 4)) = true
      simp only [extract_wordOf, partOf_put, partOf_put_zero, Nat.reduceLeDiff, Nat.reduceAdd, Nat.reduceSub]
      exact hw)
    (by
      change Instr.mwld _ _ _ _ = _
      simp only [extract_wordOf, partOf_put, partOf_put_zero, Nat.reduceLeDiff, Nat.reduceAdd, Nat.reduceSub])

theorem mwclr (c s) : Statement (.mwclr c s) :=
  ofOp (op := .mwclr) (n := 0 |> put 55#6 |> put c |> put 1#6 |> put 0#6 |> put s |> put 0#11) rfl
    (fun _ => by simp [opOf, opMslot, extract_wordOf, partOf_put, partOf_put_zero, Nat.reduceLeDiff, Nat.reduceAdd, Nat.reduceSub])
    (fun _ => rfl)
    (by
      change Instr.mwclr _ _ = _
      simp only [extract_wordOf, partOf_put, partOf_put_zero, Nat.reduceLeDiff, Nat.reduceAdd, Nat.reduceSub])

theorem vpclr (c d) : Statement (.vpclr c d) :=
  ofOp (op := .vpclr) (n := 0 |> put 56#6 |> put c |> put d |> put 0#12 |> put 0#7) rfl
    (fun _ => by simp [opOf, opVmisc, extract_wordOf, partOf_put, partOf_put_zero, Nat.reduceLeDiff, Nat.reduceAdd, Nat.reduceSub])
    (fun _ => rfl)
    (by
      change Instr.vpclr _ _ = _
      simp only [extract_wordOf, partOf_put, partOf_put_zero, Nat.reduceLeDiff, Nat.reduceAdd, Nat.reduceSub])

theorem vpmclr (c) : Statement (.vpmclr c) :=
  ofOp (op := .vpmclr) (n := 0 |> put 56#6 |> put c |> put 0#18 |> put 1#7) rfl
    (fun _ => by simp [opOf, opVmisc, extract_wordOf, partOf_put, partOf_put_zero, Nat.reduceLeDiff, Nat.reduceAdd, Nat.reduceSub])
    (fun _ => rfl)
    (by
      change Instr.vpmclr _ = _
      simp only [extract_wordOf, partOf_put, partOf_put_zero, Nat.reduceLeDiff, Nat.reduceAdd, Nat.reduceSub])

theorem vpmask (c d a) : Statement (.vpmask c d a) :=
  ofOp (op := .vpmask) (n := 0 |> put 56#6 |> put c |> put 0#3 |> put d |> put a |> put 0#6 |> put 2#7) rfl
    (fun _ => by simp [opOf, opVmisc, extract_wordOf, partOf_put, partOf_put_zero, Nat.reduceLeDiff, Nat.reduceAdd, Nat.reduceSub])
    (fun hw => by
      change (((wordOf (0 |> put 56#6 |> put c |> put 0#3 |> put d |> put a |> put 0#6 |> put 2#7)).extractLsb' 19 3) != 0) = true
      simp only [extract_wordOf, partOf_put, partOf_put_zero, Nat.reduceLeDiff, Nat.reduceAdd, Nat.reduceSub]
      exact hw)
    (by
      change Instr.vpmask _ _ _ = _
      simp only [extract_wordOf, partOf_put, partOf_put_zero, Nat.reduceLeDiff, Nat.reduceAdd, Nat.reduceSub])

theorem vid (c d) : Statement (.vid c d) :=
  ofOp (op := .vid) (n := 0 |> put 56#6 |> put c |> put d |> put 0#12 |> put 3#7) rfl
    (fun _ => by simp [opOf, opVmisc, extract_wordOf, partOf_put, partOf_put_zero, Nat.reduceLeDiff, Nat.reduceAdd, Nat.reduceSub])
    (fun _ => rfl)
    (by
      change Instr.vid _ _ = _
      simp only [extract_wordOf, partOf_put, partOf_put_zero, Nat.reduceLeDiff, Nat.reduceAdd, Nat.reduceSub])

theorem vmvR (c d a n) : Statement (.vmvR c d a n) :=
  ofOp (op := .vmvR) (n := 0 |> put 56#6 |> put c |> put d |> put a |> put 0#4 |> put n |> put 4#7) rfl
    (fun _ => by simp [opOf, opVmisc, extract_wordOf, partOf_put, partOf_put_zero, Nat.reduceLeDiff, Nat.reduceAdd, Nat.reduceSub])
    (fun _ => rfl)
    (by
      change Instr.vmvR _ _ _ _ = _
      simp only [extract_wordOf, partOf_put, partOf_put_zero, Nat.reduceLeDiff, Nat.reduceAdd, Nat.reduceSub])

theorem vstBo (c v b o m h) : Statement (.vstBo c v b o m h) :=
  ofOp (op := .vstBo) (n := 0 |> put 37#6 |> put c |> put v |> put b |> put o |> put m |> put 1#3 |> put 0#1 |> put h) rfl
    (fun _ => by simp [opOf, opVst, extract_wordOf, partOf_put, partOf_put_zero, Nat.reduceLeDiff, Nat.reduceAdd, Nat.reduceSub])
    (fun hw => by
      change (baseOk ((wordOf (0 |> put 37#6 |> put c |> put v |> put b |> put o |> put m |> put 1#3 |> put 0#1 |> put h)).extractLsb' 14 5) && codeOk ((wordOf (0 |> put 37#6 |> put c |> put v |> put b |> put o |> put m |> put 1#3 |> put 0#1 |> put h)).extractLsb' 8 6)) = true
      simp only [extract_wordOf, partOf_put, partOf_put_zero, Nat.reduceLeDiff, Nat.reduceAdd, Nat.reduceSub]
      exact hw)
    (by
      change Instr.vstBo _ _ _ _ _ _ = _
      simp only [extract_wordOf, partOf_put, partOf_put_zero, Nat.reduceLeDiff, Nat.reduceAdd, Nat.reduceSub])

theorem badWord (x0 x1) : Statement (.badWord x0 x1) := ofNone rfl

theorem fetchFault : Statement (.fetchFault) := ofNone rfl

theorem hartKill (x0) : Statement (.hartKill x0) := ofNone rfl

theorem chipIncarnationAnnouncement (x0 x1) : Statement (.chipIncarnationAnnouncement x0 x1) := ofNone rfl

theorem fabricFrameDrop (x0) : Statement (.fabricFrameDrop x0) := ofNone rfl

theorem tenbootComplete (x0) : Statement (.tenbootComplete x0) := ofNone rfl

theorem unbindingComplete (x0 x1) : Statement (.unbindingComplete x0 x1) := ofNone rfl

end Sys2Proof.Laws.RoundTrip
end

