-- ==== Sys2Proof/Tests/Slice0.lean ====
section
/-! SUPPORT. Tests: ill-formed terms that the check refuses, words of the spec with what they decode to, single steps with the results
that the spec gives, and for each statement states that meet its hypotheses. -/

namespace Sys2Proof.Tests

open Sys2Proof.Machine Sys2Proof.Claims

set_option Elab.async false

/-! The states of the tests -/

/-- A region of tenant 1 that covers the first 64 KiB of the Comb, of a discipline and an element type. -/
def region (disc ty : Nat) : Region :=
  { tag := 1, disc := disc, ty := ty, rule := 0, qent := 0, base := 0, size := 0x10000, obj := 0, jsize := 0, ownk := 0, own := 0,
    pln := [], flip := [], flipEpi := none, flipAbs := 0, flipBanks := [], journal := [], marks := [] }

/-- A package that runs: a hart of tenant 1 in mode S, bound in slot 0 of core 0, its code and data in one page, a handler whose first
word is an `add`, and an OPN region over the first 64 KiB of the Comb. -/
def start : State :=
  { ((State.reset.withPlaced.store 0x401000 (wordBytes 0x04642800#32) false).setCore 0 (fun c => { c with lane := [(0, 2)] })) with
    h := { placedHart with tvec := 0x401000#64 }, hub := { Hub.reset with phase := 7 }, regions := [(0, some (region 5 0))] }

/-- The same with another hart in hand, made from the first. -/
def hart (f : Hart → Hart) : State := start.setH f

/-- The same with scalar registers. -/
def regs (l : List (Nat × Word)) : State := hart (fun h => { h with x := l })

/-- A state with a live object of tenant 1 at a Comb offset, x2 a pointer to it. -/
def object (s : State) (off : Nat) (b : ObjKind) : State :=
  { s with objs := [(off, some { num := 3, tag := 1, body := b })], h := { s.h with x := [(2, word (0xD0 * 2 ^ 56 + off)), (4, 100), (5, 0x400000), (6, word (9 * 2 ^ 32))] } }

/-- A swarm with members and joins. -/
def aSwarm (l : List Member) (j : List Join) : Swarm :=
  { xchip := false, remote := 0, epi := 5, lowabs := 0xFFF, nabs := 0, cst := 0, ctick := 0, absents := 0, members := l, joins := j, closed := [],
    top := 0, topAt := 0 }

/-- A member in good standing that has not arrived. -/
def aMember (rank hid : Nat) : Member := { rank := rank, hid := hid, chip := 0xFFFF, good := true, arrived := false, dead := 0, tick := 0, flip := false }

/-- A latch. -/
def aLatch (held : Bool) (holder : Nat) : Latch := { hold := 9, holder := holder, held := held, swp := 0, gtick := 0, queue := [] }

/-- A channel with two slots of 64 bytes. -/
def aChan : Chan :=
  { buf := 0, nslot := 2, sz := 64, head := 0, tail := 0, pkind := 0, psw := 0, sil := 0, senders := [], receivers := [] }

/-- A command of hart 1 at an engine. -/
def aCmd (kind : Nat) (running : Bool) : Cmd :=
  { seq := 7, kind := kind, hid := 1, tid := 1, mode := .s, core := 0, src := 0x400000#64, dst := 0x400040#64, ty := 0, op := 0, len := 64,
    aux := 0, cdl := 100, rcd := 0x400080#64, rcdLine := ⟨some 0x400080, none, none, 0⟩, lines := [⟨some 0x400040, none, none, 0⟩], running := running,
    recalled := [], res := none, xchip := false }

/-- An engine that tenant 1 leases, with commands. -/
def anEngine (l : List Cmd) : Engine :=
  { Engine.reset with leased := true, tid := 1, endAt := 1000, ser := 1, seq := 8, queue := l }

/-- The place of an address of the near tier. -/
def near (a : Nat) : Place := ⟨a, none, none⟩

/-- A block that runs. -/
def aBlock : Block := { addr := 0x400000#64, seq := 4, rm := 0, fen := 0, fxf := 0, dscale := 0, qcfg := 0, rchk := 0, flags := 0 }

/-- An entry of the decoupled queue. -/
def anEntry : QEntry :=
  { addr := 0x400000#64, args := [], rm := 0, fen := 0, fxf := 0, dscale := 0, qcfg := 0, rchk := 0, seq := 4, sld := false }

/-- A hart whose vector side is at a word of a block: four elements of 64-bit integers. -/
def vector (f : Hart → Hart) : State :=
  hart (fun h => f { h with run := some aBlock, vpc := 0x400004#64, conv := [(0x400000#64, 0)],
                            vx := { VCtx.dead with vl := 4, vtype := { vill := false, g := 0, ty := 0, sw := 3 } } })

/-- A change of its vector registers. -/
def vset (f : VCtx → VCtx) : State := vector (fun h => { h with vx := f h.vx })

/-- A type of its elements. -/
def typed (ty sw : BitVec 3) : State := vset (fun x => { x with vtype := { vill := false, g := 0, ty := ty, sw := sw } })

/-- A stopped vector side. -/
def aStop : VStop := { cause := 1, tval := 0, tepc := 0x400000#64, frec := [] }

/-! States that meet the hypotheses of the statements -/


theorem witness_BranchResults : ((0x38A6C000#32).extractLsb' 26 6).toNat = 0x0E ∧ 6 ≤ ((0x38A6C000#32).extractLsb' 13 3).toNat ∧
    ((0x38A6E000#32).extractLsb' 26 6).toNat = 0x0E ∧ 6 ≤ ((0x38A6E000#32).extractLsb' 13 3).toNat := by decide

theorem witness_JumpResults : (start.xr 2 + (4 : BitVec 16).signExtend 64).toNat % 4 = 0 ∧
    (start.xr 2 + (1 : BitVec 16).signExtend 64).toNat % 4 ≠ 0 ∧ start.handlerOk cALIGN = true := by decide +kernel

theorem witness_SpaceResults : window ((regs [(2, 0xF000010000000008#64)]).xr 2) = (1 : BitVec 2).toNat ∧
    ((regs [(2, 0xFFFFFFF#64)]).xr 2).toNat < 2 ^ offsetWidth 3 := by decide +kernel

theorem witness_LoadResults : let r := start.access start.h.actor .load 0x400008#64 8 8
    r.2 = .ok (near 0x400008) ∧ (r.1.readAt r.1.h.actor (near 0x400008) 8).2 = (0, false) := by decide +kernel

theorem witness_StoreResults : let r := start.access start.h.actor .store 0x400FF8#64 8 8
    r.2 = .ok (near 0x400FF8) ∧ (near 0x400FF8).reg = none ∧ r.1.hasKey r.1.h.tid = true ∧
      (r.1.tenant (robTag (r.1.robAt 0x400FF8))).dlEn = false ∧ r.1.foreign r.1.h.tid 0x400FF8 8 = false := by decide +kernel

theorem witness_AccessOrder : window (0x0100000000000000#64) = 15 ∧
    (window (0xF000020000000000#64) = 1 ∧ bits (0xF000020000000000#64).toNat 40 16 ≠ start.h.hid) ∧
    (window (0xE000010000000000#64) = 2 ∧ bits (0xE000010000000000#64).toNat 40 8 ≠ start.h.core) ∧
    (window (0x400004#64) ≠ 15 ∧ window (0x400004#64) ≠ 1 ∧ window (0x400004#64) ≠ 2 ∧ (0x400004#64).toNat % 8 ≠ 0) := by decide +kernel

theorem witness_FopResults : flTraps (fxfFen start.h.fxf) ((fopFmt 1).div start.rm 0x3FF0000000000000 0).2 = false ∧
    flTraps (fxfFen (hart (fun h => { h with fxf := 0x1F000000#64 })).h.fxf) ((fopFmt 1).div start.rm 0x3FF0000000000000 0).2 = true ∧
    (hart (fun h => { h with fxf := 0x1F000000#64 })).handlerOk cFPE = true := by
  decide +kernel

theorem witness_AmoResults : let r := start.access start.h.actor (AmoOp.add).kind 0x400008#64 8 8
    window (0x400008#64) ≠ 2 ∧ r.2 = .ok (near 0x400008) ∧ r.1.amoSuits .add 0x400008#64 8 = true ∧
      ((r.1.amoNote .add (near 0x400008) 8).readAt start.h.actor (near 0x400008) 8).2 = (0, false) ∧ window (0xE000000000000008#64) = 2 := by
  decide +kernel

/-- The same for an exact rational, in a region of its type. -/
theorem witness_AmoResults_rational :
    let s : State := { start with regions := [(0, some (region 4 6))] }
    let pl : Place := ⟨locComb 8, some 0, none⟩
    window (0xD000000000000008#64) ≠ 2 ∧ s.access s.h.actor (AmoOp.qadd).kind 0xD000000000000008#64 8 8 = (s, .ok pl) ∧
      s.amoSuits .qadd 0xD000000000000008#64 8 = true ∧ ((s.amoNote .qadd pl 8).readAt s.h.actor pl 8).2 = (0, false) := by decide +kernel

theorem witness_FenceResults : start.fenceParty 4 = none ∧
    ({ start with engines := [(3, anEngine [aCmd 0 false])] } : State).fenceParty 4 = some (partyWord 0 3) := by decide +kernel

theorem witness_TrapEntry : (start.setH (fun h => h.pageMet cILLOP 0)).handlerOk cILLOP = true ∧
    ¬(cILLOP = cPAGE ∧ start.h.mode = .a ∧ bit start.hub.split 0 = true) ∧
    (let s := hart (fun h => { h with tvec := 0 })
     s.h.live = true ∧ (s.setH (fun h => h.pageMet cILLOP 0)).handlerOk cILLOP = false) ∧
    (start.hub.mchead + 2 ^ 32 - start.hub.mctail) % 2 ^ 32 < 4096 := by decide +kernel

theorem witness_TrapWords : ((start.count 1 1 1).setH (fun h => { h.sealAll with wd := 0 })).handlerOk cTRAP = true ∧
    start.handlerOk cBRK = true := by decide +kernel

theorem witness_TrapReturn : start.h.mode ≠ .a ∧ (pmMode start.h.tstat).code ≤ start.h.mode.code ∧ start.h.stop = none ∧
    (pmMode 4).code ≤ start.h.mode.code ∧ bit (4#64).toNat 2 = true ∧ (some aStop) ≠ none ∧ bit (0#64).toNat 2 = false ∧
    start.h.mode.code < (pmMode 2).code := by decide +kernel

/-- A package with a chip id, ports that are up and a peer, and a tenant with an armed trigger for the codes 0x10 to 0x20. -/
def triggering : State :=
  { start.setTenant 1 (fun t => { t with ftrig := word (3 * 2 ^ 62 + 5 * 2 ^ 32 + 0x20 * 2 ^ 16 + 0x10) }) with
    hub := { start.hub with hchip := 7, feat0 := 2, featSet := true, peers := [(9, some 3)] } }

theorem witness_MarkResults : (let f := (triggering.tenant triggering.h.tid).ftrig.toNat
     (bit f 63 = true ∧ bits f 0 12 ≤ 0x20 ∧ 0x20 ≤ bits f 16 12) ∧ ¬(bit f 63 = true ∧ bits f 0 12 ≤ 0x21 ∧ 0x21 ≤ bits f 16 12) ∧
       bit f 62 = true) ∧
    triggering.portsUp = true ∧ (triggering.tenant triggering.h.tid).replay = false ∧ triggering.traceOn 1 7 = false ∧
    triggering.h.slot ≠ none ∧ bit (start.tenant start.h.tid).ftrig.toNat 63 = false ∧ start.traceOn start.h.tid 1 = false := by
  decide +kernel

theorem witness_ControlReads : cfgKnown 0x030 = true ∧ cfgReadS 0x030 = false ∧ cfgVector 0x030 = false ∧
    (cfgKnown 0x074 = true ∧ cfgReadS 0x074 = false ∧ cfgVector 0x074 = true ∧ start.h.released = false ∧ start.ownsLanes = true) ∧
    (cfgKnown 0x100 = true ∧ cfgReadS 0x100 = true ∧ start.h.mode ≠ .a ∧ (hart (fun h => { h with mode := .a })).h.mode = .a) ∧
    cfgKnown 0x1FF = true ∧ cfgKnown 0x200 = false ∧ cfgKnown 0x004 = false := by decide +kernel

theorem witness_ControlWrites : (cfgTable start).map Prod.fst = [0x003, 0x010, 0x012, 0x020, 0x021, 0x040, 0x041, 0x042, 0x043, 0x044, 0x050, 0x080] ∧
    start.h.mode.code < cfgWriteMode 0x021 ∧ cfgWriteMode 0x020 ≤ start.h.mode.code ∧ (decide (1 ≤ 0 && 0 < 2 ^ 32)) = false ∧
    (decide (1 ≤ 1 && 1 < 2 ^ 32)) = true ∧ (decide (1 ≤ 2 ^ 32 && 2 ^ 32 < 2 ^ 32)) = false := by decide +kernel

theorem witness_ControlWrites_rest : (3 < 2 ^ 22 ∧ bits 3 10 6 = 0 ∧ bits 3 4 4 = 0 ∧ 3 % 16 < 8) ∧ ¬(8 % 16 < 8) ∧
    (start.h.stop = none ∧ start.h.run = none ∧ start.h.queue = [] ∧ start.ownsLanes = true) ∧ cfgFixed.map Prod.fst = [0, 1, 2] ∧
    ((regs [(3, 1)]).xr 3).toNat &&& (2 ^ 64 - 2 ^ 17) = 0 ∧ ((regs [(3, 2 ^ 20)]).xr 3).toNat &&& (2 ^ 64 - 2 ^ 17) ≠ 0 ∧
    (hart (fun h => { h with mode := .d })).h.mode = .d ∧ (cfgHubTable start 63).head?.map (fun e => (e.1, e.2.1)) = some (0x051, true) ∧
    (cfgHubTable start 64).head?.map (fun e => e.2.1) = some false ∧ start.hub.phase ≠ 6 ∧
    ({ start with hub := { start.hub with phase := 6 } } : State).hub.phase = 6 ∧ start.h.mode ≠ .a ∧ (0x1C0 - 0x100) * 8 ∈ windowWritten ∧
    start.xr 3 &&& ~~~vfMask 0x600 = 0 ∧ (regs [(3, 2 ^ 58)]).xr 3 &&& ~~~vfMask 0x600 ≠ 0 ∧ 0x608 ∉ windowWritten := by decide +kernel

theorem witness_RunResults : start.h.trapWaits = false ∧ start.h.released = false ∧ window (0x400040#64) = 0 ∧ (0x400040#64).toNat % 64 = 0 ∧
    start.h.queue.length < 16 ∧ (hart (fun h => { h with released := true })).h.released = true ∧ window (0xD000000000000000#64) ≠ 0 ∧
    (0x400020#64).toNat % 64 ≠ 0 ∧ 16 ≤ (hart (fun h => { h with queue := List.replicate 16 anEntry })).h.queue.length := by decide +kernel

theorem witness_RunResults_stopped : let s := hart (fun h => { h with stop := some aStop })
    s.h.stop ≠ none ∧ s.h.held = none ∧ s.h.mode ≠ .a := by decide +kernel

theorem witness_ReplyResults : (hart (fun h => { h with replies := [(7, none)] })).h.replies = (7, none) :: [] ∧
    start.h.trapWaits = false ∧ start.h.replies = [] ∧ start.deadline 0 0 ≤ start.gtb ∧ (regs [(4, 1)]).gtb < (regs [(4, 1)]).deadline 4 1 ∧
    start.h.outstanding = [] ∧ (hart (fun h => { h with queue := [anEntry] })).h.outstanding ≠ [] := by decide +kernel

theorem witness_VectorLife : start.h.trapWaits = false ∧ start.h.run = none ∧ start.h.queue = [] ∧ start.ownsLanes = true ∧
    start.h.released = false := by decide +kernel

/-- A launch image at 0x40_0100 with an entry and a rank, by a tenant that has a lane group of core 0. -/
def launch (rank : Nat) : State :=
  let s := (start.setCore 0 (fun c => { c with pmap := [(0, 65)] })).setH (fun h => { h with x := [(2, 0x400100)] })
  (s.store 0x400100 (leBytes 8 0x400000) false).store 0x400148 (leBytes 8 (rank * 2 ^ 32)) false

/-- What the image reads as. -/
def launchBytes (rank : Nat) : List Byte := leBytes 8 0x400000 ++ List.replicate 64 0 ++ leBytes 8 (rank * 2 ^ 32) ++ List.replicate 48 0

/-- A reading of an image, by its parts. -/
theorem readsImage (s : State) (a : BitVec 5) (pls : List Place) (bs : List Byte) (h1 : (s.accessRun s.h.actor .load (s.xr a) 2).2 = .ok pls)
    (h2 : ((s.accessRun s.h.actor .load (s.xr a) 2).1.readPieces (s.accessRun s.h.actor .load (s.xr a) 2).1.h.actor pls).2 = (bs, false)) :
    ReadsImage s a ((s.accessRun s.h.actor .load (s.xr a) 2).1.readPieces (s.accessRun s.h.actor .load (s.xr a) 2).1.h.actor pls).1 bs :=
  ⟨_, pls, Prod.ext rfl h1, Prod.ext rfl h2⟩

theorem witness_SpawnResults (rank : Nat) (hr : rank = 0 ∨ rank = 1) : ∃ u, ReadsImage (launch rank) 2 u (launchBytes rank) ∧
    u.hub.phase = 7 ∧ u.proxySwarm (imageOf (launchBytes rank)) = none ∧ u.slowest (imageOf (launchBytes rank)).homes = none ∧
    (match u.admitImage u.h.tid (imageOf (launchBytes rank)) with
     | .ok x => rank == 0 && x == (0, 0)
     | .error c => rank == 1 && c.code == 1) = true := by
  rcases hr with rfl | rfl
  · exact ⟨_, readsImage (launch 0) 2 [near 0x400100, near 0x400140] _ (by decide +kernel) (by decide +kernel), by decide +kernel⟩
  · exact ⟨_, readsImage (launch 1) 2 [near 0x400100, near 0x400140] _ (by decide +kernel) (by decide +kernel), by decide +kernel⟩

/-- The same where the image enrols the hart in a swarm: of another chip, or at die 1, which leaves requests unanswered. -/
def enrolling (remote late : Nat) : State :=
  let w := { aSwarm [] [] with xchip := decide (remote ≠ 0), remote := word remote }
  ({ (launch 0).store 0x400150 (leBytes 8 (0xD0 * 2 ^ 56 + 0x2000100)) false with
     objs := [(0x2000100, some { num := 3, tag := 1, body := .swarm w })] } : State).setDie 1 (fun d => { d with late := late })

/-- What that image reads as. -/
def enrolBytes : List Byte := leBytes 8 0x400000 ++ List.replicate 72 0 ++ leBytes 8 (0xD0 * 2 ^ 56 + 0x2000100) ++ List.replicate 40 0

theorem witness_SpawnResults_waits (remote late : Nat) (h : (remote, late) = (9 * 2 ^ 48 + 12, 0) ∨ (remote, late) = (0, 1)) :
    ∃ u, ReadsImage (enrolling remote late) 2 u enrolBytes ∧ u.hub.phase = 7 ∧
      ((u.proxySwarm (imageOf enrolBytes)).isSome = true ∨
        u.proxySwarm (imageOf enrolBytes) = none ∧ u.slowest (imageOf enrolBytes).homes = some 1) ∧
      (match u.admitImage u.h.tid (imageOf enrolBytes) with
       | .ok x => x == (0, 0)
       | .error _ => false) = true := by
  rcases h with h | h <;> cases h
  · exact ⟨_, readsImage (enrolling _ _) 2 [near 0x400100, near 0x400140] _ (by decide +kernel) (by decide +kernel), by decide +kernel⟩
  · exact ⟨_, readsImage (enrolling _ _) 2 [near 0x400100, near 0x400140] _ (by decide +kernel) (by decide +kernel), by decide +kernel⟩

theorem witness_SpawnResults_phase : let s := { launch 0 with hub := { start.hub with phase := 6 } }
    ∃ u, ReadsImage s 2 u (launchBytes 0) ∧ u.hub.phase ≠ 7 :=
  ⟨_, readsImage _ 2 [near 0x400100, near 0x400140] _ (by decide +kernel) (by decide +kernel), by decide +kernel⟩

theorem witness_SpawnResults_exit : let s := (object start 256 (.swarm (aSwarm [aMember 0 1] []))).setDie (combHome 256).1 (fun d => { d with late := 1 })
    start.h.live = true ∧ start.h.trapWaits = false ∧ start.h.run = none ∧ start.h.queue = [] ∧ start.swarmsOf 1 = [] ∧
      s.swarmsOf s.h.hid = [256] ∧ (s.leaveAll s.h.hid).leaveOpen (256, s.gtb) = true := by
  decide +kernel

/-- A record at the Comb offset 256 in the OPN region of the tests. -/
theorem recordAt (s : State) (p : Word) (h : s.h.tid = 1) (hr : s.regionOf 1 256 = some (0, region 5 0)) (hp : p = 0xD000000000000100#64) :
    RecordAt s p 256 := by
  subst hp
  refine ⟨by decide, by decide, by decide, 0, region 5 0, h ▸ hr, by decide, rfl⟩

/-- The hart in hand is live and bound. -/
theorem boundOf {s : State} (h : s.h.live = true ∧ s.h.slot ≠ none ∧ s.h.hid < 65536) : Bound s := h

/-- The same state with a home die that leaves requests unanswered. -/
def slowly (s : State) : State := s.setDie (combHome 256).1 (fun d => { d with late := 1 })

theorem homeAnswers {s : State} (h : (s.die (combHome 256).1).late = 0) : HomeAnswers s 256 := h

theorem homeSilent {s : State} (h : (s.die (combHome 256).1).late ≠ 0) : ¬HomeAnswers s 256 := h

/-- The image of a channel at 256, its buffer in a second region. -/
def chanImage : State :=
  let s := { start with regions := [(0, some (region 5 0)), (1, some { region 4 7 with base := 0x10000 })],
                        h := { start.h with x := [(2, 0xD000000000000100)] } }
  (s.store (locComb 264) (leBytes 8 (0xD0 * 2 ^ 56 + 0x10000)) false).store (locComb 272) (leBytes 8 (2 ^ 32 + 64)) false

theorem witness_ObjectResults : RecordAt chanImage (chanImage.xr 2) 256 ∧ HomeAnswers chanImage 256 ∧
    chanImage.chanImage 1 (chanImage.bytesAt (locComb 256) 256) = true ∧ start.latchImage 1 (start.bytesAt (locComb 256) 256) = true ∧
    start.swarmImage (start.bytesAt (locComb 256) 256) = true ∧ chanImage.obj 256 = none ∧ chanImage.objCount < 16384 ∧
    chanImage.freeNum = some 1 :=
  ⟨recordAt _ _ rfl (by decide +kernel) (by decide +kernel), homeAnswers (by decide +kernel), by decide +kernel⟩

theorem witness_ObjectResults_free : let s := object start 256 (.latch (aLatch false 0))
    RecordAt s (s.xr 2) 256 ∧ HomeAnswers s 256 ∧ s.obj 256 = some { num := 3, tag := 1, body := .latch (aLatch false 0) } ∧
      s.named 1 256 3 = false :=
  ⟨recordAt _ _ rfl (by decide +kernel) (by decide +kernel), homeAnswers (by decide +kernel), by decide +kernel⟩

theorem witness_ObjectResults_late : let s := slowly (object start 256 (.latch (aLatch false 0)))
    let c := slowly chanImage
    RecordAt s (s.xr 2) 256 ∧ RecordAt c (c.xr 2) 256 ∧ ¬HomeAnswers s 256 ∧ ¬HomeAnswers c 256 ∧ s.named 1 256 3 = false ∧
      c.chanImage 1 (c.bytesAt (locComb 256) 256) = true ∧ c.obj 256 = none :=
  ⟨recordAt _ _ rfl (by decide +kernel) (by decide +kernel), recordAt _ _ rfl (by decide +kernel) (by decide +kernel),
    homeSilent (by decide +kernel), homeSilent (by decide +kernel), by decide +kernel⟩

/-- A state whose swarm at 256 is w, with its record and home die. -/
theorem swarmAt (s : State) (w : Swarm) (h : s.h.tid = 1) (hr : s.regionOf 1 256 = some (0, region 5 0)) (hp : s.xr 2 = 0xD000000000000100#64)
    (hw : s.swarm 256 = some ({ num := 3, tag := 1, body := .swarm w }, w)) :
    RecordAt s (s.xr 2) 256 ∧ s.swarm 256 = some ({ num := 3, tag := 1, body := .swarm w }, w) := ⟨recordAt s _ h hr hp, hw⟩

/-- A rank that is free in a swarm, for a hart that may join it. -/
def mayJoin (s : State) (w : Swarm) : Bool :=
  w.remote == 0 && (({ num := 3, tag := 1, body := .swarm w } : Obj).memberOf s.h.hid).isNone && decide ((s.xr 4).toNat < 1024) &&
    !w.members.any (fun m => m.rank == (s.xr 4).toNat) && !w.joins.any (fun j => j.rank == (s.xr 4).toNat && j.hid != s.h.hid) &&
    decide ((s.swarmsOf s.h.hid).length < 8)

theorem witness_SwarmResults : let w := aSwarm [aMember 0 9] []
    let s := object start 256 (.swarm w)
    (RecordAt s (s.xr 2) 256 ∧ s.swarm 256 = some ({ num := 3, tag := 1, body := .swarm w }, w)) ∧ HomeAnswers s 256 ∧ mayJoin s w = true ∧
      w.members.any (fun m => m.good) = true ∧ s.gtb < s.deadline 4 0 ∧ s.deadline 0 0 ≤ s.gtb :=
  ⟨swarmAt _ _ rfl (by decide +kernel) (by decide +kernel) (by decide +kernel), homeAnswers (by decide +kernel), by decide +kernel⟩

theorem witness_SwarmResults_member : let w := aSwarm [aMember 0 1] []
    let s := object start 256 (.swarm w)
    (RecordAt s (s.xr 2) 256 ∧ s.swarm 256 = some ({ num := 3, tag := 1, body := .swarm w }, w)) ∧ HomeAnswers s 256 ∧
      ¬HomeAnswers (slowly s) 256 ∧ w.remote = 0 ∧ w.joins = [] ∧
      ({ num := 3, tag := 1, body := .swarm w } : Obj).memberOf s.h.hid = some (aMember 0 1) ∧ (aMember 0 1).good = true :=
  ⟨swarmAt _ _ rfl (by decide +kernel) (by decide +kernel) (by decide +kernel), homeAnswers (by decide +kernel), homeSilent (by decide +kernel),
    by decide +kernel⟩

theorem witness_SwarmResults_lapsed : let m := { aMember 0 1 with good := false }
    let w := aSwarm [m] []
    let s := slowly (object start 256 (.swarm w))
    (RecordAt s (s.xr 2) 256 ∧ s.swarm 256 = some ({ num := 3, tag := 1, body := .swarm w }, w)) ∧ ¬HomeAnswers s 256 ∧
      HomeAnswers (object start 256 (.swarm w)) 256 ∧ ({ num := 3, tag := 1, body := .swarm w } : Obj).memberOf s.h.hid = some m ∧
      m.good = false ∧ s.slow.any (fun x => x.hid == s.h.hid && x.tick == s.gtb) = false :=
  ⟨swarmAt _ _ rfl (by decide +kernel) (by decide +kernel) (by decide +kernel), homeSilent (by decide +kernel), homeAnswers (by decide +kernel),
    by decide +kernel⟩

theorem witness_SwarmResults_first : let w := aSwarm [] []
    let s := object start 256 (.swarm w)
    (RecordAt s (s.xr 2) 256 ∧ s.swarm 256 = some ({ num := 3, tag := 1, body := .swarm w }, w)) ∧ HomeAnswers s 256 ∧ Bound s ∧
      mayJoin s w = true ∧ w.members.any (fun m => m.good) = false ∧ s.naming 2 256 = [] ∧ (w.joins.isEmpty && w.closed.isEmpty) = true ∧
      (∀ m ∈ w.members, m.hid ≠ s.h.hid) :=
  ⟨swarmAt _ _ rfl (by decide +kernel) (by decide +kernel) (by decide +kernel), homeAnswers (by decide +kernel), boundOf (by decide +kernel),
    by decide +kernel⟩

theorem witness_SwarmResults_close : let w := aSwarm [aMember 0 1, { aMember 1 9 with arrived := true }] []
    let s := object start 256 (.swarm w)
    (RecordAt s (s.xr 2) 256 ∧ s.swarm 256 = some ({ num := 3, tag := 1, body := .swarm w }, w)) ∧ HomeAnswers s 256 ∧ Bound s ∧
      ({ num := 3, tag := 1, body := .swarm w } : Obj).memberOf s.h.hid = some (aMember 0 1) ∧ s.naming 2 256 = [] ∧
      (∀ k ∈ w.members, k.chip = 0xFFFF ∧ (k.hid = s.h.hid → k = aMember 0 1) ∧ (k.good = true → k.hid ≠ s.h.hid → k.arrived = true)) :=
  ⟨swarmAt _ _ rfl (by decide +kernel) (by decide +kernel) (by decide +kernel), homeAnswers (by decide +kernel), boundOf (by decide +kernel),
    by decide +kernel⟩

theorem witness_SwarmResults_waits : let w := aSwarm [aMember 0 1, aMember 1 9] []
    let s := object start 256 (.swarm w)
    ({ num := 3, tag := 1, body := .swarm w } : Obj).memberOf s.h.hid = some (aMember 0 1) ∧ s.gtb < s.deadline 4 0 ∧
      (∃ k ∈ w.members, k.good = true ∧ k.arrived = false ∧ k.hid ≠ s.h.hid) ∧ s.deadline 0 0 ≤ s.gtb := by decide +kernel

theorem witness_SwarmResults_far : let w := { aSwarm [] [] with remote := word (9 * 2 ^ 48 + 12) }
    let s := object triggering 256 (.swarm w)
    (RecordAt s (s.xr 2) 256 ∧ s.swarm 256 = some ({ num := 3, tag := 1, body := .swarm w }, w)) ∧ w.remote ≠ 0 ∧
      (s.tenant s.h.tid).replay = false ∧ s.portsUp = true :=
  ⟨swarmAt _ _ rfl (by decide +kernel) (by decide +kernel) (by decide +kernel), by decide +kernel⟩

theorem witness_LatchResults : let s := object start 256 (.latch (aLatch false 0xFFFF))
    RecordAt s (s.xr 2) 256 ∧ HomeAnswers s 256 ∧ ¬HomeAnswers (slowly s) 256 ∧
      s.latch 256 = some ({ num := 3, tag := 1, body := .latch (aLatch false 0xFFFF) }, aLatch false 0xFFFF) ∧
      (aLatch false 0xFFFF).held = false ∧ (aLatch false 0xFFFF).queue = [] ∧ s.h.holds.length < 8 :=
  ⟨recordAt _ _ rfl (by decide +kernel) (by decide +kernel), homeAnswers (by decide +kernel), homeSilent (by decide +kernel), by decide +kernel⟩

theorem witness_LatchResults_rel : let s := (object start 256 (.latch (aLatch true 1))).setH (fun h => { h with holds := [⟨256, 3, 9⟩] })
    RecordAt s (s.xr 2) 256 ∧ HomeAnswers s 256 ∧ ¬HomeAnswers (slowly s) 256 ∧
      s.latch 256 = some ({ num := 3, tag := 1, body := .latch (aLatch true 1) }, aLatch true 1) ∧
      s.h.holds.find? (fun y => y.rcd == 256) = some ⟨256, 3, 9⟩ ∧ (aLatch true 1).hold.toNat = 9 ∧ (aLatch true 1).held = true ∧
      (aLatch true 1).queue = [] :=
  ⟨recordAt _ _ rfl (by decide +kernel) (by decide +kernel), homeAnswers (by decide +kernel), homeSilent (by decide +kernel), by decide +kernel⟩

theorem witness_LatchResults_mend : let s := object start 256 (.latch (aLatch true 7))
    RecordAt s (s.xr 2) 256 ∧ Prompt s ∧ s.latch 256 = some ({ num := 3, tag := 1, body := .latch (aLatch true 7) }, aLatch true 7) ∧
      bits (s.xr 6).toNat 32 32 = (aLatch true 7).hold.toNat ∧ (aLatch true 7).held = true ∧ (aLatch true 7).holder ≠ s.h.hid ∧
      s.h.holds.length < 8 :=
  ⟨recordAt _ _ rfl (by decide +kernel) (by decide +kernel), fun _ => rfl, by decide +kernel⟩

theorem witness_LatchResults_rest : let s := object start 256 (.latch (aLatch true 7))
    HomeAnswers s 256 ∧ (aLatch true 7).held = true ∧ s.deadline 0 0 ≤ s.gtb ∧ s.gtb < s.deadline 4 0 ∧
      s.h.holds.find? (fun y => y.rcd == 256) = none ∧ bits (s.xr 4).toNat 32 32 ≠ (aLatch true 7).hold.toNat ∧
      (3 : Nat) ≠ (⟨256, 2, 9⟩ : Holding).obj ∧ (aLatch true 1).hold.toNat ≠ (⟨256, 3, 8⟩ : Holding).num :=
  ⟨homeAnswers (by decide +kernel), by decide +kernel⟩

theorem witness_ChannelResults : let s := object start 256 (.chan aChan)
    RecordAt s (s.xr 2) 256 ∧ s.chan 256 = some ({ num := 3, tag := 1, body := .chan aChan }, aChan) ∧ window (s.xr 5) ≠ 1 ∧
      (s.accessRun s.h.actor .load (s.xr 5) (aChan.sz / 64)).2 = .ok [near 0x400000] ∧
      (let r := s.accessRun s.h.actor .store (s.xr 5) (aChan.sz / 64)
       r.2 = .ok [near 0x400000] ∧ (r.1.ownedWait .store (near 0x400000)).2 = .ok (near 0x400000)) ∧
      s.deadline 0 0 ≤ s.gtb ∧ s.gtb < s.deadline 4 0 :=
  ⟨recordAt _ _ rfl (by decide +kernel) (by decide +kernel), by decide +kernel⟩

theorem witness_ChannelResults_bank : let w := { aChan with tail := 1 }
    let s := object start 256 (.chan aChan)
    Bound s ∧ HomeAnswers s 256 ∧ aChan.pkind = 0 ∧ aChan.senders = [] ∧ aChan.receivers = [] ∧ (aChan.tail - aChan.head).toNat < aChan.nslot ∧
      w.head ≠ w.tail ∧ window (0xF000000000000000#64) = 1 :=
  ⟨boundOf (by decide +kernel), homeAnswers (by decide +kernel), by decide⟩

theorem witness_LeaseResults : let s := start.setTenant 1 (fun t => { t with cpyq := 1, cmpq := 1, colq := 1 })
    leaseReqOk (s.xr 2) = true ∧ s.belowQuota 1 0 = true ∧ s.pickEngine 0 0 0 = some 0 ∧ s.belowQuota 1 1 = true ∧
      s.pickEngine 0 1 0 = some 64 ∧ s.belowQuota 1 2 = true ∧ s.pickEngine 0 2 0 = some 80 ∧ s.nextLease 0 = none ∧ s.nextLease 64 = none ∧ s.nextLease 80 = none ∧
      ({ start with engines := [(3, anEngine [])] } : State).leaseOf 1 (word (2 ^ 48 + 3 * 2 ^ 40)) = some 3 ∧
      start.leaseOf 1 (word (2 ^ 48 + 3 * 2 ^ 40)) = none := by decide +kernel

theorem witness_LeaseResults_late : let s := { start with engines := [(3, anEngine [])], dies := [(engineDie 3, { Die.reset with late := 1 })] }
    s.leaseOf 1 (word (2 ^ 48 + 3 * 2 ^ 40)) = some 3 ∧ (s.die (engineDie 3)).late ≠ 0 ∧ (start.die (engineDie 3)).late = 0 ∧
      (start.die 12).late = 0 ∧ (({ start with dies := [(12, { Die.reset with late := 1 })] } : State).die 12).late ≠ 0 := by decide +kernel

/-- A copy record at 0x40_0100. -/
def copyRecord : List Byte :=
  leBytes 8 (2 ^ 48 + 3 * 2 ^ 40) ++ leBytes 8 0x400000 ++ leBytes 8 0x400040 ++ leBytes 8 64 ++ List.replicate 32 0

def copying : State :=
  ({ start with engines := [(3, anEngine [])], h := { start.h with x := [(2, 0x400100)] } } : State).store 0x400100 copyRecord false

/-- The state after the checks of a command record and its read. -/
def recordRead (s : State) (a : BitVec 5) (pl : Place) : State :=
  (let r := (s.access s.h.actor .load (s.xr a) 64 64).1; (r.readAt r.h.actor pl 64)).1

/-- The command that a record makes, with the state in which it is made. -/
def recordCommand (s : State) (kind : Nat) (a : BitVec 5) (bs : List Byte) : State × Cmd :=
  s.withLines (cmdOf s.h kind bs (min (dword bs 5) (s.gtb + s.h.maxwait.toNat))) (s.xr a)

theorem issues_of (s : State) (kind e v : Nat) (a : BitVec 5) (pl : Place) (bs : List Byte)
    (h1 : (s.access s.h.actor .load (s.xr a) 64 64).2 = .ok pl)
    (h2 : (let r := (s.access s.h.actor .load (s.xr a) 64 64).1; (r.readAt r.h.actor pl 64).2) = (v, false)) (h3 : bs = leBytes 64 v)
    (h4 : (recordRead s a pl).leaseOf (recordRead s a pl).h.tid (word (dword bs 0)) = some e)
    (h5 : let p := recordCommand (recordRead s a pl) kind a bs
      p.1.cmdReason e p.2 bs = 0 ∧ p.1.drainUser p.2 = none ∧ (p.1.engine e).queue.length < 4 ∧ (p.1.engine e).pend = [] ∧
        p.1.slowest p.2.homes = none)
    (h6 : (recordRead s a pl).gatherProxy (cmdOf (recordRead s a pl).h kind bs (min (dword bs 5)
      ((recordRead s a pl).gtb + (recordRead s a pl).h.maxwait.toNat))) = none) :
    Issues s kind a (recordCommand (recordRead s a pl) kind a bs).1 e (recordCommand (recordRead s a pl) kind a bs).2 bs :=
  ⟨_, _, pl, v, Prod.ext rfl h1, Prod.ext rfl h2, h3, h4, rfl, (by intro _ _ _ h; cases h6.symm.trans h), h5⟩

theorem witness_CommandIssue : ∃ u c, Issues copying 0 2 u 3 c copyRecord :=
  ⟨_, _, issues_of copying 0 3 (leNat copyRecord) 2 (near 0x400100) copyRecord (by decide +kernel) (by decide +kernel) (by decide +kernel)
    (by decide +kernel) (by decide +kernel) (by decide +kernel)⟩

/-- A proxy whose home bank has told the highest rank, and a gather through it. -/
def told : Swarm := { aSwarm [] [] with remote := word (9 * 2 ^ 48 + 12), topAt := 5 }
def asking : State := (object start 256 (.swarm told)).setH (fun h => { h with iw := some ⟨3, told.homeParty, 0⟩ })
def gathering : Cmd := { aCmd 4 false with op := 4, aux := 0xD000000000000100#64 }

theorem witness_CommandIssue_gather : asking.gatherProxy gathering = some (256, { num := 3, tag := 1, body := .swarm told }, told) ∧
    TopKnown asking gathering := by
  have h : asking.gatherProxy gathering = some (256, { num := 3, tag := 1, body := .swarm told }, told) := by decide +kernel
  refine ⟨h, fun _ _ _ h2 => ?_⟩
  cases h.symm.trans h2
  exact ⟨⟨3, told.homeParty, 0⟩, rfl, rfl, by decide⟩

theorem witness_CommandIssue_wait : let s := { start with engines := [(3, anEngine [aCmd 0 true])], h := { start.h with x := [(2, word (3 * 2 ^ 48 + 7 * 2 ^ 16)), (4, 100)] } }
    (start.cmdStatus 1 (word (3 * 2 ^ 48))).toNat % 256 ≠ 17 ∧ (s.cmdStatus 1 (s.xr 2)).toNat % 256 = 17 ∧ s.gtb < s.deadline 4 0 := by
  decide +kernel

theorem witness_CommandIssue_late : let s := { start with
      engines := [(3, { anEngine [] with stats := [{ seq := 7, tid := 1, word := statusWord 1 0xFFF 0 0 }] })],
      dies := [(engineDie 3, { Die.reset with late := 1 })], h := { start.h with x := [(2, word (3 * 2 ^ 48 + 7 * 2 ^ 16))] } }
    (s.cmdStatus 1 (s.xr 2)).toNat % 256 = 0 ∧ (s.die (engineDie (bits (s.xr 2).toNat 48 8))).late ≠ 0 ∧
      (start.die (engineDie (bits (s.xr 2).toNat 48 8))).late = 0 := by
  decide +kernel

/-- A tile of the hart's core. -/
def withTile (t : Tile) : State := start.setCore 0 (fun c => { c with tiles := [(2, t)] })

theorem witness_TileResults : ((withTile ⟨1, 0xFF, 0⟩).tile 0 2).tag = 1 ∧ ((withTile ⟨1, 0xFF, 0⟩).tile 0 2).st ≠ 1 ∧
    ((withTile ⟨1, 0xFF, 0⟩).tile 0 2).st = 0 ∧ ((withTile ⟨1, 0xFF, 2⟩).tile 0 2).st = 2 ∧ ((withTile ⟨1, 0xFF, 3⟩).tile 0 2).st ≠ 0 ∧
    (start.tile 0 2).tag ≠ start.h.tid := by decide +kernel

theorem witness_TileResults_used : (withTile ⟨1, 0xFF, 0⟩).tileUser 0 2 = none ∧
    ((withTile ⟨1, 0xFF, 2⟩).setH (fun h => { h with conv := [(0x400000#64, 0xDE004800#32)] })).tileUser 0 2 = some 1 := by decide +kernel

/-- A descriptor at 0x40_0100 of an OPN region of 128 bytes. -/
def descriptor : List Byte := leBytes 8 (5 * 2 ^ 60 + 0x10000) ++ leBytes 8 128 ++ List.replicate 48 0

def describing : State :=
  ((start.setTenant 1 (fun t => { t with combq := 1024 })).setH (fun h => { h with x := [(2, 0x400100)] })).store 0x400100 descriptor false

theorem witness_RegionResults : let r := describing.access describing.h.actor .load (describing.xr 2) 64 64
    r.2 = .ok (near 0x400100) ∧
    (let u := r.1.readAt r.1.h.actor (near 0x400100) 64
     u.2 = (leNat descriptor, false) ∧ leBytes 64 (leNat descriptor) = descriptor ∧
       (regionTests u.1 descriptor (regionOfBytes u.1.h.tid descriptor)).find? (fun x => x.1) = none) ∧
    start.region (start.xr 2).toNat = some (region 5 0) ∧ combOffset 0xD00000000000FFFF#64 = some 0xFFFF ∧
    start.regionOf 1 0xFFFF = some (0, region 5 0) := by decide +kernel

/-- The first test that a descriptor fails. -/
def failing (s : State) (bs : List Byte) : Option Nat := ((regionTests s bs (regionOfBytes s.h.tid bs)).find? (fun x => x.1)).map Prod.snd

theorem witness_RegionResults_refused : failing describing (leBytes 8 (5 * 2 ^ 60 + 0x10000) ++ leBytes 8 128 ++ List.replicate 48 1) = some 1 ∧
    failing describing (leBytes 8 (5 * 2 ^ 60) ++ leBytes 8 128 ++ List.replicate 48 0) = some 2 ∧ failing start descriptor = some 3 ∧
    start.region 5 = none ∧ ({ start with regions := [(0, some { region 5 0 with tag := 2 })] } : State).region 0 = some { region 5 0 with tag := 2 } ∧
    combOffset 0xD000000000010000#64 = some 0x10000 ∧ start.regionOf 1 0x10000 = none ∧ combOffset 0x400000#64 = none := by decide +kernel

theorem witness_RegionResults_free : let s := start.setDie 0 (fun d => { d with late := 1 })
    start.slowest (region 5 0).dies = none ∧ s.region (s.xr 2).toNat = some (region 5 0) ∧ (s.xr 2).toNat < 4096 ∧
      s.slowest (region 5 0).dies = some 0 := by decide +kernel

theorem witness_Lane : (typed 0 3).h.issueOk (need3 intType 1 2 3 (typed 0 3).h) = true ∧
    (vset (fun x => { x with vtype := VType.ill })).h.issueOk (need3 intType 1 2 3 (vset (fun x => { x with vtype := VType.ill })).h) = false ∧
    start.h.votes = [] ∧ aBlock.arithTrap [(0, { val := 1, bad := false, fl := 0 })] = none ∧
    ({ aBlock with fen := 0x1F } : Block).arithTrap [(0, { val := 0, bad := false, fl := flDZ })] = some (cFPE, word flDZ) ∧
    ({ aBlock with qcfg := 0x100 } : Block).arithTrap [(3, { val := qND, bad := false, fl := flQN })] = some (cQN, 3) := by decide +kernel

/-- The tables that the statements about vector words range over have a row for each form. -/
theorem witness_tables : [(xopTable 1 2 3 0 0).length, (immTable 1 2 0 0 0).length, (branchTable 1 2 0 0 0).length, (loadTable 1 2 0).length,
    (storeTable 1 2 0).length, (fopTable 1 2 3 0 fp32 0 0 0 0).length, (amoTable 1 2 3 0 0 0).length, (intTable start.h 1 2 3 4 5 6 0).length,
    (mergeTable start.h 1 2 3 4 5 1).length, (compareTable start.h 1 2 3 4 0).length, (maskTable start.h 1 2 3 4 0).length,
    (bitTable start.h 1 2 3 4 5 0).length, (permuteTable start.h 1 2 3 4 5 6 0).length, (reduceTable start.h 1 2 3 4 0).length,
    (scanTable start.h 1 2 3 4 0).length, (floatTable start.h 1 2 3 4 0).length, (fcmpTable start.h 1 2 3 4 0).length,
    (convertTable start.h 1 2 3 4 0 3 0).length, (fsumTable start.h 1 2 3 4 0).length, (ratTable start.h 1 2 3 4 5 0).length,
    (ratEqTable start.h 1 2 3 4 0).length] = [22, 10, 6, 7, 4, 15, 14, 35, 3, 10, 10, 10, 11, 9, 6, 23, 9, 5, 4, 20, 2] := rfl

theorem witness_VectorInteger : (vector id).h.issueOk (need3 mulType 1 2 3 (vector id).h) = true ∧ (vector id).h.votes = [] ∧
    (vector id).h.run.bind (fun b => b.arithTrap [(0, { val := 0, bad := false, fl := flIS })]) = none := by decide +kernel

theorem witness_VectorMasks : (vector id).h.issueOk (needM2 intType 1 2 3 (vector id).h) = true ∧
    (vector id).h.issueOk (needM 7 (vector id).h) = true := by decide +kernel

theorem witness_VectorPermutes : (vector id).h.issueOk (need2d anyType 1 2 (vector id).h) = true ∧
    (vector id).h.issueOk (needRed intType 1 2 3 (vector id).h) = true ∧ (vector id).h.issueOk (needScan 1 2 3 (vector id).h) = true := by
  decide +kernel

theorem witness_VectorWrites : let h := (vector id).h
    let l : List (Nat × ERes) := [(0, { val := 5, bad := false, fl := 0 }), (255, { val := 0, bad := true, fl := 0 })]
    0 < 64 ∧ 0 < h.maxvl 64 ∧ 31 + 1 ≤ nrOf h.nrc ∧ (l.map Prod.fst).Nodup ∧ (∀ x ∈ l, x.1 < 1 * h.maxvl 64) ∧
      (0 : Nat) ≠ 7 ∧ (∀ x ∈ l, x.1 ≠ 1) := by decide +kernel

theorem witness_VectorFloat : (typed 1 3).h.issueOk (need3 floatType 1 2 3 (typed 1 3).h) = true ∧
    (typed 1 3).h.issueOk (needM2 floatType 1 2 3 (typed 1 3).h) = true ∧ (typed 1 3).h.issueOk (needRed floatType 1 2 3 (typed 1 3).h) = true ∧
    (typed 1 3).h.issueOk (needCvt 1 2 1 2 false false (typed 1 3).h) = true ∧
    (typed 1 3).h.issueOk (Need.of (fun y _ => y != 4) [(1, (typed 1 3).h.grp)] (.regs 1 (typed 1 3).h.grp)) = true := by decide +kernel

theorem witness_VectorRational : (typed 4 3).h.issueOk (need3 qType 1 2 3 (typed 4 3).h) = true ∧
    (typed 4 3).h.issueOk (needM2 qType 1 2 3 (typed 4 3).h) = true ∧
    (typed 4 3).h.issueOk (Need.of qType [(2, 2 * (typed 4 3).h.grp), (1, (typed 4 3).h.grp)] (.regs 2 (2 * (typed 4 3).h.grp))) = true := by
  decide +kernel

theorem witness_VectorGathers : (vector id).h.votes = [] ∧ (vector id).h.issueOk (needCode 2 (vector id).h) = true ∧
    (vector id).h.issueOk (needNone (vector id).h) = true ∧ ((vector id).h.opV 2 0).2 = false ∧
    ((vset (fun x => { x with vp := [(2, 1)] })).h.opV 2 0).2 = true := by decide +kernel

theorem witness_VectorMoves : (vector id).h.issueOk (needVpclr 1 (vector id).h) = true ∧ (vector id).h.issueOk (needVpmask 1 2 (vector id).h) = true ∧
    (vector id).h.issueOk (needVid 31 (vector id).h) = true ∧ (vector id).h.issueOk (needVmvR 8 16 8 (vector id).h) = true := by decide +kernel

theorem witness_SequencerResults : (∃ e ∈ vcfgTable start, 0x074 = e.1) ∧ ∀ e ∈ vcfgTable start, (0x004 : Nat) ≠ e.1 := by
  constructor
  · exact ⟨(0x074, start.h.vx.rngc), by simp [vcfgTable], rfl⟩
  · decide +kernel

/-- A block with a `vlend` of loop 0 four words after its first. -/
def looping (l : List Loop) : State :=
  (vector (fun h => { h with vx := { h.vx with loops := l, sc := [(3, 2), (16, 0)] } })).store 0x400010 (wordBytes 0x86006008#32) false

/-- A loop from the second word of the block to the fifth. -/
def aLoop (lim : Nat) : Loop := { ctr := 0, stages := 0, count := lim, lim := lim, top := 0x400004#64, fin := 0x400010#64 }

theorem witness_LoopResults : let s := looping []
    s.h.vx.loop 0 = none ∧ s.h.inBlock (s.h.vaddr + 4 * (4 : BitVec 10).zeroExtend 64) = true ∧
      (s.fetch s.h.actor (s.h.vaddr + 4 * (4 : BitVec 10).zeroExtend 64)).2 = .word 0x86006008#32 ∧ isVlend 0x86006008#32 0 = true ∧
      s.h.vx.rotating = none ∧ (s.h.code 3).toNat ≠ 0 ∧ (s.h.code 4).toNat = 0 := by decide +kernel

theorem witness_LoopResults_end : let at_ := fun l => (looping [l]).setH (fun h => { h with conv := [(0x400010#64, 0)] })
    (at_ (aLoop 1)).h.vx.loop 0 = some (aLoop 1) ∧ (at_ (aLoop 1)).h.vaddr = (aLoop 1).fin ∧
      (at_ (aLoop 1)).h.vaddr - 4 * (3 : BitVec 10).zeroExtend 64 = (aLoop 1).top ∧
      (aLoop 1).lim ≤ ((at_ (aLoop 1)).h.code 16 + 1).toNat ∧ ((at_ (aLoop 2)).h.code 16 + 1).toNat < (aLoop 2).lim ∧
      (at_ (aLoop 1)).h.actives 0 ≠ [] ∧ (at_ (aLoop 1)).h.actives 1 = [] := by decide +kernel

theorem witness_LoopResults_beyond : let s := (looping []).setH (fun h => { h with conv := [(0x400004#64, 0)] })
    s.h.inBlock (s.h.vaddr + 4 * (1023 : BitVec 10).zeroExtend 64) = false ∧ s.h.vx.loop 0 = none ∧
    (looping []).h.vx.loop 0 = none ∧ (looping [aLoop 2]).h.vx.loop 0 ≠ none := by decide +kernel

theorem witness_BlockEnd : (vector id).h.run = some aBlock ∧ (vector id).h.live = true ∧ (vector id).h.wait = none ∧
    ((vector id).core (vector id).h.core).recheck = [] ∧ (vector id).h.replies.length < 16 ∧ (vector id).h.vx.loops = [] ∧
    16 ≤ (vector (fun h => { h with replies := List.replicate 16 (7, none) })).h.replies.length ∧ (looping [aLoop 2]).h.vx.loops ≠ [] := by
  decide +kernel

theorem witness_VectorTraps : let s := vector (fun h => { h with stop := some aStop, mode := .a })
    let t := start.setH (fun h => { h with begun := some ⟨3, 0, .child 5 256⟩ })
    s.h.stop = some aStop ∧ s.h.mode = .a ∧ s.h.wait = none ∧ s.h.iw = none ∧ s.h.held = none ∧ s.h.slot ≠ none ∧ s.h.halt = none ∧
      s.h.pagePend = [] ∧ (s.core s.h.core).recheck = [] ∧ (s.setH (fun h => h.pageMet aStop.cause aStop.tval)).handlerOk aStop.cause = true ∧
      ¬(aStop.cause = cPAGE ∧ bit s.hub.split 0 = true) ∧ s.h.begun = none ∧ t.h.mode ≠ .a ∧ t.h.begun = some ⟨3, 0, .child 5 256⟩ := by
  decide +kernel

/-- A core with a weight slot and a tile. -/
def matrix (st fmt : Nat) (t : Tile) : State :=
  (typed 1 3).setCore 0 (fun c => { c with slots := [(1, { WSlot.reset with tag := 1, st := st, fmt := fmt })], tiles := [(2, t)] })

theorem witness_MatrixResults : (matrix 2 0 ⟨1, 0xFF, 2⟩).mmrowCheck 0 1 2 1 0 0 0 = .ok ∧
    ((matrix 2 0 ⟨1, 0xFF, 2⟩).core 0).rowFail = 0 ∧ (matrix 0 0 ⟨1, 0xFF, 2⟩).mwldCheck 0 2 1 = .ok ∧
    (matrix 2 0 ⟨1, 0xFF, 2⟩).mwclrCheck 0 1 = .ok ∧ (matrix 2 1 ⟨1, 0xFF, 2⟩).mmrowCheck 0 1 2 1 0 0 0 = .trap cILLOP 0 ∧
    (matrix 2 0 ⟨1, 0xFF, 2⟩).mwldCheck 0 3 1 = .trap cPROT (tilePointer 0 3) ∧
    (matrix 0 0 ⟨1, 0xFF, 1⟩).mwldCheck 0 2 1 = .wait (partyWord 2 2) ∧ (matrix 1 0 ⟨1, 0xFF, 2⟩).mwclrCheck 0 1 = .wait (partyWord 3 1) := by
  decide +kernel

theorem witness_VectorAddresses : let s := vset (fun x => { x with vp := [(5, 1)] })
    (s.h.idx (indexWalk s.h 0x400000#64 5 0 0) 0).2 = true := by decide +kernel

/-- A vector access from an address in a scalar-side register. -/
def accessing (b : Word) : State := vset (fun x => { x with sc := [(8, b)] })

theorem witness_VectorLoads : let s := accessing 0x400000#64
    let run := State.runElems (fun z j => z.loadElem (unitWalk z.h 0x400000#64 0) 2 j) (s.h.elAddr (unitWalk s.h 0x400000#64 0)) 0 (s.h.fromCut 0) s
    MemReady s (needLoad anyType 2 s.h) 0 none ∧ run.2 = .all := ⟨⟨by decide +kernel, by decide, by decide, by decide +kernel, by decide +kernel⟩, by decide +kernel⟩

theorem witness_VectorLoads_one : let s := vset (fun x => { x with vl := 1, sc := [(8, 0x400000)] })
    let w := unitWalk s.h 0x400000#64 0
    s.h.fromCut 0 = [0] ∧ 8 ≤ s.h.sew ∧ (s.h.idx w 0).2 = false ∧ (s.elemChecks .load w 0).2 = .ok [near 0x400000] ∧
      (s.elemChecks .store w 0).2 = .ok [near 0x400000] ∧ (vset (fun x => { x with vl := 0 })).h.fromCut 0 = [] := by decide +kernel

theorem witness_VectorLoads_trap : let s := accessing 0x40FFF0#64
    let w := unitWalk s.h 0x40FFF0#64 0
    (State.runElems (fun z j => z.loadElem w 2 j) (s.h.elAddr w) 0 (s.h.fromCut 0) s).2 = .trap 2 cPROT 0x410000#64 := by decide +kernel

theorem witness_VectorLoads_wait : let s := { accessing 0x400040#64 with engines := [(3, anEngine [aCmd 0 true])] }
    let w := unitWalk s.h 0x400040#64 0
    (State.runElems (fun z j => z.loadElem w 2 j) (s.h.elAddr w) 0 (s.h.fromCut 0) s).2 = .wait 0 (partyWord 0 3) := by decide +kernel

theorem witness_VectorStores : let s := accessing 0x400000#64
    let w := unitWalk s.h 0x400000#64 0
    MemReady s (needStore anyType 2 s.h) 0 none ∧
      (State.runElems (fun z j => z.storeElem w 2 j) (s.h.elAddr w) 0 (s.h.fromCut 0) s).2 = .all ∧
      (s.h.idx w 3).2 = false ∧ (s.elemChecks .store w 3).2 = .ok [near 0x400018] ∧ (near 0x400018).reg = none ∧
      (s.elemChecks .store w 3).1.hasKey s.h.tid = true ∧
      8 ≤ s.h.sew ∧ (let t := vset (fun x => { x with vtype := { vill := false, g := 0, ty := 0, sw := 4 } })
        t.h.sew < 8 ∧ t.h.elShift (unitWalk t.h 0x400000#64 0) 3 + t.h.sew ≤ 8) :=
  ⟨⟨by decide +kernel, by decide, by decide, by decide +kernel, by decide +kernel⟩, by decide +kernel⟩

theorem witness_VectorStores_stop : let s := { accessing 0x40FFF0#64 with engines := [(3, anEngine [aCmd 0 true])] }
    let w := unitWalk s.h 0x40FFF0#64 0
    let v := unitWalk s.h 0x400038#64 0
    (State.runElems (fun z j => z.storeElem w 2 j) (s.h.elAddr w) 0 (s.h.fromCut 0) s).2 = .trap 2 cPROT 0x410000#64 ∧
      (State.runElems (fun z j => z.storeElem v 2 j) (s.h.elAddr v) 0 (s.h.fromCut 0) s).2 = .wait 1 (partyWord 0 3) := by decide +kernel

/-- A block of a described format at 0x40_0000, read into or written from elements of a type, under enabled exceptions. -/
def described (ty : BitVec 3) (blk : Nat) (v : Nat) (fen : BitVec 5) : State :=
  (vector (fun h => { h with run := some { aBlock with fen := fen },
                             vx := { h.vx with vtype := { vill := false, g := 0, ty := ty, sw := 1 }, sc := [(8, 0x400000)], v := [(2, v)] } })).store
    0x400000 (leBytes 64 blk) false

theorem witness_DescribedBlocks : let s := described 1 0 0 0
    let g := (State.blocks (blkAddr 8 s.h) 0 0 5 0 0 s []).2
    MemReady s (needLoad describedType 2 s.h) 0 none ∧ s.h.run.bind (fun k => k.firstTrap g.res) = none ∧ g.fin = .all ∧
      s.h.cut = 0 ∧ dFmt 7 = some ⟨16, 31, 1, 1⟩ ∧
      (s.blkChecks (s.h.code 8) ⟨16, 31, 1, 1⟩ 0 (List.range ((s.h.vx.vl + 30) / 31))).2 = ([⟨near 0x400000, 0, 0, 512⟩], .all, 0) ∧
      s.h.run.bind (fun k => k.firstTrap ((List.range s.h.vx.vl).map (fun e => (e, s.h.describe ⟨16, 31, 1, 1⟩ 2 e)))) = none :=
  ⟨⟨by decide +kernel, by decide, by decide, by decide +kernel, by decide +kernel⟩, by decide +kernel⟩

theorem witness_DescribedBlocks_one : let s := described 1 0 0 0
    let r := s.access s.h.actor .load (s.h.code 8) 64 64
    s.h.cut = 0 ∧ 0 < s.h.vx.vl ∧ blkAddr 8 s.h 0 = some (s.h.code 8) ∧ r.2 = .ok (near 0x400000) ∧
      s.h.vx.vl ≤ (r.1.readBlk (near 0x400000)).2.fmt.count ∧ s.h.vx.vl ≤ (⟨16, 31, 1, 1⟩ : DFmt).count ∧
      s.h.run.bind (fun y => y.firstTrap ((s.h.actives 0).map (fun j => (j, s.h.blkResult (r.1.readBlk (near 0x400000)).2 j)))) = none ∧
      (s.access s.h.actor .store (s.h.code 8) 64 64).2 = .ok (near 0x400000) ∧ (vset (fun x => { x with vl := 0 })).h.vx.vl = 0 := by
  decide +kernel

theorem witness_DescribedBlocks_traps : let s := described 1 0x7F000006 0 0x1F
    let g := (State.blocks (blkAddr 8 s.h) 0 0 5 0 0 s []).2
    let t := described 2 0 0x7F00 0x1F
    s.h.run.bind (fun k => k.firstTrap g.res) ≠ none ∧
      t.h.run.bind (fun k => k.firstTrap ((List.range t.h.vx.vl).map (fun e => (e, t.h.describe ⟨16, 31, 1, 1⟩ 2 e)))) ≠ none := by
  decide +kernel

/-- A header of a compress-and-append at the Comb offset 64: DATA 0x40_0000, a capacity and a fill. -/
def appending (cap t : Nat) (bad : Bool) : State :=
  { (vset (fun x => { x with sc := [(8, 0xD000000000000040)] })).store (locComb 64)
      (leBytes 8 0x400000 ++ leBytes 8 cap ++ leBytes 8 t ++ leBytes 8 0) bad with regions := [(0, some (region 5 7))] }

theorem witness_AppendResults : let s := appending 3 0 false
    MemReady s (needStore byteType 2 s.h) 0 none ∧ s.h.app = none ∧ s.h.cut = 0 ∧
      s.appHeader (s.h.code 8) = (s, .ok ⟨locComb 64, some 0, none⟩) ∧
      (s.readAt s.h.actor ⟨locComb 64, some 0, none⟩ 32).2.2 = false ∧
      (let x := (s.readAt s.h.actor ⟨locComb 64, some 0, none⟩ 32).2.1
       bits x 96 32 = 0 ∧ bits x 160 96 = 0 ∧ bits x 128 32 ≤ bits x 64 32 ∧ bits x 64 32 = 3) ∧
      (let z := appending 3 3 false
       let g := min (z.h.actives 0).length (3 - 0)
       (State.runElems (fun y e => y.appElem 2 0 0x400000#64 0 e) (z.h.appAddr 0 0x400000#64 0) 0 ((z.h.actives 0).take g) z).2 = .all) :=
  ⟨⟨by decide +kernel, by decide, by decide, by decide +kernel, by decide +kernel⟩, by decide +kernel⟩

theorem witness_AppendResults_full : let pl : Place := ⟨locComb 64, some 0, none⟩
    let x := ((appending 3 3 false).readAt start.h.actor pl 32).2.1
    (bits x 96 32 = 0 ∧ bits x 160 96 = 0 ∧ bits x 128 32 ≤ bits x 64 32) ∧
      min ((appending 3 3 false).h.actives 0).length (bits x 64 32 - bits x 128 32) = 0 := by decide +kernel

theorem witness_AppendResults_header : let pl : Place := ⟨locComb 64, some 0, none⟩
    ((appending 3 0 true).readAt start.h.actor pl 32).2.2 = true ∧ ((appending 3 4 false).readAt start.h.actor pl 32).2.2 = false ∧
      (let x := ((appending 3 4 false).readAt start.h.actor pl 32).2.1
       ¬(bits x 96 32 = 0 ∧ bits x 160 96 = 0 ∧ bits x 128 32 ≤ bits x 64 32)) := by decide +kernel

/-- Operations at the banks from a base, in an ATM region of 64-bit integers. -/
def banking (b : Word) : State := { vset (fun x => { x with sc := [(8, b)] }) with regions := [(0, some (region 4 2))] }

theorem witness_BankOperations : let s := banking 0xD000000000000100#64
    let w := unitWalk s.h 0xD000000000000100#64 0
    MemReady s (needVbop .add 2 0 0 s.h) 0 none ∧ window (0x400000#64) ≠ 3 ∧ window (0xD000000000000100#64) = 3 ∧
      (State.runElems (fun z j => z.bopElem .add w 2 j) (s.h.elAddr w) 0 (s.h.fromCut 0) s).2 = .all ∧
      (let v := unitWalk s.h 0xD00000000000FFF0#64 0
       (State.runElems (fun z j => z.bopElem .add v 2 j) (s.h.elAddr v) 0 (s.h.fromCut 0) s).2 = .trap 2 cPROT 0xD000000000010000#64) ∧
      (s.readAt s.h.actor ⟨locComb 256, some 0, none⟩ 8).2 = (0, false) ∧
      ((s.store (locComb 256) (leBytes 8 1) true).readAt s.h.actor ⟨locComb 256, some 0, none⟩ 8).2 = (1, true) :=
  ⟨⟨by decide +kernel, by decide, by decide, by decide +kernel, by decide +kernel⟩, by decide +kernel⟩

theorem witness_BankOperations_one : let s := (banking 0xD000000000000100#64).setH (fun h => { h with vx := { h.vx with vl := 1 } })
    let w := unitWalk s.h 0xD000000000000100#64 0
    let pl : Place := ⟨locComb 256, some 0, none⟩
    s.h.fromCut 0 = [0] ∧ (s.h.idx w 0).2 = false ∧ (s.bopChecks .add (s.h.elAddr w 0) 8).2 = .ok [pl] ∧
      (((s.bopChecks .add (s.h.elAddr w 0) 8).1.amoNote .add pl 8).readAt s.h.actor pl 8).2 = (0, false) := by decide +kernel

/-- The same for 32-bit floats, where the sum of the two infinities is invalid, with the exception enabled. -/
def bankingFloat (fen : BitVec 5) : State :=
  { (vector (fun h => { h with run := some { aBlock with fen := fen },
                               vx := { h.vx with vl := 1, vtype := { vill := false, g := 0, ty := 1, sw := 2 },
                                                 sc := [(8, 0xD000000000000100)], v := [(2, 0xFF800000)] } })).store
      (locComb 256) (leBytes 4 0x7F800000) false with regions := [(0, some (region 4 4))] }

/-- Its elements at the banks. -/
def bankedFloat (fen : BitVec 5) : State × VEnd :=
  let s := (bankingFloat fen).setH (fun h => h.setRaised 0)
  let w := unitWalk s.h 0xD000000000000100#64 0
  State.runElems (fun z j => z.bopElem .fadd w 2 j) (s.h.elAddr w) 0 (s.h.fromCut 0) s

theorem witness_BankOperations_fadd : (bankedFloat 0).2 = .all ∧
    (bankingFloat 0).h.run.any (fun k => flTraps k.fen (bankedFloat 0).1.h.raised) = false ∧
    (bankingFloat 31).h.run.any (fun k => flTraps k.fen (bankedFloat 31).1.h.raised) = true := by decide +kernel

theorem witness_RoundTrip : encode (.add 3 4 5) = some 0x04642800#32 ∧ wellFormed (.add 3 4 5) = true := by decide +kernel

theorem witness_StepRuns : let s := State.reset.placeScalar 0x04642800#32
    s.plan = [{ dt := 0, who := .forager 1 }] ∧ s.h.live = true ∧ s.h.hid = 1 ∧ s.h.slot ≠ none ∧ s.h.wait = none ∧ s.h.halt = none ∧
      s.h.iw = none ∧ s.h.begun = none ∧ s.h.pagePend = [] ∧ s.h.trapWaits = false ∧ s.breakpoints 0 s.h.pc = [] ∧
      (({ s with plan := [] } : State).idle.fetch s.h.actor s.h.pc).2 = .word 0x04642800#32 ∧ wordFate false 0x04642800#32 = none ∧
      decode 0x04642800#32 = some (.add 3 4 5) := by decide +kernel

theorem witness_StepRuns_vector : let s := State.reset.placeVector 0xA61882A0#32
    s.plan = [{ dt := 0, who := .vector 1 }] ∧ s.h.live = true ∧ s.h.hid = 1 ∧ s.h.slot ≠ none ∧ s.h.released = false ∧ s.h.stop = none ∧
      s.h.halt = none ∧ s.h.run.isSome = true ∧ s.h.conv = [(0x400000#64, 0xA61882A0#32)] ∧
      isMemory 0x8A404020#32 = true ∧ s.breakpoints 2 s.h.vaddr = [] ∧ decode 0xA61882A0#32 = some (.vaddVv 1 3 4 5 2) := by decide +kernel

theorem witness_StepRuns_rest : encode .coldStart = none ∧ encode (.sub 3 4 5) = some 0x04642801#32 ∧ State.reset.plan = [] ∧
    State.reset.hub.phase = 0 ∧ start.plan = [] ∧ start.hub.phase ≠ 0 ∧ start.turn = 0 ∧ ({ start with turn := 3 } : State).dueEvent = none := by
  decide +kernel

theorem witness_StepRuns_test : let s : State := { start with engines := [(3, { anEngine [] with endAt := 0 })] }
    testsDeadline (.napExpiry 1) = true ∧ testsDeadline .coldStart = false ∧ start.dueFirst = none ∧ s.dueFirst = some (.leaseExpiry 3) ∧
      (let later : Move := { dt := 1, who := .forager 1 }
     let test : Move := { dt := 0, who := .event (.napExpiry 1) }
     let other : Move := { dt := 0, who := .vector 1 }
     (∀ m ∈ (thisTick [test, later]).1, m.isTest = true) ∧ (thisTick [test, later]).2 ≠ [] ∧ (thisTick [test]).2 = [] ∧
       (thisTick [test, other]).1.find? (fun m => !m.isTest) = some other ∧ later.dt ≠ 0) ∧
    start.dueEvent = none ∧ s.dueEvent = some (.leaseExpiry 3) := by decide +kernel

theorem witness_StepRuns_quiet : Quiet start := ⟨rfl, rfl, rfl, by decide +kernel, by decide +kernel, by intro e h; cases h⟩

theorem witness_StepMemory : start.memWf = true ∧ ∃ t, step State.reset = .next t := ⟨by decide +kernel, _, rfl⟩

/-- The hart in hand in an explicit wait whose deadline is at 5, at a time. -/
def waiting (k : WaitKind) (time : Nat) : State :=
  { hart (fun h => { h with wait := some { kind := k, dst := 3, dead := 5, issued := 0, ans := none } }) with gtb := time }

/-- The wait of those states. -/
def aWait (k : WaitKind) : Wait := { kind := k, dst := 3, dead := 5, issued := 0, ans := none }

/-- A hart that waits, whose outcome no die has decided, and whose deciding die answers. -/
theorem waitsAt (s : State) (k : WaitKind) (h : s.hart 1 = some s.h) (hl : s.h.live = true) (hw : s.h.wait = some (aWait k))
    (hs : s.slow = []) (hd : s.dies = []) : WaitsIn s 1 s.h (aWait k) ∧ Undecided s 1 (aWait k) ∧ AnswersNow s (aWait k) := by
  refine ⟨⟨h, hl, hw, rfl⟩, ?_, fun d _ => ?_⟩
  · unfold Undecided
    rw [hs]
    exact fun _ h => nomatch h
  · unfold State.die
    rw [hd]
    rfl

theorem waitsIn (k : WaitKind) (time : Nat) :
    let s := waiting k time
    WaitsIn s 1 s.h (aWait k) ∧ Undecided s 1 (aWait k) ∧ AnswersNow s (aWait k) := waitsAt _ k rfl rfl rfl rfl rfl

theorem witness_WaitExpiries : let s := waiting .nap 5
    (WaitsIn s 1 s.h (aWait .nap) ∧ Undecided s 1 (aWait .nap) ∧ AnswersNow s (aWait .nap)) ∧ (aWait .nap).dead ≤ (waiting .nap 5).gtb ∧
    (waiting .nap 4).gtb < (aWait .nap).dead ∧ WaitKind.nap.isNap = true ∧ WaitKind.rqpop.isNap = false ∧ WaitKind.rqpop.isRqpop = true ∧
    (WaitKind.ewait 3 7).isEwait = true ∧ (WaitKind.vsync 4).isVsync = true ∧ (WaitKind.twait 2).isTwait = true := ⟨waitsIn _ _, by decide +kernel⟩

/-- The engine's die leaves requests unanswered, and, in the second state, keeps an outcome that it has decided. -/
theorem witness_WaitExpiries_late : let k : WaitKind := .ewait 3 7
    let s : State := (waiting k 5).setDie (engineDie 3) (fun d => { d with late := 1 })
    k.isEwait = true ∧ k.decidedAt = some (engineDie 3) ∧ (s.die (engineDie 3)).late ≠ 0 ∧ Undecided s 1 (aWait k) ∧
      ¬Undecided { s with slow := [⟨engineDie 3, 1, 0, 0, 0, none⟩] } 1 (aWait k) := by
  refine ⟨by decide +kernel, by decide +kernel, by decide +kernel, (by intro _ h; cases h), fun h => ?_⟩
  exact h _ (List.mem_singleton.mpr rfl) rfl rfl

theorem witness_WaitExpiries_lease : let q : LeaseReq := { hid := 1, tid := 1, die := 0, kind := 0, req := 0, dead := 5 }
    let s : State := { waiting (.elease 0 0) 5 with leaseQ := [q] }
    (WaitsIn s 1 s.h (aWait (.elease 0 0)) ∧ Undecided s 1 (aWait (.elease 0 0)) ∧ AnswersNow s (aWait (.elease 0 0))) ∧
      s.leaseQ.find? (fun q => q.hid == 1 && decide (q.dead ≤ s.gtb)) = some q :=
  ⟨waitsAt _ _ rfl rfl rfl rfl rfl, by decide +kernel⟩

theorem witness_WaitExpiries_slot : let s := waiting (.slot 3) 5
    WaitsIn s 1 s.h (aWait (.slot 3)) ∧ Undecided s 1 (aWait (.slot 3)) ∧ AnswersNow s (aWait (.slot 3)) := waitsIn _ _

theorem witness_WaitExpiries_join : let w := aSwarm [aMember 0 9] [⟨1, 4, 5, 0⟩]
    let s : State := { waiting (.swjoin 256 4) 5 with objs := [(256, some { num := 3, tag := 1, body := .swarm w })] }
    (WaitsIn s 1 s.h (aWait (.swjoin 256 4)) ∧ Undecided s 1 (aWait (.swjoin 256 4)) ∧ AnswersNow s (aWait (.swjoin 256 4))) ∧
      s.dueJoin 1 = some (256, { num := 3, tag := 1, body := .swarm w }, w, ⟨1, 4, 5, 0⟩) ∧
      (⟨1, 4, 5, 0⟩ : Join).tick = (aWait (.swjoin 256 4)).issued :=
  ⟨waitsAt _ _ rfl rfl rfl rfl rfl, by decide +kernel⟩

theorem witness_WaitExpiries_acq : let w := { aLatch true 7 with queue := [(1, 5)] }
    let s : State := { waiting (.acq 256) 5 with objs := [(256, some { num := 3, tag := 1, body := .latch w })] }
    (WaitsIn s 1 s.h (aWait (.acq 256)) ∧ Undecided s 1 (aWait (.acq 256)) ∧ AnswersNow s (aWait (.acq 256))) ∧
      s.dueAcq 1 = some (256, { num := 3, tag := 1, body := .latch w }, w, (1, 5)) :=
  ⟨waitsAt _ _ rfl rfl rfl rfl rfl, by decide +kernel⟩

/-- A request at a channel. -/
def aRequest : ChanReq := { hid := 1, dead := 5, data := [], bad := [], dst := [] }

theorem witness_WaitExpiries_send : let w := { aChan with tail := 2, senders := [aRequest] }
    let s : State := { waiting (.send 256 0) 5 with objs := [(256, some { num := 3, tag := 1, body := .chan w })] }
    (WaitsIn s 1 s.h (aWait (.send 256 0)) ∧ Undecided s 1 (aWait (.send 256 0)) ∧ AnswersNow s (aWait (.send 256 0))) ∧
      s.dueChan 1 true = some (256, { num := 3, tag := 1, body := .chan w }, w, aRequest) ∧ w.receivers = [] ∧
      w.nslot ≤ (w.tail - w.head).toNat := ⟨waitsAt _ _ rfl rfl rfl rfl rfl, by decide +kernel⟩

theorem witness_WaitExpiries_recv : let w := { aChan with receivers := [aRequest] }
    let s : State := { waiting (.recv 256 0) 5 with objs := [(256, some { num := 3, tag := 1, body := .chan w })] }
    (WaitsIn s 1 s.h (aWait (.recv 256 0)) ∧ Undecided s 1 (aWait (.recv 256 0)) ∧ AnswersNow s (aWait (.recv 256 0))) ∧
      s.dueChan 1 false = some (256, { num := 3, tag := 1, body := .chan w }, w, aRequest) :=
  ⟨waitsAt _ _ rfl rfl rfl rfl rfl, by decide +kernel⟩

theorem witness_WaitExpiries_close : let w := aSwarm [{ aMember 0 1 with arrived := true, dead := 5 }, aMember 1 9] []
    let s : State := { waiting (.arrive 256 false) 5 with objs := [(256, some { num := 3, tag := 1, body := .swarm w })] }
    s.swarm 256 = some ({ num := 3, tag := 1, body := .swarm w }, w) ∧ s.episodeDue 256 = true ∧ s.naming 2 256 = [] ∧ w.closed = [] ∧
      w.joins = [] := by decide +kernel

theorem witness_EventTraps : let s := waiting .nap 100005
    s.hart 1 = some s.h ∧ ((waiting .nap 100004).overdue (waiting .nap 100004).h).isSome = false ∧ start.implicitDue start.h .vector = none ∧
      start.implicitDue start.h .forager = none ∧ start.dogDue start.h = false ∧
      (let t := { hart (fun h => { h with iw := some ⟨0, 7, 0⟩, viw := some ⟨0, 8, 0⟩, wd := 50000000 }) with gtb := 100000 }
       t.implicitDue t.h .forager = some 7 ∧ t.implicitDue t.h .vector = some 8 ∧ t.h.begun = none ∧ t.dogDue t.h = true ∧ t.h.dogStops = true ∧
         ((t.hold 1).setH (fun k => k.spent k.pc)).handlerOk cWAITX = true ∧
         (let u := (t.hold 1).dropIssue
          u.boundary = none ∧ ({ u with h := { u.h.spent t.h.pc with wd := 0 } } : State).handlerOk cWDOG = true)) := by decide +kernel

theorem witness_EventTraps_overdue : let s := waiting .nap 100005
    s.overdue s.h = some (aWait .nap) ∧
      (let u := (s.abandonWait s.h (aWait .nap)).hold 1
       ({ u with h := { u.h with wait := none, readyAt := s.h.readyAt } } : State).handlerOk cWAITX = true) := by decide +kernel

/-- A watchdog that ends behind a pending PAGE, and a begun effect that an implicit wait past IWL takes back. -/
theorem witness_EventTraps_boundary : let s := { hart (fun h => { h with pagePend := [5], wd := 50000000 }) with gtb := 100000 }
    let b : Begun := ⟨3, 0, .stands⟩
    let t := { hart (fun h => { h with begun := some b, iw := some ⟨0, 7, 0⟩ }) with gtb := 100000 }
    s.dogDue s.h = true ∧ s.h.dogStops = true ∧ (s.hold 1).dropIssue.boundary.isSome = true ∧ t.implicitDue t.h .forager = some 7 ∧
      (((t.hold 1).takeBack b).setH (fun k => k.spent k.pc)).handlerOk cWAITX = true := by decide +kernel

/-- A posted page fault. -/
def posted (time : Nat) : State :=
  { hart (fun h => { h with mode := .a, post := some (aStop, false), wait := some (aWait .pageFault) }) with gtb := time }

theorem witness_EventTraps_post : (posted 4).h.post = some (aStop, false) ∧ bits (0x8000000000000001#64).toNat 0 16 = 1 ∧
    bit (0x8000000000000001#64).toNat 63 = true ∧ bit (0x8000000000000001#64).toNat 62 = false ∧ bit (0xC000000000000001#64).toNat 62 = true ∧
    (let s := posted 5
     ({ s.hold 1 with h := { s.h with post := none, wait := none, readyAt := s.gtb } } : State).handlerOk aStop.cause = true) ∧
    (posted 4).h.wait = some (aWait .pageFault) ∧ (aWait .pageFault).dead ≤ (posted 5).gtb ∧ (posted 4).gtb < (aWait .pageFault).dead := by
  decide +kernel

theorem witness_EventTraps_words : wordFate false 0 = some .illop ∧ wordFate false 0xA61882A0#32 = some .illstream ∧
    (let s := hart (fun h => { h with pc := 0x500000#64 })
     (s.fetch s.h.actor s.h.pc).2 = .trap cPROT 0x500000#64) ∧
    (let s := { hart (fun h => { h with pc := 0x400040#64 }) with engines := [(3, anEngine [aCmd 0 true])] }
     (s.fetch s.h.actor s.h.pc).2 = .wait (partyWord 0 3)) := by decide +kernel

theorem witness_MachineEvents : ((7 : Nat) < 8 ∧ (start.hub.mchead + 2 ^ 32 - start.hub.mctail) % 2 ^ 32 < 4096 ∧
      (({ start with dies := [(0, { Die.reset with inReset := true })] } : State).die 0).inReset = true ∧
      (let s : State := { start with hub := { Hub.reset with phase := 6 } }
       s.hub.phase = 6 ∧ s.hub.cold = true ∧ s.hub.gtbSet = false ∧ s.hub.spawned = false) ∧
      bit (negotiated triggering.hub).feat0 1 = true ∧ triggering.hub.hchip ≠ 0xFFFF ∧ (start.tenant 0).replay = false ∧
      Tab.get none start.hub.peers 9 = none ∧ Tab.get none triggering.hub.peers 9 = some 3 ∧ (3 : Nat) ≠ (4 : BitVec 12).toNat ∧
      (bit start.hub.cleanBits 4 = true ∧ 2 ^ 32 < 2 ^ 40) ∧ ({ start.hub with zreqBusy := true } : Hub).zreqBusy = true ∧
      start.hub.zreqBusy = false ∧ start.hub.phase ≠ 8 ∧ bit (0x80000000000003FF#64).toNat 63 = true) ∧
    ftmapLegal (0x0001000100000000#64).toNat ∧ ¬ftmapLegal 0 := by
  refine ⟨by decide +kernel, ?_, ?_⟩ <;> unfold ftmapLegal <;> decide

/-- No location of the Comb lies in the machine-check ring. -/
theorem outsideRing (off : Nat) : inMcRing (locComb off) = false := by
  have h : mcAt 0 + 64 * 4096 ≤ locComb off := by
    have := Nat.mod_lt Config.mcPlace (show 0 < 2 ^ 34 - 4096 by decide)
    simp only [mcAt, locComb]
    omega
  simp [inMcRing, h]

theorem witness_MachineEvents_scrub : 32 * 8 < 2 ^ 40 ∧ ¬32 * 2 ^ 35 < 2 ^ 40 ∧ Tab.get 0 start.ecc (32 * 8) = 0 ∧
    Tab.get 0 ({ start with ecc := [(256, 1)] } : State).ecc (32 * 8) = 1 ∧
    2 ≤ Tab.get 0 ({ start with ecc := [(locComb 8, 2)] } : State).ecc (locComb (8 / 8 * 8)) ∧ inMcRing (locComb (8 / 8 * 8)) = false :=
  ⟨by decide +kernel, by decide, by decide +kernel, by decide +kernel, by decide +kernel, outsideRing _⟩

/-- Tenant 1 with another block. -/
def tenant (f : Tenant → Tenant) : State := start.setTenant 1 f

theorem witness_TenantEvents : (start.tenant 1).tinvBusy = false ∧ start.hub.phase ≠ 8 ∧ ((tenant (fun t => { t with tinvBusy := true })).tenant 1).tinvBusy = true ∧
    bits (start.tenant 1).rostat.toNat 0 2 ≠ 1 ∧ bits ((tenant (fun t => { t with rostat := 1 })).tenant 1).rostat.toNat 0 2 = 1 ∧
    bit (0x8000000000000040#64).toNat 63 = true ∧ start.roreqReason 1 0 = 1 ∧
    ({ start with allot := [(64, 1)] } : State).roreqReason 1 64 = 0 ∧ ({ start with allot := [(64, 1)] } : State).roreqReason 1 (64 + 2 ^ 61) = 0 ∧
    ({ start with allot := [(64, 1)] } : State).roreqReason 1 (64 + 2 ^ 62) = 0 ∧
    ({ start with allot := [(64, 1)] } : State).roreqReason 1 (64 + 3 * 2 ^ 61) = 2 := by decide +kernel

/-- A receiver that waits with a destination in main memory. -/
theorem witness_TenantEvents_receiver : let w := { aChan with receivers := [{ aRequest with dst := [near 0x400000] }] }
    let s := object start 256 (.chan w)
    (∃ e ∈ s.objs, ∃ o b, ∃ r ∈ b.receivers, e.2 = some o ∧ o.body = .chan b ∧ o.tag = 1 ∧ ∃ pl ∈ r.dst, isMain pl.loc = true) ∧
      ∀ e ∈ start.objs, ∀ o b, e.2 = some o → o.body = .chan b → o.tag = 1 → ∀ r ∈ b.receivers, ∀ pl ∈ r.dst, isMain pl.loc = false := by
  refine ⟨⟨_, List.mem_singleton.mpr rfl, _, _, _, List.mem_singleton.mpr rfl, rfl, rfl, rfl, _, List.mem_singleton.mpr rfl, by decide⟩, ?_⟩
  intro e h
  cases h

theorem witness_TenantEvents_tinv : (∃ e ∈ (({ start with engines := [(3, anEngine [aCmd 0 true])] } : State)).engines, ∃ c ∈ e.2.queue ++ e.2.pend, c.tid = 1) ∧
    (∀ e ∈ start.engines, ∀ c ∈ e.2.queue ++ e.2.pend, c.tid ≠ 1) := by decide +kernel

theorem witness_TenantEvents_frozen : let s := { tenant (fun t => { t with st := 2 }) with h := { start.h with slot := none } }
    (s.tenant 1).st = 2 ∧ (∀ k ∈ s.harts, k.tid = 1 → k.slot = none ∧ k.leaving = none) ∧
      (∃ k ∈ start.harts, k.tid = 1 ∧ (k.slot ≠ none ∨ k.leaving ≠ none)) ∧
      (let r := tenant (fun t => { t with releasing := true, st := 3 })
       (r.tenant 1).releasing = true ∧ (r.tenant 1).st = 3 ∧ tencfgOk (withState 0 3).toNat = true) := by decide +kernel

theorem witness_TenantEvents_boot : (1 : Nat) ≠ 0 ∧ 6 ≤ start.hub.phase ∧ bit (0x400100#64).toNat 63 = false ∧ (start.tenant 1).bootBusy = false ∧ (start.tenant 1).st = 1 ∧ bit (0x8000000000400100#64).toNat 63 = true := by
  decide +kernel

/-- A boot in progress with an image at 0x40_0100. -/
def booting : State := (launch 0).setTenant 1 (fun t => { t with bootBusy := true, bootRec := 0x400100#64 })

theorem witness_TenantEvents_booted : (booting.tenant 1).bootBusy = true ∧
    (booting.tenant 1).bootChild = none ∧
    (booting.accessRun (hostActor 1) .load (booting.tenant 1).bootRec 2).2 = .ok [near 0x400100, near 0x400140] ∧
    (let r := (booting.accessRun (hostActor 1) .load (booting.tenant 1).bootRec 2).1.readPieces (hostActor 1) [near 0x400100, near 0x400140]
     r.2 = (launchBytes 0, false) ∧ r.1.coresFor 1 4 ≠ [] ∧ (r.1.tenant 1).st = 1 ∧ r.1.proxySwarm (imageOf (launchBytes 0)) = none ∧
       r.1.slowest (imageOf (launchBytes 0)).homes = none ∧
       (match r.1.admitImage 1 (imageOf (launchBytes 0)) with
        | .ok x => x == (0, 0)
        | .error _ => false) = true) := by decide +kernel

/-- A boot whose hart enrols at a die that leaves requests unanswered. -/
theorem witness_TenantEvents_bootWaits :
    let s := (enrolling 0 1).setTenant 1 (fun t => { t with bootBusy := true, bootRec := 0x400100#64 })
    (s.tenant 1).bootChild = none ∧ (s.accessRun (hostActor 1) .load (s.tenant 1).bootRec 2).2 = .ok [near 0x400100, near 0x400140] ∧
    (let r := (s.accessRun (hostActor 1) .load (s.tenant 1).bootRec 2).1.readPieces (hostActor 1) [near 0x400100, near 0x400140]
     r.2 = (enrolBytes, false) ∧ r.1.coresFor 1 4 ≠ [] ∧ (r.1.tenant 1).st = 1 ∧ r.1.slowest (imageOf enrolBytes).homes ≠ none ∧
       (match r.1.admitImage 1 (imageOf enrolBytes) with
        | .ok x => x == (0, 0)
        | .error _ => false) = true) := by decide +kernel

theorem witness_TenantEvents_states : (start.tenant 1).releasing = false ∧ tencfgOk (withState 0x0000010002010100#64 1).toNat = true ∧
    ((tenant (fun t => { t with st := 0 })).tenant 1).st = 0 ∧ start.hub.phase = 7 ∧ ((tenant (fun t => { t with st := 3 })).tenant 1).st = 3 ∧
    tencfgOk (withState 0 3).toNat = true ∧ (start.tenant 1).st = 1 ∧ tencfgOk (withState 0 0).toNat = true ∧
    ((tenant (fun t => { t with st := 2 })).tenant 1).st = 2 ∧ ((tenant (fun t => { t with releasing := true })).tenant 1).releasing = true := by
  decide +kernel

theorem witness_TenantEvents_map : (1 : Nat) < 2 ∧ pmapOk (start.pmapWith 3 0 65) = true ∧ (start.core 3).binds = [] ∧
    pmapOk (start.pmapWith 3 1 1) = false ∧ (start.core 0).binds ≠ [] ∧ start.slotUsed 0 1 = false ∧ (start.core 0).recheck = [] ∧
    ((matrix 2 0 ⟨1, 0xFF, 2⟩).setH (fun h => { h with conv := [(0x400000#64, 0xDA203DFB#32)] })).slotUsed 0 1 = false ∧
    ((matrix 2 0 ⟨1, 0xFF, 2⟩).setH (fun h => { h with conv := [(0x400000#64, 0xDE008804#32)] })).slotUsed 0 1 = true := by decide +kernel

/-- A hart that is READY on core 0, where its tenant has the first lane group. -/
def unbound : State :=
  { start.setCore 0 (fun c => { c with pmap := [(0, 65)], binds := [] }) with h := { start.h with slot := none } }

theorem witness_ScheduleEvents : let d0 : Word := 0x8000000100010001#64
    unbound.hart (bits d0.toNat 0 16) = some unbound.h ∧ unbound.h.live = true ∧ bit d0.toNat 63 = true ∧ bit unbound.hub.split 1 = false ∧
      (unbound.bind 0 2).v = false ∧ (unbound.die (dieOfCore 0)).inReset = false ∧ unbound.bindErr 0 2 d0.toNat = 0 ∧ unbound.restoreBad = [] ∧
      unbound.hub.phase ≠ 8 := by
  decide +kernel

theorem witness_ScheduleEvents_unbind : start.h.begun = none ∧ start.dogDue start.h = false ∧
    start.hart (start.bind 0 0).hart = some start.h ∧ start.h.live = true ∧ (start.bind 0 0).v = true ∧ start.h.core = 0 ∧ start.h.slot = some 0 ∧
    start.hub.phase ≠ 8 ∧ start.h.pagePend = [] ∧ start.h.trapWaits = false ∧ (start.core 0).recheck = [] ∧
    (false == bit start.hub.split 1) = true ∧ (!bit (0#64).toNat 63) = true ∧
    (let s := { start.setBind 0 0 (fun b => { b with quant := 100 }) with gtb := 100 }
     (s.bind 0 0).quantumDue s.gtb = true) := by decide +kernel

/-- A hart whose instruction in hand has begun and waits for die 0, and the same unbound from slot 0 of its core. -/
def leaving (late : Nat) : State :=
  { (start.setDie 0 (fun d => { d with late := late })) with
    h := { start.h with begun := some ⟨3, 0, .stands⟩, iw := some ⟨0, partyWord 1 0, 0⟩, slot := none, leaving := some 0 } }

theorem witness_ScheduleEvents_leaving : let s := (leaving 1).setH (fun h => { h with slot := some 0, leaving := none })
    s.begunWaits s.h = true ∧ s.hart 1 = some s.h ∧ s.h.slot = some 0 ∧ start.leavers 0 0 = [] ∧ (leaving 1).leavers 0 0 = [(leaving 1).h] ∧
      (leaving 1).begunWaits (leaving 1).h = true ∧
      (let t := leaving 0
       t.leavers 0 0 = [t.h] ∧ t.hart t.h.hid = some t.h ∧ t.h.live = true ∧ t.h.begun = some ⟨3, 0, .stands⟩ ∧ t.begunWaits t.h = false ∧
         t.h.slot = none ∧ t.h.pagePend = [] ∧ t.h.trapWaits = false ∧ (t.core 0).recheck = []) := by decide +kernel

/-- A hart that has waited for 2,000 ticks in a slot that another one could take. -/
def blocking : State :=
  { ((waiting .nap 2000).setCore 0 (fun c => { c with pmap := [(0, 65)] })) with
    pool := [{ start.h with hid := 5, slot := none }] }

theorem witness_ScheduleEvents_waits : blocking.waitsTooLong blocking.h = true ∧ blocking.hart 1 = some blocking.h := by decide +kernel

theorem witness_ScheduleEvents_power : start.hub.power < 3201 ∧ (hart (fun h => { h with lp := 8 })).lowerable 0 5 = some { start.h with lp := 8 } ∧
    start.lowerable 0 5 = none ∧ 1600 < start.hub.clock ∧ 3100 ≤ start.hub.power ∧ start.hub.power * 95 < 3100 * 100 := by decide +kernel

theorem witness_ScheduleEvents_kill : start.hart 1 = some start.h ∧ start.h.slot = some 0 := by decide +kernel

theorem witness_ScheduleEvents_start : let s := hart (fun h => { h with queue := [anEntry] })
    s.h.queue = anEntry :: [] ∧ s.h.vectorRuns = true ∧ s.h.run = none ∧ s.ownsLanes = true := by decide +kernel

/-- A convoy of a `vaddVv` and the `vend` that ends the block. -/
def issuing (w : IWord) : State :=
  (vector (fun h => { h with conv := [], vpc := 0x400000#64 })).store 0x400000 (wordBytes w ++ wordBytes 0x86000010#32) false

theorem witness_ScheduleEvents_convoy : let s := issuing 0xA61882A0#32
    let l : List Slot := [(0x400000#64, some 0xA61882A0#32)]
    s.h.vectorRuns = true ∧ s.h.run ≠ none ∧ s.h.conv = [] ∧ s.ownsLanes = true ∧ s.h.inBlock s.h.vpc = true ∧
      (s.fetchConvoy s.h.vpc true 1024 []).2 = .words l ∧
      s.h.pagePendV = [] ∧ (s.fetchConvoy s.h.vpc true 1024 []).1.breakpoints 1 0x400000#64 = [] ∧
      (s.fetchConvoy s.h.vpc true 1024 []).1.convoyFate l = .ok ∧ (s.fetchConvoy s.h.vpc true 1024 []).1.entriesFor l = true := by decide +kernel

theorem witness_ScheduleEvents_convoy_hold : let s := issuing 0xA61882A0#32
    let l : List Slot := [(0x400000#64, some 0xA61882A0#32)]
    let q := List.replicate 16 { s.h.snapshot with conv := [(0x400000#64, 0xA61882A0#32)] }
    (s.setCore 0 (fun c => { c with recheck := q })).convoyFate l = .ok ∧
      ((s.setCore 0 (fun c => { c with recheck := q })).setH (fun h => { h with run := some { aBlock with rchk := 1 } })).entriesFor l = false := by
  decide +kernel

theorem witness_ScheduleEvents_convoy_trap : let s := issuing 0x04642800#32
    let l : List Slot := [(0x400000#64, some 0x04642800#32)]
    (s.fetchConvoy s.h.vpc true 1024 []).2 = .words l ∧
      (match (s.fetchConvoy s.h.vpc true 1024 []).1.convoyFate l with
       | .trap _ _ _ => true
       | _ => false) = true := by decide +kernel

theorem witness_ScheduleEvents_convoy_wait : (matrix 1 0 ⟨1, 0xFF, 2⟩).convoyFate [(0x400000#64, some 0xDE080800#32)] =
    .wait (partyWord 3 1) 0x400000#64 := by
  decide +kernel

theorem witness_ScheduleEvents_recheck : let r := start.h.snapshot
    let s := start.setCore 0 (fun c => { c with recheck := [r] })
    s.hart 1 = some s.h ∧ s.h.live = true ∧ (s.core s.h.core).recheck.find? (fun r => r.hid == 1) = some r := by decide +kernel

theorem witness_ScheduleEvents_vote : let r := (issuing 0xA61882A0#32).h.snapshot
    let a : RunRes := { bits := 1, den := 0, psn := false, flags := 0 }
    let q : Recheck := { r with conv := [(0x400000#64, 0xA61882A0#32)] }
    (vector (fun h => { h with conv := q.conv })).h.votesOn 0xA6188280#32 2 = true ∧ q.votes = [] ∧ voteOf 2 none (some a) none = ⟨2, none, false⟩ ∧
      (voteOf 2 none (some a) (some a)).res ≠ none ∧ (voteOf 2 none (some a) (some { a with bits := 2 })).failed = true ∧
      (vector id).h.votesOn 0xA6188280#32 7 = false := by decide +kernel

theorem witness_UnitEvents : let q : LeaseReq := { hid := 1, tid := 1, die := 0, kind := 0, req := 0, dead := 500 }
    let s : State := { (waiting (.elease 0 0) 3).setTenant 1 (fun t => { t with cpyq := 1 }) with leaseQ := [q] }
    s.nextLease 0 = some q ∧ WaitsIn s 1 s.h (aWait (.elease 0 0)) := ⟨by decide +kernel, rfl, rfl, rfl, rfl⟩

/-- A package with one engine. -/
def engined (e : Nat) (l : List Cmd) (time : Nat) : State := { start with engines := [(e, anEngine l)], gtb := time }

theorem witness_UnitEvents_lease : ((engined 3 [] 1000).engine 3).leased = true ∧ ((engined 3 [] 1000).engine 3).endAt ≤ (engined 3 [] 1000).gtb ∧
    (engined 3 [] 999).gtb < ((engined 3 [] 999).engine 3).endAt := by decide +kernel

/-- A compression command at engine 64. -/
def packing (op : Nat) : Cmd := { aCmd 3 true with op := op }

theorem witness_UnitEvents_command : ((engined 3 [aCmd 0 false] 0).engine 3).queue = aCmd 0 false :: [] ∧ (aCmd 0 false).running = false ∧
    (aCmd 0 false).kind ≠ 4 ∧ (aCmd 2 true).running = true ∧ (aCmd 2 true).kind < 3 ∧ (packing 1).kind = 3 ∧
    (let s := engined 64 [packing 1] 0
     (s.readSource (packing 1) ((packing 1).len / 64) (packing 1).src 0).2 = .ok (List.replicate 64 0, [])) ∧
    compressed 1 (List.replicate 64 0) = none ∧ (compressed 0 (List.replicate 64 0)).isSome = true ∧ (aCmd 4 true).kind = 4 ∧
    (aCmd 4 true).res = none ∧ ({ aCmd 4 true with res := some ⟨[], 3, 1⟩ } : Cmd).res = some ⟨[], 3, 1⟩ := by decide +kernel

theorem witness_UnitEvents_unconfirmed : let b : Begun := { dst := 3, val := 0, what := .command 3 7 }
    (engined 3 [aCmd 0 false] 0).unconfirmed 3 (aCmd 0 false) = false ∧
      ((engined 3 [aCmd 0 false] 0).setH (fun h => { h with begun := some b })).unconfirmed 3 (aCmd 0 false) = true := by decide +kernel

theorem witness_UnitEvents_collective : let w := aSwarm [aMember 0 1, aMember 1 9] []
    let c : CollMember := { rank := 0, chip := 0xFFFF, hid := 1, eng := 80, seq := 7, data := [], bad := [] }
    let b : Coll := { rcd := 256, op := 0, ty := 0, len := 64, dead := 50, members := [c] }
    let s : Nat → State := fun t => { object start 256 (.swarm w) with colls := [b], gtb := t }
    (s 50).coll 256 = some b ∧ (s 50).swarm 256 = some ({ num := 3, tag := 1, body := .swarm w }, w) ∧ b.dead ≤ (s 50).gtb ∧
      b.complete w = false ∧ (s 49).gtb < b.dead ∧ ({ b with members := [c, { c with rank := 1 }] } : Coll).complete w = true := by decide +kernel

/-- A package whose host drives the ploughs, where the first 2 MiB are the tenant's and their leaf stands at 0x20_2000. -/
def ploughing (stat : Nat) (src : Word) (own : Bool) : State :=
  { (start.store64 0x200000 0x202001).store64 0x202000 (0x1F + 5 * 2 ^ 60) with
    hub := { start.hub with split := 4 }, rob := Tab.set 0 start.rob 0 (word (2 ^ 63 + 2 ^ 32)), copied := [(1, 0x400000)],
    ploughs := [(1, { Plough.reset with stat := stat, tag := 1, big := true, src := src, dst := 0x600000, ent := 0x202000, own := own })] }

theorem witness_UnitEvents_plough : let s := ploughing 1 0 false
    (s.plough 1).stat = 1 ∧ ((ploughing 0 0 false).plough 1).stat ≠ 1 ∧ bits (0x00010003#64).toNat 16 10 ≤ 512 ∧
    bit (0x00010003#64).toNat 0 = true ∧ s.hasKey 1 = true ∧ s.pageOwned 0 (2 ^ 21) = false ∧ s.pageOwned 0x600000 (2 ^ 21) = false ∧
    bit s.hub.split 2 = true ∧ s.moveOk (s.plough 1) = true ∧ (s.plough 1).own = false ∧ (∃ c ∈ s.copied, c.1 = 1) ∧
    s.hub.phase ≠ 8 ∧ (s.readLeaf (s.plough 1).ent.toNat).moveOk (s.plough 1) = true ∧ s.ecc = [] ∧ s.hasKey (s.tableTag 0x202000) = true ∧
    (0#64) ≠ 0x600000 ∧ ((ploughing 1 0 true).plough 1).own = true ∧ (ploughing 1 0 true).moveOk ((ploughing 1 0 true).plough 1) = true ∧
    (ploughing 1 0x200000 false).moveOk ((ploughing 1 0x200000 false).plough 1) = false := by decide +kernel

theorem witness_UnitEvents_flip : let r := { region 2 2 with size := 0x8000, obj := 0xD000000000020000, flip := [(256, PlnWord.none)], flipBanks := [2] }
    let w := aSwarm [] []
    let s : State := { object start 0x20000 (.swarm w) with regions := [(0, some r)] }
    s.region 0 = some r ∧ r.flipBanks.contains 2 = true ∧ r.flipBanks.contains 3 = false ∧ (combHome 256).2 = 2 ∧ 256 + r.width ≤ r.report ∧
      combOffset r.obj = some 0x20000 ∧ s.swarm 0x20000 = some ({ num := 3, tag := 1, body := .swarm w }, w) ∧ w.closed = [] ∧
      256 + r.width ≤ 0x20000 := by decide +kernel

theorem witness_UnitEvents_debug : let x : Halt := { vsd := false, bp := 1, cut := 0, steps := 0 }
    let s := hart (fun h => { h with halt := some x })
    s.slotHart 0 0 = some s.h ∧ s.hart s.h.hid = some s.h ∧ s.h.live = true ∧ s.h.halt = some x := by decide +kernel

/-- A package with a chip id, ports that are up, and a peer. -/
def linked (s : State) : State := { s with hub := { s.hub with hchip := 7, feat0 := 2, featSet := true, peers := [(9, some 3)] } }

/-- A frame from that peer for tenant 1. -/
def frame (kind target : Nat) (data : List Byte) : Frame :=
  { secTag := true, ver := 1, kind := kind, dst := 7, src := 9, inc := 3, tag := 1, seq := 0, target := target, data := data }

theorem witness_OutsideEvents_drop : (linked start).frameOk 2 (frame 1 0 []) = false ∧ (linked start).frameOk 1 (frame 1 0 []) = true ∧
    (linked start).frameFresh { frame 1 0 [] with inc := 4 } = false ∧ (linked start).frameOk 1 { frame 1 0 [] with inc := 4 } = true ∧
    (frame 0 0 []).kind = 0 ∧ 9 < (frame 10 0 []).kind ∧ (frame 9 0 []).kind ≤ 9 := by decide +kernel

theorem witness_OutsideEvents_put : let s := linked start
    let fr := frame 1 0x400008 [1, 2, 3]
    Admitted s 1 fr ∧ Admitted s 3 { fr with kind := 3 } ∧ fr.data ≠ [] ∧ fr.data.length ≤ 64 - (word fr.target).toNat % 64 ∧
      (let r := (s.logArrival fr.tag fr).access (hostActor fr.tag) .store (word fr.target) fr.data.length 1
       r.2 = .ok (near 0x400008) ∧ r.1.openPlace fr.tag (word fr.target) (near 0x400008) = true ∧ (near 0x400008).reg = none ∧
         r.1.hasKey fr.tag = true) :=
  ⟨⟨by decide +kernel, by decide +kernel⟩, ⟨by decide +kernel, by decide +kernel⟩, by decide +kernel⟩

theorem witness_OutsideEvents_get : let s := linked start
    let fr := frame 2 0x400200 (leBytes 8 8 ++ leBytes 8 0)
    let r := s.outsideGet fr.tag 150 (word fr.target) (min 9000 (frameDw fr 0))
    Admitted s 2 fr ∧ r.2 = some (List.replicate 8 0) ∧ (r.1.tenant 1).replay = false ∧ r.1.portsUp = true :=
  ⟨⟨by decide +kernel, by decide +kernel⟩, by decide +kernel⟩

theorem witness_OutsideEvents_get_owned : let s := linked (engined 3 [aCmd 0 true] 0)
    let fr := frame 2 0x400040 (leBytes 8 8 ++ leBytes 8 0)
    Admitted s 2 fr ∧ (s.outsideGet fr.tag 150 (word fr.target) (min 9000 (frameDw fr 0))).2 = none :=
  ⟨⟨by decide +kernel, by decide +kernel⟩, by decide +kernel⟩

theorem witness_OutsideEvents_send : let s := linked (object start 256 (.chan aChan))
    let fr := frame 4 3 (List.replicate 80 0)
    Admitted s 4 fr ∧ s.objNum fr.target = some (256, { num := 3, tag := 1, body := .chan aChan }) ∧
      FreeSlot s 256 fr.tag 0 { num := 3, tag := 1, body := .chan aChan } aChan ∧ fr.data.length = 16 + aChan.sz :=
  ⟨⟨by decide +kernel, by decide +kernel⟩, by decide +kernel, by unfold FreeSlot; decide +kernel, by decide⟩

theorem witness_OutsideEvents_arrival : let m : Member := { aMember 0 (farId 9 2) with chip := 9 }
    let w := { aSwarm [m, aMember 1 1] [] with xchip := true }
    let s := linked (object start 256 (.swarm w))
    let fr := frame 5 3 (leBytes 8 4 ++ leBytes 8 2 ++ leBytes 8 0 ++ leBytes 8 100)
    Admitted s 5 fr ∧ s.objNum fr.target = some (256, { num := 3, tag := 1, body := .swarm w }) ∧ w.xchip = true ∧ frameDw fr 0 = 4 ∧
      w.members.find? (fun m => m.hid == farId fr.src (frameDw fr 1)) = some m ∧ m.good = true ∧ m.chip = fr.src ∧ s.gtb < frameDw fr 3 ∧
      (∃ k ∈ w.members, k.good = true ∧ k.arrived = false ∧ k.hid ≠ m.hid) :=
  ⟨⟨by decide +kernel, by decide +kernel⟩, by decide +kernel⟩

theorem witness_OutsideEvents_result : let w := { aSwarm [] [] with xchip := true, remote := word (9 * 2 ^ 48 + 12) }
    let s := linked { waiting (.arrive 256 false) 3 with objs := [(256, some { num := 3, tag := 1, body := .swarm w })] }
    let fr := frame 6 12 (leBytes 8 1 ++ leBytes 8 0)
    Admitted s 6 fr ∧ s.proxyOf fr.tag fr.src fr.target = some 256 ∧ WaitsIn s (frameDw fr 0) s.h (aWait (.arrive 256 false)) ∧
      s.h.created = false ∧ (aWait (.arrive 256 false)).issued = frameDw fr 2 ∧
      (aWait (.arrive 256 false)).issued ≠ frameDw (frame 6 12 (leBytes 8 1 ++ leBytes 8 0 ++ leBytes 8 2)) 2 ∧ s.h.begun = none ∧
      ∀ k ∈ s.harts, (256, 2) ∉ k.fabOut :=
  ⟨⟨by decide +kernel, by decide +kernel⟩, by decide +kernel, ⟨by decide +kernel, rfl, rfl, rfl⟩, by decide +kernel⟩

theorem witness_OutsideEvents_data : let s := linked (engined 80 [aCmd 4 true] 0)
    let fr := frame 7 0 (leBytes 8 1 ++ leBytes 8 1 ++ leBytes 8 80 ++ leBytes 8 7 ++ leBytes 8 0xFFF ++ leBytes 8 0)
    Admitted s 7 fr ∧ frameDw fr 0 = 1 ∧ aCmd 4 true ∈ (s.engine (frameDw fr 2)).queue ∧ s.collCmd fr = some (aCmd 4 true) :=
  ⟨⟨by decide +kernel, by decide +kernel⟩, by decide +kernel⟩

theorem witness_OutsideEvents_part : let s := linked start
    let fr := frame 7 0 (leBytes 8 4 ++ leBytes 8 2 ++ leBytes 8 0 ++ leBytes 8 5)
    Admitted s 7 fr ∧ frameDw fr 0 = 4 ∧ 1 < frameDw fr 1 ∧ 1 ≠ frameDw fr 2 ∧ ∀ x ∈ s.parts, sameMessage fr x = true → frameDw x 2 ≠ 1 :=
  ⟨⟨by decide +kernel, by decide +kernel⟩, by decide +kernel⟩

theorem witness_OutsideEvents_trigger : let s := linked (tenant (fun t => { t with ftrig := word (3 * 2 ^ 62 + 5 * 2 ^ 32) }))
    Admitted s 8 (frame 8 0 []) ∧ Admitted s 9 (frame 9 5 []) ∧ bit (s.tenant 1).ftrig.toNat 63 = true ∧ bit (s.tenant 1).ftrig.toNat 62 = true ∧
      bits (s.tenant 1).ftrig.toNat 32 16 = 5 :=
  ⟨⟨by decide +kernel, by decide +kernel⟩, ⟨by decide +kernel, by decide +kernel⟩, by decide +kernel⟩

theorem witness_OutsideEvents_replay : let a : Arrival := { tag := 1, offset := 10, ev := frame 4 3 (List.replicate 80 0) }
    let s : Nat → State := fun t => { (object start 256 (.chan aChan)).setTenant 1 (fun t => { t with replay := true }) with alog := [a], gtb := t }
    ((s 9).tenant 1).replay = true ∧ (s 9).nextArrival 1 = some a ∧ (s 9).gtb < ((s 9).tenant 1).logAt + a.offset ∧
      ((s 10).tenant 1).logAt + a.offset ≤ (s 10).gtb ∧ a.ev.kind = 4 ∧
      (s 10).objNum a.ev.target = some (256, { num := 3, tag := 1, body := .chan aChan }) ∧ a.ev.data.length = 16 + aChan.sz ∧
      start.nextArrival 1 = none := by decide +kernel

theorem witness_OutsideEvents_host : (start.tenant 1).st ≠ 0 ∧ start.behind 1 = false ∧
    ({ start with held := [hostEntry 32 1 (2 * 2 ^ 60 + 0x400008) [1]] } : State).behind 1 = true ∧ barHas 2 0x400008 3 = true ∧ ([1, 2, 3] : List Byte).length ≤ 64 - (barPointer 2 0x400008).toNat % 64 ∧
    (let r := (start.logArrival 1 (hostEntry 32 1 (2 * 2 ^ 60 + 0x400008) [1, 2, 3])).access (hostActor 1) .store (barPointer 2 0x400008) 3 1
     r.2 = .ok (near 0x400008) ∧ r.1.openPlace 1 (barPointer 2 0x400008) (near 0x400008) = true ∧ r.1.hasKey 1 = true) ∧
    (start.tenant 2).st = 0 := by decide +kernel

theorem witness_OutsideEvents_hostSend : let w := { aChan with pkind := 2 }
    let s := (object start 256 (.chan w)).setTenant 1 (fun t => { t with hsch := 0xD000000000000100, hsmsg := 0xD000000000000400 })
    FreeSlot s 256 1 2 { num := 3, tag := 1, body := .chan w } w ∧ (1 : Nat) ≤ 512 ∧ (s.tenant 1).st ≠ 0 ∧ (s.tenant 1).sendPending = false ∧
      combOffset (s.tenant 1).hsch = some 256 ∧ ((hostPending s 1).hostMessage 1 (s.tenant 1).hsmsg w.sz).2 = .ok (List.replicate 64 0) [] := by
  refine ⟨?_, by decide +kernel⟩
  unfold FreeSlot
  decide +kernel

theorem witness_OutsideEvents_rest : let j : Job := { num := 4, tag := 1, hash := [], first := 0, last := 9, alive := 0, posted := false }
    ({ start with jobs := [j] } : State).jobs.find? (fun j => j.num == 4 && j.due) = some j ∧
      (start.hub.hevh + 2 ^ 32 - start.hub.hevt) % 2 ^ 32 + 128 ≤ 2 ^ start.hub.hevn ∧ State.reset.hub.phase < 6 ∧ 6 ≤ start.hub.phase ∧
      ({ start.hub with phase := 8 } : Hub).phase = 8 ∧ start.hub.phase ≠ 8 ∧ (199 : Nat) < 200 ∧ 1000000 ≤ bits (1000000#64).toNat 0 32 ∧ bits (999999#64).toNat 0 32 < 1000000 := by decide +kernel

/-! Ill-formed terms, one for each check of `wellFormed` -/

/-- The stored stream of a compression is a raw DEFLATE stream of its source (R144; RFC 1951), and a fixed one of the format inflates. -/
theorem test_plainStream : inflate (plainStream [0x41, 0x41, 0x42]) = some [0x41, 0x41, 0x42] := by decide +kernel

theorem test_inflate_fixed : inflate [0x4B, 0x4C, 0x4A, 0x06, 0x00] = some [0x61, 0x62, 0x63] := by decide +kernel

theorem smoke_scope : wellFormed (.fence 5) = false ∧ wellFormed (.amoAdd 5 7 6 1 0 7) = false ∧ wellFormed (.fence 4) = true := by decide
theorem smoke_code : wellFormed (.sadd 1 8 20 1) = false ∧ wellFormed (.sadd 1 8 19 1) = true := by decide
theorem smoke_base : wellFormed (.vld 1 8 20 1 0) = false ∧ wellFormed (.vld 1 8 19 1 0) = true := by decide
theorem smoke_type : wellFormed (.vsetl 1 8 2 0 2 2) = false ∧ wellFormed (.vsetl 1 8 2 0 2 1) = true := by decide
theorem smoke_cvtType : wellFormed (.vfcvt 1 4 8 4 3 0) = false ∧ wellFormed (.vfcvt 1 4 8 1 2 0) = true := by decide
theorem smoke_bop : wellFormed (.vbopAdd 1 4 1 0 2 3) = false ∧ wellFormed (.vbopAdd 1 4 1 6 2 0) = false ∧ wellFormed (.vbopAdd 1 4 1 6 2 1) = true := by
  decide
theorem smoke_merge : wellFormed (.vmergeVv 1 7 3 4 0) = false ∧ wellFormed (.vmergeVv 1 7 0 4 0) = true := by decide
theorem smoke_fmt : wellFormed (.mmrow 1 8 0 1 0 0 12) = false ∧ wellFormed (.mmrow 1 8 0 1 0 0 11) = true := by decide
theorem smoke_zero : wellFormed (.vloop 1 0 0 2) = false ∧ wellFormed (.vlend 1 0 0) = false ∧ wellFormed (.vstd 1 8 2 0) = false ∧
    wellFormed (.vmseqVv 1 0 4 5 0) = false ∧ wellFormed (.mkand 1 4 0 1 0) = false := by decide

/-! Words of the spec's own tables, by chapter, with what they decode to -/

theorem decode_scalar : decode 0x04642800#32 = some (.add 3 4 5) ∧ decode 0x08A60064#32 = some (.addi 5 6 100) ∧
    decode 0x0CE700FF#32 = some (.andi 7 7 0xFF) ∧ decode 0x10208000#32 = some (.ori 1 0 0x8000) ∧
    decode 0x18A6FFFC#32 = some (.slti 5 6 0xFFFC) ∧ decode 0x20C7000C#32 = some (.slli 6 7 12) ∧ decode 0x24A51234#32 = some (.lhi 5 5 0x1234) := by
  decide +kernel

theorem decode_control : decode 0x38A00004#32 = some (.beq 5 0 4) ∧ decode 0x38649FFE#32 = some (.bltu 3 4 0x1FFE) ∧
    decode 0x3C1FFFFD#32 = some (.jal 0 0x1FFFFD) ∧ decode 0x40250008#32 = some (.jalr 1 5 8) ∧ decode 0x5CA00010#32 = some (.cfgrd 5 0x010) ∧
    decode 0x60000007#32 = some (.trap 7) ∧ decode 0x60001000#32 = some .tret ∧ decode 0x60002000#32 = some (.brk 0) ∧
    decode 0x4CA60000#32 = some (.spawn 5 6) ∧ decode 0x4C000001#32 = some .exit := by decide +kernel

theorem decode_memory : decode 0x28E26010#32 = some (.ldD 7 2 16) ∧ decode 0x28898000#32 = some (.ldBu 4 9 0) ∧
    decode 0x2CA35FFC#32 = some (.stW 5 3 0x1FFC) ∧ decode 0x30A730A3#32 = some (.amoAdd 5 7 6 1 0 3) ∧
    decode 0x310252C3#32 = some (.amoFadd 8 2 10 0 0 3) ∧ decode 0x44E80230#32 = some (.spcastMk 7 8 3) ∧
    decode 0x44A60000#32 = some (.sptest 5 6) ∧ decode 0x64A60000#32 = some (.cregNew 5 6) ∧ decode 0x64A70100#32 = some (.cregFree 5 7) := by
  decide +kernel

theorem decode_fop : decode 0x34A63800#32 = some (.fadd 5 6 7 0) ∧ decode 0x354B61D0#32 = some (.fmacc 10 11 12 1) ∧
    decode 0x344303E0#32 = some (.fcvtF 2 3 2 0) := by decide +kernel

theorem decode_waits : decode 0x50A60000#32 = some (.onewSwarm 5 6) ∧ decode 0x50A60002#32 = some (.onewChan 5 6) ∧
    decode 0x50A60080#32 = some (.ofree 5 6) ∧ decode 0x50EA5940#32 = some (.swjoin 7 10 11 1) ∧ decode 0x500A0180#32 = some (.swleave 0 10) ∧
    decode 0x514B6200#32 = some (.swbar 10 11 12 0) ∧ decode 0x50A63AC0#32 = some (.step 5 6 7 1) ∧ decode 0x50A63B40#32 = some (.acq 5 6 7 1) ∧
    decode 0x50A60380#32 = some (.rel 5 6) ∧ decode 0x50A60400#32 = some (.mend 5 6) ∧ decode 0x50A60480#32 = some (.adopt 5 6) ∧
    decode 0x50A63D00#32 = some (.send 5 6 7 0) ∧ decode 0x50A63DC0#32 = some (.recv 5 6 7 1) ∧ decode 0x50004E40#32 = some (.nap 0 9 1) := by
  decide +kernel

theorem decode_engines : decode 0x548A5842#32 = some (.eleaseColl 4 10 11 1) ∧ decode 0x54240080#32 = some (.efree 1 4) ∧
    decode 0x54A63900#32 = some (.ecopy 5 6 7 0) ∧ decode 0x54C50280#32 = some (.estat 6 5) ∧ decode 0x55054B40#32 = some (.ewait 8 5 9 1) ∧
    decode 0x54444C00#32 = some (.twait 2 4 9 0) ∧ decode 0x54640482#32 = some (.tsetReady 3 4) ∧ decode 0x54A60500#32 = some (.tdrain 5 6 0 0) := by
  decide +kernel

theorem decode_queue : decode 0x48740000#32 = some (.vrun 3 20) ∧ decode 0x494058C0#32 = some (.rqpop 10 11 1) ∧
    decode 0x48006100#32 = some (.vsync 0 12 0) ∧ decode 0x48000180#32 = some (.vrel 0) ∧ decode 0x68A00002#32 = some (.vcfg 5 2) := by decide +kernel

theorem decode_vector_memory : decode 0x8A404020#32 = some (.vld 1 8 1 1 0) ∧ decode 0x8A100908#32 = some (.vldS 1 2 0 9 0 0) ∧
    decode 0x8A20831C#32 = some (.vldFfBo 1 4 2 3 0 0) ∧ decode 0x8A320411#32 = some (.vldT 1 6 8 4 0 1) ∧
    decode 0x8E404644#32 = some (.vldx 1 8 1 6 2 2 0) ∧ decode 0x96204000#32 = some (.vst 1 4 1 0 0) ∧
    decode 0x9A288701#32 = some (.vstx 1 5 2 7 0 0 1) ∧ decode 0x92400000#32 = some (.vldd 1 8 0 0) ∧
    decode 0x9240460C#32 = some (.vlddX 1 8 1 6 0 2) ∧ decode 0x9E408001#32 = some (.vstd 1 8 2 1) ∧
    decode 0xA2204040#32 = some (.vbopAdd 1 4 1 0 2 0) ∧ decode 0xA228860E#32 = some (.vbopFadd 1 5 2 6 0 1) := by decide +kernel

theorem decode_vector_state : decode 0x82481000#32 = some (.vsetl 1 9 0 2 0 0) ∧ decode 0x82500308#32 = some (.vsetlMax 1 10 0 3 0) ∧
    decode 0xE2200000#32 = some (.vpclr 1 4) ∧ decode 0xE2000001#32 = some (.vpmclr 1) ∧ decode 0xE210C002#32 = some (.vpmask 1 2 6) ∧
    decode 0xE2080003#32 = some (.vid 1 1) ∧ decode 0xE2420104#32 = some (.vmvR 1 8 16 2) := by decide +kernel

theorem decode_vector_integer : decode 0xA6083F81#32 = some (.vaddVi 1 1 1 0x3F 0) ∧ decode 0xA630448B#32 = some (.vmulhuVx 1 6 2 9 0) ∧
    decode 0xAA386218#32 = some (.vmergeVv 1 7 3 4 1) ∧ decode 0xAE10A08E#32 = some (.vmsgtu 1 2 5 1 0) ∧ decode 0xB220C584#32 = some (.vfsl 1 4 6 11) ∧
    decode 0xB6102281#32 = some (.vxchVi 1 2 1 5 0) ∧ decode 0xB640610C#32 = some (.vextr 1 8 3 2) ∧ decode 0xBE204016#32 = some (.mkspreadI 1 4 2 1) := by
  decide +kernel

theorem decode_vector_float : decode 0xC2186086#32 = some (.vfmulVx 1 3 3 1 0) ∧ decode 0xC228E00A#32 = some (.vfsqrt 1 5 7 0) ∧
    decode 0xC6404180#32 = some (.vfmacPpVv 1 8 2 3 0) ∧ decode 0xC609200E#32 = some (.vfkind 1 1 9 0) ∧ decode 0xC618C38F#32 = some (.vfcmpUn 1 3 6 7 0) ∧
    decode 0xCA210500#32 = some (.vfcvt 1 4 8 1 2 0) ∧ decode 0xCA186604#32 = some (.vdrescale 1 3 3 12 0) ∧ decode 0xCE090001#32 = some (.vfsumT 1 1 8 0 0) ∧
    decode 0xCE300004#32 = some (.vrand 1 6 0) := by decide +kernel

theorem decode_rational : decode 0xD2108300#32 = some (.vqaddVv 1 2 4 6 0) ∧ decode 0xD2410486#32 = some (.vqmulVx 1 8 8 9 0) ∧
    decode 0xD210828E#32 = some (.vqeqVv 1 2 4 5 0) ∧ decode 0xD6210600#32 = some (.vqencVv 1 4 8 12 0) ∧ decode 0xD6210082#32 = some (.vqencVi 1 4 8 1 0) ∧
    decode 0xD6808003#32 = some (.vqdec 1 16 4 0) ∧ decode 0xD6308006#32 = some (.vqval 1 6 4 0) := by decide +kernel

theorem decode_matrix : decode 0xDA804835#32 = some (.mmrow 1 16 2 1 0 3 5) ∧ decode 0xDE088800#32 = none ∧ decode 0xDE080800#32 = some (.mwclr 1 1) := by
  decide +kernel

theorem decode_sequencer : decode 0x8600A100#32 = some (.vloop 1 0 5 2) ∧ decode 0x86818582#32 = some (.vloopR 1 1 12 11 2) ∧
    decode 0x86008008#32 = some (.vlend 1 0 4) ∧ decode 0x86000109#32 = some (.vexit 1 0 2) ∧ decode 0x8640028A#32 = some (.vreply 1 8 5) ∧
    decode 0x86000010#32 = some (.vend 1) ∧ decode 0x864100A0#32 = some (.sadd 1 8 8 1) ∧ decode 0x86493FB0#32 = some (.saddi 1 9 9 0x3F) ∧
    decode 0x8651F431#32 = some (.sli 1 10 1000) ∧ decode 0x86581140#32 = some (.vcfgrd 1 11 0x022) := by decide +kernel

/-- Majors 0 and 63, and minors that the tables leave reserved, decode to nothing (R41). -/
theorem decode_reserved : decode 0#32 = none ∧ decode 0xFFFFFFFF#32 = none ∧ decode 0xCA210505#32 = none ∧ decode 0x0464281F#32 = none := by
  decide +kernel

/-! Single steps, with the results that the spec's tables and rules give -/

/-- What an instruction leaves, read from the next state. -/
def after {α : Type} (i : Instr) (s : State) (f : State → α) : Option α :=
  match exec i s with
  | .next t => some (f t)
  | _ => none

/-- R293: a divisor of 0 gives the quotient 0 and the remainder a. -/
theorem test_divide_by_zero : after (.quoS 3 4 5) (regs [(4, 7)]) (fun t => t.xr 3) = some 0 ∧
    after (.remU 3 4 5) (regs [(4, 7)]) (fun t => t.xr 3) = some 7 := by decide +kernel

/-- R293: the most negative number divided by −1. -/
theorem test_divide_overflow : after (.quoS 3 4 5) (regs [(4, 0x8000000000000000), (5, 0xFFFFFFFFFFFFFFFF)]) (fun t => t.xr 3)
    = some 0x8000000000000000#64 := by decide +kernel

/-- R177: a write of x0 is discarded. -/
theorem test_x0 : after (.addi 0 0 5) start (fun t => (t.xr 0, t.h.pc)) = some (0, 0x400004#64) := by decide +kernel

/-- A sum wraps. -/
theorem test_add_wraps : after (.add 3 3 3) (regs [(3, 0x8000000000000001)]) (fun t => t.xr 3) = some 2 := by decide +kernel

/-- The pointer of R295's table: 0x40, shifted by 16 twice. -/
theorem test_lhi : after (.lhi 5 5 0) (regs [(5, 0x400000)]) (fun t => t.xr 5) = some 0x4000000000#64 := by decide +kernel

/-- R296: a branch back by two words. -/
theorem test_branch_back : after (.bltu 3 4 0x1FFE) (regs [(3, 1), (4, 2)]) (fun t => t.h.pc) = some 0x3FFFF8#64 := by decide +kernel

/-- R297: the target is formed before the link register is written. -/
theorem test_jalr_same : after (.jalr 1 1 8) (regs [(1, 0x400100)]) (fun t => (t.h.pc, t.xr 1)) = some (0x400108#64, 0x400004#64) := by decide +kernel

/-- R84: loads extend by their kind. -/
theorem test_load_extends : after (.ldB 3 2 0) ((regs [(2, 0x400010)]).store 0x400010 [0xFE] false) (fun t => t.xr 3) = some 0xFFFFFFFFFFFFFFFE#64 ∧
    after (.ldBu 3 2 0) ((regs [(2, 0x400010)]).store 0x400010 [0xFE] false) (fun t => t.xr 3) = some 0xFE#64 := by decide +kernel

/-- R28: the low byte lies at the lowest address. -/
theorem test_store_order : after (.stW 3 2 0) (regs [(2, 0x400010), (3, 0x11223344)]) (fun t => (t.byteAt 0x400010, t.byteAt 0x400013, t.byteAt 0x400014))
    = some (0x44, 0x11, 0) := by decide +kernel

/-- R85, R394: a misaligned store traps before it writes. -/
theorem test_store_misaligned : after (.stW 3 2 0) (regs [(2, 0x400012), (3, 1)]) (fun t => (t.h.tcause, t.h.tval, t.h.pc, t.byteAt 0x400012))
    = some (5, 0x400012, 0x401000, 0) := by decide +kernel

/-- R123: an AMO returns the old value and writes the new one. -/
theorem test_amo_add : after (.amoAdd 3 2 4 0 0 0) ((regs [(2, 0x400010), (4, 1)]).store 0x400010 (leBytes 4 0xFFFFFFFF) false)
    (fun t => (t.xr 3, t.numAt 0x400010 4)) = some (0xFFFFFFFFFFFFFFFF#64, 0) := by decide +kernel

/-- R302: `tret` in mode A is ILLOP. -/
theorem test_tret_user : after .tret (hart (fun h => { h with mode := .a })) (fun t => (t.h.tcause, t.h.mode, t.h.tepc)) = some (1, .s, 0x400000) := by
  decide +kernel

/-- The results of one element of 8 bits, 0xF0 and 0x20 (the table under R213). -/
def bytes (i : Instr) : Option (Nat × Nat) :=
  after i ((vset (fun x => { x with vl := 1, v := [(2, 0xF0), (3, 0x20)], vtype := { vill := false, g := 0, ty := 0, sw := 0 } })))
    (fun t => ((t.h.el 8 1 0).1, (t.h.run.map (fun b => b.flags)).getD 0))

theorem test_vector_sums : bytes (.vaddVv 1 1 2 3 0) = some (0x10, 0) ∧ bytes (.vsadd 1 1 2 3 0) = some (0x10, 0) ∧
    bytes (.vsaddu 1 1 2 3 0) = some (0xFF, flIS) := by decide +kernel

theorem test_vector_products : bytes (.vmulVv 1 1 2 3 0) = some (0, 0) ∧ bytes (.vmulh 1 1 2 3 0) = some (0xFE, 0) ∧
    bytes (.vmulhuVv 1 1 2 3 0) = some (0x1E, 0) ∧ bytes (.vmulhsu 1 1 2 3 0) = some (0xFE, 0) := by decide +kernel

/-- The table under R203: conversions into d8. -/
theorem test_dcode : dcode (.rat 3 1) 7 0 = (0x47, flNX) ∧ dcode (.rat (-3) 1) 7 0 = (0xC7, flNX) ∧ dcode (.rat 550000 1) 7 0 = (0x7E, flNX) ∧
    dcode (.rat 2000000 1) 7 0 = (0x7F, flOr flDS flNX) ∧ dcode (.rat 4 10000000) 7 0 = (0, flOr flUF flNX) ∧
    dcode (.rat 6 10000000) 7 0 = (1, flNX) ∧ dcode (.rat 300 1) 7 2 = (0x47, flNX) := by decide +kernel

/-- The worked encode of the chapter on exact rationals, under entry 3. -/
def rationals (i : Instr) (n : Nat) : Option (List Nat) :=
  after i (vector (fun h => { h with
      run := some { aBlock with qcfg := 3 },
      vx := { h.vx with vtype := { vill := false, g := 0, ty := 4, sw := 3 },
                        v := [(4, leNat ([993410746256510417, 1117587089538574217, 2 ^ 64 - 1, 10].flatMap (leBytes 8))),
                              (8, leNat ([1, 2 ^ 64 - 7, 1, 10].flatMap (leBytes 8))), (12, leNat ([3, 4, 5, 1].flatMap (leBytes 8)))] } }))
    (fun t => (List.range 4).map (fun e => (t.h.el 64 n e).1))

theorem test_vqenc : rationals (.vqencVv 1 5 8 12 0) 5 = some [993410746256510417, 1117587089538574217, 2 ^ 64 - 1, 10] := by decide +kernel
theorem test_vqdec : rationals (.vqdec 1 16 4 0) 16 = some [1, 2 ^ 64 - 7, 0, 10] ∧ rationals (.vqdec 1 16 4 0) 17 = some [3, 4, 0, 1] := by decide +kernel
theorem test_vqdig : rationals (.vqdigVi 1 5 4 0 0) 5 = some [2, 2, 2 ^ 64 - 1, 0] := by decide +kernel
theorem test_vqval : rationals (.vqval 1 6 4 0) 6 = some [0, 0, 2 ^ 64 - 1, 1] := by decide +kernel

/-- The table under R236: kind codes of fp32 values. -/
theorem test_vfkind : [0, 0x80000000, 1, 0x80000001, 0x3F800000, 0xBF800000, 0x7F800000, 0xFF800000, 0x7FC00000, 0x7F800001].map fp32.kind
    = [0, 4, 1, 5, 2, 6, 3, 7, 8, 9] := by decide +kernel

/-- R335: a freed object number comes with the status OK. -/
theorem test_ofree : after (.ofree 3 2) (object start 256 (.latch (aLatch false 0xFFFF))) (fun t => (t.xr 3, t.obj 256)) = some (0xFFF00000, none) := by
  decide +kernel

/-- R352: a free latch is acquired with the next holding number. -/
theorem test_acq : after (.acq 3 2 4 0) (object start 256 (.latch (aLatch false 0xFFFF))) (fun t => (t.xr 3, t.h.holds)) =
    some (word (10 * 2 ^ 32 + 0xFFF * 2 ^ 20), [⟨256, 3, 10⟩]) := by decide +kernel

/-- R149: `tset.ready` refuses a tile that is READY. -/
theorem test_tset : after (.tsetReady 3 2) (withTile ⟨1, 0xFF, 2⟩) (fun t => t.xr 3) = some (word (2 * 2 ^ 32 + 16)) := by decide +kernel

end Sys2Proof.Tests
end

section
/-! PROOFS. `cfgwr` (R299 to R301): which of its outcomes a write has, and what each leaves. -/

namespace Sys2Proof.Machine

open Sys2Proof.Claims

/-! Fields of words -/

/-- The top bits of a word are clear where the word is below them. -/
theorem bits_top_eq_zero (v : Word) (k n : Nat) (h : k + n = 64) : bits v.toNat k n = 0 ↔ v.toNat < 2 ^ k := by
  have hd : v.toNat / 2 ^ k < 2 ^ n := Nat.div_lt_of_lt_mul (by rw [← Nat.pow_add, h]; exact v.isLt)
  rw [bits, Nat.mod_eq_of_lt hd, Nat.div_eq_zero_iff]
  simp

theorem bits_zero_low (x n : Nat) : bits x 0 n = x % 2 ^ n := by simp [bits]

/-- A word of at most two bits is what RCHK's field reads back. -/
theorem zeroExtend_ofNat_two (v : Word) (h : v.toNat < 4) : (BitVec.ofNat 2 v.toNat).zeroExtend 64 = v := by
  apply BitVec.eq_of_toNat_eq
  simp only [BitVec.truncate_eq_setWidth, BitVec.toNat_setWidth, BitVec.toNat_ofNat]
  omega

/-! The paths of `cfgwr` before its effect -/

section Paths

variable (s : State) (a : BitVec 5) (i : BitVec 12)

theorem exec_cfgwr : exec (.cfgwr a i) s = execCfgwr a i s := rfl

theorem cfgwr_unknown (h : cfgKnown i.toNat = false) : exec (.cfgwr a i) s = .next (s.trap cILLOP (cfgWordOf 1 0 a i)) := by
  simp [exec_cfgwr, execCfgwr, h]

theorem cfgwr_mode_too_low (hk : cfgKnown i.toNat = true) (hm : s.h.mode.code < cfgWriteMode i.toNat) :
    exec (.cfgwr a i) s = .next (s.trap cPROT (word i.toNat)) := by
  simp [exec_cfgwr, execCfgwr, hk, hm]

/-- No VOWN comes before an access of a hart that owns its lanes (R404). -/
theorem withLanes_of_ownsLanes {s : State} (h : OwnsLanes s) (pc : Word) (f : State → Out) : s.withLanes pc f = f s := by
  have hv : s.vown pc = some s := by
    unfold State.vown
    rcases h with h | h <;> simp [h]
  simp [State.withLanes, hv]

/-- The register belongs to the vector side's random numbers (R243). -/
def CfgRng (n : Nat) : Prop := 0x070 ≤ n ∧ n ≤ 0x074

/-- A write that the mode admits and that needs no other hart's lanes ends as the register says. -/
theorem cfgwr_admitted (hk : cfgKnown i.toNat = true) (hm : cfgWriteMode i.toNat ≤ s.h.mode.code) (hr : ¬CfgRng i.toNat)
    (ho : i.toNat ≤ 1 → s.h.released = true ∨ OwnsLanes s) :
    exec (.cfgwr a i) s = s.cfgEnd i.toNat (s.cfgSet i.toNat (s.xr a)) := by
  unfold CfgRng at hr
  simp only [exec_cfgwr, execCfgwr, hk, Nat.not_lt.mpr hm, hr, decide_eq_true_eq, Bool.and_eq_true, Bool.not_true, Bool.false_eq_true,
    if_false, Bool.not_eq_true']
  split
  · next h =>
    rcases ho h.1 with hrel | hown
    · simp [hrel] at h
    · exact withLanes_of_ownsLanes hown _ _
  · rfl

theorem cfgRng_index {n : Nat} (hr : CfgRng n) : cfgKnown n = true ∧ cfgWriteMode n = 0 := by
  obtain ⟨h1, h2⟩ := hr
  interval_cases n <;> exact ⟨rfl, rfl⟩

theorem cfgSet_rng (v : Word) (hr : CfgRng i.toNat) :
    s.cfgSet i.toNat v = .done (s.setH (fun h => h.setRng (i.toNat - 0x070) v)) := by
  obtain ⟨h1, h2⟩ := hr
  generalize i.toNat = n at h1 h2 ⊢
  interval_cases n <;> rfl

/-- A write of a key or counter of VRAND with an idle vector side is performed at once. -/
theorem cfgwr_rng (hr : CfgRng i.toNat) (hstop : s.h.stop = none) (hrun : s.h.run = none) (hq : s.h.queue = [])
    (ho : s.h.released = true ∨ OwnsLanes s) :
    exec (.cfgwr a i) s = .next (s.setH (fun h => h.setRng (i.toNat - 0x070) (s.xr a))).retire0 := by
  obtain ⟨hk, hm⟩ := cfgRng_index hr
  have hset := cfgSet_rng s i (s.xr a) hr
  unfold CfgRng at hr
  have hexec : exec (.cfgwr a i) s = s.cfgRng i.toNat (s.xr a) := by
    simp [exec_cfgwr, execCfgwr, hk, hm, hr]
  rw [hexec, State.cfgRng]
  simp only [State.meetsTrap, Hart.trapWaits, Hart.vectorBusy, hstop, hrun, hq, Option.isSome_none, Bool.false_and, Bool.false_eq_true,
    List.isEmpty_nil, Bool.not_true, Bool.or_self, if_false]
  split
  · rw [hset]; rfl
  · next hrel =>
    rw [withLanes_of_ownsLanes (ho.resolve_left hrel), hset]; rfl

end Paths

/-! What a completed write leaves -/

/-- A completion that changes nothing else. -/
theorem wentTo_retire0 (s : State) : WentTo s s.retire0 (s.h.pc + 4) := ⟨rfl, fun _ => rfl, rfl, rfl, fun _ => rfl⟩

theorem onlyHart_retire0 (s : State) : OnlyHart s s.retire0 := rfl

theorem cfgEnd_hart (s : State) (i : Nat) (ok : Bool) (f : Hart → Hart) :
    s.cfgEnd i (CfgRes.hart s ok f) = if ok then .next (s.setH f).retire0 else .next (s.trap cILLCFG (word i)) := by
  cases ok <;> rfl

theorem cfgEnd_readOnly (s : State) (i v rsv : Nat) :
    s.cfgEnd i (readOnly v rsv) = if v &&& rsv = 0 then .next s.retire0 else .next (s.trap cILLCFG (word i)) := by
  unfold readOnly; split <;> rfl

/-! The hart's registers -/

/-- A write of a register of the table sets one field of the hart, which is neither an x register nor the PC, where its value is legal. -/
structure WritesField (s : State) (v : Word) (e : Nat × (Nat → Bool) × (Hart → Word)) (f : Hart → Hart) : Prop where
  set : s.cfgSet e.1 v = CfgRes.hart s (e.2.1 v.toNat) f
  holds : e.2.1 v.toNat = true → e.2.2 (s.setH f).retire0.h = v
  x : (f s.h).x = s.h.x
  pc : (f s.h).pc = s.h.pc

theorem fxf_legal (v : Word) : (decide (bits v.toNat 29 35 = 0) && decide (bits v.toNat 19 5 = 0) && decide (bits v.toNat 10 6 = 0) &&
      decide (bits v.toNat 16 3 < 5)) =
    (decide (v.toNat < 2 ^ 29) && bits v.toNat 19 5 == 0 && decide (bits v.toNat 16 3 < 5) && bits v.toNat 10 6 == 0) := by
  rw [Bool.eq_iff_iff]
  simp only [Bool.and_eq_true, decide_eq_true_eq, beq_iff_eq, bits_top_eq_zero v 29 35 rfl]
  tauto

theorem rchk_legal (x : Nat) (b : Bool) : (decide (x < 3) && (decide (x ≠ 2) || b)) = (decide (x < 2) || x == 2 && b) := by
  rw [Bool.eq_iff_iff]
  simp only [Bool.and_eq_true, Bool.or_eq_true, decide_eq_true_eq, beq_iff_eq]
  constructor
  · rintro ⟨hx, hne | hb⟩
    · omega
    · exact (Nat.lt_succ_iff_lt_or_eq.mp hx).imp_right (⟨·, hb⟩)
  · rintro (hx | ⟨hx, hb⟩)
    · omega
    · exact ⟨by omega, .inr hb⟩

theorem tvec_legal (x : Nat) : (decide (bits x 0 2 = 0) || decide (bits x 0 2 = 1) && decide (bits x 2 4 = 0)) =
    (decide (x % 4 = 0) || decide (x % 64 = 1)) := by
  rw [Bool.eq_iff_iff]
  simp only [Bool.and_eq_true, Bool.or_eq_true, decide_eq_true_eq]
  unfold bits
  omega

theorem tstat_legal (x : Nat) : (decide (x < 2 ^ 3) && decide (bits x 0 2 < 3)) = (decide (x < 2 ^ 3) && decide (x % 4 < 3)) := by
  rw [bits_zero_low, show 2 ^ 2 = 4 from rfl]

theorem rchk_holds (v : Word) (b : Bool) (h : (decide (v.toNat < 2) || v.toNat == 2 && b) = true) :
    (BitVec.ofNat 2 v.toNat).zeroExtend 64 = v := by
  refine zeroExtend_ofNat_two v ?_
  simp only [Bool.or_eq_true, Bool.and_eq_true, decide_eq_true_eq, beq_iff_eq] at h
  omega

/-- Every row of the table is such a register; the rows of FXF, TVEC, TSTAT and RCHK spell their legal values in another way. -/
theorem cfgTable_writesField (s : State) (v : Word) : ∀ e ∈ cfgTable s, ∃ f, WritesField s v e f := by
  simp only [cfgTable, List.forall_mem_cons]
  exact ⟨⟨_, rfl, fun _ => rfl, rfl, rfl⟩,
    ⟨_, congrArg (CfgRes.hart s · _) (fxf_legal v), fun _ => rfl, rfl, rfl⟩,
    ⟨_, rfl, fun _ => rfl, rfl, rfl⟩,
    ⟨_, rfl, fun _ => rfl, rfl, rfl⟩,
    ⟨_, rfl, fun _ => rfl, rfl, rfl⟩,
    ⟨_, congrArg (CfgRes.hart s · _) (tvec_legal v.toNat), fun _ => rfl, rfl, rfl⟩,
    ⟨_, rfl, fun _ => rfl, rfl, rfl⟩,
    ⟨_, rfl, fun _ => rfl, rfl, rfl⟩,
    ⟨_, rfl, fun _ => rfl, rfl, rfl⟩,
    ⟨_, congrArg (CfgRes.hart s · _) (tstat_legal v.toNat), fun _ => rfl, rfl, rfl⟩,
    ⟨_, congrArg (CfgRes.hart s · _) (rchk_legal v.toNat _), rchk_holds v _, rfl, rfl⟩,
    ⟨_, rfl, fun _ => rfl, rfl, rfl⟩,
    nofun⟩

/-- `cfgrd` reads a register of the table where the table says it is kept. -/
theorem cfgValue_of_cfgTable (s t : State) : ∀ e ∈ cfgTable s, t.cfgValue e.1 = e.2.2 t.h := by
  simp [cfgTable, State.cfgValue]

theorem cfgTable_index (s : State) : ∀ e ∈ cfgTable s, cfgKnown e.1 = true ∧ ¬CfgRng e.1 ∧ ¬e.1 ≤ 1 := by
  simp [cfgTable, cfgKnown, CfgRng]

theorem cfgwr_cfgTable (s : State) (a : BitVec 5) (i : BitVec 12) (e) (he : e ∈ cfgTable s) (hi : i.toNat = e.1)
    (hm : cfgWriteMode e.1 ≤ s.h.mode.code) :
    exec (.cfgwr a i) s = s.cfgEnd e.1 (s.cfgSet e.1 (s.xr a)) := by
  obtain ⟨hk, hr, h1⟩ := cfgTable_index s e he
  rw [← hi] at hk hr h1 hm ⊢
  exact cfgwr_admitted s a i hk hm hr (absurd · h1)

/-- The clause of the table: the value, what a `cfgrd` reads, the PC, and nothing else. -/
theorem cfgwr_cfgTable_legal (s : State) (a : BitVec 5) (i : BitVec 12) (e) (he : e ∈ cfgTable s) (hi : i.toNat = e.1)
    (hm : cfgWriteMode e.1 ≤ s.h.mode.code) (hv : e.2.1 (s.xr a).toNat = true) :
    ∃ t, exec (.cfgwr a i) s = .next t ∧ e.2.2 t.h = s.xr a ∧ t.cfgValue e.1 = s.xr a ∧ t.h.pc = s.h.pc + 4 ∧
      (∀ r : BitVec 5, t.xr r = s.xr r) ∧ OnlyHart s t := by
  obtain ⟨f, hset, holds, hx, hpc⟩ := cfgTable_writesField s (s.xr a) e he
  refine ⟨(s.setH f).retire0, ?_, holds hv, ?_, ?_, ?_, rfl⟩
  · rw [cfgwr_cfgTable s a i e he hi hm, hset, cfgEnd_hart, if_pos hv]
  · rw [cfgValue_of_cfgTable s _ e he, holds hv]
  · simp [hpc]
  · intro r; simp [State.xr, Hart.xr, hx]

theorem cfgwr_cfgTable_illegal (s : State) (a : BitVec 5) (i : BitVec 12) (e) (he : e ∈ cfgTable s) (hi : i.toNat = e.1)
    (hm : cfgWriteMode e.1 ≤ s.h.mode.code) (hv : e.2.1 (s.xr a).toNat = false) :
    exec (.cfgwr a i) s = .next (s.trap cILLCFG (word e.1)) := by
  obtain ⟨f, hset, -, -, -⟩ := cfgTable_writesField s (s.xr a) e he
  rw [cfgwr_cfgTable s a i e he hi hm, hset, cfgEnd_hart, if_neg (by simp [hv])]

/-! QCFG -/

/-- The legal values of QCFG (R248): no reserved bit, and an entry below 8. -/
theorem qcfg_legal (v : Word) :
    (decide (bits v.toNat 22 42 = 0) && decide (bits v.toNat 10 6 = 0) && decide (bits v.toNat 4 4 = 0) && decide (bits v.toNat 0 4 < 8)) =
      decide (v.toNat < 2 ^ 22 ∧ bits v.toNat 10 6 = 0 ∧ bits v.toNat 4 4 = 0 ∧ v.toNat % 16 < 8) := by
  rw [Bool.eq_iff_iff]
  simp only [Bool.and_eq_true, decide_eq_true_eq, bits_top_eq_zero v 22 42 rfl, bits_zero_low, and_assoc, Nat.reducePow]

theorem cfgSet_qcfg (s : State) (v : Word) :
    s.cfgSet 0x011 v = CfgRes.hart s (decide (v.toNat < 2 ^ 22 ∧ bits v.toNat 10 6 = 0 ∧ bits v.toNat 4 4 = 0 ∧ v.toNat % 16 < 8))
      (fun h => { h with qcfg := word (setBits v.toNat 16 6 0) }) :=
  congrArg (CfgRes.hart s · _) (qcfg_legal v)

theorem cfgwr_qcfg (s : State) (a : BitVec 5) :
    exec (.cfgwr a 0x011) s = s.cfgEnd 0x011 (s.cfgSet 0x011 (s.xr a)) :=
  cfgwr_admitted s a 0x011 rfl (Nat.zero_le _) (by simp [CfgRng]) (by simp)

/-! VRAND -/

/-- What a write of a key or counter leaves for the forager to read. -/
theorem cfgValue_setRng (s t : State) (n : Nat) (v : Word) (hr : CfgRng n) (ht : t.h.seen = (s.h.setRng (n - 0x070) v).seen) :
    t.cfgValue n = v := by
  obtain ⟨h1, h2⟩ := hr
  interval_cases n <;> simp [State.cfgValue, ht, Hart.setRng]

theorem setRng_vx_v (h : Hart) (n : Nat) (v : Word) : (h.setRng n v).vx.v = h.vx.v := by
  unfold Hart.setRng; split <;> rfl

theorem cfgwr_rng_results (s : State) (a : BitVec 5) (i : BitVec 12) (hr : CfgRng i.toNat) (hstop : s.h.stop = none)
    (hrun : s.h.run = none) (hq : s.h.queue = []) (ho : s.h.released = true ∨ OwnsLanes s) :
    ∃ t, exec (.cfgwr a i) s = .next t ∧ t.cfgValue i.toNat = s.xr a ∧ t.h.pc = s.h.pc + 4 ∧ (∀ r : BitVec 5, t.xr r = s.xr r) ∧
      t.h.vx.v = s.h.vx.v ∧ OnlyHart s t ∧ SameBytes s t :=
  ⟨_, cfgwr_rng s a i hr hstop hrun hq ho, cfgValue_setRng s _ _ _ hr rfl, rfl, fun _ => rfl, setRng_vx_v s.h _ _, rfl, fun _ => rfl⟩

/-! Registers that take no write -/

theorem cfgFixed_index (s : State) (v : Word) : ∀ e ∈ cfgFixed, cfgKnown e.1 = true ∧ cfgWriteMode e.1 = 0 ∧ ¬CfgRng e.1 ∧
    s.cfgSet e.1 v = readOnly v.toNat e.2 := by
  simp [cfgFixed, cfgKnown, cfgWriteMode, CfgRng, State.cfgSet]

theorem cfgwr_cfgFixed (s : State) (a : BitVec 5) (i : BitVec 12) (e) (he : e ∈ cfgFixed) (hi : i.toNat = e.1)
    (ho : s.h.released = true ∨ OwnsLanes s) :
    exec (.cfgwr a i) s =
      if (s.xr a).toNat &&& e.2 = 0 then .next s.retire0 else .next (s.trap cILLCFG (word e.1)) := by
  obtain ⟨hk, hm, hr, hset⟩ := cfgFixed_index s (s.xr a) e he
  rw [← hi] at hk hm hr hset ⊢
  rw [cfgwr_admitted s a i hk (by omega) hr (fun _ => ho), hset, cfgEnd_readOnly]

/-- GTB, HID, TID and the weight slots. -/
def cfgNeverWritten : List Nat := [0x022, 0x030, 0x031, 0x090, 0x091, 0x092, 0x093]

theorem cfgNeverWritten_index (s : State) (v : Word) : ∀ n ∈ cfgNeverWritten, cfgKnown n = true ∧ cfgWriteMode n = 0 ∧ ¬CfgRng n ∧ ¬n ≤ 1 ∧
    s.cfgSet n v = .trap cILLCFG := by
  simp [cfgNeverWritten, cfgKnown, cfgWriteMode, CfgRng, State.cfgSet]

theorem cfgwr_neverWritten (s : State) (a : BitVec 5) (i : BitVec 12) (hi : i.toNat ∈ cfgNeverWritten) :
    exec (.cfgwr a i) s = .next (s.trap cILLCFG (word i.toNat)) := by
  obtain ⟨hk, hm, hr, h1, hset⟩ := cfgNeverWritten_index s (s.xr a) _ hi
  rw [cfgwr_admitted s a i hk (by omega) hr (absurd · h1), hset]
  rfl

/-! The hub's registers -/

theorem cfgHubTable_index (s : State) (x : Nat) : ∀ e ∈ cfgHubTable s x, cfgKnown e.1 = true ∧ cfgWriteMode e.1 = 2 ∧ ¬CfgRng e.1 ∧ ¬e.1 ≤ 1 := by
  simp [cfgHubTable, cfgKnown, cfgWriteMode, CfgRng]

/-- A register of the hub takes its legal values in PHASE 6 (R451). -/
theorem cfgSet_cfgHubTable (s : State) (v : Word) : ∀ e ∈ cfgHubTable s v.toNat,
    s.cfgSet e.1 v = if s.hub.phase = 6 ∧ e.2.1 = true then .done { s with hub := e.2.2 } else .trap cILLCFG := by
  have hfeat : v.toNat &&& 0x3F = v.toNat % 64 := Nat.and_two_pow_sub_one_eq_mod v.toNat 6
  simp [cfgHubTable, State.cfgSet, State.setHub, hfeat]

theorem cfgwr_cfgHubTable (s : State) (a : BitVec 5) (i : BitVec 12) (hmode : s.h.mode = .d) (e) (he : e ∈ cfgHubTable s (s.xr a).toNat)
    (hi : i.toNat = e.1) :
    exec (.cfgwr a i) s = if s.hub.phase = 6 ∧ e.2.1 = true then .next ({ s with hub := e.2.2 } : State).retire0
      else .next (s.trap cILLCFG (word e.1)) := by
  obtain ⟨hk, hm, hr, h1⟩ := cfgHubTable_index s _ e he
  have hset := cfgSet_cfgHubTable s (s.xr a) e he
  rw [← hi] at hk hm hr h1 hset ⊢
  rw [cfgwr_admitted s a i hk (by rw [hm, hmode]; exact Nat.le_refl 2) hr (absurd · h1), hset]
  split <;> rfl

/-! The tenant window -/

/-- A write of the tenant window leaves the hart in hand alone. -/
@[simp] theorem State.h_vfWrite (s : State) (tag off : Nat) (v : Word) : (s.vfWrite tag off v).h = s.h := by
  have htinv : (s.tinvWrite tag v).h = s.h := by simp only [State.tinvWrite]; split_ifs <;> rfl
  have hroreq : (s.roreqWrite tag v).h = s.h := by unfold State.roreqWrite; split_ifs <;> rfl
  simp only [State.vfWrite]
  split_ifs
  · rfl
  · exact htinv
  · rfl
  · rfl
  · rfl
  · rfl
  · exact hroreq
  · rfl

theorem cfgSet_window (s : State) (n : Nat) (v : Word) (h : 0x100 ≤ n) : s.cfgSet n v = s.windowWrite ((n - 0x100) * 8) v := by
  unfold State.cfgSet
  split
  case h_22 =>
    rw [if_neg (by simp only [Bool.and_eq_true, decide_eq_true_eq]; omega), if_pos h]
  all_goals exact absurd h (by decide)

theorem cfgwr_window (s : State) (a : BitVec 5) (i : BitVec 12) (hmode : s.h.mode ≠ .a) (hlo : 0x100 ≤ i.toNat) (hhi : i.toNat < 0x200) :
    exec (.cfgwr a i) s = s.cfgEnd i.toNat (s.windowWrite ((i.toNat - 0x100) * 8) (s.xr a)) := by
  have hk : cfgKnown i.toNat = true := by simp [cfgKnown, hlo]; omega
  have hw : cfgWriteMode i.toNat = 1 := by simp [cfgWriteMode, hlo]
  have hm : 1 ≤ s.h.mode.code := by cases h : s.h.mode <;> simp_all [Mode.code]
  rw [cfgwr_admitted s a i hk (by omega) (by unfold CfgRng; omega) (by omega), cfgSet_window s _ _ hlo]

theorem windowWrite_host (s : State) (off : Nat) (v : Word) (h : 0x400 ≤ off ∧ off < 0x600) : s.windowWrite off v = .trap cPROT := by
  simp [State.windowWrite, h]

theorem windowWrite_ignored (s : State) (off : Nat) (v : Word) (h : ¬(0x400 ≤ off ∧ off < 0x600)) (hoff : off ∉ windowWritten) :
    s.windowWrite off v = .ignored := by
  simp only [windowWritten, List.mem_cons, List.not_mem_nil, or_false, not_or] at hoff
  simp [State.windowWrite, h, hoff]

theorem windowWrite_written (s : State) (off : Nat) (v : Word) (hoff : off ∈ windowWritten) :
    s.windowWrite off v = if v &&& ~~~vfMask off = 0 then .done (s.vfWrite s.h.tid off v) else .trap cILLCFG := by
  have hhost : ¬(0x400 ≤ off ∧ off < 0x600) := (by decide : ∀ n ∈ windowWritten, ¬(0x400 ≤ n ∧ n < 0x600)) off hoff
  simp only [windowWritten, List.mem_cons, List.not_mem_nil, or_false] at hoff
  simp only [State.windowWrite, windowRsv, Bool.and_eq_true, decide_eq_true_eq, hhost, if_false, Bool.or_eq_true, or_assoc, hoff, if_true]
  rfl

end Sys2Proof.Machine

namespace Sys2Proof.Claims

open Sys2Proof.Machine

/-- Settles O16: each clause is the outcome of its kind of register, and `cfgwr_admitted` brings a write there. -/
theorem controlWrites : Obligations.ControlWrites := by
  unfold Obligations.ControlWrites
  refine ⟨cfgwr_mode_too_low, ?table, ?qcfg, ?rng, ?rest, ?hub, ?window⟩
  case table =>
    intro s a i e he hi hm
    exact ⟨cfgwr_cfgTable_illegal s a i e he hi hm, cfgwr_cfgTable_legal s a i e he hi hm⟩
  case qcfg =>
    intro s a x
    rw [cfgwr_qcfg, cfgSet_qcfg, cfgEnd_hart]
    exact ⟨fun hx => ⟨_, if_pos (decide_eq_true hx), rfl, rfl, fun _ => rfl, rfl⟩, fun hx => if_neg (mt of_decide_eq_true hx)⟩
  case rng =>
    intro s a i hlo hhi
    exact cfgwr_rng_results s a i ⟨hlo, hhi⟩
  case rest =>
    intro s a i
    refine ⟨?_, cfgwr_neverWritten s a i, cfgwr_unknown s a i⟩
    intro e he hi ho
    rw [cfgwr_cfgFixed s a i e he hi ho]
    exact ⟨fun h => ⟨_, if_pos h, wentTo_retire0 s⟩, fun h => if_neg h⟩
  case hub =>
    intro s a i hmode e he hi
    rw [cfgwr_cfgHubTable s a i hmode e he hi]
    refine ⟨fun hp hl => ⟨_, if_pos ⟨hp, hl⟩, wentTo_retire0 _⟩, fun h => if_neg ?_⟩
    rintro ⟨hp, hl⟩
    simp [hp, hl] at h
  case window =>
    intro s a i hmode hlo hhi off
    have hexec := cfgwr_window s a i hmode hlo hhi
    refine ⟨fun h1 h2 => ?_, fun hoff hv => ?_, fun hoff hv => ?_, fun hhost hoff => ?_⟩
    · rw [hexec, windowWrite_host s _ _ ⟨h1, h2⟩]; rfl
    · rw [windowWrite_written s _ _ hoff, if_pos hv] at hexec
      exact ⟨_, hexec, by simp, fun r => by simp [State.xr, Hart.xr], onlyHart_retire0 _⟩
    · rw [hexec, windowWrite_written s _ _ hoff, if_neg hv]; rfl
    · rw [windowWrite_ignored s _ _ hhost hoff] at hexec
      exact ⟨_, hexec, wentTo_retire0 s⟩

end Sys2Proof.Claims
end

section
/-! PROOFS. Laws that the proofs about the package share: folds, the harts by id, trace records and counters, and the results that are
sent to harts. -/

namespace Sys2Proof.Machine

open Sys2Proof.Claims

/-- What every step of a fold keeps, the fold keeps. -/
theorem foldl_keeps {α β γ : Type} (g : α → γ) (f : α → β → α) (h : ∀ a b, g (f a b) = g a) (l : List β) (a : α) :
    g (l.foldl f a) = g a := by
  induction l generalizing a with
  | nil => rfl
  | cons b l ih => rw [List.foldl_cons, ih, h]

/-! Harts by id -/

theorem State.hart_self {s : State} {hid : Nat} (hl : s.h.live = true) (hh : s.h.hid = hid) : s.hart hid = some s.h := by
  simp [State.hart, State.harts, hl, hh]

theorem State.hold_self {s : State} {hid : Nat} (hl : s.h.live = true) (hh : s.h.hid = hid) : s.hold hid = s := by
  simp [State.hold, hl, hh]

theorem State.hid_of_hart {s : State} {n : Nat} {k : Hart} (h : s.hart n = some k) : k.hid = n := by
  simpa using List.find?_some h

/-- The harts are those of another state with the same hart in hand and the same others. -/
theorem hart_congr {s t : State} (hh : t.h = s.h) (hp : t.pool = s.pool) (n : Nat) : t.hart n = s.hart n := by
  simp only [State.hart, State.harts, hh, hp]

/-- A change made to every hart is a change of their list. -/
theorem harts_of_map {s t : State} {f : Hart → Hart} (hlive : (f s.h).live = s.h.live) (hh : t.h = f s.h) (hp : t.pool = s.pool.map f) :
    t.harts = s.harts.map f := by
  unfold State.harts
  rw [hh, hp, hlive]
  split <;> rfl

/-- A change of harts that leaves ids and lives alone is seen by id. -/
theorem hart_of_map {s t : State} {f : Hart → Hart} (hlive : ∀ k, (f k).live = k.live) (hhid : ∀ k, (f k).hid = k.hid) (hh : t.h = f s.h)
    (hp : t.pool = s.pool.map f) (n : Nat) : t.hart n = (s.hart n).map f := by
  rw [State.hart, harts_of_map (hlive _) hh hp, List.find?_map, State.hart]
  congr 2
  funext k
  simp [hhid]

section OneHart

variable {f : Hart → Hart} (hlive : ∀ k, (f k).live = k.live) (hhid : ∀ k, (f k).hid = k.hid)

include hlive in
theorem live_onHid (n : Nat) (k : Hart) : (onHid n f k).live = k.live := by
  unfold onHid; split
  · exact hlive k
  · rfl

include hhid in
theorem hid_onHid (n : Nat) (k : Hart) : (onHid n f k).hid = k.hid := by
  unfold onHid; split
  · exact hhid k
  · rfl

include hlive hhid

/-- The hart that an update names is changed. -/
theorem hart_updHart_self {s : State} {n : Nat} {k : Hart} (h : s.hart n = some k) (hk : k.live = true) :
    (s.updHart n f).hart n = some (f k) := by
  rw [hart_of_map (s := s) (live_onHid hlive n) (hid_onHid hhid n) rfl rfl, h]
  simp [onHid, hk, State.hid_of_hart h]

/-- Every other hart is as it was. -/
theorem hart_updHart_other (s : State) {n m : Nat} (h : m ≠ n) : (s.updHart n f).hart m = s.hart m := by
  rw [hart_of_map (s := s) (live_onHid hlive n) (hid_onHid hhid n) rfl rfl]
  cases hm : s.hart m with
  | none => rfl
  | some k => simp [onHid, State.hid_of_hart hm, h]

end OneHart

theorem updHart_id (s : State) (n : Nat) : s.updHart n (fun k => k) = s := by
  have h : onHid n (fun k => k) = id := by funext k; simp [onHid]
  simp [State.updHart, h]

/-! Trace records and counters -/

/-- A trace record writes bytes of its ring, and nothing else of the machine. -/
theorem trace_only (s : State) (a b c d e : Nat) (p v : Word) :
    { s.trace a b c d e p v with mem := s.mem, psn := s.psn, ecc := s.ecc, tableRep := s.tableRep, hub := s.hub } = s := by
  unfold State.trace
  split
  · rfl
  · split
    · rfl
    · simp only []
      split <;> rfl

section Trace

variable (s : State) (k : Hart) (a b : Nat) (p v : Word)

@[simp] theorem State.h_traceHart : (s.traceHart k a b p v).h = s.h := (congrArg State.h (trace_only s k.tid k.hid (dieOfCore k.core) a b p v) :)
@[simp] theorem State.pool_traceHart : (s.traceHart k a b p v).pool = s.pool := (congrArg State.pool (trace_only s k.tid k.hid (dieOfCore k.core) a b p v) :)
@[simp] theorem State.gtb_traceHart : (s.traceHart k a b p v).gtb = s.gtb := (congrArg State.gtb (trace_only s k.tid k.hid (dieOfCore k.core) a b p v) :)
@[simp] theorem State.tenants_traceHart : (s.traceHart k a b p v).tenants = s.tenants := (congrArg State.tenants (trace_only s k.tid k.hid (dieOfCore k.core) a b p v) :)

end Trace

/-- A counter changes the blocks of tenants only. -/
theorem count_only (s : State) (t i n : Nat) : { s.count t i n with tenants := s.tenants } = s := by
  unfold State.count; split <;> rfl

@[simp] theorem State.h_count (s : State) (t i n : Nat) : (s.count t i n).h = s.h := (congrArg State.h (count_only s t i n) :)
@[simp] theorem State.pool_count (s : State) (t i n : Nat) : (s.count t i n).pool = s.pool := (congrArg State.pool (count_only s t i n) :)
@[simp] theorem State.gtb_count (s : State) (t i n : Nat) : (s.count t i n).gtb = s.gtb := (congrArg State.gtb (count_only s t i n) :)
@[simp] theorem State.objs_count (s : State) (t i n : Nat) : (s.count t i n).objs = s.objs := (congrArg State.objs (count_only s t i n) :)
@[simp] theorem State.regions_count (s : State) (t i n : Nat) : (s.count t i n).regions = s.regions := (congrArg State.regions (count_only s t i n) :)

theorem setX_hid_live (h : Hart) (d : Nat) (v : Word) : (h.setX d v).hid = h.hid ∧ (h.setX d v).live = h.live :=
  ⟨(congrArg Hart.hid (setX_only h d v) :), (congrArg Hart.live (setX_only h d v) :)⟩

/-! The outcome of a wait -/

theorem answer_hid_live (h : Hart) (time : Nat) (v : Word) : (h.answer time v).hid = h.hid ∧ (h.answer time v).live = h.live := by
  unfold Hart.answer
  split
  · exact ⟨rfl, rfl⟩
  · split
    · exact setX_hid_live h ..
    · exact ⟨rfl, rfl⟩

/-- An outcome delivered to a bound hart, or kept by an unbound one (R277, R289). -/
theorem received_answer {h : Hart} {w : Wait} (time : Nat) (v : Word) (hw : h.wait = some w) : Received time h w v (h.answer time v) := by
  unfold Received Hart.answer
  rw [hw]
  by_cases hslot : h.slot.isSome = true
  · simp only [hslot, if_true]
    refine ⟨rfl, rfl, rfl, fun r => ?_, ?_⟩
    · refine (xr_setX h w.dst r v).trans ?_
      by_cases hr : r = w.dst
      · by_cases h0 : r = 0
        · simp [← hr, h0]
        · simp [← hr, h0]
      · simp [hr]
    · rw [← hw]
      unfold Hart.deliver Hart.setX
      split <;> rfl
  · simp only [hslot, Bool.false_eq_true, if_false]
    exact ⟨trivial, trivial, by rw [← hw]⟩

/-- A hart that waits receives the outcome sent to it: with its trace record, and nothing changes but harts and counters. -/
theorem answer_waitsIn {s : State} {hid : Nat} {h : Hart} {w : Wait} (hw : WaitsIn s hid h w) (v : Word) :
    Answered s (s.answer hid v) hid h w v ∧ OnlyHarts (s.traceHart h 5 0 h.pc v) (s.answer hid v) := by
  obtain ⟨hh, hlive, hwait, hans⟩ := hw
  let s1 := (s.traceHart h 5 0 h.pc v).updHart hid (fun k => k.answer s.gtb v)
  have hs : s.answer hid v = if h.slot.isSome then s1.count h.tid 1 1 else s1 := by
    have : h.waiting = true := by simp [Hart.waiting, hwait, hans]
    simp [State.answer, hh, this, s1]
  have hkeep : ∀ k : Hart, (k.answer s.gtb v).live = k.live := fun k => (answer_hid_live k _ _).2
  have hsame : ∀ k : Hart, (k.answer s.gtb v).hid = k.hid := fun k => (answer_hid_live k _ _).1
  have hht : ∀ n, (s.answer hid v).hart n = s1.hart n := fun n => by rw [hs]; split <;> apply hart_congr <;> simp
  have htr : ∀ n, (s.traceHart h 5 0 h.pc v).hart n = s.hart n := hart_congr (by simp) (by simp)
  refine ⟨⟨⟨_, ?_, received_answer s.gtb v hwait⟩, fun n hn => ?_⟩, ?_⟩
  · rw [hht, hart_updHart_self hkeep hsame ((htr hid).trans hh) hlive]
  · rw [hht, hart_updHart_other hkeep hsame _ hn, htr]
  · rw [hs, OnlyHarts]
    split
    · exact congrArg (fun t => { t with h := (s.traceHart h 5 0 h.pc v).h, pool := (s.traceHart h 5 0 h.pc v).pool })
        (count_only s1 h.tid 1 1)
    · rfl

/-- A die that answers sends the result at once. -/
theorem respond_now {s : State} {w : Wait} (hid : Nat) (v : Word) (h : AnswersNow s w) : s.respond hid w v 0 none = s.answer hid v := by
  have htakes : s.updHart hid (fun h => h.takes 0 none) = s := updHart_id s hid
  unfold State.respond
  split
  · rw [htakes]
  · next d hd => rw [if_pos (h d hd), htakes]

/-- A late die keeps the result of a request that has none yet. -/
theorem respond_late {s : State} {hid : Nat} {w : Wait} {d : Nat} (v : Word) (hd : w.kind.decidedAt = some d) (hl : (s.die d).late ≠ 0)
    (hu : Undecided s hid w) : s.respond hid w v 0 none = { s with slow := s.slow ++ [⟨d, hid, w.issued, v, 0, none⟩] } := by
  have hnone : s.slow.any (fun r => r.hid == hid && r.tick == w.issued) = false := by
    simpa [Undecided] using hu
  simp [State.respond, hd, hl, hnone]

theorem answerIf_waitsIn {s : State} {hid : Nat} {h : Hart} {w : Wait} {p : WaitKind → Bool} (hw : WaitsIn s hid h w) (hp : p w.kind = true)
    (v : Word) : s.answerIf hid p v = s.respond hid w v 0 none := by
  obtain ⟨hh, -, hwait, -⟩ := hw
  simp [State.answerIf, hh, hwait, hp]

theorem answerTick_waitsIn {s : State} {hid : Nat} {h : Hart} {w : Wait} {p : WaitKind → Bool} (hw : WaitsIn s hid h w)
    (hp : p w.kind = true) (v : Word) (f : Nat) : s.answerTick hid w.issued p v f = s.respond hid w v f none := by
  obtain ⟨hh, -, hwait, -⟩ := hw
  simp [State.answerTick, hh, hwait, hp]

/-- The harts of two states agree: one waits, and receives its outcome, in both or neither. -/
theorem waitsIn_congr {s t : State} {hid : Nat} {h : Hart} {w : Wait} (hw : WaitsIn s hid h w) (ht : t.hart hid = s.hart hid) :
    WaitsIn t hid h w := ⟨ht.trans hw.1, hw.2⟩

theorem answered_congr {s t u : State} {hid : Nat} {h : Hart} {w : Wait} {v : Word} (ha : Answered s u hid h w v)
    (ht : ∀ n, s.hart n = t.hart n) (hg : s.gtb = t.gtb) : Answered t u hid h w v := by
  obtain ⟨⟨k, hk, hr⟩, ho⟩ := ha
  exact ⟨⟨k, hk, hg ▸ hr⟩, fun n hn => (ho n hn).trans (ht n)⟩

/-! What the sending of results leaves alone -/

/-- The state without what the sending of a result may change: harts, the blocks of tenants, the results that late dies keep, frames, and the
bytes of trace rings. -/
def State.unsent (s : State) : State :=
  { s with h := Hart.blank, pool := [], tenants := [], slow := [], outbox := [], hub := Hub.reset, mem := [], psn := [], ecc := [],
           tableRep := [] }

theorem unsent_traceHart (s : State) (k : Hart) (a b : Nat) (p v : Word) : (s.traceHart k a b p v).unsent = s.unsent :=
  (congrArg State.unsent (trace_only s k.tid k.hid (dieOfCore k.core) a b p v) :)

theorem unsent_count (s : State) (t i n : Nat) : (s.count t i n).unsent = s.unsent := (congrArg State.unsent (count_only s t i n) :)

theorem unsent_answer (s : State) (hid : Nat) (v : Word) : (s.answer hid v).unsent = s.unsent := by
  unfold State.answer
  split
  · rfl
  · next h _ =>
    split
    · simp only []
      split
      · exact (unsent_count ..).trans (unsent_traceHart s h 5 0 h.pc v)
      · exact unsent_traceHart s h 5 0 h.pc v
    · rfl

theorem unsent_respond (s : State) (hid : Nat) (w : Wait) (v : Word) (f : Nat) (x : Option Holding) :
    (s.respond hid w v f x).unsent = s.unsent := by
  unfold State.respond
  split
  · exact unsent_answer ..
  · split
    · exact unsent_answer ..
    · split <;> rfl

theorem unsent_answerIf (s : State) (hid : Nat) (p : WaitKind → Bool) (v : Word) : (s.answerIf hid p v).unsent = s.unsent := by
  unfold State.answerIf
  split
  · split
    · exact unsent_respond ..
    · rfl
  · rfl

theorem unsent_answerTick (s : State) (hid tick : Nat) (p : WaitKind → Bool) (v : Word) (f : Nat) :
    (s.answerTick hid tick p v f).unsent = s.unsent := by
  unfold State.answerTick
  split
  · split
    · exact unsent_respond ..
    · rfl
  · rfl

theorem unsent_sendFrame (s : State) (kind dst tag target : Nat) (l : List Byte) : (s.sendFrame kind dst tag target l).unsent = s.unsent := by
  unfold State.sendFrame
  simp only []
  split <;> rfl

theorem unsent_fabricResult (s : State) (o : Obj) (far tick : Nat) (v : Word) (f : Nat) : (s.fabricResult o far tick v f).unsent = s.unsent := by
  unfold State.fabricResult State.fabricReply
  split
  · exact unsent_sendFrame ..
  · rfl

theorem unsent_sendStep (s : State) (off : Nat) (o : Obj) (f : Nat) (e : StepRes) : (s.sendStep off o f e).unsent = s.unsent := by
  unfold State.sendStep
  split
  · exact unsent_fabricResult ..
  · exact unsent_answerTick ..

theorem unsent_sendResult (s : State) (off hid : Nat) (v : Word) : (s.sendResult off hid v).unsent = s.unsent := by
  unfold State.sendResult
  split
  · split
    · exact unsent_sendFrame ..
    · rfl
  · split
    · rfl
    · exact unsent_answerIf ..

/-! Tables, marks and bits -/

/-- A table written at a list of keys: what each key then reads. -/
theorem Tab.get_foldl_set {α : Type} [DecidableEq α] (d : α) (f : Nat → α) (l : List Nat) (t : Tab α) (x : Nat) :
    Tab.get d (l.foldl (fun t u => Tab.set d t u (f u)) t) x = if x ∈ l then f x else Tab.get d t x := by
  induction l generalizing t with
  | nil => simp
  | cons u l ih =>
    rw [List.foldl_cons, ih, Tab.get_set]
    by_cases hx : x = u
    · simp [hx]
    · simp [hx]

theorem get_putMarks (p : Tab Bool) (b : Bool) (l : List Nat) (x : Nat) :
    Tab.get false (putMarks p b l) x = if x ∈ l then b else Tab.get false p x := Tab.get_foldl_set false (fun _ => b) l p x

theorem get_marksAfter_other (p : Tab Bool) (a n : Nat) (b : Bool) {x : Nat} (h : x ∉ unitsOf a n) :
    Tab.get false (marksAfter p a n b) x = Tab.get false p x := by
  unfold marksAfter
  split <;> rw [get_putMarks, if_neg]
  · exact h
  · exact fun hx => h (List.mem_filter.mp hx).1

theorem get_eccAfter_other (ecc : Tab Nat) (a n : Nat) {x : Nat} (h : x ∉ unitsOf a n) : Tab.get 0 (eccAfter ecc a n) x = Tab.get 0 ecc x := by
  unfold eccAfter
  split
  · next he => rw [he]
  · rw [Tab.get_foldl_set 0 (fun _ => 0), if_neg]
    exact fun hx => h (List.mem_filter.mp hx).1

theorem Tab.get_map {α : Type} (f : α → α) (t : Tab (Option α)) (k : Nat) :
    Tab.get none (t.map (fun e => (e.1, e.2.map f))) k = (Tab.get none t k).map f := by
  unfold Tab.get
  induction t with
  | nil => rfl
  | cons e t ih =>
    simp only [List.map_cons, Tab.find]
    split
    · rfl
    · exact ih

theorem bit_setBit_self (x i : Nat) (b : Bool) : bit (setBit x i b) i = b := by
  have hp : 0 < 2 ^ i := Nat.pow_pos (by decide)
  have h : setBit x i b / 2 ^ i = x / 2 ^ i - x / 2 ^ i % 2 + b.toNat := by
    have hx : setBit x i b = (x / 2 ^ i - x / 2 ^ i % 2 + b.toNat) * 2 ^ i + x % 2 ^ i := by
      have hd := Nat.div_add_mod x (2 ^ i)
      have hle : x / 2 ^ i % 2 * 2 ^ i ≤ x / 2 ^ i * 2 ^ i := Nat.mul_le_mul_right _ (Nat.mod_le ..)
      have hb : b.toNat % 2 ^ 1 = b.toNat := by cases b <;> rfl
      rw [setBit, setBits, bits, hb, pow_one, Nat.add_mul, Nat.sub_mul]
      have hc : 2 ^ i * (x / 2 ^ i) = x / 2 ^ i * 2 ^ i := Nat.mul_comm ..
      omega
    rw [hx, Nat.add_comm, Nat.add_mul_div_right _ _ hp, Nat.div_eq_of_lt (Nat.mod_lt _ hp), Nat.zero_add]
  rw [bit, h]
  cases b <;> simp <;> omega

/-! Machine-check records -/

/-- The state without what a record of the machine-check ring may change: bytes, marks, errors and keys of memory, the hub, and the two
rings. -/
def State.unrecorded (s : State) : State :=
  { s with mem := [], psn := [], ecc := [], keys := [], tableRep := [], hub := Hub.reset, mcRing := [], hostRing := [] }

theorem unrecorded_keyed (s : State) (t a n : Nat) : (s.keyed t a n).unrecorded = s.unrecorded := by
  unfold State.keyed
  split
  · exact foldl_keeps State.unrecorded _ (by intros; rfl) _ s
  · rfl

theorem unrecorded_hostPost (s : State) (a b : Nat) (l : List Byte) : (s.hostPost a b l).unrecorded = s.unrecorded := by
  unfold State.hostPost; simp only []; split <;> rfl

theorem mcRing_hostPost (s : State) (a b : Nat) (l : List Byte) : (s.hostPost a b l).mcRing = s.mcRing := by
  unfold State.hostPost; simp only []; split <;> rfl

theorem ecc_hostPost (s : State) (a b : Nat) (l : List Byte) : (s.hostPost a b l).ecc = s.ecc := by
  unfold State.hostPost; simp only []; split <;> rfl

theorem mcRing_keyed (s : State) (t a n : Nat) : (s.keyed t a n).mcRing = s.mcRing := by
  unfold State.keyed
  split
  · exact foldl_keeps State.mcRing _ (by intros; rfl) _ s
  · rfl

theorem ecc_keyed (s : State) (t a n : Nat) : (s.keyed t a n).ecc = s.ecc := by
  unfold State.keyed
  split
  · exact foldl_keeps State.ecc _ (by intros; rfl) _ s
  · rfl

theorem psn_keyed (s : State) (t a n : Nat) : (s.keyed t a n).psn = s.psn := by
  unfold State.keyed
  split
  · exact foldl_keeps State.psn _ (by intros; rfl) _ s
  · rfl

theorem mcRing_putRecord (s : State) (r : List Word) : (s.putRecord r).mcRing = s.mcRing ++ [r] := by
  simp only [State.putRecord, State.storeDev, State.store, mcRing_keyed]

theorem ecc_putRecord (s : State) (r : List Word) : (s.putRecord r).ecc = eccAfter s.ecc (mcAt s.hub.mchead) (r.flatMap (fun w => leBytes 8 w.toNat)).length := by
  simp only [State.putRecord, State.storeDev, State.store, ecc_keyed]

theorem psn_putRecord (s : State) (r : List Word) :
    (s.putRecord r).psn = marksAfter s.psn (mcAt s.hub.mchead) (r.flatMap (fun w => leBytes 8 w.toNat)).length false := by
  simp only [State.putRecord, State.storeDev, State.store, psn_keyed]

theorem unrecorded_putRecord (s : State) (r : List Word) : (s.putRecord r).unrecorded = s.unrecorded :=
  unrecorded_keyed s 0 (mcAt s.hub.mchead) (r.flatMap (fun w : Word => leBytes 8 w.toNat)).length

/-- A record is put into the ring, or is dropped and counted; then it may be posted to the host. -/
theorem mcheck_cases (s : State) (a b c d e : Nat) (w : Word) (f : Nat) :
    ∃ t, (t = if (s.hub.mchead + 2 ^ 32 - s.hub.mctail) % 2 ^ 32 < 4096 then s.putRecord (mcWords a b c d e w s.gtb f)
        else s.setHub (fun h => { h with mcdrop := satInc h.mcdrop 32 })) ∧
      (s.mcheck a b c d e w f = t ∨ ∃ l, s.mcheck a b c d e w f = t.hostPost 2 c l) := by
  refine ⟨_, rfl, ?_⟩
  unfold State.mcheck
  extract_lets r s1
  split
  · exact .inr ⟨_, rfl⟩
  · exact .inl rfl

theorem unrecorded_mcheck (s : State) (a b c d e : Nat) (w : Word) (f : Nat) : (s.mcheck a b c d e w f).unrecorded = s.unrecorded := by
  obtain ⟨t, ht, hm⟩ := mcheck_cases s a b c d e w f
  have h1 : t.unrecorded = s.unrecorded := by
    rw [ht]
    split
    · exact unrecorded_putRecord ..
    · rfl
  rcases hm with hm | ⟨l, hm⟩ <;> rw [hm]
  · exact h1
  · exact (unrecorded_hostPost ..).trans h1

/-- A record enters the ring while it is not full (R435). -/
theorem mcRing_mcheck {s : State} (h : (s.hub.mchead + 2 ^ 32 - s.hub.mctail) % 2 ^ 32 < 4096) (a b c d e : Nat) (w : Word) (f : Nat) :
    (s.mcheck a b c d e w f).mcRing = s.mcRing ++ [mcWords a b c d e w s.gtb f] := by
  obtain ⟨t, ht, hm⟩ := mcheck_cases s a b c d e w f
  rw [if_pos h] at ht
  have h1 := (congrArg State.mcRing ht).trans (mcRing_putRecord ..)
  rcases hm with hm | ⟨l, hm⟩ <;> rw [hm]
  · exact h1
  · exact (mcRing_hostPost ..).trans h1

/-- A record leaves the errors and the marks of a unit outside the ring. -/
theorem ecc_psn_mcheck (s : State) (a b c d e : Nat) (w : Word) (f : Nat) {u : Nat} (hu : inMcRing u = false) :
    Tab.get 0 (s.mcheck a b c d e w f).ecc u = Tab.get 0 s.ecc u ∧ Tab.get false (s.mcheck a b c d e w f).psn u = Tab.get false s.psn u := by
  obtain ⟨t, ht, hm⟩ := mcheck_cases s a b c d e w f
  have hnot : u ∉ unitsOf (mcAt s.hub.mchead) 64 := by
    have ho := outside_mcAt s.hub.mchead u hu
    rw [unitsOf_mcAt]
    simp only [List.mem_cons, List.not_mem_nil, or_false]
    omega
  have h1 : Tab.get 0 t.ecc u = Tab.get 0 s.ecc u ∧ Tab.get false t.psn u = Tab.get false s.psn u := by
    rw [ht]
    split
    · rw [ecc_putRecord, psn_putRecord, length_record]
      exact ⟨get_eccAfter_other _ _ _ hnot, get_marksAfter_other _ _ _ _ hnot⟩
    · exact ⟨rfl, rfl⟩
  rcases hm with hm | ⟨l, hm⟩ <;> rw [hm]
  · exact h1
  · rw [ecc_hostPost, State.psn_hostPost]
    exact h1

/-! A scalar instruction that retires -/

theorem resultX_retireX (s : State) (d : BitVec 5) (v : Word) : ResultX s (s.retireX d v) d v := by
  refine ⟨?_, fun r hr => ?_, rfl, retireX_only s d v, retireX_rest s d v, fun _ => rfl⟩
  · have h0 : d.toNat = 0 ↔ d = 0 := ⟨fun h => BitVec.eq_of_toNat_eq h, fun h => h ▸ rfl⟩
    exact (retireX_xr s d v d.toNat).trans (by simp only [if_true, h0])
  · exact (retireX_xr s d v r.toNat).trans (if_neg (fun h => hr (BitVec.eq_of_toNat_eq h)))

/-- The dies alone say which of them answers last. -/
theorem slowest_congr {s t : State} (h : t.dies = s.dies) (l : List Nat) : t.slowest l = s.slowest l := by
  unfold State.slowest State.die
  rw [h]

/-- An instruction whose effect has begun retires, or waits for the die that answers last. -/
theorem retireWhen_none {s : State} {l : List Nat} (h : s.slowest l = none) (d : BitVec 5) (v : Word) (what : Begins) :
    s.retireWhen l d v what = s.retireX d v := by
  simp only [State.retireWhen, h]

theorem heldFor_stallBegun (s : State) (d : BitVec 5) (v : Word) (what : Begins) (party : Word) :
    HeldFor (s.stallBegun d v what party) s.h.pc party := ⟨rfl, by simp [State.stallBegun, State.setH], rfl⟩

theorem heldFor_retireWhen {s : State} {l : List Nat} {x : Nat} (h : s.slowest l = some x) (d : BitVec 5) (v : Word) (what : Begins) :
    HeldFor (s.retireWhen l d v what) s.h.pc (partyWord 1 x) := by
  simp only [State.retireWhen, h]
  exact heldFor_stallBegun ..

end Sys2Proof.Machine
end

section
/-! PROOFS. What accesses, reads and writes of memory leave alone (R85, R86). -/

namespace Sys2Proof.Machine

/-- A hart without the page traps that a poisoned table entry makes pending (R96). -/
def Hart.unpended (h : Hart) : Hart := { h with pagePend := [], pagePendV := [] }

/-- The state without what the memory system keeps: memory and its tables, translations, rings, counters of tenants, ploughs and dies, the
journals of regions, and what engines own. -/
def State.aside (s : State) : State :=
  { s with h := s.h.unpended, pool := s.pool.map Hart.unpended, mem := [], psn := [], ecc := [], keys := [], tlb := [], tableRep := [],
           copied := [], grdMarks := [], tenants := [], ploughs := [], dies := [], hub := Hub.reset, mcRing := [], hostRing := [],
           regions := [], engines := [], free := 0 }

/-- What an access, a read or a write leaves alone: the rest of the state, and which engines are leased. -/
def Aside (s t : State) : Prop := t.aside = s.aside ∧ ∀ e, (t.engine e).leased = (s.engine e).leased

namespace Aside

theorem refl (s : State) : Aside s s := ⟨rfl, fun _ => rfl⟩

theorem trans {s t u : State} (h : Aside s t) (h2 : Aside t u) : Aside s u := ⟨h2.1.trans h.1, fun e => (h2.2 e).trans (h.2 e)⟩

theorem foldl {β : Type} {f : State → β → State} (h : ∀ s b, Aside s (f s b)) (l : List β) (s : State) : Aside s (l.foldl f s) := by
  induction l generalizing s with
  | nil => exact refl s
  | cons b l ih => exact (h s b).trans (ih _)

theorem of_unrecorded {s t : State} (h : t.unrecorded = s.unrecorded) : Aside s t :=
  ⟨(congrArg State.aside h :), fun e => (congrArg (fun u : State => (u.engine e).leased) h :)⟩

theorem gtb {s t : State} (h : Aside s t) : t.gtb = s.gtb := (congrArg State.gtb h.1 :)
theorem objs {s t : State} (h : Aside s t) : t.objs = s.objs := (congrArg State.objs h.1 :)
theorem held {s t : State} (h : Aside s t) : t.held = s.held := (congrArg State.held h.1 :)
theorem unpended_h {s t : State} (h : Aside s t) : t.h.unpended = s.h.unpended := (congrArg State.h h.1 :)
theorem tid {s t : State} (h : Aside s t) : t.h.tid = s.h.tid := (congrArg Hart.tid h.unpended_h :)
theorem x_pc {s t : State} (h : Aside s t) : t.h.x = s.h.x ∧ t.h.pc = s.h.pc := ⟨(congrArg Hart.x h.unpended_h :), (congrArg Hart.pc h.unpended_h :)⟩

end Aside

section

variable (s : State)

theorem aside_mcheck (a b c d e : Nat) (w : Word) (f : Nat) : Aside s (s.mcheck a b c d e w f) := .of_unrecorded (unrecorded_mcheck ..)

theorem aside_mcheckMem (k t h a : Nat) : Aside s (s.mcheckMem k t h a) := aside_mcheck ..

theorem aside_mcheckUnit (t h u : Nat) : Aside s (s.mcheckUnit t h u) := by
  unfold State.mcheckUnit
  split
  · exact aside_mcheckMem ..
  · split <;> exact aside_mcheck ..

theorem aside_setTenant (n : Nat) (f : Tenant → Tenant) : Aside s (s.setTenant n f) := ⟨rfl, fun _ => rfl⟩
theorem aside_setPlough (n : Nat) (f : Plough → Plough) : Aside s (s.setPlough n f) := ⟨rfl, fun _ => rfl⟩
theorem aside_setRegion (n : Nat) (r : Option Region) : Aside s (s.setRegion n r) := ⟨rfl, fun _ => rfl⟩
theorem aside_marked (p : Tab Bool) : Aside s { s with psn := p } := ⟨rfl, fun _ => rfl⟩
theorem aside_free (n : Nat) : Aside s { s with free := n } := ⟨rfl, fun _ => rfl⟩
theorem aside_found (e : Tab Nat) (p : Tab Bool) : Aside s { s with ecc := e, psn := p } := ⟨rfl, fun _ => rfl⟩
theorem aside_forgot (l : List TlbEntry) : Aside s { s with tlb := l } := ⟨rfl, fun _ => rfl⟩
theorem aside_reported (l : List Nat) : Aside s { s with tableRep := l } := ⟨rfl, fun _ => rfl⟩
theorem aside_store (a : Nat) (l : List Byte) (b : Bool) : Aside s (s.store a l b) := ⟨rfl, fun _ => rfl⟩
theorem aside_noteCopy (a : Nat) : Aside s (s.noteCopy a) := ⟨rfl, fun _ => rfl⟩
theorem aside_keyed (t a n : Nat) : Aside s (s.keyed t a n) := .of_unrecorded (unrecorded_keyed ..)
theorem aside_storeDev (a : Nat) (l : List Byte) : Aside s (s.storeDev a l) := (aside_keyed s 0 a l.length).trans (aside_store ..)

theorem aside_count (t i n : Nat) : Aside s (s.count t i n) := by
  unfold State.count
  split
  · exact .refl s
  · exact aside_setTenant ..

theorem aside_countMem (t a n : Nat) : Aside s (s.countMem t a n) := by
  unfold State.countMem
  split
  · exact aside_count ..
  · split
    · exact aside_count ..
    · split
      · exact aside_count ..
      · exact .refl s

theorem aside_checkUnit (t h u : Nat) : Aside s (s.checkUnit t h u) := by
  unfold State.checkUnit
  split
  · exact .refl s
  · exact ⟨rfl, fun _ => rfl⟩
  · simp only []
    split
    · exact aside_found s _ s.psn
    · exact (aside_found s _ _).trans (aside_mcheckUnit ..)

theorem aside_checkRead (t h a n : Nat) : Aside s (s.checkRead t h a n) := by
  unfold State.checkRead
  split
  · exact .refl s
  · exact .foldl (fun u x => aside_checkUnit u t h x) ..

theorem aside_heat (e pa : Nat) (b : Bool) : Aside s (s.heat e pa b) := by
  unfold State.heat
  split
  · exact .refl s
  · exact aside_setPlough ..

theorem aside_keepXlat (t : TlbEntry) : Aside s (s.keepXlat t) := by
  unfold State.keepXlat
  split
  · exact ⟨rfl, fun _ => rfl⟩
  · exact .refl s

theorem aside_walkReads (a : Actor) (va : Nat) : Aside s (s.walkReads a va) := by
  unfold State.walkReads
  refine .foldl (fun t pa => Aside.trans ?_ (aside_countMem ..)) ..
  split
  · exact aside_checkUnit ..
  · exact .refl t

theorem unpended_pendPage (tag : Nat) (v : Word) (h : Hart) : (pendPage tag v h).unpended = h.unpended := by
  unfold pendPage
  split <;> rfl

/-- Page traps made pending leave the rest of each hart alone. -/
theorem aside_pended (tag : Nat) (v : Word) : Aside s { s with h := pendPage tag v s.h, pool := s.pool.map (pendPage tag v) } := by
  have hp : (s.pool.map (pendPage tag v)).map Hart.unpended = s.pool.map Hart.unpended := by
    rw [List.map_map]
    exact List.map_congr_left (fun k _ => unpended_pendPage tag v k)
  refine ⟨?_, fun _ => rfl⟩
  show ({ s.aside with h := (pendPage tag v s.h).unpended, pool := (s.pool.map (pendPage tag v)).map Hart.unpended } : State) = s.aside
  rw [unpended_pendPage, hp]
  rfl

theorem aside_entryPoison (a : Actor) (pa : Nat) : Aside s (s.entryPoison a pa) := by
  unfold State.entryPoison
  extract_lets tval tag s1 m s2 t
  refine Aside.trans ?_ (aside_pended s2 t tval)
  unfold s2
  split
  · exact ((aside_forgot s _).trans (aside_mcheckMem s1 6 a.tid a.hid pa)).trans (aside_reported m _)
  · exact aside_forgot s _

theorem aside_tablePoison (a : Actor) (pa : Nat) : Aside s (s.tablePoison a pa) := by
  refine Aside.trans ?_ (aside_entryPoison _ a pa)
  split
  · exact aside_checkUnit ..
  · exact (aside_checkUnit ..).trans (aside_mcheckMem ..)

theorem aside_translate (a : Actor) (p : Word) : Aside s (s.translate a p).1 := by
  have h0 := aside_walkReads s a (bits p.toNat 0 56)
  unfold State.translate
  simp only []
  split
  · exact aside_heat ..
  · split
    · split
      · exact h0
      · exact (h0.trans (aside_heat ..)).trans (aside_keepXlat ..)
    · exact h0
    · exact h0
    · exact h0.trans (aside_mcheckMem ..)
    · exact h0.trans (aside_tablePoison ..)

theorem aside_recallLine (e loc : Nat) : Aside s (s.recallLine e loc) := by
  refine ⟨rfl, fun f => ?_⟩
  have h : (s.recallLine e loc).engine f = if f = e then { s.engine e with queue := (s.engine e).queue.map (Cmd.recalls (loc / 64)) } else s.engine f :=
    Tab.get_set ..
  rw [h]
  split
  · next he => rw [he]
  · rfl

theorem aside_ownedWait (k : AKind) (pl : Place) : Aside s (s.ownedWait k pl).1 := by
  unfold State.ownedWait
  split
  · exact .refl s
  · split
    · exact aside_recallLine ..
    · split
      · exact .refl s
      · split <;> exact .refl s

theorem aside_pageAccess (a : Actor) (k : AKind) (p : Word) : Aside s (s.pageAccess a k p).1 := by
  have h := aside_translate s a p
  unfold State.pageAccess
  split
  · next he => rw [he] at h; exact h
  · next he =>
    rw [he] at h
    simp only []
    split
    · exact h
    · split
      · exact h.trans (aside_mcheckMem ..)
      · split
        · exact h
        · split
          · exact h.trans (aside_ownedWait ..)
          · exact h

theorem aside_combAccess (a : Actor) (k : AKind) (p : Word) (n : Nat) : Aside s (s.combAccess a k p n).1 := by
  unfold State.combAccess
  simp only []
  split
  · exact .refl s
  · split
    · exact .refl s
    · split
      · exact aside_ownedWait ..
      · exact .refl s

theorem aside_scratchAccess (a : Actor) (k : AKind) (p : Word) : Aside s (s.scratchAccess a k p).1 := by
  unfold State.scratchAccess
  simp only []
  split
  · exact .refl s
  · split
    · exact .refl s
    · exact aside_ownedWait ..

theorem aside_access (a : Actor) (k : AKind) (p : Word) (n m : Nat) : Aside s (s.access a k p n m).1 := by
  unfold State.access
  simp only []
  split
  · exact .refl s
  · split
    · exact .refl s
    · split
      · exact .refl s
      · split
        · exact aside_scratchAccess ..
        · split
          · exact aside_combAccess ..
          · exact aside_pageAccess ..

theorem aside_pieces (a : Actor) (k : AKind) (p q : Word) (n : Nat) : Aside s (s.pieces a k p q n).1 := by
  induction n generalizing s q with
  | zero => exact .refl s
  | succ n ih =>
    have h := aside_access s a k q 64 64
    unfold State.pieces
    split
    · next he => rw [he] at h; exact h
    · next he => rw [he] at h; exact h
    · next s1 pl he =>
      rw [he] at h
      have h2 := ih s1 (q + 64)
      split
      · next he2 => rw [he2] at h2; exact h.trans h2
      · exact h.trans h2

theorem aside_read (t h a n : Nat) : Aside s (s.read t h a n).1 := by
  unfold State.read
  split
  · exact (aside_mcheckMem ..).trans (aside_free ..)
  · exact (aside_checkRead ..).trans (aside_countMem ..)

theorem aside_readAt (a : Actor) (pl : Place) (n : Nat) : Aside s (s.readAt a pl n).1 := aside_read ..

theorem aside_readPieces (a : Actor) (l : List Place) : Aside s (s.readPieces a l).1 := by
  induction l generalizing s with
  | nil => exact .refl s
  | cons pl l ih => exact (aside_readAt s a pl 64).trans (ih _)

theorem aside_logDirty (a : Nat) : Aside s (s.logDirty a) := by
  unfold State.logDirty
  split
  · exact .refl s
  · extract_lets e tag t page cell s0 s1 cell2 s2
    split
    · exact .refl s
    · have h0 : Aside s s0 := aside_checkRead ..
      split
      · exact h0
      · have h1 : Aside s s1 := h0.trans (aside_storeDev ..)
        split
        · exact (h1.trans (aside_storeDev ..)).trans (aside_setTenant ..)
        · exact ((h1.trans (aside_checkRead ..)).trans (aside_storeDev ..)).trans (aside_setTenant ..)

theorem aside_perform (t h a : Nat) (l : List Byte) (b : Bool) : Aside s (s.perform t h a l b) := by
  unfold State.perform
  split
  · exact aside_mcheckMem ..
  · exact (((aside_logDirty ..).trans (aside_noteCopy ..)).trans (aside_keyed ..)).trans (aside_store ..)

theorem aside_write (t h a : Nat) (l : List Byte) (b : Bool) : Aside s (s.write t h a l b) := by
  unfold State.write
  split
  · exact aside_perform ..
  · exact (aside_perform ..).trans (aside_countMem ..)

theorem aside_markLine (pl : Place) : Aside s (s.markLine pl) := by
  unfold State.markLine
  split
  · split
    · exact .refl s
    · exact ⟨rfl, fun _ => rfl⟩
  · exact .refl s

theorem aside_planeStore (n : Nat) (r : Region) (x off v : Nat) (b : Bool) : Aside s (s.planeStore n r x off v b) := by
  unfold State.planeStore
  split
  · exact .refl s
  · split
    · exact .refl s
    · split
      · exact aside_setRegion ..
      · exact aside_setRegion ..
      · exact .refl s

theorem aside_guardNote (a : Actor) (n : Nat) (r : Region) (off len : Nat) : Aside s (s.guardNote a n r off len) := by
  unfold State.guardNote
  split
  · exact .refl s
  · split
    · exact aside_setRegion ..
    · exact (Aside.foldl (fun t w => aside_checkRead t ..) ..).trans (aside_setRegion ..)

theorem aside_combStore (a : Actor) (n : Nat) (r : Region) (off : Nat) (l : List Byte) (b : Bool) : Aside s (s.combStore a n r off l b) := by
  unfold State.combStore
  split
  · exact (aside_planeStore ..).trans (aside_count ..)
  · exact (aside_guardNote ..).trans (aside_write ..)

theorem aside_writeAt (a : Actor) (pl : Place) (l : List Byte) (b : Bool) : Aside s (s.writeAt a pl l b) := by
  unfold State.writeAt
  split
  · split
    · exact aside_combStore ..
    · exact .refl s
  · exact (aside_markLine ..).trans (aside_write ..)

theorem aside_writePieces (a : Actor) (ps : List Place) (l : List Byte) (bad : List Nat) : Aside s (s.writePieces a ps l bad) := by
  induction ps generalizing s l bad with
  | nil => exact .refl s
  | cons pl ps ih => exact ((aside_writeAt s a pl (l.take 64) false).trans (aside_marked ..)).trans (ih ..)

end

end Sys2Proof.Machine
end

section
/-! PROOFS. The step (entry 1): which move it makes, and what a move of a side of the hart in hand runs. -/

namespace Sys2Proof.Machine

open Sys2Proof.Claims

/-! Taking a move of the plan -/

/-- An event that tests a deadline has no word. -/
theorem encode_of_testsDeadline {i : Instr} (h : testsDeadline i = true) : encode i = none := by
  unfold testsDeadline at h
  split at h
  case h_16 => exact absurd h Bool.false_ne_true
  all_goals rfl

/-- A move of the present tick that tests no deadline is made at once. -/
theorem step_of_plan {s : State} {m : Move} {rest : List Move} (hp : s.plan = m :: rest) (hdt : m.dt = 0) (ht : m.isTest = false) :
    step s = ({ s with plan := rest } : State).move m.who := by
  simp [step, State.next, hp, hdt, ht]

theorem step_of_plannedTest {s : State} {m : Move} {rest : List Move} (hp : s.plan = m :: rest) (hdt : m.dt = 0) (ht : m.isTest = true) :
    step s = s.plannedTest m rest := by
  simp [step, State.next, hp, hdt, ht]

theorem step_of_wait {s : State} {m : Move} {rest : List Move} (hp : s.plan = m :: rest) (hdt : m.dt ≠ 0) : step s = s.wait m rest := by
  simp [step, State.next, hp, hdt]

theorem step_of_noPlan {s : State} (hp : s.plan = []) : step s = s.ownMove := by
  simp [step, State.next, hp]

theorem move_forager_self {s : State} (hl : s.h.live = true) : s.move (.forager s.h.hid) = s.run State.foragerMove := by
  simp [State.move, State.moveForager, State.hart_self hl rfl, State.hold_self hl rfl]

theorem move_vector_self {s : State} (hl : s.h.live = true) : s.move (.vector s.h.hid) = s.run State.vectorMove := by
  simp [State.move, State.moveVector, State.hart_self hl rfl, State.hold_self hl rfl]

theorem move_event {s : State} {i : Instr} (h : encode i = none) : s.move (.event i) = s.event i := by
  simp [State.move, isEvent, h]

theorem move_encoded {s : State} {i : Instr} {w : IWord} (h : encode i = some w) : s.move (.event i) = .fault .planNotEvent := by
  simp [State.move, isEvent, h]

/-- The moves of the present tick are made in it. -/
theorem dt_of_mem_thisTick {l : List Move} {n : Move} (h : n ∈ (thisTick l).1) : n.dt = 0 := by
  induction l with
  | nil => cases h
  | cons m rest ih =>
    rw [thisTick] at h
    split at h
    · next hm =>
      rcases List.mem_cons.mp h with rfl | h
      · exact hm
      · exact ih h
    · cases h

theorem plannedTest_due {s : State} {m : Move} {rest : List Move} {i : Instr} (h : s.dueFirst = some i) :
    s.plannedTest m rest = s.event i := by
  simp [State.plannedTest, h]

theorem plannedTest_other {s : State} {m n : Move} {rest : List Move} (h : s.dueFirst = none)
    (hn : (thisTick rest).1.find? (fun n => !n.isTest) = some n) :
    s.plannedTest m rest = ({ s with plan := m :: (thisTick rest).1.erase n ++ (thisTick rest).2 } : State).move n.who := by
  unfold State.plannedTest
  split
  · simp_all
  · next now later hd => rw [hd] at hn ⊢; simp [hn]

theorem plannedTest_last {s : State} {m : Move} {rest : List Move} (h : s.dueFirst = none)
    (hall : ∀ n ∈ (thisTick rest).1, n.isTest = true) :
    s.plannedTest m rest =
      if (thisTick rest).2.isEmpty then .next { s with plan := rest } else ({ s with plan := rest } : State).move m.who := by
  have hn : (thisTick rest).1.find? (fun n => !n.isTest) = none := by simpa using hall
  unfold State.plannedTest
  split
  · simp_all
  · next now later hd => rw [hd] at hn ⊢; simp [hn]

/-! The sides of the hart in hand -/

/-- A hart that nothing holds up meets no breakpoint and takes no trap at its boundary: its forager runs the word that it fetches. -/
theorem foragerMove_runs {s s1 : State} {w : IWord} {i : Instr} (hl : s.h.live = true) (hslot : s.h.slot ≠ none) (hw : s.h.wait = none)
    (hh : s.h.halt = none) (hb : s.h.begun = none) (hp : s.h.pagePend = []) (ht : s.h.trapWaits = false ∨ s.h.mode ≠ .a)
    (hbp : s.breakpoints 0 s.h.pc = [] ∨ s.h.iw ≠ none) (hf : s.fetch s.h.actor s.h.pc = (s1, .word w))
    (hfate : wordFate false w = none) (hd : decode w = some i) :
    s.foragerMove = match exec i s1 with
      | .next t => .next (if t.did = .nothing then t else t.setH (Hart.spent s.h.pc))
      | r => r := by
  have hruns : s.h.foragerRuns = true := by
    simp [Hart.foragerRuns, Hart.waiting, hl, hw, hh, Option.isSome_iff_ne_none, hslot]
  have hbreak : s.foragerBreak = (s, false) := by
    unfold State.foragerBreak
    rcases hbp with h | h
    · simp [h, State.sample]
    · simp [Option.isSome_iff_ne_none, h]
  have hbound : s.boundary = none := by
    rcases ht with h | h <;> simp [State.boundary, hp, h]
  have hword : s.foragerWord = exec i s1 := by
    simp [State.foragerWord, hf, hfate, hd]
  unfold State.foragerMove
  simp only [hruns, hb, hbreak, hbound, hword, ite_self, Bool.not_true, Bool.false_eq_true, if_false, Option.isSome_none]
  cases exec i s1 <;> simp [State.spent]

theorem meet_nil (s : State) : s.meet [] = (s, false) := by
  simp only [State.meet, List.filter_nil, List.foldl_nil, List.find?_nil, List.append_nil]
  rfl

/-- A convoy in hand of a hart that nothing holds up: its vector side runs the word at the head, and counts the work. -/
theorem vectorMove_runs {s : State} {i : Instr} {b : Block} {c : Word × IWord} {l : List (Word × IWord)} (hl : s.h.live = true)
    (hslot : s.h.slot ≠ none) (hrel : s.h.released = false) (hstop : s.h.stop = none) (hh : s.h.halt = none) (hrun : s.h.run = some b)
    (hc : s.h.conv = c :: l) (hbp : isMemory c.2 = true ∨ s.breakpoints 2 c.1 = []) (hd : decode c.2 = some i) :
    s.vectorMove = match exec i s with
      | .next t => .next (s.countWork t)
      | r => r := by
  have hruns : (s.h.vectorRuns && s.h.vectorPasses) = true := by
    simp [Hart.vectorRuns, Hart.vectorPasses, hl, hrel, hstop, hh, Option.isSome_iff_ne_none, hslot]
  have hbreak : s.wordBreak = (s, false) := by
    unfold State.wordBreak
    rcases hbp with h | h
    · simp [Hart.vword, hc, h]
    · simp [Hart.vaddr, hc, h, meet_nil]
  have hword : s.vectorWord = exec i s := by
    simp [State.vectorWord, hbreak, Hart.vword, hc, hd]
  simp only [State.vectorMove, hruns, hrun, hc, hword, Bool.not_true, Bool.false_eq_true, if_false, Option.isNone_some, List.isEmpty_cons]
  cases exec i s <;> rfl

/-! A tick of a package in which nothing is pending -/

/-- The state without what a tick counts: the hub's scrub period, and the blocks of tenants, cores and dies. -/
def State.uncounted (s : State) : State := { s with hub := Hub.reset, tenants := [], cores := [], dies := [] }

theorem uncounted_count (s : State) (tag i n : Nat) : (s.count tag i n).uncounted = s.uncounted := by
  unfold State.count; split <;> rfl

theorem uncounted_countStall (s : State) (c : Nat) (h : Hart) : (s.countStall c h).uncounted = s.uncounted := by
  unfold State.countStall; split
  · exact uncounted_count ..
  · rfl

theorem uncounted_nextScrub (s : State) : s.nextScrub.uncounted = s.uncounted := by
  unfold State.nextScrub; split <;> rfl

/-- A tick changes harts, the GTB and what it counts. -/
theorem pass_eq (s : State) : ∃ hub tenants cores dies, s.pass =
    { s with hub := hub, tenants := tenants, cores := cores, dies := dies, gtb := min gtbEnd (s.gtb + 1),
             h := s.tickHart (s.cyclesIn s.gtb (s.gtb + 1)) s.h, pool := s.pool.map (s.tickHart (s.cyclesIn s.gtb (s.gtb + 1))) } := by
  unfold State.pass
  extract_lets c s1 s2 s3 s4
  have h4 : s4.uncounted = s.uncounted := calc
    s4.uncounted = s3.uncounted := foldl_keeps State.uncounted _ (by intros; rfl) _ s3
    _ = s2.uncounted := foldl_keeps State.uncounted _ (by intros; rfl) _ s2
    _ = s1.uncounted := foldl_keeps State.uncounted _ (fun t h => uncounted_countStall t c h) _ s1
    _ = s.nextScrub.uncounted := foldl_keeps State.uncounted _ (fun t tid => uncounted_count t tid 0 c) _ _
    _ = s.uncounted := uncounted_nextScrub s
  have hs : s4 = { s with hub := s4.hub, tenants := s4.tenants, cores := s4.cores, dies := s4.dies } :=
    congrArg (fun t => { t with hub := s4.hub, tenants := s4.tenants, cores := s4.cores, dies := s4.dies }) h4
  exact ⟨s4.hub, s4.tenants, s4.cores, s4.dies, by rw [hs]⟩

/-- Only a created hart is made ready. -/
theorem readyChildren_of_none {s : State} (h : ∀ k ∈ s.harts, k.created = false) : s.readyChildren = s := by
  have : s.harts.filter (fun k => k.created) = [] := by simpa using h
  simp [State.readyChildren, this]

/-- A hart that waits for nothing has no stall to end. -/
theorem endStalls_of_noWait {s : State} (t : State) (h : ∀ k ∈ s.harts, k.wait = none ∧ k.iw = none ∧ k.viw = none) :
    s.endStalls t = t := by
  have hstall : ∀ k ∈ s.harts, ∀ side, k.stallOf side = none := by
    intro k hk side
    obtain ⟨hw, hiw, hviw⟩ := h k hk
    unfold Hart.stallOf
    split
    · rfl
    · cases side <;> simp [hw, hiw, hviw]
  unfold State.endStalls
  generalize s.harts = l at hstall
  induction l generalizing t with
  | nil => rfl
  | cons k l ih =>
    have hk := hstall k List.mem_cons_self
    rw [List.foldl_cons, ih _ (fun j hj => hstall j (List.mem_cons_of_mem k hj))]
    simp [State.endStall, hk]

theorem serveSlots_of_none {s : State} (h : ∀ e ∈ s.engines, e.2.pend = []) : s.serveSlots = s := by
  have : s.engines.filter (fun e => !e.2.pend.isEmpty) = [] := by simpa using fun a b hb => h (a, b) hb
  simp [State.serveSlots, this]

theorem serveChans_of_none {s : State} (h : ∀ e ∈ s.objs, ∀ o b, e.2 = some o → o.body = .chan b → b.receiver = none) :
    s.serveChans = s := by
  unfold State.serveChans
  rw [List.filterMap_eq_nil_iff.mpr]
  · rfl
  · intro e he
    rw [Option.bind_eq_none_iff]
    intro o ho
    split
    · next b hb => simp [h e he o b ho hb]
    · rfl

/-- What a move lets go on is nothing where nothing is pending. -/
theorem goOn_of_quiet {s t : State} (hs : ∀ k ∈ s.harts, k.wait = none ∧ k.iw = none ∧ k.viw = none) (ht : t.held = [])
    (hpend : ∀ e ∈ t.engines, e.2.pend = [])
    (hchan : ∀ e ∈ t.objs, ∀ o b, e.2 = some o → o.body = .chan b → b.receiver = none) : s.goOn t = t := by
  rw [State.goOn, endStalls_of_noWait t hs, serveSlots_of_none hpend, State.serveHeld, if_pos ht, serveChans_of_none hchan]

theorem landPackets_of_none {s : State} (h : s.flying = []) : s.landPackets = s := by
  cases s; cases h; rfl

theorem sendSlow_of_none {s : State} (h : s.slow = []) : s.sendSlow = s := by
  cases s; cases h; rfl

/-- A tick of a package in which nothing is pending is the passing of time alone. -/
theorem tick_of_quiet {s : State} (h : Quiet s) : s.tick = s.pass := by
  obtain ⟨hheld, hslow, hfly, hpend, hharts, hchan⟩ := h
  obtain ⟨hub, tenants, cores, dies, hpass⟩ := pass_eq s
  have hcreated : ∀ k ∈ s.pass.harts, k.created = false := by
    have hk : s.pass.harts = s.harts.map (s.tickHart (s.cyclesIn s.gtb (s.gtb + 1))) :=
      harts_of_map rfl (by rw [hpass]) (by rw [hpass])
    rw [hk]
    simpa [State.tickHart] using fun k hk => (hharts k hk).1
  rw [State.tick, landPackets_of_none (by rw [hpass]; exact hfly), sendSlow_of_none (by rw [hpass]; exact hslow),
    readyChildren_of_none hcreated]
  apply goOn_of_quiet (fun k hk => (hharts k hk).2) <;> rw [hpass] <;> assumption

theorem rotate_gtb_mem (s : State) : s.rotate.gtb = s.gtb ∧ s.rotate.mem = s.mem := by
  unfold State.rotate; split <;> exact ⟨rfl, rfl⟩

end Sys2Proof.Machine

namespace Sys2Proof.Claims

open Sys2Proof.Machine

/-- Settles O50: the choice of the move in `State.next`, then what a move of each side runs. -/
theorem stepRuns : Obligations.StepRuns := by
  unfold Obligations.StepRuns
  refine ⟨?forager, ?vector, ?event, ?test, ?word, ?later, ?noPlan, ?quiet⟩
  case forager =>
    intro s s1 hid rest w i hplan hl hhid hslot hw hh hb hp ht hbp hf hfate hd
    subst hhid
    rw [step_of_plan hplan rfl rfl]
    refine (move_forager_self (s := { s with plan := rest }) hl).trans ?_
    rw [State.run, foragerMove_runs (s := ({ s with plan := rest } : State).idle) hl hslot hw hh hb hp ht hbp hf hfate hd]
    cases exec i s1 <;> rfl
  case vector =>
    intro s hid rest i b c l hplan hl hhid hslot hrel hstop hh hrun hc hbp hd
    subst hhid
    rw [step_of_plan hplan rfl rfl]
    refine (move_vector_self (s := { s with plan := rest }) hl).trans ?_
    rw [State.run, vectorMove_runs (s := ({ s with plan := rest } : State).idle) hl hslot hrel hstop hh hrun hc hbp hd]
    cases exec i ({ s with plan := rest } : State).idle <;> rfl
  case event =>
    intro s rest i hplan henc hwhen
    have hmove := (move_event (s := { s with plan := rest }) henc)
    cases hti : testsDeadline i with
    | false => rw [step_of_plan hplan rfl hti]; exact hmove
    | true =>
      rw [hti] at hwhen
      obtain ⟨hfirst, hall, hlater⟩ := hwhen.resolve_left Bool.noConfusion
      rw [step_of_plannedTest hplan rfl hti, plannedTest_last hfirst hall, if_neg (by simpa using hlater)]
      exact hmove
  case test =>
    intro s rest i hplan hti
    rw [step_of_plannedTest hplan rfl hti]
    refine ⟨fun j hj => plannedTest_due hj, fun n hfirst hn => ?_, fun hfirst hall hlater => ?_⟩
    · have hnt : n.isTest = false := by simpa using List.find?_some hn
      rw [plannedTest_other hfirst hn, step_of_plan rfl (dt_of_mem_thisTick (List.mem_of_find?_eq_some hn)) hnt]
      rfl
    · rw [plannedTest_last hfirst hall, if_pos (by simpa using hlater)]
  case word =>
    intro s rest i w hplan henc
    have hti : testsDeadline i = false := by
      rw [Bool.eq_false_iff]
      intro h
      simp [encode_of_testsDeadline h] at henc
    rw [step_of_plan hplan rfl hti]
    exact move_encoded henc
  case later =>
    intro s m rest hplan hdt
    rw [step_of_wait hplan hdt]
    exact ⟨fun j hj => by simp only [State.wait, hj]; rfl, fun hnone => by simp only [State.wait, hnone]⟩
  case noPlan =>
    intro s hplan
    rw [step_of_noPlan hplan]
    refine ⟨fun hp => ?_, fun hp ht => ?_, fun hp ht => ?_, fun hp ht hdue => ?_⟩
    · rw [State.ownMove, if_pos hp]; rfl
    · rw [State.ownMove, if_neg hp, ht, step_of_plan rfl rfl rfl, ← hplan]; rfl
    · rw [State.ownMove, if_neg hp, ht, step_of_plan rfl rfl rfl, ← hplan]; rfl
    · rw [State.ownMove, if_neg hp, ht]; simp only [hdue]
  case quiet =>
    intro s hs
    obtain ⟨hub, tenants, cores, dies, hpass⟩ := pass_eq s
    obtain ⟨hgtb, hmem⟩ := rotate_gtb_mem s
    rw [tick_of_quiet hs]
    refine ⟨by rw [hpass]; rfl, fun a => by rw [hpass]; rfl, hgtb, fun a => by rw [State.byteAt, hmem]; rfl⟩

end Sys2Proof.Claims
end

section
/-! PROOFS. Leases of engines: grant, renewal and end (O25). -/

namespace Sys2Proof.Machine

open Sys2Proof.Claims

/-! What leaves every lease as it stands -/

/-- The same engines are leased. -/
structure SameLeases (s t : State) : Prop where
  leased : ∀ e, (t.engine e).leased = (s.engine e).leased

namespace SameLeases

theorem refl (s : State) : SameLeases s s := ⟨fun _ => rfl⟩

theorem trans {s t u : State} (h : SameLeases s t) (h2 : SameLeases t u) : SameLeases s u :=
  ⟨fun e => (h2.leased e).trans (h.leased e)⟩

theorem foldl {β : Type} {f : State → β → State} (h : ∀ s b, SameLeases s (f s b)) (l : List β) (s : State) : SameLeases s (l.foldl f s) := by
  induction l generalizing s with
  | nil => exact refl s
  | cons b l ih => exact (h s b).trans (ih _)

theorem of_aside {s t : State} (h : Aside s t) : SameLeases s t := ⟨h.2⟩

end SameLeases

theorem engine_setEngine_self (s : State) (e : Nat) (f : Engine → Engine) : (s.setEngine e f).engine e = f (s.engine e) := Tab.get_set_self ..

theorem engine_setEngine_other (s : State) {e e2 : Nat} (f : Engine → Engine) (h : e2 ≠ e) : (s.setEngine e f).engine e2 = s.engine e2 :=
  Tab.get_set_other _ _ _ _ _ h

section

variable (s : State)

theorem leases_setEngine (e : Nat) {f : Engine → Engine} (h : ∀ g, (f g).leased = g.leased) : SameLeases s (s.setEngine e f) := by
  refine ⟨fun e2 => ?_⟩
  by_cases he : e2 = e
  · subst he
    rw [engine_setEngine_self, h]
  · rw [engine_setEngine_other s f he]

theorem leases_answerIf (hid : Nat) (p : WaitKind → Bool) (v : Word) : SameLeases s (s.answerIf hid p v) :=
  ⟨fun e => (congrArg (fun u : State => (u.engine e).leased) (unsent_answerIf s hid p v) :)⟩

theorem leases_updHart (hid : Nat) (f : Hart → Hart) : SameLeases s (s.updHart hid f) := ⟨fun _ => rfl⟩

theorem leases_setTile (core n : Nat) (f : Tile → Tile) : SameLeases s (s.setTile core n f) := ⟨fun _ => rfl⟩

theorem leases_wakeTile (core n : Nat) : SameLeases s (s.wakeTile core n) := by
  unfold State.wakeTile
  dsimp only
  split
  · exact .refl s
  · exact .foldl (fun t (h : Hart) => leases_answerIf t h.hid _ _) _ s

theorem leases_startTile (e : Nat) (c : Cmd) : SameLeases s (s.startTile e c) := by
  unfold State.startTile
  repeat' split
  · exact leases_setTile ..
  · exact leases_setTile ..
  · exact .refl s

theorem leases_endTile (e : Nat) (c : Cmd) (good : Bool) : SameLeases s (s.endTile e c good) := by
  unfold State.endTile
  split
  · exact (leases_setTile ..).trans (leases_wakeTile ..)
  · split
    · exact (leases_setTile ..).trans (leases_wakeTile ..)
    · exact .refl s

theorem leases_enqueue (e : Nat) (c : Cmd) : SameLeases s (s.enqueue e c) :=
  (leases_startTile s e c).trans (leases_setEngine _ e fun _ => rfl)

/-! Commands -/

theorem leases_dline (a : Actor) (copy : Bool) (p : Word) : SameLeases s (s.dline a copy p).1 := by
  have h := SameLeases.of_aside (aside_access s a (.engineWrite copy) p 64 64)
  unfold State.dline
  split <;> next heq => rw [heq] at h; exact h

theorem leases_dlines (a : Actor) (copy : Bool) (n : Nat) : ∀ (s : State) (p : Word), SameLeases s (s.dlines a copy p n).1 := by
  induction n with
  | zero => exact fun s _ => .refl s
  | succ n ih => exact fun s p => (leases_dline s a copy p).trans (ih _ (p + 64))

theorem leases_withLines (c : Cmd) (rcd : Word) : SameLeases s (s.withLines c rcd).1 :=
  (leases_dline s _ _ rcd).trans (leases_dlines ..)

theorem leases_issueLate (e : Nat) (c : Cmd) : SameLeases s (s.issueLate e c) := by
  have h := leases_withLines s c c.rcd
  unfold State.issueLate
  generalize s.withLines c c.rcd = p at h
  obtain ⟨s1, c1⟩ := p
  refine h.trans ?_
  dsimp only
  split
  · exact leases_updHart ..
  · exact (leases_enqueue ..).trans (leases_updHart ..)
  · exact (leases_enqueue ..).trans (leases_answerIf ..)
  · exact leases_answerIf ..

theorem leases_fillSlots (e n : Nat) : ∀ s : State, SameLeases s (s.fillSlots e n) := by
  induction n with
  | zero => exact .refl
  | succ n ih =>
    intro s
    unfold State.fillSlots
    split
    · exact .refl s
    · next c rest _ =>
      split
      · exact .refl s
      · have htake : SameLeases s (s.setEngine e fun g => { g with pend := rest }) := leases_setEngine s e fun _ => rfl
        refine (htake.trans ?_).trans (ih _)
        split
        · exact leases_issueLate ..
        · exact .refl _

theorem leases_writeRecord (c : Cmd) (f : Option (Nat × Word)) (out : Nat) : SameLeases s (s.writeRecord c f out) := by
  unfold State.writeRecord
  dsimp only
  split
  · exact .of_aside (aside_writeAt ..)
  · exact .refl s

theorem leases_finishCmd (e : Nat) (c : Cmd) (w : Word) : SameLeases s (s.finishCmd e c w) := by
  have hstat : SameLeases s (s.setEngine e fun g => { g with
      queue := g.queue.filter (fun x => x.seq ≠ c.seq), stats := ((⟨c.seq, c.tid, w⟩ : CmdStat) :: g.stats).take 64 }) :=
    leases_setEngine s e fun _ => rfl
  refine hstat.trans (.foldl (fun t h => ?_) _ _)
  split
  · exact leases_answerIf ..
  · exact .refl t

theorem leases_discardCmd (e : Nat) (c : Cmd) : SameLeases s (s.discardCmd e c) :=
  ((leases_writeRecord ..).trans (leases_finishCmd ..)).trans (leases_endTile ..)

theorem leases_readLine (a : Actor) (pl : Place) : SameLeases s (s.readLine a pl).1 := .of_aside (aside_readAt ..)

theorem leases_readSource (c : Cmd) (n : Nat) : ∀ (s : State) (p : Word) (i : Nat), SameLeases s (s.readSource c n p i).1 := by
  induction n with
  | zero => exact fun s _ _ => .refl s
  | succ n ih =>
    intro s p i
    have h := SameLeases.of_aside (aside_access s (s.cmdActor c) .engineRead p 64 64)
    unfold State.readSource
    generalize s.access (s.cmdActor c) .engineRead p 64 64 = o at h
    obtain ⟨s1, pl | ⟨k, w⟩ | w⟩ := o
    · have hrest := (h.trans (leases_readLine s1 (s1.cmdActor c) pl)).trans (ih _ (p + 64) (i + 8))
      dsimp only
      split
      · next heq => rw [heq] at hrest; exact hrest
      · exact hrest
    · exact h
    · exact h

theorem leases_outPieces (c : Cmd) : SameLeases s (s.outPieces c).1 := by
  have h := leases_readSource c (c.len / 64) s c.src 0
  unfold State.outPieces
  split
  · split <;> next heq => rw [heq] at h; exact h
  · split <;> exact .refl s

theorem leases_prefixOf (l : List Piece) : SameLeases s (s.prefixOf l).1 := ⟨fun _ => rfl⟩

end

section

variable (r : Work) (c : Cmd)

theorem leases_putLine (d : DLine) (p : Word) (bs : List Byte) (bad : List Nat) : SameLeases r.st (r.putLine c d p bs bad).st := by
  unfold Work.putLine
  repeat' split
  · exact .refl _
  · exact .refl _
  · exact .of_aside (aside_writePieces ..)

theorem leases_putPieces (l : List Piece) : ∀ r : Work, SameLeases r.st (r.putPieces c l).st := by
  induction l with
  | nil => exact fun r => .refl r.st
  | cons p l ih =>
    intro r
    have h := leases_putLine r c p.line p.dst p.data p.bad
    unfold Work.putPieces
    dsimp only
    split
    · exact h
    · exact h.trans (ih _)

theorem leases_copy (l : List Piece) : ∀ r : Work, SameLeases r.st (r.copy c l).st := by
  induction l with
  | nil => exact fun r => .refl r.st
  | cons p l ih =>
    intro r
    have h := SameLeases.of_aside (aside_access r.st (r.st.cmdActor c) .engineRead p.src 64 64)
    unfold Work.copy
    generalize r.st.access (r.st.cmdActor c) .engineRead p.src 64 64 = o at h
    obtain ⟨s1, pl | ⟨k, w⟩ | w⟩ := o
    · have hput := (h.trans (leases_readLine s1 (s1.cmdActor c) pl)).trans
        (leases_putLine { r with st := (s1.readLine (s1.cmdActor c) pl).1 } c p.line p.dst (s1.readLine (s1.cmdActor c) pl).2.1
          (s1.readLine (s1.cmdActor c) pl).2.2)
      dsimp only
      split
      · exact hput
      · exact hput.trans (ih _)
    · exact h
    · exact h

theorem leases_finish (e out lowabs nabs st : Nat) : SameLeases r.st (r.finish e c out lowabs nabs st) :=
  ((((SameLeases.of_aside (aside_count ..)).trans (leases_writeRecord ..)).trans (leases_finishCmd ..)).trans (leases_endTile ..)).trans
    (leases_fillSlots ..)

end

theorem leases_stopWork (s : State) (c : Cmd) : SameLeases s (s.stopWork c).st := by
  unfold State.stopWork
  dsimp only
  split
  · exact (leases_prefixOf s (c.inOrder (copyPieces c.lines c.src c.dst))).trans (leases_copy c _ { st := _, lines := 0, bad := false, fault := none })
  · exact ((leases_outPieces s c).trans (leases_prefixOf _ (c.inOrder (s.outPieces c).2))).trans (leases_putPieces c _ { st := _, lines := 0, bad := false, fault := none })

theorem leases_stopRunning (s : State) (e : Nat) (c : Cmd) : SameLeases s (s.stopRunning e c) :=
  (leases_stopWork s c).trans (leases_finish { s.stopWork c with fault := none } c e _ _ _ _)

/-! The instructions -/

/-- The engine of a lease that has ended is free. -/
theorem endLease_frees {s : State} {e : Nat} (h : (s.engine e).leased = true) : ((s.endLease e).engine e).leased = false := by
  unfold State.endLease
  simp only [h, Bool.not_true, Bool.false_eq_true, if_false]
  refine ((SameLeases.foldl (fun t c => ?_) _ _).leased e).trans (((SameLeases.foldl (fun t c => ?_) _ _).leased e).trans ?_)
  · split
    · exact leases_stopRunning ..
    · exact leases_discardCmd ..
  · exact leases_answerIf ..
  · rw [engine_setEngine_self]

theorem leased_of_leaseOf {s : State} {tid e : Nat} {h : Word} (he : s.leaseOf tid h = some e) : (s.engine e).leased = true := by
  simp only [State.leaseOf] at he
  split at he
  · next hc =>
    cases he
    simp only [Bool.and_eq_true] at hc
    exact hc.1.1.2
  · exact absurd he (by simp)

theorem exec_efree {s : State} {d a : BitVec 5} {e : Nat} (h : s.leaseOf s.h.tid (s.xr a) = some e) :
    exec (.efree d a) s = .next (if (s.die (engineDie e)).late = 0 then (s.endLease e).retireX d 0
      else (s.endLease e).stallBegun d 0 .stands (partyWord 0 e)) := by
  show execEfree d a s = _
  simp only [execEfree, h]
  split <;> rfl

theorem exec_efree_none {s : State} {d a : BitVec 5} (h : s.leaseOf s.h.tid (s.xr a) = none) :
    exec (.efree d a) s = .next (s.retireX d (word stREVOKED)) := by
  show execEfree d a s = _
  simp only [execEfree, h]

theorem outcome_finishWait (s : State) (d : BitVec 5) (v : Word) : Outcome s (s.finishWait d v) d v := resultX_retireX ..

/-- The word of a live lease (R135). -/
theorem handle_ok (ser : BitVec 16) (e : Nat) : handle ser e stOK = word (ser.toNat * 2 ^ 48 + e * 2 ^ 40) := by
  rw [handle, stOK, Nat.add_zero]

theorem exec_eleaseRenew {s : State} {d a t : BitVec 5} {r : BitVec 1} {e : Nat} (h : s.leaseOf s.h.tid (s.xr a) = some e) :
    exec (.eleaseRenew d a t r) s =
      .next ((s.setEngine e (fun g => { g with endAt := s.gtb + (s.tenant s.h.tid).leaseLen })).finishWait d
        (word ((s.engine e).ser.toNat * 2 ^ 48 + e * 2 ^ 40))) := by
  rw [← handle_ok]
  show execEleaseRenew d a t r s = _
  simp only [execEleaseRenew, h, State.leaseWord, engine_setEngine_self]

theorem leaseWord_grantLease (s : State) (e tid : Nat) : (s.grantLease e tid).leaseWord e = handle ((s.engine e).ser + 1) e stOK := by
  simp only [State.leaseWord, State.grantLease, engine_setEngine_self]

/-- A request that can be granted now is granted. -/
theorem elease_grants {s : State} {kind e : Nat} {d a t : BitVec 5} {r : BitVec 1} (hreq : leaseReqOk (s.xr a) = true)
    (hq : s.belowQuota s.h.tid kind = true) (hp : s.pickEngine s.h.die kind (s.xr a) = some e) (hn : s.nextLease e = none) :
    elease kind d a t r s = .next ((s.grantLease e s.h.tid).finishAt (.elease kind (s.xr a)) d (s.deadline t r)
      (word (((s.engine e).ser + 1).toNat * 2 ^ 48 + e * 2 ^ 40)) none) := by
  rw [← handle_ok, ← leaseWord_grantLease s e s.h.tid]
  simp only [elease, hreq, hq, hp, Bool.not_true, Bool.false_eq_true, if_false, if_true, Option.filter_some, hn, Option.isNone_none]

theorem exec_elease {i : Instr} {kind : Nat} {d a t : BitVec 5} {r : BitVec 1}
    (h : (i, kind) ∈ [(Instr.eleaseCopy d a t r, 0), (.eleaseComp d a t r, 1), (.eleaseColl d a t r, 2)]) (s : State) :
    exec i s = elease kind d a t r s := by
  simp only [List.mem_cons, List.not_mem_nil, or_false, Prod.mk.injEq] at h
  rcases h with ⟨rfl, rfl⟩ | ⟨rfl, rfl⟩ | ⟨rfl, rfl⟩ <;> rfl

/-- A wait that the hub decides at once returns while the hub answers. -/
theorem finishAt_answered {s : State} {k : WaitKind} {x : Nat} (hk : k.decidedAt = some x) (hl : (s.die x).late = 0) (d : BitVec 5) (dead : Nat)
    (v : Word) : s.finishAt k d dead v none = s.finishWait d v := by
  simp only [State.finishAt, hk, Option.elim_some, hl, if_true]
  rfl

theorem respond_keeps {s : State} {w : Wait} {x : Nat} (hk : w.kind.decidedAt = some x) (hl : (s.die x).late ≠ 0) (hid : Nat) (v : Word) :
    (s.respond hid w v 0 none).h = s.h ∧ (s.respond hid w v 0 none).engines = s.engines := by
  unfold State.respond
  rw [hk]
  dsimp only
  rw [if_neg hl]
  split <;> exact ⟨rfl, rfl⟩

/-- The wait that begins now. -/
def State.waitFrom (s : State) (k : WaitKind) (d : BitVec 5) (dead : Nat) : Wait :=
  { kind := k, dst := d.toNat, dead := dead, issued := s.gtb, ans := none }

/-- A late die keeps what it has decided, and the hart stands by. -/
theorem finishAt_late {s : State} {k : WaitKind} {x : Nat} (hk : k.decidedAt = some x) (hl : (s.die x).late ≠ 0) (d : BitVec 5) (dead : Nat)
    (v : Word) : StandsBy s (s.finishAt k d dead v none) k d dead ∧ ∀ e, (s.finishAt k d dead v none).engine e = s.engine e := by
  have hfin : s.finishAt k d dead v none = (s.startWait k d dead).respond s.h.hid (s.waitFrom k d dead) v 0 none := by
    simp only [State.finishAt, hk, Option.elim_some, hl, if_false, State.h_startWait, State.waitFrom]
  obtain ⟨hh, heng⟩ := respond_keeps (s := s.startWait k d dead) (w := s.waitFrom k d dead) hk hl s.h.hid v
  rw [hfin]
  refine ⟨⟨?_, ?_, fun _ => ?_⟩, fun e => ?_⟩
  · rw [hh]; rfl
  · rw [hh]; rfl
  · simp only [State.xr, hh]; rfl
  · simp only [State.engine, heng]; rfl

/-- The hub grants leases (R131). -/
theorem decidedAt_elease (kind : Nat) (req : Word) : (WaitKind.elease kind req).decidedAt = some 12 := rfl

theorem leased_grantLease (s : State) (e tid : Nat) : ((s.grantLease e tid).engine e).leased = true := by
  simp only [State.grantLease, engine_setEngine_self]

@[simp] theorem h_grantLease (s : State) (e tid : Nat) : (s.grantLease e tid).h = s.h := rfl

@[simp] theorem gtb_grantLease (s : State) (e tid : Nat) : (s.grantLease e tid).gtb = s.gtb := rfl

@[simp] theorem die_grantLease (s : State) (e tid n : Nat) : (s.grantLease e tid).die n = s.die n := rfl

/-- A grant changes nothing of the hart that asked. -/
theorem standsBy_of_grantLease {s u : State} {e tid : Nat} {k : WaitKind} {d : BitVec 5} {dead : Nat}
    (h : StandsBy (s.grantLease e tid) u k d dead) : StandsBy s u k d dead := by
  simpa only [StandsBy, State.xr, h_grantLease, gtb_grantLease] using h

end Sys2Proof.Machine

namespace Sys2Proof.Claims

open Sys2Proof.Machine

/-- Settles O25: a grant is `finishAt` over the granted state; the end of a lease runs commands that leave every lease as it stands. -/
theorem leaseResults : Obligations.LeaseResults := by
  unfold Obligations.LeaseResults
  refine fun s d a t r e => ⟨fun x hx hreq hq hp hn => ?_, fun he => ⟨?_, fun hl => ?_, fun hl => ?_⟩, fun he => ?_⟩
  · refine ⟨_, (exec_elease hx s).trans (elease_grants hreq hq hp hn), fun hl => ?_, fun hl => ?_⟩
    · rw [finishAt_answered (decidedAt_elease ..) ((die_grantLease ..).symm ▸ hl)]
      exact outcome_finishWait ..
    · rw [← die_grantLease s e s.h.tid] at hl
      obtain ⟨hstand, heng⟩ := finishAt_late (decidedAt_elease x.2 (s.xr a)) hl d (s.deadline t r)
        (word (((s.engine e).ser + 1).toNat * 2 ^ 48 + e * 2 ^ 40))
      exact ⟨standsBy_of_grantLease hstand, (congrArg Engine.leased (heng e)).trans (leased_grantLease s e s.h.tid)⟩
  · exact ⟨_, exec_eleaseRenew he, outcome_finishWait ..⟩
  · exact ⟨_, (exec_efree he).trans (congrArg _ (if_pos hl)), resultX_retireX ..⟩
  · exact ⟨_, (exec_efree he).trans (congrArg _ (if_neg hl)), heldFor_stallBegun .., endLease_frees (leased_of_leaseOf he)⟩
  · exact ⟨_, exec_efree_none he, resultX_retireX ..⟩

end Sys2Proof.Claims
end

section
/-! PROOFS. The region instructions (R106-R108). -/

namespace Sys2Proof.Machine

open Sys2Proof.Claims

/-! The tests of a descriptor -/

theorem any_overlaps (s : State) (r : Region) :
    s.regions.any (fun e => (e.2.map (fun q => q.overlaps r)) = some true) = s.regions.any (fun e => e.2.any (fun q => q.overlaps r)) := by
  congr 1
  funext e
  cases e.2 with
  | none => rfl
  | some q => simp

/-- The code is that of the first test that fails (R106). -/
theorem regionCode_refused {s : State} {bs : List Byte} {r : Region} {x : Bool × Nat}
    (h : (regionTests s bs r).find? (fun x => x.1) = some x) : s.regionCode bs r = .error x.2 := by
  rw [regionTests] at h
  rw [State.regionCode, any_overlaps]
  by_cases h1 : (!(descriptorClean bs && r.valid)) = true
  · rw [if_pos h1]
    simp only [h1, List.find?, Option.some.injEq] at h
    rw [← h]
  by_cases h2 : s.regions.any (fun e => e.2.any (fun q => q.overlaps r)) = true
  · rw [if_neg h1, if_pos h2]
    simp only [h1, h2, List.find?, Option.some.injEq] at h
    rw [← h]
  by_cases h3 : (s.tenant r.tag).combq * 128 < s.combUse r.tag + r.footprint
  · rw [if_neg h1, if_neg h2, if_pos h3]
    simp only [h1, h2, h3, decide_true, List.find?, Option.some.injEq] at h
    rw [← h]
  by_cases h4 : (!s.objOk r) = true
  · rw [if_neg h1, if_neg h2, if_neg h3, if_pos h4]
    simp only [h1, h2, h3, h4, decide_false, List.find?, Option.some.injEq] at h
    rw [← h]
  rw [if_neg h1, if_neg h2, if_neg h3, if_neg h4]
  cases hk : s.freeRegion with
  | some k => simp only [h1, h2, h3, h4, hk, decide_false, List.find?, Option.isNone_some, reduceCtorEq] at h
  | none =>
    simp only [h1, h2, h3, h4, hk, decide_false, List.find?, Option.isNone_none, Option.some.injEq] at h
    rw [← h]

theorem regionCode_passed {s : State} {bs : List Byte} {r : Region} (h : (regionTests s bs r).find? (fun x => x.1) = none) :
    ∃ k, s.freeRegion = some k ∧ s.regionCode bs r = .ok k := by
  have hall : ∀ x ∈ regionTests s bs r, ¬x.1 = true := List.find?_eq_none.mp h
  simp only [regionTests, List.forall_mem_cons, decide_eq_true_eq] at hall
  obtain ⟨h1, h2, h3, h4, h5, -⟩ := hall
  obtain ⟨k, hk⟩ : ∃ k, s.freeRegion = some k := by simpa [Option.isNone_iff_eq_none, Option.ne_none_iff_exists'] using h5
  refine ⟨k, hk, ?_⟩
  rw [State.regionCode, any_overlaps, if_neg h1, if_neg h2, if_neg h3, if_neg h4]
  simp only [hk]

/-! Entering a region -/

theorem regions_refreshObj (s : State) (r : Region) : (s.refreshObj r).regions = s.regions := by
  unfold State.refreshObj
  split
  · split <;> rfl
  · rfl

theorem dies_refreshObj (s : State) (r : Region) : (s.refreshObj r).dies = s.dies := by
  unfold State.refreshObj
  split
  · split <;> rfl
  · rfl

theorem region_entered (s : State) (k : Nat) (r : Option Region) (q : Region) (j : Nat) :
    ((s.setRegion k r).refreshObj q).region j = if j = k then r else s.region j := by
  rw [State.region, regions_refreshObj]
  exact Tab.get_set ..

section CregNew

variable {s s1 s2 : State} {d a : BitVec 5} {pl : Place} {v : Nat} (h1 : s.access s.h.actor .load (s.xr a) 64 64 = (s1, .ok pl))
  (h2 : s1.readAt s1.h.actor pl 64 = (s2, v, false))

include h1 h2

theorem tid_descriptorRead : s2.h.tid = s.h.tid := by
  have ha : Aside s s1 := by simpa only [h1] using aside_access s s.h.actor .load (s.xr a) 64 64
  have hr : Aside s1 s2 := by simpa only [h2] using aside_readAt s1 s1.h.actor pl 64
  exact (ha.trans hr).tid

/-- `creg.new` once its descriptor has been read without poison: refused, or entered. -/
theorem exec_cregNew_refused {c : Nat} (h : s2.regionCode (leBytes 64 v) (regionOfBytes s.h.tid (leBytes 64 v)) = .error c) :
    exec (.cregNew d a) s = .next (s2.retireX d (cregRefusal c)) := by
  show execCregNew d a s = _
  simp only [execCregNew, State.atPlace, h1, h2, Bool.false_eq_true, if_false, tid_descriptorRead h1 h2, h]

theorem exec_cregNew_entered {k : Nat} (h : s2.regionCode (leBytes 64 v) (regionOfBytes s.h.tid (leBytes 64 v)) = .ok k) :
    exec (.cregNew d a) s = .next (((s2.setRegion k (some (regionOfBytes s.h.tid (leBytes 64 v)))).refreshObj
      (regionOfBytes s.h.tid (leBytes 64 v))).retireX d (word k)) := by
  show execCregNew d a s = _
  simp only [execCregNew, State.atPlace, h1, h2, Bool.false_eq_true, if_false, tid_descriptorRead h1 h2, h]

end CregNew

/-! Freeing a region -/

theorem regions_dies_sendSteps (s : State) (off : Nat) : (s.sendSteps off).regions = s.regions ∧ (s.sendSteps off).dies = s.dies := by
  unfold State.sendSteps
  split
  · exact ⟨rfl, rfl⟩
  · split
    · exact ⟨rfl, rfl⟩
    · next o b _ =>
      simp only []
      generalize (if s.saturated off = true then 64 else 0) = f
      have h := foldl_keeps State.unsent (fun t e => t.sendStep off o f e) (fun t e => unsent_sendStep t off o f e) b.closed
        (s.setBody off o (.swarm { b with closed := [] }))
      exact ⟨(congrArg State.regions h :), (congrArg State.dies h :)⟩

theorem regions_dies_freeRegionAt (s : State) (n : Nat) (r : Region) :
    (s.freeRegionAt n r).region n = none ∧ (s.freeRegionAt n r).dies = s.dies := by
  unfold State.freeRegionAt
  extract_lets s1 s2
  have h2 : s2.region n = none ∧ s2.dies = s.dies :=
    ⟨(region_entered s1 n none r n).trans (if_pos rfl), dies_refreshObj (s1.setRegion n none) r⟩
  split
  · split
    · next off o _ _ =>
      obtain ⟨hr, hd⟩ := regions_dies_sendSteps s2 off
      exact ⟨by rw [State.region, hr]; exact h2.1, hd.trans h2.2⟩
    · exact h2
  · exact h2

theorem refreshObj_other {s : State} {r : Region} (h : r.disc ≠ 2) : s.refreshObj r = s := by
  unfold State.refreshObj
  split
  · rw [if_neg h]
  · rfl

/-- The bytes of a freed region are zero (R108). -/
theorem byteAt_freeRegionAt {s : State} {n : Nat} {r : Region} (h : r.disc ≠ 2) {x : Nat} (h1 : r.base ≤ x) (h2 : x < r.base + r.footprint)
    (h3 : x < 2 ^ 28) : (s.freeRegionAt n r).byteAt (locComb x) = 0 := by
  have hm : (s.freeRegionAt n r).mem = s.mem.filter (fun e => !r.holds e.1) := by
    unfold State.freeRegionAt
    simp only [refreshObj_other h, if_neg h]
    split <;> rfl
  have hh : r.holds (locComb x) = true := by
    have hsub : locComb x - 2 ^ 52 = x := by unfold locComb; omega
    have hcomb : isComb (locComb x) = true := by
      unfold isComb locComb
      rw [decide_eq_true (by omega), decide_eq_true (by omega)]
      rfl
    simp only [Region.holds, hsub, hcomb, Region.covers, decide_eq_true h1, decide_eq_true h2, Bool.and_self]
  rw [State.byteAt, hm, Tab.get_filter 0 s.mem (fun loc => !r.holds loc), hh]
  rfl

theorem regions_mem_retireWhen (s : State) (l : List Nat) (d : BitVec 5) (v : Word) (what : Begins) :
    (s.retireWhen l d v what).regions = s.regions ∧ (s.retireWhen l d v what).mem = s.mem := by
  unfold State.retireWhen
  split <;> exact ⟨rfl, rfl⟩

theorem exec_cregFree {s : State} {d a : BitVec 5} {r : Region} (h : s.region (s.xr a).toNat = some r) (ht : r.tag = s.h.tid)
    (hn : (s.xr a).toNat < 4096) :
    exec (.cregFree d a) s = .next ((s.freeRegionAt (s.xr a).toNat r).retireWhen r.dies d 0 (.freed r.tag r.footprint)) := by
  show execCregFree d a s = _
  simp only [execCregFree, h, ht, hn, decide_true, Bool.and_self, if_true]

theorem exec_cregFree_refused {s : State} {d a : BitVec 5}
    (h : s.region (s.xr a).toNat = none ∨ ∃ r, s.region (s.xr a).toNat = some r ∧ (r.tag ≠ s.h.tid ∨ 4096 ≤ (s.xr a).toNat)) :
    exec (.cregFree d a) s = .next (s.retireX d (cregRefusal 6)) := by
  show execCregFree d a s = _
  rcases h with h | ⟨r, h, hr⟩
  · simp only [execCregFree, h]
  · have hno : ¬(decide (r.tag = s.h.tid) && decide ((s.xr a).toNat < 4096)) = true := by
      simp only [Bool.and_eq_true, decide_eq_true_eq]
      omega
    simp only [execCregFree, h, if_neg hno]

/-! Finding a region -/

theorem exec_cregFind (s : State) (d a : BitVec 5) :
    exec (.cregFind d a) s = .next (s.retireX d (match (combOffset (s.xr a)).bind (s.regionOf s.h.tid) with
      | some (k, _) => word k
      | none => cregRefusal 6)) := by
  show execCregFind d a s = _
  unfold execCregFind
  cases (combOffset (s.xr a)).bind (s.regionOf s.h.tid) <;> rfl

end Sys2Proof.Machine

namespace Sys2Proof.Claims

open Sys2Proof.Machine

/-- Settles O28: each instruction by its equation, on the table that its effect leaves. -/
theorem regionResults : Obligations.RegionResults := by
  unfold Obligations.RegionResults
  intro s d a n refused
  have hrefused : ∀ u c, u = s.retireX d (cregRefusal c) → refused u c := fun u c hu => hu ▸ resultX_retireX ..
  refine ⟨fun s1 s2 pl v h1 h2 => ⟨fun hpass => ?_, fun x hx => ?_⟩, fun r hr ht hn => ?_, fun h => ?_, fun off k r ho hr => ?_,
    fun off ho hr => ?_, fun ho => ?_⟩
  · obtain ⟨k, hk, hcode⟩ := regionCode_passed hpass
    refine ⟨_, k, exec_cregNew_entered h1 h2 hcode, hk, resultX_retireX .., ?_, fun j hj => ?_⟩
    · exact (region_entered ..).trans (if_pos rfl)
    · exact (region_entered ..).trans (if_neg hj)
  · exact ⟨_, exec_cregNew_refused h1 h2 (regionCode_refused hx), resultX_retireX .., rfl⟩
  · obtain ⟨hnone, hdies⟩ := regions_dies_freeRegionAt s n r
    have hslow := slowest_congr hdies r.dies
    obtain ⟨hregs, hmem⟩ := regions_mem_retireWhen (s.freeRegionAt n r) r.dies d 0 (.freed r.tag r.footprint)
    refine ⟨_, exec_cregFree hr ht hn, ?_, fun hd x h1 h2 h3 => ?_, fun hs => ?_, fun x hs => ?_⟩
    · rw [State.region, hregs]
      exact hnone
    · rw [State.byteAt, hmem]
      exact byteAt_freeRegionAt hd h1 h2 h3
    · rw [retireWhen_none (hslow.trans hs)]
      exact resultX_retireX ..
    · exact heldFor_retireWhen (hslow.trans hs) ..
  · exact ⟨_, exec_cregFree_refused h, hrefused _ 6 rfl⟩
  · refine ⟨_, exec_cregFind s d a, ?_⟩
    rw [ho, Option.bind_some, hr]
    exact resultX_retireX ..
  · refine ⟨_, exec_cregFind s d a, ?_⟩
    rw [ho, Option.bind_some, hr]
    exact hrefused _ 6 rfl
  · refine ⟨_, exec_cregFind s d a, ?_⟩
    rw [ho, Option.bind_none]
    exact hrefused _ 6 rfl

end Sys2Proof.Claims
end

section
/-! PROOFS. The ends of explicit waits: what a deadline event answers (R331, R332), what it takes out of its bank (R335-R357), and the close of an
episode at its deadline (R344). -/

namespace Sys2Proof.Machine

open Sys2Proof.Claims

/-! What the sending of results does not show -/

theorem swarm_of_unsent {s t : State} (h : t.unsent = s.unsent) (off : Nat) : t.swarm off = s.swarm off :=
  congrArg (fun u => u.swarm off) h

theorem latch_of_unsent {s t : State} (h : t.unsent = s.unsent) (off : Nat) : t.latch off = s.latch off :=
  congrArg (fun u => u.latch off) h

theorem chan_of_unsent {s t : State} (h : t.unsent = s.unsent) (off : Nat) : t.chan off = s.chan off :=
  congrArg (fun u => u.chan off) h

/-! An object with another body -/

theorem swarm_setBody (s : State) (off : Nat) (o : Obj) (b : Swarm) :
    (s.setBody off o (.swarm b)).swarm off = some ({ o with body := .swarm b }, b) := by
  simp [State.setBody, State.swarm, State.obj, State.setObj]

theorem latch_setBody (s : State) (off : Nat) (o : Obj) (b : Latch) :
    (s.setBody off o (.latch b)).latch off = some ({ o with body := .latch b }, b) := by
  simp [State.setBody, State.latch, State.obj, State.setObj]

theorem chan_setBody (s : State) (off : Nat) (o : Obj) (b : Chan) :
    (s.setBody off o (.chan b)).chan off = some ({ o with body := .chan b }, b) := by
  simp [State.setBody, State.chan, State.obj, State.setObj]

/-! A request that a deadline ends -/

/-- Two states show the same harts, time and dies: an outcome sent to a hart has the same effect on the harts of both. -/
def SameParties (s t : State) : Prop := t.h = s.h ∧ t.pool = s.pool ∧ t.gtb = s.gtb ∧ t.dies = s.dies

theorem sameParties_setBody (s : State) (off : Nat) (o : Obj) (b : ObjKind) : SameParties s (s.setBody off o b) := ⟨rfl, rfl, rfl, rfl⟩

section Answer

variable {s t : State} {hid : Nat} {h : Hart} {w : Wait} {p : WaitKind → Bool} (hw : WaitsIn s hid h w) (hnow : AnswersNow s w)
  (hst : SameParties s t) (v : Word)

include hst

theorem SameParties.hart (n : Nat) : t.hart n = s.hart n := hart_congr hst.1 hst.2.1 n

include hw hnow

/-- A result that is sent at once, after a change that shows no hart: its hart receives it. -/
theorem answered_respond : Answered s (t.respond hid w v 0 none) hid h w v := by
  have hnow' : AnswersNow t w := fun d hd => by simpa only [State.die, hst.2.2.2] using hnow d hd
  rw [respond_now hid v hnow']
  exact answered_congr (answer_waitsIn (waitsIn_congr hw (hst.hart hid)) v).1 hst.hart hst.2.2.1

theorem answered_answerIf (hp : p w.kind = true) : Answered s (t.answerIf hid p v) hid h w v := by
  rw [answerIf_waitsIn (waitsIn_congr hw (hst.hart hid)) hp]
  exact answered_respond hw hnow hst v

theorem answered_answerTick (hp : p w.kind = true) : Answered s (t.answerTick hid w.issued p v 0) hid h w v := by
  rw [answerTick_waitsIn (waitsIn_congr hw (hst.hart hid)) hp]
  exact answered_respond hw hnow hst v

end Answer

/-! A wait that no bank decides -/

theorem waitDue_iff {s : State} {hid : Nat} {w : Wait} (hans : w.ans = none) :
    s.waitDue hid w = true ↔ w.dead ≤ s.gtb ∧ Undecided s hid w := by
  simp [State.waitDue, hans, Undecided]

theorem dueWait_waitsIn {s : State} {hid : Nat} {h : Hart} {w : Wait} (hw : WaitsIn s hid h w) (p : WaitKind → Bool) :
    s.dueWait hid p = if (s.waitDue hid w && p w.kind) = true then some w else none := by
  obtain ⟨hh, -, hwait, -⟩ := hw
  simp [State.dueWait, hh, hwait, Option.filter]

/-- A kind of wait that the hart's own die judges has no other die to decide it (R24). -/
theorem decidedAt_own {k : WaitKind} (h : k.isRqpop = true ∨ k.isNap = true ∨ k.isVsync = true ∨ k.isTwait = true) : k.decidedAt = none := by
  cases k <;> simp_all [WaitKind.isRqpop, WaitKind.isNap, WaitKind.isVsync, WaitKind.isTwait, WaitKind.decidedAt]

theorem respond_own {s : State} {hid : Nat} {w : Wait} (v : Word) (h : w.kind.decidedAt = none) : s.respond hid w v 0 none = s.answer hid v :=
  respond_now hid v (by simp [AnswersNow, h])

/-- Each event of the table sends its outcome to a hart that waits for it and is due, and else changes nothing. -/
theorem exec_expiryTable {s : State} {hid : Nat} {h : Hart} {w : Wait} (hw : WaitsIn s hid h w) {e : Instr × Bool × Word}
    (he : e ∈ expiryTable s h hid w.kind) :
    exec e.1 s = .next (if (s.waitDue hid w && e.2.1) = true then s.respond hid w e.2.2 0 none else s) := by
  have hdue := dueWait_waitsIn hw
  have hh := hw.1
  delta expiryTable at he
  simp only [List.mem_cons, List.not_mem_nil, or_false] at he
  rcases he with rfl | rfl | rfl | rfl | rfl
  · show execRqpopExpiry hid s = _
    simp only [execRqpopExpiry, hdue]
    split
    · next hc => simp [respond_own _ (decidedAt_own (.inl ((Bool.and_eq_true _ _).mp hc).2))]
    · rfl
  · show execNapExpiry hid s = _
    simp only [execNapExpiry, hdue]
    split
    · next hc => simp [respond_own _ (decidedAt_own (.inr (.inl ((Bool.and_eq_true _ _).mp hc).2)))]
    · rfl
  · show execEwaitExpiry hid s = _
    simp only [execEwaitExpiry, hdue]
    split
    · next hc => simp [answerIf_waitsIn hw ((Bool.and_eq_true _ _).mp hc).2, cmdWord, statusWord, stEXPIRED, word]
    · rfl
  · show execVsyncExpiry hid s = _
    simp only [execVsyncExpiry, hdue, hh]
    by_cases hc : (s.waitDue hid w && w.kind.isVsync) = true
    · simp only [hc, if_true, respond_own _ (decidedAt_own (.inr (.inr (.inl ((Bool.and_eq_true _ _).mp hc).2))))]
      rfl
    · simp only [hc, if_false, Bool.false_eq_true]
  · show execTwaitExpiry hid s = _
    simp only [execTwaitExpiry, hdue, hh]
    by_cases hc : (s.waitDue hid w && w.kind.isTwait) = true
    · have hk := ((Bool.and_eq_true _ _).mp hc).2
      simp only [hc, if_true, respond_own _ (decidedAt_own (.inr (.inr (.inr hk))))]
      cases hw' : w.kind <;> simp_all [WaitKind.isTwait, tileWord, stEXPIRED]
    · simp only [hc, if_false, Bool.false_eq_true]

/-! A request that leaves its queue -/

theorem dueJoin_spec {s : State} {hid off : Nat} {o : Obj} {b : Swarm} {j : Join} (h : s.dueJoin hid = some (off, o, b, j)) : j.hid = hid := by
  obtain ⟨e, -, he⟩ := List.exists_of_findSome?_eq_some h
  split at he
  · obtain ⟨x, hx, heq⟩ := Option.map_eq_some_iff.mp he
    have hj : x.hid = hid := by simpa using And.left (by simpa using List.find?_some hx)
    cases heq
    exact hj
  · cases he

theorem joinResult_near {j : Join} (h : j.hid < 65536) (s : State) (o : Obj) (p : WaitKind → Bool) (v : Word) :
    s.joinResult o p j v = s.answerTick j.hid j.tick p v 0 := by
  rw [State.joinResult, if_neg (by omega)]

theorem sendResult_near {hid : Nat} (h : hid < 65536) (s : State) (off : Nat) (v : Word) :
    s.sendResult off hid v = s.answerIf hid (WaitKind.sends off) v := by
  rw [State.sendResult, if_neg (by omega), if_neg (by simp; omega)]

/-- A channel without receivers, and with every slot in use, serves nothing. -/
theorem serveAll_full {s : State} {off : Nat} {o : Obj} {b : Chan} (hb : s.chan off = some (o, b)) (hr : b.receivers = [])
    (hfull : b.nslot ≤ (b.tail - b.head).toNat) : s.serveAll off = s := by
  have hnone : b.receiver = none := by simp [Chan.receiver, hr]
  have hone : s.serveOne off = none := by
    simp only [State.serveOne, hb, hnone, Option.filter_none]
    cases b.senders with
    | nil => rfl
    | cons x l => simp only [if_neg (Nat.not_lt.mpr hfull)]
  have hserve : ∀ n, s.serve off n = s := by
    intro n
    cases n with
    | zero => rfl
    | succ n => rw [State.serve, hone]
  simp [State.serveAll, hb, hserve, State.recallDst, hnone]

section Leaves

variable {s : State} {hid : Nat} {h : Hart} {w : Wait} (hw : WaitsIn s hid h w) (hnow : AnswersNow s w)

include hw hnow

theorem engineSlotExpiry_ends {e : Nat} (hu : Undecided s hid w) (hk : w.kind = .slot e) (hdead : w.dead ≤ s.gtb) :
    ∃ t, exec (.engineSlotExpiry hid) s = .next t ∧ Answered s t hid h w 1 ∧ (t.engine e).queue = (s.engine e).queue ∧
      (t.engine e).pend = (s.engine e).pend.filter (fun c => c.hid ≠ hid) := by
  let s1 := s.setEngine e (fun g => { g with pend := g.pend.filter (fun c => c.hid ≠ hid) })
  have hexec : exec (.engineSlotExpiry hid) s = .next (s1.answerIf hid WaitKind.isSlot 1) := by
    show execEngineSlotExpiry hid s = _
    have hdue : s.waitDue hid w = true := (waitDue_iff hw.2.2.2).mpr ⟨hdead, hu⟩
    simp only [execEngineSlotExpiry, dueWait_waitsIn hw, hdue, hk, WaitKind.isSlot, Bool.and_self, if_true]
    rfl
  have hst : SameParties s s1 := ⟨rfl, rfl, rfl, rfl⟩
  have he : (s1.answerIf hid WaitKind.isSlot 1).engine e = s1.engine e :=
    congrArg (fun u => u.engine e) (unsent_answerIf s1 hid WaitKind.isSlot 1)
  have hs1 : s1.engine e = { s.engine e with pend := (s.engine e).pend.filter (fun c => c.hid ≠ hid) } := Tab.get_set_self ..
  refine ⟨_, hexec, answered_answerIf hw hnow hst 1 (by rw [hk]; rfl), ?_⟩
  rw [he, hs1]
  exact ⟨rfl, rfl⟩

theorem eleaseExpiry_ends {kind : Nat} {req : BitVec 64} {q : LeaseReq} (hk : w.kind = .elease kind req)
    (hq : s.leaseQ.find? (fun q => q.hid == hid && decide (q.dead ≤ s.gtb)) = some q) :
    ∃ t, exec (.eleaseExpiry hid) s = .next t ∧ Answered s t hid h w 0xFF0000000001#64 ∧ t.leaseQ = s.leaseQ.erase q := by
  let s1 : State := { s with leaseQ := s.leaseQ.erase q }
  have hexec : exec (.eleaseExpiry hid) s = .next (s1.answerIf hid WaitKind.leases 0xFF0000000001#64) := by
    show execEleaseExpiry hid s = _
    simp only [execEleaseExpiry, hq]
    rfl
  have hst : SameParties s s1 := ⟨rfl, rfl, rfl, rfl⟩
  exact ⟨_, hexec, answered_answerIf hw hnow hst _ (by rw [hk]; rfl), congrArg State.leaseQ (unsent_answerIf s1 ..)⟩

theorem swjoinExpiry_ends {off rank : Nat} {o : Obj} {b : Swarm} {j : Join} (hid16 : hid < 65536)
    (hj : s.dueJoin hid = some (off, o, b, j)) (hk : w.kind = .swjoin off rank) (ht : j.tick = w.issued) :
    ∃ t o2, exec (.swjoinExpiry hid) s = .next t ∧ Answered s t hid h w (statusWord b.epi.toNat b.lowabs b.nabs 1) ∧
      t.swarm off = some (o2, { b with joins := b.joins.erase j }) := by
  let s1 := s.setBody off o (.swarm { b with joins := b.joins.erase j })
  have hjh := dueJoin_spec hj
  have hexec : exec (.swjoinExpiry hid) s = .next (s1.answerTick hid w.issued (WaitKind.joins off) (b.lastWord stEXPIRED) 0) := by
    show execSwjoinExpiry hid s = _
    simp only [execSwjoinExpiry, hj, joinResult_near (hjh.trans_lt hid16), hjh, ht, s1]
  exact ⟨_, _, hexec, answered_answerTick hw hnow (sameParties_setBody ..) _ (by simp [hk, WaitKind.joins]),
    (swarm_of_unsent (unsent_answerTick s1 ..) off).trans (swarm_setBody ..)⟩

theorem acqExpiry_ends {off : Nat} {o : Obj} {b : Latch} {q : Nat × Nat} (hq : s.dueAcq hid = some (off, o, b, q)) (hk : w.kind = .acq off) :
    ∃ t o2, exec (.acqExpiry hid) s = .next t ∧ Answered s t hid h w (statusWord b.hold.toNat (s.holderRank b) 1 1) ∧
      t.latch off = some (o2, { b with queue := b.queue.erase q }) := by
  let s1 := s.setBody off o (.latch { b with queue := b.queue.erase q })
  have hexec : exec (.acqExpiry hid) s = .next (s1.answerIf hid (WaitKind.acquires off) (s.acqExpired b)) := by
    show execAcqExpiry hid s = _
    simp only [execAcqExpiry, hq, s1]
  exact ⟨_, _, hexec, answered_answerIf hw hnow (sameParties_setBody ..) _ (by simp [hk, WaitKind.acquires]),
    (latch_of_unsent (unsent_answerIf s1 ..) off).trans (latch_setBody ..)⟩

theorem sendExpiry_ends {off : Nat} {o : Obj} {b : Chan} {r : ChanReq} {msg : Word} (hid16 : hid < 65536)
    (hr : s.dueChan hid true = some (off, o, b, r)) (hk : w.kind = .send off msg) (hrec : b.receivers = [])
    (hfull : b.nslot ≤ (b.tail - b.head).toNat) :
    ∃ t o2, exec (.sendExpiry hid) s = .next t ∧ Answered s t hid h w 0xFFF00001#64 ∧
      t.chan off = some (o2, { b with senders := b.senders.erase r }) := by
  let s1 := s.setBody off o (.chan { b with senders := b.senders.erase r })
  let t := s1.answerIf hid (WaitKind.sends off) (plainStatus stEXPIRED)
  have hchan : t.chan off = some ({ o with body := .chan { b with senders := b.senders.erase r } }, { b with senders := b.senders.erase r }) := by
    rw [chan_of_unsent (unsent_answerIf s1 ..)]
    exact chan_setBody ..
  have hexec : exec (.sendExpiry hid) s = .next t := by
    show execSendExpiry hid s = _
    simp only [execSendExpiry, hr, sendResult_near hid16]
    exact congrArg _ (serveAll_full hchan hrec hfull)
  exact ⟨t, _, hexec, answered_answerIf hw hnow (sameParties_setBody ..) _ (by simp [hk, WaitKind.sends]), hchan⟩

theorem recvExpiry_ends {off : Nat} {o : Obj} {b : Chan} {r : ChanReq} {dst : Word} (hr : s.dueChan hid false = some (off, o, b, r))
    (hk : w.kind = .recv off dst) :
    ∃ t o2, exec (.recvExpiry hid) s = .next t ∧ Answered s t hid h w (recvExpired b) ∧
      t.chan off = some (o2, { b with receivers := b.receivers.erase r }) := by
  let s1 := s.setBody off o (.chan { b with receivers := b.receivers.erase r })
  have hexec : exec (.recvExpiry hid) s = .next (s1.answerIf hid (WaitKind.receives off) (recvExpired b)) := by
    show execRecvExpiry hid s = _
    simp only [execRecvExpiry, hr, s1]
  exact ⟨_, _, hexec, answered_answerIf hw hnow (sameParties_setBody ..) _ (by simp [hk, WaitKind.receives]),
    (chan_of_unsent (unsent_answerIf s1 ..) off).trans (chan_setBody ..)⟩

end Leaves

/-! The close of an episode whose swarm has no region attached -/

/-- A state between the close of an episode and the sending of its results: the swarm is as the close left it, but for the `step` results that wait
for a flip. -/
def Closing (off : Nat) (b : Swarm) (t : State) : Prop :=
  t.naming 2 off = [] ∧ ∃ o l, t.swarm off = some (o, { b with closed := l })

theorem Closing.of_unsent {off : Nat} {b : Swarm} {s t : State} (hs : Closing off b s) (h : t.unsent = s.unsent) : Closing off b t := by
  obtain ⟨hn, o, l, hl⟩ := hs
  exact ⟨(congrArg (fun u => u.naming 2 off) h).trans hn, o, l, (swarm_of_unsent h off).trans hl⟩

theorem closing_setBody {off : Nat} {s : State} (hn : s.naming 2 off = []) (o : Obj) (b : Swarm) (l : List StepRes) :
    Closing off b (s.setBody off o (.swarm { b with closed := l })) :=
  ⟨hn, _, l, swarm_setBody ..⟩

theorem closing_closeResult {off : Nat} {b : Swarm} {s : State} (hs : Closing off b s) (o : Obj) (bar stp : Word) (m : Member) :
    Closing off b (s.closeResult off o bar stp m) := by
  unfold State.closeResult
  split
  · obtain ⟨hn, o1, l, hl⟩ := hs
    rw [State.keepStep, hl]
    exact closing_setBody hn o1 b _
  · split
    · exact hs.of_unsent (unsent_fabricResult ..)
    · exact hs.of_unsent (unsent_answerTick ..)

theorem closing_closeResults {off : Nat} {b : Swarm} {s : State} (hs : Closing off b s) (o : Obj) (bar stp : Word) (ms : List Member) :
    Closing off b (ms.foldl (fun t m => t.closeResult off o bar stp m) s) := by
  induction ms generalizing s with
  | nil => exact hs
  | cons m ms ih => exact ih (closing_closeResult hs ..)

/-- The results of the close are sent when no bank has words to flip. -/
theorem sendSteps_closing {off : Nat} {b : Swarm} {s : State} (hs : Closing off b s) :
    ∃ o, (s.sendSteps off).swarm off = some (o, { b with closed := [] }) := by
  obtain ⟨hn, o, l, hl⟩ := hs
  simp only [State.sendSteps, hn, hl, List.any_nil, Bool.false_eq_true, if_false]
  exact ⟨_, (swarm_of_unsent (foldl_keeps State.unsent _ (fun _ _ => unsent_sendStep ..) _ _) off).trans (swarm_setBody ..)⟩

/-- What the close leaves in the record of a swarm without attached regions and pending joins (R344). -/
def Swarm.closedAt (b : Swarm) (gone : List Nat) (time : Nat) : Swarm :=
  { b with epi := b.epi + 1, lowabs := lowRank gone, nabs := gone.length, cst := if gone.isEmpty then stOK else stEXPIRED, ctick := time,
           absents := gone.foldl (fun a k => setBit a k true) 0,
           members := b.members.map (fun m => { m with good := m.good && m.arrived, arrived := false }), joins := [] }

/-- The ranks of the members in good standing that have not arrived. -/
def Swarm.lapsing (b : Swarm) : List Nat := (b.members.filter (fun m => m.good && !m.arrived)).map (fun m => m.rank)

theorem closeEpisode_swarm {s : State} {off : Nat} {o : Obj} {b : Swarm} (hb : s.swarm off = some (o, b)) (hn : s.naming 2 off = [])
    (hc : b.closed = []) (hj : b.joins = []) :
    ∃ o2, (s.closeEpisode off).swarm off = some (o2, { b.closedAt b.lapsing s.gtb with closed := [] }) := by
  have hf : s.finishFlips off = s.setBody off o (.swarm { b with closed := [] }) := by
    simp [State.finishFlips, State.sendSteps, hn, hb, hc]
  have hsw : (s.finishFlips off).swarm off = some ({ o with body := .swarm { b with closed := [] } }, { b with closed := [] }) := by
    rw [hf]; exact swarm_setBody ..
  have hn1 : (s.finishFlips off).naming 2 off = [] := by rw [hf]; exact hn
  have hg : (s.finishFlips off).gtb = s.gtb := by rw [hf]; rfl
  unfold State.closeEpisode
  simp only [hsw, hn1, hg, hj, List.foldl_nil, List.any_nil, Bool.false_eq_true, if_false]
  exact sendSteps_closing (closing_closeResults (closing_setBody hn1 _ (b.closedAt b.lapsing s.gtb) _) ..)

end Sys2Proof.Machine

namespace Sys2Proof.Claims

open Sys2Proof.Machine

/-- Settles O54: each event answers the hart that waits, and takes its request out of its queue; the close keeps what is left of the record. -/
theorem waitExpiries : Obligations.WaitExpiries := by
  unfold Obligations.WaitExpiries
  refine ⟨?table, ?queues, ?close⟩
  case table =>
    intro s hid h w hw e he
    have hexec := exec_expiryTable hw he
    have hdue := waitDue_iff (s := s) (hid := hid) hw.2.2.2
    refine ⟨fun hdead hk hu => ?_, fun hnot => ?_⟩
    · rw [hdue.mpr ⟨hdead, hu⟩, hk] at hexec
      refine ⟨fun hnow => ⟨_, hexec, ?_⟩, fun d hd hl => hexec.trans (congrArg _ (respond_late e.2.2 hd hl hu))⟩
      rw [Bool.and_self, if_pos rfl, respond_now hid _ hnow]
      exact answer_waitsIn hw e.2.2
    · rw [hexec, if_neg]
      rw [Bool.and_eq_true, hdue]
      rintro ⟨⟨hdead, hu⟩, hk⟩
      rcases hnot with h1 | h1 | h1
      · omega
      · simp [h1] at hk
      · exact h1 hu
  case queues =>
    intro s hid h w hw hid16 hu hnow
    exact ⟨fun e hk hdead => engineSlotExpiry_ends hw hnow hu hk hdead, fun q kind req hk hq => eleaseExpiry_ends hw hnow hk hq,
      fun off o b j rank hj hk ht => swjoinExpiry_ends hw hnow hid16 hj hk ht, fun off o b q hq hk => acqExpiry_ends hw hnow hq hk,
      fun off o b r msg hr hk hrec hfull => sendExpiry_ends hw hnow hid16 hr hk hrec hfull,
      fun off o b r dst hr hk => recvExpiry_ends hw hnow hr hk⟩
  case close =>
    intro s off o b hb hdue hn hc hj gone
    obtain ⟨o2, h2⟩ := closeEpisode_swarm hb hn hc hj
    refine ⟨_, o2, _, ?_, h2, rfl, ?_, rfl, rfl, rfl, rfl⟩
    · show execSwarmDeadlineClose off s = _
      rw [execSwarmDeadlineClose, if_pos hdue]
    · show (if b.lapsing.isEmpty = true then stOK else stEXPIRED) = _
      simp only [List.isEmpty_iff]
      rfl

end Sys2Proof.Claims
end

section
/-! PROOFS. Starts, resets, negotiation, hub registers, zeroing and scrubs (R22-R26, R64, R68, R72-R76, R436, R448-R450). -/

namespace Sys2Proof.Machine

open Sys2Proof.Claims

/-! Starts -/

theorem get_startedDies (s : State) {d : Nat} (h : d < 13) : Tab.get Die.reset (startedDies s) d = { Die.reset with inc := (s.die d).inc + 1 } := by
  rw [startedDies, Tab.get_foldl_set Die.reset (fun d => { Die.reset with inc := (s.die d).inc + 1 }), if_pos (List.mem_range.mpr h)]

theorem kept_iff (s : State) (cold : Bool) (a : Nat) : Kept s cold a ↔ (!cold && s.hub.skips a) = true := by
  simp only [Kept, Hub.skips, Bool.and_eq_true, Bool.not_eq_true', decide_eq_true_eq]

/-- A start keeps the bytes and the marks of what it skips, and zeroes the rest. -/
theorem start_memory (s : State) (cold : Bool) (a : Nat) :
    (Kept s cold a → (s.start cold).byteAt a = s.byteAt a ∧ Tab.get false (s.start cold).psn a = Tab.get false s.psn a) ∧
      (¬Kept s cold a → (s.start cold).byteAt a = 0 ∧ Tab.get false (s.start cold).psn a = false) := by
  have hb : (s.start cold).byteAt a = if (!cold && s.hub.skips a) = true then s.byteAt a else 0 :=
    Tab.get_filter 0 s.mem (fun loc => !cold && s.hub.skips loc) a
  have hp : Tab.get false (s.start cold).psn a = if (!cold && s.hub.skips a) = true then Tab.get false s.psn a else false :=
    Tab.get_filter false s.psn (fun loc => !cold && s.hub.skips loc) a
  rw [kept_iff, hb, hp]
  exact ⟨fun h => ⟨if_pos h, if_pos h⟩, fun h => ⟨if_neg h, if_neg h⟩⟩

/-! The reset of a die's cores -/

theorem h_pool_unbindNotice (s : State) (a b c d : Nat) : (s.unbindNotice a b c d).h = s.h ∧ (s.unbindNotice a b c d).pool = s.pool := by
  unfold State.unbindNotice State.hostPost
  split
  · simp only []
    split <;> exact ⟨rfl, rfl⟩
  · exact ⟨rfl, rfl⟩

/-- The hart that ends is in hand no more, and in the pool no more. -/
theorem h_pool_endHart {s : State} {n : Nat} {k : Hart} (hk : s.hart n = some k) :
    (s.endHart n).h = (if s.h.hid = n then Hart.blank else s.h) ∧ (s.endHart n).pool = s.pool.filter (fun k => k.hid ≠ n) := by
  unfold State.endHart
  split
  · next hn => simp [hk] at hn
  · extract_lets s1 s2 s3
    obtain ⟨hh, hp⟩ : s3.h = s.h ∧ s3.pool = s.pool := by
      unfold s3
      split
      · exact h_pool_unbindNotice ..
      · exact ⟨rfl, rfl⟩
    exact ⟨congrArg (fun k : Hart => if k.hid = n then Hart.blank else k) hh, congrArg (List.filter _) hp⟩

theorem mem_harts_endHart {s : State} {n : Nat} {k : Hart} (h : k ∈ (s.endHart n).harts) : k ∈ s.harts ∧ k.hid ≠ n := by
  cases hn : s.hart n with
  | none =>
    have hs : s.endHart n = s := by simp only [State.endHart, hn]
    rw [hs] at h
    have hall := List.find?_eq_none.mp hn k h
    exact ⟨h, by simpa using hall⟩
  | some j =>
    obtain ⟨hh, hp⟩ := h_pool_endHart hn
    unfold State.harts at h ⊢
    rw [hh, hp] at h
    have hpool : ∀ k ∈ s.pool.filter (fun k => k.hid ≠ n), k ∈ s.pool ∧ k.hid ≠ n := fun k hk => by simpa using List.mem_filter.mp hk
    by_cases hid : s.h.hid = n
    · rw [if_pos hid, show Hart.blank.live = false from rfl] at h
      obtain ⟨hk, hne⟩ := hpool k h
      exact ⟨by split <;> simp [hk], hne⟩
    · rw [if_neg hid] at h
      split at h
      · next hl =>
        rw [if_pos hl]
        rcases List.mem_cons.mp h with rfl | h
        · exact ⟨List.mem_cons_self, hid⟩
        · exact ⟨List.mem_cons_of_mem _ (hpool k h).1, (hpool k h).2⟩
      · next hl =>
        rw [if_neg hl]
        exact hpool k h

theorem mem_harts_endHarts {s : State} {l : List Hart} {k : Hart} (h : k ∈ (l.foldl (fun t h => t.endHart h.hid) s).harts) :
    k ∈ s.harts ∧ ∀ j ∈ l, k.hid ≠ j.hid := by
  induction l generalizing s with
  | nil => exact ⟨h, by simp⟩
  | cons j l ih =>
    obtain ⟨h1, h2⟩ := ih h
    obtain ⟨h3, h4⟩ := mem_harts_endHart h1
    exact ⟨h3, List.forall_mem_cons.mpr ⟨h4, h2⟩⟩

/-- What a hart's end leaves of the machine-check ring: all of it, and the time. -/
def State.ringView (s : State) : List (List Word) × Nat × Nat × Nat := (s.mcRing, s.hub.mchead, s.hub.mctail, s.gtb)

/-- A record of the same ring, and of the same time. -/
theorem mcRing_of_ringView {s t : State} (h : t.ringView = s.ringView) (hroom : (s.hub.mchead + 2 ^ 32 - s.hub.mctail) % 2 ^ 32 < 4096)
    (a b c d e : Nat) (w : Word) (f : Nat) : (t.mcheck a b c d e w f).mcRing = s.mcRing ++ [mcWords a b c d e w s.gtb f] := by
  obtain ⟨hmc, hhead, htail, hgtb⟩ : t.mcRing = s.mcRing ∧ t.hub.mchead = s.hub.mchead ∧ t.hub.mctail = s.hub.mctail ∧ t.gtb = s.gtb := by
    simpa only [State.ringView, Prod.mk.injEq] using h
  rw [← hhead, ← htail] at hroom
  rw [mcRing_mcheck hroom, hmc, hgtb]

theorem ringView_hostPost (s : State) (a b : Nat) (l : List Byte) : (s.hostPost a b l).ringView = s.ringView := by
  unfold State.hostPost; simp only []; split <;> rfl

theorem ringView_unbindNotice (s : State) (a b c d : Nat) : (s.unbindNotice a b c d).ringView = s.ringView := by
  unfold State.unbindNotice
  split
  · exact ringView_hostPost ..
  · rfl

theorem ringView_endHart (s : State) (n : Nat) : (s.endHart n).ringView = s.ringView := by
  unfold State.endHart
  split
  · rfl
  · next h _ =>
    extract_lets s1 s2 s3
    show s3.ringView = _
    unfold s3
    split
    · exact ringView_unbindNotice ..
    · rfl

/-- A core whose tiles and weight slots are empty. -/
def Core.emptied (c : Core) : Prop := c.tiles = [] ∧ c.slots = []

theorem emptied_resetCore (s : State) (n c : Nat) (h : c = n ∨ (s.core c).emptied) : ((s.resetCore n).core c).emptied := by
  have hg : (s.resetCore n).core c = if c = n then { s.core n with tiles := [], slots := [], recheck := [] } else s.core c := Tab.get_set ..
  rw [hg]
  split
  · exact ⟨rfl, rfl⟩
  · next hc => exact h.resolve_left hc

theorem harts_setDie (s : State) (d : Nat) (f : Die → Die) : (s.setDie d f).harts = s.harts := rfl

theorem core_setDie (s : State) (d : Nat) (f : Die → Die) (c : Nat) : (s.setDie d f).core c = s.core c := rfl

theorem die_setDie_self (s : State) (d : Nat) (f : Die → Die) : (s.setDie d f).die d = f (s.die d) := Tab.get_set_self ..

theorem ringView_setDie (s : State) (d : Nat) (f : Die → Die) : (s.setDie d f).ringView = s.ringView := rfl

theorem harts_resetCores (l : List Nat) (s : State) : (l.foldl State.resetCore s).harts = s.harts :=
  foldl_keeps State.harts State.resetCore (by intros; rfl) l s

theorem ringView_resetCores (l : List Nat) (s : State) : (l.foldl State.resetCore s).ringView = s.ringView :=
  foldl_keeps State.ringView State.resetCore (by intros; rfl) l s

theorem emptied_resetCores (l : List Nat) (s : State) (c : Nat) (h : c ∈ l ∨ (s.core c).emptied) : ((l.foldl State.resetCore s).core c).emptied := by
  induction l generalizing s with
  | nil => exact h.resolve_left List.not_mem_nil
  | cons n l ih =>
    rw [List.mem_cons, or_assoc] at h
    rcases h with h | h | h
    · exact ih _ (.inr (emptied_resetCore s n c (.inl h)))
    · exact ih _ (.inl h)
    · exact ih _ (.inr (emptied_resetCore s n c (.inr h)))

/-- The cores of a die are those of its 25 numbers (R14). -/
theorem mem_coresOf {c die : Nat} (h : c / 25 = die) : c ∈ (List.range 25).map (fun i => die * 25 + i) :=
  List.mem_map.mpr ⟨c % 25, List.mem_range.mpr (Nat.mod_lt _ (by decide)), by omega⟩

theorem harts_of_unrecorded {s t : State} (h : t.unrecorded = s.unrecorded) : t.harts = s.harts := (congrArg State.harts h :)

theorem die_of_unrecorded {s t : State} (h : t.unrecorded = s.unrecorded) (d : Nat) : t.die d = s.die d := congrArg (fun u => u.die d) h

theorem core_of_unrecorded {s t : State} (h : t.unrecorded = s.unrecorded) (c : Nat) : t.core c = s.core c := congrArg (fun u => u.core c) h

/-- A reset of a die's cores (R436): its harts, its tiles and slots, and its record. -/
theorem dieCoreReset_effect {s : State} {die : Nat} (h8 : die < 8) :
    ∃ t, exec (.dieCoreReset die) s = .next t ∧ (∀ k ∈ t.harts, k.die ≠ die) ∧ (t.die die).inReset = true ∧
      (∀ c, c / 25 = die → (t.core c).tiles = [] ∧ (t.core c).slots = []) ∧
      ((s.hub.mchead + 2 ^ 32 - s.hub.mctail) % 2 ^ 32 < 4096 → t.mcRing = s.mcRing ++ [mcWords 13 die 0 0xFFFF die 0 s.gtb 0]) := by
  let s0 : State := { s with flying := s.flying ++ s.inFlight die }
  let l := s.harts.filter (fun h => h.die == die)
  let s1 := l.foldl (fun t h => t.endHart h.hid) s0
  let cs := (List.range 25).map (fun i => die * 25 + i)
  let s2 := cs.foldl State.resetCore s1
  let s3 := s2.setDie die (fun d => { d with inReset := true })
  have hexec : exec (.dieCoreReset die) s = .next (s3.mcheck 13 die 0 0xFFFF die 0 0) := by
    show execDieCoreReset die s = _
    rw [execDieCoreReset, if_neg (by omega)]
  have hview := unrecorded_mcheck s3 13 die 0 0xFFFF die 0 0
  have hharts : (s3.mcheck 13 die 0 0xFFFF die 0 0).harts = s1.harts := by
    rw [harts_of_unrecorded hview, harts_setDie, harts_resetCores]
  have hring : s3.ringView = s.ringView := by
    have h1 : s1.ringView = s0.ringView := foldl_keeps State.ringView _ (fun t h => ringView_endHart t h.hid) l s0
    rw [ringView_setDie, ringView_resetCores]
    exact h1
  refine ⟨_, hexec, fun k hk => ?_, ?_, fun c hc => ?_, fun hroom => ?_⟩
  · rw [hharts] at hk
    obtain ⟨hk1, hk2⟩ := mem_harts_endHarts hk
    intro hd
    exact hk2 k (List.mem_filter.mpr ⟨hk1, by simpa using hd⟩) rfl
  · rw [die_of_unrecorded hview, die_setDie_self]
  · rw [core_of_unrecorded hview, core_setDie]
    exact emptied_resetCores cs s1 c (.inl (mem_coresOf hc))
  · exact mcRing_of_ringView hring hroom ..

/-- The state after the reset of a field die (R68). -/
def State.fieldReset (s : State) (f : Nat) : State :=
  ((s.releaseLines f).setPlough f (fun p => { p with stat := if p.stat = 1 then 4 else p.stat, todo := [] })).setDie (8 + f)
    (fun d => { d with inc := d.inc + 1 })

theorem plough_setPlough_self (s : State) (f : Nat) (g : Plough → Plough) : (s.setPlough f g).plough f = g (s.plough f) := Tab.get_set_self ..

theorem plough_setDie (s : State) (d : Nat) (g : Die → Die) (f : Nat) : (s.setDie d g).plough f = s.plough f := rfl

theorem fieldReset_effect (s : State) (f : Nat) :
    ((s.fieldReset f).plough f).stat = (if (s.plough f).stat = 1 then 4 else (s.plough f).stat) ∧ ((s.fieldReset f).plough f).own = false ∧
      (∀ c ∈ (s.fieldReset f).copied, c.1 ≠ f) ∧ ((s.fieldReset f).die (8 + f)).inc = (s.die (8 + f)).inc + 1 ∧ SameBytes s (s.fieldReset f) := by
  have hp : (s.fieldReset f).plough f = { s.plough f with own := false, stat := if (s.plough f).stat = 1 then 4 else (s.plough f).stat, todo := [] } := by
    rw [State.fieldReset, plough_setDie, plough_setPlough_self, State.releaseLines, plough_setPlough_self]
    rfl
  rw [hp]
  refine ⟨rfl, rfl, fun c hc => ?_, ?_, fun _ => rfl⟩
  · exact of_decide_eq_true (List.mem_filter.mp (show c ∈ s.copied.filter (fun c => c.1 ≠ f) from hc)).2
  · rw [State.fieldReset, die_setDie_self]
    rfl

/-! Negotiation -/

/-- An announcement is one frame, to every chip, with this chip's incarnation (R26, R451). -/
theorem announce_effect (s : State) :
    { s.announce with hub := s.hub, outbox := s.outbox } = s ∧ { s.announce.hub with fabSeq := s.hub.fabSeq } = s.hub ∧
      (s.portsUp = true → (s.tenant 0).replay = false →
        ∃ fr, s.announce.outbox = s.outbox ++ [fr] ∧ fr.dst = 0xFFFF ∧ fr.src = s.hub.hchip ∧ fr.inc = s.hub.chipInc) := by
  unfold State.announce State.sendFrame
  simp only []
  split
  · next h =>
    refine ⟨rfl, rfl, fun hup hr => ?_⟩
    simp [hup, hr] at h
  · exact ⟨rfl, rfl, fun _ _ => ⟨_, rfl, rfl, rfl, rfl⟩⟩

theorem closeNegotiation_open {s : State} (h : s.hub.phase = 6) :
    { s.closeNegotiation with hub := s.hub, outbox := s.outbox } = s ∧ { s.closeNegotiation.hub with fabSeq := s.hub.fabSeq } = negotiated s.hub ∧
      (bit (negotiated s.hub).feat0 1 = true → s.hub.hchip ≠ 0xFFFF → (s.tenant 0).replay = false →
        ∃ fr, s.closeNegotiation.outbox = s.outbox ++ [fr] ∧ fr.dst = 0xFFFF ∧ fr.src = s.hub.hchip ∧ fr.inc = s.hub.chipInc) := by
  have hs : s.closeNegotiation = (s.setHub negotiated).announce := by
    rw [State.closeNegotiation, if_pos h]
    rfl
  obtain ⟨hrest, hhub, hframe⟩ := announce_effect (s.setHub negotiated)
  rw [hs]
  refine ⟨?_, hhub, fun hbit hchip => hframe ?_⟩
  · have h2 := congrArg (fun u : State => { u with hub := s.hub }) hrest
    exact h2
  · have hne : (s.hub.hchip != 0xFFFF) = true := by simpa using hchip
    show (bit (negotiated s.hub).feat0 1 && (s.hub.featSet || true) && (s.hub.hchip != 0xFFFF)) = true
    rw [hbit, hne, Bool.or_true]
    rfl

/-! Announcements and zeroing -/

theorem obj_chipRestarted (s : State) (chip off : Nat) : (s.chipRestarted chip).obj off = (s.obj off).map (ghostChip chip) :=
  Tab.get_map (ghostChip chip) s.objs off

theorem byteAt_zeroRegion (s : State) (n a : Nat) :
    (s.zeroRegion n).byteAt a = if n * 2 ^ 30 ≤ a ∧ a < (n + 1) * 2 ^ 30 then 0 else s.byteAt a := by
  have h : (s.zeroRegion n).byteAt a = if (decide (a < n * 2 ^ 30) || decide ((n + 1) * 2 ^ 30 ≤ a)) = true then s.byteAt a else 0 :=
    Tab.get_filter 0 s.mem (fun loc => decide (loc < n * 2 ^ 30) || decide ((n + 1) * 2 ^ 30 ≤ loc)) a
  rw [h]
  by_cases ha : n * 2 ^ 30 ≤ a ∧ a < (n + 1) * 2 ^ 30
  · rw [if_pos ha, if_neg (by simp only [Bool.or_eq_true, decide_eq_true_eq]; omega)]
  · rw [if_neg ha, if_pos (by simp only [Bool.or_eq_true, decide_eq_true_eq]; omega)]

/-- The state after a chip has announced an incarnation (R26). -/
def State.announced (s : State) (chip inc : Nat) : State :=
  (if Tab.get none s.hub.peers chip = none ∨ Tab.get none s.hub.peers chip = some inc then s else s.chipRestarted chip).setHub
    (fun b => { b with peers := Tab.set none b.peers chip (some inc) })

theorem exec_announcement (s : State) (chip : Nat) (inc : BitVec 12) :
    exec (.chipIncarnationAnnouncement chip inc) s = .next (s.announced chip inc.toNat) := by
  show execChipIncarnationAnnouncement chip inc s = _
  unfold execChipIncarnationAnnouncement State.announced
  cases Tab.get none s.hub.peers chip with
  | none => rfl
  | some old =>
    simp only [reduceCtorEq, false_or, Option.some.injEq]

theorem announced_same {s : State} {chip inc : Nat} (h : Tab.get none s.hub.peers chip = none ∨ Tab.get none s.hub.peers chip = some inc) :
    { s.announced chip inc with hub := s.hub } = s := by
  rw [State.announced, if_pos h]
  rfl

theorem announced_restart {s : State} {chip inc old : Nat} (h : Tab.get none s.hub.peers chip = some old) (hne : old ≠ inc) :
    (∀ off, (s.announced chip inc).obj off = (s.obj off).map (ghostChip chip)) ∧ ∀ fr ∈ (s.announced chip inc).parts, fr.src ≠ chip := by
  rw [State.announced, if_neg (by simp [h, hne])]
  refine ⟨fun off => obj_chipRestarted s chip off, fun fr hfr => ?_⟩
  exact of_decide_eq_true (List.mem_filter.mp (show fr ∈ s.parts.filter (fun fr => fr.src ≠ chip) from hfr)).2

theorem announced_hub_bytes (s : State) (chip inc : Nat) :
    SameBytes s (s.announced chip inc) ∧ (s.announced chip inc).hub = { s.hub with peers := Tab.set none s.hub.peers chip (some inc) } := by
  unfold State.announced
  split <;> exact ⟨fun _ => rfl, rfl⟩

/-! Hub registers -/

theorem gtbset_effect (s : State) (v : Word) :
    if s.hub.phase = 6 ∧ s.hub.cold = true ∧ s.hub.gtbSet = false ∧ s.hub.spawned = false then
      (s.gtbset v).gtb = v.toNat ∧ (s.gtbset v).hub.gtbSet = true ∧ SameBytes s (s.gtbset v)
    else s.gtbset v = s := by
  have hiff : (s.hub.phase = 6 ∧ s.hub.cold = true ∧ s.hub.gtbSet = false ∧ s.hub.spawned = false) ↔
      (decide (s.hub.phase = 6) && s.hub.cold && !s.hub.gtbSet && !s.hub.spawned) = true := by
    simp [and_assoc]
  rw [State.gtbset]
  simp only [hiff]
  split
  · exact ⟨rfl, rfl, fun _ => rfl⟩
  · rfl

/-- FTMAP is written in PHASE 6 with a legal value; another write is counted as refused (R64). -/
theorem ftmap_cases (s : State) (v : Word) :
    (s.hub.phase = 6 ∧ ftmapLegal v.toNat → s.ftmap v = s.setHub (fun b => { b with ftmap := v &&& 0xFFFF07FF00000007#64 })) ∧
      (¬(s.hub.phase = 6 ∧ ftmapLegal v.toNat) → s.ftmap v = s.setHub (fun b => { b with refused := satInc b.refused 32 })) := by
  have h3 : v.toNat % 8 = bits v.toNat 0 3 := by simp [bits]
  rw [ftmapLegal, h3]
  simp only [State.ftmap, Bool.and_eq_true, decide_eq_true_eq, and_assoc]
  exact ⟨fun h => if_pos h, fun h => if_neg h⟩

theorem ifAnswers_of_ne {s : State} (h : s.hub.phase ≠ 8) (f : State → State) : s.ifAnswers f = f s := by
  rw [State.ifAnswers, if_pos (by simpa [State.answers] using h)]

theorem ifAnswers_of_eq {s : State} (h : s.hub.phase = 8) (f : State → State) : s.ifAnswers f = s := by
  rw [State.ifAnswers, if_neg (by simp [State.answers, h])]

theorem exec_hubTable {s : State} {v : Word} {e : Instr × Bool × Hub} (he : e ∈ hubTable s v) :
    exec e.1 s = .next (if e.2.1 then { s with hub := e.2.2 } else s) := by
  delta hubTable at he
  simp only [List.mem_cons, List.not_mem_nil, or_false] at he
  rcases he with rfl | rfl | rfl | rfl
  · rfl
  · rfl
  · show execHchipWrite v s = _
    rw [execHchipWrite, State.setChip]
    by_cases h : s.hub.phase = 6
    · rw [if_pos h, if_pos (beq_iff_eq.mpr h)]
      rfl
    · rw [if_neg h, if_neg (by simpa using h)]
  · rfl

/-- A zeroing begins (R76): the region's bytes are cleared, and its clean bit reads 1 only when the zeroing has ended. -/
theorem zreqWrite_go {s : State} {v : Word} (hbusy : s.hub.zreqBusy = false) (h : bit v.toNat 63 = true) :
    s.zreqWrite v = (s.setHub (fun b => { b with zreq := bits v.toNat 0 10, zreqBusy := true })).zeroRegion (bits v.toNat 0 10) := by
  simp only [State.zreqWrite, hbusy, h, Bool.false_eq_true, if_false, if_true]

/-! Scrubs -/

theorem ecc_psn_mcheckUnit (s : State) (tag hid u : Nat) {x : Nat} (hx : inMcRing x = false) :
    Tab.get 0 (s.mcheckUnit tag hid u).ecc x = Tab.get 0 s.ecc x ∧ Tab.get false (s.mcheckUnit tag hid u).psn x = Tab.get false s.psn x := by
  unfold State.mcheckUnit State.mcheckMem
  split
  · exact ecc_psn_mcheck _ _ _ _ _ _ _ _ hx
  · split <;> exact ecc_psn_mcheck _ _ _ _ _ _ _ _ hx

theorem checkUnit_clean {s : State} {u : Nat} (h : Tab.get 0 s.ecc u = 0) (tag hid : Nat) : s.checkUnit tag hid u = s := by
  simp only [State.checkUnit, h]

/-- A correctable error is corrected, and counted by the die that holds the unit (R72). -/
theorem checkUnit_correctable {s : State} {u : Nat} (h : Tab.get 0 s.ecc u = 1) (tag hid : Nat) :
    s.checkUnit tag hid u = ({ s with ecc := Tab.set 0 s.ecc u 0 } : State).setDie (if isMain u then (memFinder s.hub u).1 else dieOfLoc u)
      (fun d => { d with corrected := d.corrected + 1 }) := by
  simp only [State.checkUnit, h]

/-- An uncorrectable error is found once, and leaves its unit marked. -/
theorem checkUnit_uncorrectable {s : State} {u : Nat} (h : 2 ≤ Tab.get 0 s.ecc u) (tag hid : Nat) (hmark : u ∈ marksOf u)
    (hring : inMcRing u = false) :
    Tab.get 0 (s.checkUnit tag hid u).ecc u = 0 ∧ Tab.get false (s.checkUnit tag hid u).psn u = true := by
  unfold State.checkUnit
  split
  · omega
  · omega
  · simp only []
    split
    · next hp => exact ⟨Tab.get_set_self 0 s.ecc u 0, hp⟩
    · obtain ⟨he, hp⟩ := ecc_psn_mcheckUnit { s with ecc := Tab.set 0 s.ecc u 0, psn := putMarks s.psn true (marksOf u) } tag hid u hring
      rw [he, hp, get_putMarks, if_pos hmark]
      exact ⟨Tab.get_set_self 0 s.ecc u 0, rfl⟩

/-- A unit of the near tier, or of the Comb, and the die that holds it. -/
theorem scrubTable_unit {sector off : Nat} {e : Instr × Bool × Nat × Nat} (he : e ∈ scrubTable sector off) (h : e.2.1 = true) (hub : Hub) :
    e.2.2.1 ∈ marksOf e.2.2.1 ∧ (if isMain e.2.2.1 then (memFinder hub e.2.2.1).1 else dieOfLoc e.2.2.1) = e.2.2.2 := by
  delta scrubTable at he
  simp only [List.mem_cons, List.not_mem_nil, or_false] at he
  rcases he with rfl | rfl
  · have hn : 32 * sector < 2 ^ 40 := of_decide_eq_true h
    have hmain : isMain (32 * sector) = true := decide_eq_true (by omega)
    simp only [marksOf, hmain, memFinder, if_pos hn, Bool.true_and, if_true]
    rw [if_neg (by simp only [decide_eq_true_eq]; omega)]
    exact ⟨List.mem_singleton_self _, trivial⟩
  · have hn : off < 2 ^ 28 := of_decide_eq_true h
    have hmain : isMain (locComb (off / 8 * 8)) = false := decide_eq_false (by unfold locComb; omega)
    have hcomb : isComb (locComb (off / 8 * 8)) = true := by
      unfold isComb locComb
      rw [decide_eq_true (by omega), decide_eq_true (by omega)]
      rfl
    have hsub : locComb (off / 8 * 8) - 2 ^ 52 = off / 8 * 8 := by unfold locComb; omega
    simp only [marksOf, hmain, hcomb, hsub, dieOfLoc, Bool.false_and, Bool.false_eq_true, if_false, if_true]
    exact ⟨List.mem_singleton_self _, trivial⟩

theorem exec_scrubTable {sector off : Nat} {e : Instr × Bool × Nat × Nat} (he : e ∈ scrubTable sector off) (s : State) :
    exec e.1 s = .next (if e.2.1 = true then s.checkUnit 0 noHart e.2.2.1 else s) := by
  delta scrubTable at he
  simp only [List.mem_cons, List.not_mem_nil, or_false] at he
  rcases he with rfl | rfl
  · show execPatrolScrub sector s = _
    simp only [execPatrolScrub, decide_eq_true_eq]
  · show execCombPatrolScrub off s = _
    simp only [execCombPatrolScrub, decide_eq_true_eq]

end Sys2Proof.Machine

namespace Sys2Proof.Claims

open Sys2Proof.Machine

/-- Settles O56: what each event leaves, then the registers of the hub, and the check of one unit for the scrubs. -/
theorem machineEvents : Obligations.MachineEvents := by
  unfold Obligations.MachineEvents
  refine ⟨?starts, ?resets, ?hub, ?scrubs⟩
  case starts =>
    intro s cold
    refine ⟨s.start cold, by cases cold <;> rfl, rfl, rfl, rfl, rfl, fun a => start_memory s cold a, rfl, rfl, rfl, rfl, rfl, rfl, rfl, rfl, rfl, ?_, rfl,
      fun d hd => ?_, rfl⟩
    · cases cold <;> rfl
    · have hdie : (s.start cold).die d = { Die.reset with inc := (s.die d).inc + 1 } := get_startedDies s hd
      rw [hdie]
      exact ⟨rfl, rfl⟩
  case resets =>
    intro s die
    refine ⟨dieCoreReset_effect, fun hr => ⟨s.setDie die (fun d => { d with inReset := false, inc := d.inc + 1 }), ?_, ?_, ?_, rfl⟩, ?_⟩
    · show execDieLeavesReset die s = _
      rw [execDieLeavesReset, if_pos hr]
    · rw [die_setDie_self]
    · rw [die_setDie_self]
    · exact ⟨_, rfl, fieldReset_effect s die⟩
  case hub =>
    intro s v chip inc
    obtain ⟨hbytes, hhub⟩ := announced_hub_bytes s chip inc.toNat
    refine ⟨fun e he => exec_hubTable he, fun h => ?_, fun h => ⟨_, rfl, closeNegotiation_open h⟩,
      ⟨_, exec_announcement s chip inc, hbytes, hhub, announced_same, fun old h hne => announced_restart h hne⟩, ⟨_, rfl, gtbset_effect s v⟩,
      ⟨_, rfl, ?_, fun ⟨h6, hl⟩ => ?_, fun h8 hl => ?_, fun h8 => ifAnswers_of_eq h8 _⟩, fun h => ?_, fun hbusy h8 hgo => ?_⟩
    · show execNegotiationClose s = _
      rw [execNegotiationClose, State.closeNegotiation, if_neg h]
    · rw [State.ifAnswers, State.ftmap]
      split
      · split <;> rfl
      · rfl
    · rw [ifAnswers_of_ne (by omega), (ftmap_cases s v).1 ⟨h6, hl⟩]
      exact ⟨rfl, rfl⟩
    · rw [ifAnswers_of_ne h8, (ftmap_cases s v).2 hl]
      exact ⟨rfl, rfl⟩
    · show execZreqGo v s = _
      rw [execZreqGo]
      rcases h with h | h
      · rw [State.ifAnswers, State.zreqWrite, if_pos h, ite_self]
      · rw [ifAnswers_of_eq h]
    · intro n
      have hexec : exec (.zreqGo v) s = .next ((s.setHub (fun b => { b with zreq := n, zreqBusy := true })).zeroRegion n) := by
        show execZreqGo v s = _
        rw [execZreqGo, ifAnswers_of_ne h8, zreqWrite_go hbusy hgo]
      exact ⟨_, hexec, rfl, bit_setBit_self .., bit_setBit_self .., fun a => byteAt_zeroRegion ..⟩
  case scrubs =>
    intro s sector off e he
    refine ⟨_, exec_scrubTable he s, fun a ha => ?_, fun h => ?_, fun h h1 => ?_, fun h h2 hring => ?_⟩
    · split
      · exact byteAt_checkUnit s 0 noHart _ a ha
      · rfl
    · split
      · next ht => exact checkUnit_clean (h.resolve_left (by simp [ht])) ..
      · rfl
    · obtain ⟨-, hdie⟩ := scrubTable_unit he h s.hub
      rw [if_pos h, checkUnit_correctable h1, hdie]
      exact ⟨Tab.get_set_self 0 s.ecc _ 0, rfl, congrArg Die.corrected (die_setDie_self ..)⟩
    · rw [if_pos h]
      exact checkUnit_uncorrectable h2 _ _ (scrubTable_unit he h s.hub).1 hring

end Sys2Proof.Claims
end

section
/-! PROOFS. What reaches the package from outside (R26, R345, R349, R360, R445, R446, R457, R460, R461). -/

namespace Sys2Proof.Machine

open Sys2Proof.Claims

/-! A frame received -/

theorem receive_malformed {s : State} {k : Nat} {fr : Frame} (h : s.frameOk k fr = false) (f : State → State) :
    s.receive k fr f = .next (s.dropFrame false) := by
  simp only [State.receive, h, Bool.not_false, if_true]

theorem receive_stale {s : State} {k : Nat} {fr : Frame} (h : s.frameOk k fr = true) (h2 : s.frameFresh fr = false) (f : State → State) :
    s.receive k fr f = .next (s.dropFrame true) := by
  simp only [State.receive, h, h2, Bool.not_true, Bool.not_false, Bool.false_eq_true, if_false, if_true]

theorem receive_admitted {s : State} {k : Nat} {fr : Frame} (h : Admitted s k fr) (f : State → State) :
    s.receive k fr f = .next (f (if k = 2 then s else s.logArrival fr.tag fr)) := by
  simp only [State.receive, h.1, h.2, Bool.not_true, Bool.false_eq_true, if_false]

/-- What a frame's instruction does with a frame that it does not admit (R26, R461). -/
def DropsFrame (i : Instr) (k : Nat) (fr : Frame) : Prop :=
  ∀ s : State, (s.frameOk k fr = false → exec i s = .next (s.dropFrame false)) ∧
    (s.frameOk k fr = true → s.frameFresh fr = false → exec i s = .next (s.dropFrame true))

theorem dropsFrame_of_receive {i : Instr} {k : Nat} {fr : Frame} {f : State → State} (h : ∀ s, exec i s = s.receive k fr f) : DropsFrame i k fr :=
  fun s => ⟨fun h1 => (h s).trans (receive_malformed h1 f), fun h1 h2 => (h s).trans (receive_stale h1 h2 f)⟩

theorem dropsFrame_trigger (fr : Frame) : DropsFrame (.fabricTrigger fr) 9 fr := by
  intro s
  refine ⟨fun h => ?_, fun h h2 => ?_⟩
  · show execFabricTrigger fr s = _
    simp only [execFabricTrigger, h, Bool.not_false, if_true]
  · show execFabricTrigger fr s = _
    simp only [execFabricTrigger, h, h2, Bool.not_true, Bool.not_false, Bool.false_eq_true, if_false, if_true]

theorem dropsFrame_frameTable {fr : Frame} {e : Instr × Nat} (he : e ∈ frameTable fr) : DropsFrame e.1 e.2 fr := by
  delta frameTable at he
  simp only [List.mem_cons, List.not_mem_nil, or_false] at he
  rcases he with rfl | rfl | rfl | rfl | rfl | rfl | rfl | rfl | rfl
  · exact dropsFrame_of_receive (f := fun t => t.fabPut fr) (fun _ => rfl)
  · exact dropsFrame_of_receive (f := fun t => t.fabGet fr) (fun _ => rfl)
  · exact dropsFrame_of_receive (f := fun t => t.fabPut fr) (fun _ => rfl)
  · exact dropsFrame_of_receive (f := fun t => t.fabSend fr) (fun _ => rfl)
  · exact dropsFrame_of_receive (f := fun t => t.fabArrival fr) (fun _ => rfl)
  · exact dropsFrame_of_receive (f := fun t => t.fabResult fr) (fun _ => rfl)
  · exact dropsFrame_of_receive (f := fun t => t.fabColl fr) (fun _ => rfl)
  · exact dropsFrame_of_receive (f := id) (fun _ => rfl)
  · exact dropsFrame_trigger fr

theorem frameDrop_unknown {s : State} {fr : Frame} (h : fr.kind = 0 ∨ 9 < fr.kind) :
    exec (.fabricFrameDrop fr) s = .next (s.dropFrame false) := by
  show execFabricFrameDrop fr s = _
  rw [execFabricFrameDrop, if_neg]
  simp only [Bool.and_eq_true, decide_eq_true_eq]
  omega

theorem frameDrop_stale {s : State} {fr : Frame} (h : s.frameOk fr.kind fr = true) (h1 : 1 ≤ fr.kind) (h9 : fr.kind ≤ 9)
    (h2 : s.frameFresh fr = false) : exec (.fabricFrameDrop fr) s = .next (s.dropFrame true) := by
  show execFabricFrameDrop fr s = _
  rw [execFabricFrameDrop, if_pos (by simp only [h, h1, h9, decide_true, Bool.and_self]), h2]
  rfl

/-! The arrival log -/

/-- The state without what an arrival's entry in the log may change. -/
def State.unlogged (s : State) : State := { s with alog := [], tenants := [] }

theorem unlogged_logArrival (s : State) (tag : Nat) (fr : Frame) : (s.logArrival tag fr).unlogged = s.unlogged := by
  unfold State.logArrival
  simp only []
  split
  · rfl
  · split <;> rfl

/-- Of a tenant's block, only the overflow of its log. -/
theorem tenant_logArrival (s : State) (tag : Nat) (fr : Frame) (n : Nat) :
    ((s.logArrival tag fr).tenant n) = { s.tenant n with logOvf := ((s.logArrival tag fr).tenant n).logOvf } := by
  unfold State.logArrival
  simp only []
  split
  · rfl
  · split
    · rfl
    · have hg : (s.setTenant tag (fun t => { t with logOvf := true })).tenant n =
          if n = tag then { s.tenant tag with logOvf := true } else s.tenant n := Tab.get_set ..
      rw [hg]
      split
      · next hn => rw [hn]
      · rfl

/-! Bytes written and read from outside -/

theorem hasKey_markLine (s : State) (pl : Place) (t : Nat) : (s.markLine pl).hasKey t = s.hasKey t := by
  unfold State.markLine
  split
  · split <;> rfl
  · rfl

/-- A write at a place of main memory, under a key. -/
theorem byteAt_writeAt {s : State} {a : Actor} {pl : Place} (hreg : pl.reg = none) (hkey : s.hasKey a.tid = true) (bs : List Byte) {i : Nat}
    (hi : i < bs.length) : (s.writeAt a pl bs false).byteAt (pl.loc + i) = bs.getD i 0 := by
  have hk : (isMain pl.loc && !(s.markLine pl).hasKey a.tid) = false := by simp [hasKey_markLine, hkey]
  simp only [State.writeAt, hreg, State.write, State.perform, hk, Bool.false_eq_true, if_false]
  rw [State.byteAt, mem_countMem]
  refine (byteAt_store ..).trans ?_
  rw [if_pos (by omega), Nat.add_sub_cancel_left]

/-- Bytes that lie in one line are one run. -/
theorem outsidePut_line {s s1 : State} {host : Bool} {tag : Nat} {p : Word} {bs : List Byte} {pl : Place} (n : Nat) (hne : bs ≠ [])
    (hlen : bs.length ≤ 64 - p.toNat % 64) (hb : (host && s.behind tag) = false)
    (hacc : s.access (hostActor tag) .store p bs.length 1 = (s1, .ok pl)) (hopen : s1.openPlace tag p pl = true) :
    s.outsidePut host tag (n + 2) p bs = s1.writeAt (hostActor tag) pl bs false := by
  have hemp : bs.isEmpty = false := by simpa using hne
  have hw : s.outsideWrite host tag p bs = s1.writeAt (hostActor tag) pl bs false := by
    simp only [State.outsideWrite, hb, hacc, hopen, Bool.false_eq_true, if_false, if_true]
  simp only [State.outsidePut, hemp, List.take_of_length_le hlen, List.drop_of_length_le hlen, hw, Bool.false_eq_true, if_false, List.isEmpty_nil,
    if_true]

/-- A frame that leaves ports that are up, for a tenant that replays no log (R446, R461). -/
theorem sendFrame_out {s : State} {tag : Nat} (hr : (s.tenant tag).replay = false) (hup : s.portsUp = true) (kind dst target : Nat) (l : List Byte) :
    ∃ r, (s.sendFrame kind dst tag target l).outbox = s.outbox ++ [r] ∧ r.kind = kind ∧ r.dst = dst ∧ r.tag = tag ∧ r.target = target ∧
      r.data = l := by
  simp only [State.sendFrame, hr, hup, Bool.not_true, Bool.or_self, Bool.false_eq_true, if_false]
  exact ⟨_, rfl, rfl, rfl, rfl, rfl, rfl⟩

/-! A message at a channel with a free slot (R357) -/

theorem body_of_chan {s : State} {off : Nat} {o : Obj} {b : Chan} (h : s.chan off = some (o, b)) : o.body = .chan b := by
  unfold State.chan at h
  split at h
  · split at h
    · next hb =>
      cases h
      exact hb
    · cases h
  · cases h

theorem body_of_swarm {s : State} {off : Nat} {o : Obj} {b : Swarm} (h : s.swarm off = some (o, b)) : o.body = .swarm b := by
  unfold State.swarm at h
  split at h
  · split at h
    · next hb =>
      cases h
      exact hb
    · cases h
  · cases h

/-- The channel after a message has been put: one more is there, and no sender waits. -/
def Chan.put1 (b : Chan) (sil : Nat) : Chan := { b with tail := b.tail + 1, sil := sil, senders := [] }

/-- The state in which a message's bytes stand in its slot (R357). -/
def State.putBytesOf (s : State) (o : Obj) (b : Chan) (r : ChanReq) : State :=
  let loc := locComb (b.slot b.tail)
  let s1 := (s.count o.tag 7 1).store loc r.data false
  { s1 with psn := putMarks s1.psn true (r.bad.map (fun u => unitOf (loc + 8 * u))) }

theorem putMessage_eq (s : State) (off : Nat) (o : Obj) {b : Chan} {r : ChanReq} (hs : b.senders = [r]) :
    ∃ sil, s.putMessage off o b r = ((s.putBytesOf o b r).setBody off o (.chan (b.put1 sil))).sendResult off r.hid
      (statusWord b.tail.toNat 0xFFF 0 0) := by
  unfold State.putMessage
  simp only [hs, List.drop_one, List.tail_cons]
  exact ⟨_, rfl⟩

theorem chan_putMessage (s : State) (off : Nat) (o : Obj) {b : Chan} {r : ChanReq} (hs : b.senders = [r]) :
    ∃ o2 sil, (s.putMessage off o b r).chan off = some (o2, b.put1 sil) := by
  obtain ⟨sil, h⟩ := putMessage_eq s off o hs
  rw [h]
  exact ⟨_, sil, (chan_of_unsent (unsent_sendResult ..) off).trans (chan_setBody ..)⟩

theorem alog_putMessage (s : State) (off : Nat) (o : Obj) {b : Chan} {r : ChanReq} (hs : b.senders = [r]) :
    (s.putMessage off o b r).alog = s.alog := by
  obtain ⟨sil, h⟩ := putMessage_eq s off o hs
  have hcount : (s.count o.tag 7 1).alog = s.alog := (congrArg State.alog (count_only s o.tag 7 1) :)
  rw [h]
  exact (congrArg State.alog (unsent_sendResult ((s.putBytesOf o b r).setBody off o (.chan (b.put1 sil))) off r.hid
    (statusWord b.tail.toNat 0xFFF 0 0)) :).trans hcount

theorem tenant_setTenant_self (s : State) (n : Nat) (f : Tenant → Tenant) : (s.setTenant n f).tenant n = f (s.tenant n) := Tab.get_set_self ..

theorem sendResult_host {tag : Nat} (ht : tag ≤ 512) (s : State) (off : Nat) (v : Word) :
    s.sendResult off (hostId tag) v = s.setTenant tag (fun t => { t with hsres := v }) := by
  have hlow : ¬2 ^ 22 ≤ hostId tag := by unfold hostId; omega
  have hhost : (decide (65536 ≤ hostId tag) && decide (hostId tag < 2 ^ 17)) = true := by
    rw [decide_eq_true (by unfold hostId; omega), decide_eq_true (by unfold hostId; omega)]
    rfl
  have hnum : hostId tag - 65536 = tag := by unfold hostId; omega
  unfold State.sendResult
  rw [if_neg hlow, if_pos hhost, hnum]

/-- The host finds the result of its send in HSRES (R457). -/
theorem hsres_putMessage (s : State) (off : Nat) (o : Obj) {b : Chan} {r : ChanReq} (hs : b.senders = [r]) {tag : Nat} (hid : r.hid = hostId tag)
    (ht : tag ≤ 512) : ((s.putMessage off o b r).tenant tag).hsres = statusWord b.tail.toNat 0xFFF 0 0 := by
  obtain ⟨sil, h⟩ := putMessage_eq s off o hs
  rw [hid] at h
  rw [h, sendResult_host ht, tenant_setTenant_self]

/-- A channel at which nothing waits serves nothing. -/
theorem serveOne_idle {s : State} {off : Nat} {o : Obj} {b : Chan} (hb : s.chan off = some (o, b)) (hr : b.receivers = []) (hs : b.senders = []) :
    s.serveOne off = none := by
  have hnone : b.receiver = none := by simp [Chan.receiver, hr]
  simp only [State.serveOne, hb, hnone, hs, Option.filter_none]

/-- A channel with a free slot serves its one sender. -/
theorem serveOne_put {s : State} {off : Nat} {o : Obj} {b : Chan} {r : ChanReq} (hb : s.chan off = some (o, b)) (hr : b.receivers = [])
    (hs : b.senders = [r]) (hfree : (b.tail - b.head).toNat < b.nslot) (hok : s.producerOk b r.hid = true) :
    s.serveOne off = some (s.putMessage off o b r) := by
  have hnone : b.receiver = none := by simp [Chan.receiver, hr]
  simp only [State.serveOne, hb, hnone, hs, Option.filter_none, if_pos hfree, State.serveSender, if_pos hok]

/-- A message sent to a channel that has a free slot, and nothing waiting, is put at once. -/
theorem sendAt_free (s : State) (off : Nat) (o : Obj) {b : Chan} {r : ChanReq} (hs : b.senders = []) (hr : b.receivers = [])
    (hfree : (b.tail - b.head).toNat < b.nslot) (hok : ∀ t : State, t.producerOk { b with senders := [r] } r.hid = true) :
    s.sendAt off o b r = (s.setBody off o (.chan { b with senders := [r] })).putMessage off { o with body := .chan { b with senders := [r] } }
      { b with senders := [r] } r := by
  let b0 : Chan := { b with senders := [r] }
  let s0 := s.setBody off o (.chan b0)
  let t := s0.putMessage off { o with body := .chan b0 } b0 r
  have hc0 : s0.chan off = some ({ o with body := .chan b0 }, b0) := chan_setBody ..
  obtain ⟨o2, sil, hct⟩ : ∃ o2 sil, t.chan off = some (o2, b0.put1 sil) := chan_putMessage s0 off _ rfl
  have hput : s0.serveOne off = some t := serveOne_put hc0 hr rfl hfree (hok s0)
  have hserve : s0.serve off 2 = t := by
    rw [State.serve, hput]
    show t.serve off 1 = t
    rw [State.serve, serveOne_idle hct hr rfl]
  have hrecall : t.recallDst off = t := by
    have hnone : (b0.put1 sil).receiver = none := by simp [Chan.receiver, Chan.put1, b0, hr]
    simp only [State.recallDst, hct, Option.bind_some, hnone]
  have hall : s0.serveAll off = t := by
    simp only [State.serveAll, hc0]
    rw [show 2 * (b0.senders.length + b0.receivers.length) = 2 by simp only [b0, hr]; rfl, hserve, hrecall]
  have hstart : s.setBody off o (.chan { b with senders := b.senders ++ [r] }) = s0 := by rw [hs]; rfl
  simp only [State.sendAt, hstart, hall, hct, Chan.put1, List.contains_nil, Bool.not_false, Bool.or_true, if_true]
  rfl

section Logged

variable {s t : State} (h : t.unlogged = s.unlogged)

include h

theorem objNum_of_unlogged (n : Nat) : t.objNum n = s.objNum n := (congrArg (fun u : State => u.objNum n) h :)
theorem chan_of_unlogged (off : Nat) : t.chan off = s.chan off := (congrArg (fun u : State => u.chan off) h :)
theorem swarm_of_unlogged (off : Nat) : t.swarm off = s.swarm off := (congrArg (fun u : State => u.swarm off) h :)
theorem proxyOf_of_unlogged (tag chip n : Nat) : t.proxyOf tag chip n = s.proxyOf tag chip n := (congrArg (fun u : State => u.proxyOf tag chip n) h :)
theorem harts_of_unlogged : t.harts = s.harts := (congrArg State.harts h :)
theorem hart_of_unlogged (n : Nat) : t.hart n = s.hart n := (congrArg (fun u : State => u.hart n) h :)
theorem gtb_of_unlogged : t.gtb = s.gtb := (congrArg State.gtb h :)
theorem engine_of_unlogged (e : Nat) : t.engine e = s.engine e := (congrArg (fun u : State => u.engine e) h :)
theorem collCmd_of_unlogged (fr : Frame) : t.collCmd fr = s.collCmd fr := (congrArg (fun u : State => u.collCmd fr) h :)
theorem parts_of_unlogged : t.parts = s.parts := (congrArg State.parts h :)
theorem mem_of_unlogged : t.mem = s.mem := (congrArg State.mem h :)
theorem held_of_unlogged : t.held = s.held := (congrArg State.held h :)

end Logged

theorem st_logArrival (s : State) (tag : Nat) (fr : Frame) (n : Nat) : ((s.logArrival tag fr).tenant n).st = (s.tenant n).st := by
  rw [tenant_logArrival]

/-! Channel sends of other chips -/

theorem producerOk_far (s : State) {b : Chan} (h : b.pkind = 0) (chip hid : Nat) : s.producerOk b (farId chip hid) = true := by
  have hfar : 2 ^ 22 ≤ farId chip hid := by unfold farId; omega
  rw [State.producerOk, if_pos h, decide_eq_true hfar, Bool.or_true]

theorem producerOk_host (s : State) {b : Chan} (h : b.pkind = 2) {tag : Nat} (ht : tag ≤ 512) : s.producerOk b (hostId tag) = true := by
  have h1 : 65536 ≤ hostId tag := by unfold hostId; omega
  have h2 : hostId tag < 2 ^ 17 := by unfold hostId; omega
  rw [State.producerOk, if_neg (by omega), if_neg (by omega), decide_eq_true h1, decide_eq_true h2, Bool.and_self]

/-- A channel send of another chip puts its message into a free slot (R357, R461). -/
theorem fabSend_free {s : State} {fr : Frame} {off : Nat} {o : Obj} {b : Chan} (hn : s.objNum fr.target = some (off, o))
    (hf : FreeSlot s off fr.tag 0 o b) (hl : fr.data.length = 16 + b.sz) :
    (∃ o2 sil, (s.fabSend fr).chan off = some (o2, b.put1 sil)) ∧ (s.fabSend fr).alog = s.alog := by
  obtain ⟨hc, htag, hp, hs, hr, hfree⟩ := hf
  have hlen : (fr.data.drop 16).length = b.sz := by rw [List.length_drop]; omega
  let r : ChanReq := { hid := farId fr.src (frameDw fr 0), dead := frameDw fr 1, data := fr.data.drop 16, bad := [], dst := [] }
  have hsend : s.fabSend fr = s.sendAt off o b r := by
    simp only [State.fabSend, hn, body_of_chan hc, htag, hlen, decide_true, Bool.and_self, if_true]
    rfl
  have hok : ∀ t : State, t.producerOk { b with senders := [r] } r.hid = true := fun t => producerOk_far t hp ..
  rw [hsend, sendAt_free s off o hs hr hfree hok]
  exact ⟨chan_putMessage _ _ _ rfl, alog_putMessage _ _ _ rfl⟩

/-! Arrivals of members on other chips -/

/-- The record of a swarm after an arrival of a member (R345). -/
def Swarm.arrive (b : Swarm) (hid chip dead tick : Nat) (flip : Bool) : Swarm :=
  { b with members := b.members.map (fun m =>
      if m.hid = hid && m.chip = chip then
        { m with arrived := true, dead := if m.arrived then min m.dead dead else dead, tick := tick, flip := flip }
      else m) }

/-- An arrival while another member in good standing is awaited leaves the episode open. -/
theorem arriveAt_open {s : State} {off hid chip dead tick : Nat} {flip : Bool} {o : Obj} {b : Swarm} (hb : s.swarm off = some (o, b))
    (hd : s.gtb < dead) (hk : ∃ k ∈ b.members, k.good = true ∧ k.arrived = false ∧ k.hid ≠ hid) :
    s.arriveAt off hid chip dead tick flip = s.setBody off o (.swarm (b.arrive hid chip dead tick flip)) := by
  have hopen : (b.arrive hid chip dead tick flip).complete = false := by
    obtain ⟨k, hk, hg, ha, hne⟩ := hk
    rw [Swarm.complete, List.all_eq_false]
    refine ⟨k, List.mem_map.mpr ⟨k, hk, ?_⟩, by simp [hg, ha]⟩
    rw [if_neg (by simp [hne])]
  have hlate : ¬dead ≤ s.gtb := by omega
  have hno : ((b.arrive hid chip dead tick flip).complete || decide (dead ≤ s.gtb)) = false := by rw [hopen, decide_eq_false hlate]; rfl
  simp only [State.arriveAt, hb]
  exact if_neg (by rw [← Bool.not_eq_true] at hno; exact hno)

theorem mem_arrive {b : Swarm} {hid chip : Nat} {m : Member} (hm : m ∈ b.members) (h1 : m.hid = hid) (h2 : m.chip = chip) (dead tick : Nat) (flip : Bool) :
    ∃ k ∈ (b.arrive hid chip dead tick flip).members, k.hid = hid ∧ k.arrived = true :=
  ⟨_, List.mem_map.mpr ⟨m, hm, if_pos (by simp [h1, h2])⟩, h1, rfl⟩

theorem fabArrival_swbar {s : State} {fr : Frame} {off : Nat} {o : Obj} {b : Swarm} {m : Member} (hn : s.objNum fr.target = some (off, o))
    (hb : s.swarm off = some (o, b)) (ht : o.tag = fr.tag) (hx : b.xchip = true) (hop : frameDw fr 0 = 4)
    (hm : b.members.find? (fun m => m.hid == farId fr.src (frameDw fr 1)) = some m) (hg : m.good = true) (hd : s.gtb < frameDw fr 3)
    (hk : ∃ k ∈ b.members, k.good = true ∧ k.arrived = false ∧ k.hid ≠ m.hid) :
    s.fabArrival fr = (s.count o.tag 7 1).setBody off o (.swarm (b.arrive m.hid fr.src (frameDw fr 3) (frameDw fr 4) false)) := by
  have hid : m.hid = farId fr.src (frameDw fr 1) := by simpa using List.find?_some hm
  have hsw : (s.count o.tag 7 1).swarm off = some (o, b) := by
    rw [← hb]
    exact (congrArg (fun u : State => u.swarm off) (count_only s o.tag 7 1) :)
  have hmem : o.members = b.members := by simp only [Obj.members, body_of_swarm hb]
  rw [← arriveAt_open hsw (by rw [State.gtb_count]; exact hd) hk]
  simp only [State.fabArrival, hn, body_of_swarm hb, ht, hx, ne_eq, not_true_eq_false, if_false, Bool.not_true, Bool.false_eq_true, State.farRequest,
    hop, State.farArrival, hmem, hm, hg, if_true, hid]
  rfl

/-! Results of requests at other chips -/

/-- A report entered in a proxy changes no hart and no time. -/
theorem sameParties_report (s : State) (off hid : Nat) (fr : Frame) : SameParties s (s.report off hid fr) := by
  unfold State.report
  split
  · exact sameParties_setBody ..
  · exact ⟨rfl, rfl, rfl, rfl⟩

/-- A result reaches the hart that waits for that request, with the flags that it raises (R115, R332). -/
theorem fabResult_delivered {s : State} {fr : Frame} {off : Nat} {h : Hart} {w : Wait} {f : Bool}
    (hp : s.proxyOf fr.tag fr.src fr.target = some off) (hw : WaitsIn s (frameDw fr 0) h w) (hk : w.kind = .arrive off f) (hc : h.created = false)
    (hi : w.issued = frameDw fr 2) :
    Answered s (s.fabResult fr) (frameDw fr 0) { h with fxf := orFlags h.fxf (frameDw fr 3) } w (word (frameDw fr 1)) := by
  obtain ⟨hh, hl, hwait, hans⟩ := hw
  let s1 := s.report off (frameDw fr 0) fr
  let s2 := s1.updHart (frameDw fr 0) (fun k => { k with fxf := orFlags k.fxf (frameDw fr 3) })
  have hst : SameParties s s1 := sameParties_report ..
  have hres : s.fabResult fr = s2.answer (frameDw fr 0) (word (frameDw fr 1)) := by
    have hthis : h.wait.any (fun w => w.issued == frameDw fr 2 && (w.kind.arrives off || w.kind.joins off)) = true := by
      simp [hwait, hi, hk, WaitKind.arrives]
    simp only [State.fabResult, hp, hh, hc, Bool.false_and, Bool.false_eq_true, if_false, hthis, if_true]
    rfl
  have hself : s2.hart (frameDw fr 0) = some { h with fxf := orFlags h.fxf (frameDw fr 3) } :=
    hart_updHart_self (by intros; rfl) (by intros; rfl) ((hst.hart _).trans hh) hl
  have hother : ∀ n, n ≠ frameDw fr 0 → s2.hart n = s.hart n := fun n hn =>
    (hart_updHart_other (by intros; rfl) (by intros; rfl) s1 hn).trans (hst.hart n)
  obtain ⟨⟨⟨k, hk, hr⟩, ho⟩, -⟩ := answer_waitsIn (s := s2) ⟨hself, hl, hwait, hans⟩ (word (frameDw fr 1))
  rw [hres]
  exact ⟨⟨k, hk, hst.2.2.1 ▸ hr⟩, fun n hn => (ho n hn).trans (hother n hn)⟩

/-- A result that no hart waits for, and that no hart has outstanding, is discarded. -/
theorem fabResult_discarded {s : State} {fr : Frame} {off : Nat} {h : Hart} (hp : s.proxyOf fr.tag fr.src fr.target = some off)
    (hh : s.hart (frameDw fr 0) = some h) (hc : h.created = false) (hw : ∀ w, h.wait = some w → w.issued ≠ frameDw fr 2) (hb : h.begun = none)
    (hf : ∀ k ∈ s.harts, (off, frameDw fr 2) ∉ k.fabOut) : s.fabResult fr = s := by
  have hany : h.wait.any (fun w => w.issued == frameDw fr 2 && (w.kind.arrives off || w.kind.joins off)) = false := by
    cases hwait : h.wait with
    | none => rfl
    | some w => simp [hw w hwait]
  have hmem : h ∈ s.harts := List.mem_of_find?_eq_some hh
  have hout : h.fabOut.contains (off, frameDw fr 2) = false := by simpa using hf h hmem
  have hdone : ∀ n, s.outDone n (off, frameDw fr 2) = s := by
    intro n
    have hnil : s.harts.filter (fun k => k.fabOut.contains (off, frameDw fr 2)) = [] := by simpa using hf
    simp only [State.outDone, hnil]
  simp only [State.fabResult, hp, hh, hc, hany, hout, hdone, Hart.leavesBy, hb, Option.any_none, Bool.false_and, Bool.false_eq_true, if_false]

/-! Collective data -/

theorem fabColl_result {s : State} {fr : Frame} {c : Cmd} (h0 : frameDw fr 0 = 1) (hq : c ∈ (s.engine (frameDw fr 2)).queue)
    (hc : s.collCmd fr = some c) :
    ∃ r : CollRes, r.lowabs = frameDw fr 4 ∧ r.nabs = frameDw fr 5 ∧ { c with res := some r } ∈ ((s.fabColl fr).engine (frameDw fr 2)).queue := by
  let r : CollRes := { runs := readRuns (frameDw fr 6) (fr.data.drop 56), lowabs := frameDw fr 4, nabs := frameDw fr 5 }
  have hs : s.fabColl fr = s.setEngine (frameDw fr 2) (fun g =>
      { g with queue := g.queue.map (fun x => if x.seq = c.seq then { x with res := some r } else x) }) := by
    simp only [State.fabColl, h0, ne_eq, OfNat.one_ne_ofNat, not_false_eq_true, if_true, State.fabMessage, hc]
    rfl
  have he : (s.fabColl fr).engine (frameDw fr 2) = { s.engine (frameDw fr 2) with
      queue := (s.engine (frameDw fr 2)).queue.map (fun x => if x.seq = c.seq then { x with res := some r } else x) } := by
    rw [hs]
    exact Tab.get_set_self ..
  refine ⟨r, rfl, rfl, ?_⟩
  rw [he]
  exact List.mem_map.mpr ⟨c, hq, if_pos rfl⟩

/-- A part of a message is kept while another part has not arrived. -/
theorem fabColl_part {s : State} {fr : Frame} {i : Nat} (h0 : frameDw fr 0 = 4) (hi : i < frameDw fr 1) (hne : i ≠ frameDw fr 2)
    (hx : ∀ x ∈ s.parts, sameMessage fr x = true → frameDw x 2 ≠ i) :
    fr ∈ (s.fabColl fr).parts ∧ { s.fabColl fr with parts := s.parts } = s := by
  have hall : (List.range (frameDw fr 1)).all (fun i => (fr :: s.parts.filter (fun x => sameMessage fr x && frameDw x 2 != frameDw fr 2)).any
      (fun x => frameDw x 2 == i)) = false := by
    rw [List.all_eq_false]
    refine ⟨i, List.mem_range.mpr hi, ?_⟩
    rw [Bool.not_eq_true, List.any_eq_false]
    intro x hmem
    rcases List.mem_cons.mp hmem with rfl | hmem
    · simpa using Ne.symm hne
    · obtain ⟨hp, hs⟩ := List.mem_filter.mp hmem
      simpa using hx x hp (Bool.and_eq_true_iff.mp hs).1
  simp only [State.fabColl, h0, ne_eq, not_true_eq_false, if_false, hall, Bool.false_eq_true]
  exact ⟨List.mem_append_right _ List.mem_cons_self, trivial⟩

/-! Triggers -/

/-- After a trigger that halts, no bound hart of the tenant runs (R445). -/
theorem haltBound_halted {tag : Nat} {j : Hart} (hl : (haltBound tag j).live = true) (ht : (haltBound tag j).tid = tag)
    (hs : (haltBound tag j).slot ≠ none) : (haltBound tag j).halt ≠ none := by
  by_cases hh : j.haltable tag = true
  · rw [haltBound, if_pos hh]
    simp
  · have hj : haltBound tag j = j := if_neg hh
    rw [hj] at hl ht hs ⊢
    intro hnone
    refine hh ?_
    simp [Hart.haltable, hl, ht, hnone, Option.isSome_iff_ne_none, hs]

theorem trigger_halts {s : State} {tag group chip : Nat} {origin : Word} (h63 : bit (s.tenant tag).ftrig.toNat 63 = true)
    (h62 : bit (s.tenant tag).ftrig.toNat 62 = true) (hg : bits (s.tenant tag).ftrig.toNat 32 16 = group) :
    ∀ k ∈ (s.trigger tag group chip origin).harts, k.live = true → k.tid = tag → k.slot ≠ none → k.halt ≠ none := by
  have hon : (bit (s.tenant tag).ftrig.toNat 63 && bits (s.tenant tag).ftrig.toNat 32 16 == group) = true := by simp [h63, hg]
  have hlive : ∀ j, (haltBound tag j).live = j.live := fun j => by unfold haltBound; split <;> rfl
  intro k hk
  simp only [State.trigger, hon, if_true, h62] at hk
  rw [harts_of_map (hlive _) rfl rfl] at hk
  obtain ⟨j, -, rfl⟩ := List.mem_map.mp hk
  exact haltBound_halted

/-! Replay -/

theorem shiftTicks_send {fr : Frame} (h : fr.kind = 4) (n : Nat) : shiftTicks n fr = moveDw n fr 1 := by
  simp only [shiftTicks, tickDwords, h, if_true, List.foldl_cons, List.foldl_nil]

/-- A dword moved in place. -/
theorem length_moveDw {fr : Frame} {i : Nat} (h : 8 * i + 8 ≤ fr.data.length) (n : Nat) : (moveDw n fr i).data.length = fr.data.length := by
  simp only [moveDw, List.length_append, List.length_take, List.length_drop, length_leBytes]
  omega

/-- A logged channel send delivered (R446). -/
theorem deliverArrival_send {s : State} {a : Arrival} {off : Nat} {o : Obj} {b : Chan} (h4 : a.ev.kind = 4)
    (hn : s.objNum a.ev.target = some (off, o)) (hf : FreeSlot s off a.ev.tag 0 o b) (hl : a.ev.data.length = 16 + b.sz) :
    (∃ o2 sil, (s.deliverArrival a).chan off = some (o2, b.put1 sil)) ∧ (s.deliverArrival a).alog = s.alog := by
  have hd : s.deliverArrival a = s.fabSend (moveDw (s.tenant a.tag).logAt a.ev 1) := by
    have hk : (moveDw (s.tenant a.tag).logAt a.ev 1).kind = 4 := h4
    simp only [State.deliverArrival, shiftTicks_send h4, hk]
  rw [hd]
  exact fabSend_free hn hf ((length_moveDw (by omega) _).trans hl)

theorem replay_ends {s : State} {tag : Nat} (hr : (s.tenant tag).replay = true) (hn : s.nextArrival tag = none) :
    exec (.replayDelivery tag) s = .next (s.setTenant tag (fun t => { t with replay := false })) := by
  show execReplayDelivery tag s = _
  simp only [execReplayDelivery, hr, hn, Bool.not_true, Bool.false_eq_true, if_false]

/-- An entry is never replayed early. -/
theorem replay_early {s : State} {tag : Nat} {a : Arrival} (hr : (s.tenant tag).replay = true) (hn : s.nextArrival tag = some a)
    (h : s.gtb < (s.tenant tag).logAt + a.offset) : exec (.replayDelivery tag) s = .next s := by
  show execReplayDelivery tag s = _
  simp only [execReplayDelivery, hr, hn, h, Bool.not_true, Bool.false_eq_true, if_false, if_true]

/-- The end of a tenant's replay, once nothing of its log is left. -/
def State.replayEnd (s : State) (tag : Nat) : State :=
  if (s.nextArrival tag).isSome then s else s.setTenant tag (fun t => { t with replay := false })

theorem alog_replayEnd (s : State) (tag : Nat) : (s.replayEnd tag).alog = s.alog := by
  unfold State.replayEnd
  split <;> rfl

theorem chan_replayEnd (s : State) (tag off : Nat) : (s.replayEnd tag).chan off = s.chan off := by
  unfold State.replayEnd
  split <;> rfl

/-- An entry that is due is delivered, and the replay may end with it. -/
theorem replay_delivers {s : State} {tag : Nat} {a : Arrival} (hr : (s.tenant tag).replay = true) (hn : s.nextArrival tag = some a)
    (h : (s.tenant tag).logAt + a.offset ≤ s.gtb) :
    exec (.replayDelivery tag) s = .next ((({ s with alog := s.alog.erase a } : State).deliverArrival a).replayEnd tag) := by
  show execReplayDelivery tag s = _
  simp only [execReplayDelivery, hr, hn, Bool.not_true, Bool.false_eq_true, if_false, Nat.not_lt.mpr h]
  exact congrArg _ rfl

/-! Host accesses -/

/-- What a look at memory from outside leaves alone: the bytes outside the ring of records, and the rest of the state. -/
def Looked (s t : State) : Prop := (∀ a, inMcRing a = false → t.byteAt a = s.byteAt a) ∧ Aside s t

theorem Looked.trans {s t u : State} (h : Looked s t) (h2 : Looked t u) : Looked s u :=
  ⟨fun a ha => (h2.1 a ha).trans (h.1 a ha), h.2.trans h2.2⟩

theorem byteAt_checkRead (s : State) (t h a n : Nat) {x : Nat} (hx : inMcRing x = false) : (s.checkRead t h a n).byteAt x = s.byteAt x := by
  unfold State.checkRead
  split
  · rfl
  · exact foldl_keeps (fun u : State => u.byteAt x) _ (fun u y => byteAt_checkUnit u t h y x hx) _ s

theorem byteAt_free (s : State) (n x : Nat) : ({ s with free := n } : State).byteAt x = s.byteAt x := rfl

theorem looked_readAt (s : State) (a : Actor) (pl : Place) (n : Nat) : Looked s (s.readAt a pl n).1 := by
  refine ⟨fun x hx => ?_, aside_readAt ..⟩
  unfold State.readAt State.read
  split
  · exact (byteAt_free (s.mcheckMem 9 a.tid a.hid pl.loc) _ x).trans (byteAt_mcheck s _ _ _ _ _ _ _ x hx)
  · simp only []
    rw [State.byteAt, mem_countMem]
    exact byteAt_checkRead s _ _ _ _ hx

theorem looked_access (s : State) (a : Actor) (k : AKind) (p : Word) (n m : Nat) : Looked s (s.access a k p n m).1 :=
  ⟨(access_mem s a k p n m).1, aside_access ..⟩

/-- A look that is held up leaves recalls at the engines, and nothing else. -/
theorem looked_engines {s t : State} (h : Looked s t) : Looked s { s with engines := t.engines } :=
  ⟨fun _ _ => rfl, rfl, fun e => h.2.2 e⟩

theorem looked_outsideRead (s : State) (tag : Nat) (p : Word) (k : Nat) : Looked s (s.outsideRead tag p k).1 := by
  have h := looked_access s (hostActor tag) .load p k 1
  unfold State.outsideRead
  split
  · next he =>
    rw [he] at h
    split
    · exact h.trans (looked_readAt ..)
    · exact h
  · next he => rw [he] at h; exact h
  · next he => rw [he] at h; exact h

theorem looked_outsideGet (s : State) (tag n : Nat) (p : Word) (len : Nat) : Looked s (s.outsideGet tag n p len).1 := by
  induction n generalizing s p len with
  | zero => exact ⟨fun _ _ => rfl, .refl s⟩
  | succ n ih =>
    unfold State.outsideGet
    simp only []
    split
    · exact ⟨fun _ _ => rfl, .refl s⟩
    · have h := looked_outsideRead s tag p (min len (64 - p.toNat % 64))
      split
      · next he => rw [he] at h; exact looked_engines h
      · next s1 x he =>
        rw [he] at h
        have h2 := h.trans (ih s1 (p + word (min len (64 - p.toNat % 64))) (len - min len (64 - p.toNat % 64)))
        split
        · next he2 => rw [he2] at h2; exact h2
        · next he2 => rw [he2] at h2; exact looked_engines h2

theorem looked_hostRead (s : State) (tag bar off size : Nat) : Looked s (s.hostRead tag bar off size).1 := by
  have hs : Looked s s := ⟨fun _ _ => rfl, .refl s⟩
  unfold State.hostRead
  split
  · exact hs
  · split
    · split <;> exact hs
    · split
      · exact looked_outsideGet ..
      · exact hs

/-- A host read changes no byte outside the ring of records, and nothing of the hart in hand that its instructions see. -/
theorem afterRead_effect (s : State) (tag bar off size : Nat) :
    (∀ a, inMcRing a = false → (s.afterRead tag bar off size).byteAt a = s.byteAt a) ∧ (s.afterRead tag bar off size).h.x = s.h.x ∧
      (s.afterRead tag bar off size).h.pc = s.h.pc ∧ (s.afterRead tag bar off size).gtb = s.gtb := by
  obtain ⟨hb, ha⟩ := looked_hostRead s tag bar off size
  obtain ⟨hx, hpc⟩ := ha.x_pc
  unfold State.afterRead
  split
  · next he => rw [he] at hb hx hpc ha; exact ⟨hb, hx, hpc, ha.gtb⟩
  · next he => rw [he] at hb hx hpc ha; exact ⟨hb, hx, hpc, ha.gtb⟩

theorem sameBytes_holdUp {s t : State} (h : t.mem = s.mem) (fr : Frame) : SameBytes s (t.holdUp fr) := fun a => congrArg (Tab.get 0 · a) h

theorem held_holdUp (s : State) (fr : Frame) : (s.holdUp fr).held = s.held ++ [fr] := rfl

theorem behind_logArrival (s : State) (tag n : Nat) (fr : Frame) : (s.logArrival n fr).behind tag = s.behind tag := by
  rw [State.behind, held_of_unlogged (unlogged_logArrival s n fr)]
  rfl

theorem exec_hostMemoryWrite {s : State} {tag : Nat} (hst : (s.tenant tag).st ≠ 0) (bar off : Nat) (data : List Byte) :
    exec (.hostMemoryWrite tag bar off data) s =
      .next ((s.logArrival tag (hostEntry 32 tag (bar * 2 ^ 60 + off) data)).hostWrite tag bar off data) := by
  show execHostMemoryWrite tag bar off data s = _
  rw [execHostMemoryWrite, if_neg hst]

/-- A host write behind another waits (R369). -/
theorem hostWrite_behind {s : State} {tag : Nat} (hst : (s.tenant tag).st ≠ 0) (hb : s.behind tag = true) (bar off : Nat) (data : List Byte) :
    s.hostWrite tag bar off data = s.holdUp (hostEntry 32 tag (bar * 2 ^ 60 + off) data) := by
  rw [State.hostWrite, if_neg hst, if_pos hb]

/-- A host write through a window of memory. -/
theorem hostWrite_window {s : State} {tag : Nat} (hst : (s.tenant tag).st ≠ 0) (hb : s.behind tag = false) {bar off : Nat} {data : List Byte}
    (hbar : barHas bar off data.length = true) :
    s.hostWrite tag bar off data = s.outsidePut true tag (data.length / 64 + 2) (barPointer bar off) data := by
  have h0 : bar ≠ 0 := by
    rintro rfl
    simp [barHas] at hbar
  rw [State.hostWrite, if_neg hst, if_neg (by rw [hb]; exact Bool.false_ne_true), if_neg h0, if_pos hbar]

theorem setTenant_congr {s : State} {n : Nat} {f g : Tenant → Tenant} (h : f (s.tenant n) = g (s.tenant n)) : s.setTenant n f = s.setTenant n g := by
  rw [State.setTenant, State.setTenant, h]

/-- A pending host send is that of the registers as they stood when it was logged. -/
theorem hostSend_pending {s : State} {tag : Nat} (hst : (s.tenant tag).st ≠ 0) (hp : (s.tenant tag).sendPending = false) (fr : Frame) :
    (s.logArrival tag fr).hostSend tag = ((s.logArrival tag fr).setTenant tag (fun t =>
      { t with hsres := 0xFF, hsDead := min gtbEnd (s.gtb + (s.tenant tag).hsdl.toNat) })).hostSendOn tag := by
  have hten := tenant_logArrival s tag fr tag
  have hpend : ((s.logArrival tag fr).tenant tag).sendPending = false := by
    rw [← hp, Tenant.sendPending, Tenant.sendPending, (congrArg Tenant.hsres hten :)]
  have hno : (((s.logArrival tag fr).tenant tag).sendPending || decide (((s.logArrival tag fr).tenant tag).st = 0)) = false := by
    rw [hpend, st_logArrival, decide_eq_false hst, Bool.false_or]
  simp only [State.hostSend, hno, Bool.false_eq_true, if_false]
  have hd : ((s.logArrival tag fr).tenant tag).hsdl = (s.tenant tag).hsdl := (congrArg Tenant.hsdl hten :)
  rw [gtb_of_unlogged (unlogged_logArrival s tag fr)]
  exact congrArg (fun u : State => u.hostSendOn tag) (setTenant_congr (by simp only [hd]))

/-- A host send that is pending, with its message read, reaches its channel. -/
theorem hostSendOn_read {s s1 : State} {tag off : Nat} {o : Obj} {b : Chan} {bs : List Byte} {bad : List Nat}
    (hch : combOffset (s.tenant tag).hsch = some off) (hc : s.chan off = some (o, b)) (ht : o.tag = tag)
    (hm : s.hostMessage tag (s.tenant tag).hsmsg b.sz = (s1, .ok bs bad)) :
    s.hostSendOn tag = s1.sendAt off o b { hid := hostId tag, dead := (s.tenant tag).hsDead, data := bs, bad := bad, dst := [] } := by
  simp only [State.hostSendOn, hch, hc, Option.bind_some, Option.map_some, ht, hm, ne_eq, not_true_eq_false, if_false]

/-- A host send whose message has been read puts it into a free slot (R357, R457). -/
theorem exec_hostSend {s s1 : State} {tag off : Nat} {o : Obj} {b : Chan} {bs : List Byte} {bad : List Nat} (ht : tag ≤ 512)
    (hst : (s.tenant tag).st ≠ 0) (hp : (s.tenant tag).sendPending = false) (hch : combOffset (s.tenant tag).hsch = some off)
    (hf : FreeSlot s off tag 2 o b) (hm : (hostPending s tag).hostMessage tag (s.tenant tag).hsmsg b.sz = (s1, .ok bs bad)) :
    ∃ t o2 sil, exec (.hostSend tag) s = .next t ∧ t.chan off = some (o2, b.put1 sil) ∧ (t.tenant tag).hsres = statusWord b.tail.toNat 0xFFF 0 0 := by
  obtain ⟨hc, htag, hk, hs, hr, hfree⟩ := hf
  let fr := hostEntry 33 tag (s.tenant tag).hsch.toNat (leBytes 8 (s.tenant tag).hsmsg.toNat ++ leBytes 8 (s.tenant tag).hsdl.toNat)
  have hten : (hostPending s tag).tenant tag = { (s.logArrival tag fr).tenant tag with
      hsres := 0xFF, hsDead := min gtbEnd (s.gtb + (s.tenant tag).hsdl.toNat) } := tenant_setTenant_self ..
  have hsch : ((hostPending s tag).tenant tag).hsch = (s.tenant tag).hsch := by
    rw [hten, (congrArg Tenant.hsch (tenant_logArrival s tag fr tag) :)]
  have hsmsg : ((hostPending s tag).tenant tag).hsmsg = (s.tenant tag).hsmsg := by
    rw [hten, (congrArg Tenant.hsmsg (tenant_logArrival s tag fr tag) :)]
  have hchan : (hostPending s tag).chan off = some (o, b) := (chan_of_unlogged (unlogged_logArrival s tag fr) off).trans hc
  let r : ChanReq := { hid := hostId tag, dead := ((hostPending s tag).tenant tag).hsDead, data := bs, bad := bad, dst := [] }
  have hok : ∀ t : State, t.producerOk { b with senders := [r] } r.hid = true := fun t => producerOk_host t hk ht
  have hexec : exec (.hostSend tag) s = .next (s1.sendAt off o b r) := by
    show execHostSend tag s = _
    rw [execHostSend, hostSend_pending hst hp]
    exact congrArg _ (hostSendOn_read (s := hostPending s tag) (hsch ▸ hch) hchan htag (hsmsg ▸ hm))
  obtain ⟨o2, sil, hput⟩ := chan_putMessage (s1.setBody off o (.chan { b with senders := [r] })) off { o with body := .chan { b with senders := [r] } }
    (b := { b with senders := [r] }) (r := r) rfl
  exact ⟨_, o2, sil, hexec.trans (congrArg _ (sendAt_free s1 off o hs hr hfree hok)), hput, hsres_putMessage _ _ _ rfl rfl ht⟩

/-! Jobs -/

/-- A job's record posted to the host, and the job struck off (R460). -/
def State.postJob (s : State) (j : Job) (l : List Byte) : State := { s.hostPost 4 j.tag l with jobs := s.jobs.erase j }

theorem jobs_postJob (s : State) (j : Job) (l : List Byte) : (s.postJob j l).jobs = s.jobs.erase j := rfl

theorem sameBytes_withJobs {s t : State} (h : SameBytes s t) (l : List Job) : SameBytes s { t with jobs := l } := h

theorem sameBytes_postJob (s : State) (j : Job) (l : List Byte) : SameBytes s (s.postJob j l) :=
  sameBytes_withJobs (fun a => congrArg (Tab.get 0 · a) (s.mem_hostPost 4 j.tag l)) _

theorem hostRing_postJob {s : State} {j : Job} {l : List Byte} (h : (s.hub.hevh + 2 ^ 32 - s.hub.hevt) % 2 ^ 32 + (l.length + 55) / 56 ≤ 2 ^ s.hub.hevn) :
    (s.postJob j l).hostRing = s.hostRing ++ hostEntries 4 j.tag s.hub.evseq ((l.length + 55) / 56) ((l.length + 55) / 56) l := by
  simp only [State.postJob, State.hostPost, h, if_true]

theorem exec_jobRecordPost {s : State} {job : Word} {j : Job} (h : s.jobs.find? (fun j => j.num == job && j.due) = some j) :
    exec (.jobRecordPost job) s = .next (s.postJob j (s.jobRecord j)) := by
  show execJobRecordPost job s = _
  unfold execJobRecordPost State.postJob
  rw [h]

/-! Management registers -/

theorem mgmtWrite_ignored {s : State} (h : s.hub.phase < 6 ∨ s.hub.phase = 8) (sp : MgmtSpace) (off : Nat) (v : Word) :
    exec (.mgmtRegisterWrite sp off v) s = .next s := by
  show execMgmtRegisterWrite sp off v s = _
  unfold execMgmtRegisterWrite
  rw [if_pos (by simpa using h)]

/-- A write of a core's WDL (R391). -/
theorem mgmtWrite_wdl {s : State} (h6 : 6 ≤ s.hub.phase) (h8 : s.hub.phase ≠ 8) {n : Nat} (hn : n < 200) (v : Word) :
    exec (.mgmtRegisterWrite (.core n) 0x010 v) s =
      .next (if 1000000 ≤ bits v.toNat 0 32 then s.setCore n (fun c => { c with wdl := word (bits v.toNat 0 32) }) else s) := by
  have hcores : n < Config.cores := hn
  show execMgmtRegisterWrite (.core n) 0x010 v s = _
  unfold execMgmtRegisterWrite
  rw [if_neg (by simp only [Bool.or_eq_true, decide_eq_true_eq]; omega)]
  simp only [hcores, if_true, State.coreWrite, OfNat.ofNat_ne_zero, if_false, Nat.reduceEqDiff]

end Sys2Proof.Machine

namespace Sys2Proof.Claims

open Sys2Proof.Machine

/-- A put, or a get response, of bytes that lie in one line. -/
theorem putFrame_writes {s s1 : State} {fr : Frame} {pl : Place} {e : Instr × Nat} (he : e ∈ [(Instr.fabricPut fr, 1), (Instr.fabricGetResponse fr, 3)])
    (ha : Admitted s e.2 fr) (hne : fr.data ≠ []) (hlen : fr.data.length ≤ 64 - (word fr.target).toNat % 64)
    (hacc : (s.logArrival fr.tag fr).access (hostActor fr.tag) .store (word fr.target) fr.data.length 1 = (s1, .ok pl))
    (hopen : s1.openPlace fr.tag (word fr.target) pl = true) (hreg : pl.reg = none) (hkey : s1.hasKey fr.tag = true) :
    ∃ t, exec e.1 s = .next t ∧ ∀ i < fr.data.length, t.byteAt (pl.loc + i) = fr.data.getD i 0 := by
  have hput : (s.logArrival fr.tag fr).fabPut fr = s1.writeAt (hostActor fr.tag) pl fr.data false :=
    outsidePut_line _ hne hlen rfl hacc hopen
  refine ⟨_, ?_, fun i hi => byteAt_writeAt (a := hostActor fr.tag) hreg hkey fr.data hi⟩
  rw [← hput]
  simp only [List.mem_cons, List.not_mem_nil, or_false] at he
  rcases he with rfl | rfl
  · exact receive_admitted ha (fun t => t.fabPut fr)
  · exact receive_admitted ha (fun t => t.fabPut fr)

/-- Settles O60: every frame by what its admission makes of the state, then the replay of a log, the host's accesses and the registers. -/
theorem outsideEvents : Obligations.OutsideEvents := by
  unfold Obligations.OutsideEvents
  refine ⟨?drops, ?unknown, ?puts, ?frames, ?replay, ?hostWrite, ?hostRead, ?hostSend, ?jobs, ?spdm, ?mgmt⟩
  case drops => exact fun s fr e he => dropsFrame_frameTable he s
  case unknown => exact fun s fr => ⟨frameDrop_unknown, fun h h1 h9 h2 => frameDrop_stale h h1 h9 h2⟩
  case puts => exact fun s s1 fr pl e he ha hne hlen hacc hopen hreg hkey => putFrame_writes he ha hne hlen hacc hopen hreg hkey
  case frames =>
    intro s fr
    have hlog := unlogged_logArrival s fr.tag fr
    refine ⟨fun s1 bs ha hget hr hup => ?_, fun s1 ha hget => ?_, fun off o b ha hn hf hl => ?_, fun off o b m ha hn hb ht hx hop hm hg hc hd hk => ?_,
      fun off h w f ha hp hw hk hc hi => ?_, fun off h ha hp hh hc hw hb hf => ?_, fun c ha h0 hq hc => ?_, fun i ha h0 hi hne hx => ?_, fun ha => ?_,
      fun ha h63 h62 hg => ?_⟩
    · obtain ⟨r, hr⟩ := sendFrame_out hr hup 3 fr.src (frameDw fr 1) bs
      refine ⟨_, r, (receive_admitted ha (fun t => t.fabGet fr)).trans ?_, hr⟩
      simp only [if_true, State.fabGet, hget]
    · refine (receive_admitted ha (fun t => t.fabGet fr)).trans ?_
      simp only [if_true, State.fabGet, hget]
      rfl
    · obtain ⟨hc, hrest⟩ := hf
      obtain ⟨⟨o2, sil, h2⟩, -⟩ := fabSend_free ((objNum_of_unlogged hlog _).trans hn) ⟨(chan_of_unlogged hlog off).trans hc, hrest⟩ hl
      exact ⟨_, o2, _, receive_admitted ha (fun t => t.fabSend fr), h2, rfl, rfl, rfl⟩
    · have harr := fabArrival_swbar ((objNum_of_unlogged hlog _).trans hn) ((swarm_of_unlogged hlog off).trans hb) ht hx hop hm hg
        ((gtb_of_unlogged hlog).trans_lt hd) hk
      refine ⟨_, _, _, (receive_admitted ha (fun t => t.fabArrival fr)).trans (congrArg _ harr), swarm_setBody .., rfl, ?_⟩
      exact mem_arrive (List.mem_of_find?_eq_some hm) rfl hc ..
    · have hw2 := waitsIn_congr hw (hart_of_unlogged hlog (frameDw fr 0))
      refine ⟨_, receive_admitted ha (fun t => t.fabResult fr), ?_⟩
      exact answered_congr (fabResult_delivered ((proxyOf_of_unlogged hlog ..).trans hp) hw2 hk hc hi) (hart_of_unlogged hlog) (gtb_of_unlogged hlog)
    · refine (receive_admitted ha (fun t => t.fabResult fr)).trans (congrArg _ ?_)
      exact fabResult_discarded ((proxyOf_of_unlogged hlog ..).trans hp) ((hart_of_unlogged hlog _).trans hh) hc hw hb
        (by rw [if_neg (by decide), harts_of_unlogged hlog]; exact hf)
    · have hq2 : c ∈ ((s.logArrival fr.tag fr).engine (frameDw fr 2)).queue := by rw [engine_of_unlogged hlog]; exact hq
      obtain ⟨r, h1, h2, hr⟩ := fabColl_result h0 hq2 ((collCmd_of_unlogged hlog fr).trans hc)
      exact ⟨_, r, receive_admitted ha (fun t => t.fabColl fr), h1, h2, hr⟩
    · have hparts := parts_of_unlogged hlog
      obtain ⟨hmem, hrest⟩ := fabColl_part (s := s.logArrival fr.tag fr) h0 hi hne (by rw [hparts]; exact hx)
      exact ⟨_, receive_admitted ha (fun t => t.fabColl fr), hmem, hparts ▸ hrest⟩
    · exact receive_admitted ha id
    · refine ⟨s.trigger fr.tag fr.target fr.src (word (frameDw fr 0)), ?_, trigger_halts h63 h62 hg⟩
      show execFabricTrigger fr s = _
      simp only [execFabricTrigger, ha.1, ha.2, Bool.not_true, Bool.false_eq_true, if_false]
  case replay =>
    intro s tag hr
    refine ⟨fun hn => ⟨_, replay_ends hr hn, rfl, tenant_setTenant_self ..⟩, fun a hn hearly => replay_early hr hn hearly,
      fun a off o b hn hdue h4 ho hf hl => ?_⟩
    obtain ⟨⟨o2, sil, hc⟩, halog⟩ := deliverArrival_send (s := { s with alog := s.alog.erase a }) h4 ho hf hl
    exact ⟨_, o2, _, replay_delivers hr hn hdue, (alog_replayEnd ..).trans halog, (chan_replayEnd ..).trans hc, rfl⟩
  case hostWrite =>
    intro s s1 tag bar off data pl hst hbar hb hne hlen hacc hopen hreg hkey
    refine ⟨_, (exec_hostMemoryWrite hst bar off data).trans (congrArg _ ?_), fun i hi => byteAt_writeAt (a := hostActor tag) hreg hkey data hi⟩
    have hb2 := (behind_logArrival s tag tag (hostEntry 32 tag (bar * 2 ^ 60 + off) data)).trans hb
    rw [hostWrite_window (by rw [st_logArrival]; exact hst) hb2 hbar]
    exact outsidePut_line _ hne hlen (by rw [hb2]; rfl) hacc hopen
  case hostRead =>
    intro s tag bar off size data
    refine ⟨⟨_, rfl, afterRead_effect ..⟩, fun hst hb => ?_, fun hst => ?_⟩
    · have hb2 := (behind_logArrival s tag tag (hostEntry 32 tag (bar * 2 ^ 60 + off) data)).trans hb
      have hlog := unlogged_logArrival s tag (hostEntry 32 tag (bar * 2 ^ 60 + off) data)
      refine ⟨_, (exec_hostMemoryWrite hst bar off data).trans (congrArg _ (hostWrite_behind (by rw [st_logArrival]; exact hst) hb2 bar off data)),
        sameBytes_holdUp (mem_of_unlogged hlog) _, ?_⟩
      rw [held_holdUp, held_of_unlogged hlog]
    · show execHostMemoryWrite tag bar off data s = _
      rw [execHostMemoryWrite, if_pos hst]
  case hostSend =>
    intro s s1 tag off o b bs bad ht hst hp hch hf hm
    obtain ⟨t, o2, sil, hexec, hc, hres⟩ := exec_hostSend ht hst hp hch hf hm
    exact ⟨t, o2, _, hexec, hc, rfl, hres⟩
  case jobs =>
    intro s job j hj
    exact ⟨_, exec_jobRecordPost hj, jobs_postJob .., sameBytes_postJob s j _, hostRing_postJob⟩
  case spdm => exact fun _ _ => rfl
  case mgmt =>
    intro s sp n off v
    refine ⟨fun h => mgmtWrite_ignored h sp off v, fun h6 h8 hn => ⟨fun hv => ?_, fun hv => ?_⟩⟩
    · refine ⟨_, (mgmtWrite_wdl h6 h8 hn v).trans (congrArg _ (if_pos hv)), Tab.get_set_self .., rfl⟩
    · rw [mgmtWrite_wdl h6 h8 hn, if_neg (by omega)]

end Sys2Proof.Claims
end

section
/-! PROOFS. The instruction word: the laws of `Laws.RoundTrip` put together over all instructions, and the words written out. -/

namespace Sys2Proof.Laws.RoundTrip

/-- The word of every well-formed instruction decodes to it: an event has no word, and an encoded row has its law. -/
theorem statement_all (i : Instr) : Statement i := by
  cases i with
  | coldStart | warmStart | dieCoreReset | dieLeavesReset | fieldDieReset | ptpLockLoss | ptpLockAcquire | negotiationClose |
  gtbsetWrite | ftmapWrite | hchipWrite | mgmtRegisterWrite | blockStart | convoyIssue | vectorTrapDelivery | pfAnswerTimeout |
  hostPfAnswer | iwlExpiry | waitAnswerTimeout | rqpopExpiry | vsyncExpiry | napExpiry | twaitExpiry | ewaitExpiry | eleaseExpiry
  | engineSlotExpiry | swarmDeadlineClose | swjoinExpiry | acqExpiry | sendExpiry | recvExpiry | planeFlip | patrolScrub |
  combPatrolScrub | zreqGo | zreqComplete | tinvGo | tinvComplete | roreqGo | roreqComplete | tenbootGo | tenantActivate |
  tenantFreeze | tenantFrozen | tenantThaw | tenantRelease | tenantReleased | pmapWrite | weightSlotFreeMgmt | bindRecordSubmit |
  bindRecordRemove | quantumEnd | apiaryWaitingRemoval | powerSample | watchdogExpiry | leaseGrant | leaseExpiry | leaseRevoke |
  engineCommandStart | engineCommandEnd | collectiveClose | ploughMoveGo | ploughMoveComplete | ploughEpochEnd | recheckRun |
  debugResume | debugStep | fabricPut | fabricGet | fabricGetResponse | fabricChannelSend | fabricSwarmArrival | fabricSwarmResult
  | fabricCollectiveData | fabricCreditReturn | fabricTrigger | replayDelivery | hostSend | hostMemoryWrite | hostMemoryRead |
  jobRecordPost | spdmRequest | badWord | fetchFault | hartKill | chipIncarnationAnnouncement | fabricFrameDrop | tenbootComplete
  | unbindingComplete => exact ofNone rfl
  | add => exact add _ _ _ | sub => exact sub _ _ _ | and => exact and _ _ _ | or => exact or _ _ _ | xor => exact xor _ _ _
  | sll => exact sll _ _ _ | srl => exact srl _ _ _ | sra => exact sra _ _ _ | sltS => exact sltS _ _ _ | sltU => exact sltU _ _ _
  | mul => exact mul _ _ _ | mulhiSs => exact mulhiSs _ _ _ | mulhiUu => exact mulhiUu _ _ _ | mulhiSu => exact mulhiSu _ _ _
  | quoS => exact quoS _ _ _ | quoU => exact quoU _ _ _ | remS => exact remS _ _ _ | remU => exact remU _ _ _
  | minS => exact minS _ _ _ | maxS => exact maxS _ _ _ | minU => exact minU _ _ _ | maxU => exact maxU _ _ _
  | addi => exact addi _ _ _ | andi => exact andi _ _ _ | ori => exact ori _ _ _ | xori => exact xori _ _ _
  | slti => exact slti _ _ _ | sltiu => exact sltiu _ _ _ | slli => exact slli _ _ _ | srli => exact srli _ _ _
  | srai => exact srai _ _ _ | lhi => exact lhi _ _ _ | ldB => exact ldB _ _ _ | ldH => exact ldH _ _ _ | ldW => exact ldW _ _ _
  | ldD => exact ldD _ _ _ | ldBu => exact ldBu _ _ _ | ldHu => exact ldHu _ _ _ | ldWu => exact ldWu _ _ _
  | stB => exact stB _ _ _ | stH => exact stH _ _ _ | stW => exact stW _ _ _ | stD => exact stD _ _ _
  | amoSwap => exact amoSwap _ _ _ _ _ _ | amoCas => exact amoCas _ _ _ _ _ _ | amoAdd => exact amoAdd _ _ _ _ _ _
  | amoAnd => exact amoAnd _ _ _ _ _ _ | amoOr => exact amoOr _ _ _ _ _ _ | amoXor => exact amoXor _ _ _ _ _ _
  | amoSmin => exact amoSmin _ _ _ _ _ _ | amoSmax => exact amoSmax _ _ _ _ _ _ | amoUmin => exact amoUmin _ _ _ _ _ _
  | amoUmax => exact amoUmax _ _ _ _ _ _ | amoLd => exact amoLd _ _ _ _ _ | amoFadd => exact amoFadd _ _ _ _ _ _
  | amoFmin => exact amoFmin _ _ _ _ _ _ | amoFmax => exact amoFmax _ _ _ _ _ _ | amoQadd => exact amoQadd _ _ _ _ _
  | amoQmul => exact amoQmul _ _ _ _ _ | fadd => exact fadd _ _ _ _ | fsub => exact fsub _ _ _ _ | fmul => exact fmul _ _ _ _
  | fdiv => exact fdiv _ _ _ _ | fsqrt => exact fsqrt _ _ _ | fmin => exact fmin _ _ _ _ | fmax => exact fmax _ _ _ _
  | fmacc => exact fmacc _ _ _ _ | fsgnj => exact fsgnj _ _ _ _ | fsgnjn => exact fsgnjn _ _ _ _ | fsgnjx => exact fsgnjx _ _ _ _
  | feq => exact feq _ _ _ _ | flt => exact flt _ _ _ _ | fle => exact fle _ _ _ _ | fkind => exact fkind _ _ _
  | fcvtF => exact fcvtF _ _ _ _ | fcvtI => exact fcvtI _ _ _ | fcvtIRtz => exact fcvtIRtz _ _ _ | fcvtIu => exact fcvtIu _ _ _
  | fcvtIuRtz => exact fcvtIuRtz _ _ _ | fcvtFi => exact fcvtFi _ _ _ | fcvtFiu => exact fcvtFiu _ _ _ | beq => exact beq _ _ _
  | bne => exact bne _ _ _ | blt => exact blt _ _ _ | bge => exact bge _ _ _ | bltu => exact bltu _ _ _ | bgeu => exact bgeu _ _ _
  | jal => exact jal _ _ | jalr => exact jalr _ _ _ | sptest => exact sptest _ _ | spcastChk => exact spcastChk _ _ _
  | spcastMk => exact spcastMk _ _ _ | spcastOff => exact spcastOff _ _ _ | vrun => exact vrun _ _ | rqpop => exact rqpop _ _ _
  | vsync => exact vsync _ _ _ | vrel => exact vrel _ | spawn => exact spawn _ _ | exit => exact exit
  | onewSwarm => exact onewSwarm _ _ | onewLatch => exact onewLatch _ _ | onewChan => exact onewChan _ _ | ofree => exact ofree _ _
  | swjoin => exact swjoin _ _ _ _ | swleave => exact swleave _ _ | swbar => exact swbar _ _ _ _ | step => exact step _ _ _ _
  | acq => exact acq _ _ _ _ | rel => exact rel _ _ | mend => exact mend _ _ | adopt => exact adopt _ _
  | send => exact send _ _ _ _ | recv => exact recv _ _ _ _ | nap => exact nap _ _ _ | eleaseCopy => exact eleaseCopy _ _ _ _
  | eleaseComp => exact eleaseComp _ _ _ _ | eleaseColl => exact eleaseColl _ _ _ _ | eleaseRenew => exact eleaseRenew _ _ _ _
  | efree => exact efree _ _ | ecopy => exact ecopy _ _ _ _ | ecopyTfill => exact ecopyTfill _ _ _ _ | ecomp => exact ecomp _ _ _ _
  | ecoll => exact ecoll _ _ _ _ | estat => exact estat _ _ | ewait => exact ewait _ _ _ _ | tstat => exact tstat _ _
  | twait => exact twait _ _ _ _ | tsetEmpty => exact tsetEmpty _ _ | tsetReady => exact tsetReady _ _
  | tdrain => exact tdrain _ _ _ _ | fence => exact fence _ | fenceAcq => exact fenceAcq _ | fenceRel => exact fenceRel _
  | cfgrd => exact cfgrd _ _ | cfgwr => exact cfgwr _ _ | trap => exact trap _ | tret => exact tret | brk => exact brk _
  | tmark => exact tmark _ _ | cregNew => exact cregNew _ _ | cregFree => exact cregFree _ _ | cregFind => exact cregFind _ _
  | vcfg => exact vcfg _ _ | vsetl => exact vsetl _ _ _ _ _ _ | vsetlMax => exact vsetlMax _ _ _ _ _ | vloop => exact vloop _ _ _ _
  | vloopR => exact vloopR _ _ _ _ _ | vlend => exact vlend _ _ _ | vexit => exact vexit _ _ _ | vreply => exact vreply _ _ _
  | vend => exact vend _ | sadd => exact sadd _ _ _ _ | ssub => exact ssub _ _ _ _ | sand => exact sand _ _ _ _
  | sor => exact sor _ _ _ _ | sxor => exact sxor _ _ _ _ | ssll => exact ssll _ _ _ _ | ssrl => exact ssrl _ _ _ _
  | smul => exact smul _ _ _ _ | sminu => exact sminu _ _ _ _ | smaxu => exact smaxu _ _ _ _ | saddi => exact saddi _ _ _ _
  | sli => exact sli _ _ _ | vcfgrd => exact vcfgrd _ _ _ | vld => exact vld _ _ _ _ _ | vldBo => exact vldBo _ _ _ _ _ _
  | vldS => exact vldS _ _ _ _ _ _ | vldT => exact vldT _ _ _ _ _ _ | vldFf => exact vldFf _ _ _ _ _
  | vldFfBo => exact vldFfBo _ _ _ _ _ _ | vldx => exact vldx _ _ _ _ _ _ _ | vldd => exact vldd _ _ _ _
  | vlddX => exact vlddX _ _ _ _ _ _ | vst => exact vst _ _ _ _ _ | vstS => exact vstS _ _ _ _ _ _ | vstT => exact vstT _ _ _ _ _ _
  | vstApp => exact vstApp _ _ _ _ _ _ | vstx => exact vstx _ _ _ _ _ _ _ | vstd => exact vstd _ _ _ _
  | vbopAdd => exact vbopAdd _ _ _ _ _ _ | vbopAnd => exact vbopAnd _ _ _ _ _ _ | vbopOr => exact vbopOr _ _ _ _ _ _
  | vbopXor => exact vbopXor _ _ _ _ _ _ | vbopSmin => exact vbopSmin _ _ _ _ _ _ | vbopSmax => exact vbopSmax _ _ _ _ _ _
  | vbopFadd => exact vbopFadd _ _ _ _ _ _ | vbopQadd => exact vbopQadd _ _ _ _ _ _ | vaddVv => exact vaddVv _ _ _ _ _
  | vaddVi => exact vaddVi _ _ _ _ _ | vaddVx => exact vaddVx _ _ _ _ _ | vsubVv => exact vsubVv _ _ _ _ _
  | vsubVx => exact vsubVx _ _ _ _ _ | vrsubVx => exact vrsubVx _ _ _ _ _ | vrsubVi => exact vrsubVi _ _ _ _ _
  | vmulVv => exact vmulVv _ _ _ _ _ | vmulVx => exact vmulVx _ _ _ _ _ | vmulh => exact vmulh _ _ _ _ _
  | vmulhuVv => exact vmulhuVv _ _ _ _ _ | vmulhuVx => exact vmulhuVx _ _ _ _ _ | vmulhsu => exact vmulhsu _ _ _ _ _
  | vsadd => exact vsadd _ _ _ _ _ | vsaddu => exact vsaddu _ _ _ _ _ | vssub => exact vssub _ _ _ _ _
  | vandVv => exact vandVv _ _ _ _ _ | vandVx => exact vandVx _ _ _ _ _ | vorVv => exact vorVv _ _ _ _ _
  | vorVx => exact vorVx _ _ _ _ _ | vxorVv => exact vxorVv _ _ _ _ _ | vxorVi => exact vxorVi _ _ _ _ _
  | vxorVx => exact vxorVx _ _ _ _ _ | vandn => exact vandn _ _ _ _ _ | vmergeVv => exact vmergeVv _ _ _ _ _
  | vmergeVx => exact vmergeVx _ _ _ _ _ | vmergeVi => exact vmergeVi _ _ _ _ _ | vmin => exact vmin _ _ _ _ _
  | vminu => exact vminu _ _ _ _ _ | vmax => exact vmax _ _ _ _ _ | vmaxu => exact vmaxu _ _ _ _ _
  | vssubu => exact vssubu _ _ _ _ _ | vsllVv => exact vsllVv _ _ _ _ _ | vsllVi => exact vsllVi _ _ _ _ _
  | vsrlVv => exact vsrlVv _ _ _ _ _ | vsrlVi => exact vsrlVi _ _ _ _ _ | vsraVv => exact vsraVv _ _ _ _ _
  | vsraVi => exact vsraVi _ _ _ _ _ | vmseqVv => exact vmseqVv _ _ _ _ _ | vmseqVx => exact vmseqVx _ _ _ _ _
  | vmsne => exact vmsne _ _ _ _ _ | vmslt => exact vmslt _ _ _ _ _ | vmsltuVv => exact vmsltuVv _ _ _ _ _
  | vmsle => exact vmsle _ _ _ _ _ | vmsleu => exact vmsleu _ _ _ _ _ | vmsgt => exact vmsgt _ _ _ _ _
  | vmsgtu => exact vmsgtu _ _ _ _ _ | vmsltuVx => exact vmsltuVx _ _ _ _ _ | vbslVx => exact vbslVx _ _ _ _
  | vbslVi => exact vbslVi _ _ _ _ | vbsrVx => exact vbsrVx _ _ _ _ | vbsrVi => exact vbsrVi _ _ _ _ | vfsl => exact vfsl _ _ _ _
  | vfsr => exact vfsr _ _ _ _ | vpopc => exact vpopc _ _ _ _ | vclz => exact vclz _ _ _ _ | vctz => exact vctz _ _ _ _
  | vbrev => exact vbrev _ _ _ _ | vxchVx => exact vxchVx _ _ _ _ _ | vxchVi => exact vxchVi _ _ _ _ _
  | vslideupVx => exact vslideupVx _ _ _ _ _ | vslideupVi => exact vslideupVi _ _ _ _ _ | vslidednVx => exact vslidednVx _ _ _ _ _
  | vslidednVi => exact vslidednVi _ _ _ _ _ | vslide1up => exact vslide1up _ _ _ _ _ | vslide1dn => exact vslide1dn _ _ _ _ _
  | vpullVv => exact vpullVv _ _ _ _ _ | vpullVx => exact vpullVx _ _ _ _ _ | vpush => exact vpush _ _ _ _ _
  | vcompress => exact vcompress _ _ _ _ | vextr => exact vextr _ _ _ _ | vredsum => exact vredsum _ _ _ _ _
  | vredsums => exact vredsums _ _ _ _ _ | vredmax => exact vredmax _ _ _ _ _ | vredmaxu => exact vredmaxu _ _ _ _ _
  | vredmin => exact vredmin _ _ _ _ _ | vredminu => exact vredminu _ _ _ _ _ | vredand => exact vredand _ _ _ _ _
  | vredor => exact vredor _ _ _ _ _ | vredxor => exact vredxor _ _ _ _ _ | vscansum => exact vscansum _ _ _ _ _
  | vscanmax => exact vscanmax _ _ _ _ _ | vscanmin => exact vscanmin _ _ _ _ _ | vxscansum => exact vxscansum _ _ _ _ _
  | vscanmaxu => exact vscanmaxu _ _ _ _ _ | vscanminu => exact vscanminu _ _ _ _ _ | mkand => exact mkand _ _ _ _ _
  | mkor => exact mkor _ _ _ _ _ | mkxor => exact mkxor _ _ _ _ _ | mkandn => exact mkandn _ _ _ _ _ | mknot => exact mknot _ _ _ _
  | mkfill => exact mkfill _ _ _ | mkspreadI => exact mkspreadI _ _ _ _ | mkspreadX => exact mkspreadX _ _ _ _
  | mkparity => exact mkparity _ _ _ _ | mkfirst => exact mkfirst _ _ _ _ | mkcount => exact mkcount _ _ _ _
  | mkfind => exact mkfind _ _ _ _ | mkfindL => exact mkfindL _ _ _ _ | vrank => exact vrank _ _ _ _
  | vfaddVv => exact vfaddVv _ _ _ _ _ | vfaddVx => exact vfaddVx _ _ _ _ _ | vfsubVv => exact vfsubVv _ _ _ _ _
  | vfsubVx => exact vfsubVx _ _ _ _ _ | vfrsub => exact vfrsub _ _ _ _ _ | vfmulVv => exact vfmulVv _ _ _ _ _
  | vfmulVx => exact vfmulVx _ _ _ _ _ | vfdivVv => exact vfdivVv _ _ _ _ _ | vfdivVx => exact vfdivVx _ _ _ _ _
  | vfrdiv => exact vfrdiv _ _ _ _ _ | vfsqrt => exact vfsqrt _ _ _ _ | vfmin => exact vfmin _ _ _ _ _
  | vfmax => exact vfmax _ _ _ _ _ | vfsgnj => exact vfsgnj _ _ _ _ _ | vfsgnjn => exact vfsgnjn _ _ _ _ _
  | vfsgnjx => exact vfsgnjx _ _ _ _ _ | vfmacPpVv => exact vfmacPpVv _ _ _ _ _ | vfmacPpVx => exact vfmacPpVx _ _ _ _ _
  | vfmacNn => exact vfmacNn _ _ _ _ _ | vfmacPn => exact vfmacPn _ _ _ _ _ | vfmacNp => exact vfmacNp _ _ _ _ _
  | vfmad => exact vfmad _ _ _ _ _ | vfcmpEqVv => exact vfcmpEqVv _ _ _ _ _ | vfcmpEqVx => exact vfcmpEqVx _ _ _ _ _
  | vfcmpLtVv => exact vfcmpLtVv _ _ _ _ _ | vfcmpLe => exact vfcmpLe _ _ _ _ _ | vfcmpGt => exact vfcmpGt _ _ _ _ _
  | vfcmpGe => exact vfcmpGe _ _ _ _ _ | vfcmpLtVx => exact vfcmpLtVx _ _ _ _ _ | vfcmpNe => exact vfcmpNe _ _ _ _ _
  | vfkind => exact vfkind _ _ _ _ | vfcmpUn => exact vfcmpUn _ _ _ _ _ | vfcvt => exact vfcvt _ _ _ _ _ _
  | vfcvtU => exact vfcvtU _ _ _ _ _ _ | vfcvtRtz => exact vfcvtRtz _ _ _ _ _ _ | vfcvtURtz => exact vfcvtURtz _ _ _ _ _ _
  | vdrescale => exact vdrescale _ _ _ _ _ | vfsumO => exact vfsumO _ _ _ _ _ | vfsumT => exact vfsumT _ _ _ _ _
  | vfredmax => exact vfredmax _ _ _ _ _ | vfredmin => exact vfredmin _ _ _ _ _ | vrand => exact vrand _ _ _
  | vqaddVv => exact vqaddVv _ _ _ _ _ | vqaddVx => exact vqaddVx _ _ _ _ _ | vqsubVv => exact vqsubVv _ _ _ _ _
  | vqsubVx => exact vqsubVx _ _ _ _ _ | vqrsub => exact vqrsub _ _ _ _ _ | vqmulVv => exact vqmulVv _ _ _ _ _
  | vqmulVx => exact vqmulVx _ _ _ _ _ | vqdivVv => exact vqdivVv _ _ _ _ _ | vqdivVx => exact vqdivVx _ _ _ _ _
  | vqrdiv => exact vqrdiv _ _ _ _ _ | vqneg => exact vqneg _ _ _ _ | vqinv => exact vqinv _ _ _ _
  | vqmaccVv => exact vqmaccVv _ _ _ _ _ | vqmaccVx => exact vqmaccVx _ _ _ _ _ | vqeqVv => exact vqeqVv _ _ _ _ _
  | vqeqVx => exact vqeqVx _ _ _ _ _ | vqencVv => exact vqencVv _ _ _ _ _ | vqencVx => exact vqencVx _ _ _ _ _
  | vqencVi => exact vqencVi _ _ _ _ _ | vqdec => exact vqdec _ _ _ _ | vqdigVx => exact vqdigVx _ _ _ _ _
  | vqdigVi => exact vqdigVi _ _ _ _ _ | vqval => exact vqval _ _ _ _ | mmrow => exact mmrow _ _ _ _ _ _ _
  | mwld => exact mwld _ _ _ _ | mwclr => exact mwclr _ _ | vpclr => exact vpclr _ _ | vpmclr => exact vpmclr _
  | vpmask => exact vpmask _ _ _ | vid => exact vid _ _ | vmvR => exact vmvR _ _ _ _ | vstBo => exact vstBo _ _ _ _ _ _

end Sys2Proof.Laws.RoundTrip

namespace Sys2Proof.Claims

/-- Settles O49: each instruction by the law of its own word. -/
theorem roundTrip : Obligations.RoundTrip := by
  unfold Obligations.RoundTrip
  exact fun i => Laws.RoundTrip.statement_all i

/-- Settles O48, by decoding and encoding each word of the table. -/
theorem decodesWords : Obligations.DecodesWords := by
  unfold Obligations.DecodesWords
  decide +kernel

/-- Settles O52: at reset no entry of memory, and no poison mark, is listed. -/
theorem resetMemory : Obligations.ResetMemory := by
  unfold Obligations.ResetMemory
  rfl

end Sys2Proof.Claims
end

section
/-! PROOFS. Every step keeps the canonical form of memory (O53). One lemma for each operation of the model that gives a state, in the order
of the model: its result keeps the form because the operations that it is made of do. -/

namespace Sys2Proof.Machine

variable {s t : State}

/-! How the form passes through what programs are made of -/

/-- The state that an instruction or a move leaves, if it leaves one, has memory in its canonical form. -/
def OutWf (o : Out) : Prop := ∀ t, o = .next t → t.memWf = true

theorem outWf_next (h : t.memWf = true) : OutWf (.next t) := by rintro _ ⟨⟩; exact h

theorem outWf_fault {f : Fault} : OutWf (.fault f) := by rintro _ ⟨⟩

theorem outWf_ite {c : Prop} [Decidable c] {o p : Out} (ho : OutWf o) (hp : OutWf p) : OutWf (if c then o else p) := by
  split
  · exact ho
  · exact hp

/-- As `OutWf`, for a step that may not be possible. -/
def OptWf (o : Option State) : Prop := ∀ t, o = some t → t.memWf = true

theorem optWf_some (h : s.memWf = true) : OptWf (some s) := by rintro _ ⟨⟩; exact h

theorem optWf_none : OptWf none := by rintro _ ⟨⟩

theorem optWf_ite {c : Prop} [Decidable c] {o p : Option State} (ho : OptWf o) (hp : OptWf p) : OptWf (if c then o else p) := by
  split
  · exact ho
  · exact hp

theorem optWf_getD {o : Option State} (ho : OptWf o) (h : s.memWf = true) : (o.getD s).memWf = true := by
  cases o with
  | none => exact h
  | some t => exact ho t rfl

theorem optWf_map {α : Type} {f : α → State} {o : Option α} (hf : ∀ x, (f x).memWf = true) : OptWf (o.map f) := by
  cases o with
  | none => exact optWf_none
  | some x => exact optWf_some (hf x)

theorem optWf_findSome {α : Type} {f : α → Option State} {l : List α} (hf : ∀ x, OptWf (f x)) : OptWf (l.findSome? f) := by
  intro t e
  obtain ⟨x, -, hx⟩ := List.exists_of_findSome?_eq_some e
  exact hf x t hx

/-- As `OutWf`, for the write of a configuration register. -/
def CfgWf (r : CfgRes) : Prop := ∀ t, r = .done t → t.memWf = true

theorem cfgWf_done (h : s.memWf = true) : CfgWf (.done s) := by rintro _ ⟨⟩; exact h

theorem cfgWf_ignored : CfgWf .ignored := by rintro _ ⟨⟩

theorem cfgWf_trap {c : Nat} : CfgWf (.trap c) := by rintro _ ⟨⟩

theorem cfgWf_ite {c : Prop} [Decidable c] {o p : CfgRes} (ho : CfgWf o) (hp : CfgWf p) : CfgWf (if c then o else p) := by
  split
  · exact ho
  · exact hp

theorem memWf_ite {c : Prop} [Decidable c] (hs : s.memWf = true) (ht : t.memWf = true) : (if c then s else t).memWf = true := by
  split
  · exact hs
  · exact ht

/-- As `memWf_ite`, where an answer comes with the state. -/
theorem memWf_fst_ite {α : Type} {c : Prop} [Decidable c] {p q : State × α} (hp : p.1.memWf = true) (hq : q.1.memWf = true) :
    (if c then p else q).1.memWf = true := by
  split
  · exact hp
  · exact hq

/-- As `memWf_ite`, for the work of a command. -/
theorem memWf_st_ite {c : Prop} [Decidable c] {p q : Work} (hp : p.st.memWf = true) (hq : q.st.memWf = true) :
    (if c then p else q).st.memWf = true := by
  split
  · exact hp
  · exact hq

/-- The state of an answer that has been taken apart. -/
theorem memWf_of_fst {α : Type} {p : State × α} {x : α} (e : p = (t, x)) (h : p.1.memWf = true) : t.memWf = true := by
  rw [e] at h; exact h

theorem memWf_foldl {α : Type} {f : State → α → State} {l : List α} (hf : ∀ z x, z.memWf = true → (f z x).memWf = true)
    (h : s.memWf = true) : (l.foldl f s).memWf = true := by
  induction l generalizing s with
  | nil => exact h
  | cons x l ih => exact ih (hf s x h)

/-- The form depends on bytes and marks alone, and marks may be put. -/
theorem memWf_withMarks {b : Bool} {l : List Nat} (h : s.memWf = true) (hm : t.mem = s.mem) (hp : t.psn = putMarks s.psn b l) :
    t.memWf = true := State.memWf_of_eq (memWf_marked s b l h) hm hp

/-- As `memWf_withMarks`, for ranges that are zeroed or freed. -/
theorem memWf_filtered {p : Nat × Byte → Bool} {q : Nat × Bool → Bool} (h : s.memWf = true) (hm : t.mem = s.mem.filter p)
    (hp : t.psn = s.psn.filter q) : t.memWf = true := State.memWf_of_eq (memWf_filter s p q h) hm hp

/-! Accesses -/

theorem memWf_recallLine {e loc : Nat} (h : s.memWf = true) : (s.recallLine e loc).memWf = true :=
  h

theorem memWf_ownedWait {k : AKind} {pl : Place} (h : s.memWf = true) : (s.ownedWait k pl).1.memWf = true := by
  unfold State.ownedWait
  refine memWf_fst_ite ?_ ?_
  · exact h
  · split
    · exact memWf_recallLine h
    · split
      · exact h
      · exact memWf_fst_ite h h

theorem memWf_rmwAt {a : Actor} {pl : Place} {bs : List Byte} {bad : Bool} (h : s.memWf = true) : (s.rmwAt a pl bs bad).memWf = true := by
  unfold State.rmwAt
  split
  · split
    · exact memWf_perform _ _ _ _ _ _ (memWf_guardNote _ _ _ _ _ _ h)
    · exact h
  · exact memWf_write _ _ _ _ _ _ (memWf_markLine _ _ h)

/-! Shared operations -/

theorem memWf_ifAnswers {f : State → State} (h : s.memWf = true) (hf : ∀ z, z.memWf = true → (f z).memWf = true) :
    (s.ifAnswers f).memWf = true :=
  memWf_ite (hf _ h) h

theorem memWf_setBind {core slot : Nat} {f : Bind → Bind} (h : s.memWf = true) : (s.setBind core slot f).memWf = true :=
  h

theorem memWf_dropLanes {core hid : Nat} (h : s.memWf = true) : (s.dropLanes core hid).memWf = true :=
  h

theorem memWf_sendLate {r : Late} (h : s.memWf = true) : (s.sendLate r).memWf = true := by
  unfold State.sendLate
  split
  · exact memWf_ite (memWf_answer _ _ _ h) h
  · exact h

theorem memWf_sendSlow (h : s.memWf = true) : s.sendSlow.memWf = true :=
  memWf_foldl (fun _ _ hz => memWf_sendLate hz) h

theorem memWf_landPackets (h : s.memWf = true) : s.landPackets.memWf = true :=
  memWf_foldl (fun _ _ hz => memWf_ite hz hz) h

theorem memWf_answerTick {hid tick : Nat} {p : WaitKind → Bool} {v : Word} {flags : Nat} (h : s.memWf = true) :
    (s.answerTick hid tick p v flags).memWf = true := by
  unfold State.answerTick
  split
  · exact memWf_ite (memWf_respond _ _ _ _ _ _ h) h
  · exact h

theorem memWf_stallBegun {d : BitVec 5} {v : Word} {what : Begins} {party : Word} (h : s.memWf = true) :
    (s.stallBegun d v what party).memWf = true :=
  (memWf_setH _ _).trans (memWf_stall _ _ h)

theorem memWf_finishWhen {dies : List Nat} {d : BitVec 5} {v : Word} (h : s.memWf = true) : (s.finishWhen dies d v).memWf = true :=
  memWf_retireWhen _ _ _ _ _ (memWf_traceHart _ _ _ _ _ _ h)

theorem memWf_setTile {core n : Nat} {f : Tile → Tile} (h : s.memWf = true) : (s.setTile core n f).memWf = true :=
  h

theorem memWf_wakeTile {core n : Nat} (h : s.memWf = true) : (s.wakeTile core n).memWf = true :=
  memWf_ite h (memWf_foldl (fun _ _ hz => memWf_answerIf _ _ _ _ hz) h)

theorem memWf_endTile {e : Nat} {c : Cmd} {good : Bool} (h : s.memWf = true) : (s.endTile e c good).memWf = true :=
  memWf_ite (memWf_wakeTile (memWf_setTile h)) (memWf_ite (memWf_wakeTile (memWf_setTile h)) h)

theorem memWf_withdrawCmd {e : Nat} {q : BitVec 32} (h : s.memWf = true) : (s.withdrawCmd e q).memWf = true := by
  unfold State.withdrawCmd
  split
  · exact memWf_endTile h
  · exact h

theorem outWf_atPlace {r : State × Res} {f : State → Place → Out} (hr : r.1.memWf = true) (hf : ∀ z x, z.memWf = true → OutWf (f z x)) :
    OutWf (State.atPlace r f) := by
  unfold State.atPlace
  split
  · exact outWf_next (memWf_trap _ _ _ hr)
  · exact outWf_next (memWf_stall _ _ hr)
  · exact hf _ _ hr

theorem outWf_atPieces {r : State × ResAll} {f : State → List Place → Out} (hr : r.1.memWf = true)
    (hf : ∀ z x, z.memWf = true → OutWf (f z x)) : OutWf (State.atPieces r f) := by
  unfold State.atPieces
  split
  · exact outWf_next (memWf_trap _ _ _ hr)
  · exact outWf_next (memWf_stall _ _ hr)
  · exact hf _ _ hr

/-! Atomic operations -/

theorem memWf_amoNote {o : AmoOp} {pl : Place} {n : Nat} (h : s.memWf = true) : (s.amoNote o pl n).memWf = true := by
  unfold State.amoNote
  split
  · split
    · exact memWf_ite (memWf_guardNote _ _ _ _ _ _ h) h
    · exact h
  · exact h

theorem memWf_amoAt {o : AmoOp} {n : Nat} {d b : BitVec 5} {p : Word} {pl : Place} (h : s.memWf = true) :
    (s.amoAt o n d b p pl).memWf = true := by
  unfold State.amoAt
  split
  rename_i e
  have hw := memWf_of_fst e (memWf_readAt _ _ _ _ (memWf_amoNote h))
  exact memWf_ite (memWf_trap _ _ _ hw) (State.memWf_of_eq (memWf_ite (memWf_rmwAt hw) hw) rfl rfl)

theorem outWf_amo {o : AmoOp} {n : Nat} {d a b : BitVec 5} (h : s.memWf = true) : OutWf (amo o n d a b s) := by
  unfold amo
  simp only []
  refine outWf_ite ?_ ?_
  · exact outWf_next (memWf_trap _ _ _ h)
  · split
    · rename_i e1
      exact outWf_next (memWf_trap _ _ _ (memWf_of_fst e1 (memWf_access _ _ _ _ _ _ h)))
    · rename_i e2
      have hw1 := memWf_of_fst e2 (memWf_access _ _ _ _ _ _ h)
      exact outWf_ite (outWf_next (memWf_stall _ _ hw1)) (outWf_next (memWf_trap _ _ _ hw1))
    · rename_i e3
      have hw2 := memWf_of_fst e3 (memWf_access _ _ _ _ _ _ h)
      exact outWf_ite (outWf_next (memWf_amoAt hw2)) (outWf_next (memWf_trap _ _ _ hw2))

/-! Banks and swarms -/

theorem memWf_setBody {off : Nat} {o : Obj} {b : ObjKind} (h : s.memWf = true) : (s.setBody off o b).memWf = true :=
  memWf_setObj _ _ _ h

theorem memWf_countRank {r : Region} {rank : Nat} (h : s.memWf = true) : (s.countRank r rank).memWf = true :=
  memWf_store _ _ _ _ h

theorem memWf_countWriters {r : Region} {ranks : List Nat} {p : PlnWord} (h : s.memWf = true) : (s.countWriters r ranks p).memWf = true :=
  memWf_foldl (fun _ _ hz => memWf_countRank hz) h

theorem memWf_openReport {r : Region} {epi : Nat} (h : s.memWf = true) : (s.openReport r epi).memWf = true :=
  memWf_store _ _ _ _ h

theorem memWf_flipWord {r : Region} {ranks : List Nat} {e : Nat × PlnWord} (h : s.memWf = true) : (s.flipWord r ranks e).memWf = true :=
  memWf_ite (memWf_store64 _ _ _ (memWf_countWriters (memWf_store _ _ _ _ h))) (memWf_countWriters (memWf_store _ _ _ _ h))

theorem memWf_flipBanks {n : Nat} {banks : List Nat} (h : s.memWf = true) : (s.flipBanks n banks).memWf = true := by
  unfold State.flipBanks
  split
  · exact h
  · exact (memWf_setRegion _ _ _).trans (memWf_foldl (fun _ _ hz => memWf_flipWord hz) h)

theorem memWf_closeRegion {epi n : Nat} (h : s.memWf = true) : (s.closeRegion epi n).memWf = true := by
  unfold State.closeRegion
  split
  · exact h
  · exact memWf_ite ((memWf_setRegion _ _ _).trans (memWf_openReport h))
      ((memWf_setRegion _ _ _).trans (memWf_foldl (fun _ _ hz => memWf_countWriters hz) (memWf_openReport h)))

theorem memWf_sendFrame {kind dst tag target : Nat} {data : List Byte} (h : s.memWf = true) :
    (s.sendFrame kind dst tag target data).memWf = true :=
  memWf_ite h h

theorem memWf_sendParts {kind dst tag target count serial : Nat} {data : List Byte} {n : Nat} (h : s.memWf = true) :
    (s.sendParts kind dst tag target count serial data n).memWf = true := by
  induction n generalizing s with
  | zero => exact h
  | succ n ih => exact ih (memWf_sendFrame h)

theorem memWf_sendLong {kind dst tag target : Nat} {data : List Byte} (h : s.memWf = true) :
    (s.sendLong kind dst tag target data).memWf = true :=
  memWf_ite (memWf_sendFrame h) (memWf_sendParts h)

theorem memWf_fabricReply {tag num far tick : Nat} {v : Word} {flags : Nat} (h : s.memWf = true) :
    (s.fabricReply tag num far tick v flags).memWf = true :=
  memWf_ite (memWf_sendFrame h) h

theorem memWf_fabricResult {o : Obj} {far tick : Nat} {v : Word} {flags : Nat} (h : s.memWf = true) :
    (s.fabricResult o far tick v flags).memWf = true :=
  memWf_fabricReply h

theorem memWf_sendStep {off : Nat} {o : Obj} {f : Nat} {e : StepRes} (h : s.memWf = true) : (s.sendStep off o f e).memWf = true :=
  memWf_ite (memWf_fabricResult h) (memWf_answerTick h)

theorem memWf_sendSteps {off : Nat} (h : s.memWf = true) : (s.sendSteps off).memWf = true := by
  unfold State.sendSteps
  refine memWf_ite ?_ ?_
  · exact h
  · split
    · exact h
    · exact memWf_foldl (fun _ _ hz => memWf_sendStep hz) (memWf_setBody h)

theorem memWf_keepStep {off : Nat} {r : StepRes} (h : s.memWf = true) : (s.keepStep off r).memWf = true := by
  unfold State.keepStep
  split
  · exact memWf_setBody h
  · exact h

theorem memWf_closeResult {off : Nat} {o : Obj} {bar stp : Word} {m : Member} (h : s.memWf = true) :
    (s.closeResult off o bar stp m).memWf = true :=
  memWf_ite (memWf_keepStep h) (memWf_ite (memWf_fabricResult h) (memWf_answerTick h))

theorem memWf_joinResult {o : Obj} {k : WaitKind → Bool} {j : Join} {w : Word} (h : s.memWf = true) :
    (s.joinResult o k j w).memWf = true :=
  memWf_ite (memWf_fabricResult h) (memWf_answerTick h)

theorem memWf_finishFlips {off : Nat} (h : s.memWf = true) : (s.finishFlips off).memWf = true :=
  memWf_sendSteps (memWf_foldl (fun _ _ hz => memWf_flipBanks hz) h)

theorem memWf_closeEpisode {off : Nat} (h : s.memWf = true) : (s.closeEpisode off).memWf = true := by
  unfold State.closeEpisode
  simp only []
  split
  · exact memWf_finishFlips h
  · exact memWf_sendSteps (memWf_foldl (fun _ _ hz1 => memWf_joinResult hz1)
      (memWf_foldl (fun _ _ hz2 => memWf_closeResult hz2) (memWf_foldl (fun _ _ hz3 => memWf_closeRegion hz3)
        (memWf_setBody (memWf_finishFlips h)))))

theorem memWf_arriveAt {off hid chip dead tick : Nat} {flip : Bool} (h : s.memWf = true) :
    (s.arriveAt off hid chip dead tick flip).memWf = true := by
  unfold State.arriveAt
  split
  · exact h
  · exact memWf_ite (memWf_closeEpisode (memWf_setBody h)) (memWf_setBody h)

theorem memWf_leaveAt {off hid chip : Nat} (h : s.memWf = true) : (s.leaveAt off hid chip).memWf = true := by
  unfold State.leaveAt
  split
  · exact h
  · exact memWf_ite (memWf_closeEpisode (memWf_setBody h)) (memWf_setBody h)

theorem memWf_askHome {o : Obj} {b : Swarm} {op hid rank dead : Nat} (h : s.memWf = true) :
    (s.askHome o b op hid rank dead).memWf = true :=
  memWf_sendFrame h

theorem memWf_leaveOne {hid off : Nat} (h : s.memWf = true) : (s.leaveOne hid off).memWf = true := by
  unfold State.leaveOne
  split
  · exact memWf_ite (memWf_leaveAt h) (memWf_askHome h)
  · exact h

theorem memWf_leaveAll {hid : Nat} (h : s.memWf = true) : (s.leaveAll hid).memWf = true :=
  memWf_foldl (fun _ _ hz => memWf_leaveOne hz) h

theorem memWf_enrol {off rank hid : Nat} (h : s.memWf = true) : (s.enrol off rank hid).memWf = true := by
  unfold State.enrol
  split
  · exact h
  · exact memWf_setBody h

theorem memWf_clearGuards {off num : Nat} (h : s.memWf = true) : (s.clearGuards off num).memWf = true :=
  memWf_foldl (fun _ _ hz => hz) h

theorem memWf_grantQueued {off : Nat} (h : s.memWf = true) : (s.grantQueued off).memWf = true := by
  unfold State.grantQueued
  split
  · exact h
  · split
    · exact h
    · simp only []
      split
      · exact memWf_ite (memWf_respond _ _ _ _ _ _ (memWf_setBody (memWf_clearGuards h))) (memWf_setBody (memWf_clearGuards h))
      · exact memWf_setBody (memWf_clearGuards h)

theorem memWf_undo {w : Nat} {e : JEntry} (h : s.memWf = true) : (s.undo w e).memWf = true := by
  obtain ⟨hm, hp⟩ := (State.memWf_iff _).mp (memWf_store s (locComb e.off) (leBytes w e.old) e.psn h)
  exact (State.memWf_iff _).mpr ⟨hm, Tab.wf_set _ _ _ _ hp⟩

theorem memWf_rollback {r : Region} (h : s.memWf = true) : (s.rollback r).memWf = true :=
  memWf_withMarks (memWf_foldl (fun _ _ hz => memWf_undo hz) h) rfl rfl

theorem memWf_mendGuards {off num : Nat} (h : s.memWf = true) : (s.mendGuards off num).memWf = true :=
  memWf_withMarks (memWf_foldl (fun _ _ hz => memWf_rollback hz) h) rfl rfl

theorem memWf_writePieces {a : Actor} {l : List Place} {l' : List Byte} {l'' : List Nat} (h : s.memWf = true) :
    (s.writePieces a l l' l'').memWf = true := by
  induction l generalizing s a l' l'' with
  | nil => exact h
  | cons x l ih => exact ih (memWf_withMarks (memWf_writeAt _ _ _ _ _ h) rfl rfl)

theorem memWf_sendResult {off hid : Nat} {v : Word} (h : s.memWf = true) : (s.sendResult off hid v).memWf = true := by
  unfold State.sendResult
  refine memWf_ite ?_ ?_
  · split
    · exact memWf_sendFrame h
    · exact h
  · exact memWf_ite h (memWf_answerIf _ _ _ _ h)

theorem memWf_putMessage {off : Nat} {o : Obj} {b : Chan} {r : ChanReq} (h : s.memWf = true) : (s.putMessage off o b r).memWf = true :=
  memWf_sendResult (memWf_setBody (memWf_withMarks (memWf_store _ _ _ _ (memWf_count _ _ _ _ h)) rfl rfl))

theorem memWf_takeMessage {off : Nat} {o : Obj} {b : Chan} {r : ChanReq} (h : s.memWf = true) : (s.takeMessage off o b r).memWf = true :=
  memWf_answerIf _ _ _ _ ((memWf_updHart _ _ _).trans (memWf_setBody (memWf_writePieces (memWf_count _ _ _ _ h))))

theorem memWf_recallDst {off : Nat} (h : s.memWf = true) : (s.recallDst off).memWf = true := by
  unfold State.recallDst
  split
  · exact memWf_foldl (fun _ _ hz => memWf_ownedWait hz) h
  · exact h

theorem memWf_serveSender {off : Nat} {o : Obj} {b : Chan} {x : ChanReq} (h : s.memWf = true) : (s.serveSender off o b x).memWf = true :=
  memWf_ite (memWf_putMessage h) (memWf_sendResult (memWf_setBody h))

theorem optWf_serveOne {off : Nat} (h : s.memWf = true) : OptWf (s.serveOne off) := by
  unfold State.serveOne
  split
  · exact optWf_none
  · split
    · exact optWf_some (memWf_takeMessage h)
    · exact optWf_ite (optWf_some (memWf_serveSender h)) optWf_none
    · exact optWf_none

theorem memWf_serve {off n : Nat} (h : s.memWf = true) : (s.serve off n).memWf = true := by
  induction n generalizing s with
  | zero => exact h
  | succ n ih =>
    rw [State.serve]
    split
    · rename_i e
      exact ih (optWf_serveOne h _ e)
    · exact h

theorem memWf_serveAll {off : Nat} (h : s.memWf = true) : (s.serveAll off).memWf = true := by
  unfold State.serveAll
  split
  · exact memWf_recallDst (memWf_serve h)
  · exact h

theorem memWf_serveChans (h : s.memWf = true) : s.serveChans.memWf = true :=
  memWf_foldl (fun _ _ hz => memWf_serveAll hz) h

/-! Waits and channels -/

theorem outWf_countBank {tid : Nat} {o : Out} (ho : OutWf o) : OutWf (countBank tid o) := by
  unfold countBank
  split
  · exact outWf_next (memWf_ite (memWf_count _ _ _ _ ((ho _ rfl))) ((ho _ rfl)))
  · exact ho

theorem outWf_atRecord {p : Word} {f : Nat → Out} (h : s.memWf = true) (hf : ∀ x, OutWf (f x)) : OutWf (s.atRecord p f) := by
  unfold State.atRecord
  refine outWf_ite ?_ ?_
  · exact outWf_next (memWf_trap _ _ _ h)
  · refine outWf_ite ?_ ?_
    · exact outWf_next (memWf_trap _ _ _ h)
    · split
      · exact outWf_next (memWf_trap _ _ _ h)
      · exact outWf_ite (outWf_next (memWf_trap _ _ _ h)) (outWf_ite (outWf_next (memWf_trap _ _ _ h)) (outWf_countBank (hf _)))

theorem memWf_endsAt {off : Nat} {k : Option (WaitKind × Nat)} {d : BitVec 5} {v : Word} (h : s.memWf = true) :
    (s.endsAt off k d v).memWf = true := by
  unfold State.endsAt
  split
  · exact memWf_finishWhen h
  · exact memWf_finishAt _ _ _ _ _ _ h

theorem outWf_refuse {off : Nat} {k : Option (WaitKind × Nat)} {d : BitVec 5} {reason : Nat} (h : s.memWf = true) :
    OutWf (s.refuse off k d reason) :=
  outWf_next (memWf_endsAt h)

theorem outWf_atSwarm {k : Option (WaitKind × Nat)} {d : BitVec 5} {off : Nat} {f : Obj → Swarm → Out} (h : s.memWf = true)
    (hf : ∀ x x1, OutWf (f x x1)) : OutWf (s.atSwarm k d off f) := by
  unfold State.atSwarm
  split
  · exact outWf_ite (hf _ _) (outWf_refuse h)
  · exact outWf_refuse h

theorem outWf_atLatch {k : Option (WaitKind × Nat)} {d : BitVec 5} {off : Nat} {f : Obj → Latch → Out} (h : s.memWf = true)
    (hf : ∀ x x1, OutWf (f x x1)) : OutWf (s.atLatch k d off f) := by
  unfold State.atLatch
  split
  · exact outWf_ite (hf _ _) (outWf_refuse h)
  · exact outWf_refuse h

theorem outWf_atChan {k : Option (WaitKind × Nat)} {d : BitVec 5} {off : Nat} {f : Obj → Chan → Out} (h : s.memWf = true)
    (hf : ∀ x x1, OutWf (f x x1)) : OutWf (s.atChan k d off f) := by
  unfold State.atChan
  split
  · exact outWf_ite (hf _ _) (outWf_refuse h)
  · exact outWf_refuse h

theorem outWf_onew {valid : List Byte → Bool} {body : List Byte → ObjKind} {d a : BitVec 5} (h : s.memWf = true) :
    OutWf (onew valid body d a s) := by
  unfold onew
  refine outWf_atRecord ?_ ?_
  · exact h
  · intro x
    simp only []
    refine outWf_ite ?_ ?_
    · exact outWf_next (memWf_retireWhen _ _ _ _ _ h)
    · refine outWf_ite ?_ ?_
      · exact outWf_next (memWf_retireWhen _ _ _ _ _ h)
      · split
        · exact outWf_next (memWf_retireWhen _ _ _ _ _ h)
        · exact outWf_next (memWf_retireWhen _ _ _ _ _ (memWf_setObj _ _ _ h))

theorem outWf_execOnewSwarm {d a : BitVec 5} (h : s.memWf = true) : OutWf (execOnewSwarm d a s) :=
  outWf_onew h

theorem outWf_execOnewLatch {d a : BitVec 5} (h : s.memWf = true) : OutWf (execOnewLatch d a s) :=
  outWf_onew h

theorem outWf_execOnewChan {d a : BitVec 5} (h : s.memWf = true) : OutWf (execOnewChan d a s) :=
  outWf_onew h

theorem memWf_closeWaits {off : Nat} {o : Obj} (h : s.memWf = true) : (s.closeWaits off o).memWf = true := by
  unfold State.closeWaits
  split
  · exact memWf_foldl (fun _ _ hz1 => memWf_answerIf _ _ _ _ hz1) (memWf_foldl (fun _ _ hz2 => memWf_fabricResult hz2) h)
  · exact memWf_foldl (fun _ _ hz3 => memWf_answerIf _ _ _ _ hz3) h
  · exact memWf_foldl (fun _ _ hz4 => memWf_answerIf _ _ _ _ hz4) (memWf_foldl (fun _ _ hz5 => memWf_sendResult hz5) h)

theorem memWf_endObject {off : Nat} {o : Obj} (h : s.memWf = true) : (s.endObject off o).memWf = true :=
  memWf_dropObj _ _ (State.memWf_of_eq (memWf_closeWaits h) rfl rfl)

theorem outWf_execOfree {d a : BitVec 5} (h : s.memWf = true) : OutWf (execOfree d a s) := by
  unfold execOfree
  refine outWf_atRecord ?_ ?_
  · exact h
  · intro x
    split
    · exact outWf_refuse h
    · exact outWf_ite (outWf_refuse h) (outWf_ite (outWf_refuse h) (outWf_next (memWf_finishWhen (memWf_endObject h))))

theorem outWf_forward {o : Obj} {b : Swarm} {k : WaitKind} {d : BitVec 5} {op rank dead : Nat} (h : s.memWf = true) :
    OutWf (s.forward o b k d op rank dead) :=
  outWf_next ((memWf_startWait _ _ _ _).trans (memWf_askHome h))

theorem memWf_pendJoin {off : Nat} {o : Obj} {b : Swarm} {rank dead : Nat} (h : s.memWf = true) :
    (s.pendJoin off o b rank dead).memWf = true :=
  memWf_setBody h

theorem outWf_join {off : Nat} {o : Obj} {b : Swarm} {d : BitVec 5} {rank dead : Nat} (h : s.memWf = true) :
    OutWf (s.join off o b d rank dead) :=
  outWf_ite (outWf_next (memWf_closeEpisode ((memWf_startWait _ _ _ _).trans (memWf_pendJoin h))))
    (outWf_ite (outWf_next (memWf_finishAt _ _ _ _ _ _ h)) (outWf_next ((memWf_startWait _ _ _ _).trans (memWf_pendJoin h))))

theorem outWf_execSwjoin {d a t' : BitVec 5} {r : BitVec 1} (h : s.memWf = true) : OutWf (execSwjoin d a t' r s) := by
  unfold execSwjoin
  refine outWf_atRecord ?_ ?_
  · exact h
  · intro x1
    simp only []
    refine outWf_atSwarm ?_ ?_
    · exact h
    · intro x2 x3
      refine outWf_ite ?_ ?_
      · exact outWf_forward h
      · split
        · exact outWf_ite (outWf_refuse h) (outWf_join h)
        · exact outWf_ite (outWf_refuse h) (outWf_ite (outWf_refuse h) (outWf_join h))

theorem outWf_execSwleave {d a : BitVec 5} (h : s.memWf = true) : OutWf (execSwleave d a s) :=
  outWf_atRecord h (fun _ => outWf_atSwarm h (fun _ _ => outWf_ite (outWf_next (memWf_stallBegun (memWf_askHome h)))
    (outWf_ite (outWf_refuse h) (outWf_next (memWf_endsAt (memWf_leaveAt h))))))

theorem outWf_arrival {flip : Bool} {d a t' : BitVec 5} {r : BitVec 1} (h : s.memWf = true) : OutWf (arrival flip d a t' r s) := by
  unfold arrival
  refine outWf_atRecord ?_ ?_
  · exact h
  · intro x1
    simp only []
    refine outWf_atSwarm ?_ ?_
    · exact h
    · intro x2 x3
      refine outWf_ite ?_ ?_
      · exact outWf_forward h
      · split
        · exact outWf_refuse h
        · exact outWf_ite (outWf_next (memWf_endsAt h)) (outWf_next (memWf_arriveAt h))

theorem memWf_takeLatch {off : Nat} {o : Obj} {b : Latch} (h : s.memWf = true) : (s.takeLatch off o b).memWf = true :=
  memWf_setBody (memWf_clearGuards h)

theorem outWf_execAcq {d a t' : BitVec 5} {r : BitVec 1} (h : s.memWf = true) : OutWf (execAcq d a t' r s) :=
  outWf_atRecord h (fun _ => outWf_atLatch h (fun _ _ => outWf_ite (outWf_refuse h)
    (outWf_ite (outWf_refuse h) (outWf_ite (outWf_next (memWf_finishAt _ _ _ _ _ _ (memWf_takeLatch h)))
      (outWf_ite (outWf_next (memWf_endsAt h)) (outWf_next ((memWf_startWait _ _ _ _).trans (memWf_setBody h))))))))

theorem memWf_dropHolding {off : Nat} (h : s.memWf = true) : (s.dropHolding off).memWf = true :=
  h

theorem memWf_releaseLatch {off : Nat} {o : Obj} {b : Latch} (h : s.memWf = true) : (s.releaseLatch off o b).memWf = true :=
  memWf_grantQueued (memWf_setBody (memWf_clearGuards h))

theorem outWf_execRel {d a : BitVec 5} (h : s.memWf = true) : OutWf (execRel d a s) := by
  unfold execRel
  refine outWf_atRecord ?_ ?_
  · exact h
  · intro x
    split
    · exact outWf_ite (outWf_next (memWf_endsAt (memWf_dropHolding h)))
        (outWf_ite (outWf_next (memWf_endsAt (memWf_dropHolding h)))
          (outWf_next (memWf_endsAt (memWf_releaseLatch (memWf_dropHolding h)))))
    · exact outWf_next (memWf_endsAt (memWf_dropHolding h))
    · exact outWf_ite (outWf_refuse h) (outWf_refuse h)
    · exact outWf_refuse h

theorem outWf_revoke {mend : Bool} {d a : BitVec 5} (h : s.memWf = true) : OutWf (revoke mend d a s) :=
  outWf_atRecord h (fun _ => outWf_atLatch h (fun _ _ => outWf_ite (outWf_next (memWf_endsAt h))
    (outWf_ite (outWf_refuse h) (outWf_next (memWf_finishWhen ((memWf_setH _ _).trans
      (memWf_takeLatch (memWf_ite (memWf_mendGuards h) h))))))))

theorem memWf_sendAt {off : Nat} {o : Obj} {b : Chan} {r : ChanReq} (h : s.memWf = true) : (s.sendAt off o b r).memWf = true := by
  unfold State.sendAt
  simp only []
  split
  · exact memWf_serveAll (memWf_setBody h)
  · exact memWf_ite (memWf_serveAll (memWf_setBody h)) (memWf_sendResult (memWf_setBody (memWf_serveAll (memWf_setBody h))))

theorem outWf_execSend {d a t' : BitVec 5} {r : BitVec 1} (h : s.memWf = true) : OutWf (execSend d a t' r s) :=
  outWf_atRecord h (fun _ => outWf_atChan h (fun _ _ => outWf_ite (outWf_next (memWf_trap _ _ _ h))
    (outWf_atPieces (memWf_accessRun _ _ _ _ _ h) (fun _ _ hz => outWf_next
      (memWf_sendAt ((memWf_startWait _ _ _ _).trans (memWf_readPieces _ _ _ hz)))))))

theorem memWf_recvAt {off : Nat} {o : Obj} {b : Chan} {r : ChanReq} (h : s.memWf = true) : (s.recvAt off o b r).memWf = true := by
  unfold State.recvAt
  simp only []
  split
  · exact memWf_serveAll (memWf_setBody h)
  · exact memWf_ite (memWf_serveAll (memWf_setBody h)) (memWf_answerIf _ _ _ _ (memWf_setBody (memWf_serveAll (memWf_setBody h))))

theorem outWf_execRecv {d a t' : BitVec 5} {r : BitVec 1} (h : s.memWf = true) : OutWf (execRecv d a t' r s) :=
  outWf_atRecord h (fun _ => outWf_atChan h (fun _ _ => outWf_atPieces (memWf_accessRun _ _ _ _ _ h)
    (fun _ _ hz => outWf_next (memWf_recvAt hz))))

/-! Regions -/

theorem memWf_refreshObj {r : Region} (h : s.memWf = true) : (s.refreshObj r).memWf = true := by
  unfold State.refreshObj
  split
  · exact memWf_ite (memWf_setObj _ _ _ h) h
  · exact h

theorem outWf_execCregNew {d a : BitVec 5} (h : s.memWf = true) : OutWf (execCregNew d a s) := by
  unfold execCregNew
  refine outWf_atPlace ?_ ?_
  · exact memWf_access _ _ _ _ _ _ h
  · intro z x hz
    split
    rename_i e
    have hw := memWf_of_fst e (memWf_readAt _ _ _ _ hz)
    refine outWf_ite ?_ ?_
    · exact outWf_next (memWf_trap _ _ _ hw)
    · simp only []
      split
      · exact outWf_next hw
      · exact outWf_next ((memWf_retireX _ _ _).trans (memWf_refreshObj hw))

theorem memWf_freeRegionAt {n : Nat} {r : Region} (h : s.memWf = true) : (s.freeRegionAt n r).memWf = true := by
  unfold State.freeRegionAt
  simp only []
  split
  · exact memWf_ite (memWf_sendSteps (memWf_refreshObj ((memWf_setRegion _ _ _).trans (memWf_filtered h rfl rfl))))
      (memWf_refreshObj ((memWf_setRegion _ _ _).trans (memWf_filtered h rfl rfl)))
  · exact memWf_refreshObj ((memWf_setRegion _ _ _).trans (memWf_filtered h rfl rfl))

theorem outWf_execCregFree {d a : BitVec 5} (h : s.memWf = true) : OutWf (execCregFree d a s) := by
  unfold execCregFree
  simp only []
  split
  · exact outWf_ite (outWf_next (memWf_retireWhen _ _ _ _ _ (memWf_freeRegionAt h))) (outWf_next h)
  · exact outWf_next h

theorem outWf_execCregFind {d a : BitVec 5} (h : s.memWf = true) : OutWf (execCregFind d a s) := by
  unfold execCregFind
  split
  · exact outWf_next h
  · exact outWf_next h

/-! Engines -/

theorem memWf_dline {a : Actor} {copy : Bool} {p : Word} (h : s.memWf = true) : (s.dline a copy p).1.memWf = true := by
  unfold State.dline
  split
  · rename_i e1
    exact memWf_of_fst e1 (memWf_access _ _ _ _ _ _ h)
  · rename_i e2
    exact memWf_of_fst e2 (memWf_access _ _ _ _ _ _ h)
  · rename_i e3
    exact memWf_of_fst e3 (memWf_access _ _ _ _ _ _ h)

theorem memWf_dlines {a : Actor} {copy : Bool} {p : Word} {n : Nat} (h : s.memWf = true) : (s.dlines a copy p n).1.memWf = true := by
  induction n generalizing s a copy p with
  | zero => exact h
  | succ n ih =>
    rw [State.dlines]
    exact ih (memWf_dline h)

theorem memWf_startTile {e : Nat} {c : Cmd} (h : s.memWf = true) : (s.startTile e c).memWf = true :=
  memWf_ite (memWf_setTile h) (memWf_ite (memWf_setTile h) h)

theorem memWf_enqueue {e : Nat} {c : Cmd} (h : s.memWf = true) : (s.enqueue e c).memWf = true :=
  (memWf_setEngine _ _ _).trans (memWf_startTile h)

theorem memWf_withLines {c : Cmd} {rcd : Word} (h : s.memWf = true) : (s.withLines c rcd).1.memWf = true := by
  unfold State.withLines
  split
  rename_i e
  exact memWf_dlines (memWf_of_fst e (memWf_dline h))

theorem memWf_issueLate {e : Nat} {c : Cmd} (h : s.memWf = true) : (s.issueLate e c).memWf = true := by
  unfold State.issueLate
  split
  rename_i e1
  have hw := memWf_of_fst e1 (memWf_withLines h)
  simp only []
  split
  · exact hw
  · exact (memWf_updHart _ _ _).trans (memWf_enqueue hw)
  · exact memWf_answerIf _ _ _ _ (memWf_enqueue hw)
  · exact memWf_answerIf _ _ _ _ hw

theorem memWf_fillSlots {e n : Nat} (h : s.memWf = true) : (s.fillSlots e n).memWf = true := by
  induction n generalizing s with
  | zero => exact h
  | succ n ih =>
    rw [State.fillSlots]
    split
    · exact h
    · exact memWf_ite h (ih (memWf_ite (memWf_issueLate h) h))

theorem memWf_finishCmd {e : Nat} {c : Cmd} {w : Word} (h : s.memWf = true) : (s.finishCmd e c w).memWf = true :=
  memWf_foldl (fun _ _ hz => memWf_ite (memWf_answerIf _ _ _ _ hz) hz) h

theorem memWf_writeRecord {c : Cmd} {fault : Option (Nat × Word)} {out : Nat} (h : s.memWf = true) :
    (s.writeRecord c fault out).memWf = true :=
  memWf_ite (memWf_writeAt _ _ _ _ _ h) h

theorem memWf_workFinish {r : Work} {e : Nat} {c : Cmd} {out lowabs nabs st : Nat} (hr : r.st.memWf = true) :
    (Work.finish r e c out lowabs nabs st).memWf = true :=
  memWf_fillSlots (memWf_endTile (memWf_finishCmd (memWf_writeRecord (memWf_count _ _ _ _ hr))))

theorem memWf_readLine {a : Actor} {pl : Place} (h : s.memWf = true) : (s.readLine a pl).1.memWf = true := by
  unfold State.readLine
  split
  rename_i e
  exact memWf_of_fst e (memWf_readAt _ _ _ _ h)

theorem memWf_workPutLine {r : Work} {c : Cmd} {d : DLine} {p : Word} {bs : List Byte} {bad : List Nat} (hr : r.st.memWf = true) :
    (Work.putLine r c d p bs bad).st.memWf = true :=
  memWf_st_ite hr (memWf_st_ite hr (memWf_writePieces hr))

theorem memWf_workCopy {r : Work} {c : Cmd} {l : List Piece} (hr : r.st.memWf = true) : (Work.copy r c l).st.memWf = true := by
  induction l generalizing r c with
  | nil => exact hr
  | cons x l ih =>
    rw [Work.copy]
    split
    · rename_i e1
      split
      rename_i e2
      have hw := memWf_of_fst e2 (memWf_readLine (memWf_of_fst e1 (memWf_access _ _ _ _ _ _ hr)))
      exact memWf_st_ite (memWf_workPutLine hw) (ih (memWf_workPutLine hw))
    · rename_i e3
      exact memWf_of_fst e3 (memWf_access _ _ _ _ _ _ hr)
    · rename_i e4
      exact memWf_of_fst e4 (memWf_access _ _ _ _ _ _ hr)

theorem memWf_readSource {c : Cmd} {n : Nat} {p : Word} {n' : Nat} (h : s.memWf = true) : (s.readSource c n p n').1.memWf = true := by
  induction n generalizing s c p n' with
  | zero => exact h
  | succ n ih =>
    rw [State.readSource]
    split
    · rename_i e1
      split
      rename_i e2
      have hw := memWf_of_fst e2 (memWf_readLine (memWf_of_fst e1 (memWf_access _ _ _ _ _ _ h)))
      split
      · rename_i e3
        exact memWf_of_fst e3 (ih hw)
      · exact ih hw
    · rename_i e4
      exact memWf_of_fst e4 (memWf_access _ _ _ _ _ _ h)
    · rename_i e5
      exact memWf_of_fst e5 (memWf_access _ _ _ _ _ _ h)

theorem memWf_workPutPieces {r : Work} {c : Cmd} {l : List Piece} (hr : r.st.memWf = true) : (Work.putPieces r c l).st.memWf = true := by
  induction l generalizing r c with
  | nil => exact hr
  | cons x l ih => exact memWf_st_ite (memWf_workPutLine hr) (ih (memWf_workPutLine hr))

theorem memWf_workPutRun {r : Work} {c : Cmd} {l : List DLine} {p : Word} {bs : List Byte} {bad : List Nat} (hr : r.st.memWf = true) :
    (Work.putRun r c l p bs bad).st.memWf = true :=
  memWf_workPutPieces hr

theorem memWf_endComp {e : Nat} {c : Cmd} (h : s.memWf = true) : (s.endComp e c).memWf = true := by
  unfold State.endComp
  split
  · rename_i e1
    exact memWf_workFinish (memWf_of_fst e1 (memWf_readSource h))
  · rename_i e2
    have hw := memWf_of_fst e2 (memWf_readSource h)
    split
    · exact memWf_workFinish hw
    · exact memWf_ite (memWf_workFinish (memWf_workPutRun hw)) (memWf_workFinish (memWf_workPutRun hw))

theorem memWf_endCopy {e : Nat} {c : Cmd} (h : s.memWf = true) : (s.endCopy e c).memWf = true :=
  memWf_workFinish (memWf_workCopy h)

theorem memWf_sendColl {tag num : Nat} {r : CollRes} {m : CollMember} (h : s.memWf = true) : (s.sendColl tag num r m).memWf = true :=
  memWf_ite (memWf_sendLong h) h

theorem memWf_closeColl {rcd : Nat} (h : s.memWf = true) : (s.closeColl rcd).memWf = true := by
  unfold State.closeColl
  split
  · exact h
  · simp only []
    split
    · exact h
    · exact memWf_foldl (fun _ _ hz => memWf_sendColl hz) (memWf_setBody h)

theorem memWf_contribute {rcd op ty len dead : Nat} {m : CollMember} (h : s.memWf = true) :
    (s.contribute rcd op ty len dead m).1.memWf = true := by
  unfold State.contribute
  split
  · exact h
  · exact memWf_fst_ite h h

theorem memWf_failCmd {e : Nat} {c : Cmd} {f : Nat × Word} (h : s.memWf = true) : (s.failCmd e c f).memWf = true :=
  memWf_workFinish h

theorem memWf_startColl {e : Nat} {c : Cmd} (h : s.memWf = true) : (s.startColl e c).memWf = true := by
  unfold State.startColl
  split
  · rename_i e1
    exact memWf_failCmd (memWf_of_fst e1 (memWf_readSource h))
  · rename_i e2
    have hw := memWf_of_fst e2 (memWf_readSource h)
    split
    · exact memWf_failCmd hw
    · refine memWf_ite ?_ ?_
      · exact memWf_sendLong hw
      · split
        · exact memWf_failCmd hw
        · split
          · rename_i e3
            exact memWf_of_fst e3 (memWf_contribute hw)
          · rename_i e4
            exact memWf_failCmd (memWf_of_fst e4 (memWf_contribute hw))

theorem memWf_runLines {c : Cmd} {x : CollRun} (h : s.memWf = true) : (s.runLines c x).1.memWf = true :=
  memWf_fst_ite h (memWf_dlines h)

theorem memWf_workPutRuns {r : Work} {c : Cmd} {l : List CollRun} (hr : r.st.memWf = true) : (Work.putRuns r c l).st.memWf = true := by
  induction l generalizing r c with
  | nil => exact hr
  | cons x l ih =>
    rw [Work.putRuns]
    split
    rename_i e
    have hw := memWf_of_fst e (memWf_runLines hr)
    exact memWf_st_ite (memWf_workPutRun hw) (ih (memWf_workPutRun hw))

theorem memWf_endColl {e : Nat} {c : Cmd} {x : CollRes} (h : s.memWf = true) : (s.endColl e c x).memWf = true :=
  memWf_workFinish (memWf_workPutRuns h)

theorem outWf_execEngineCommandStart {e : Nat} (h : s.memWf = true) : OutWf (execEngineCommandStart e s) := by
  unfold execEngineCommandStart
  split
  · exact outWf_next h
  · exact outWf_ite (outWf_next h) (outWf_next (memWf_ite (memWf_startColl h) h))

theorem outWf_execEngineCommandEnd {e : Nat} (h : s.memWf = true) : OutWf (execEngineCommandEnd e s) := by
  unfold execEngineCommandEnd
  split
  · exact outWf_next h
  · refine outWf_ite ?_ ?_
    · exact outWf_next h
    · split
      · exact outWf_next (memWf_endComp h)
      · split
        · exact outWf_next (memWf_endColl h)
        · exact outWf_next h
      · exact outWf_next (memWf_endCopy h)

theorem outWf_execCollectiveClose {rcd : Nat} (h : s.memWf = true) : OutWf (execCollectiveClose rcd s) := by
  unfold execCollectiveClose
  split
  · exact outWf_ite (outWf_next (memWf_closeColl h)) (outWf_next h)
  · exact outWf_next (memWf_closeColl h)
  · exact outWf_next h

theorem memWf_grantLease {e tid : Nat} (h : s.memWf = true) : (s.grantLease e tid).memWf = true :=
  h

theorem outWf_elease {kind : Nat} {d a t' : BitVec 5} {r : BitVec 1} (h : s.memWf = true) : OutWf (elease kind d a t' r s) := by
  unfold elease
  simp only []
  refine outWf_ite ?_ ?_
  · exact outWf_next (memWf_finishAt _ _ _ _ _ _ h)
  · split
    · exact outWf_next (memWf_finishAt _ _ _ _ _ _ (memWf_grantLease h))
    · exact outWf_ite (outWf_next (memWf_finishAt _ _ _ _ _ _ h)) (outWf_next h)

theorem outWf_execEleaseRenew {d a t' : BitVec 5} {r : BitVec 1} (h : s.memWf = true) : OutWf (execEleaseRenew d a t' r s) := by
  unfold execEleaseRenew
  simp only []
  split
  · exact outWf_next (memWf_finishWait _ _ _ h)
  · exact outWf_next (memWf_finishWait _ _ _ h)

theorem memWf_prefixOf {l : List Piece} (h : s.memWf = true) : (s.prefixOf l).1.memWf = true :=
  h

theorem memWf_outPieces {c : Cmd} (h : s.memWf = true) : (s.outPieces c).1.memWf = true := by
  unfold State.outPieces
  refine memWf_fst_ite ?_ ?_
  · split
    · rename_i e1
      exact memWf_of_fst e1 (memWf_readSource h)
    · rename_i e2
      exact memWf_of_fst e2 (memWf_readSource h)
  · split
    · exact h
    · exact h

theorem memWf_stopWork {c : Cmd} (h : s.memWf = true) : (s.stopWork c).st.memWf = true := by
  unfold State.stopWork
  refine memWf_st_ite ?_ ?_
  · split
    rename_i e
    exact memWf_workCopy (memWf_of_fst e (memWf_prefixOf h))
  · split
    rename_i e
    split
    rename_i e1
    exact memWf_workPutPieces (memWf_of_fst e1 (memWf_prefixOf (memWf_of_fst e (memWf_outPieces h))))

theorem memWf_stopRunning {e : Nat} {c : Cmd} (h : s.memWf = true) : (s.stopRunning e c).memWf = true :=
  memWf_workFinish (memWf_stopWork h)

theorem memWf_discardCmd {e : Nat} {c : Cmd} (h : s.memWf = true) : (s.discardCmd e c).memWf = true :=
  memWf_endTile (memWf_finishCmd (memWf_writeRecord h))

theorem memWf_endLease {e : Nat} (h : s.memWf = true) : (s.endLease e).memWf = true :=
  memWf_ite h (memWf_foldl (fun _ _ hz1 => memWf_ite (memWf_stopRunning hz1) (memWf_discardCmd hz1))
    (memWf_foldl (fun _ _ hz2 => memWf_answerIf _ _ _ _ hz2) h))

theorem outWf_execEfree {d a : BitVec 5} (h : s.memWf = true) : OutWf (execEfree d a s) := by
  unfold execEfree
  split
  · exact outWf_ite (outWf_next ((memWf_retireX _ _ _).trans (memWf_endLease h))) (outWf_next (memWf_stallBegun (memWf_endLease h)))
  · exact outWf_next h

theorem outWf_execLeaseGrant {e : Nat} (h : s.memWf = true) : OutWf (execLeaseGrant e s) := by
  unfold execLeaseGrant
  split
  · exact outWf_next h
  · exact outWf_next (memWf_answerIf _ _ _ _ (memWf_grantLease h))

theorem outWf_issueCmd {e : Nat} {c : Cmd} {bs : List Byte} {d : BitVec 5} {dead : Nat} (h : s.memWf = true) :
    OutWf (s.issueCmd e c bs d dead) := by
  unfold State.issueCmd
  split
  · split
    · exact outWf_next (memWf_stall _ _ h)
    · refine outWf_ite ?_ ?_
      · simp only []
        split
        · exact outWf_next (memWf_finishWait _ _ _ (memWf_enqueue h))
        · exact outWf_next (memWf_stallBegun (memWf_enqueue h))
      · exact outWf_ite (outWf_next (memWf_finishWait _ _ _ h)) (outWf_next h)
  · exact outWf_next (memWf_finishWait _ _ _ h)

theorem outWf_atTop {c : Cmd} {f : State → Out} (h : s.memWf = true) (hf : ∀ z, z.memWf = true → OutWf (f z)) : OutWf (s.atTop c f) := by
  unfold State.atTop
  split
  · exact hf _ h
  · split
    · exact outWf_ite (hf _ h) (outWf_ite (outWf_next (memWf_stall _ _ h))
        (outWf_next (memWf_stall _ _ ((memWf_setH _ _).trans (memWf_askHome h)))))
    · exact outWf_next (memWf_stall _ _ ((memWf_setH _ _).trans (memWf_askHome h)))

theorem outWf_issue {kind : Nat} {d a t' : BitVec 5} {r : BitVec 1} (h : s.memWf = true) : OutWf (issue kind d a t' r s) := by
  unfold issue
  refine outWf_atPlace ?_ ?_
  · exact memWf_access _ _ _ _ _ _ h
  · intro z x hz1
    split
    rename_i e
    have hw := memWf_of_fst e (memWf_readAt _ _ _ _ hz1)
    refine outWf_ite ?_ ?_
    · exact outWf_next (memWf_trap _ _ _ hw)
    · simp only []
      split
      · exact outWf_next (memWf_finishWait _ _ _ hw)
      · exact outWf_atTop hw (fun _ hz2 => outWf_issueCmd (memWf_withLines hz2))

theorem outWf_execEwait {d a t' : BitVec 5} {r : BitVec 1} (h : s.memWf = true) : OutWf (execEwait d a t' r s) :=
  outWf_ite (outWf_next (memWf_finishWait _ _ _ h)) (outWf_ite (outWf_next (memWf_finishAt _ _ _ _ _ _ h))
    (outWf_ite (outWf_next (memWf_finishAt _ _ _ _ _ _ h)) (outWf_next h)))

theorem outWf_atTile {n : BitVec 4} {f : Tile → Out} (h : s.memWf = true) (hf : ∀ x, OutWf (f x)) : OutWf (s.atTile n f) :=
  outWf_ite (outWf_next (memWf_trap _ _ _ h)) (hf _)

theorem outWf_execTstat {d : BitVec 5} {n : BitVec 4} (h : s.memWf = true) : OutWf (execTstat d n s) :=
  outWf_atTile h (fun _ => outWf_next h)

theorem outWf_execTwait {d : BitVec 5} {n : BitVec 4} {t' : BitVec 5} {r : BitVec 1} (h : s.memWf = true) :
    OutWf (execTwait d n t' r s) :=
  outWf_atTile h (fun _ => outWf_ite (outWf_next (memWf_finishWait _ _ _ h))
    (outWf_ite (outWf_next (memWf_finishWait _ _ _ h)) (outWf_next h)))

theorem outWf_tset {fr nx : Nat} {d : BitVec 5} {n : BitVec 4} (h : s.memWf = true) : OutWf (tset fr nx d n s) := by
  unfold tset
  refine outWf_atTile ?_ ?_
  · exact h
  · intro x
    split
    · exact outWf_next (memWf_stall _ _ h)
    · exact outWf_ite (outWf_next ((memWf_retireX _ _ _).trans (memWf_setTile h))) (outWf_next h)

theorem outWf_fenceWait {k : BitVec 3} (h : s.memWf = true) : OutWf (fenceWait k s) := by
  unfold fenceWait
  split
  · exact outWf_next (memWf_stall _ _ h)
  · exact outWf_next h

/-! Debugging and starts -/

theorem memWf_sample {pc value : Word} {l : List Nat} (h : s.memWf = true) : (s.sample pc value l).memWf = true :=
  memWf_foldl (fun _ _ hz => memWf_traceHart _ _ _ _ _ _ hz) h

theorem memWf_haltAt {vsd : Bool} {n cut : Nat} {pc value : Word} (h : s.memWf = true) : (s.haltAt vsd n cut pc value).memWf = true :=
  State.memWf_of_eq (memWf_traceHart _ _ _ _ _ _ h) rfl rfl

theorem memWf_foragerBreak (h : s.memWf = true) : (s.foragerBreak).1.memWf = true := by
  unfold State.foragerBreak
  simp only []
  refine memWf_fst_ite ?_ ?_
  · exact h
  · split
    · exact memWf_haltAt (memWf_sample h)
    · exact memWf_sample h

theorem outWf_execDebugResume {core slot : Nat} (h : s.memWf = true) : OutWf (execDebugResume core slot s) := by
  unfold execDebugResume
  split
  · exact outWf_next h
  · exact outWf_next h

theorem outWf_execDebugStep {core slot : Nat} (h : s.memWf = true) : OutWf (execDebugStep core slot s) := by
  unfold execDebugStep
  split
  · exact outWf_next h
  · exact outWf_next h

theorem memWf_trigger {tag group chip : Nat} {origin : Word} (h : s.memWf = true) : (s.trigger tag group chip origin).memWf = true :=
  memWf_ite (memWf_ite (State.memWf_of_eq (memWf_foldl (fun _ _ hz => memWf_traceHart _ _ _ _ _ _ hz) (memWf_trace _ _ _ _ _ _ _ _ h)) rfl
    rfl) (memWf_trace _ _ _ _ _ _ _ _ h)) h

theorem memWf_sendTrigger {tag group : Nat} (h : s.memWf = true) : (s.sendTrigger tag group).memWf = true :=
  memWf_trigger (memWf_foldl (fun _ _ hz => memWf_sendFrame hz) h)

theorem outWf_execTmark {a : BitVec 5} {c : BitVec 12} (h : s.memWf = true) : OutWf (execTmark a c s) :=
  outWf_next ((memWf_retire0 _).trans (memWf_ite (memWf_sendTrigger (memWf_traceHart _ _ _ _ _ _ h)) (memWf_traceHart _ _ _ _ _ _ h)))

/-! Vector ownership -/

theorem memWf_clearFindings {hid : Nat} {part : Nat → Bool} (h : s.memWf = true) : (s.clearFindings hid part).memWf = true :=
  h

theorem memWf_restoreRecords {h' : Hart} {l : List Finding} (h : s.memWf = true) : (s.restoreRecords h' l).memWf = true :=
  memWf_foldl (fun _ _ hz => memWf_mcheck _ _ _ _ _ _ _ _ hz) h

theorem memWf_saveLanes {core : Nat} {p : Nat × Nat → Bool} (h : s.memWf = true) : (s.saveLanes core p).memWf = true :=
  h

theorem optWf_vown {pc : Word} (h : s.memWf = true) : OptWf (s.vown pc) :=
  optWf_ite (optWf_some h) (optWf_ite (optWf_some (memWf_ite (memWf_traceHart _ _ _ _ _ _ (memWf_count _ _ _ _ h)) h))
    (optWf_ite optWf_none (optWf_some ((memWf_setH _ _).trans (memWf_restoreRecords
      (memWf_clearFindings (memWf_ite (memWf_traceHart _ _ _ _ _ _ (memWf_count _ _ _ _ h)) h)))))))

theorem memWf_vownLost (h : s.memWf = true) : s.vownLost.memWf = true :=
  State.memWf_of_eq (memWf_endHart _ _ (memWf_restoreRecords (memWf_clearFindings h))) rfl rfl

theorem outWf_withLanes {pc : Word} {f : State → Out} (h : s.memWf = true) (hf : ∀ z, z.memWf = true → OutWf (f z)) :
    OutWf (s.withLanes pc f) := by
  unfold State.withLanes
  split
  · rename_i e
    exact hf _ (optWf_vown h _ e)
  · exact outWf_next (memWf_vownLost h)

/-! The run queue -/

theorem memWf_drainOf {h' : Hart} (h : s.memWf = true) : (s.drainOf h').memWf = true :=
  memWf_ite h ((memWf_setCore _ _ _).trans (memWf_count _ _ _ _ h))

theorem memWf_drainCore {core : Nat} (h : s.memWf = true) : (s.drainCore core).memWf = true :=
  memWf_foldl (fun _ _ hz => memWf_drainOf hz) h

theorem memWf_drainRechecks (h : s.memWf = true) : s.drainRechecks.memWf = true :=
  memWf_drainOf h

theorem memWf_takeVectorTrap (h : s.memWf = true) : s.takeVectorTrap.memWf = true := by
  unfold State.takeVectorTrap
  split
  · exact h
  · exact memWf_takeTrap _ _ _ ((memWf_setH _ _).trans (memWf_drainRechecks h))

theorem outWf_meetsTrap {f : Out} (h : s.memWf = true) (hf : OutWf f) : OutWf (s.meetsTrap f) :=
  outWf_ite (outWf_next (memWf_takeVectorTrap h)) hf

theorem outWf_meetsTrapSD {f : Out} (h : s.memWf = true) (hf : OutWf f) : OutWf (s.meetsTrapSD f) :=
  outWf_ite (outWf_next (memWf_takeVectorTrap h)) hf

theorem memWf_stallVector (h : s.memWf = true) : s.stallVector.memWf = true :=
  h

theorem memWf_queueBlock {d : BitVec 5} {addr : Word} (h : s.memWf = true) : (s.queueBlock d addr).memWf = true :=
  h

theorem outWf_execVrun {d a : BitVec 5} (h : s.memWf = true) : OutWf (execVrun d a s) :=
  outWf_meetsTrapSD h (outWf_ite (outWf_next (memWf_trap _ _ _ h))
    (outWf_ite (outWf_next (memWf_trap _ _ _ h)) (outWf_ite (outWf_next (memWf_trap _ _ _ h))
      (outWf_ite (outWf_next (memWf_stall _ _ h)) (outWf_next (memWf_queueBlock h))))))

theorem outWf_execRqpop {d t' : BitVec 5} {r : BitVec 1} (h : s.memWf = true) : OutWf (execRqpop d t' r s) := by
  unfold execRqpop
  refine outWf_meetsTrapSD ?_ ?_
  · exact h
  · split
    · exact outWf_next (memWf_finishWait _ _ _ h)
    · exact outWf_ite (outWf_next (memWf_finishWait _ _ _ h)) (outWf_next h)

theorem outWf_execVsync {d t' : BitVec 5} {r : BitVec 1} (h : s.memWf = true) : OutWf (execVsync d t' r s) :=
  outWf_meetsTrapSD h (outWf_ite (outWf_next (memWf_finishWait _ _ _ h))
    (outWf_ite (outWf_next (memWf_finishWait _ _ _ h)) (outWf_next h)))

theorem memWf_wakeForager (h : s.memWf = true) : s.wakeForager.memWf = true := by
  unfold State.wakeForager
  split
  · split
    · split
      · exact memWf_answer _ _ _ h
      · exact h
    · exact memWf_ite (memWf_answer _ _ _ h) h
    · exact h
  · exact h

theorem outWf_execVrel {d : BitVec 5} (h : s.memWf = true) : OutWf (execVrel d s) := by
  unfold execVrel
  refine outWf_meetsTrap ?_ ?_
  · exact h
  · refine outWf_ite ?_ ?_
    · exact outWf_next (memWf_stallVector h)
    · refine outWf_withLanes ?_ ?_
      · exact h
      · intro z hz
        simp only []
        refine outWf_next ?_
        refine (memWf_retireX _ _ _).trans ?_
        refine (memWf_setH _ _).trans ?_
        split
        · exact memWf_setBind (memWf_dropLanes hz)
        · exact memWf_dropLanes hz

theorem outWf_execVcfg {d : BitVec 5} {n : BitVec 2} (h : s.memWf = true) : OutWf (execVcfg d n s) :=
  outWf_meetsTrap h (outWf_ite (outWf_next (memWf_trap _ _ _ h))
    (outWf_ite (outWf_next (memWf_stallVector h)) (outWf_withLanes h (fun _ hz => outWf_next hz))))

theorem memWf_admitHart {k : Hart} (h : s.memWf = true) : (s.admitHart k).memWf = true :=
  h

theorem memWf_addHart {k : Hart} {i : Image} (h : s.memWf = true) : (s.addHart k i).memWf = true := by
  unfold State.addHart
  simp only []
  refine memWf_ite ?_ ?_
  · exact memWf_admitHart h
  · split
    · exact memWf_enrol (memWf_admitHart h)
    · exact memWf_admitHart h

theorem memWf_jobStart {k : Hart} {fresh : Bool} (h : s.memWf = true) : (s.jobStart k fresh).memWf = true :=
  memWf_ite h h

theorem memWf_createHart {k : Hart} {i : Image} {o : Obj} {b : Swarm} {limit : Nat} (h : s.memWf = true) :
    (s.createHart k i o b limit).memWf = true :=
  memWf_admitHart (memWf_askHome h)

theorem memWf_spawnRefused {d : BitVec 5} {i : Image} {e : Refusal310} (h : s.memWf = true) : (s.spawnRefused d i e).memWf = true :=
  memWf_retireWhen _ _ _ _ _ h

theorem memWf_spawn {d : BitVec 5} {i : Image} (h : s.memWf = true) : (s.spawn d i).memWf = true := by
  unfold State.spawn
  split
  · exact memWf_spawnRefused h
  · simp only []
    split
    · exact memWf_stallBegun (memWf_createHart h)
    · exact memWf_stallBegun (memWf_addHart h)
    · exact State.memWf_of_eq (memWf_jobStart (memWf_addHart h)) rfl rfl

theorem memWf_dropChild {h' : Hart} (h : s.memWf = true) : (s.dropChild h').memWf = true :=
  h

theorem memWf_childReady {h' : Hart} (h : s.memWf = true) : (s.childReady h').memWf = true :=
  memWf_ite h (memWf_jobStart h)

theorem memWf_childRefused {k : Hart} (h : s.memWf = true) : (s.childRefused k).memWf = true := by
  have hd := memWf_dropChild (h' := k) h
  exact memWf_ite hd hd

theorem memWf_cancelChild {h' : Hart} {off by_ : Nat} (h : s.memWf = true) : (s.cancelChild h' off by_).memWf = true := by
  unfold State.cancelChild
  split
  · exact memWf_ite (memWf_dropChild (memWf_leaveAt h)) ((memWf_updHart _ _ _).trans (memWf_dropChild (memWf_askHome h)))
  · exact memWf_dropChild h

theorem memWf_readyChildren (h : s.memWf = true) : s.readyChildren.memWf = true :=
  memWf_foldl (fun _ _ hz => memWf_ite (memWf_childReady hz) hz) h

theorem memWf_takeChild {hid off : Nat} (h : s.memWf = true) : (s.takeChild hid off).memWf = true := by
  unfold State.takeChild
  split
  · exact memWf_ite (memWf_cancelChild h) h
  · exact h

theorem memWf_endSpawn (h : s.memWf = true) : s.endSpawn.memWf = true := by
  unfold State.endSpawn
  split
  · exact (memWf_setH _ _).trans (memWf_takeChild h)
  · exact h

theorem memWf_stallSpawn {party : Word} (h : s.memWf = true) : (s.stallSpawn party).memWf = true :=
  h

theorem outWf_execSpawn {d a : BitVec 5} (h : s.memWf = true) : OutWf (execSpawn d a s) := by
  unfold execSpawn
  refine outWf_meetsTrapSD ?_ ?_
  · exact h
  · split
    · rename_i e1
      exact outWf_next (memWf_trap _ _ _ (memWf_of_fst e1 (memWf_accessRun _ _ _ _ _ h)))
    · rename_i e2
      exact outWf_next (memWf_stallSpawn (memWf_of_fst e2 (memWf_accessRun _ _ _ _ _ h)))
    · rename_i e3
      have hw := memWf_of_fst e3 (memWf_accessRun _ _ _ _ _ h)
      exact outWf_ite (outWf_next (memWf_trap _ _ _ (memWf_readPieces _ _ _ hw))) (outWf_next (memWf_spawn (memWf_readPieces _ _ _ hw)))

theorem memWf_exitNow (h : s.memWf = true) : s.exitNow.memWf = true :=
  State.memWf_of_eq (memWf_endHart _ _ (memWf_count _ _ _ _ h)) rfl rfl

theorem outWf_execExit (h : s.memWf = true) : OutWf (execExit s) := by
  unfold execExit
  refine outWf_meetsTrap ?_ ?_
  · exact h
  · refine outWf_ite ?_ ?_
    · exact outWf_next (memWf_stallVector h)
    · simp only []
      split
      · exact outWf_next (memWf_exitNow (memWf_leaveAll h))
      · exact outWf_next (memWf_stallBegun (memWf_leaveAll h))

theorem memWf_completeBegun (h : s.memWf = true) : s.completeBegun.memWf = true := by
  unfold State.completeBegun
  split
  · exact memWf_exitNow h
  · exact h
  · exact h

theorem memWf_leaveUnanswered {l : List (Nat × Nat)} (h : s.memWf = true) : (s.leaveUnanswered l).memWf = true :=
  h

/-! Vector operands -/

theorem memWf_vectorTrap {v : VStop} {cut : Nat} (h : s.memWf = true) : (s.vectorTrap v cut).memWf = true :=
  State.memWf_of_eq (memWf_ite (memWf_drainRechecks h) (memWf_endSpawn (memWf_drainRechecks h))) rfl rfl

theorem memWf_vtrap {cause : Nat} {tval : Word} {cut : Nat} (h : s.memWf = true) : (s.vtrap cause tval cut).memWf = true :=
  memWf_vectorTrap h

theorem memWf_villop (h : s.memWf = true) : s.villop.memWf = true :=
  memWf_vtrap h

theorem memWf_vdone {h' : Hart} {fl : Nat} (h : s.memWf = true) : (s.vdone h' fl).memWf = true :=
  h

theorem memWf_vstallAt {party : Word} {cut elem : Nat} (h : s.memWf = true) : (s.vstallAt party cut elem).memWf = true :=
  h

theorem memWf_vstall {party : Word} {cut : Nat} (h : s.memWf = true) : (s.vstall party cut).memWf = true :=
  memWf_vstallAt h

theorem memWf_enqueueRecheck (h : s.memWf = true) : s.enqueueRecheck.memWf = true :=
  memWf_ite h (memWf_ite h (memWf_ite (memWf_count _ _ _ _ h) ((memWf_setCore _ _ _).trans (memWf_count _ _ _ _ h))))

theorem memWf_oweTrap (h : s.memWf = true) : s.oweTrap.memWf = true :=
  State.memWf_of_eq (memWf_enqueueRecheck h) rfl rfl

theorem outWf_laneDone {l : List (Nat × ERes)} {h' : Hart} (h : s.memWf = true) : OutWf (s.laneDone l h') := by
  unfold State.laneDone
  split
  · exact outWf_next (memWf_ite (memWf_vtrap h) (memWf_oweTrap h))
  · exact outWf_next (memWf_vdone (memWf_enqueueRecheck h))

theorem outWf_codeDone {d : Nat} {v tval : Word} (h : s.memWf = true) : OutWf (s.codeDone d v tval) := by
  unfold State.codeDone
  split
  · exact outWf_next (memWf_vdone (memWf_enqueueRecheck h))
  · exact outWf_next (memWf_vtrap h)

theorem outWf_vissue {n : Hart → Need} {f : Out} (h : s.memWf = true) (hf : OutWf f) : OutWf (s.vissue n f) :=
  outWf_ite hf (outWf_next (memWf_villop h))

theorem outWf_toVec {d : Nat} {l : List (Nat × ERes)} (h : s.memWf = true) : OutWf (s.toVec d l) :=
  outWf_laneDone h

theorem outWf_toMask {md : Nat} {l : List (Nat × ERes)} (h : s.memWf = true) : OutWf (s.toMask md l) :=
  outWf_laneDone h

/-! Scheduling -/

theorem memWf_hold {hid : Nat} (h : s.memWf = true) : (s.hold hid).memWf = true := by
  unfold State.hold
  refine memWf_ite ?_ ?_
  · exact h
  · split
    · exact h
    · exact h

theorem optWf_boundary (h : s.memWf = true) : OptWf s.boundary := by
  unfold State.boundary
  split
  · exact optWf_some (memWf_trap _ _ _ h)
  · exact optWf_ite (optWf_some (memWf_takeVectorTrap h)) optWf_none

theorem memWf_wdog (h : s.memWf = true) : s.wdog.memWf = true :=
  memWf_trap _ _ _ h

theorem optWf_asyncTrap (h : s.memWf = true) : OptWf s.asyncTrap :=
  optWf_ite (optWf_boundary h) (optWf_ite (optWf_some (memWf_wdog h)) optWf_none)

theorem memWf_dropIssue (h : s.memWf = true) : s.dropIssue.memWf = true := by
  unfold State.dropIssue
  split
  · split
    · exact (memWf_setH _ _).trans (memWf_withdrawCmd h)
    · exact h
  · exact h

theorem memWf_endBegun (h : s.memWf = true) : s.endBegun.memWf = true := by
  unfold State.endBegun
  split
  · exact h
  · exact memWf_exitNow h
  · exact (memWf_setH _ _).trans (memWf_count _ _ _ _ h)

theorem memWf_preempt (h : s.memWf = true) : s.preempt.memWf = true := by
  have h1 := memWf_endBegun (memWf_dropIssue (memWf_drainRechecks h))
  have hm : OptWf (s.drainRechecks.dropIssue.endBegun.asyncTrap.map (fun t => t.setH Hart.sealAll)) := by
    intro t e
    obtain ⟨u, hu, rfl⟩ := Option.map_eq_some_iff.mp e
    exact optWf_asyncTrap h1 u hu
  have h2 := memWf_ite (c := s.drainRechecks.dropIssue.endBegun.h.live && s.drainRechecks.dropIssue.endBegun.h.wait.isNone &&
    !s.drainRechecks.dropIssue.endBegun.h.halted) (optWf_getD hm h1) h1
  exact memWf_ite h2 h2

theorem memWf_unbind {core slot : Nat} (h : s.memWf = true) : (s.unbind core slot).memWf = true := by
  unfold State.unbind
  simp only []
  refine memWf_ite ?_ ?_
  · exact h
  · split
    · exact memWf_setBind h
    · exact memWf_ite ((memWf_updHart _ _ _).trans (memWf_unbindNotice _ _ _ _ _ (memWf_setBind h)))
        (memWf_preempt (memWf_hold (memWf_unbindNotice _ _ _ _ _ (memWf_setBind h))))

theorem memWf_restoreScalar {hid : Nat} (h : s.memWf = true) : (s.restoreScalar hid).memWf = true := by
  unfold State.restoreScalar
  split
  · exact h
  · exact memWf_ite (memWf_clearFindings h) (memWf_endHart _ _ (memWf_restoreRecords (memWf_clearFindings h)))

theorem memWf_submit {core slot : Nat} {d0 : Word} {byHost : Bool} (h : s.memWf = true) :
    (s.submit core slot d0 byHost).memWf = true := by
  unfold State.submit
  refine memWf_ite ?_ ?_
  · exact h
  · simp only []
    split
    · exact memWf_restoreScalar (memWf_ite (memWf_count _ _ _ _
        ((memWf_updHart _ _ _).trans (memWf_setBind (memWf_ite h (memWf_setBind h)))))
          ((memWf_updHart _ _ _).trans (memWf_setBind (memWf_ite h (memWf_setBind h)))))
    · exact memWf_setBind (memWf_ite h (memWf_setBind h))

theorem memWf_clearBind {core slot : Nat} {d0 : Word} {byHost : Bool} (h : s.memWf = true) :
    (s.clearBind core slot d0 byHost).memWf = true :=
  memWf_ite h (memWf_setBind (memWf_unbind h))

theorem outWf_execBindRecordSubmit {core slot : Nat} {d0 : Word} {byHost : Bool} (h : s.memWf = true) :
    OutWf (execBindRecordSubmit core slot d0 byHost s) :=
  outWf_next (memWf_ifAnswers h (fun _ hz => memWf_ite (memWf_submit hz) (memWf_clearBind hz)))

theorem memWf_leaveNow {h' : Hart} (h : s.memWf = true) : (s.leaveNow h').memWf = true :=
  memWf_ite h (memWf_preempt (memWf_hold h))

theorem outWf_execUnbindingComplete {core slot : Nat} (h : s.memWf = true) : OutWf (execUnbindingComplete core slot s) :=
  outWf_next (memWf_ite (memWf_setBind (memWf_foldl (fun _ _ hz1 => memWf_leaveNow hz1) h))
    (memWf_foldl (fun _ _ hz2 => memWf_leaveNow hz2) h))

theorem outWf_execPowerSample {watts : Nat} (h : s.memWf = true) : OutWf (execPowerSample watts s) := by
  unfold execPowerSample
  refine outWf_ite ?_ ?_
  · split
    · exact outWf_next h
    · refine outWf_ite ?_ ?_
      · exact outWf_next h
      · split
        · exact outWf_next h
        · exact outWf_next h
  · exact outWf_ite (outWf_next h) (outWf_next h)

theorem outWf_execWatchdogExpiry {hid : Nat} (h : s.memWf = true) : OutWf (execWatchdogExpiry hid s) := by
  unfold execWatchdogExpiry
  split
  · exact outWf_next h
  · exact outWf_ite (outWf_next h) (outWf_next (optWf_getD (optWf_asyncTrap (memWf_dropIssue (memWf_hold h))) (memWf_hold h)))

/-! Tenants -/

theorem memWf_tinvWrite {tag : Nat} {v : Word} (h : s.memWf = true) : (s.tinvWrite tag v).memWf = true :=
  memWf_ite h (memWf_ite h h)

theorem outWf_execTinvGo {tag : Nat} {v : Word} (h : s.memWf = true) : OutWf (execTinvGo tag v s) :=
  outWf_next (memWf_ifAnswers h (fun _ hz => memWf_tinvWrite hz))

theorem memWf_roreqWrite {tag : Nat} {v : Word} (h : s.memWf = true) : (s.roreqWrite tag v).memWf = true :=
  memWf_ite h h

theorem outWf_execRoreqGo {tag : Nat} {v : Word} (h : s.memWf = true) : OutWf (execRoreqGo tag v s) :=
  outWf_next (memWf_ifAnswers h (fun _ hz => memWf_roreqWrite hz))

theorem outWf_execRoreqComplete {tag : Nat} (h : s.memWf = true) : OutWf (execRoreqComplete tag s) := by
  unfold execRoreqComplete
  simp only []
  refine outWf_ite ?_ ?_
  · exact outWf_next h
  · split
    · exact outWf_next h
    · exact outWf_next h

theorem memWf_vfWrite {tag off : Nat} {v : Word} (h : s.memWf = true) : (s.vfWrite tag off v).memWf = true :=
  memWf_ite h (memWf_ite (memWf_tinvWrite h) (memWf_ite h (memWf_ite (memWf_ite h h) (memWf_ite h (memWf_ite (memWf_roreqWrite h) h)))))

theorem memWf_pmapWrite {core idx : Nat} {v : Word} (h : s.memWf = true) : (s.pmapWrite core idx v).memWf = true :=
  memWf_ite (memWf_saveLanes h) h

theorem memWf_tenbootWrite {tag : Nat} {v : Word} (h : s.memWf = true) : (s.tenbootWrite tag v).memWf = true :=
  memWf_ite h (memWf_ite h h)

theorem outWf_execTenbootGo {tag : Nat} {v : Word} (h : s.memWf = true) : OutWf (execTenbootGo tag v s) :=
  outWf_next (memWf_ifAnswers h (fun _ hz => memWf_tenbootWrite hz))

theorem memWf_bootDone {tag res : Nat} (h : s.memWf = true) : (s.bootDone tag res).memWf = true :=
  h

theorem memWf_bootTimeout {tag : Nat} {c : Nat × Nat} (h : s.memWf = true) : (s.bootTimeout tag c).memWf = true := by
  unfold State.bootTimeout
  split
  · exact memWf_ite (memWf_bootDone ((memWf_setTenant _ _ _).trans (memWf_cancelChild h))) h
  · exact memWf_bootDone h

theorem memWf_boot {tag : Nat} {i : Image} (h : s.memWf = true) : (s.boot tag i).memWf = true := by
  unfold State.boot
  refine memWf_ite ?_ ?_
  · exact memWf_bootDone h
  · split
    · exact memWf_bootDone h
    · exact memWf_bootDone h
    · exact memWf_bootDone h
    · simp only []
      split
      · exact (memWf_setTenant _ _ _).trans (memWf_createHart h)
      · exact (memWf_setTenant _ _ _).trans (memWf_addHart h)
      · exact memWf_bootDone (memWf_addHart h)

theorem outWf_execTenbootComplete {tag : Nat} (h : s.memWf = true) : OutWf (execTenbootComplete tag s) := by
  unfold execTenbootComplete
  refine outWf_ite (outWf_next h) (outWf_ite (outWf_next ?_) ?_)
  · cases (s.tenant tag).bootChild with
    | none => exact h
    | some c => exact memWf_bootTimeout h
  · split
    · rename_i e
      split
      rename_i e1
      have h2 := memWf_of_fst e1 (memWf_readPieces _ _ _ (memWf_of_fst e (memWf_accessRun _ _ _ _ _ h)))
      exact outWf_ite (outWf_next (memWf_bootDone h2)) (outWf_next (memWf_boot h2))
    · rename_i e
      exact outWf_next (memWf_bootDone (memWf_of_fst e (memWf_accessRun _ _ _ _ _ h)))
    · rename_i e
      exact outWf_next (memWf_of_fst e (memWf_accessRun _ _ _ _ _ h))

theorem memWf_setQuotas {tag v : Nat} (h : s.memWf = true) : (s.setQuotas tag v).memWf = true :=
  h

theorem memWf_freeze {tag : Nat} (h : s.memWf = true) : (s.freeze tag).memWf = true := by
  unfold State.freeze
  simp only []
  refine (memWf_setTenant _ _ _).trans ?_
  refine memWf_foldl (fun z1 x1 hz1 => ?_) ?_
  · exact memWf_endLease hz1
  · refine memWf_foldl (fun z2 x2 hz2 => ?_) ?_
    · exact memWf_saveLanes hz2
    · refine memWf_foldl (fun z3 x3 hz3 => ?_) ?_
      · split
        · exact memWf_unbind hz3
        · exact hz3
      · exact h

theorem memWf_releaseRegion {e : Nat × Option Region} (h : s.memWf = true) : (s.releaseRegion e).memWf = true := by
  unfold State.releaseRegion
  split
  · exact memWf_freeRegionAt h
  · exact h

theorem memWf_zeroTile {core n : Nat} (h : s.memWf = true) : (s.zeroTile core n).memWf = true :=
  memWf_filtered h rfl rfl

theorem memWf_releaseCore {tag core : Nat} (h : s.memWf = true) : (s.releaseCore tag core).memWf = true :=
  (memWf_setCore _ _ _).trans (memWf_foldl (fun _ _ hz => memWf_zeroTile hz) h)

theorem memWf_releasePmap {tag core : Nat} (h : s.memWf = true) : (s.releasePmap tag core).memWf = true :=
  memWf_saveLanes h

theorem memWf_withTlbAlog {l : List TlbEntry} {a : List Arrival} (h : s.memWf = true) :
    ({ s with tlb := l, alog := a } : State).memWf = true := h

theorem memWf_release {tag : Nat} (h : s.memWf = true) : (s.release tag).memWf = true := by
  unfold State.release
  generalize List.range Config.cores = cores
  simp only []
  refine memWf_withTlbAlog ((memWf_setTenant _ _ _).trans (memWf_foldl (fun _ _ hz => memWf_releasePmap (memWf_releaseCore hz)) ?_))
  refine memWf_foldl (fun _ _ hz => memWf_endObject hz) (memWf_foldl (fun _ _ hz => memWf_releaseRegion hz) ?_)
  exact memWf_foldl (fun _ _ hz => memWf_endHart _ _ hz) h

theorem memWf_tencfgWrite {tag : Nat} {v : Word} (h : s.memWf = true) : (s.tencfgWrite tag v).memWf = true := by
  unfold State.tencfgWrite
  simp only []
  refine memWf_ite ?_ ?_
  · exact h
  · refine memWf_ite ?_ ?_
    · exact memWf_ite (memWf_setQuotas h) h
    · split
      · exact memWf_ite ((memWf_setTenant _ _ _).trans (memWf_setQuotas h)) h
      · exact memWf_freeze (memWf_setQuotas h)
      · exact (memWf_setTenant _ _ _).trans (memWf_setQuotas h)
      · exact memWf_release (memWf_setQuotas h)
      · exact memWf_ite (memWf_setQuotas h) h

theorem outWf_execTenantActivate {tag : Nat} {v : Word} (h : s.memWf = true) : OutWf (execTenantActivate tag v s) :=
  outWf_next (memWf_ifAnswers h (fun _ hz => memWf_tencfgWrite hz))

theorem outWf_execTenantFreeze {tag : Nat} {v : Word} (h : s.memWf = true) : OutWf (execTenantFreeze tag v s) :=
  outWf_next (memWf_ifAnswers h (fun _ hz => memWf_tencfgWrite hz))

theorem outWf_execTenantRelease {tag : Nat} {v : Word} (h : s.memWf = true) : OutWf (execTenantRelease tag v s) :=
  outWf_next (memWf_ifAnswers h (fun _ hz => memWf_tencfgWrite hz))

/-! Configuration registers -/

theorem outWf_execCfgrd {d : BitVec 5} {i : BitVec 12} (h : s.memWf = true) : OutWf (execCfgrd d i s) :=
  outWf_ite (outWf_next (memWf_trap _ _ _ h)) (outWf_ite (outWf_next (memWf_trap _ _ _ h))
    (outWf_ite (outWf_withLanes h (fun _ hz => outWf_next hz)) (outWf_next h)))

theorem cfgWf_cfgResHart {ok : Bool} {f : Hart → Hart} (h : s.memWf = true) : CfgWf (CfgRes.hart s ok f) :=
  cfgWf_ite (cfgWf_done h) cfgWf_trap

theorem cfgWf_readOnly {v rsv : Nat} : CfgWf (readOnly v rsv) :=
  cfgWf_ite cfgWf_ignored cfgWf_trap

theorem cfgWf_windowWrite {off : Nat} {v : Word} (h : s.memWf = true) : CfgWf (s.windowWrite off v) :=
  cfgWf_ite cfgWf_trap (cfgWf_ite (cfgWf_ite (cfgWf_done (memWf_vfWrite h)) cfgWf_trap) cfgWf_ignored)

theorem cfgWf_cfgSet {i : Nat} {v : Word} (h : s.memWf = true) : CfgWf (s.cfgSet i v) := by
  unfold State.cfgSet
  simp only []
  split
  · exact cfgWf_readOnly
  · exact cfgWf_readOnly
  · exact cfgWf_readOnly
  · exact cfgWf_cfgResHart h
  · exact cfgWf_cfgResHart h
  · exact cfgWf_cfgResHart h
  · exact cfgWf_cfgResHart h
  · exact cfgWf_cfgResHart h
  · exact cfgWf_cfgResHart h
  · exact cfgWf_cfgResHart h
  · exact cfgWf_cfgResHart h
  · exact cfgWf_cfgResHart h
  · exact cfgWf_cfgResHart h
  · exact cfgWf_cfgResHart h
  · exact cfgWf_cfgResHart h
  · exact cfgWf_ite (cfgWf_done h) cfgWf_trap
  · exact cfgWf_ite (cfgWf_done h) cfgWf_trap
  · exact cfgWf_ite (cfgWf_done h) cfgWf_trap
  · exact cfgWf_ite (cfgWf_done h) cfgWf_trap
  · exact cfgWf_ite (cfgWf_done h) cfgWf_trap
  · exact cfgWf_cfgResHart h
  · exact cfgWf_ite (cfgWf_done h) (cfgWf_ite (cfgWf_windowWrite h) cfgWf_trap)

theorem outWf_cfgEnd {i : Nat} {x : CfgRes} (h : s.memWf = true) (hx : CfgWf x) : OutWf (s.cfgEnd i x) := by
  unfold State.cfgEnd
  split
  · exact outWf_next ((memWf_retire0 _).trans ((hx _ rfl)))
  · exact outWf_next h
  · exact outWf_next (memWf_trap _ _ _ h)

theorem outWf_cfgRng {i : Nat} {v : Word} (h : s.memWf = true) : OutWf (s.cfgRng i v) :=
  outWf_meetsTrap h (outWf_ite (outWf_next (memWf_stallVector h))
    (outWf_ite (outWf_cfgEnd h (cfgWf_cfgSet h)) (outWf_withLanes h (fun _ hz => outWf_cfgEnd hz (cfgWf_cfgSet hz)))))

theorem outWf_execCfgwr {a : BitVec 5} {i : BitVec 12} (h : s.memWf = true) : OutWf (execCfgwr a i s) :=
  outWf_ite (outWf_next (memWf_trap _ _ _ h)) (outWf_ite (outWf_next (memWf_trap _ _ _ h))
    (outWf_ite (outWf_cfgRng h) (outWf_ite (outWf_withLanes h (fun _ hz => outWf_cfgEnd hz (cfgWf_cfgSet hz)))
      (outWf_cfgEnd h (cfgWf_cfgSet h)))))

/-! Vector integer words -/

theorem outWf_ewise {n : Hart → Need} {f : Nat → Nat → Nat → Nat × Nat} {d m : Nat} {a b : Hart → VOpnd} (h : s.memWf = true) :
    OutWf (ewise n f d m a b s) :=
  outWf_vissue h (outWf_toVec h)

theorem outWf_compare {n : Hart → Need} {f : Nat → Nat → Nat → Bool} {md m : Nat} {a b : Hart → VOpnd} (h : s.memWf = true) :
    OutWf (compare n f md m a b s) :=
  outWf_vissue h (outWf_toMask h)

theorem outWf_execVaddVv {p : BitVec 1} {d a b : BitVec 6} {m : BitVec 3} (h : s.memWf = true) : OutWf (execVaddVv p d a b m s) :=
  outWf_ewise h

theorem outWf_execVaddVi {p : BitVec 1} {d a i : BitVec 6} {m : BitVec 3} (h : s.memWf = true) : OutWf (execVaddVi p d a i m s) :=
  outWf_ewise h

theorem outWf_execVaddVx {p : BitVec 1} {d a x : BitVec 6} {m : BitVec 3} (h : s.memWf = true) : OutWf (execVaddVx p d a x m s) :=
  outWf_ewise h

theorem outWf_execVsubVv {p : BitVec 1} {d a b : BitVec 6} {m : BitVec 3} (h : s.memWf = true) : OutWf (execVsubVv p d a b m s) :=
  outWf_ewise h

theorem outWf_execVsubVx {p : BitVec 1} {d a x : BitVec 6} {m : BitVec 3} (h : s.memWf = true) : OutWf (execVsubVx p d a x m s) :=
  outWf_ewise h

theorem outWf_execVrsubVx {p : BitVec 1} {d a x : BitVec 6} {m : BitVec 3} (h : s.memWf = true) : OutWf (execVrsubVx p d a x m s) :=
  outWf_ewise h

theorem outWf_execVrsubVi {p : BitVec 1} {d a i : BitVec 6} {m : BitVec 3} (h : s.memWf = true) : OutWf (execVrsubVi p d a i m s) :=
  outWf_ewise h

theorem outWf_execVmulVv {p : BitVec 1} {d a b : BitVec 6} {m : BitVec 3} (h : s.memWf = true) : OutWf (execVmulVv p d a b m s) :=
  outWf_ewise h

theorem outWf_execVmulVx {p : BitVec 1} {d a x : BitVec 6} {m : BitVec 3} (h : s.memWf = true) : OutWf (execVmulVx p d a x m s) :=
  outWf_ewise h

theorem outWf_execVmulh {p : BitVec 1} {d a b : BitVec 6} {m : BitVec 3} (h : s.memWf = true) : OutWf (execVmulh p d a b m s) :=
  outWf_ewise h

theorem outWf_execVmulhuVv {p : BitVec 1} {d a b : BitVec 6} {m : BitVec 3} (h : s.memWf = true) : OutWf (execVmulhuVv p d a b m s) :=
  outWf_ewise h

theorem outWf_execVmulhuVx {p : BitVec 1} {d a x : BitVec 6} {m : BitVec 3} (h : s.memWf = true) : OutWf (execVmulhuVx p d a x m s) :=
  outWf_ewise h

theorem outWf_execVmulhsu {p : BitVec 1} {d a b : BitVec 6} {m : BitVec 3} (h : s.memWf = true) : OutWf (execVmulhsu p d a b m s) :=
  outWf_ewise h

theorem outWf_execVsadd {p : BitVec 1} {d a b : BitVec 6} {m : BitVec 3} (h : s.memWf = true) : OutWf (execVsadd p d a b m s) :=
  outWf_ewise h

theorem outWf_execVsaddu {p : BitVec 1} {d a b : BitVec 6} {m : BitVec 3} (h : s.memWf = true) : OutWf (execVsaddu p d a b m s) :=
  outWf_ewise h

theorem outWf_execVssub {p : BitVec 1} {d a b : BitVec 6} {m : BitVec 3} (h : s.memWf = true) : OutWf (execVssub p d a b m s) :=
  outWf_ewise h

theorem outWf_execVandVv {p : BitVec 1} {d a b : BitVec 6} {m : BitVec 3} (h : s.memWf = true) : OutWf (execVandVv p d a b m s) :=
  outWf_ewise h

theorem outWf_execVandVx {p : BitVec 1} {d a x : BitVec 6} {m : BitVec 3} (h : s.memWf = true) : OutWf (execVandVx p d a x m s) :=
  outWf_ewise h

theorem outWf_execVorVv {p : BitVec 1} {d a b : BitVec 6} {m : BitVec 3} (h : s.memWf = true) : OutWf (execVorVv p d a b m s) :=
  outWf_ewise h

theorem outWf_execVorVx {p : BitVec 1} {d a x : BitVec 6} {m : BitVec 3} (h : s.memWf = true) : OutWf (execVorVx p d a x m s) :=
  outWf_ewise h

theorem outWf_execVxorVv {p : BitVec 1} {d a b : BitVec 6} {m : BitVec 3} (h : s.memWf = true) : OutWf (execVxorVv p d a b m s) :=
  outWf_ewise h

theorem outWf_execVxorVi {p : BitVec 1} {d a i : BitVec 6} {m : BitVec 3} (h : s.memWf = true) : OutWf (execVxorVi p d a i m s) :=
  outWf_ewise h

theorem outWf_execVxorVx {p : BitVec 1} {d a x : BitVec 6} {m : BitVec 3} (h : s.memWf = true) : OutWf (execVxorVx p d a x m s) :=
  outWf_ewise h

theorem outWf_execVandn {p : BitVec 1} {d a b : BitVec 6} {m : BitVec 3} (h : s.memWf = true) : OutWf (execVandn p d a b m s) :=
  outWf_ewise h

theorem outWf_merge {n : Hart → Need} {d m : Nat} {a b : Hart → VOpnd} (h : s.memWf = true) : OutWf (merge n d m a b s) :=
  outWf_vissue h (outWf_toVec h)

theorem outWf_execVmergeVv {p : BitVec 1} {d a b : BitVec 6} {m : BitVec 3} (h : s.memWf = true) : OutWf (execVmergeVv p d a b m s) :=
  outWf_merge h

theorem outWf_execVmergeVx {p : BitVec 1} {d a x : BitVec 6} {m : BitVec 3} (h : s.memWf = true) : OutWf (execVmergeVx p d a x m s) :=
  outWf_merge h

theorem outWf_execVmergeVi {p : BitVec 1} {d a i : BitVec 6} {m : BitVec 3} (h : s.memWf = true) : OutWf (execVmergeVi p d a i m s) :=
  outWf_merge h

theorem outWf_execVmin {p : BitVec 1} {d a b : BitVec 6} {m : BitVec 3} (h : s.memWf = true) : OutWf (execVmin p d a b m s) :=
  outWf_ewise h

theorem outWf_execVminu {p : BitVec 1} {d a b : BitVec 6} {m : BitVec 3} (h : s.memWf = true) : OutWf (execVminu p d a b m s) :=
  outWf_ewise h

theorem outWf_execVmax {p : BitVec 1} {d a b : BitVec 6} {m : BitVec 3} (h : s.memWf = true) : OutWf (execVmax p d a b m s) :=
  outWf_ewise h

theorem outWf_execVmaxu {p : BitVec 1} {d a b : BitVec 6} {m : BitVec 3} (h : s.memWf = true) : OutWf (execVmaxu p d a b m s) :=
  outWf_ewise h

theorem outWf_execVssubu {p : BitVec 1} {d a b : BitVec 6} {m : BitVec 3} (h : s.memWf = true) : OutWf (execVssubu p d a b m s) :=
  outWf_ewise h

theorem outWf_execVsllVv {p : BitVec 1} {d a b : BitVec 6} {m : BitVec 3} (h : s.memWf = true) : OutWf (execVsllVv p d a b m s) :=
  outWf_ewise h

theorem outWf_execVsllVi {p : BitVec 1} {d a : BitVec 6} {i : BitVec 5} {m : BitVec 3} (h : s.memWf = true) :
    OutWf (execVsllVi p d a i m s) :=
  outWf_ewise h

theorem outWf_execVsrlVv {p : BitVec 1} {d a b : BitVec 6} {m : BitVec 3} (h : s.memWf = true) : OutWf (execVsrlVv p d a b m s) :=
  outWf_ewise h

theorem outWf_execVsrlVi {p : BitVec 1} {d a : BitVec 6} {i : BitVec 5} {m : BitVec 3} (h : s.memWf = true) :
    OutWf (execVsrlVi p d a i m s) :=
  outWf_ewise h

theorem outWf_execVsraVv {p : BitVec 1} {d a b : BitVec 6} {m : BitVec 3} (h : s.memWf = true) : OutWf (execVsraVv p d a b m s) :=
  outWf_ewise h

theorem outWf_execVsraVi {p : BitVec 1} {d a : BitVec 6} {i : BitVec 5} {m : BitVec 3} (h : s.memWf = true) :
    OutWf (execVsraVi p d a i m s) :=
  outWf_ewise h

theorem outWf_execVmseqVv {p : BitVec 1} {d : BitVec 3} {a b : BitVec 6} {m : BitVec 3} (h : s.memWf = true) :
    OutWf (execVmseqVv p d a b m s) :=
  outWf_compare h

theorem outWf_execVmseqVx {p : BitVec 1} {d : BitVec 3} {a x : BitVec 6} {m : BitVec 3} (h : s.memWf = true) :
    OutWf (execVmseqVx p d a x m s) :=
  outWf_compare h

theorem outWf_execVmsne {p : BitVec 1} {d : BitVec 3} {a b : BitVec 6} {m : BitVec 3} (h : s.memWf = true) :
    OutWf (execVmsne p d a b m s) :=
  outWf_compare h

theorem outWf_execVmslt {p : BitVec 1} {d : BitVec 3} {a b : BitVec 6} {m : BitVec 3} (h : s.memWf = true) :
    OutWf (execVmslt p d a b m s) :=
  outWf_compare h

theorem outWf_execVmsltuVv {p : BitVec 1} {d : BitVec 3} {a b : BitVec 6} {m : BitVec 3} (h : s.memWf = true) :
    OutWf (execVmsltuVv p d a b m s) :=
  outWf_compare h

theorem outWf_execVmsle {p : BitVec 1} {d : BitVec 3} {a b : BitVec 6} {m : BitVec 3} (h : s.memWf = true) :
    OutWf (execVmsle p d a b m s) :=
  outWf_compare h

theorem outWf_execVmsleu {p : BitVec 1} {d : BitVec 3} {a b : BitVec 6} {m : BitVec 3} (h : s.memWf = true) :
    OutWf (execVmsleu p d a b m s) :=
  outWf_compare h

theorem outWf_execVmsgt {p : BitVec 1} {d : BitVec 3} {a x : BitVec 6} {m : BitVec 3} (h : s.memWf = true) :
    OutWf (execVmsgt p d a x m s) :=
  outWf_compare h

theorem outWf_execVmsgtu {p : BitVec 1} {d : BitVec 3} {a x : BitVec 6} {m : BitVec 3} (h : s.memWf = true) :
    OutWf (execVmsgtu p d a x m s) :=
  outWf_compare h

theorem outWf_execVmsltuVx {p : BitVec 1} {d : BitVec 3} {a x : BitVec 6} {m : BitVec 3} (h : s.memWf = true) :
    OutWf (execVmsltuVx p d a x m s) :=
  outWf_compare h

theorem outWf_bitString {f : Nat → Nat → Nat → Nat → Nat} {funnel : Bool} {d a k : Nat} (h : s.memWf = true) :
    OutWf (bitString f funnel d a k s) :=
  outWf_toVec h

theorem outWf_execVbslVx {p : BitVec 1} {d a x : BitVec 6} (h : s.memWf = true) : OutWf (execVbslVx p d a x s) :=
  outWf_vissue h (outWf_bitString h)

theorem outWf_execVbslVi {p : BitVec 1} {d a : BitVec 6} {i : BitVec 5} (h : s.memWf = true) : OutWf (execVbslVi p d a i s) :=
  outWf_vissue h (outWf_bitString h)

theorem outWf_execVbsrVx {p : BitVec 1} {d a x : BitVec 6} (h : s.memWf = true) : OutWf (execVbsrVx p d a x s) :=
  outWf_vissue h (outWf_bitString h)

theorem outWf_execVbsrVi {p : BitVec 1} {d a : BitVec 6} {i : BitVec 5} (h : s.memWf = true) : OutWf (execVbsrVi p d a i s) :=
  outWf_vissue h (outWf_bitString h)

theorem outWf_execVfsl {p : BitVec 1} {d a x : BitVec 6} (h : s.memWf = true) : OutWf (execVfsl p d a x s) :=
  outWf_vissue h (outWf_bitString h)

theorem outWf_execVfsr {p : BitVec 1} {d a x : BitVec 6} (h : s.memWf = true) : OutWf (execVfsr p d a x s) :=
  outWf_vissue h (outWf_bitString h)

theorem outWf_execVpopc {p : BitVec 1} {d a : BitVec 6} {m : BitVec 3} (h : s.memWf = true) : OutWf (execVpopc p d a m s) :=
  outWf_ewise h

theorem outWf_execVclz {p : BitVec 1} {d a : BitVec 6} {m : BitVec 3} (h : s.memWf = true) : OutWf (execVclz p d a m s) :=
  outWf_ewise h

theorem outWf_execVctz {p : BitVec 1} {d a : BitVec 6} {m : BitVec 3} (h : s.memWf = true) : OutWf (execVctz p d a m s) :=
  outWf_ewise h

theorem outWf_execVbrev {p : BitVec 1} {d a : BitVec 6} {m : BitVec 3} (h : s.memWf = true) : OutWf (execVbrev p d a m s) :=
  outWf_ewise h

theorem outWf_vxch {d a m k : Nat} (h : s.memWf = true) : OutWf (vxch d a m k s) :=
  outWf_toVec h

theorem outWf_vslideup {d a m k : Nat} (h : s.memWf = true) : OutWf (vslideup d a m k s) :=
  outWf_toVec h

theorem outWf_vslidedn {d a m k : Nat} (h : s.memWf = true) : OutWf (vslidedn d a m k s) :=
  outWf_toVec h

theorem outWf_execVxchVx {p : BitVec 1} {d a x : BitVec 6} {m : BitVec 3} (h : s.memWf = true) : OutWf (execVxchVx p d a x m s) :=
  outWf_vissue h (outWf_vxch h)

theorem outWf_execVxchVi {p : BitVec 1} {d a : BitVec 6} {i : BitVec 4} {m : BitVec 3} (h : s.memWf = true) :
    OutWf (execVxchVi p d a i m s) :=
  outWf_vissue h (outWf_vxch h)

theorem outWf_execVslideupVx {p : BitVec 1} {d a x : BitVec 6} {m : BitVec 3} (h : s.memWf = true) : OutWf (execVslideupVx p d a x m s) :=
  outWf_vissue h (outWf_vslideup h)

theorem outWf_execVslideupVi {p : BitVec 1} {d a : BitVec 6} {i : BitVec 5} {m : BitVec 3} (h : s.memWf = true) :
    OutWf (execVslideupVi p d a i m s) :=
  outWf_vissue h (outWf_vslideup h)

theorem outWf_execVslidednVx {p : BitVec 1} {d a x : BitVec 6} {m : BitVec 3} (h : s.memWf = true) : OutWf (execVslidednVx p d a x m s) :=
  outWf_vissue h (outWf_vslidedn h)

theorem outWf_execVslidednVi {p : BitVec 1} {d a : BitVec 6} {i : BitVec 5} {m : BitVec 3} (h : s.memWf = true) :
    OutWf (execVslidednVi p d a i m s) :=
  outWf_vissue h (outWf_vslidedn h)

theorem outWf_execVslide1up {p : BitVec 1} {d a x : BitVec 6} {m : BitVec 3} (h : s.memWf = true) : OutWf (execVslide1up p d a x m s) :=
  outWf_vissue h (outWf_toVec h)

theorem outWf_execVslide1dn {p : BitVec 1} {d a x : BitVec 6} {m : BitVec 3} (h : s.memWf = true) : OutWf (execVslide1dn p d a x m s) :=
  outWf_vissue h (outWf_toVec h)

theorem outWf_execVpullVv {p : BitVec 1} {d a b : BitVec 6} {m : BitVec 3} (h : s.memWf = true) : OutWf (execVpullVv p d a b m s) :=
  outWf_vissue h (outWf_toVec h)

theorem outWf_execVpullVx {p : BitVec 1} {d a x : BitVec 6} {m : BitVec 3} (h : s.memWf = true) : OutWf (execVpullVx p d a x m s) :=
  outWf_vissue h (outWf_toVec h)

theorem outWf_execVpush {p : BitVec 1} {d a b : BitVec 6} {m : BitVec 3} (h : s.memWf = true) : OutWf (execVpush p d a b m s) :=
  outWf_vissue h (outWf_laneDone h)

theorem outWf_execVcompress {p : BitVec 1} {d a : BitVec 6} {m : BitVec 3} (h : s.memWf = true) : OutWf (execVcompress p d a m s) :=
  outWf_vissue h (outWf_toVec h)

theorem outWf_execVextr {p : BitVec 1} {d : BitVec 4} {a x : BitVec 6} (h : s.memWf = true) : OutWf (execVextr p d a x s) :=
  outWf_vissue h (outWf_ite (outWf_next (memWf_vtrap (memWf_drainRechecks h))) (outWf_codeDone h))

theorem outWf_reduce {f : Nat → Nat → Nat → Nat} {d a b m : Nat} (h : s.memWf = true) : OutWf (reduce f d a b m s) :=
  outWf_vissue h (outWf_ite (outWf_laneDone h) (outWf_toVec h))

theorem outWf_execVredsums {p : BitVec 1} {d a b : BitVec 6} {m : BitVec 3} (h : s.memWf = true) : OutWf (execVredsums p d a b m s) :=
  outWf_vissue h (outWf_ite (outWf_laneDone h) (outWf_toVec h))

theorem outWf_scan {f : Nat → Nat → Nat → Nat} {incl : Bool} {d a b m : Nat} (h : s.memWf = true) : OutWf (scan f incl d a b m s) :=
  outWf_vissue h (outWf_toVec h)

theorem outWf_execVredsum {p : BitVec 1} {d a b : BitVec 6} {m : BitVec 3} (h : s.memWf = true) : OutWf (execVredsum p d a b m s) :=
  outWf_reduce h

theorem outWf_execVredmax {p : BitVec 1} {d a b : BitVec 6} {m : BitVec 3} (h : s.memWf = true) : OutWf (execVredmax p d a b m s) :=
  outWf_reduce h

theorem outWf_execVredmaxu {p : BitVec 1} {d a b : BitVec 6} {m : BitVec 3} (h : s.memWf = true) : OutWf (execVredmaxu p d a b m s) :=
  outWf_reduce h

theorem outWf_execVredmin {p : BitVec 1} {d a b : BitVec 6} {m : BitVec 3} (h : s.memWf = true) : OutWf (execVredmin p d a b m s) :=
  outWf_reduce h

theorem outWf_execVredminu {p : BitVec 1} {d a b : BitVec 6} {m : BitVec 3} (h : s.memWf = true) : OutWf (execVredminu p d a b m s) :=
  outWf_reduce h

theorem outWf_execVredand {p : BitVec 1} {d a b : BitVec 6} {m : BitVec 3} (h : s.memWf = true) : OutWf (execVredand p d a b m s) :=
  outWf_reduce h

theorem outWf_execVredor {p : BitVec 1} {d a b : BitVec 6} {m : BitVec 3} (h : s.memWf = true) : OutWf (execVredor p d a b m s) :=
  outWf_reduce h

theorem outWf_execVredxor {p : BitVec 1} {d a b : BitVec 6} {m : BitVec 3} (h : s.memWf = true) : OutWf (execVredxor p d a b m s) :=
  outWf_reduce h

theorem outWf_execVscansum {p : BitVec 1} {d a b : BitVec 6} {m : BitVec 3} (h : s.memWf = true) : OutWf (execVscansum p d a b m s) :=
  outWf_scan h

theorem outWf_execVscanmax {p : BitVec 1} {d a b : BitVec 6} {m : BitVec 3} (h : s.memWf = true) : OutWf (execVscanmax p d a b m s) :=
  outWf_scan h

theorem outWf_execVscanmin {p : BitVec 1} {d a b : BitVec 6} {m : BitVec 3} (h : s.memWf = true) : OutWf (execVscanmin p d a b m s) :=
  outWf_scan h

theorem outWf_execVxscansum {p : BitVec 1} {d a b : BitVec 6} {m : BitVec 3} (h : s.memWf = true) : OutWf (execVxscansum p d a b m s) :=
  outWf_scan h

theorem outWf_execVscanmaxu {p : BitVec 1} {d a b : BitVec 6} {m : BitVec 3} (h : s.memWf = true) : OutWf (execVscanmaxu p d a b m s) :=
  outWf_scan h

theorem outWf_execVscanminu {p : BitVec 1} {d a b : BitVec 6} {m : BitVec 3} (h : s.memWf = true) : OutWf (execVscanminu p d a b m s) :=
  outWf_scan h

theorem outWf_maskOp {f : Bool → Bool → Bool} {d a b m : Nat} (h : s.memWf = true) : OutWf (maskOp f d a b m s) :=
  outWf_vissue h (outWf_toMask h)

theorem outWf_execMkand {p : BitVec 1} {d a b m : BitVec 3} (h : s.memWf = true) : OutWf (execMkand p d a b m s) :=
  outWf_maskOp h

theorem outWf_execMkor {p : BitVec 1} {d a b m : BitVec 3} (h : s.memWf = true) : OutWf (execMkor p d a b m s) :=
  outWf_maskOp h

theorem outWf_execMkxor {p : BitVec 1} {d a b m : BitVec 3} (h : s.memWf = true) : OutWf (execMkxor p d a b m s) :=
  outWf_maskOp h

theorem outWf_execMkandn {p : BitVec 1} {d a b m : BitVec 3} (h : s.memWf = true) : OutWf (execMkandn p d a b m s) :=
  outWf_maskOp h

theorem outWf_execMknot {p : BitVec 1} {d a m : BitVec 3} (h : s.memWf = true) : OutWf (execMknot p d a m s) :=
  outWf_maskOp h

theorem outWf_execMkfill {p : BitVec 1} {d m : BitVec 3} (h : s.memWf = true) : OutWf (execMkfill p d m s) :=
  outWf_maskOp h

theorem outWf_maskScan {f : Nat → Bool → Bool} {d a m : Nat} (h : s.memWf = true) : OutWf (maskScan f d a m s) :=
  outWf_vissue h (outWf_toMask h)

theorem outWf_execMkspreadI {p : BitVec 1} {d a m : BitVec 3} (h : s.memWf = true) : OutWf (execMkspreadI p d a m s) :=
  outWf_maskScan h

theorem outWf_execMkspreadX {p : BitVec 1} {d a m : BitVec 3} (h : s.memWf = true) : OutWf (execMkspreadX p d a m s) :=
  outWf_maskScan h

theorem outWf_execMkparity {p : BitVec 1} {d a m : BitVec 3} (h : s.memWf = true) : OutWf (execMkparity p d a m s) :=
  outWf_maskScan h

theorem outWf_execMkfirst {p : BitVec 1} {d a m : BitVec 3} (h : s.memWf = true) : OutWf (execMkfirst p d a m s) :=
  outWf_maskScan h

theorem outWf_execMkcount {p : BitVec 1} {d : BitVec 4} {a m : BitVec 3} (h : s.memWf = true) : OutWf (execMkcount p d a m s) :=
  outWf_vissue h (outWf_codeDone h)

theorem outWf_execMkfind {p : BitVec 1} {d : BitVec 4} {a m : BitVec 3} (h : s.memWf = true) : OutWf (execMkfind p d a m s) :=
  outWf_vissue h (outWf_codeDone h)

theorem outWf_execMkfindL {p : BitVec 1} {d : BitVec 4} {a m : BitVec 3} (h : s.memWf = true) : OutWf (execMkfindL p d a m s) :=
  outWf_vissue h (outWf_codeDone h)

theorem outWf_execVrank {p : BitVec 1} {d : BitVec 6} {a m : BitVec 3} (h : s.memWf = true) : OutWf (execVrank p d a m s) :=
  outWf_vissue h (outWf_toVec h)

/-! The host -/

theorem memWf_logArrival {tag : Nat} {fr : Frame} (h : s.memWf = true) : (s.logArrival tag fr).memWf = true :=
  memWf_ite h (memWf_ite h h)

theorem memWf_holdUp {fr : Frame} (h : s.memWf = true) : (s.holdUp fr).memWf = true :=
  h

theorem memWf_outsideWrite {host : Bool} {tag : Nat} {p : Word} {bs : List Byte} (h : s.memWf = true) :
    (s.outsideWrite host tag p bs).memWf = true := by
  unfold State.outsideWrite
  simp only []
  refine memWf_ite ?_ ?_
  · exact memWf_holdUp h
  · split
    · rename_i e1
      have hw := memWf_of_fst e1 (memWf_access _ _ _ _ _ _ h)
      exact memWf_ite (memWf_writeAt _ _ _ _ _ hw) hw
    · rename_i e2
      exact memWf_holdUp (memWf_of_fst e2 (memWf_access _ _ _ _ _ _ h))
    · rename_i e3
      exact memWf_of_fst e3 (memWf_access _ _ _ _ _ _ h)

theorem memWf_outsidePut {host : Bool} {tag n : Nat} {p : Word} {l : List Byte} (h : s.memWf = true) :
    (s.outsidePut host tag n p l).memWf = true := by
  induction n generalizing s host tag p l with
  | zero => exact h
  | succ n ih => exact memWf_ite h (ih (memWf_outsideWrite h))

theorem memWf_outsideRead {tag : Nat} {p : Word} {k : Nat} (h : s.memWf = true) : (s.outsideRead tag p k).1.memWf = true := by
  unfold State.outsideRead
  split
  · rename_i e1
    have hw := memWf_of_fst e1 (memWf_access _ _ _ _ _ _ h)
    refine memWf_fst_ite ?_ ?_
    · split
      rename_i e2
      exact memWf_of_fst e2 (memWf_readAt _ _ _ _ hw)
    · exact hw
  · rename_i e3
    exact memWf_of_fst e3 (memWf_access _ _ _ _ _ _ h)
  · rename_i e4
    exact memWf_of_fst e4 (memWf_access _ _ _ _ _ _ h)

theorem memWf_outsideGet {tag n : Nat} {p : Word} {n' : Nat} (h : s.memWf = true) : (s.outsideGet tag n p n').1.memWf = true := by
  induction n generalizing s tag p n' with
  | zero => exact h
  | succ n ih =>
    rw [State.outsideGet]
    refine memWf_fst_ite ?_ ?_
    · exact h
    · split
      · exact h
      · rename_i e1
        split
        · rename_i e2
          exact memWf_of_fst e2 (ih (memWf_of_fst e1 (memWf_outsideRead h)))
        · exact h

theorem memWf_hostMessage {tag : Nat} {p : Word} {n : Nat} (h : s.memWf = true) : (s.hostMessage tag p n).1.memWf = true := by
  unfold State.hostMessage
  refine memWf_fst_ite ?_ ?_
  · exact h
  · split
    · rename_i e1
      have hw := memWf_of_fst e1 (memWf_accessRun _ _ _ _ _ h)
      exact memWf_fst_ite (memWf_readPieces _ _ _ hw) hw
    · exact h
    · rename_i e2
      exact memWf_of_fst e2 (memWf_accessRun _ _ _ _ _ h)

theorem memWf_hostResult {tag : Nat} {w : Word} (h : s.memWf = true) : (s.hostResult tag w).memWf = true :=
  h

theorem memWf_hostSendOn {tag : Nat} (h : s.memWf = true) : (s.hostSendOn tag).memWf = true := by
  unfold State.hostSendOn
  simp only []
  split
  · exact memWf_hostResult h
  · refine memWf_ite ?_ ?_
    · exact memWf_hostResult h
    · split
      · rename_i e1
        exact memWf_hostResult (memWf_of_fst e1 (memWf_hostMessage h))
      · rename_i e2
        exact memWf_holdUp (memWf_of_fst e2 (memWf_hostMessage h))
      · rename_i e3
        exact memWf_sendAt (memWf_of_fst e3 (memWf_hostMessage h))

theorem memWf_hostSend {tag : Nat} (h : s.memWf = true) : (s.hostSend tag).memWf = true :=
  memWf_ite h (memWf_hostSendOn h)

theorem memWf_answerPost {hid : Nat} {enter : Bool} (h : s.memWf = true) : (s.answerPost hid enter).memWf = true := by
  unfold State.answerPost
  simp only []
  split
  · exact memWf_hold h
  · exact memWf_ite (memWf_enterTrap _ _ _ _ _ ((memWf_setH _ _).trans (memWf_hold h))) (State.memWf_of_eq (memWf_hold h) rfl rfl)

theorem outWf_execHostPfAnswer {tag : Nat} {v : Word} (h : s.memWf = true) : OutWf (execHostPfAnswer tag v s) := by
  unfold execHostPfAnswer
  split
  · exact outWf_next (memWf_ite (memWf_answerPost h) h)
  · exact outWf_next h

theorem outWf_execPfAnswerTimeout {hid : Nat} (h : s.memWf = true) : OutWf (execPfAnswerTimeout hid s) := by
  unfold execPfAnswerTimeout
  split
  · exact outWf_next (memWf_ite (memWf_answerPost h) h)
  · exact outWf_next h

theorem memWf_withJobs {l : List Job} (h : s.memWf = true) : ({ s with jobs := l } : State).memWf = true := h

theorem outWf_execJobRecordPost {job : Word} (h : s.memWf = true) : OutWf (execJobRecordPost job s) := by
  unfold execJobRecordPost
  split
  · exact outWf_next (memWf_withJobs (memWf_hostPost _ _ _ _ h))
  · exact outWf_next h

/-! The plough -/

theorem memWf_readLeaf {ent : Nat} (h : s.memWf = true) : (s.readLeaf ent).memWf = true :=
  memWf_ite h (memWf_ite (memWf_checkRead _ _ _ _ _ h) (memWf_mcheckMem _ _ _ _ _ h))

theorem memWf_rejectMove {f : Nat} {p : Plough} (h : s.memWf = true) : (s.rejectMove f p).memWf = true :=
  h

theorem memWf_plcmdWrite {f : Nat} {v : Word} (h : s.memWf = true) : (s.plcmdWrite f v).memWf = true :=
  memWf_ite h (memWf_ite h (memWf_ite (memWf_rejectMove h) (memWf_ite ((memWf_setPlough _ _ _).trans (memWf_readLeaf h))
    (memWf_rejectMove (memWf_readLeaf h)))))

theorem outWf_execPloughMoveGo {f : Nat} {v : Word} (h : s.memWf = true) : OutWf (execPloughMoveGo f v s) :=
  outWf_next (memWf_ifAnswers h (fun _ hz => memWf_plcmdWrite hz))

theorem memWf_findErrors {tag pa n : Nat} (h : s.memWf = true) : (s.findErrors tag pa n).memWf = true :=
  memWf_foldl (fun _ _ hz => memWf_checkUnit _ _ _ _ hz) h

theorem memWf_moveCount {p : Plough} (h : s.memWf = true) : (s.moveCount p).memWf = true :=
  memWf_ite (memWf_countMem _ _ _ _ (memWf_countMem _ _ _ _ h)) h

theorem memWf_logPages {pa n : Nat} (h : s.memWf = true) : (s.logPages pa n).memWf = true :=
  memWf_foldl (fun _ _ hz => memWf_logDirty _ _ hz) h

theorem memWf_releaseLines {f : Nat} (h : s.memWf = true) : (s.releaseLines f).memWf = true :=
  h

theorem memWf_movePage {f : Nat} {p : Plough} (h : s.memWf = true) : (s.movePage f p).memWf = true := by
  have h1 := memWf_recrypt _ p.tag p.src.toNat (pageBytes p.big)
    (memWf_findErrors (tag := p.tag) (pa := p.src.toNat) (n := pageBytes p.big) h)
  unfold State.movePage
  simp only []
  generalize (s.findErrors p.tag p.src.toNat (pageBytes p.big)).recrypt p.tag p.src.toNat (pageBytes p.big) = z at h1 ⊢
  refine memWf_releaseLines ((memWf_setPlough _ _ _).trans (memWf_moveCount
    (memWf_store64 _ _ _ (memWf_keyed _ _ _ _ (memWf_logPages ?_)))))
  obtain ⟨hm, hp⟩ := (State.memWf_iff _).mp h1
  exact (State.memWf_iff _).mpr ⟨wf_moveTab 0 z.mem _ _ _ hm, wf_moveTab false z.psn _ _ _ hp⟩

theorem memWf_startMove {f tag : Nat} {big : Bool} {src dst ent : Nat} (h : s.memWf = true) :
    (s.startMove f tag big src dst ent).memWf = true :=
  h

theorem optWf_promote {f key : Nat} (h : s.memWf = true) : OptWf (s.promote f key) :=
  optWf_ite optWf_none (optWf_map fun _ => memWf_startMove h)

theorem optWf_demote {f tag : Nat} (h : s.memWf = true) : OptWf (s.demote f tag) := by
  unfold State.demote
  refine optWf_ite optWf_none ?_
  simp only []
  split
  · exact optWf_none
  · exact optWf_map fun _ => memWf_startMove (memWf_readLeaf h)

theorem optWf_demoteAny {f : Nat} (h : s.memWf = true) : OptWf (s.demoteAny f) :=
  optWf_findSome fun _ => optWf_demote h

theorem memWf_nextMove {f : Nat} {l : List Nat} (h : s.memWf = true) : (s.nextMove f l).memWf = true := by
  induction l generalizing s with
  | nil => exact optWf_getD (optWf_demoteAny h) h
  | cons x l ih =>
    rw [State.nextMove]
    split
    · rename_i e
      exact optWf_promote ((memWf_setPlough _ _ _).trans (memWf_readLeaf h)) _ e
    · exact ih h

theorem outWf_execPloughMoveComplete {f : Nat} (h : s.memWf = true) : OutWf (execPloughMoveComplete f s) :=
  outWf_ite (outWf_next h) (outWf_ite (outWf_next ((memWf_setPlough _ _ _).trans (memWf_readLeaf h)))
    (outWf_next (memWf_ite (memWf_ite (memWf_movePage (memWf_readLeaf h)) (memWf_releaseLines (memWf_rejectMove (memWf_readLeaf h))))
      (memWf_nextMove (memWf_ite (memWf_movePage (memWf_readLeaf h)) (memWf_releaseLines (memWf_rejectMove (memWf_readLeaf h))))))))

theorem memWf_fieldWrite {f off : Nat} {v : Word} (h : s.memWf = true) : (s.fieldWrite f off v).memWf = true :=
  memWf_ite (memWf_plcmdWrite h) (memWf_ite (memWf_ite h h) (memWf_ite (memWf_ite h h)
    (memWf_ite (memWf_ite h h) (memWf_ite (memWf_ite h h) (memWf_ite h (memWf_ite h h))))))

/-! Management -/

theorem memWf_start {cold : Bool} (h : s.memWf = true) : (s.start cold).memWf = true :=
  memWf_filtered h rfl rfl

theorem memWf_resetCore {core : Nat} (h : s.memWf = true) : (s.resetCore core).memWf = true :=
  h

theorem outWf_execDieCoreReset {die : Nat} (h : s.memWf = true) : OutWf (execDieCoreReset die s) :=
  outWf_ite (outWf_next h) (outWf_next (memWf_mcheck _ _ _ _ _ _ _ _
    ((memWf_setDie _ _ _).trans (memWf_foldl (fun _ _ hz1 => memWf_resetCore hz1)
      (memWf_foldl (fun _ _ hz2 => memWf_endHart _ _ hz2) h)))))

theorem outWf_execFieldDieReset {f : Nat} (h : s.memWf = true) : OutWf (execFieldDieReset f s) := by
  unfold execFieldDieReset
  refine outWf_next ?_
  refine (memWf_setDie _ _ _).trans ?_
  exact (memWf_setPlough _ _ _).trans (memWf_releaseLines h)

theorem memWf_announce (h : s.memWf = true) : s.announce.memWf = true :=
  memWf_sendFrame h

theorem memWf_closeNegotiation (h : s.memWf = true) : s.closeNegotiation.memWf = true :=
  memWf_ite (memWf_announce h) h

theorem memWf_gtbset {v : Word} (h : s.memWf = true) : (s.gtbset v).memWf = true :=
  memWf_ite h h

theorem memWf_ftmap {v : Word} (h : s.memWf = true) : (s.ftmap v).memWf = true :=
  memWf_ite h h

theorem outWf_execFtmapWrite {v : Word} (h : s.memWf = true) : OutWf (execFtmapWrite v s) :=
  outWf_next (memWf_ifAnswers h (fun _ hz => memWf_ftmap hz))

theorem memWf_setChip {v : Word} (h : s.memWf = true) : (s.setChip v).memWf = true :=
  memWf_ite h h

theorem memWf_chipRestarted {chip : Nat} (h : s.memWf = true) : (s.chipRestarted chip).memWf = true :=
  h

theorem outWf_execChipIncarnationAnnouncement {chip : Nat} {inc : BitVec 12} (h : s.memWf = true) :
    OutWf (execChipIncarnationAnnouncement chip inc s) := by
  unfold execChipIncarnationAnnouncement
  simp only []
  refine outWf_next ?_
  refine (memWf_setHub _ _).trans ?_
  split
  · exact memWf_ite h (memWf_chipRestarted h)
  · exact h

theorem memWf_zeroRegion {n : Nat} (h : s.memWf = true) : (s.zeroRegion n).memWf = true :=
  memWf_filtered h rfl rfl

theorem memWf_zreqWrite {v : Word} (h : s.memWf = true) : (s.zreqWrite v).memWf = true :=
  memWf_ite h (memWf_ite (memWf_zeroRegion h) h)

theorem outWf_execZreqGo {v : Word} (h : s.memWf = true) : OutWf (execZreqGo v s) :=
  outWf_next (memWf_ifAnswers h (fun _ hz => memWf_zreqWrite hz))

theorem memWf_hubWrite {off : Nat} {v : Word} (h : s.memWf = true) : (s.hubWrite off v).memWf = true :=
  memWf_ite ((memWf_setHub _ _).trans (memWf_ite (memWf_closeNegotiation h) h))
    (memWf_ite (memWf_gtbset h) (memWf_ite (memWf_setChip h) (memWf_ite (memWf_ite h h)
      (memWf_ite (memWf_ite h h) (memWf_ite h (memWf_ite (memWf_ftmap h)
        (memWf_ite (memWf_ite h h) (memWf_ite (memWf_zreqWrite h)
          (memWf_ite h (memWf_ite (memWf_ite h h) (memWf_ite h (memWf_ite h
            (memWf_ite h (memWf_ite (memWf_ite h h) (memWf_ite h h)))))))))))))))

theorem memWf_debugWrite {core slot off : Nat} {v : Word} (h : s.memWf = true) : (s.debugWrite core slot off v).memWf = true := by
  unfold State.debugWrite
  split
  · exact h
  · refine memWf_ite ?_ ?_
    · exact h
    · refine memWf_ite ?_ ?_
      · exact h
      · refine memWf_ite ?_ ?_
        · split
          · rename_i e
            exact cfgWf_cfgSet (memWf_hold h) _ e
          · exact h
        · exact h

theorem memWf_dstatWrite {core slot : Nat} {v : Word} (h : s.memWf = true) : (s.dstatWrite core slot v).memWf = true := by
  unfold State.dstatWrite
  split
  · exact h
  · exact h
  · exact h

theorem memWf_bpWrite {core n : Nat} {ctl : Bool} {v : Word} (h : s.memWf = true) : (s.bpWrite core n ctl v).memWf = true :=
  memWf_ite (memWf_ite h h) h

theorem memWf_freeSlotMgmt {core n : Nat} (h : s.memWf = true) : (s.freeSlotMgmt core n).memWf = true :=
  memWf_ite (memWf_holdUp h) ((memWf_setCore _ _ _).trans (memWf_drainCore h))

theorem outWf_execWeightSlotFreeMgmt {core slot : Nat} (h : s.memWf = true) : OutWf (execWeightSlotFreeMgmt core slot s) :=
  outWf_next (memWf_ifAnswers h (fun _ hz => memWf_freeSlotMgmt hz))

theorem memWf_tileTagWrite {core n : Nat} {v : Word} (h : s.memWf = true) : (s.tileTagWrite core n v).memWf = true :=
  memWf_ite (memWf_holdUp h) (memWf_setTile h)

theorem memWf_coreWrite {core off : Nat} {v : Word} (h : s.memWf = true) : (s.coreWrite core off v).memWf = true :=
  memWf_ite (memWf_pmapWrite h) (memWf_ite (memWf_pmapWrite h) (memWf_ite (memWf_ite h h)
    (memWf_ite (memWf_bpWrite h) (memWf_ite (memWf_bpWrite h) (memWf_ite (memWf_dstatWrite h)
      (memWf_ite (memWf_ite (memWf_submit h) (memWf_clearBind h))
        (memWf_ite (memWf_ite (memWf_setBind h) h) (memWf_ite (memWf_tileTagWrite h)
          (memWf_ite (memWf_freeSlotMgmt h) (memWf_ite (memWf_debugWrite h) h))))))))))

theorem memWf_pfWrite {tag off : Nat} {v : Word} (h : s.memWf = true) : (s.pfWrite tag off v).memWf = true :=
  memWf_ite (memWf_tencfgWrite h) (memWf_ite h (memWf_ite (memWf_tenbootWrite h)
    (memWf_ite (memWf_ite h h) (memWf_ite h (memWf_ite h (memWf_ite (memWf_ite h h)
      (memWf_ite h (memWf_ite h (memWf_ite h (memWf_ite (memWf_ite h h) (memWf_ite (memWf_ite h h) (memWf_vfWrite h))))))))))))

theorem memWf_hostVfWrite {tag off : Nat} {v : Word} (h : s.memWf = true) : (s.hostVfWrite tag off v).memWf = true := by
  unfold State.hostVfWrite
  refine memWf_ite ?_ ?_
  · exact h
  · refine memWf_ite ?_ ?_
    · exact h
    · refine memWf_ite ?_ ?_
      · exact h
      · refine memWf_ite ?_ ?_
        · exact h
        · refine memWf_ite ?_ ?_
          · exact memWf_hostSend h
          · refine memWf_ite ?_ ?_
            · split
              · exact memWf_ite (memWf_answerPost h) h
              · exact h
            · exact memWf_ite (memWf_ite (memWf_bpWrite h) h) (memWf_vfWrite h)

theorem outWf_execMgmtRegisterWrite {sp : MgmtSpace} {off : Nat} {v : Word} (h : s.memWf = true) :
    OutWf (execMgmtRegisterWrite sp off v s) := by
  unfold execMgmtRegisterWrite
  refine outWf_ite ?_ ?_
  · exact outWf_next h
  · split
    · exact outWf_next (memWf_hubWrite h)
    · exact outWf_next h
    · exact outWf_next (memWf_ite (memWf_fieldWrite h) h)
    · exact outWf_next (memWf_ite (memWf_coreWrite h) h)
    · exact outWf_next (memWf_ite (memWf_pfWrite h) h)
    · exact outWf_next (memWf_ite (memWf_hostVfWrite h) h)

theorem memWf_hostWrite {tag bar off : Nat} {data : List Byte} (h : s.memWf = true) : (s.hostWrite tag bar off data).memWf = true :=
  memWf_ite h (memWf_ite (memWf_holdUp h) (memWf_ite (memWf_ite (memWf_hostVfWrite h) h) (memWf_ite (memWf_outsidePut h) h)))

theorem memWf_hostRead {tag bar off size : Nat} (h : s.memWf = true) : (s.hostRead tag bar off size).1.memWf = true := by
  unfold State.hostRead
  refine memWf_fst_ite ?_ ?_
  · exact h
  · refine memWf_fst_ite ?_ ?_
    · split
      · exact h
      · exact h
    · exact memWf_fst_ite (memWf_outsideGet h) h

theorem memWf_afterRead {tag bar off size : Nat} (h : s.memWf = true) : (s.afterRead tag bar off size).memWf = true := by
  unfold State.afterRead
  split
  · rename_i e1
    exact memWf_of_fst e1 (memWf_hostRead h)
  · rename_i e2
    exact memWf_holdUp (memWf_of_fst e2 (memWf_hostRead h))

/-! Vector float words -/

theorem outWf_fwise {n : Hart → Need} {f : Fmt → BitVec 3 → Nat → Nat → Nat × Nat}
    {d m : Nat} {a b : Hart → VOpnd} (h : s.memWf = true) :
    OutWf (fwise n f d m a b s) :=
  outWf_vissue h (outWf_toVec h)

theorem outWf_fmac {n : Hart → Need} {negP negC mad : Bool} {d m : Nat} {a b : Hart → VOpnd} (h : s.memWf = true) :
    OutWf (fmac n negP negC mad d m a b s) :=
  outWf_vissue h (outWf_toVec h)

theorem outWf_fcompare {n : Hart → Need} {c : Cmp} {md m : Nat} {a b : Hart → VOpnd} (h : s.memWf = true) :
    OutWf (fcompare n c md m a b s) :=
  outWf_vissue h (outWf_toMask h)

theorem outWf_execVfaddVv {p : BitVec 1} {d a b : BitVec 6} {m : BitVec 3} (h : s.memWf = true) : OutWf (execVfaddVv p d a b m s) :=
  outWf_fwise h

theorem outWf_execVfaddVx {p : BitVec 1} {d a x : BitVec 6} {m : BitVec 3} (h : s.memWf = true) : OutWf (execVfaddVx p d a x m s) :=
  outWf_fwise h

theorem outWf_execVfsubVv {p : BitVec 1} {d a b : BitVec 6} {m : BitVec 3} (h : s.memWf = true) : OutWf (execVfsubVv p d a b m s) :=
  outWf_fwise h

theorem outWf_execVfsubVx {p : BitVec 1} {d a x : BitVec 6} {m : BitVec 3} (h : s.memWf = true) : OutWf (execVfsubVx p d a x m s) :=
  outWf_fwise h

theorem outWf_execVfrsub {p : BitVec 1} {d a x : BitVec 6} {m : BitVec 3} (h : s.memWf = true) : OutWf (execVfrsub p d a x m s) :=
  outWf_fwise h

theorem outWf_execVfmulVv {p : BitVec 1} {d a b : BitVec 6} {m : BitVec 3} (h : s.memWf = true) : OutWf (execVfmulVv p d a b m s) :=
  outWf_fwise h

theorem outWf_execVfmulVx {p : BitVec 1} {d a x : BitVec 6} {m : BitVec 3} (h : s.memWf = true) : OutWf (execVfmulVx p d a x m s) :=
  outWf_fwise h

theorem outWf_execVfdivVv {p : BitVec 1} {d a b : BitVec 6} {m : BitVec 3} (h : s.memWf = true) : OutWf (execVfdivVv p d a b m s) :=
  outWf_fwise h

theorem outWf_execVfdivVx {p : BitVec 1} {d a x : BitVec 6} {m : BitVec 3} (h : s.memWf = true) : OutWf (execVfdivVx p d a x m s) :=
  outWf_fwise h

theorem outWf_execVfrdiv {p : BitVec 1} {d a x : BitVec 6} {m : BitVec 3} (h : s.memWf = true) : OutWf (execVfrdiv p d a x m s) :=
  outWf_fwise h

theorem outWf_execVfsqrt {p : BitVec 1} {d a : BitVec 6} {m : BitVec 3} (h : s.memWf = true) : OutWf (execVfsqrt p d a m s) :=
  outWf_fwise h

theorem outWf_execVfmin {p : BitVec 1} {d a b : BitVec 6} {m : BitVec 3} (h : s.memWf = true) : OutWf (execVfmin p d a b m s) :=
  outWf_fwise h

theorem outWf_execVfmax {p : BitVec 1} {d a b : BitVec 6} {m : BitVec 3} (h : s.memWf = true) : OutWf (execVfmax p d a b m s) :=
  outWf_fwise h

theorem outWf_execVfsgnj {p : BitVec 1} {d a b : BitVec 6} {m : BitVec 3} (h : s.memWf = true) : OutWf (execVfsgnj p d a b m s) :=
  outWf_fwise h

theorem outWf_execVfsgnjn {p : BitVec 1} {d a b : BitVec 6} {m : BitVec 3} (h : s.memWf = true) : OutWf (execVfsgnjn p d a b m s) :=
  outWf_fwise h

theorem outWf_execVfsgnjx {p : BitVec 1} {d a b : BitVec 6} {m : BitVec 3} (h : s.memWf = true) : OutWf (execVfsgnjx p d a b m s) :=
  outWf_fwise h

theorem outWf_execVfmacPpVv {p : BitVec 1} {d a b : BitVec 6} {m : BitVec 3} (h : s.memWf = true) : OutWf (execVfmacPpVv p d a b m s) :=
  outWf_fmac h

theorem outWf_execVfmacPpVx {p : BitVec 1} {d a x : BitVec 6} {m : BitVec 3} (h : s.memWf = true) : OutWf (execVfmacPpVx p d a x m s) :=
  outWf_fmac h

theorem outWf_execVfmacNn {p : BitVec 1} {d a b : BitVec 6} {m : BitVec 3} (h : s.memWf = true) : OutWf (execVfmacNn p d a b m s) :=
  outWf_fmac h

theorem outWf_execVfmacPn {p : BitVec 1} {d a b : BitVec 6} {m : BitVec 3} (h : s.memWf = true) : OutWf (execVfmacPn p d a b m s) :=
  outWf_fmac h

theorem outWf_execVfmacNp {p : BitVec 1} {d a b : BitVec 6} {m : BitVec 3} (h : s.memWf = true) : OutWf (execVfmacNp p d a b m s) :=
  outWf_fmac h

theorem outWf_execVfmad {p : BitVec 1} {d a b : BitVec 6} {m : BitVec 3} (h : s.memWf = true) : OutWf (execVfmad p d a b m s) :=
  outWf_fmac h

theorem outWf_execVfcmpEqVv {p : BitVec 1} {d : BitVec 3} {a b : BitVec 6} {m : BitVec 3} (h : s.memWf = true) :
    OutWf (execVfcmpEqVv p d a b m s) :=
  outWf_fcompare h

theorem outWf_execVfcmpEqVx {p : BitVec 1} {d : BitVec 3} {a x : BitVec 6} {m : BitVec 3} (h : s.memWf = true) :
    OutWf (execVfcmpEqVx p d a x m s) :=
  outWf_fcompare h

theorem outWf_execVfcmpLtVv {p : BitVec 1} {d : BitVec 3} {a b : BitVec 6} {m : BitVec 3} (h : s.memWf = true) :
    OutWf (execVfcmpLtVv p d a b m s) :=
  outWf_fcompare h

theorem outWf_execVfcmpLe {p : BitVec 1} {d : BitVec 3} {a b : BitVec 6} {m : BitVec 3} (h : s.memWf = true) :
    OutWf (execVfcmpLe p d a b m s) :=
  outWf_fcompare h

theorem outWf_execVfcmpGt {p : BitVec 1} {d : BitVec 3} {a x : BitVec 6} {m : BitVec 3} (h : s.memWf = true) :
    OutWf (execVfcmpGt p d a x m s) :=
  outWf_fcompare h

theorem outWf_execVfcmpGe {p : BitVec 1} {d : BitVec 3} {a x : BitVec 6} {m : BitVec 3} (h : s.memWf = true) :
    OutWf (execVfcmpGe p d a x m s) :=
  outWf_fcompare h

theorem outWf_execVfcmpLtVx {p : BitVec 1} {d : BitVec 3} {a x : BitVec 6} {m : BitVec 3} (h : s.memWf = true) :
    OutWf (execVfcmpLtVx p d a x m s) :=
  outWf_fcompare h

theorem outWf_execVfcmpNe {p : BitVec 1} {d : BitVec 3} {a b : BitVec 6} {m : BitVec 3} (h : s.memWf = true) :
    OutWf (execVfcmpNe p d a b m s) :=
  outWf_fcompare h

theorem outWf_execVfkind {p : BitVec 1} {d a : BitVec 6} {m : BitVec 3} (h : s.memWf = true) : OutWf (execVfkind p d a m s) :=
  outWf_fwise h

theorem outWf_execVfcmpUn {p : BitVec 1} {d : BitVec 3} {a b : BitVec 6} {m : BitVec 3} (h : s.memWf = true) :
    OutWf (execVfcmpUn p d a b m s) :=
  outWf_fcompare h

theorem outWf_convert {d a m : Nat} {y z : BitVec 3} {uns rtz : Bool} (h : s.memWf = true) : OutWf (convert d a m y z uns rtz s) :=
  outWf_vissue h (outWf_toVec h)

theorem outWf_execVdrescale {p : BitVec 1} {d a x : BitVec 6} {m : BitVec 3} (h : s.memWf = true) : OutWf (execVdrescale p d a x m s) :=
  outWf_vissue h (outWf_toVec h)

theorem outWf_freduce {f : Hart → Nat → List (Option Nat) → Nat × Nat} {d a b m : Nat} (h : s.memWf = true) :
    OutWf (freduce f d a b m s) :=
  outWf_vissue h (outWf_ite (outWf_laneDone h) (outWf_toVec h))

theorem outWf_execVfsumO {p : BitVec 1} {d a b : BitVec 6} {m : BitVec 3} (h : s.memWf = true) : OutWf (execVfsumO p d a b m s) :=
  outWf_freduce h

theorem outWf_execVfsumT {p : BitVec 1} {d a b : BitVec 6} {m : BitVec 3} (h : s.memWf = true) : OutWf (execVfsumT p d a b m s) :=
  outWf_freduce h

theorem outWf_execVfredmax {p : BitVec 1} {d a b : BitVec 6} {m : BitVec 3} (h : s.memWf = true) : OutWf (execVfredmax p d a b m s) :=
  outWf_freduce h

theorem outWf_execVfredmin {p : BitVec 1} {d a b : BitVec 6} {m : BitVec 3} (h : s.memWf = true) : OutWf (execVfredmin p d a b m s) :=
  outWf_freduce h

theorem outWf_execVrand {p : BitVec 1} {d : BitVec 6} {m : BitVec 3} (h : s.memWf = true) : OutWf (execVrand p d m s) :=
  outWf_vissue h (outWf_laneDone h)

/-! Quire and residue words -/

theorem outWf_qwise {n : Hart → Need} {usesB usesC : Bool} {f : QEnt → Nat → Nat → Nat → Option Nat} {d m : Nat} {a b : Hart → VOpnd}
    (h : s.memWf = true) : OutWf (qwise n usesB usesC f d m a b s) :=
  outWf_vissue h (outWf_toVec h)

theorem outWf_execVqaddVv {p : BitVec 1} {d a b : BitVec 6} {m : BitVec 3} (h : s.memWf = true) : OutWf (execVqaddVv p d a b m s) :=
  outWf_qwise h

theorem outWf_execVqaddVx {p : BitVec 1} {d a x : BitVec 6} {m : BitVec 3} (h : s.memWf = true) : OutWf (execVqaddVx p d a x m s) :=
  outWf_qwise h

theorem outWf_execVqsubVv {p : BitVec 1} {d a b : BitVec 6} {m : BitVec 3} (h : s.memWf = true) : OutWf (execVqsubVv p d a b m s) :=
  outWf_qwise h

theorem outWf_execVqsubVx {p : BitVec 1} {d a x : BitVec 6} {m : BitVec 3} (h : s.memWf = true) : OutWf (execVqsubVx p d a x m s) :=
  outWf_qwise h

theorem outWf_execVqrsub {p : BitVec 1} {d a x : BitVec 6} {m : BitVec 3} (h : s.memWf = true) : OutWf (execVqrsub p d a x m s) :=
  outWf_qwise h

theorem outWf_execVqmulVv {p : BitVec 1} {d a b : BitVec 6} {m : BitVec 3} (h : s.memWf = true) : OutWf (execVqmulVv p d a b m s) :=
  outWf_qwise h

theorem outWf_execVqmulVx {p : BitVec 1} {d a x : BitVec 6} {m : BitVec 3} (h : s.memWf = true) : OutWf (execVqmulVx p d a x m s) :=
  outWf_qwise h

theorem outWf_execVqdivVv {p : BitVec 1} {d a b : BitVec 6} {m : BitVec 3} (h : s.memWf = true) : OutWf (execVqdivVv p d a b m s) :=
  outWf_qwise h

theorem outWf_execVqdivVx {p : BitVec 1} {d a x : BitVec 6} {m : BitVec 3} (h : s.memWf = true) : OutWf (execVqdivVx p d a x m s) :=
  outWf_qwise h

theorem outWf_execVqrdiv {p : BitVec 1} {d a x : BitVec 6} {m : BitVec 3} (h : s.memWf = true) : OutWf (execVqrdiv p d a x m s) :=
  outWf_qwise h

theorem outWf_execVqneg {p : BitVec 1} {d a : BitVec 6} {m : BitVec 3} (h : s.memWf = true) : OutWf (execVqneg p d a m s) :=
  outWf_qwise h

theorem outWf_execVqinv {p : BitVec 1} {d a : BitVec 6} {m : BitVec 3} (h : s.memWf = true) : OutWf (execVqinv p d a m s) :=
  outWf_qwise h

theorem outWf_execVqmaccVv {p : BitVec 1} {d a b : BitVec 6} {m : BitVec 3} (h : s.memWf = true) : OutWf (execVqmaccVv p d a b m s) :=
  outWf_qwise h

theorem outWf_execVqmaccVx {p : BitVec 1} {d a x : BitVec 6} {m : BitVec 3} (h : s.memWf = true) : OutWf (execVqmaccVx p d a x m s) :=
  outWf_qwise h

theorem outWf_qcompare {n : Hart → Need} {md m : Nat} {a b : Hart → VOpnd} (h : s.memWf = true) : OutWf (qcompare n md m a b s) :=
  outWf_vissue h (outWf_toMask h)

theorem outWf_execVqeqVv {p : BitVec 1} {d : BitVec 3} {a b : BitVec 6} {m : BitVec 3} (h : s.memWf = true) :
    OutWf (execVqeqVv p d a b m s) :=
  outWf_qcompare h

theorem outWf_execVqeqVx {p : BitVec 1} {d : BitVec 3} {a x : BitVec 6} {m : BitVec 3} (h : s.memWf = true) :
    OutWf (execVqeqVx p d a x m s) :=
  outWf_qcompare h

theorem outWf_qencode {n : Hart → Need} {d m : Nat} {a b : Hart → VOpnd} (h : s.memWf = true) : OutWf (qencode n d m a b s) :=
  outWf_vissue h (outWf_toVec h)

theorem outWf_execVqencVv {p : BitVec 1} {d a b : BitVec 6} {m : BitVec 3} (h : s.memWf = true) : OutWf (execVqencVv p d a b m s) :=
  outWf_qencode h

theorem outWf_execVqencVx {p : BitVec 1} {d a x : BitVec 6} {m : BitVec 3} (h : s.memWf = true) : OutWf (execVqencVx p d a x m s) :=
  outWf_qencode h

theorem outWf_execVqencVi {p : BitVec 1} {d a : BitVec 6} {i : BitVec 5} {m : BitVec 3} (h : s.memWf = true) :
    OutWf (execVqencVi p d a i m s) :=
  outWf_qencode h

theorem outWf_execVqdec {p : BitVec 1} {d a : BitVec 6} {m : BitVec 3} (h : s.memWf = true) : OutWf (execVqdec p d a m s) :=
  outWf_vissue h (outWf_laneDone h)

theorem outWf_execVqdigVx {p : BitVec 1} {d a x : BitVec 6} {m : BitVec 3} (h : s.memWf = true) : OutWf (execVqdigVx p d a x m s) :=
  outWf_qwise h

theorem outWf_execVqdigVi {p : BitVec 1} {d a : BitVec 6} {i : BitVec 5} {m : BitVec 3} (h : s.memWf = true) :
    OutWf (execVqdigVi p d a i m s) :=
  outWf_qwise h

theorem outWf_execVqval {p : BitVec 1} {d a : BitVec 6} {m : BitVec 3} (h : s.memWf = true) : OutWf (execVqval p d a m s) :=
  outWf_qwise h

/-! Matrix words -/

theorem memWf_setWSlot {core n : Nat} {f : WSlot → WSlot} (h : s.memWf = true) : (s.setWSlot core n f).memWf = true :=
  h

theorem outWf_matrixWord {c : Word → Chk} {f : Out} (h : s.memWf = true) (hf : OutWf f) : OutWf (s.matrixWord c f) := by
  unfold State.matrixWord
  split
  · exact outWf_next (memWf_vtrap h)
  · exact outWf_next (memWf_vstall h)
  · exact hf

theorem memWf_rowCheck {row : Nat} (h : s.memWf = true) : (s.rowCheck row).1.memWf = true := by
  unfold State.rowCheck
  split
  · exact h
  · exact memWf_fst_ite h (memWf_mcheck _ _ _ _ _ _ _ _ h)

theorem outWf_execMmrow {p : BitVec 1} {d a : BitVec 6} {k l : BitVec 2} {o : BitVec 5} {f : BitVec 4} (h : s.memWf = true) :
    OutWf (execMmrow p d a k l o f s) := by
  unfold execMmrow
  refine outWf_matrixWord ?_ ?_
  · exact h
  · split
    rename_i e
    have hw := memWf_of_fst e (memWf_rowCheck h)
    simp only []
    split
    · exact outWf_next (memWf_vtrap hw)
    · exact outWf_next (memWf_vdone hw)

theorem outWf_execMwld {p : BitVec 1} {t' : BitVec 4} {k : BitVec 2} {f : BitVec 4} (h : s.memWf = true) : OutWf (execMwld p t' k f s) :=
  outWf_matrixWord h (outWf_next (memWf_vdone (memWf_setWSlot (memWf_checkRead _ _ _ _ _ (memWf_drainCore h)))))

theorem outWf_execMwclr {p : BitVec 1} {k : BitVec 2} (h : s.memWf = true) : OutWf (execMwclr p k s) :=
  outWf_matrixWord h (outWf_next (memWf_vdone (memWf_setWSlot (memWf_drainCore h))))

/-! Vector memory words -/

theorem memWf_writeFaultRecord {rcd : List Byte} (h : s.memWf = true) : (s.writeFaultRecord rcd).1.memWf = true := by
  unfold State.writeFaultRecord
  split
  · exact memWf_writeAt _ _ _ _ _ h
  · exact memWf_mcheck _ _ _ _ _ _ _ _ h

theorem memWf_memTrap {cause : Nat} {tval : Word} {cut : Nat} {ends probes : List Word} {wr : Bool} (h : s.memWf = true) :
    (s.memTrap cause tval cut ends probes wr).memWf = true := by
  unfold State.memTrap
  simp only []
  exact memWf_ite (memWf_vectorTrap (memWf_writeFaultRecord (memWf_drainRechecks h))) (memWf_vtrap (memWf_drainRechecks h))

theorem memWf_reach {e cut : Nat} {at_ : Word} (h : s.memWf = true) : (s.reach e cut at_).1.memWf = true :=
  memWf_fst_ite h (memWf_sample h)

theorem memWf_runElems {one : State → Nat → State × EChk} {addr : Nat → Word} {cut : Nat} {l : List Nat}
    (hone : ∀ z x1, z.memWf = true → (one z x1).1.memWf = true) (h : s.memWf = true) :
      (State.runElems one addr cut l s).1.memWf = true := by
  induction l generalizing s with
  | nil => exact h
  | cons x l ih =>
    rw [State.runElems]
    split
    · rename_i e1
      exact memWf_of_fst e1 (memWf_reach h)
    · rename_i e2
      have hw := memWf_of_fst e2 (memWf_reach h)
      split
      · rename_i e3
        exact ih (memWf_of_fst e3 (hone _ _ hw))
      · rename_i e4
        exact memWf_of_fst e4 (hone _ _ hw)
      · rename_i e5
        exact memWf_of_fst e5 (hone _ _ hw)

theorem memWf_haltElem {e n : Nat} {at_ : Word} (h : s.memWf = true) : (s.haltElem e n at_).memWf = true :=
  (memWf_setH _ _).trans (memWf_haltAt h)

theorem memWf_memEnd {r : State × VEnd} {m : Nat} {ends : Nat → List Word} {wr ff : Bool} (hr : r.1.memWf = true) :
    (State.memEnd r m ends wr ff).memWf = true := by
  unfold State.memEnd
  split
  · exact memWf_vdone hr
  · exact memWf_vstall hr
  · exact memWf_haltElem hr
  · exact memWf_ite (memWf_vdone hr) (memWf_memTrap hr)

theorem memWf_takeRoom {pl : Place} {n : Nat} (h : s.memWf = true) : (s.takeRoom pl n).memWf = true := by
  unfold State.takeRoom
  split
  · split
    · exact memWf_ite h h
    · exact h
  · exact memWf_markLine _ _ h

theorem memWf_sameRoom (h : s.memWf = true) : (s.sameRoom t).memWf = true :=
  h

theorem memWf_byteChecks {k : AKind} {p q : Word} {n : Nat} (h : s.memWf = true) : (s.byteChecks k p q n).1.memWf = true := by
  induction n generalizing s k p q with
  | zero => exact h
  | succ n ih =>
    rw [State.byteChecks]
    split
    · rename_i e1
      exact memWf_of_fst e1 (memWf_access _ _ _ _ _ _ h)
    · rename_i e2
      exact memWf_of_fst e2 (memWf_access _ _ _ _ _ _ h)
    · rename_i e3
      have hw := memWf_of_fst e3 (memWf_access _ _ _ _ _ _ h)
      split
      · rename_i e4
        exact memWf_of_fst e4 (ih (memWf_ite hw (memWf_takeRoom hw)))
      · exact ih (memWf_ite hw (memWf_takeRoom hw))

theorem memWf_elemChecks {k : AKind} {w : Walker} {e : Nat} (h : s.memWf = true) : (s.elemChecks k w e).1.memWf = true := by
  unfold State.elemChecks
  simp only []
  refine memWf_fst_ite ?_ ?_
  · exact h
  · refine memWf_fst_ite ?_ ?_
    · exact memWf_sameRoom (memWf_byteChecks h)
    · split
      · rename_i e1
        exact memWf_of_fst e1 (memWf_access _ _ _ _ _ _ h)
      · rename_i e2
        exact memWf_of_fst e2 (memWf_access _ _ _ _ _ _ h)
      · rename_i e3
        exact memWf_of_fst e3 (memWf_access _ _ _ _ _ _ h)

theorem memWf_readMore {pl : Place} {n : Nat} (h : s.memWf = true) : (s.readMore pl n).1.memWf = true :=
  memWf_fst_ite (memWf_checkRead _ _ _ _ _ h) (memWf_readAt _ _ _ _ h)

theorem memWf_gather {n : Nat} {first : Bool} {l : List Place} (h : s.memWf = true) : (s.gather n first l).1.memWf = true := by
  induction l generalizing s n first with
  | nil => exact h
  | cons x l ih =>
    rw [State.gather]
    exact ih (memWf_fst_ite (memWf_readAt _ _ _ _ h) (memWf_readMore h))

theorem memWf_loadElem {w : Walker} {d e : Nat} (h : s.memWf = true) : (s.loadElem w d e).1.memWf = true := by
  unfold State.loadElem
  simp only []
  refine memWf_fst_ite ?_ ?_
  · exact h
  · split
    · rename_i e1
      exact (memWf_setH _ _).trans (memWf_gather (memWf_of_fst e1 (memWf_elemChecks h)))
    · exact memWf_elemChecks h

theorem memWf_mergeByte {pl : Place} {lo n v : Nat} {bad first : Bool} (h : s.memWf = true) :
    (s.mergeByte pl lo n v bad first).memWf = true :=
  memWf_ite (memWf_writeAt _ _ _ _ _ h) (memWf_rmwAt h)

theorem memWf_mergeBytes {lo n v : Nat} {bad first : Bool} {l : List Place} (h : s.memWf = true) :
    (s.mergeBytes lo n v bad first l).memWf = true := by
  induction l generalizing s lo n v bad first with
  | nil => exact h
  | cons x l ih => exact ih (memWf_mergeByte h)

theorem memWf_storeElem {w : Walker} {v e : Nat} (h : s.memWf = true) : (s.storeElem w v e).1.memWf = true := by
  unfold State.storeElem
  simp only []
  refine memWf_fst_ite ?_ ?_
  · exact h
  · split
    · rename_i e1
      have hw := memWf_of_fst e1 (memWf_elemChecks h)
      split
      · exact memWf_fst_ite (memWf_mergeBytes hw) (memWf_writeAt _ _ _ _ _ hw)
      · exact hw
    · exact memWf_elemChecks h

theorem memWf_memStart {off : Word} {tile : Option Nat} {f : State → State} (h : s.memWf = true)
    (hf : ∀ z, z.memWf = true → (f z).memWf = true) : (s.memStart off tile f).memWf = true := by
  unfold State.memStart
  refine memWf_ite ?_ ?_
  · exact memWf_vtrap h
  · split
    · exact memWf_ite (memWf_vstallAt h) (hf _ ((memWf_setH _ _).trans (memWf_drainRechecks h)))
    · exact hf _ (memWf_drainRechecks h)

theorem outWf_vload {n : Hart → Need} {w : Walker} {off : Word} {tile : Option Nat} {d m : Nat} {ff : Bool} (h : s.memWf = true) :
    OutWf (vload n w off tile d m ff s) :=
  outWf_vissue h (outWf_next (memWf_memStart h (fun _ hz1 => memWf_memEnd (memWf_runElems (fun _ _ hz2 => memWf_loadElem hz2) hz1))))

theorem outWf_vstore {n : Hart → Need} {w : Walker} {off : Word} {tile : Option Nat} {v m : Nat} (h : s.memWf = true) :
    OutWf (vstore n w off tile v m s) :=
  outWf_vissue h (outWf_next (memWf_memStart h (fun _ hz1 => memWf_memEnd (memWf_runElems (fun _ _ hz2 => memWf_storeElem hz2) hz1))))

theorem outWf_execVld {p : BitVec 1} {v : BitVec 6} {b : BitVec 5} {m : BitVec 3} {p' : BitVec 1} (h : s.memWf = true) :
    OutWf (execVld p v b m p' s) :=
  outWf_vload h

theorem outWf_execVldBo {p : BitVec 1} {v : BitVec 6} {b : BitVec 5} {o : BitVec 6} {m : BitVec 3} {p' : BitVec 1} (h : s.memWf = true) :
    OutWf (execVldBo p v b o m p' s) :=
  outWf_vload h

theorem outWf_execVldS {p : BitVec 1} {v : BitVec 6} {b : BitVec 5} {k : BitVec 6} {m : BitVec 3} {p' : BitVec 1} (h : s.memWf = true) :
    OutWf (execVldS p v b k m p' s) :=
  outWf_vload h

theorem outWf_execVldT {p : BitVec 1} {v : BitVec 6} {b : BitVec 5} {t' : BitVec 4} {m : BitVec 3} {p' : BitVec 1} (h : s.memWf = true) :
    OutWf (execVldT p v b t' m p' s) :=
  outWf_vload h

theorem outWf_execVldFf {p : BitVec 1} {v : BitVec 6} {b : BitVec 5} {m : BitVec 3} {p' : BitVec 1} (h : s.memWf = true) :
    OutWf (execVldFf p v b m p' s) :=
  outWf_vload h

theorem outWf_execVldFfBo {p : BitVec 1} {v : BitVec 6} {b : BitVec 5} {o : BitVec 6} {m : BitVec 3} {p' : BitVec 1}
    (h : s.memWf = true) : OutWf (execVldFfBo p v b o m p' s) :=
  outWf_vload h

theorem outWf_execVldx {p : BitVec 1} {v : BitVec 6} {b : BitVec 5} {i : BitVec 6} {m : BitVec 3} {w : BitVec 2} {k : BitVec 1}
    (h : s.memWf = true) : OutWf (execVldx p v b i m w k s) :=
  outWf_vload h

theorem outWf_execVst {p : BitVec 1} {v : BitVec 6} {b : BitVec 5} {m : BitVec 3} {p' : BitVec 1} (h : s.memWf = true) :
    OutWf (execVst p v b m p' s) :=
  outWf_vstore h

theorem outWf_execVstBo {p : BitVec 1} {v : BitVec 6} {b : BitVec 5} {o : BitVec 6} {m : BitVec 3} {p' : BitVec 1} (h : s.memWf = true) :
    OutWf (execVstBo p v b o m p' s) :=
  outWf_vstore h

theorem outWf_execVstS {p : BitVec 1} {v : BitVec 6} {b : BitVec 5} {k : BitVec 6} {m : BitVec 3} {p' : BitVec 1} (h : s.memWf = true) :
    OutWf (execVstS p v b k m p' s) :=
  outWf_vstore h

theorem outWf_execVstT {p : BitVec 1} {v : BitVec 6} {b : BitVec 5} {t' : BitVec 4} {m : BitVec 3} {p' : BitVec 1} (h : s.memWf = true) :
    OutWf (execVstT p v b t' m p' s) :=
  outWf_vstore h

theorem outWf_execVstx {p : BitVec 1} {v : BitVec 6} {b : BitVec 5} {i : BitVec 6} {m : BitVec 3} {w : BitVec 2} {k : BitVec 1}
    (h : s.memWf = true) : OutWf (execVstx p v b i m w k s) :=
  outWf_vstore h

theorem memWf_readBlk {pl : Place} (h : s.memWf = true) : (s.readBlk pl).1.memWf = true := by
  unfold State.readBlk
  split
  rename_i e
  exact memWf_of_fst e (memWf_readAt _ _ _ _ h)

theorem memWf_blkElems {m cut e1 : Nat} {k : DBlk} {p : Word} {l : List Nat} (h : s.memWf = true) :
    (s.blkElems m cut e1 k p l).1.memWf = true := by
  induction l generalizing s with
  | nil => exact h
  | cons x l ih =>
    rw [State.blkElems]
    refine memWf_fst_ite ?_ ?_
    · exact ih h
    · split
      · rename_i e2
        exact memWf_of_fst e2 (memWf_fst_ite h (memWf_reach h))
      · rename_i e3
        exact ih (memWf_of_fst e3 (memWf_fst_ite h (memWf_reach h)))

theorem memWf_blocks {addr : Nat → Option Word} {m cut n n' n'' : Nat} {l : List (Nat × ERes)} (h : s.memWf = true) :
    (State.blocks addr m cut n n' n'' s l).1.memWf = true := by
  induction n generalizing m cut n' n'' s l with
  | zero => exact h
  | succ n ih =>
    rw [State.blocks]
    refine memWf_fst_ite ?_ ?_
    · exact h
    · simp only []
      split
      · rename_i e1
        exact memWf_of_fst e1 (memWf_fst_ite (memWf_reach h) h)
      · rename_i e2
        have hw1 := memWf_of_fst e2 (memWf_fst_ite (memWf_reach h) h)
        split
        · rename_i e3
          exact memWf_of_fst e3 (memWf_fst_ite hw1 (memWf_access _ _ _ _ _ _ hw1))
        · rename_i e4
          exact memWf_of_fst e4 (memWf_fst_ite hw1 (memWf_access _ _ _ _ _ _ hw1))
        · rename_i e5
          have hw2 := memWf_of_fst e5 (memWf_fst_ite hw1 (memWf_access _ _ _ _ _ _ hw1))
          split
          · rename_i e6
            exact memWf_of_fst e6 (memWf_blkElems (memWf_fst_ite hw2 (memWf_readBlk hw2)))
          · rename_i e7
            exact ih (memWf_of_fst e7 (memWf_blkElems (memWf_fst_ite hw2 (memWf_readBlk hw2))))

theorem memWf_raise {fl : Nat} (h : s.memWf = true) : (s.raise fl).memWf = true :=
  h

theorem memWf_vlddEnd {d : Nat} {g : Gathered} {late : Bool} (h : s.memWf = true) : (s.vlddEnd d g late).memWf = true := by
  unfold State.vlddEnd
  refine memWf_ite ?_ ?_
  · exact memWf_vtrap h
  · simp only []
    split
    · exact memWf_vdone (memWf_raise h)
    · exact memWf_vstallAt h
    · exact memWf_haltElem (memWf_raise h)
    · exact memWf_memTrap (memWf_raise h)

theorem memWf_vlddRun {addr : Hart → Nat → Option Word} {d m : Nat} {late : Bool} (h : s.memWf = true) :
    (vlddRun addr d m late s).memWf = true := by
  unfold vlddRun
  simp only []
  exact memWf_vlddEnd (memWf_blocks (memWf_drainRechecks h))

theorem outWf_execVldd {p : BitVec 1} {v : BitVec 6} {b : BitVec 5} {m : BitVec 3} (h : s.memWf = true) : OutWf (execVldd p v b m s) :=
  outWf_vissue h (outWf_next (memWf_vlddRun h))

theorem outWf_execVlddX {p : BitVec 1} {v : BitVec 6} {b : BitVec 5} {i : BitVec 6} {m : BitVec 3} {w : BitVec 2} (h : s.memWf = true) :
    OutWf (execVlddX p v b i m w s) :=
  outWf_vissue h (outWf_next (memWf_vlddRun h))

theorem memWf_markBlk {pl : Place} {k : OutBlk} (h : s.memWf = true) : (s.markBlk pl k).memWf = true :=
  memWf_ite h (memWf_withMarks h rfl rfl)

theorem memWf_writeBlk {pl : Place} {k : OutBlk} (h : s.memWf = true) : (s.writeBlk pl k).memWf = true :=
  memWf_markBlk (memWf_writeAt _ _ _ _ _ h)

theorem memWf_writePart {b : BlkPart} {k : OutBlk} (h : s.memWf = true) : (s.writePart b k).memWf = true :=
  memWf_ite (memWf_writeBlk h) (memWf_ite h (memWf_markBlk (memWf_mergeBytes h)))

theorem memWf_reachAll {cut : Nat} {p : Word} {l : List Nat} (h : s.memWf = true) : (s.reachAll cut p l).1.memWf = true := by
  induction l generalizing s with
  | nil => exact h
  | cons x l ih =>
    rw [State.reachAll]
    split
    · rename_i e1
      exact memWf_of_fst e1 (memWf_reach h)
    · rename_i e2
      exact ih (memWf_of_fst e2 (memWf_reach h))

theorem memWf_blkChecks {b : Word} {f : DFmt} {cut : Nat} {l : List Nat} (h : s.memWf = true) :
    (s.blkChecks b f cut l).1.memWf = true := by
  induction l generalizing s with
  | nil => exact h
  | cons x l ih =>
    rw [State.blkChecks]
    split
    · rename_i e1
      exact memWf_of_fst e1 (memWf_reachAll h)
    · rename_i e2
      have hw1 := memWf_of_fst e2 (memWf_reachAll h)
      split
      · rename_i e3
        exact memWf_of_fst e3 (memWf_access _ _ _ _ _ _ hw1)
      · rename_i e4
        exact memWf_of_fst e4 (memWf_access _ _ _ _ _ _ hw1)
      · rename_i e5
        have hw2 := memWf_of_fst e5 (memWf_access _ _ _ _ _ _ hw1)
        split
        · rename_i e6
          exact memWf_of_fst e6 (memWf_reachAll hw2)
        · rename_i e7
          exact ih (memWf_takeRoom (memWf_of_fst e7 (memWf_reachAll hw2)))

theorem memWf_vstdRun {v b code : Nat} {late : Bool} (h : s.memWf = true) : (vstdRun v b code late s).memWf = true := by
  unfold vstdRun
  simp only []
  split
  · exact memWf_vtrap (memWf_sameRoom (memWf_blkChecks (memWf_drainRechecks h)))
  · split
    · exact memWf_vdone (memWf_raise (memWf_foldl (fun _ _ hz1 => memWf_writePart hz1)
        (memWf_sameRoom (memWf_blkChecks (memWf_drainRechecks h)))))
    · exact memWf_vstallAt (memWf_sameRoom (memWf_blkChecks (memWf_drainRechecks h)))
    · exact memWf_haltElem (memWf_raise (memWf_foldl (fun _ _ hz2 => memWf_writePart hz2)
        (memWf_sameRoom (memWf_blkChecks (memWf_drainRechecks h)))))
    · exact memWf_memTrap (memWf_raise (memWf_foldl (fun _ _ hz3 => memWf_writePart hz3)
        (memWf_sameRoom (memWf_blkChecks (memWf_drainRechecks h)))))

theorem outWf_execVstd {p : BitVec 1} {v : BitVec 6} {b : BitVec 5} {f : BitVec 3} (h : s.memWf = true) : OutWf (execVstd p v b f s) :=
  outWf_vissue h (outWf_next (memWf_vstdRun h))

theorem memWf_appDone {r t' g n w fcode : Nat} (h : s.memWf = true) : (s.appDone r t' g n w fcode).memWf = true :=
  memWf_vdone h

theorem memWf_appElem {v m : Nat} {data : Word} {t' e : Nat} (h : s.memWf = true) : (s.appElem v m data t' e).1.memWf = true := by
  unfold State.appElem
  simp only []
  refine memWf_fst_ite ?_ ?_
  · exact h
  · split
    · rename_i e1
      exact memWf_of_fst e1 (memWf_access _ _ _ _ _ _ h)
    · rename_i e2
      exact memWf_of_fst e2 (memWf_access _ _ _ _ _ _ h)
    · rename_i e3
      exact memWf_writeAt _ _ _ _ _ (memWf_of_fst e3 (memWf_access _ _ _ _ _ _ h))

theorem memWf_appWrites {v r m : Nat} {data : Word} {t' g n : Nat} {late : Bool} (h : s.memWf = true) :
    (s.appWrites v r m data t' g n late).memWf = true := by
  unfold State.appWrites
  simp only []
  split
  · rename_i e1
    exact memWf_appDone (memWf_of_fst e1 (memWf_runElems (fun _ _ hz1 => memWf_appElem hz1) h))
  · rename_i e2
    exact memWf_appDone (memWf_of_fst e2 (memWf_runElems (fun _ _ hz2 => memWf_appElem hz2) h))
  · rename_i e3
    have hw := memWf_of_fst e3 (memWf_runElems (fun _ _ hz3 => memWf_appElem hz3) h)
    exact memWf_ite (memWf_appDone hw) (memWf_vstall hw)
  · rename_i e4
    exact memWf_haltElem (memWf_of_fst e4 (memWf_runElems (fun _ _ hz4 => memWf_appElem hz4) h))

theorem memWf_appHeader {b : Word} (h : s.memWf = true) : (s.appHeader b).1.memWf = true := by
  unfold State.appHeader
  refine memWf_fst_ite ?_ ?_
  · exact h
  · split
    · rename_i e
      have hw := memWf_of_fst e (memWf_access _ _ _ _ _ _ h)
      split
      · exact memWf_fst_ite hw hw
      · exact hw
    · exact memWf_access _ _ _ _ _ _ h

theorem memWf_appReserve {v r m : Nat} {b : Word} {pl : Place} (h : s.memWf = true) : (s.appReserve v r m b pl).memWf = true := by
  unfold State.appReserve
  split
  rename_i e
  have hw := memWf_of_fst e (memWf_readAt _ _ _ _ h)
  exact memWf_ite (memWf_vtrap hw) (memWf_ite (memWf_vtrap hw) (memWf_appWrites ((memWf_setH _ _).trans (memWf_rmwAt hw))))

theorem outWf_execVstApp {p : BitVec 1} {v : BitVec 6} {b : BitVec 5} {r m : BitVec 3} {p' : BitVec 1} (h : s.memWf = true) :
    OutWf (execVstApp p v b r m p' s) := by
  unfold execVstApp
  refine outWf_vissue ?_ ?_
  · exact h
  · simp only []
    split
    · exact outWf_next (memWf_appWrites (memWf_drainRechecks h))
    · split
      · rename_i e1
        exact outWf_next (memWf_memTrap (memWf_of_fst e1 (memWf_appHeader (memWf_drainRechecks h))))
      · rename_i e2
        exact outWf_next (memWf_vstall (memWf_of_fst e2 (memWf_appHeader (memWf_drainRechecks h))))
      · rename_i e3
        exact outWf_next (memWf_appReserve (memWf_of_fst e3 (memWf_appHeader (memWf_drainRechecks h))))

theorem memWf_bopChecks {o : AmoOp} {p : Word} {n : Nat} (h : s.memWf = true) : (s.bopChecks o p n).1.memWf = true := by
  unfold State.bopChecks
  refine memWf_fst_ite ?_ ?_
  · exact h
  · split
    · rename_i e1
      exact memWf_of_fst e1 (memWf_access _ _ _ _ _ _ h)
    · rename_i e2
      have hw1 := memWf_of_fst e2 (memWf_access _ _ _ _ _ _ h)
      exact memWf_fst_ite hw1 hw1
    · rename_i e3
      have hw2 := memWf_of_fst e3 (memWf_access _ _ _ _ _ _ h)
      exact memWf_fst_ite hw2 hw2

theorem memWf_bopApply {o : AmoOp} {p : Word} {pl : Place} {n v : Nat} {bad : Bool} (h : s.memWf = true) :
    (s.bopApply o p pl n v bad).memWf = true := by
  unfold State.bopApply
  split
  rename_i e
  have hw := memWf_of_fst e (memWf_readAt _ _ _ _ (memWf_amoNote h))
  exact memWf_ite hw (memWf_ite (memWf_rmwAt hw) (memWf_raise (memWf_rmwAt hw)))

theorem memWf_bopElem {o : AmoOp} {w : Walker} {v e : Nat} (h : s.memWf = true) : (s.bopElem o w v e).1.memWf = true := by
  unfold State.bopElem
  simp only []
  refine memWf_fst_ite ?_ ?_
  · exact h
  · split
    · rename_i e1
      exact memWf_bopApply (memWf_of_fst e1 (memWf_bopChecks h))
    · rename_i e2
      exact memWf_of_fst e2 (memWf_bopChecks h)
    · exact memWf_bopChecks h

theorem memWf_bopRun {o : AmoOp} {w : Walker} {v m : Nat} (h : s.memWf = true) : (s.bopRun o w v m).1.memWf = true :=
  memWf_runElems (fun _ _ hz => memWf_bopElem hz) h

theorem memWf_reachTo {m e : Nat} {at_ : Nat → Word} (h : s.memWf = true) : (s.reachTo m e at_).memWf = true :=
  memWf_foldl (fun _ _ hz => memWf_reach hz) h

theorem memWf_faddEnd {r : State × VEnd} {m : Nat} {ends : Nat → List Word} {late : Bool} (h : s.memWf = true) (hr : r.1.memWf = true) :
    (s.faddEnd r m ends late).memWf = true := by
  unfold State.faddEnd
  refine memWf_ite ?_ ?_
  · exact memWf_vtrap h
  · split
    · exact memWf_vstallAt (memWf_reachTo h)
    · exact memWf_memEnd (memWf_raise hr)

theorem memWf_vbopRun {o : AmoOp} {v i m p base : Nat} {late : Bool} (h : s.memWf = true) :
    (vbopRun o v i m p base late s).memWf = true :=
  memWf_ite (memWf_vtrap (memWf_drainRechecks h)) (memWf_ite (memWf_faddEnd (memWf_drainRechecks h)
    (memWf_bopRun ((memWf_setH _ _).trans (memWf_drainRechecks h)))) (memWf_memEnd (memWf_bopRun (memWf_drainRechecks h))))

theorem outWf_vbop {o : AmoOp} {v i m p base : Nat} (h : s.memWf = true) : OutWf (vbop o v i m p base s) :=
  outWf_vissue h (outWf_next (memWf_vbopRun h))

theorem memWf_waitOut {party : Word} (h : s.memWf = true) : (s.waitOut party).memWf = true := by
  unfold State.waitOut
  simp only []
  split
  · exact memWf_ite (memWf_vtrap h) (memWf_vdone h)
  · exact memWf_ite (memWf_vtrap h) (memWf_vdone h)
  · exact memWf_vbopRun h
  · exact memWf_vlddRun h
  · exact memWf_vlddRun h
  · exact memWf_vstdRun h
  · split
    · exact memWf_appWrites h
    · exact memWf_vtrap h
  · exact memWf_vtrap h

/-! Vector sequencing -/

theorem memWf_grant {d : BitVec 4} {g : BitVec 2} {y sw : BitVec 3} {req : Nat} (h : s.memWf = true) :
    (s.grant d g y sw req).memWf = true :=
  memWf_vdone h

theorem memWf_vjump {h' : Hart} {target : Word} (h : s.memWf = true) : (s.vjump h' target).memWf = true :=
  h

theorem memWf_openLoop {c : BitVec 2} {fin : Word} {stages count : Nat} (h : s.memWf = true) :
    (s.openLoop c fin stages count).memWf = true :=
  memWf_ite (memWf_vjump h) (memWf_vjump h)

theorem memWf_beyond {target : Word} (h : s.memWf = true) : (s.beyond target).memWf = true :=
  memWf_vectorTrap h

theorem outWf_vloop {l : BitVec 2} {f : BitVec 10} {n : BitVec 6} {stages : Nat} (h : s.memWf = true) : OutWf (vloop l f n stages s) := by
  unfold vloop
  simp only []
  refine outWf_ite ?_ ?_
  · exact outWf_next (memWf_villop h)
  · refine outWf_ite ?_ ?_
    · exact outWf_next (memWf_beyond h)
    · refine outWf_ite ?_ ?_
      · exact outWf_next (memWf_villop h)
      · split
        · rename_i e1
          exact outWf_next (memWf_vtrap (memWf_of_fst e1 (memWf_fetch _ _ _ h)))
        · rename_i e2
          exact outWf_next (memWf_vstall (memWf_of_fst e2 (memWf_fetch _ _ _ h)))
        · rename_i e3
          have hw := memWf_of_fst e3 (memWf_fetch _ _ _ h)
          exact outWf_ite (outWf_next (memWf_openLoop hw)) (outWf_next (memWf_villop hw))

theorem outWf_execVlend {p : BitVec 1} {l : BitVec 2} {b : BitVec 10} (h : s.memWf = true) : OutWf (execVlend p l b s) := by
  unfold execVlend
  simp only []
  split
  · exact outWf_next (memWf_villop h)
  · exact outWf_ite (outWf_next (memWf_villop h)) (outWf_ite (outWf_next (memWf_vjump h)) (outWf_next (memWf_vjump h)))

theorem outWf_execVexit {p : BitVec 1} {l : BitVec 2} {m : BitVec 3} (h : s.memWf = true) : OutWf (execVexit p l m s) := by
  unfold execVexit
  split
  · exact outWf_next (memWf_villop h)
  · exact outWf_ite (outWf_next (memWf_vjump h)) (outWf_next (memWf_vdone h))

theorem outWf_pushing {f : State → Out} (h : s.memWf = true) (hf : ∀ z, z.memWf = true → OutWf (f z)) : OutWf (s.pushing f) :=
  outWf_ite (outWf_next (memWf_vstall h)) (hf _ (memWf_drainRechecks h))

theorem outWf_execVreply {p : BitVec 1} {r k : BitVec 6} (h : s.memWf = true) : OutWf (execVreply p r k s) :=
  outWf_pushing h (fun _ hz => outWf_next (State.memWf_of_eq (memWf_wakeForager (memWf_vdone hz)) rfl rfl))

theorem outWf_execVend {c : BitVec 1} (h : s.memWf = true) : OutWf (execVend c s) := by
  refine outWf_ite (outWf_next (memWf_villop h)) (outWf_pushing h fun z hz => outWf_next ?_)
  exact State.memWf_of_eq (memWf_wakeForager (s := { z with h := z.h.endBlock }) hz) rfl rfl

theorem outWf_seqOp {f : Word → Word → Word} {d : BitVec 4} {a b : BitVec 6} (h : s.memWf = true) : OutWf (seqOp f d a b s) :=
  outWf_next (memWf_vdone h)

theorem outWf_execSadd {p : BitVec 1} {d : BitVec 4} {a b : BitVec 6} (h : s.memWf = true) : OutWf (execSadd p d a b s) :=
  outWf_seqOp h

theorem outWf_execSsub {p : BitVec 1} {d : BitVec 4} {a b : BitVec 6} (h : s.memWf = true) : OutWf (execSsub p d a b s) :=
  outWf_seqOp h

theorem outWf_execSand {p : BitVec 1} {d : BitVec 4} {a b : BitVec 6} (h : s.memWf = true) : OutWf (execSand p d a b s) :=
  outWf_seqOp h

theorem outWf_execSor {p : BitVec 1} {d : BitVec 4} {a b : BitVec 6} (h : s.memWf = true) : OutWf (execSor p d a b s) :=
  outWf_seqOp h

theorem outWf_execSxor {p : BitVec 1} {d : BitVec 4} {a b : BitVec 6} (h : s.memWf = true) : OutWf (execSxor p d a b s) :=
  outWf_seqOp h

theorem outWf_execSsll {p : BitVec 1} {d : BitVec 4} {a b : BitVec 6} (h : s.memWf = true) : OutWf (execSsll p d a b s) :=
  outWf_seqOp h

theorem outWf_execSsrl {p : BitVec 1} {d : BitVec 4} {a b : BitVec 6} (h : s.memWf = true) : OutWf (execSsrl p d a b s) :=
  outWf_seqOp h

theorem outWf_execSmul {p : BitVec 1} {d : BitVec 4} {a b : BitVec 6} (h : s.memWf = true) : OutWf (execSmul p d a b s) :=
  outWf_seqOp h

theorem outWf_execSminu {p : BitVec 1} {d : BitVec 4} {a b : BitVec 6} (h : s.memWf = true) : OutWf (execSminu p d a b s) :=
  outWf_seqOp h

theorem outWf_execSmaxu {p : BitVec 1} {d : BitVec 4} {a b : BitVec 6} (h : s.memWf = true) : OutWf (execSmaxu p d a b s) :=
  outWf_seqOp h

theorem outWf_execVcfgrd {p : BitVec 1} {d : BitVec 4} {r : BitVec 12} (h : s.memWf = true) : OutWf (execVcfgrd p d r s) := by
  unfold execVcfgrd
  split
  · exact outWf_next (memWf_vdone h)
  · exact outWf_next (memWf_villop h)

theorem outWf_execVpclr {p : BitVec 1} {d : BitVec 6} (h : s.memWf = true) : OutWf (execVpclr p d s) :=
  outWf_vissue h (outWf_next (memWf_vdone h))

theorem outWf_execVpmask {p : BitVec 1} {d : BitVec 3} {a : BitVec 6} (h : s.memWf = true) : OutWf (execVpmask p d a s) :=
  outWf_vissue h (outWf_next (memWf_vdone h))

theorem outWf_execVid {p : BitVec 1} {d : BitVec 6} (h : s.memWf = true) : OutWf (execVid p d s) :=
  outWf_vissue h (outWf_next (memWf_vdone h))

theorem outWf_execVmvR {p : BitVec 1} {d a : BitVec 6} {n : BitVec 2} (h : s.memWf = true) : OutWf (execVmvR p d a n s) :=
  outWf_vissue h (outWf_next (memWf_vdone h))

/-! Convoys -/

theorem outWf_execBlockStart (h : s.memWf = true) : OutWf (execBlockStart s) := by
  unfold execBlockStart
  split
  · exact outWf_ite (outWf_withLanes h fun z hz => outWf_next (memWf_withDid _ _ ((memWf_setH z _).trans hz))) (outWf_next h)
  · exact outWf_next h

theorem memWf_fetchConvoy {p : Word} {first : Bool} {n : Nat} {l : List Slot} (h : s.memWf = true) :
    (s.fetchConvoy p first n l).1.memWf = true := by
  induction n generalizing s p first l with
  | zero => exact h
  | succ n ih =>
    rw [State.fetchConvoy]
    refine memWf_fst_ite ?_ ?_
    · exact h
    · split
      · rename_i e1
        have hw1 := memWf_of_fst e1 (memWf_fetch _ _ _ h)
        exact memWf_fst_ite hw1 hw1
      · rename_i e2
        exact memWf_of_fst e2 (memWf_fetch _ _ _ h)
      · rename_i e3
        have hw2 := memWf_of_fst e3 (memWf_fetch _ _ _ h)
        exact memWf_fst_ite hw2 (memWf_fst_ite hw2 (ih hw2))

theorem memWf_meet {l : List (Nat × Word)} (h : s.memWf = true) : (s.meet l).1.memWf = true := by
  unfold State.meet
  simp only []
  split
  · exact memWf_haltAt ((memWf_setH _ _).trans (memWf_foldl (fun _ _ hz1 => memWf_sample hz1) h))
  · exact (memWf_setH _ _).trans (memWf_foldl (fun _ _ hz2 => memWf_sample hz2) h)

theorem memWf_convoyBreak {l : List Slot} (h : s.memWf = true) : (s.convoyBreak l).1.memWf = true :=
  memWf_meet h

theorem memWf_convoyTrap {cause : Nat} {tval tepc : Word} (h : s.memWf = true) : (s.convoyTrap cause tval tepc).memWf = true :=
  memWf_vectorTrap h

theorem memWf_issueNow {l : List Slot} (h : s.memWf = true) : (s.issueNow l).memWf = true :=
  h

theorem memWf_issueWords {l : List Slot} (h : s.memWf = true) : (s.issueWords l).memWf = true := by
  unfold State.issueWords
  refine memWf_ite ?_ ?_
  · exact h
  · split
    · rename_i e1
      exact memWf_of_fst e1 (memWf_convoyBreak h)
    · rename_i e2
      have hw := memWf_of_fst e2 (memWf_convoyBreak h)
      split
      · exact memWf_convoyTrap hw
      · exact memWf_vstallAt hw
      · exact memWf_issueNow hw

theorem memWf_convoyAt (h : s.memWf = true) : s.convoyAt.memWf = true := by
  unfold State.convoyAt
  split
  · exact memWf_convoyTrap h
  · refine memWf_ite ?_ ?_
    · exact memWf_convoyTrap h
    · split
      · rename_i e1
        exact memWf_convoyTrap (memWf_of_fst e1 (memWf_fetchConvoy h))
      · rename_i e2
        exact memWf_vstallAt (memWf_of_fst e2 (memWf_fetchConvoy h))
      · rename_i e3
        exact memWf_issueWords (memWf_of_fst e3 (memWf_fetchConvoy h))

theorem outWf_execConvoyIssue (h : s.memWf = true) : OutWf (execConvoyIssue s) :=
  outWf_ite (outWf_next h) (outWf_withLanes h (fun _ hz => outWf_next (memWf_convoyAt hz)))

theorem memWf_issueOut {party : Word} (h : s.memWf = true) : (s.issueOut party).memWf = true :=
  memWf_convoyTrap h

theorem memWf_dropEntries {core hid : Nat} (h : s.memWf = true) : (s.dropEntries core hid).memWf = true :=
  h

theorem memWf_compareRuns {h' : Hart} {r : Recheck} {at_ : Word} {elem : Nat} {first second third : Option RunRes} (h : s.memWf = true) :
    (s.compareRuns h' r at_ elem first second third).memWf = true :=
  memWf_ite ((memWf_setCore _ _ _).trans (memWf_ite (memWf_count _ _ _ _ h) (memWf_mcheck _ _ _ _ _ _ _ _ (memWf_count _ _ _ _ h))))
    ((memWf_updHart _ _ _).trans (memWf_dropEntries (memWf_ite (memWf_count _ _ _ _ h)
      (memWf_mcheck _ _ _ _ _ _ _ _ (memWf_count _ _ _ _ h)))))

theorem outWf_execRecheckRun {hid elem : Nat} {vote : Vote} (h : s.memWf = true) : OutWf (execRecheckRun hid elem vote s) := by
  unfold execRecheckRun
  split
  · exact outWf_next h
  · split
    · exact outWf_next h
    · split
      · exact outWf_next ((memWf_setCore _ _ _).trans (memWf_count _ _ _ _ h))
      · exact outWf_ite (outWf_next (memWf_compareRuns h)) (outWf_next h)
      · exact outWf_next h

/-! Deadlines -/

theorem outWf_execVsyncExpiry {hid : Nat} (h : s.memWf = true) : OutWf (execVsyncExpiry hid s) := by
  unfold execVsyncExpiry
  split
  · exact outWf_next (memWf_answer _ _ _ h)
  · exact outWf_next h

theorem outWf_execTwaitExpiry {hid : Nat} (h : s.memWf = true) : OutWf (execTwaitExpiry hid s) := by
  unfold execTwaitExpiry
  split
  · split
    · exact outWf_next (memWf_answer _ _ _ h)
    · exact outWf_next h
  · exact outWf_next h

theorem outWf_execEleaseExpiry {hid : Nat} (h : s.memWf = true) : OutWf (execEleaseExpiry hid s) := by
  unfold execEleaseExpiry
  split
  · exact outWf_next (memWf_answerIf _ _ _ _ h)
  · exact outWf_next h

theorem outWf_execEngineSlotExpiry {hid : Nat} (h : s.memWf = true) : OutWf (execEngineSlotExpiry hid s) := by
  unfold execEngineSlotExpiry
  split
  · split
    · exact outWf_next (memWf_answerIf _ _ _ _ h)
    · exact outWf_next h
  · exact outWf_next h

theorem outWf_execSwjoinExpiry {hid : Nat} (h : s.memWf = true) : OutWf (execSwjoinExpiry hid s) := by
  unfold execSwjoinExpiry
  split
  · exact outWf_next (memWf_joinResult (memWf_setBody h))
  · exact outWf_next h

theorem outWf_execAcqExpiry {hid : Nat} (h : s.memWf = true) : OutWf (execAcqExpiry hid s) := by
  unfold execAcqExpiry
  split
  · exact outWf_next (memWf_answerIf _ _ _ _ (memWf_setBody h))
  · exact outWf_next h

theorem outWf_execSendExpiry {hid : Nat} (h : s.memWf = true) : OutWf (execSendExpiry hid s) := by
  unfold execSendExpiry
  split
  · exact outWf_next (memWf_serveAll (memWf_sendResult (memWf_setBody h)))
  · exact outWf_next h

theorem outWf_execRecvExpiry {hid : Nat} (h : s.memWf = true) : OutWf (execRecvExpiry hid s) := by
  unfold execRecvExpiry
  split
  · exact outWf_next (memWf_answerIf _ _ _ _ (memWf_setBody h))
  · exact outWf_next h

theorem outWf_execPlaneFlip {region bank : Nat} (h : s.memWf = true) : OutWf (execPlaneFlip region bank s) := by
  unfold execPlaneFlip
  split
  · refine outWf_ite ?_ ?_
    · simp only []
      split
      · exact outWf_next (memWf_sendSteps (memWf_flipBanks h))
      · exact outWf_next (memWf_flipBanks h)
    · exact outWf_next h
  · exact outWf_next h

theorem memWf_abandonWait {h' : Hart} {w : Wait} (h : s.memWf = true) : (s.abandonWait h' w).memWf = true := by
  unfold State.abandonWait
  simp only []
  split
  · exact h
  · exact h

theorem outWf_execWaitAnswerTimeout {hid : Nat} (h : s.memWf = true) : OutWf (execWaitAnswerTimeout hid s) := by
  unfold execWaitAnswerTimeout
  split
  · exact outWf_next (memWf_trap _ _ _ ((memWf_setH _ _).trans (memWf_hold (memWf_abandonWait h))))
  · exact outWf_next h

theorem memWf_takeBack {b : Begun} (h : s.memWf = true) : (s.takeBack b).memWf = true := by
  unfold State.takeBack
  split
  · exact h
  · exact h
  · exact memWf_leaveUnanswered h
  · exact memWf_leaveUnanswered h
  · exact memWf_takeChild h
  · exact memWf_withdrawCmd h

theorem outWf_execIwlExpiry {hid : Nat} {side : Side} (h : s.memWf = true) : OutWf (execIwlExpiry hid side s) := by
  unfold execIwlExpiry
  split
  · simp only []
    split
    · refine outWf_next ?_
      refine memWf_trap _ _ _ ?_
      refine (memWf_setH _ _).trans ?_
      split
      · exact memWf_takeBack (memWf_hold h)
      · exact memWf_hold h
    · exact outWf_next (memWf_ite (memWf_issueOut (memWf_hold h)) (memWf_waitOut (memWf_hold h)))
  · exact outWf_next h

/-! The fabric -/

theorem memWf_dropFrame {stale : Bool} (h : s.memWf = true) : (s.dropFrame stale).memWf = true :=
  h

theorem outWf_receive {kind : Nat} {fr : Frame} {f : State → State} (h : s.memWf = true) (hf : ∀ z, z.memWf = true → (f z).memWf = true) :
    OutWf (s.receive kind fr f) :=
  outWf_ite (outWf_next (memWf_dropFrame h)) (outWf_ite (outWf_next (memWf_dropFrame h))
    (outWf_next (hf _ (memWf_ite h (memWf_logArrival h)))))

theorem memWf_fabPut {fr : Frame} (h : s.memWf = true) : (s.fabPut fr).memWf = true :=
  memWf_outsidePut h

theorem memWf_fabGet {fr : Frame} (h : s.memWf = true) : (s.fabGet fr).memWf = true := by
  unfold State.fabGet
  split
  · rename_i e1
    exact memWf_sendFrame (memWf_of_fst e1 (memWf_outsideGet h))
  · rename_i e2
    exact memWf_holdUp (memWf_of_fst e2 (memWf_outsideGet h))

theorem memWf_fabSend {fr : Frame} (h : s.memWf = true) : (s.fabSend fr).memWf = true := by
  unfold State.fabSend
  split
  · split
    · exact memWf_ite (memWf_sendAt h) (memWf_dropFrame h)
    · exact memWf_dropFrame h
  · exact memWf_dropFrame h

theorem memWf_farJoin {off : Nat} {o : Obj} {b : Swarm} {far rank dead tick held : Nat} (h : s.memWf = true) :
    (s.farJoin off o b far rank dead tick held).memWf = true := by
  unfold State.farJoin
  simp only []
  split
  · exact memWf_ite (memWf_fabricResult h) (memWf_ite (memWf_closeEpisode (memWf_setBody h))
      (memWf_ite (memWf_fabricResult h) (memWf_setBody h)))
  · exact memWf_ite (memWf_fabricResult h) (memWf_ite (memWf_fabricResult h)
      (memWf_ite (memWf_closeEpisode (memWf_setBody h)) (memWf_ite (memWf_fabricResult h) (memWf_setBody h))))

theorem memWf_farArrival {off : Nat} {o : Obj} {b : Swarm} {far chip dead tick : Nat} {flip : Bool} (h : s.memWf = true) :
    (s.farArrival off o b far chip dead tick flip).memWf = true := by
  unfold State.farArrival
  split
  · exact memWf_fabricResult h
  · exact memWf_ite (memWf_arriveAt h) (memWf_fabricResult h)

theorem memWf_farLeave {off : Nat} {o : Obj} {far chip tick : Nat} (h : s.memWf = true) : (s.farLeave off o far chip tick).memWf = true :=
  memWf_ite (memWf_fabricResult (memWf_leaveAt h)) (memWf_fabricResult h)

theorem memWf_farCancel {off : Nat} {o : Obj} {far chip enrolled tick : Nat} (h : s.memWf = true) :
    (s.farCancel off o far chip enrolled tick).memWf = true :=
  memWf_fabricResult (memWf_ite (memWf_leaveAt h) h)

theorem memWf_farEnrol {off : Nat} {o : Obj} {b : Swarm} {far chip rank limit tick : Nat} (h : s.memWf = true) :
    (s.farEnrol off o b far chip rank limit tick).memWf = true :=
  memWf_ite (memWf_fabricResult h) (memWf_fabricResult (memWf_setBody h))

theorem memWf_farRequest {off : Nat} {o : Obj} {b : Swarm} {far : Nat} {fr : Frame} (h : s.memWf = true) :
    (s.farRequest off o b far fr).memWf = true := by
  unfold State.farRequest
  simp only []
  split
  · exact memWf_farJoin h
  · exact memWf_farLeave h
  · exact memWf_farEnrol h
  · exact memWf_farCancel h
  · exact memWf_fabricResult h
  · exact memWf_farArrival h

theorem memWf_fabArrival {fr : Frame} (h : s.memWf = true) : (s.fabArrival fr).memWf = true := by
  unfold State.fabArrival
  simp only []
  split
  · split
    · exact memWf_ite (memWf_fabricReply h) (memWf_ite (memWf_fabricReply h) (memWf_farRequest (memWf_count _ _ _ _ h)))
    · exact memWf_fabricReply h
  · exact memWf_fabricReply h

theorem memWf_report {off hid : Nat} {fr : Frame} (h : s.memWf = true) : (s.report off hid fr).memWf = true := by
  unfold State.report
  split
  · exact memWf_setBody h
  · exact h

theorem memWf_childAnswer {h' : Hart} {ok : Bool} (h : s.memWf = true) : (s.childAnswer h' ok).memWf = true :=
  memWf_ite (memWf_childReady h) (memWf_childRefused h)

theorem memWf_leaveAnswer {h' : Hart} {e : Nat × Nat} {v : Word} (h : s.memWf = true) : (s.leaveAnswer h' e v).memWf = true := by
  unfold State.leaveAnswer
  simp only []
  refine (memWf_updHart _ _ _).trans ?_
  split
  · exact memWf_traceHart _ _ _ _ _ _ h
  · exact h

theorem memWf_outDone {hid : Nat} {e : Nat × Nat} (h : s.memWf = true) : (s.outDone hid e).memWf = true := by
  unfold State.outDone
  split
  · exact h
  · exact h

theorem memWf_fabResult {fr : Frame} (h : s.memWf = true) : (s.fabResult fr).memWf = true := by
  unfold State.fabResult
  split
  · exact h
  · simp only []
    split
    · exact memWf_outDone h
    · exact memWf_ite (memWf_childAnswer (memWf_report h)) (memWf_ite (memWf_answer _ _ _ ((memWf_updHart _ _ _).trans (memWf_report h)))
        (memWf_ite (memWf_leaveAnswer (memWf_report h)) (memWf_ite (memWf_outDone (memWf_report h)) (memWf_outDone h))))

theorem memWf_refuseColl {fr : Frame} (h : s.memWf = true) : (s.refuseColl fr).memWf = true :=
  memWf_sendFrame h

theorem memWf_fabMessage {fr : Frame} (h : s.memWf = true) : (s.fabMessage fr).memWf = true := by
  unfold State.fabMessage
  split
  · split
    · simp only []
      split
      · split
        · rename_i e1
          exact memWf_of_fst e1 (memWf_contribute h)
        · rename_i e2
          exact memWf_refuseColl (memWf_of_fst e2 (memWf_contribute h))
      · exact memWf_refuseColl h
    · exact memWf_refuseColl h
  · split
    · exact h
    · exact h
  · split
    · exact memWf_failCmd h
    · exact h

theorem memWf_fabColl {fr : Frame} (h : s.memWf = true) : (s.fabColl fr).memWf = true :=
  memWf_ite (memWf_fabMessage h) (memWf_ite (memWf_fabMessage h) h)

theorem outWf_execFabricPut {fr : Frame} (h : s.memWf = true) : OutWf (execFabricPut fr s) :=
  outWf_receive h (fun _ hz => memWf_fabPut hz)

theorem outWf_execFabricGet {fr : Frame} (h : s.memWf = true) : OutWf (execFabricGet fr s) :=
  outWf_receive h (fun _ hz => memWf_fabGet hz)

theorem outWf_execFabricGetResponse {fr : Frame} (h : s.memWf = true) : OutWf (execFabricGetResponse fr s) :=
  outWf_receive h (fun _ hz => memWf_fabPut hz)

theorem outWf_execFabricChannelSend {fr : Frame} (h : s.memWf = true) : OutWf (execFabricChannelSend fr s) :=
  outWf_receive h (fun _ hz => memWf_fabSend hz)

theorem outWf_execFabricSwarmArrival {fr : Frame} (h : s.memWf = true) : OutWf (execFabricSwarmArrival fr s) :=
  outWf_receive h (fun _ hz => memWf_fabArrival hz)

theorem outWf_execFabricSwarmResult {fr : Frame} (h : s.memWf = true) : OutWf (execFabricSwarmResult fr s) :=
  outWf_receive h (fun _ hz => memWf_fabResult hz)

theorem outWf_execFabricCollectiveData {fr : Frame} (h : s.memWf = true) : OutWf (execFabricCollectiveData fr s) :=
  outWf_receive h (fun _ hz => memWf_fabColl hz)

theorem outWf_execFabricCreditReturn {fr : Frame} (h : s.memWf = true) : OutWf (execFabricCreditReturn fr s) :=
  outWf_receive h fun _ hz => hz

theorem outWf_execFabricTrigger {fr : Frame} (h : s.memWf = true) : OutWf (execFabricTrigger fr s) :=
  outWf_ite (outWf_next (memWf_dropFrame h)) (outWf_ite (outWf_next (memWf_dropFrame h)) (outWf_next (memWf_trigger h)))

theorem memWf_deliverArrival {a : Arrival} (h : s.memWf = true) : (s.deliverArrival a).memWf = true := by
  unfold State.deliverArrival
  simp only []
  split
  · exact memWf_fabPut h
  · exact memWf_fabPut h
  · exact memWf_fabSend h
  · exact memWf_fabArrival h
  · exact memWf_fabResult h
  · exact memWf_fabColl h
  · exact h
  · exact memWf_hostWrite h
  · exact memWf_hostSend h
  · exact h

theorem outWf_execReplayDelivery {tag : Nat} (h : s.memWf = true) : OutWf (execReplayDelivery tag s) := by
  unfold execReplayDelivery
  simp only []
  refine outWf_ite ?_ ?_
  · exact outWf_next h
  · split
    · exact outWf_next h
    · exact outWf_ite (outWf_next h) (outWf_next (memWf_ite (memWf_deliverArrival h)
        ((memWf_setTenant _ _ _).trans (memWf_deliverArrival h))))

theorem memWf_deliverHeld {fr : Frame} (h : s.memWf = true) : (s.deliverHeld fr).memWf = true := by
  unfold State.deliverHeld
  split
  · exact memWf_outsideWrite h
  · exact memWf_hostWrite h
  · exact memWf_coreWrite h
  · exact memWf_outsideWrite h
  · exact memWf_fabGet h
  · exact memWf_hostSendOn h
  · exact memWf_afterRead h
  · exact h

theorem memWf_serveHeld (h : s.memWf = true) : s.serveHeld.memWf = true :=
  memWf_ite h (memWf_foldl (fun _ _ hz => memWf_deliverHeld hz) h)

/-! Scalar float operations -/

theorem outWf_fopDone {d : BitVec 5} {r : Nat × Nat} (h : s.memWf = true) : OutWf (s.fopDone d r) :=
  outWf_ite (outWf_next (memWf_trap _ _ _ h)) (outWf_next h)

theorem outWf_fopToInt {rm : BitVec 3} {unsigned : Bool} {d a : BitVec 5} {f : BitVec 2} (h : s.memWf = true) :
    OutWf (fopToInt rm unsigned d a f s) :=
  outWf_fopDone h

/-! Jumps and branches -/

theorem outWf_execFetchFault (h : s.memWf = true) : OutWf (execFetchFault s) := by
  unfold execFetchFault
  split
  · rename_i e1
    exact outWf_next (memWf_trap _ _ _ (memWf_of_fst e1 (memWf_fetch _ _ _ h)))
  · rename_i e2
    exact outWf_next (memWf_stall _ _ (memWf_of_fst e2 (memWf_fetch _ _ _ h)))
  · exact outWf_next h

theorem outWf_execBadWord {w : BitVec 32} {unc : Bool} (h : s.memWf = true) : OutWf (execBadWord w unc s) := by
  unfold execBadWord
  refine outWf_ite ?_ ?_
  · exact outWf_next (memWf_trap _ _ _ (memWf_mcheck _ _ _ _ _ _ _ _ h))
  · split
    · exact outWf_next (memWf_trap _ _ _ h)
    · exact outWf_next (memWf_trap _ _ _ h)
    · exact outWf_next h

/-! Scalar loads and stores -/

theorem outWf_load {n : Nat} {signed : Bool} {d a : BitVec 5} {o : BitVec 13} (h : s.memWf = true) : OutWf (load n signed d a o s) := by
  unfold load
  simp only []
  exact outWf_atPlace (memWf_access _ _ _ _ _ _ h) (fun _ _ hz => outWf_ite (outWf_next (memWf_trap _ _ _ (memWf_readAt _ _ _ _ hz)))
    (outWf_next ((memWf_retire _ _ _).trans (memWf_readAt _ _ _ _ hz))))

theorem outWf_storeOp {n : Nat} {d a : BitVec 5} {o : BitVec 13} (h : s.memWf = true) : OutWf (storeOp n d a o s) :=
  outWf_atPlace (memWf_access _ _ _ _ _ _ h) (fun _ _ hz => outWf_next ((memWf_retire0 _).trans (memWf_writeAt _ _ _ _ _ hz)))

/-! Scalar words -/

theorem outWf_branch {f : Word → Word → Bool} {a b : BitVec 5} {o : BitVec 13} (h : s.memWf = true) : OutWf (branch f a b o s) :=
  outWf_next h

theorem outWf_execBeq {a b : BitVec 5} {o : BitVec 13} (h : s.memWf = true) : OutWf (execBeq a b o s) :=
  outWf_branch h

theorem outWf_execBne {a b : BitVec 5} {o : BitVec 13} (h : s.memWf = true) : OutWf (execBne a b o s) :=
  outWf_branch h

theorem outWf_execBlt {a b : BitVec 5} {o : BitVec 13} (h : s.memWf = true) : OutWf (execBlt a b o s) :=
  outWf_branch h

theorem outWf_execBge {a b : BitVec 5} {o : BitVec 13} (h : s.memWf = true) : OutWf (execBge a b o s) :=
  outWf_branch h

theorem outWf_execBltu {a b : BitVec 5} {o : BitVec 13} (h : s.memWf = true) : OutWf (execBltu a b o s) :=
  outWf_branch h

theorem outWf_execBgeu {a b : BitVec 5} {o : BitVec 13} (h : s.memWf = true) : OutWf (execBgeu a b o s) :=
  outWf_branch h

theorem memWf_jump {d : BitVec 5} {t' : Word} (h : s.memWf = true) : (s.jump d t').memWf = true :=
  h

/-! Every instruction -/

theorem outWf_exec {i : Instr} (h : s.memWf = true) : OutWf (exec i s) := by
  cases i with
  | coldStart | warmStart => exact outWf_next (memWf_start h)
  | dieCoreReset => exact outWf_execDieCoreReset h
  | dieLeavesReset | tenantReleased => exact outWf_ite (outWf_next h) (outWf_next h)
  | fieldDieReset => exact outWf_execFieldDieReset h
  | ptpLockLoss | ptpLockAcquire | zreqComplete | spdmRequest | add | sub | and | or | xor | sll | srl | sra | sltS | sltU | mul
  | mulhiSs | mulhiUu | mulhiSu | quoS | quoU | remS | remU | minS | maxS | minU | maxU | addi | andi | ori | xori | slti |
  sltiu | slli | srli | srai | lhi | sptest | estat | fenceAcq =>
    exact outWf_next h
  | negotiationClose => exact outWf_next (memWf_closeNegotiation h)
  | gtbsetWrite => exact outWf_next (memWf_gtbset h)
  | ftmapWrite => exact outWf_execFtmapWrite h
  | hchipWrite => exact outWf_next (memWf_setChip h)
  | mgmtRegisterWrite => exact outWf_execMgmtRegisterWrite h
  | blockStart => exact outWf_execBlockStart h
  | convoyIssue => exact outWf_execConvoyIssue h
  | vectorTrapDelivery => exact outWf_next (memWf_ite (memWf_takeVectorTrap h) h)
  | pfAnswerTimeout => exact outWf_execPfAnswerTimeout h
  | hostPfAnswer => exact outWf_execHostPfAnswer h
  | iwlExpiry => exact outWf_execIwlExpiry h
  | waitAnswerTimeout => exact outWf_execWaitAnswerTimeout h
  | rqpopExpiry | napExpiry => exact outWf_next (memWf_ite (memWf_answer _ _ _ h) h)
  | vsyncExpiry => exact outWf_execVsyncExpiry h
  | twaitExpiry => exact outWf_execTwaitExpiry h
  | ewaitExpiry => exact outWf_next (memWf_ite (memWf_answerIf _ _ _ _ h) h)
  | eleaseExpiry => exact outWf_execEleaseExpiry h
  | engineSlotExpiry => exact outWf_execEngineSlotExpiry h
  | swarmDeadlineClose => exact outWf_next (memWf_ite (memWf_closeEpisode h) h)
  | swjoinExpiry => exact outWf_execSwjoinExpiry h
  | acqExpiry => exact outWf_execAcqExpiry h
  | sendExpiry => exact outWf_execSendExpiry h
  | recvExpiry => exact outWf_execRecvExpiry h
  | planeFlip => exact outWf_execPlaneFlip h
  | patrolScrub | combPatrolScrub => exact outWf_next (memWf_ite (memWf_checkUnit _ _ _ _ h) h)
  | zreqGo => exact outWf_execZreqGo h
  | tinvGo => exact outWf_execTinvGo h
  | tinvComplete | tenantFrozen => exact outWf_next (memWf_ite h h)
  | roreqGo => exact outWf_execRoreqGo h
  | roreqComplete => exact outWf_execRoreqComplete h
  | tenbootGo => exact outWf_execTenbootGo h
  | tenantActivate => exact outWf_execTenantActivate h
  | tenantFreeze => exact outWf_execTenantFreeze h
  | tenantThaw => exact outWf_next (memWf_ite (memWf_tencfgWrite h) h)
  | tenantRelease => exact outWf_execTenantRelease h
  | pmapWrite => exact outWf_next (memWf_ite (memWf_pmapWrite h) h)
  | weightSlotFreeMgmt => exact outWf_execWeightSlotFreeMgmt h
  | bindRecordSubmit => exact outWf_execBindRecordSubmit h
  | bindRecordRemove | apiaryWaitingRemoval => exact outWf_next (memWf_ite (memWf_unbind h) h)
  | quantumEnd => exact outWf_ite (outWf_next h) (outWf_next (memWf_unbind h))
  | powerSample => exact outWf_execPowerSample h
  | watchdogExpiry => exact outWf_execWatchdogExpiry h
  | leaseGrant => exact outWf_execLeaseGrant h
  | leaseExpiry => exact outWf_ite (outWf_next (memWf_endLease h)) (outWf_next h)
  | leaseRevoke => exact outWf_next (memWf_endLease h)
  | engineCommandStart => exact outWf_execEngineCommandStart h
  | engineCommandEnd => exact outWf_execEngineCommandEnd h
  | collectiveClose => exact outWf_execCollectiveClose h
  | ploughMoveGo => exact outWf_execPloughMoveGo h
  | ploughMoveComplete => exact outWf_execPloughMoveComplete h
  | ploughEpochEnd => exact outWf_ite (outWf_next h) (outWf_next (memWf_ite h (memWf_nextMove h)))
  | recheckRun => exact outWf_execRecheckRun h
  | debugResume => exact outWf_execDebugResume h
  | debugStep => exact outWf_execDebugStep h
  | fabricPut => exact outWf_execFabricPut h
  | fabricGet => exact outWf_execFabricGet h
  | fabricGetResponse => exact outWf_execFabricGetResponse h
  | fabricChannelSend => exact outWf_execFabricChannelSend h
  | fabricSwarmArrival => exact outWf_execFabricSwarmArrival h
  | fabricSwarmResult => exact outWf_execFabricSwarmResult h
  | fabricCollectiveData => exact outWf_execFabricCollectiveData h
  | fabricCreditReturn => exact outWf_execFabricCreditReturn h
  | fabricTrigger => exact outWf_execFabricTrigger h
  | replayDelivery => exact outWf_execReplayDelivery h
  | hostSend => exact outWf_next (memWf_hostSend (memWf_logArrival h))
  | hostMemoryWrite => exact outWf_next (memWf_ite h (memWf_hostWrite (memWf_logArrival h)))
  | hostMemoryRead => exact outWf_next (memWf_afterRead h)
  | jobRecordPost => exact outWf_execJobRecordPost h
  | ldB | ldH | ldW | ldD | ldBu | ldHu | ldWu => exact outWf_load h
  | stB | stH | stW | stD => exact outWf_storeOp h
  | amoSwap | amoCas | amoAdd | amoAnd | amoOr | amoXor | amoSmin | amoSmax | amoUmin | amoUmax | amoLd | amoFadd | amoFmin |
  amoFmax | amoQadd | amoQmul =>
    exact outWf_amo h
  | fadd | fsub | fmul | fdiv | fsqrt | fmin | fmax | fmacc | fsgnj | fsgnjn | fsgnjx | feq | flt | fle | fkind | fcvtF | fcvtFi
  | fcvtFiu =>
    exact outWf_fopDone h
  | fcvtI | fcvtIRtz | fcvtIu | fcvtIuRtz => exact outWf_fopToInt h
  | beq => exact outWf_execBeq h
  | bne => exact outWf_execBne h
  | blt => exact outWf_execBlt h
  | bge => exact outWf_execBge h
  | bltu => exact outWf_execBltu h
  | bgeu => exact outWf_execBgeu h
  | jal => exact outWf_next (memWf_jump h)
  | jalr => exact outWf_ite (outWf_next (memWf_trap _ _ _ h)) (outWf_next (memWf_jump h))
  | spcastChk | spcastMk | spcastOff | tret => exact outWf_ite (outWf_next (memWf_trap _ _ _ h)) (outWf_next h)
  | vrun => exact outWf_execVrun h
  | rqpop => exact outWf_execRqpop h
  | vsync => exact outWf_execVsync h
  | vrel => exact outWf_execVrel h
  | spawn => exact outWf_execSpawn h
  | exit => exact outWf_execExit h
  | onewSwarm => exact outWf_execOnewSwarm h
  | onewLatch => exact outWf_execOnewLatch h
  | onewChan => exact outWf_execOnewChan h
  | ofree => exact outWf_execOfree h
  | swjoin => exact outWf_execSwjoin h
  | swleave => exact outWf_execSwleave h
  | swbar | step => exact outWf_arrival h
  | acq => exact outWf_execAcq h
  | rel => exact outWf_execRel h
  | mend | adopt => exact outWf_revoke h
  | send => exact outWf_execSend h
  | recv => exact outWf_execRecv h
  | nap => exact outWf_ite (outWf_next (memWf_finishWait _ _ _ h)) (outWf_next h)
  | eleaseCopy | eleaseComp | eleaseColl => exact outWf_elease h
  | efree => exact outWf_execEfree h
  | ecopy | ecopyTfill | ecomp | ecoll | tdrain => exact outWf_issue h
  | ewait => exact outWf_execEwait h
  | tstat => exact outWf_execTstat h
  | twait => exact outWf_execTwait h
  | tsetEmpty | tsetReady => exact outWf_tset h
  | fence | fenceRel => exact outWf_fenceWait h
  | cfgrd => exact outWf_execCfgrd h
  | cfgwr => exact outWf_execCfgwr h
  | trap => exact outWf_next (memWf_trapAfter _ _ _ ((memWf_setH _ _).trans (memWf_count _ _ _ _ h)))
  | brk => exact outWf_next (memWf_trap _ _ _ h)
  | tmark => exact outWf_execTmark h
  | cregNew => exact outWf_execCregNew h
  | cregFree => exact outWf_execCregFree h
  | cregFind => exact outWf_execCregFind h
  | vcfg => exact outWf_execVcfg h
  | vsetl | vsetlMax => exact outWf_next (memWf_grant h)
  | vloop | vloopR => exact outWf_vloop h
  | vlend p _ _ => exact outWf_execVlend (p := p) h
  | vexit p _ _ => exact outWf_execVexit (p := p) h
  | vreply p _ _ => exact outWf_execVreply (p := p) h
  | vend c => exact outWf_execVend (c := c) h
  | sadd p _ _ _ => exact outWf_execSadd (p := p) h
  | ssub p _ _ _ => exact outWf_execSsub (p := p) h
  | sand p _ _ _ => exact outWf_execSand (p := p) h
  | sor p _ _ _ => exact outWf_execSor (p := p) h
  | sxor p _ _ _ => exact outWf_execSxor (p := p) h
  | ssll p _ _ _ => exact outWf_execSsll (p := p) h
  | ssrl p _ _ _ => exact outWf_execSsrl (p := p) h
  | smul p _ _ _ => exact outWf_execSmul (p := p) h
  | sminu p _ _ _ => exact outWf_execSminu (p := p) h
  | smaxu p _ _ _ => exact outWf_execSmaxu (p := p) h
  | saddi | sli | vpmclr => exact outWf_next (memWf_vdone h)
  | vcfgrd p _ _ => exact outWf_execVcfgrd (p := p) h
  | vld p _ _ _ p' => exact outWf_execVld (p := p) (p' := p') h
  | vldBo p _ _ _ _ p' => exact outWf_execVldBo (p := p) (p' := p') h
  | vldS p _ _ _ _ p' => exact outWf_execVldS (p := p) (p' := p') h
  | vldT p _ _ _ _ p' => exact outWf_execVldT (p := p) (p' := p') h
  | vldFf p _ _ _ p' => exact outWf_execVldFf (p := p) (p' := p') h
  | vldFfBo p _ _ _ _ p' => exact outWf_execVldFfBo (p := p) (p' := p') h
  | vldx p _ _ _ _ _ _ => exact outWf_execVldx (p := p) h
  | vldd p _ _ _ => exact outWf_execVldd (p := p) h
  | vlddX p _ _ _ _ _ => exact outWf_execVlddX (p := p) h
  | vst p _ _ _ p' => exact outWf_execVst (p := p) (p' := p') h
  | vstS p _ _ _ _ p' => exact outWf_execVstS (p := p) (p' := p') h
  | vstT p _ _ _ _ p' => exact outWf_execVstT (p := p) (p' := p') h
  | vstApp p _ _ _ _ p' => exact outWf_execVstApp (p := p) (p' := p') h
  | vstx p _ _ _ _ _ _ => exact outWf_execVstx (p := p) h
  | vstd p _ _ _ => exact outWf_execVstd (p := p) h
  | vbopAdd | vbopAnd | vbopOr | vbopXor | vbopSmin | vbopSmax | vbopFadd | vbopQadd => exact outWf_vbop h
  | vaddVv p _ _ _ _ => exact outWf_execVaddVv (p := p) h
  | vaddVi p _ _ _ _ => exact outWf_execVaddVi (p := p) h
  | vaddVx p _ _ _ _ => exact outWf_execVaddVx (p := p) h
  | vsubVv p _ _ _ _ => exact outWf_execVsubVv (p := p) h
  | vsubVx p _ _ _ _ => exact outWf_execVsubVx (p := p) h
  | vrsubVx p _ _ _ _ => exact outWf_execVrsubVx (p := p) h
  | vrsubVi p _ _ _ _ => exact outWf_execVrsubVi (p := p) h
  | vmulVv p _ _ _ _ => exact outWf_execVmulVv (p := p) h
  | vmulVx p _ _ _ _ => exact outWf_execVmulVx (p := p) h
  | vmulh p _ _ _ _ => exact outWf_execVmulh (p := p) h
  | vmulhuVv p _ _ _ _ => exact outWf_execVmulhuVv (p := p) h
  | vmulhuVx p _ _ _ _ => exact outWf_execVmulhuVx (p := p) h
  | vmulhsu p _ _ _ _ => exact outWf_execVmulhsu (p := p) h
  | vsadd p _ _ _ _ => exact outWf_execVsadd (p := p) h
  | vsaddu p _ _ _ _ => exact outWf_execVsaddu (p := p) h
  | vssub p _ _ _ _ => exact outWf_execVssub (p := p) h
  | vandVv p _ _ _ _ => exact outWf_execVandVv (p := p) h
  | vandVx p _ _ _ _ => exact outWf_execVandVx (p := p) h
  | vorVv p _ _ _ _ => exact outWf_execVorVv (p := p) h
  | vorVx p _ _ _ _ => exact outWf_execVorVx (p := p) h
  | vxorVv p _ _ _ _ => exact outWf_execVxorVv (p := p) h
  | vxorVi p _ _ _ _ => exact outWf_execVxorVi (p := p) h
  | vxorVx p _ _ _ _ => exact outWf_execVxorVx (p := p) h
  | vandn p _ _ _ _ => exact outWf_execVandn (p := p) h
  | vmergeVv p _ _ _ _ => exact outWf_execVmergeVv (p := p) h
  | vmergeVx p _ _ _ _ => exact outWf_execVmergeVx (p := p) h
  | vmergeVi p _ _ _ _ => exact outWf_execVmergeVi (p := p) h
  | vmin p _ _ _ _ => exact outWf_execVmin (p := p) h
  | vminu p _ _ _ _ => exact outWf_execVminu (p := p) h
  | vmax p _ _ _ _ => exact outWf_execVmax (p := p) h
  | vmaxu p _ _ _ _ => exact outWf_execVmaxu (p := p) h
  | vssubu p _ _ _ _ => exact outWf_execVssubu (p := p) h
  | vsllVv p _ _ _ _ => exact outWf_execVsllVv (p := p) h
  | vsllVi p _ _ _ _ => exact outWf_execVsllVi (p := p) h
  | vsrlVv p _ _ _ _ => exact outWf_execVsrlVv (p := p) h
  | vsrlVi p _ _ _ _ => exact outWf_execVsrlVi (p := p) h
  | vsraVv p _ _ _ _ => exact outWf_execVsraVv (p := p) h
  | vsraVi p _ _ _ _ => exact outWf_execVsraVi (p := p) h
  | vmseqVv p _ _ _ _ => exact outWf_execVmseqVv (p := p) h
  | vmseqVx p _ _ _ _ => exact outWf_execVmseqVx (p := p) h
  | vmsne p _ _ _ _ => exact outWf_execVmsne (p := p) h
  | vmslt p _ _ _ _ => exact outWf_execVmslt (p := p) h
  | vmsltuVv p _ _ _ _ => exact outWf_execVmsltuVv (p := p) h
  | vmsle p _ _ _ _ => exact outWf_execVmsle (p := p) h
  | vmsleu p _ _ _ _ => exact outWf_execVmsleu (p := p) h
  | vmsgt p _ _ _ _ => exact outWf_execVmsgt (p := p) h
  | vmsgtu p _ _ _ _ => exact outWf_execVmsgtu (p := p) h
  | vmsltuVx p _ _ _ _ => exact outWf_execVmsltuVx (p := p) h
  | vbslVx p _ _ _ => exact outWf_execVbslVx (p := p) h
  | vbslVi p _ _ _ => exact outWf_execVbslVi (p := p) h
  | vbsrVx p _ _ _ => exact outWf_execVbsrVx (p := p) h
  | vbsrVi p _ _ _ => exact outWf_execVbsrVi (p := p) h
  | vfsl p _ _ _ => exact outWf_execVfsl (p := p) h
  | vfsr p _ _ _ => exact outWf_execVfsr (p := p) h
  | vpopc p _ _ _ => exact outWf_execVpopc (p := p) h
  | vclz p _ _ _ => exact outWf_execVclz (p := p) h
  | vctz p _ _ _ => exact outWf_execVctz (p := p) h
  | vbrev p _ _ _ => exact outWf_execVbrev (p := p) h
  | vxchVx p _ _ _ _ => exact outWf_execVxchVx (p := p) h
  | vxchVi p _ _ _ _ => exact outWf_execVxchVi (p := p) h
  | vslideupVx p _ _ _ _ => exact outWf_execVslideupVx (p := p) h
  | vslideupVi p _ _ _ _ => exact outWf_execVslideupVi (p := p) h
  | vslidednVx p _ _ _ _ => exact outWf_execVslidednVx (p := p) h
  | vslidednVi p _ _ _ _ => exact outWf_execVslidednVi (p := p) h
  | vslide1up p _ _ _ _ => exact outWf_execVslide1up (p := p) h
  | vslide1dn p _ _ _ _ => exact outWf_execVslide1dn (p := p) h
  | vpullVv p _ _ _ _ => exact outWf_execVpullVv (p := p) h
  | vpullVx p _ _ _ _ => exact outWf_execVpullVx (p := p) h
  | vpush p _ _ _ _ => exact outWf_execVpush (p := p) h
  | vcompress p _ _ _ => exact outWf_execVcompress (p := p) h
  | vextr p _ _ _ => exact outWf_execVextr (p := p) h
  | vredsum p _ _ _ _ => exact outWf_execVredsum (p := p) h
  | vredsums p _ _ _ _ => exact outWf_execVredsums (p := p) h
  | vredmax p _ _ _ _ => exact outWf_execVredmax (p := p) h
  | vredmaxu p _ _ _ _ => exact outWf_execVredmaxu (p := p) h
  | vredmin p _ _ _ _ => exact outWf_execVredmin (p := p) h
  | vredminu p _ _ _ _ => exact outWf_execVredminu (p := p) h
  | vredand p _ _ _ _ => exact outWf_execVredand (p := p) h
  | vredor p _ _ _ _ => exact outWf_execVredor (p := p) h
  | vredxor p _ _ _ _ => exact outWf_execVredxor (p := p) h
  | vscansum p _ _ _ _ => exact outWf_execVscansum (p := p) h
  | vscanmax p _ _ _ _ => exact outWf_execVscanmax (p := p) h
  | vscanmin p _ _ _ _ => exact outWf_execVscanmin (p := p) h
  | vxscansum p _ _ _ _ => exact outWf_execVxscansum (p := p) h
  | vscanmaxu p _ _ _ _ => exact outWf_execVscanmaxu (p := p) h
  | vscanminu p _ _ _ _ => exact outWf_execVscanminu (p := p) h
  | mkand p _ _ _ _ => exact outWf_execMkand (p := p) h
  | mkor p _ _ _ _ => exact outWf_execMkor (p := p) h
  | mkxor p _ _ _ _ => exact outWf_execMkxor (p := p) h
  | mkandn p _ _ _ _ => exact outWf_execMkandn (p := p) h
  | mknot p _ _ _ => exact outWf_execMknot (p := p) h
  | mkfill p _ _ => exact outWf_execMkfill (p := p) h
  | mkspreadI p _ _ _ => exact outWf_execMkspreadI (p := p) h
  | mkspreadX p _ _ _ => exact outWf_execMkspreadX (p := p) h
  | mkparity p _ _ _ => exact outWf_execMkparity (p := p) h
  | mkfirst p _ _ _ => exact outWf_execMkfirst (p := p) h
  | mkcount p _ _ _ => exact outWf_execMkcount (p := p) h
  | mkfind p _ _ _ => exact outWf_execMkfind (p := p) h
  | mkfindL p _ _ _ => exact outWf_execMkfindL (p := p) h
  | vrank p _ _ _ => exact outWf_execVrank (p := p) h
  | vfaddVv p _ _ _ _ => exact outWf_execVfaddVv (p := p) h
  | vfaddVx p _ _ _ _ => exact outWf_execVfaddVx (p := p) h
  | vfsubVv p _ _ _ _ => exact outWf_execVfsubVv (p := p) h
  | vfsubVx p _ _ _ _ => exact outWf_execVfsubVx (p := p) h
  | vfrsub p _ _ _ _ => exact outWf_execVfrsub (p := p) h
  | vfmulVv p _ _ _ _ => exact outWf_execVfmulVv (p := p) h
  | vfmulVx p _ _ _ _ => exact outWf_execVfmulVx (p := p) h
  | vfdivVv p _ _ _ _ => exact outWf_execVfdivVv (p := p) h
  | vfdivVx p _ _ _ _ => exact outWf_execVfdivVx (p := p) h
  | vfrdiv p _ _ _ _ => exact outWf_execVfrdiv (p := p) h
  | vfsqrt p _ _ _ => exact outWf_execVfsqrt (p := p) h
  | vfmin p _ _ _ _ => exact outWf_execVfmin (p := p) h
  | vfmax p _ _ _ _ => exact outWf_execVfmax (p := p) h
  | vfsgnj p _ _ _ _ => exact outWf_execVfsgnj (p := p) h
  | vfsgnjn p _ _ _ _ => exact outWf_execVfsgnjn (p := p) h
  | vfsgnjx p _ _ _ _ => exact outWf_execVfsgnjx (p := p) h
  | vfmacPpVv p _ _ _ _ => exact outWf_execVfmacPpVv (p := p) h
  | vfmacPpVx p _ _ _ _ => exact outWf_execVfmacPpVx (p := p) h
  | vfmacNn p _ _ _ _ => exact outWf_execVfmacNn (p := p) h
  | vfmacPn p _ _ _ _ => exact outWf_execVfmacPn (p := p) h
  | vfmacNp p _ _ _ _ => exact outWf_execVfmacNp (p := p) h
  | vfmad p _ _ _ _ => exact outWf_execVfmad (p := p) h
  | vfcmpEqVv p _ _ _ _ => exact outWf_execVfcmpEqVv (p := p) h
  | vfcmpEqVx p _ _ _ _ => exact outWf_execVfcmpEqVx (p := p) h
  | vfcmpLtVv p _ _ _ _ => exact outWf_execVfcmpLtVv (p := p) h
  | vfcmpLe p _ _ _ _ => exact outWf_execVfcmpLe (p := p) h
  | vfcmpGt p _ _ _ _ => exact outWf_execVfcmpGt (p := p) h
  | vfcmpGe p _ _ _ _ => exact outWf_execVfcmpGe (p := p) h
  | vfcmpLtVx p _ _ _ _ => exact outWf_execVfcmpLtVx (p := p) h
  | vfcmpNe p _ _ _ _ => exact outWf_execVfcmpNe (p := p) h
  | vfkind p _ _ _ => exact outWf_execVfkind (p := p) h
  | vfcmpUn p _ _ _ _ => exact outWf_execVfcmpUn (p := p) h
  | vfcvt | vfcvtU | vfcvtRtz | vfcvtURtz => exact outWf_convert h
  | vdrescale p _ _ _ _ => exact outWf_execVdrescale (p := p) h
  | vfsumO p _ _ _ _ => exact outWf_execVfsumO (p := p) h
  | vfsumT p _ _ _ _ => exact outWf_execVfsumT (p := p) h
  | vfredmax p _ _ _ _ => exact outWf_execVfredmax (p := p) h
  | vfredmin p _ _ _ _ => exact outWf_execVfredmin (p := p) h
  | vrand p _ _ => exact outWf_execVrand (p := p) h
  | vqaddVv p _ _ _ _ => exact outWf_execVqaddVv (p := p) h
  | vqaddVx p _ _ _ _ => exact outWf_execVqaddVx (p := p) h
  | vqsubVv p _ _ _ _ => exact outWf_execVqsubVv (p := p) h
  | vqsubVx p _ _ _ _ => exact outWf_execVqsubVx (p := p) h
  | vqrsub p _ _ _ _ => exact outWf_execVqrsub (p := p) h
  | vqmulVv p _ _ _ _ => exact outWf_execVqmulVv (p := p) h
  | vqmulVx p _ _ _ _ => exact outWf_execVqmulVx (p := p) h
  | vqdivVv p _ _ _ _ => exact outWf_execVqdivVv (p := p) h
  | vqdivVx p _ _ _ _ => exact outWf_execVqdivVx (p := p) h
  | vqrdiv p _ _ _ _ => exact outWf_execVqrdiv (p := p) h
  | vqneg p _ _ _ => exact outWf_execVqneg (p := p) h
  | vqinv p _ _ _ => exact outWf_execVqinv (p := p) h
  | vqmaccVv p _ _ _ _ => exact outWf_execVqmaccVv (p := p) h
  | vqmaccVx p _ _ _ _ => exact outWf_execVqmaccVx (p := p) h
  | vqeqVv p _ _ _ _ => exact outWf_execVqeqVv (p := p) h
  | vqeqVx p _ _ _ _ => exact outWf_execVqeqVx (p := p) h
  | vqencVv p _ _ _ _ => exact outWf_execVqencVv (p := p) h
  | vqencVx p _ _ _ _ => exact outWf_execVqencVx (p := p) h
  | vqencVi p _ _ _ _ => exact outWf_execVqencVi (p := p) h
  | vqdec p _ _ _ => exact outWf_execVqdec (p := p) h
  | vqdigVx p _ _ _ _ => exact outWf_execVqdigVx (p := p) h
  | vqdigVi p _ _ _ _ => exact outWf_execVqdigVi (p := p) h
  | vqval p _ _ _ => exact outWf_execVqval (p := p) h
  | mmrow p _ _ _ _ _ _ => exact outWf_execMmrow (p := p) h
  | mwld p _ _ _ => exact outWf_execMwld (p := p) h
  | mwclr p _ => exact outWf_execMwclr (p := p) h
  | vpclr p _ => exact outWf_execVpclr (p := p) h
  | vpmask p _ _ => exact outWf_execVpmask (p := p) h
  | vid p _ => exact outWf_execVid (p := p) h
  | vmvR p _ _ _ => exact outWf_execVmvR (p := p) h
  | vstBo p _ _ _ _ p' => exact outWf_execVstBo (p := p) (p' := p') h
  | badWord => exact outWf_execBadWord h
  | fetchFault => exact outWf_execFetchFault h
  | hartKill => exact outWf_next (memWf_endHart _ _ h)
  | chipIncarnationAnnouncement => exact outWf_execChipIncarnationAnnouncement h
  | fabricFrameDrop => exact outWf_ite (outWf_next (memWf_ite h (memWf_dropFrame h))) (outWf_next (memWf_dropFrame h))
  | tenbootComplete => exact outWf_execTenbootComplete h
  | unbindingComplete => exact outWf_execUnbindingComplete h
  | eleaseRenew d a t r => exact outWf_execEleaseRenew (t' := t) (r := r) h

/-! Moves and the next step -/

theorem outWf_foragerWord (h : s.memWf = true) : OutWf s.foragerWord := by
  unfold State.foragerWord
  split
  · rename_i e1
    exact outWf_next (memWf_trap _ _ _ (memWf_of_fst e1 (memWf_fetch _ _ _ h)))
  · rename_i e2
    exact outWf_next (memWf_stall _ _ (memWf_of_fst e2 (memWf_fetch _ _ _ h)))
  · rename_i e3
    have hw := memWf_of_fst e3 (memWf_fetch _ _ _ h)
    split
    · exact outWf_exec hw
    · exact outWf_exec hw

theorem memWf_spent {pc : Word} (h : s.memWf = true) : (s.spent pc).memWf = true :=
  memWf_ite h h

theorem outWf_foragerMove (h : s.memWf = true) : OutWf s.foragerMove := by
  unfold State.foragerMove
  refine outWf_ite ?_ ?_
  · exact outWf_next h
  · refine outWf_ite ?_ ?_
    · exact outWf_next (memWf_ite h (memWf_spent (memWf_completeBegun h)))
    · split
      · rename_i e1
        exact outWf_next (memWf_of_fst e1 (memWf_foragerBreak h))
      · rename_i e2
        have hw := memWf_of_fst e2 (memWf_foragerBreak h)
        split
        · rename_i e3
          exact outWf_next (optWf_ite (optWf_boundary hw) optWf_none _ e3)
        · split
          · rename_i e4
            exact outWf_next (memWf_spent (outWf_foragerWord hw _ e4))
          · exact outWf_foragerWord hw

theorem memWf_wordBreak (h : s.memWf = true) : (s.wordBreak).1.memWf = true :=
  memWf_fst_ite h (memWf_meet h)

theorem outWf_vectorWord (h : s.memWf = true) : OutWf s.vectorWord := by
  unfold State.vectorWord
  split
  · rename_i e1
    exact outWf_next (memWf_of_fst e1 (memWf_wordBreak h))
  · rename_i e2
    have hw := memWf_of_fst e2 (memWf_wordBreak h)
    split
    · exact outWf_exec hw
    · exact outWf_next hw

theorem memWf_countWork (ht : t.memWf = true) : (s.countWork t).memWf = true :=
  memWf_ite (memWf_count _ _ _ _ (memWf_count _ _ _ _ ht)) ht

theorem outWf_vectorMove (h : s.memWf = true) : OutWf s.vectorMove := by
  unfold State.vectorMove
  refine outWf_ite ?_ ?_
  · exact outWf_next h
  · refine outWf_ite ?_ ?_
    · exact outWf_ite (outWf_next h) (outWf_exec h)
    · refine outWf_ite ?_ ?_
      · exact outWf_exec h
      · split
        · rename_i e
          exact outWf_next (memWf_countWork (outWf_vectorWord h _ e))
        · exact outWf_vectorWord h

theorem memWf_account (h : s.memWf = true) : s.account.memWf = true := by
  unfold State.account
  simp only []
  split
  · exact h
  · exact (memWf_setH _ _).trans (memWf_count _ _ _ _ h)
  · exact (memWf_setH _ _).trans (memWf_count _ _ _ _ h)
  · exact h
  · exact h
  · exact (memWf_setH _ _).trans (memWf_count _ _ _ _ h)

theorem memWf_countStall {c : Nat} {h' : Hart} (h : s.memWf = true) : (s.countStall c h').memWf = true :=
  memWf_ite (memWf_count _ _ _ _ h) h

theorem memWf_stallRecord {h' : Hart} {side : Side} {party : Word} {c : Nat} (h : s.memWf = true) :
    (s.stallRecord t h' side party c).memWf = true :=
  memWf_ite (memWf_traceHart _ _ _ _ _ _ h) h

theorem memWf_endStall {h' : Hart} {side : Side} (ht : t.memWf = true) : (s.endStall h' t side).memWf = true := by
  unfold State.endStall
  split
  · exact ht
  · exact memWf_ite ht ((memWf_updHart _ _ _).trans (memWf_stallRecord ht))

theorem memWf_endStalls (ht : t.memWf = true) : (s.endStalls t).memWf = true :=
  memWf_foldl (fun _ _ hz => memWf_endStall (memWf_endStall hz)) ht

theorem memWf_serveSlots (h : s.memWf = true) : s.serveSlots.memWf = true :=
  memWf_foldl (fun _ _ hz => memWf_fillSlots hz) h

theorem memWf_goOn (ht : t.memWf = true) : (s.goOn t).memWf = true :=
  memWf_serveChans (memWf_serveHeld (memWf_serveSlots (memWf_endStalls ht)))

theorem memWf_settle (ht : t.memWf = true) : (s.settle t).memWf = true :=
  memWf_goOn (memWf_account ht)

theorem outWf_run {f : State → Out} (h : s.memWf = true) (hf : ∀ z, z.memWf = true → OutWf (f z)) : OutWf (s.run f) := by
  unfold State.run
  split
  · rename_i z e
    exact outWf_next (memWf_settle (hf s.idle h z e))
  · exact hf s.idle h

theorem memWf_nextScrub (h : s.memWf = true) : s.nextScrub.memWf = true :=
  memWf_ite h h

theorem memWf_withTime {g : Nat} {k : Hart} {l : List Hart} (h : s.memWf = true) :
    ({ s with gtb := g, h := k, pool := l } : State).memWf = true := h

theorem memWf_pass (h : s.memWf = true) : s.pass.memWf = true := by
  have h1 := memWf_foldl (l := s.boundTenants) (fun z x hz => memWf_count z x 0 (s.cyclesIn s.gtb (s.gtb + 1)) hz) (memWf_nextScrub h)
  have h2 := memWf_foldl (l := s.harts) (fun z x hz => memWf_countStall (c := s.cyclesIn s.gtb (s.gtb + 1)) (h' := x) hz) h1
  exact memWf_withTime (memWf_foldl (fun _ _ hz => hz) (memWf_foldl (fun _ _ hz => hz) h2))

theorem memWf_tick (h : s.memWf = true) : s.tick.memWf = true :=
  memWf_goOn (memWf_readyChildren (memWf_sendSlow (memWf_landPackets (memWf_pass h))))

theorem memWf_rotate (h : s.memWf = true) : s.rotate.memWf = true := by
  unfold State.rotate
  split
  · exact h
  · exact h

theorem outWf_event {i : Instr} (h : s.memWf = true) : OutWf (s.event i) :=
  outWf_run h (fun _ hz => outWf_exec hz)

theorem outWf_moveForager {hid : Nat} (h : s.memWf = true) : OutWf (s.moveForager hid) :=
  outWf_ite (outWf_run (memWf_hold h) (fun _ hz => outWf_foragerMove hz)) (outWf_next h)

theorem outWf_moveVector {hid : Nat} (h : s.memWf = true) : OutWf (s.moveVector hid) :=
  outWf_ite (outWf_run (memWf_hold h) (fun _ hz => outWf_vectorMove hz)) (outWf_next h)

theorem outWf_move {x : Who} (h : s.memWf = true) : OutWf (s.move x) := by
  unfold State.move
  split
  · exact outWf_moveForager h
  · exact outWf_moveVector h
  · exact outWf_ite (outWf_event h) outWf_fault

theorem outWf_wait {m : Move} {rest : List Move} (h : s.memWf = true) : OutWf (s.wait m rest) := by
  unfold State.wait
  split
  · exact outWf_event h
  · exact outWf_next (State.memWf_of_eq (memWf_tick h) rfl rfl)

theorem outWf_ownMove (h : s.memWf = true) : OutWf s.ownMove := by
  unfold State.ownMove
  refine outWf_ite ?_ ?_
  · exact outWf_event h
  · split
    · exact outWf_moveForager h
    · exact outWf_moveVector h
    · split
      · exact outWf_event h
      · exact outWf_next h
    · split
      · exact outWf_event h
      · exact outWf_next (State.memWf_of_eq (memWf_rotate (memWf_tick h)) rfl rfl)

theorem outWf_plannedTest {m : Move} {rest : List Move} (h : s.memWf = true) : OutWf (s.plannedTest m rest) := by
  unfold State.plannedTest
  split
  · exact outWf_event h
  · split
    · exact outWf_move h
    · exact outWf_ite (outWf_next h) (outWf_move h)

theorem outWf_nextMove (h : s.memWf = true) : OutWf s.next := by
  unfold State.next
  split
  · exact outWf_ownMove h
  · exact outWf_ite (outWf_wait h) (outWf_ite (outWf_plannedTest h) (outWf_move h))

end Sys2Proof.Machine

namespace Sys2Proof.Claims
open Sys2Proof.Machine

/-- Settles O53: every move of the plan and of the machine keeps the canonical form (`outWf_nextMove`), since every instruction and event does
(`outWf_exec`). -/
theorem stepMemory : Obligations.StepMemory := by
  unfold Obligations.StepMemory
  exact fun s t h e => outWf_nextMove h t e

end Sys2Proof.Claims
end

section
/-! PROOFS. The loops of the vector side (O38). -/

namespace Sys2Proof.Machine

/-! Fetches -/

/-- A fetch leaves alone what an access does. -/
theorem aside_fetch (s : State) (a : Actor) (pc : Word) : Aside s (s.fetch a pc).1 := by
  have h1 := aside_access s a .fetch pc 4 4
  unfold State.fetch
  split
  · exact .refl s
  · split
    · next e => rw [e] at h1; exact h1
    · next e => rw [e] at h1; exact h1
    · next s1 pl e =>
      rw [e] at h1
      have h2 := h1.trans (aside_read s1 a.tid a.hid pl.loc 4)
      split
      next e2 =>
      rw [e2] at h2
      split
      · exact h2.trans (aside_mcheck ..)
      · exact h2

/-- A fetch leaves the vector side of the hart in hand as it was. -/
theorem fetch_vector {s s1 : State} {a : Actor} {pc : Word} {r : Fetched} (h : s.fetch a pc = (s1, r)) :
    s1.h.vx = s.h.vx ∧ s1.h.vaddr = s.h.vaddr := by
  have hu := (aside_fetch s a pc).unpended_h
  rw [h] at hu
  exact ⟨(congrArg Hart.vx hu :), (congrArg Hart.vaddr hu :)⟩

/-! Scalar-side registers -/

theorem code_of_sc {h k : Hart} (e : h.vx.sc = k.vx.sc) (i : Nat) : h.code i = k.code i := by unfold Hart.code; rw [e]

@[simp] theorem Hart.code_setCode_same (h : Hart) (n : Nat) (v : Word) : (h.setCode n v).code n = v := Tab.get_set_self ..

theorem Hart.code_setCode_other (h : Hart) (n i : Nat) (v : Word) (e : i ≠ n) : (h.setCode n v).code i = h.code i :=
  Tab.get_set_other _ _ _ _ _ e

/-- A displacement of words, as the words compute it and as the statement writes it. -/
theorem word_mul_four (f : BitVec 10) : word (4 * f.toNat) = 4 * f.zeroExtend 64 := by
  unfold word
  bv_omega

/-! Loops opened and closed -/

theorem onlyHart_vjump (s : State) (h : Hart) (p : Word) : OnlyHart s (s.vjump h p) := rfl

/-- A hart whose scalar-side registers are another's but for one that is written. -/
theorem code_of_set {h k : Hart} {n : Nat} {v : Word} (e : k.vx.sc = Tab.set 0 h.vx.sc n v) :
    k.code n = v ∧ ∀ i, i ≠ n → k.code i = h.code i :=
  ⟨(congrArg (Tab.get 0 · n) e).trans (Tab.get_set_self ..), fun i hi => (congrArg (Tab.get 0 · i) e).trans (Tab.get_set_other _ _ _ _ _ hi)⟩

theorem openLoop_zero (s : State) (c : BitVec 2) (fin : Word) (stages : Nat) :
    s.openLoop c fin stages 0 = s.vjump (s.h.setCode (16 + c.toNat) 0) (fin + 4) := by
  simp [State.openLoop]

/-- The loop that a `vloop` opens. -/
def loopAt (p : Word) (c : BitVec 2) (fin : Word) (stages count : Nat) : Loop :=
  { ctr := c.toNat, stages := stages, count := count, lim := if stages = 0 then count else count + stages - 1, top := p + 4, fin := fin }

/-- The vector context with that loop open, and with the stage predicates of its first iteration. -/
def VCtx.opened (v : VCtx) (p : Word) (c : BitVec 2) (fin : Word) (stages count : Nat) : VCtx :=
  let v1 := { v with sc := Tab.set 0 v.sc (16 + c.toNat) 0, loops := loopAt p c fin stages count :: v.loops }
  if stages = 0 then v1 else v1.predicates stages count 0

theorem openLoop_pos (s : State) (c : BitVec 2) (fin : Word) (stages count : Nat) (hc : count ≠ 0) :
    s.openLoop c fin stages count = s.vjump { s.h with vx := s.h.vx.opened s.h.vaddr c fin stages count } (s.h.vaddr + 4) := by
  have hl : (if stages = 0 then count else count + stages - 1) ≠ 0 := by split <;> omega
  simp only [State.openLoop, if_neg hc, if_neg hl]
  rfl

/-- The registers, the length and the loops of a context whose loop has been opened. -/
theorem opened_keeps (v : VCtx) (p : Word) (c : BitVec 2) (fin : Word) (stages count : Nat) :
    let u := v.opened p c fin stages count
    u.v = v.v ∧ u.vl = v.vl ∧ u.sc = Tab.set 0 v.sc (16 + c.toNat) 0 ∧ u.loops = loopAt p c fin stages count :: v.loops ∧
      u.m = if stages = 0 then v.m else (v.predicates stages count 0).m := by
  unfold VCtx.opened
  by_cases h : stages = 0
  · simp only [if_pos h, and_self]
  · simp only [if_neg h]
    exact ⟨rfl, rfl, rfl, rfl, rfl⟩

/-- What leaves a loop and those opened inside it is what stands below it. -/
theorem loopsAfterExit_eq (c : Nat) (l : List Loop) : loopsAfterExit c l = (l.dropWhile (fun y => y.ctr ≠ c)).tail := by
  induction l with
  | nil => rfl
  | cons x l ih =>
    unfold loopsAfterExit
    by_cases h : x.ctr = c
    · simp [h, List.dropWhile]
    · simp [h, List.dropWhile, ih]

/-! The words -/

theorem vloop_open {s : State} {l : BitVec 2} (f : BitVec 10) (n : BitVec 6) (stages : Nat) (h : s.h.vx.loop l.toNat ≠ none) :
    vloop l f n stages s = .next s.villop := by
  simp only [vloop, Option.isSome_iff_ne_none.mpr h, if_true]

theorem vloop_outside {s : State} {l : BitVec 2} {f : BitVec 10} (n : BitVec 6) (stages : Nat) (h : s.h.vx.loop l.toNat = none)
    (hb : s.h.inBlock (s.h.vaddr + 4 * f.zeroExtend 64) = false) :
    vloop l f n stages s = .next (s.beyond (s.h.vaddr + 4 * f.zeroExtend 64)) := by
  simp only [vloop, h, word_mul_four, hb, Option.isSome_none, Bool.false_eq_true, Bool.not_false, if_false, if_true]

theorem vloop_word {s s1 : State} {l : BitVec 2} {f : BitVec 10} {w : IWord} (n : BitVec 6) (stages : Nat)
    (h : s.h.vx.loop l.toNat = none) (hb : s.h.inBlock (s.h.vaddr + 4 * f.zeroExtend 64) = true)
    (hr : stages ≠ 0 → s.h.vx.rotating = none)
    (hf : s.fetch s.h.actor (s.h.vaddr + 4 * f.zeroExtend 64) = (s1, .word w)) (hw : isVlend w l = true) :
    vloop l f n stages s =
      .next (s1.openLoop l (s.h.vaddr + 4 * f.zeroExtend 64) stages (s.h.code n.toNat).toNat) := by
  have hk : (decide (stages ≠ 0) && s.h.vx.rotating.isSome) = false := by
    by_cases h0 : stages = 0
    · simp [h0]
    · simp [hr h0]
  rw [← code_of_sc (congrArg VCtx.sc (fetch_vector hf).1)]
  simp only [vloop, h, word_mul_four, hb, hk, hf, hw, Option.isSome_none, Bool.false_eq_true, Bool.not_true, if_false, if_true]

/-- What the statement says of a `vloop` that opens or passes over its loop. -/
theorem vloop_result {s s1 : State} {l : BitVec 2} {fin : Word} (stages count : Nat) (hv : s1.h.vx = s.h.vx) (ha : s1.h.vaddr = s.h.vaddr) :
    let t := s1.openLoop l fin stages count
    t.h.code (16 + l.toNat) = 0 ∧ (∀ i, i ≠ 16 + l.toNat → t.h.code i = s.h.code i) ∧ SameBytes s1 t ∧
      t.h.vx.v = s.h.vx.v ∧ t.h.vx.vl = s.h.vx.vl ∧
      (count = 0 → t.h.vpc = fin + 4 ∧ t.h.vx.loops = s.h.vx.loops ∧ t.h.vx.m = s.h.vx.m) ∧
      (count ≠ 0 → t.h.vpc = s.h.vaddr + 4 ∧ t.h.vx.m = (if stages = 0 then s.h.vx.m else (s.h.vx.predicates stages count 0).m) ∧
        t.h.vx.loops = loopAt s.h.vaddr l fin stages count :: s.h.vx.loops) := by
  rw [← ha, ← hv]
  have hcode : ∀ i, s.h.code i = s1.h.code i := fun i => (code_of_sc (congrArg VCtx.sc hv) i).symm
  simp only [hcode]
  by_cases hc : count = 0
  · rw [hc, openLoop_zero]
    exact ⟨Hart.code_setCode_same .., fun i hi => Hart.code_setCode_other _ _ _ _ hi, fun _ => rfl, rfl, rfl, fun _ => ⟨rfl, rfl, rfl⟩,
      fun h => absurd rfl h⟩
  · rw [openLoop_pos _ _ _ _ _ hc]
    obtain ⟨h1, h2, h3, h4, h5⟩ := opened_keeps s1.h.vx s1.h.vaddr l fin stages count
    refine ⟨?_, fun i hi => ?_, fun _ => rfl, h1, h2, fun h => absurd h hc, fun _ => ⟨rfl, h5, h4⟩⟩
    · exact (congrArg (Tab.get 0 · _) h3).trans (Tab.get_set_self ..)
    · exact (congrArg (Tab.get 0 · i) h3).trans (Tab.get_set_other _ _ _ _ _ hi)

/-- The hart after a `vlend`: its counter is one more, and the loop goes on or is closed. -/
theorem vlend_result {s : State} {c : BitVec 1} {l : BitVec 2} {b : BitVec 10} {x : Loop} (hx : s.h.vx.loop l.toNat = some x)
    (hf : s.h.vaddr = x.fin) (ht : s.h.vaddr - 4 * b.zeroExtend 64 = x.top) :
    ∃ t, exec (.vlend c l b) s = .next t ∧ t.h.code (16 + l.toNat) = s.h.code (16 + l.toNat) + 1 ∧
      (∀ i, i ≠ 16 + l.toNat → t.h.code i = s.h.code i) ∧ OnlyHart s t ∧ t.h.vx.v = s.h.vx.v ∧
      ((s.h.code (16 + l.toNat) + 1).toNat < x.lim → t.h.vpc = x.top ∧ t.h.vx.loops = s.h.vx.loops) ∧
      (x.lim ≤ (s.h.code (16 + l.toNat) + 1).toNat →
        t.h.vpc = s.h.vaddr + 4 ∧ t.h.vx.loops = s.h.vx.loops.filter (fun y => y.ctr ≠ l.toNat)) := by
  have hg : (s.h.vaddr ≠ x.fin || s.h.vaddr - word (4 * b.toNat) ≠ x.top) = false := by simp [word_mul_four, hf, ← ht]
  have he : exec (.vlend c l b) s = execVlend c l b s := rfl
  by_cases hl : (s.h.code (16 + l.toNat) + 1).toNat < x.lim
  · have hn : ¬x.lim ≤ (s.h.code (16 + l.toNat) + 1).toNat := by omega
    by_cases h0 : x.stages = 0
    · simp only [he, execVlend, hx, hg, Bool.false_eq_true, if_false, if_pos hl, if_pos h0]
      exact ⟨_, rfl, (code_of_set (by rfl)).1, (code_of_set (by rfl)).2, onlyHart_vjump .., rfl, fun _ => ⟨rfl, rfl⟩, fun h => absurd h hn⟩
    · simp only [he, execVlend, hx, hg, Bool.false_eq_true, if_false, if_pos hl, if_neg h0]
      exact ⟨_, rfl, (code_of_set (by rfl)).1, (code_of_set (by rfl)).2, onlyHart_vjump .., rfl, fun _ => ⟨rfl, rfl⟩, fun h => absurd h hn⟩
  · simp only [he, execVlend, hx, hg, Bool.false_eq_true, if_false, if_neg hl]
    exact ⟨_, rfl, (code_of_set (by rfl)).1, (code_of_set (by rfl)).2, onlyHart_vjump .., rfl, fun h => absurd h hl, fun _ => ⟨rfl, rfl⟩⟩

/-- A `vexit` of an open loop leaves it, unless its mask has no active element. -/
theorem vexit_result {s : State} {l : BitVec 2} {x : Loop} (c : BitVec 1) (m : BitVec 3) (hx : s.h.vx.loop l.toNat = some x) :
    ∃ t, exec (.vexit c l m) s = .next t ∧ OnlyHart s t ∧
      (m = 0 ∨ s.h.actives m.toNat ≠ [] → t.h.vpc = x.fin + 4 ∧
        t.h.vx.loops = (s.h.vx.loops.dropWhile (fun y => y.ctr ≠ l.toNat)).tail) ∧
      (m ≠ 0 → s.h.actives m.toNat = [] → t.h.vpc = s.h.vaddr + 4 ∧ t.h.vx = s.h.vx) := by
  have he : exec (.vexit c l m) s = execVexit c l m s := rfl
  by_cases hm : m = 0 ∨ s.h.actives m.toNat ≠ []
  · have hg : (m = 0 || !(s.h.actives m.toNat).isEmpty) = true := by simpa using hm
    simp only [he, execVexit, hx, hg, if_true]
    exact ⟨_, rfl, rfl, fun _ => ⟨rfl, loopsAfterExit_eq ..⟩, fun h0 h1 => absurd hm (not_or.mpr ⟨h0, not_not.mpr h1⟩)⟩
  · have hg : (m = 0 || !(s.h.actives m.toNat).isEmpty) = false := by simpa using hm
    simp only [he, execVexit, hx, hg, Bool.false_eq_true, if_false]
    exact ⟨_, rfl, rfl, fun h => absurd h hm, fun _ _ => ⟨rfl, rfl⟩⟩

end Sys2Proof.Machine

namespace Sys2Proof.Claims
open Sys2Proof.Machine

/-- Settles O38: each word by its own lemma, a `vloop` through what a fetch leaves alone. -/
theorem loopResults : Obligations.LoopResults := by
  unfold Obligations.LoopResults
  intro s c l k f b n m
  refine ⟨?_, fun x hx hf ht => vlend_result hx hf ht, fun x hx => vexit_result c m hx, ?_, ?_⟩
  · intro fin s1 w hl hb hf hw e he hr count
    obtain ⟨hv, ha⟩ := fetch_vector hf
    simp only [List.mem_cons, List.not_mem_nil, or_false] at he
    obtain rfl | rfl := he
    · exact ⟨_, vloop_word n 0 hl hb hr hf hw, vloop_result 0 count hv ha⟩
    · exact ⟨_, vloop_word n (k.toNat + 1) hl hb hr hf hw, vloop_result (k.toNat + 1) count hv ha⟩
  · intro hl i hi
    simp only [List.mem_cons, List.not_mem_nil, or_false] at hi
    obtain rfl | rfl := hi
    · show execVlend c l b s = _
      simp only [execVlend, hl]
    · show execVexit c l m s = _
      simp only [execVexit, hl]
  · intro fin i hi
    simp only [List.mem_cons, List.not_mem_nil, or_false] at hi
    obtain rfl | rfl := hi
    · exact ⟨vloop_open f n 0, vloop_outside n 0⟩
    · exact ⟨vloop_open f n (k.toNat + 1), vloop_outside n (k.toNat + 1)⟩

end Sys2Proof.Claims
end

section
/-! PROOFS. The traps of the forager that deadlines and words raise (O55). -/

namespace Sys2Proof.Machine

/-! Trap entry -/

/-- A trap whose handler can be fetched writes the registers of R394, and nothing else of the hart. -/
theorem entered_enterTrap {s : State} {cause : Nat} (tval tepc : Word) (vs : Bool) (h : s.handlerOk cause = true) :
    Entered s.h (s.enterTrap cause tval tepc vs).h cause tval tepc vs := by
  unfold State.enterTrap
  rw [if_pos h]
  refine ⟨rfl, rfl, rfl, rfl, rfl, rfl, ?_⟩
  simp only [Hart.enter, ite_self]

/-- A trap of another cause than PAGE is entered at once. -/
theorem trap_eq_enterTrap {s : State} {cause : Nat} (tval : Word) (h : cause ≠ cPAGE) :
    s.trap cause tval = s.enterTrap cause tval s.h.pc false := by
  have ht : tablePage cause tval = false := by simp [tablePage, h]
  simp only [State.trap, State.takeTrap, Hart.pageMet, ht, Bool.false_eq_true, if_false, h, decide_false, Bool.false_and, State.setH]

theorem entered_trap {s : State} {cause : Nat} (tval : Word) {pc : Word} (hpc : s.h.pc = pc) (hc : cause ≠ cPAGE)
    (h : s.handlerOk cause = true) : Entered s.h (s.trap cause tval).h cause tval pc false := by
  rw [trap_eq_enterTrap tval hc, ← hpc]
  exact entered_enterTrap tval s.h.pc false h

/-! A hart taken in hand -/

/-- The hart in hand is the one that its id names. -/
theorem h_hold {s : State} {hid : Nat} {h : Hart} (hh : s.hart hid = some h) : (s.hold hid).h = h := by
  unfold State.hart State.harts at hh
  unfold State.hold
  by_cases hl : s.h.live = true
  · by_cases hi : s.h.hid = hid
    · simp_all
    · simp_all
  · simp_all

/-- Taking a hart in hand moves harts alone. -/
theorem hold_only (s : State) (hid : Nat) : { s.hold hid with h := s.h, pool := s.pool } = s := by
  unfold State.hold
  split
  · rfl
  · split <;> rfl

theorem gtb_hold (s : State) (hid : Nat) : (s.hold hid).gtb = s.gtb := (congrArg State.gtb (hold_only s hid) :)
theorem mem_hold (s : State) (hid : Nat) : (s.hold hid).mem = s.mem := (congrArg State.mem (hold_only s hid) :)
theorem core_hold (s : State) (hid c : Nat) : (s.hold hid).core c = s.core c := (congrArg (State.core · c) (hold_only s hid) :)

/-! Results that come while the hart in hand does not wait -/

theorem h_answer {s : State} (hw : s.h.waiting = false) (hid : Nat) (v : Word) : (s.answer hid v).h = s.h := by
  unfold State.answer
  split
  · rfl
  · next k hk =>
    split
    · next hkw =>
      have hn : (s.h.live && s.h.hid == hid) = false := by
        by_contra hc
        simp only [Bool.not_eq_false, Bool.and_eq_true, beq_iff_eq] at hc
        rw [State.hart_self hc.1 hc.2, Option.some.injEq] at hk
        rw [← hk, hw] at hkw
        exact Bool.noConfusion hkw
      have hu : ((s.traceHart k 5 0 k.pc v).updHart hid (fun x => x.answer s.gtb v)).h = s.h := by
        simp [onHid, hn]
      simp only []
      split
      · exact (congrArg State.h (count_only ..) :).trans hu
      · exact hu
    · rfl

theorem h_respond {s : State} (hw : s.h.waiting = false) (hid : Nat) (w : Wait) (v : Word) : (s.respond hid w v 0 none).h = s.h := by
  have hs : s.updHart hid (fun h => h.takes 0 none) = s := updHart_id s hid
  unfold State.respond
  rw [hs]
  split
  · exact h_answer hw ..
  · split
    · exact h_answer hw ..
    · split <;> rfl

theorem h_answerIf {s : State} (hw : s.h.waiting = false) (hid : Nat) (p : WaitKind → Bool) (v : Word) : (s.answerIf hid p v).h = s.h := by
  unfold State.answerIf
  split
  · split
    · exact h_respond hw ..
    · rfl
  · rfl

/-! A command withdrawn -/

/-- What a withdrawn command leaves to a hart that does not wait: the hart in hand, and the watchdog limits of the cores. -/
def KeepsDog (s t : State) : Prop := t.h = s.h ∧ ∀ c, (t.core c).wdl = (s.core c).wdl

theorem KeepsDog.refl (s : State) : KeepsDog s s := ⟨rfl, fun _ => rfl⟩

theorem KeepsDog.trans {s t u : State} (h1 : KeepsDog s t) (h2 : KeepsDog t u) : KeepsDog s u :=
  ⟨h2.1.trans h1.1, fun c => (h2.2 c).trans (h1.2 c)⟩

theorem KeepsDog.waiting {s t : State} (h : KeepsDog s t) (hw : s.h.waiting = false) : t.h.waiting = false := by rw [h.1]; exact hw

theorem keepsDog_setTile (s : State) (core n : Nat) (f : Tile → Tile) : KeepsDog s (s.setTile core n f) := by
  refine ⟨rfl, fun c => ?_⟩
  show (Tab.get Core.reset (Tab.set _ _ _ _) c).wdl = _
  rw [Tab.get_set]
  split
  · next e => rw [e]
  · rfl

theorem keepsDog_answerIf {s : State} (hw : s.h.waiting = false) (hid : Nat) (p : WaitKind → Bool) (v : Word) :
    KeepsDog s (s.answerIf hid p v) :=
  ⟨h_answerIf hw hid p v, fun c => (congrArg (fun u : State => (u.core c).wdl) (unsent_answerIf s hid p v) :)⟩

theorem keepsDog_foldl {α : Type} {s : State} {f : State → α → State} (hw : s.h.waiting = false)
    (hf : ∀ u x, u.h.waiting = false → KeepsDog u (f u x)) (l : List α) : KeepsDog s (l.foldl f s) := by
  induction l generalizing s with
  | nil => exact .refl s
  | cons x l ih =>
    have h1 := hf s x hw
    exact h1.trans (ih (h1.waiting hw))

theorem keepsDog_wakeTile {s : State} (hw : s.h.waiting = false) (core n : Nat) : KeepsDog s (s.wakeTile core n) := by
  unfold State.wakeTile
  simp only []
  split
  · exact .refl s
  · exact keepsDog_foldl hw (fun u x hu => keepsDog_answerIf hu ..) _

theorem keepsDog_wakeTile_setTile {s : State} (hw : s.h.waiting = false) (core n : Nat) (f : Tile → Tile) :
    KeepsDog s ((s.setTile core n f).wakeTile core n) := by
  have h1 := keepsDog_setTile s core n f
  exact h1.trans (keepsDog_wakeTile (h1.waiting hw) core n)

theorem keepsDog_endTile {s : State} (hw : s.h.waiting = false) (e : Nat) (c : Cmd) (good : Bool) : KeepsDog s (s.endTile e c good) := by
  unfold State.endTile
  split
  · exact keepsDog_wakeTile_setTile hw ..
  · split
    · exact keepsDog_wakeTile_setTile hw ..
    · exact .refl s

theorem keepsDog_withdrawCmd {s : State} (hw : s.h.waiting = false) (e : Nat) (q : BitVec 32) : KeepsDog s (s.withdrawCmd e q) := by
  unfold State.withdrawCmd
  split
  · exact keepsDog_endTile (s := s.setEngine e _) hw ..
  · exact .refl s

/-- An issue that is abandoned changes nothing of the hart but what it has begun. -/
theorem dropIssue_hand {s : State} (hw : s.h.waiting = false) :
    ∃ b, s.dropIssue.h = { s.h with begun := b } ∧ ∀ c, (s.dropIssue.core c).wdl = (s.core c).wdl := by
  unfold State.dropIssue
  split
  · split
    · obtain ⟨h1, h2⟩ := keepsDog_withdrawCmd hw _ _
      exact ⟨none, congrArg (fun k : Hart => { k with begun := none }) h1, h2⟩
    · exact ⟨_, rfl, fun _ => rfl⟩
  · exact ⟨_, rfl, fun _ => rfl⟩


/-! An overdue wait abandoned -/

/-- A change that leaves ids and lives alone, seen by id. -/
theorem hart_updHart (s : State) (n m : Nat) {f : Hart → Hart} (hlive : ∀ k, (f k).live = k.live) (hhid : ∀ k, (f k).hid = k.hid) :
    (s.updHart n f).hart m = (s.hart m).map (onHid n f) :=
  hart_of_map (live_onHid hlive n) (hid_onHid hhid n) rfl rfl m

/-- Of the hart whose overdue wait is abandoned, at most what it waits for at other chips changes. -/
theorem hart_abandonWait {s : State} {hid : Nat} {h : Hart} (hh : s.hart hid = some h) (w : Wait) :
    ∃ l, (s.abandonWait h w).hart hid = some { h with fabOut := l } := by
  unfold State.abandonWait
  simp only []
  split
  · rw [hart_updHart _ _ _ (by exact fun _ => rfl) (by exact fun _ => rfl)]
    show ∃ l, Option.map _ (s.hart hid) = _
    rw [hh, Option.map_some]
    unfold onHid
    split
    · exact ⟨_, rfl⟩
    · exact ⟨h.fabOut, rfl⟩
  · exact ⟨h.fabOut, hh⟩

/-- `WAIT_ANSWER_TIMEOUT` of an overdue wait. -/
theorem waitAnswerTimeout_due {s : State} {hid : Nat} {h : Hart} (hh : s.hart hid = some h) {w : Wait} (hw : s.overdue h = some w) :
    let u := (s.abandonWait h w).hold hid
    let k : Hart := { u.h with wait := none, readyAt := if h.slot = none then s.gtb else h.readyAt }
    exec (.waitAnswerTimeout hid) s = .next (({ u with h := k } : State).trap cWAITX (s.deciderWord w.kind h)) := by
  have hr : (if h.slot.isSome then h.readyAt else s.gtb) = if h.slot = none then s.gtb else h.readyAt := by
    cases h.slot <;> rfl
  show execWaitAnswerTimeout hid s = _
  simp only [execWaitAnswerTimeout, hh, hw, Option.bind_some, Option.map_some, hr]
  rfl

theorem waitAnswerTimeout_early {s : State} {hid : Nat} {h : Hart} (hh : s.hart hid = some h) (hw : s.overdue h = none) :
    exec (.waitAnswerTimeout hid) s = .next s := by
  show execWaitAnswerTimeout hid s = _
  simp only [execWaitAnswerTimeout, hh, hw, Option.bind_some, Option.map_none]

/-! Implicit waits -/

theorem iwlExpiry_early {s : State} {hid : Nat} {h : Hart} {side : Side} (hh : s.hart hid = some h) (hw : s.implicitDue h side = none) :
    exec (.iwlExpiry hid side) s = .next s := by
  show execIwlExpiry hid side s = _
  simp only [execIwlExpiry, hh, hw, Option.bind_some, Option.map_none]

/-- The state after what the instruction in hand of a hart takes back, where it has begun its effect. -/
def State.afterTakeBack (s : State) (h : Hart) : State :=
  match h.begun with
  | some b => s.takeBack b
  | none => s

theorem iwlExpiry_forager {s : State} {hid : Nat} {h : Hart} {p : Word} (hh : s.hart hid = some h) (hw : s.implicitDue h .forager = some p) :
    exec (.iwlExpiry hid .forager) s = .next ((((s.hold hid).afterTakeBack h).setH (fun k => k.spent k.pc)).trap cWAITX p) := by
  show execIwlExpiry hid .forager s = _
  simp only [execIwlExpiry, hh, hw, Option.bind_some, Option.map_some, h_hold hh]
  rfl

theorem iwlExpiry_vector {s : State} {hid : Nat} {h : Hart} {p : Word} (hh : s.hart hid = some h) (hw : s.implicitDue h .vector = some p) :
    exec (.iwlExpiry hid .vector) s = .next (if h.conv.isEmpty then (s.hold hid).issueOut p else (s.hold hid).waitOut p) := by
  show execIwlExpiry hid .vector s = _
  simp only [execIwlExpiry, hh, hw, Option.bind_some, Option.map_some, h_hold hh]

/-! The watchdog -/

theorem watchdogExpiry_early {s : State} {hid : Nat} {h : Hart} (hh : s.hart hid = some h) (hd : s.dogDue h = false ∨ h.dogStops = false) :
    exec (.watchdogExpiry hid) s = .next s := by
  have hg : (!s.dogDue h || !h.dogStops) = true := by rcases hd with e | e <;> simp [e]
  show execWatchdogExpiry hid s = _
  simp only [execWatchdogExpiry, hh, hg, if_true]

theorem watchdogExpiry_due {s : State} {hid : Nat} {h : Hart} (hh : s.hart hid = some h) (hd : s.dogDue h = true) (hs : h.dogStops = true) :
    exec (.watchdogExpiry hid) s = .next ((s.hold hid).dropIssue.asyncTrap.getD (s.hold hid)) := by
  have hg : (!s.dogDue h || !h.dogStops) = false := by simp [hd, hs]
  show execWatchdogExpiry hid s = _
  simp only [execWatchdogExpiry, hh, hg, Bool.false_eq_true, if_false]

/-- WDOG of a hart in hand that is, in its count and in its word, the hart `h`. -/
theorem wdog_eq {s : State} {h : Hart} (hi : s.h.iw = h.iw) (hpc : s.h.pc = h.pc) (hwd : s.h.wd = h.wd) :
    s.wdog = ({ s with h := { (if h.iw = none then s.h else s.h.spent h.pc) with wd := 0 } } : State).trap cWDOG (word h.wd) := by
  unfold State.wdog State.setH
  simp only [hi, hpc, hwd]
  cases h.iw <;> rfl

/-- The hart in hand once its issue has been abandoned: its watchdog is due as it was. -/
theorem dogDue_dropIssue {s : State} {hid : Nat} {h : Hart} (hh : s.hart hid = some h) (hd : s.dogDue h = true) :
    let u := (s.hold hid).dropIssue
    (∃ b, u.h = { h with begun := b }) ∧ u.dogDue u.h = true := by
  intro u
  have hw : (s.hold hid).h.waiting = false := by
    rw [h_hold hh]
    simp only [State.dogDue, Bool.and_eq_true, Bool.not_eq_true'] at hd
    exact hd.1.1.2
  obtain ⟨b, hb, hl⟩ := dropIssue_hand hw
  rw [h_hold hh] at hb
  refine ⟨⟨b, hb⟩, ?_⟩
  rw [show u.h = { h with begun := b } from hb, ← hd]
  unfold State.dogDue
  rw [show (u.core h.core).wdl = (s.core h.core).wdl from (hl _).trans (congrArg Core.wdl (core_hold ..))]
  rfl

/-! Posted page faults -/

theorem answerPost_eq {s : State} {hid : Nat} {h : Hart} {x : VStop} {vs : Bool} (hh : s.hart hid = some h) (hp : h.post = some (x, vs))
    (enter : Bool) :
    let t : State := { s.hold hid with h := { h with post := none, wait := none, readyAt := s.gtb } }
    s.answerPost hid enter = if enter then t.enterTrap x.cause x.tval x.tepc vs
      else { t.setH (fun k => if vs then { k.resumeAt x.tepc with held := none } else k) with did := .nothing } := by
  unfold State.answerPost
  simp only [h_hold hh, hp, State.setH]

theorem hostPfAnswer_eq {s : State} {hid : Nat} {h : Hart} {x : VStop} {vs : Bool} (hh : s.hart hid = some h) (hp : h.post = some (x, vs))
    {v : Word} (hv : bits v.toNat 0 16 = hid) (h63 : bit v.toNat 63 = true) :
    exec (.hostPfAnswer h.tid v) s = .next (s.answerPost hid (bit v.toNat 62)) := by
  show execHostPfAnswer h.tid v s = _
  simp only [execHostPfAnswer, hv, hh, h63, hp, Option.isSome_some, decide_true, Bool.and_true, if_true, State.hid_of_hart hh]

theorem pfAnswerTimeout_eq {s : State} {hid : Nat} {h : Hart} {x : VStop} {vs : Bool} {w : Wait} (hh : s.hart hid = some h)
    (hp : h.post = some (x, vs)) (hw : h.wait = some w) :
    exec (.pfAnswerTimeout hid) s = .next (if w.dead ≤ s.gtb then s.answerPost hid true else s) := by
  show execPfAnswerTimeout hid s = _
  simp only [execPfAnswerTimeout, hh, hp, hw, Option.isSome_some, Option.any_some, Bool.true_and, decide_eq_true_eq]

/-- The trap of a posted fault that is refused or not answered. -/
theorem entered_answerPost {s : State} {hid : Nat} {h : Hart} {x : VStop} {vs : Bool} (hh : s.hart hid = some h) (hp : h.post = some (x, vs))
    (hk : ({ s.hold hid with h := { h with post := none, wait := none, readyAt := s.gtb } } : State).handlerOk x.cause = true) :
    Entered { h with post := none, wait := none, readyAt := s.gtb } (s.answerPost hid true).h x.cause x.tval x.tepc vs := by
  rw [answerPost_eq hh hp, if_pos rfl]
  exact entered_enterTrap x.tval x.tepc vs hk

/-- The hart of a posted fault that the host resumes. -/
theorem resumed_answerPost {s : State} {hid : Nat} {h : Hart} {x : VStop} {vs : Bool} (hh : s.hart hid = some h) (hp : h.post = some (x, vs)) :
    let k : Hart := { h with post := none, wait := none, readyAt := s.gtb }
    let t := s.answerPost hid false
    t.gtb = s.gtb ∧ SameBytes s t ∧
      t.h = if vs then { k with vpc := x.tepc, conv := [], cut := bits h.ecut.toNat 0 17, again := h.again || x.tepc != h.vpc, votes := [],
                                owed := false, app := none, stop := none, viw := none, held := none }
        else k := by
  intro k t
  have ht : t = { s.hold hid with h := if vs then { k.resumeAt x.tepc with held := none } else k, did := .nothing } :=
    answerPost_eq hh hp false
  rw [ht]
  refine ⟨gtb_hold s hid, fun a => congrArg (Tab.get 0 · a) (mem_hold s hid), ?_⟩
  cases vs
  · rfl
  · rfl

end Sys2Proof.Machine

namespace Sys2Proof.Claims
open Sys2Proof.Machine

/-- Settles O55: each event by the lemma that says what it does, and a trap by `entered_enterTrap`. -/
theorem eventTraps : Obligations.EventTraps := by
  unfold Obligations.EventTraps
  refine ⟨fun s hid h hh => ⟨?_, waitAnswerTimeout_early hh, ?_, iwlExpiry_early hh, fun p hp => iwlExpiry_vector hh hp, iwlExpiry_early hh,
    ?_, watchdogExpiry_early hh, ?_⟩, ?_, ?_⟩
  · intro w hw u k hk
    obtain ⟨l, hl⟩ := hart_abandonWait hh w
    have hl := h_hold hl
    refine ⟨_, waitAnswerTimeout_due hh hw, ?_, ?_⟩
    · exact entered_trap (s.deciderWord w.kind h) (congrArg Hart.pc hl :) (by decide) hk
    · show ({ u.h with wait := h.wait, readyAt := h.readyAt, fabOut := h.fabOut } : Hart) = h
      rw [show u.h = _ from hl]
  · intro p hp u hk
    exact ⟨_, iwlExpiry_forager hh hp, entered_trap p rfl (by decide) hk⟩
  · intro hd hs u k
    obtain ⟨⟨b, hb⟩, hu⟩ := dogDue_dropIssue hh hd
    have hx := watchdogExpiry_due hh hd hs
    refine ⟨fun t ht => ?_, fun hn hk => ?_⟩
    · rw [hx, State.asyncTrap, ht]
      rfl
    · refine ⟨u.wdog, ?_, ?_⟩
      · rw [hx, State.asyncTrap, hn, hu]
        rfl
      · have hi : u.h.iw = h.iw := (congrArg Hart.iw hb :)
        have hpc : u.h.pc = h.pc := (congrArg Hart.pc hb :)
        have hwd : u.h.wd = h.wd := (congrArg Hart.wd hb :)
        have hkp : k.pc = h.pc := by
          show (if h.iw = none then u.h else u.h.spent h.pc).pc = h.pc
          split <;> exact hpc
        rw [wdog_eq hi hpc hwd]
        exact entered_trap (word h.wd) hkp (by decide) hk
  · intro v x vs hp k
    refine ⟨fun hv h63 h62 => ⟨_, hostPfAnswer_eq hh hp hv h63, ?_⟩, fun hv h63 h62 hk => ⟨_, hostPfAnswer_eq hh hp hv h63, ?_⟩,
      fun w hw => ⟨fun hd hk => ⟨s.answerPost hid true, ?_, entered_answerPost hh hp hk⟩, fun hd => ?_⟩⟩
    · rw [h62]; exact resumed_answerPost hh hp
    · rw [h62]; exact entered_answerPost hh hp hk
    · rw [pfAnswerTimeout_eq hh hp hw, if_pos hd]
    · rw [pfAnswerTimeout_eq hh hp hw, if_neg (Nat.not_le.mpr hd)]
  · intro s w
    refine ⟨fun hw => ?_, fun hw => ?_, rfl⟩
    · show execBadWord w false s = _
      simp only [execBadWord, hw, Bool.false_eq_true, if_false]
    · show execBadWord w false s = _
      simp only [execBadWord, hw, Bool.false_eq_true, if_false]
  · intro s s1 c v p
    refine ⟨fun hf => ?_, fun hf => ?_⟩
    · show execFetchFault s = _
      simp only [execFetchFault, hf]
    · show execFetchFault s = _
      simp only [execFetchFault, hf]

end Sys2Proof.Claims
end

section
/-! PROOFS. Scheduling: binding and unbinding, power, the start of blocks, the issue of convoys, and rechecks (O58). -/

namespace Sys2Proof.Machine

/-! Cores and bind records -/

theorem core_setCore_same (s : State) (c : Nat) (f : Core → Core) : (s.setCore c f).core c = f (s.core c) := Tab.get_set_self ..

theorem core_setCore_other (s : State) {c d : Nat} (f : Core → Core) (h : d ≠ c) : (s.setCore c f).core d = s.core d :=
  Tab.get_set_other _ _ _ _ _ h

/-- What a change of a core leaves of it, it leaves of every core. -/
theorem core_setCore_keeps {α : Type} (g : Core → α) (s : State) (c d : Nat) {f : Core → Core} (h : ∀ x, g (f x) = g x) :
    g ((s.setCore c f).core d) = g (s.core d) := by
  by_cases e : d = c
  · rw [e, core_setCore_same, h]
  · rw [core_setCore_other s f e]

theorem bind_setBind_same (s : State) (c i : Nat) (f : Bind → Bind) : (s.setBind c i f).bind c i = f (s.bind c i) := by
  unfold State.bind State.setBind
  rw [core_setCore_same]
  exact Tab.get_set_self ..

theorem bind_setBind_other (s : State) (c : Nat) {i j : Nat} (f : Bind → Bind) (h : j ≠ i) : (s.setBind c i f).bind c j = s.bind c j := by
  unfold State.bind State.setBind
  rw [core_setCore_same]
  exact Tab.get_set_other _ _ _ _ _ h

theorem bind_of_cores {s t : State} (h : t.cores = s.cores) (c i : Nat) : t.bind c i = s.bind c i := by
  unfold State.bind State.core
  rw [h]

theorem hart_setBind (s : State) (c i : Nat) (f : Bind → Bind) (n : Nat) : (s.setBind c i f).hart n = s.hart n := hart_congr rfl rfl n

theorem hart_setCore (s : State) (c : Nat) (f : Core → Core) (n : Nat) : (s.setCore c f).hart n = s.hart n := hart_congr rfl rfl n

theorem hart_count (s : State) (t i k n : Nat) : (s.count t i k).hart n = s.hart n := hart_congr (State.h_count ..) (State.pool_count ..) n

theorem cores_count (s : State) (t i k : Nat) : (s.count t i k).cores = s.cores := (congrArg State.cores (count_only s t i k) :)

theorem mem_count (s : State) (t i k : Nat) : (s.count t i k).mem = s.mem := (congrArg State.mem (count_only s t i k) :)

theorem sameBytes_of_mem {s t : State} (h : t.mem = s.mem) : SameBytes s t := fun a => congrArg (Tab.get 0 · a) h

/-- An unbind notice goes to the host's ring, and to nothing else. -/
theorem unbindNotice_only (s : State) (core slot hid tag : Nat) :
    { s.unbindNotice core slot hid tag with hub := s.hub, hostRing := s.hostRing } = s := by
  unfold State.unbindNotice
  split
  · unfold State.hostPost
    simp only []
    split <;> rfl
  · rfl

theorem hart_unbindNotice (s : State) (core slot hid tag n : Nat) : (s.unbindNotice core slot hid tag).hart n = s.hart n :=
  (congrArg (State.hart · n) (unbindNotice_only s core slot hid tag) :)

theorem cores_unbindNotice (s : State) (core slot hid tag : Nat) : (s.unbindNotice core slot hid tag).cores = s.cores :=
  (congrArg State.cores (unbindNotice_only s core slot hid tag) :)

theorem mem_unbindNotice (s : State) (core slot hid tag : Nat) : (s.unbindNotice core slot hid tag).mem = s.mem :=
  (congrArg State.mem (unbindNotice_only s core slot hid tag) :)

theorem gtb_unbindNotice (s : State) (core slot hid tag : Nat) : (s.unbindNotice core slot hid tag).gtb = s.gtb :=
  (congrArg State.gtb (unbindNotice_only s core slot hid tag) :)

theorem cores_hold (s : State) (hid : Nat) : (s.hold hid).cores = s.cores := (congrArg State.cores (hold_only s hid) :)

/-! Harts through a pre-emption -/

/-- A change of a hart that leaves its id and its life alone. -/
def KeepsId (h k : Hart) : Prop := k.hid = h.hid ∧ k.live = h.live

theorem keepsId_squash (h : Hart) : KeepsId h h.squash := by
  unfold Hart.squash
  split
  · exact ⟨rfl, rfl⟩
  · exact ⟨foldl_keeps Hart.hid Hart.restoreSlot (fun k x => (setX_hid_live k x.reg x.old).1) _ h,
      foldl_keeps Hart.live Hart.restoreSlot (fun k x => (setX_hid_live k x.reg x.old).2) _ h⟩

theorem keepsId_stopConvoy (h : Hart) : KeepsId h h.stopConvoy := by
  unfold Hart.stopConvoy
  split
  · exact ⟨rfl, rfl⟩
  · exact ⟨rfl, rfl⟩

theorem KeepsId.trans {h k l : Hart} (h1 : KeepsId h k) (h2 : KeepsId k l) : KeepsId h l := ⟨h2.1.trans h1.1, h2.2.trans h1.2⟩

theorem keepsId_preempted (h : Hart) (time : Nat) : KeepsId h (h.preempted time) := (keepsId_squash h).trans (keepsId_stopConvoy h.squash)

theorem keepsId_finishBegun (h : Hart) : KeepsId h h.finishBegun := by
  unfold Hart.finishBegun
  split
  · exact setX_hid_live ..
  · exact ⟨rfl, rfl⟩

theorem keepsId_bound (h : Hart) (slot : Nat) : KeepsId h (h.bound slot) := by
  unfold Hart.bound
  simp only []
  split
  · split
    · exact setX_hid_live ..
    · exact ⟨rfl, rfl⟩
  · exact ⟨rfl, rfl⟩

/-- The hart in hand, changed, is found under its id. -/
theorem hart_setH {s : State} {hid : Nat} {f : Hart → Hart} (hl : s.h.live = true) (hh : s.h.hid = hid) (hf : KeepsId s.h (f s.h)) :
    (s.setH f).hart hid = some (f s.h) :=
  State.hart_self (s := s.setH f) (hf.2.trans hl) (hf.1.trans hh)

/-! Pre-emption -/

theorem drainRechecks_nil {s : State} (h : (s.core s.h.core).recheck = []) : s.drainRechecks = s := by
  simp only [State.drainRechecks, State.drainOf, h, List.filter_nil, List.isEmpty_nil, if_true]

theorem boundary_none {s : State} (hp : s.h.pagePend = []) (ht : s.h.trapWaits = false ∨ s.h.mode ≠ .a) : s.boundary = none := by
  have hg : (s.h.trapWaits && s.h.mode == .a) = false := by rcases ht with e | e <;> simp [e]
  simp only [State.boundary, hp, hg, Bool.false_eq_true, if_false]

theorem asyncTrap_none {s : State} (hp : s.h.pagePend = []) (ht : s.h.trapWaits = false ∨ s.h.mode ≠ .a) (hd : s.dogDue s.h = false) :
    s.asyncTrap = none := by
  simp only [State.asyncTrap, boundary_none hp ht, hd, Option.isSome_none, Bool.false_eq_true, if_false]

/-- A pre-emption with no asynchronous trap at its boundary. -/
theorem preempt_quiet {s t : State} (ht : s.drainRechecks.dropIssue.endBegun = t) (hl : t.h.live = true) (hi : t.h.hid = s.h.hid)
    (ha : t.asyncTrap = none) : s.preempt = t.setH (fun h => h.preempted s.gtb) := by
  simp only [State.preempt, ht, ha, Option.map_none, Option.getD_none, ite_self, hl, hi, beq_self_eq_true, Bool.and_self, if_true]

/-- A pre-emption of a hart with nothing in hand that has begun. -/
theorem preempt_idle {s : State} (hl : s.h.live = true) (hr : (s.core s.h.core).recheck = []) (hb : s.h.begun = none) (hp : s.h.pagePend = [])
    (ht : s.h.trapWaits = false ∨ s.h.mode ≠ .a) (hd : s.dogDue s.h = false) : s.preempt = s.setH (fun h => h.preempted s.gtb) :=
  preempt_quiet (by simp only [drainRechecks_nil hr, State.dropIssue, State.endBegun, hb]) hl rfl (asyncTrap_none hp ht hd)

/-- A hart whose record is removed while its instruction in hand waits for its party: its pre-emption is still to come. -/
def Hart.leavesFrom (slot : Nat) (h : Hart) : Hart := { h.stopConvoy with slot := none, leaving := some slot }

theorem keepsId_leavesFrom (slot : Nat) (h : Hart) : KeepsId h (h.leavesFrom slot) := keepsId_stopConvoy h

/-- The state in which a removed record has been cleared and its notice posted. -/
def State.noticed (s : State) (core slot : Nat) : State :=
  (s.setBind core slot Bind.removed).unbindNotice core slot (s.bind core slot).hart (s.bind core slot).tag

theorem hart_noticed (s : State) (core slot n : Nat) : (s.noticed core slot).hart n = s.hart n :=
  (hart_unbindNotice ..).trans (hart_setBind ..)

theorem bind_noticed (s : State) (core slot : Nat) : (s.noticed core slot).bind core slot = (s.bind core slot).removed :=
  (bind_of_cores (cores_unbindNotice ..) core slot).trans (bind_setBind_same ..)

theorem mem_noticed (s : State) (core slot : Nat) : (s.noticed core slot).mem = s.mem := mem_unbindNotice ..

theorem gtb_noticed (s : State) (core slot : Nat) : (s.noticed core slot).gtb = s.gtb := gtb_unbindNotice ..

/-- What a removed record leaves of a core, beside its records. -/
theorem core_noticed {α : Type} (g : Core → α) (hg : ∀ (c : Core) (b : Tab Bind), g { c with binds := b } = g c) (s : State)
    (core slot d : Nat) :
    g ((s.noticed core slot).core d) = g (s.core d) :=
  (congrArg (fun t => g (Tab.get Core.reset t d)) (cores_unbindNotice ..)).trans (core_setCore_keeps g s core d (fun c => hg c _))

theorem unbind_eq {s : State} {core slot : Nat} {h : Hart} (hh : s.hart (s.bind core slot).hart = some h) (hv : (s.bind core slot).v = true) :
    s.unbind core slot = if s.begunWaits h then (s.noticed core slot).updHart (s.bind core slot).hart (Hart.leavesFrom slot)
      else ((s.noticed core slot).hold (s.bind core slot).hart).preempt := by
  simp only [State.unbind, hv, Bool.not_true, Bool.false_eq_true, if_false, hh]
  rfl

/-- The removal of a valid record whose hart can be pre-empted: what it leaves of the hart, of the record and of memory. -/
theorem unbind_idle {s : State} {core slot : Nat} {h : Hart} (hh : s.hart (s.bind core slot).hart = some h) (hl : h.live = true)
    (hv : (s.bind core slot).v = true) (hc : h.core = core) (hp : h.pagePend = []) (ht : h.trapWaits = false ∨ h.mode ≠ .a)
    (hb : h.begun = none) (hd : s.dogDue h = false) (hr : (s.core core).recheck = []) :
    (s.unbind core slot).hart (s.bind core slot).hart = some (h.preempted s.gtb) ∧
      (s.unbind core slot).bind core slot = (s.bind core slot).removed ∧ (s.unbind core slot).mem = s.mem := by
  have hw : s.begunWaits h = false := by simp only [State.begunWaits, hb]
  have hu : ((s.noticed core slot).hold (s.bind core slot).hart).h = h := h_hold ((hart_noticed ..).trans hh)
  have hg : ((s.noticed core slot).hold (s.bind core slot).hart).gtb = s.gtb := (gtb_hold ..).trans (gtb_noticed ..)
  have hrec : (((s.noticed core slot).hold (s.bind core slot).hart).core h.core).recheck = [] := by
    rw [core_hold, core_noticed Core.recheck (fun _ _ => rfl), hc, hr]
  have hdog : ((s.noticed core slot).hold (s.bind core slot).hart).dogDue h = false := by
    rw [← hd]
    unfold State.dogDue
    rw [core_hold, core_noticed Core.wdl (fun _ _ => rfl)]
  rw [unbind_eq hh hv, hw, if_neg Bool.false_ne_true]
  rw [preempt_idle (by rw [hu, hl]) (by rw [hu, hrec]) (by rw [hu, hb]) (by rw [hu, hp]) (by rw [hu]; exact ht) (by rw [hu, hdog]), hg]
  refine ⟨?_, ?_, ?_⟩
  · rw [← hu]
    exact hart_setH (by rw [hu, hl]) (by rw [hu, State.hid_of_hart hh]) (keepsId_preempted ..)
  · exact (bind_of_cores (cores_hold ..) core slot).trans (bind_noticed ..)
  · exact (mem_hold ..).trans (mem_noticed ..)

/-- The removal of a valid record whose hart has an instruction in hand that waits for its party. -/
theorem unbind_begun {s : State} {core slot : Nat} {h : Hart} (hh : s.hart (s.bind core slot).hart = some h) (hl : h.live = true)
    (hv : (s.bind core slot).v = true) (hw : s.begunWaits h = true) :
    (s.unbind core slot).bind core slot = (s.bind core slot).removed ∧ (s.unbind core slot).mem = s.mem ∧
      (s.unbind core slot).hart (s.bind core slot).hart = some (h.leavesFrom slot) := by
  rw [unbind_eq hh hv, if_pos hw]
  refine ⟨bind_noticed .., mem_noticed .., ?_⟩
  exact hart_updHart_self (fun k => (keepsId_leavesFrom slot k).2) (fun k => (keepsId_leavesFrom slot k).1) ((hart_noticed ..).trans hh) hl

/-! The end of a quantum -/

/-- The state in which the READY harts of a partition have missed one quantum more. -/
def State.missed (s : State) (core tag : Nat) : State := { s with h := missQuantum core tag s.h, pool := s.pool.map (missQuantum core tag) }

theorem keepsId_missQuantum (core tag : Nat) (h : Hart) : KeepsId h (missQuantum core tag h) := by
  unfold missQuantum
  split
  · exact ⟨rfl, rfl⟩
  · exact ⟨rfl, rfl⟩

theorem created_missQuantum (core tag : Nat) (h : Hart) : (missQuantum core tag h).created = h.created := by
  unfold missQuantum
  split
  · rfl
  · rfl

/-- A bound hart is not READY, and misses no quantum. -/
theorem missQuantum_bound {h : Hart} {slot : Nat} (hs : h.slot = some slot) (core tag : Nat) : missQuantum core tag h = h := by
  have hr : (h.state == .ready) = false := by
    unfold Hart.state
    simp only [hs, Option.isNone_some, Bool.false_eq_true, if_false]
    split_ifs <;> rfl
  unfold missQuantum
  simp only [hr, Bool.and_false, Bool.false_eq_true, if_false]

theorem hart_missed (s : State) (core tag n : Nat) : (s.missed core tag).hart n = (s.hart n).map (missQuantum core tag) :=
  hart_of_map (fun k => (keepsId_missQuantum core tag k).2) (fun k => (keepsId_missQuantum core tag k).1) rfl rfl n

theorem begunWaits_missed (s : State) (core tag : Nat) (h : Hart) : (s.missed core tag).begunWaits h = s.begunWaits h := by
  unfold State.begunWaits
  split
  · split
    · rfl
    · rw [hart_missed, Option.any_map]
      simp only [created_missQuantum]
    · rfl
    · rfl
    · rfl
    · rfl
  · rfl

/-! The removals of a record -/

/-- The states from which a removal unbinds: the present one, or that in which a quantum has been missed. -/
def unbindsFrom (s : State) (core slot : Nat) : List State := [s, s.missed core (s.bind core slot).tag]

/-- What an unbinding looks at is the same in both. -/
theorem unbindsFrom_same {s u : State} {core slot k : Nat} {h : Hart} (hu : u ∈ unbindsFrom s core slot)
    (hh : s.hart (s.bind core slot).hart = some h) (hs : h.slot = some k) :
    u.hart (s.bind core slot).hart = some h ∧ u.begunWaits h = s.begunWaits h ∧ u.cores = s.cores ∧ u.gtb = s.gtb ∧ u.mem = s.mem := by
  simp only [unbindsFrom, List.mem_cons, List.not_mem_nil, or_false] at hu
  obtain rfl | rfl := hu
  · exact ⟨hh, rfl, rfl, rfl, rfl⟩
  · refine ⟨?_, begunWaits_missed .., rfl, rfl, rfl⟩
    rw [hart_missed, hh, Option.map_some, missQuantum_bound hs]

/-- Each removal of the table unbinds the record, and one by a write of the record then takes the written fields. -/
theorem unbindTable_runs {s : State} {core slot : Nat} {d0 : Word} {host : Bool} {h : Hart} {e : Instr × Bool × Bind}
    (he : e ∈ Claims.unbindTable s h core slot d0 host) (hr : e.2.1 = true) (hh : s.hart (s.bind core slot).hart = some h) (hc : h.core = core)
    (hs : h.slot = some slot) (h8 : s.hub.phase ≠ 8) :
    ∃ u ∈ unbindsFrom s core slot, ∃ t, exec e.1 s = .next t ∧ (∀ n, t.hart n = (u.unbind core slot).hart n) ∧
      t.mem = (u.unbind core slot).mem ∧ ((u.unbind core slot).bind core slot = (s.bind core slot).removed → t.bind core slot = e.2.2) := by
  have ha : s.answers = true := by simpa [State.answers] using h8
  have h0 : s ∈ unbindsFrom s core slot := List.mem_cons_self
  have h1 : s.missed core (s.bind core slot).tag ∈ unbindsFrom s core slot := List.mem_cons_of_mem _ List.mem_cons_self
  simp only [Claims.unbindTable, List.mem_cons, List.not_mem_nil, or_false] at he
  obtain rfl | rfl | rfl | rfl := he
  · refine ⟨s, h0, s.unbind core slot, ?_, fun _ => rfl, rfl, fun hb => hb⟩
    show execBindRecordRemove core slot host s = _
    simp only [beq_iff_eq] at hr
    simp only [execBindRecordRemove, ha, hr, decide_true, Bool.and_self, if_true]
  · simp only [Bool.and_eq_true, beq_iff_eq, Bool.not_eq_true', decide_eq_true_eq] at hr
    obtain ⟨⟨hhost, h63⟩, hslot⟩ := hr
    have hg : (decide (host ≠ bit s.hub.split 1) || decide (8 ≤ slot)) = false := by
      simp only [ne_eq, hhost, not_true_eq_false, decide_false, Bool.false_or, decide_eq_false_iff_not]
      omega
    refine ⟨s, h0, (s.unbind core slot).setBind core slot (fun b => b.fields d0.toNat b.err b.tick false), ?_,
      fun n => hart_setBind .., rfl, ?_⟩
    · show execBindRecordSubmit core slot d0 host s = _
      simp only [execBindRecordSubmit, State.ifAnswers, ha, if_true, h63, Bool.false_eq_true, if_false, State.clearBind, hg]
    · intro hb
      rw [bind_setBind_same, hb]
      rfl
  · simp only [Bool.and_eq_true, Bool.not_eq_true'] at hr
    obtain ⟨hsp, hw⟩ := hr
    have hany : s.harts.any (fun k => k.core == core && k.slot == some slot && s.waitsTooLong k) = true := by
      rw [List.any_eq_true]
      exact ⟨h, List.mem_of_find?_eq_some hh, by simp [hc, hs, hw]⟩
    refine ⟨s, h0, s.unbind core slot, ?_, fun _ => rfl, rfl, fun hb => hb⟩
    show execApiaryWaitingRemoval core slot s = _
    simp only [execApiaryWaitingRemoval, hsp, hany, Bool.not_false, Bool.and_self, if_true]
  · refine ⟨_, h1, _, ?_, fun _ => rfl, rfl, fun hb => hb⟩
    show execQuantumEnd core slot s = _
    have hq : (s.bind core slot).quantumDue s.gtb = true := hr
    simp only [execQuantumEnd, hq, Bool.not_true, Bool.false_eq_true, if_false]
    rfl

/-- The second clause: what a removal does to the hart, to the record and to memory. -/
theorem unbindTable_result {s : State} {core slot : Nat} {d0 : Word} {host : Bool} {h : Hart} {e : Instr × Bool × Bind}
    (hh : s.hart (s.bind core slot).hart = some h) (hl : h.live = true) (hv : (s.bind core slot).v = true) (hc : h.core = core)
    (hs : h.slot = some slot) (h8 : s.hub.phase ≠ 8) (he : e ∈ Claims.unbindTable s h core slot d0 host) (hr : e.2.1 = true) :
    (h.pagePend = [] → (h.trapWaits = false ∨ h.mode ≠ .a) → h.begun = none → s.dogDue h = false → (s.core core).recheck = [] →
      ∃ t, exec e.1 s = .next t ∧ t.hart (s.bind core slot).hart = some (h.preempted s.gtb) ∧ t.bind core slot = e.2.2 ∧ SameBytes s t) ∧
    (s.begunWaits h = true → ∃ t, exec e.1 s = .next t ∧ t.bind core slot = e.2.2 ∧ SameBytes s t ∧
      t.hart (s.bind core slot).hart = some { h.stopConvoy with slot := none, leaving := some slot }) := by
  obtain ⟨u, hu, t, ht, hth, htm, htb⟩ := unbindTable_runs he hr hh hc hs h8
  obtain ⟨huh, hub, huc, hug, hum⟩ := unbindsFrom_same hu hh hs
  have hbind : u.bind core slot = s.bind core slot := bind_of_cores huc core slot
  have hcore : ∀ c, u.core c = s.core c := fun c => congrArg (Tab.get Core.reset · c) huc
  rw [← hbind] at huh hv
  refine ⟨fun hp htr hb hd hrec => ?_, fun hw => ?_⟩
  · have hd' : u.dogDue h = false := by rw [← hd]; simp only [State.dogDue, hcore]
    obtain ⟨h1, h2, h3⟩ := unbind_idle huh hl hv hc hp htr hb hd' (by rw [hcore, hrec])
    rw [hbind] at h1 h2
    exact ⟨t, ht, by rw [hth, h1, hug], htb h2, sameBytes_of_mem (htm.trans (h3.trans hum))⟩
  · obtain ⟨h1, h2, h3⟩ := unbind_begun huh hl hv (by rw [hub, hw])
    rw [hbind] at h1 h3
    exact ⟨t, ht, htb h1, sameBytes_of_mem (htm.trans (h2.trans hum)), by rw [hth, h3]; rfl⟩

/-! The end of an unbinding -/

/-- A hart of a slot's removed record whose pre-emption waits. -/
def Hart.leavesSlot (core slot : Nat) (h : Hart) : Bool := h.core == core && h.leaving == some slot

theorem foldl_leaveNow_waiting {s : State} (l : List Hart) (h : ∀ k ∈ l, s.begunWaits k = true) : l.foldl State.leaveNow s = s := by
  induction l with
  | nil => rfl
  | cons k l ih =>
    rw [List.foldl_cons, show s.leaveNow k = s from if_pos (h k List.mem_cons_self)]
    exact ih (fun k hk => h k (List.mem_cons_of_mem _ hk))

theorem unbindingComplete_free {s : State} {core slot : Nat} (h : s.leavers core slot = []) :
    exec (.unbindingComplete core slot) s = .next (s.setBind core slot (fun b => { b with unbinding := 0 })) := by
  show execUnbindingComplete core slot s = _
  simp only [execUnbindingComplete, h, List.foldl_nil, List.isEmpty_nil, if_true]

theorem setBind_only (s : State) (c i : Nat) (f : Bind → Bind) : { s.setBind c i f with cores := s.cores } = s := rfl

theorem unbindingComplete_waiting {s : State} {core slot : Nat} (h : s.leavers core slot ≠ [])
    (hw : ∀ k ∈ s.leavers core slot, s.begunWaits k = true) : exec (.unbindingComplete core slot) s = .next s := by
  have he : (s.leavers core slot).isEmpty = false := by simpa using h
  show execUnbindingComplete core slot s = _
  simp only [execUnbindingComplete, foldl_leaveNow_waiting _ hw, he, Bool.false_eq_true, if_false]

/-- With the last leaver in hand, no other hart leaves the slot. -/
theorem pool_hold_leaver {s : State} {core slot : Nat} {h : Hart} (hl : s.leavers core slot = [h]) (hh : s.hart h.hid = some h) :
    (s.hold h.hid).pool.filter (Hart.leavesSlot core slot) = [] := by
  have hmem : ∀ k ∈ s.harts, k.leavesSlot core slot = true → k = h := fun k hk hp => by
    have : k ∈ s.leavers core slot := List.mem_filter.mpr ⟨hk, hp⟩
    rwa [hl, List.mem_singleton] at this
  unfold State.hold
  by_cases hs : (s.h.live && s.h.hid == h.hid) = true
  · rw [if_pos hs]
    simp only [Bool.and_eq_true, beq_iff_eq] at hs
    rw [State.hart_self hs.1 hs.2, Option.some.injEq] at hh
    have hf : (s.h :: s.pool).filter (Hart.leavesSlot core slot) = [h] := by
      rw [← hl, State.leavers, State.harts, if_pos hs.1]
      rfl
    have hp : Hart.leavesSlot core slot s.h = true := by
      rw [hh]
      exact (List.mem_filter.mp (show h ∈ s.leavers core slot by rw [hl]; exact List.mem_singleton_self h)).2
    rw [List.filter_cons_of_pos hp, List.cons.injEq] at hf
    exact hf.2
  · rw [if_neg hs]
    have hpool : ∀ k ∈ s.pool, k ∈ s.harts := fun k hk => by
      unfold State.harts
      split
      · exact List.mem_cons_of_mem _ hk
      · exact hk
    have hfind : s.pool.find? (fun k => k.hid == h.hid) = some h := by
      unfold State.hart State.harts at hh
      by_cases hl : s.h.live = true
      · rw [if_pos hl, List.find?_cons_of_neg] at hh
        · exact hh
        · simpa [hl] using hs
      · rwa [if_neg hl] at hh
    simp only [hfind]
    rw [List.filter_eq_nil_iff]
    intro k hk hp
    have hrest : ∀ k ∈ s.pool.filter (fun x => x.hid ≠ h.hid), Hart.leavesSlot core slot k = true → False := fun k hk hp => by
      rw [List.mem_filter] at hk
      exact absurd (congrArg Hart.hid (hmem k (hpool k hk.1) hp)) (by simpa using hk.2)
    split at hk
    · next hlive =>
      rcases List.mem_cons.mp hk with rfl | hk
      · have := hmem s.h (by unfold State.harts; rw [if_pos hlive]; exact List.mem_cons_self) hp
        exact hs (by rw [hlive, this]; simp)
      · exact hrest k hk hp
    · exact hrest k hk hp

/-- An instruction that has begun its effect retires: what of its hart it does not write. -/
theorem finishBegun_only (h : Hart) :
    { h.finishBegun with x := h.x, pc := h.pc, iw := h.iw, begun := h.begun, wd := h.wd } = h := by
  unfold Hart.finishBegun
  split
  · next b _ =>
    have := setX_only h b.dst b.val
    exact (congrArg (fun k : Hart => { k with pc := h.pc, iw := h.iw, begun := h.begun, wd := h.wd }) this :)
  · rfl

/-- A pre-emption of an unbound hart whose begun instruction has its answer. -/
theorem preempt_stands {s : State} {d : Nat} {v : Word} (hl : s.h.live = true) (hr : (s.core s.h.core).recheck = [])
    (hb : s.h.begun = some ⟨d, v, .stands⟩) (hs : s.h.slot = none) (hp : s.h.pagePend = []) (ht : s.h.trapWaits = false ∨ s.h.mode ≠ .a) :
    s.preempt = ((s.count s.h.tid 1 1).setH (fun h => h.finishBegun.sealAll)).setH (fun h => h.preempted s.gtb) := by
  have ho := finishBegun_only s.h
  have hh : ((s.count s.h.tid 1 1).setH (fun h => h.finishBegun.sealAll)).h = s.h.finishBegun.sealAll :=
    congrArg (fun h : Hart => h.finishBegun.sealAll) (State.h_count ..)
  refine preempt_quiet (by simp only [drainRechecks_nil hr, State.dropIssue, State.endBegun, hb]) ?_ ?_ (asyncTrap_none ?_ ?_ ?_)
  · rw [hh]; exact (congrArg Hart.live ho :).trans hl
  · rw [hh]; exact (congrArg Hart.hid ho :)
  · rw [hh]; exact (congrArg Hart.pagePend ho :).trans hp
  · rw [hh]
    exact ht.imp (fun e => (congrArg Hart.trapWaits ho :).trans e) (fun e x => e ((congrArg Hart.mode ho :).symm.trans x))
  · rw [hh]
    have : s.h.finishBegun.sealAll.slot = none := (congrArg Hart.slot ho :).trans hs
    simp only [State.dogDue, this, Option.isSome_none, Bool.false_and]

/-- The third clause: the last hart of a slot is pre-empted once its party has answered, and its lanes are free. -/
theorem unbindingComplete_stands {s : State} {core slot : Nat} {h : Hart} {d : Nat} {v : Word} (hl : s.leavers core slot = [h])
    (hh : s.hart h.hid = some h) (hlive : h.live = true) (hb : h.begun = some ⟨d, v, .stands⟩) (hw : s.begunWaits h = false)
    (hs : h.slot = none) (hp : h.pagePend = []) (ht : h.trapWaits = false ∨ h.mode ≠ .a) (hr : (s.core core).recheck = []) :
    ∃ t, exec (.unbindingComplete core slot) s = .next t ∧ (t.bind core slot).unbinding = 0 ∧ SameBytes s t ∧
      t.hart h.hid = some (h.finishBegun.sealAll.preempted s.gtb) := by
  have hu := h_hold hh
  have hc : h.core = core := by
    have := (List.mem_filter.mp (show h ∈ s.leavers core slot by rw [hl]; exact List.mem_singleton_self h)).2
    simp only [Bool.and_eq_true, beq_iff_eq] at this
    exact this.1
  have hpre := preempt_stands (s := s.hold h.hid) (d := d) (v := v) (by rw [hu, hlive]) (by rw [hu, core_hold, hc, hr]) (by rw [hu, hb])
    (by rw [hu, hs]) (by rw [hu, hp]) (by rw [hu]; exact ht)
  have hk : KeepsId h h.finishBegun.sealAll := keepsId_finishBegun h
  rw [gtb_hold] at hpre
  have hth : (s.hold h.hid).preempt.h = h.finishBegun.sealAll.preempted s.gtb := by
    rw [hpre]
    show ((((s.hold h.hid).count (s.hold h.hid).h.tid 1 1).h).finishBegun.sealAll).preempted s.gtb = _
    rw [State.h_count, hu]
  have htp : (s.hold h.hid).preempt.pool = (s.hold h.hid).pool := by rw [hpre]; exact State.pool_count ..
  have htm : (s.hold h.hid).preempt.mem = s.mem := by rw [hpre]; exact (mem_count ..).trans (mem_hold ..)
  have hnone : (s.hold h.hid).preempt.leavers core slot = [] := by
    have hpool := pool_hold_leaver hl hh
    have hself : Hart.leavesSlot core slot (h.finishBegun.sealAll.preempted s.gtb) = false := by
      simp only [Hart.leavesSlot, Hart.preempted, Bool.and_eq_false_iff, beq_eq_false_iff_ne, ne_eq, reduceCtorEq, not_false_eq_true, or_true]
    show (s.hold h.hid).preempt.harts.filter (Hart.leavesSlot core slot) = []
    unfold State.harts
    rw [hth, htp]
    split
    · rw [List.filter_cons_of_neg (by rw [hself]; exact Bool.false_ne_true), hpool]
    · exact hpool
  have hrun : exec (.unbindingComplete core slot) s =
      .next ((s.hold h.hid).preempt.setBind core slot (fun b => { b with unbinding := 0 })) := by
    show execUnbindingComplete core slot s = _
    simp only [execUnbindingComplete, hl, List.foldl_cons, List.foldl_nil, State.leaveNow, hw, Bool.false_eq_true, if_false, hnone,
      List.isEmpty_nil, if_true]
  refine ⟨_, hrun, by rw [bind_setBind_same], sameBytes_of_mem htm, ?_⟩
  rw [hart_setBind, State.hart_self]
  · rw [hth]
  · rw [hth]; exact ((hk.trans (keepsId_preempted _ _)).2).trans hlive
  · rw [hth]; exact (hk.trans (keepsId_preempted _ _)).1

/-! Binding -/

theorem Tab.mem_erase {α : Type} {t : Tab α} {k : Nat} {e : Nat × α} (h : e ∈ Tab.erase t k) : e ∈ t := by
  induction t with
  | nil => exact h
  | cons x r ih =>
    unfold Tab.erase at h
    split at h
    · exact List.mem_cons_of_mem _ (ih h)
    · rcases List.mem_cons.mp h with h | h
      · exact h ▸ List.mem_cons_self
      · exact List.mem_cons_of_mem _ (ih h)

theorem Tab.mem_insert {α : Type} {t : Tab α} {k : Nat} {v : α} {e : Nat × α} (h : e ∈ Tab.insert t k v) : e = (k, v) ∨ e ∈ t := by
  induction t with
  | nil => exact Or.inl (List.mem_singleton.mp h)
  | cons x r ih =>
    unfold Tab.insert at h
    split at h
    · exact List.mem_cons.mp h
    · rcases List.mem_cons.mp h with h | h
      · exact Or.inr (h ▸ List.mem_cons_self)
      · exact (ih h).imp_right (List.mem_cons_of_mem _)

/-- What holds of every entry holds of every entry after a write of a value of which it holds. -/
theorem Tab.forall_set {α : Type} [DecidableEq α] {d : α} {P : α → Prop} {t : Tab α} {v : α} (h : ∀ e ∈ t, P e.2) (hv : P v) (k : Nat) :
    ∀ e ∈ Tab.set d t k v, P e.2 := by
  intro e he
  unfold Tab.set at he
  split at he
  · exact h e (Tab.mem_erase he)
  · rcases Tab.mem_insert he with rfl | he
    · exact hv
    · exact h e (Tab.mem_erase he)

/-- What holds of the default and of every entry holds of what a key reads as. -/
theorem Tab.forall_get {α : Type} {d : α} {P : α → Prop} {t : Tab α} (h : ∀ e ∈ t, P e.2) (hd : P d) (k : Nat) : P (Tab.get d t k) := by
  unfold Tab.get
  induction t with
  | nil => exact hd
  | cons x r ih =>
    unfold Tab.find
    split
    · exact h _ List.mem_cons_self
    · exact ih (fun e he => h e (List.mem_cons_of_mem _ he))

/-- The record does not name a valid hart of an id. -/
def NotNaming (n : Nat) (b : Bind) : Prop := (b.v && b.hart == n) = false

theorem namesHart_false (s : State) (n : Nat) : s.namesHart n = false ↔ ∀ c ∈ s.cores, ∀ b ∈ c.2.binds, NotNaming n b.2 := by
  simp only [State.namesHart, List.any_eq_false, NotNaming, Bool.not_eq_true]

/-- A change of a record that does not name the hart afterwards keeps the id free. -/
theorem namesHart_setBind {s : State} {core slot n : Nat} {f : Bind → Bind} (hf : NotNaming n (f (s.bind core slot)))
    (h : s.namesHart n = false) : (s.setBind core slot f).namesHart n = false := by
  rw [namesHart_false] at h ⊢
  have hc : ∀ b ∈ (s.core core).binds, NotNaming n b.2 :=
    Tab.forall_get (P := fun c : Core => ∀ b ∈ c.binds, NotNaming n b.2) h (fun b hb => absurd hb List.not_mem_nil) core
  exact Tab.forall_set (P := fun c : Core => ∀ b ∈ c.binds, NotNaming n b.2) h (Tab.forall_set hc hf slot) core

/-- The record with its note of a reserved bit cleared. -/
def Bind.clean (b : Bind) : Bind := { b with bad1 := false }

/-- What a clean record leaves of every record. -/
theorem bind_clean {α : Type} (g : Bind → α) (hg : ∀ b, g b.clean = g b) (s : State) (core slot i : Nat) :
    g ((s.setBind core slot Bind.clean).bind core i) = g (s.bind core i) := by
  by_cases e : i = slot
  · rw [e, bind_setBind_same, hg]
  · rw [bind_setBind_other s core _ e]

theorem takenGroups_clean (s : State) (core slot but : Nat) :
    (s.setBind core slot Bind.clean).takenGroups core but = s.takenGroups core but := by
  simp only [State.takenGroups, bind_clean Bind.v (fun _ => rfl), bind_clean Bind.lgm (fun _ => rfl), bind_clean Bind.unbinding (fun _ => rfl)]

theorem livePartition_setBind (s : State) (core slot : Nat) (f : Bind → Bind) (c n : Nat) :
    (s.setBind core slot f).livePartition c n = s.livePartition c n := by
  have hp : (s.setBind core slot f).pmapEntry c = s.pmapEntry c := by
    funext j
    exact congrArg (fun t : Tab Word => bits (Tab.get 0 t (j / 4)).toNat (16 * (j % 4)) 16) (core_setCore_keeps Core.pmap s core c (fun _ => rfl))
  unfold State.livePartition State.partition
  rw [hp]
  rfl

/-- A record that passes its checks passes them with its note of a reserved bit cleared. -/
theorem bindErr_clean {s : State} {core slot x : Nat} (hv : (s.bind core slot).v = false) (h : s.bindErr core slot x = 0) :
    (s.setBind core slot Bind.clean).bindErr core slot x = 0 := by
  have hn : ∀ n, s.namesHart n = false → (s.setBind core slot Bind.clean).namesHart n = false := fun n =>
    namesHart_setBind (by simp only [NotNaming, Bind.clean, hv, Bool.false_and])
  have hp : ∀ n, (s.setBind core slot Bind.clean).livePartition core n = s.livePartition core n := livePartition_setBind s core slot _ core
  have ht : ∀ n, (s.setBind core slot Bind.clean).tenant n = s.tenant n := fun n => rfl
  unfold State.bindErr at h ⊢
  simp only [hart_setBind, hp, ht, takenGroups_clean, bind_setBind_same] at h ⊢
  split at h
  · exact h
  · split_ifs at h with c1 c2 c3 c4 c5 c6
    have hb : ¬(decide (bits x 42 14 ≠ 0) || decide (bits x 24 8 ≠ 0) || (s.bind core slot).clean.bad1) = true := by
      simp only [Bool.or_eq_true, not_or] at c6 ⊢
      exact ⟨c6.1, Bool.false_ne_true⟩
    rw [hn _ (Bool.not_eq_true _ ▸ c1), if_neg Bool.false_ne_true, if_neg c2, if_neg c3, if_neg c4, if_neg c5, if_neg hb]

theorem restoreScalar_clean {s : State} (h : s.restoreBad = []) (n : Nat) : s.restoreScalar n = s := by
  unfold State.restoreScalar
  split
  · rfl
  · simp only [State.findings, State.clearFindings, h, List.filter_nil, List.isEmpty_nil, if_true]
    rw [← h]

/-- The state in which a record that passes its checks has bound its hart, before its scalar context is restored. -/
def State.bindTo (s : State) (core slot : Nat) (d0 : Word) (quant : Nat) : State :=
  let x := d0.toNat
  let s1 := (s.setBind core slot (fun b => { b.fields x 0 s.gtb true with quant := quant })).updHart (bits x 0 16) (fun h => h.bound slot)
  if (((s.hart (bits x 0 16)).bind (fun h => h.wait)).bind (fun w => w.ans)).isSome then s1.count (bits x 32 10) 1 1 else s1

theorem hart_bindTo {s : State} {d0 : Word} {h : Hart} (hh : s.hart (bits d0.toNat 0 16) = some h) (hl : h.live = true) (core slot quant : Nat) :
    (s.bindTo core slot d0 quant).hart (bits d0.toNat 0 16) = some (h.bound slot) := by
  have h1 := hart_updHart_self (fun k => (keepsId_bound k slot).2) (fun k => (keepsId_bound k slot).1)
    ((hart_setBind s core slot (fun b => { b.fields d0.toNat 0 s.gtb true with quant := quant }) _).trans hh) hl
  unfold State.bindTo
  simp only []
  split
  · exact (hart_count ..).trans h1
  · exact h1

theorem bind_bindTo (s : State) (core slot : Nat) (d0 : Word) (quant : Nat) :
    (s.bindTo core slot d0 quant).bind core slot = { (s.bind core slot).fields d0.toNat 0 s.gtb true with quant := quant } := by
  have h1 := bind_setBind_same s core slot (fun b => { b.fields d0.toNat 0 s.gtb true with quant := quant })
  unfold State.bindTo
  simp only []
  split
  · exact (bind_of_cores (cores_count ..) core slot).trans h1
  · exact h1

theorem restoreBad_bindTo (s : State) (core slot : Nat) (d0 : Word) (quant : Nat) : (s.bindTo core slot d0 quant).restoreBad = s.restoreBad := by
  unfold State.bindTo
  simp only []
  split
  · exact (congrArg State.restoreBad (count_only ..) :)
  · rfl

/-- The record's writer: in host-assisted mode the host leaves the note of a reserved bit as it is. -/
def State.writes (s : State) (core slot : Nat) (host : Bool) : State := if host then s else s.setBind core slot Bind.clean

/-- A record that passes its checks binds its hart. -/
theorem submit_ok {s : State} {core slot : Nat} {d0 : Word} {host : Bool} (hhost : host = bit s.hub.split 1) (hslot : slot < 8)
    (hv : (s.bind core slot).v = false) (hres : (s.die (dieOfCore core)).inReset = false) (he : s.bindErr core slot d0.toNat = 0)
    (hb : s.restoreBad = []) :
    s.submit core slot d0 host =
      (s.writes core slot host).bindTo core slot d0 (if host then (s.bind core slot).quant else s.quantum (bits d0.toNat 56 3)) := by
  have hg : (decide (host ≠ bit s.hub.split 1) || decide (8 ≤ slot) || (s.bind core slot).v || (s.die (dieOfCore core)).inReset) = false := by
    simp only [hhost, hv, hres, ne_eq, not_true_eq_false, decide_false, Bool.or_false, Bool.false_or, decide_eq_false_iff_not, Nat.not_le]
    exact hslot
  have hw : (s.writes core slot host).bindErr core slot d0.toNat = 0 := by
    unfold State.writes
    split
    · exact he
    · exact bindErr_clean hv he
  have hr : (s.writes core slot host).restoreBad = [] := by
    unfold State.writes
    split <;> exact hb
  have hc : ∀ q, ((s.writes core slot host).bindTo core slot d0 q).restoreScalar (bits d0.toNat 0 16) =
      (s.writes core slot host).bindTo core slot d0 q := fun q => restoreScalar_clean ((restoreBad_bindTo ..).trans hr) _
  rw [← hc]
  unfold State.submit
  simp only [hg, Bool.false_eq_true, if_false]
  cases host
  · have hw : (s.setBind core slot (fun b => { b with bad1 := false })).bindErr core slot d0.toNat = 0 := hw
    simp only [Bool.false_eq_true, if_false, hw]
    rfl
  · have hw : s.bindErr core slot d0.toNat = 0 := hw
    simp only [if_true, hw]
    rfl

theorem bindRecordSubmit_eq {s : State} {core slot : Nat} {d0 : Word} {host : Bool} (h63 : bit d0.toNat 63 = true) (h8 : s.hub.phase ≠ 8) :
    exec (.bindRecordSubmit core slot d0 host) s = .next (s.submit core slot d0 host) := by
  have ha : s.answers = true := by simpa [State.answers] using h8
  show execBindRecordSubmit core slot d0 host s = _
  simp only [execBindRecordSubmit, State.ifAnswers, ha, h63, if_true]

theorem hart_writes (s : State) (core slot : Nat) (host : Bool) (n : Nat) : (s.writes core slot host).hart n = s.hart n := by
  unfold State.writes
  split
  · rfl
  · exact hart_setBind ..

theorem gtb_writes (s : State) (core slot : Nat) (host : Bool) : (s.writes core slot host).gtb = s.gtb := by
  unfold State.writes
  split
  · rfl
  · rfl

/-! Power -/

theorem powerSample_lp {s : State} {watts : Nat} (hw : s.hub.power < watts) {h : Hart} (hl : s.lowerable 0 5 = some h) :
    exec (.powerSample watts) s = .next (s.updHart h.hid lowerLp) := by
  show execPowerSample watts s = _
  simp only [execPowerSample, hw, hl, if_true]

theorem powerSample_clock {s : State} {watts : Nat} (hw : s.hub.power < watts) (hl : s.lowerable 0 5 = none) (hc : 1600 < s.hub.clock) :
    exec (.powerSample watts) s = .next { s with hub := { s.hub with clock := max 1600 (s.hub.clock - 100) } } := by
  show execPowerSample watts s = _
  simp only [execPowerSample, hw, hl, hc, if_true]
  rfl

theorem powerSample_within {s : State} {watts : Nat} (hw : watts ≤ s.hub.power) (h95 : s.hub.power * 95 < watts * 100) :
    exec (.powerSample watts) s = .next s := by
  show execPowerSample watts s = _
  simp only [execPowerSample, Nat.not_lt.mpr hw, Nat.not_le.mpr h95, if_false]

/-! Ends of harts -/

/-- A hart's part in its job, its lanes and its context given up. -/
def State.givenUp (s : State) (h : Hart) (hid : Nat) : State :=
  (({ s with jobs := s.jobs.map (Job.lose h.job h.tid s.gtb) } : State).dropLanes h.core hid).setDie h.die
    (fun d => { d with shadow := d.shadow + h.contextBytes })

/-- And its bind record removed. -/
def State.unseated (s : State) (h : Hart) (hid : Nat) : State :=
  match h.slot with
  | some slot => ((s.givenUp h hid).setBind h.core slot Bind.removed).unbindNotice h.core slot hid h.tid
  | none => s.givenUp h hid

theorem unseated_facts (s : State) (h : Hart) (hid : Nat) :
    (s.unseated h hid).h = s.h ∧ (s.unseated h hid).pool = s.pool ∧ (s.unseated h hid).mem = s.mem ∧
      ∀ slot, h.slot = some slot → ((s.unseated h hid).bind h.core slot).v = false := by
  unfold State.unseated
  split
  · next slot hs =>
    have ho := unbindNotice_only ((s.givenUp h hid).setBind h.core slot Bind.removed) h.core slot hid h.tid
    refine ⟨(congrArg State.h ho :), (congrArg State.pool ho :), (congrArg State.mem ho :), fun k hk => ?_⟩
    rw [hs, Option.some.injEq] at hk
    rw [← hk, bind_of_cores (cores_unbindNotice ..), bind_setBind_same]
    rfl
  · next hs => exact ⟨rfl, rfl, rfl, fun k hk => by rw [hs] at hk; exact absurd hk (by simp)⟩

/-- What the end of a hart leaves in hand, of the others, of memory, and of its record. -/
theorem endHart_facts {s : State} {hid : Nat} {h : Hart} (hh : s.hart hid = some h) :
    (s.endHart hid).h = (if s.h.hid = hid then Hart.blank else s.h) ∧ (s.endHart hid).pool = s.pool.filter (fun k => k.hid ≠ hid) ∧
      (s.endHart hid).mem = s.mem ∧ ∀ slot, h.slot = some slot → ((s.endHart hid).bind h.core slot).v = false := by
  obtain ⟨h1, h2, h3, h4⟩ := unseated_facts s h hid
  have he : s.endHart hid = { s.unseated h hid with
      objs := (s.unseated h hid).objs.map (fun e => (e.1, e.2.map (ghostObj hid))),
      leaseQ := (s.unseated h hid).leaseQ.filter (fun r => r.hid ≠ hid),
      engines := (s.unseated h hid).engines.map (fun e => (e.1, ghostEngine hid e.2)),
      pool := (s.unseated h hid).pool.filter (fun k => k.hid ≠ hid), slow := (s.unseated h hid).slow.filter (fun r => r.hid ≠ hid),
      h := if (s.unseated h hid).h.hid = hid then Hart.blank else (s.unseated h hid).h } := by
    unfold State.endHart
    simp only [hh]
    rfl
  rw [he]
  exact ⟨by rw [h1], by rw [h2], h3, h4⟩

theorem find_filter_same (l : List Hart) (n : Nat) : (l.filter (fun k => k.hid ≠ n)).find? (fun k => k.hid == n) = none := by
  rw [List.find?_eq_none]
  intro k hk hn
  rw [List.mem_filter] at hk
  simp_all

theorem find_filter_other (l : List Hart) {n m : Nat} (h : m ≠ n) :
    (l.filter (fun k => k.hid ≠ n)).find? (fun k => k.hid == m) = l.find? (fun k => k.hid == m) := by
  rw [List.find?_filter]
  congr 1
  funext k
  by_cases hk : k.hid = m
  · simp [hk, h]
  · simp [hk]

/-- A hart that has ended is found no more, and every other is found as before. -/
theorem hart_endHart {s : State} {hid : Nat} {h : Hart} (hh : s.hart hid = some h) :
    (s.endHart hid).hart hid = none ∧ ∀ n, n ≠ hid → (s.endHart hid).hart n = s.hart n := by
  obtain ⟨h1, h2, -, -⟩ := endHart_facts hh
  unfold State.hart State.harts
  rw [h1, h2]
  by_cases hi : s.h.hid = hid
  · rw [if_pos hi, if_neg (by decide : ¬Hart.blank.live = true)]
    refine ⟨find_filter_same .., fun n hn => ?_⟩
    rw [find_filter_other _ hn]
    split
    · rw [List.find?_cons_of_neg]
      simpa [hi] using Ne.symm hn
    · rfl
  · rw [if_neg hi]
    split
    · refine ⟨?_, fun n hn => ?_⟩
      · rw [List.find?_cons_of_neg (by simpa using hi)]
        exact find_filter_same ..
      · rw [List.find?_cons, List.find?_cons, find_filter_other _ hn]
    · exact ⟨find_filter_same .., fun n hn => find_filter_other _ hn⟩

/-! The start of a block -/

theorem withLanes_owned {s : State} (h : Claims.OwnsLanes s) (pc : Word) (f : State → Out) : s.withLanes pc f = f s := by
  have hg : (s.ownsLanes || !s.h.slot.isSome) = true := by rcases h with e | e <;> simp [e]
  simp only [State.withLanes, State.vown, hg, if_true]

/-- Scalar-side registers written one after another from the first. -/
theorem code_foldl_setCode (f : Nat → Word) (n i : Nat) (h : Hart) :
    ((List.range n).foldl (fun k i => k.setCode i (f i)) h).code i = if i < n then f i else h.code i := by
  induction n with
  | zero => rfl
  | succ n ih =>
    rw [List.range_succ, List.foldl_append, List.foldl_cons, List.foldl_nil]
    by_cases hi : i = n
    · rw [hi, Hart.code_setCode_same, if_pos (Nat.lt_succ_self n)]
    · rw [Hart.code_setCode_other _ _ _ _ hi, ih]
      exact if_congr (by omega) rfl rfl

theorem blockStart_run {s : State} {e : QEntry} {rest : List QEntry} (hq : s.h.queue = e :: rest) (hv : s.h.vectorRuns = true)
    (hr : s.h.run = none) (ho : Claims.OwnsLanes s) :
    exec .blockStart s = .next { (s.setH (fun h => h.takeBlock e rest)) with did := .nothing } := by
  show execBlockStart s = _
  simp only [execBlockStart, hq, hv, hr, Option.isNone_none, Bool.and_self, if_true, withLanes_owned ho]

/-- A change of the hart in hand is nothing else, but for the note of what was done. -/
theorem onlyHart_setH (s : State) (f : Hart → Hart) (d : Did) : OnlyHart s { s.setH f with did := d } := rfl

/-- What taking a block leaves of the hart beside its vector side, and what it gives that side. -/
theorem takeBlock_facts (h : Hart) (e : QEntry) (rest : List QEntry) :
    (h.takeBlock e rest).x = h.x ∧ (h.takeBlock e rest).pc = h.pc ∧ ∀ i < 8, (h.takeBlock e rest).code i = e.args.getD i 0 := by
  refine ⟨?_, ?_, fun i hi => ?_⟩
  · exact foldl_keeps Hart.x (fun k i => k.setCode i (e.args.getD i 0)) (fun _ _ => rfl) (List.range 8) h
  · exact foldl_keeps Hart.pc (fun k i => k.setCode i (e.args.getD i 0)) (fun _ _ => rfl) (List.range 8) h
  · exact (code_foldl_setCode (fun i => e.args.getD i 0) 8 i h).trans (if_pos hi)

/-! The issue of a convoy -/

theorem convoyIssue_words {s s1 : State} {l : List Slot} (hv : s.h.vectorRuns = true) (hr : s.h.run ≠ none) (hc : s.h.conv = [])
    (ho : Claims.OwnsLanes s) (hp : s.h.pagePendV = []) (hb : s.h.inBlock s.h.vpc = true)
    (hf : s.fetchConvoy s.h.vpc true 1024 [] = (s1, .words l)) : exec .convoyIssue s = .next (s1.issueWords l) := by
  have hg : (!(s.h.vectorRuns && s.h.run.isSome && s.h.conv.isEmpty)) = false := by
    simp [hv, hc, Option.isSome_iff_ne_none.mpr hr]
  show execConvoyIssue s = _
  simp only [execConvoyIssue, hg, Bool.false_eq_true, if_false, withLanes_owned ho, State.convoyAt, hp, hb, Bool.not_true, hf]

/-- A convoy none of whose words has a breakpoint meets none. -/
theorem convoyBreak_none {s : State} {l : List Slot} (h : ∀ x ∈ l, s.breakpoints 1 x.1 = []) : s.convoyBreak l = (s, false) := by
  have hl : l.flatMap (fun x => (s.breakpoints 1 x.1).map (fun n => (n, x.1))) = [] := by
    rw [List.flatMap_eq_nil_iff]
    intro x hx
    rw [h x hx, List.map_nil]
  simp only [State.convoyBreak, hl, State.meet, List.filter_nil, List.foldl_nil, List.find?_nil, List.append_nil]
  rfl

theorem issueWords_held {s : State} {l : List Slot} (h : s.convoyFate l = .hold ∨ s.convoyFate l = .ok ∧ s.entriesFor l = false) :
    s.issueWords l = s.setH (fun h => { h with viw := none }) := by
  have hg : (decide (s.convoyFate l = .hold) || (decide (s.convoyFate l = .ok) && !s.entriesFor l)) = true := by
    rcases h with e | ⟨e1, e2⟩
    · simp [e]
    · simp [e1, e2]
  simp only [State.issueWords, hg, if_true]

/-- A convoy that nothing holds up and that meets no breakpoint goes by its fate. -/
theorem issueWords_free {s : State} {l : List Slot} (hb : ∀ x ∈ l, s.breakpoints 1 x.1 = []) (hh : s.convoyFate l ≠ .hold)
    (he : s.convoyFate l = .ok → s.entriesFor l = true) :
    (s.convoyFate l = .ok → s.issueWords l = s.issueNow l) ∧
      (∀ c v a, s.convoyFate l = .trap c v a → s.issueWords l = s.convoyTrap c v a) ∧
      (∀ p a, s.convoyFate l = .wait p a → s.issueWords l = s.vstallAt p s.h.cut 1) := by
  have hg : (decide (s.convoyFate l = .hold) || (decide (s.convoyFate l = .ok) && !s.entriesFor l)) = false := by
    by_cases hk : s.convoyFate l = .ok
    · simp [hk, he hk]
    · simp [hh, hk]
  unfold State.issueWords
  rw [if_neg (by rw [hg]; exact Bool.false_ne_true)]
  simp only [convoyBreak_none hb]
  refine ⟨fun e => ?_, fun c v a e => ?_, fun p a e => ?_⟩
  · simp only [e]
  · simp only [e]
  · simp only [e]

/-! Rechecks -/

/-- What has changed at most the memory's own keeping has the same harts and cores. -/
theorem hart_of_unrecorded {s t : State} (h : t.unrecorded = s.unrecorded) (n : Nat) : t.hart n = s.hart n :=
  congrArg (List.find? (fun k : Hart => k.hid == n)) (harts_of_unrecorded h)

theorem cores_of_unrecorded {s t : State} (h : t.unrecorded = s.unrecorded) : t.cores = s.cores := (congrArg State.cores h :)

theorem recheckRun_agree {s : State} {hid : Nat} (elem : Nat) {h : Hart} {r : Recheck} (hh : s.hart hid = some h)
    (hr : (s.core h.core).recheck.find? (fun r => r.hid == hid) = some r) :
    exec (.recheckRun hid elem .agree) s = .next ((s.count h.tid 13 (if r.votes.isEmpty then 1 else 0)).setCore h.core
      (fun c => { c with recheck := c.recheck.erase r })) := by
  show execRecheckRun hid elem .agree s = _
  simp only [execRecheckRun, hh, hr]

theorem recheckRun_runs {s : State} {hid elem : Nat} {h : Hart} {r : Recheck} (a b c : Option RunRes) {at_ : Word} {w : IWord}
    {rest : List (Word × IWord)} (hh : s.hart hid = some h) (hr : (s.core h.core).recheck.find? (fun r => r.hid == hid) = some r)
    (hc : r.conv = (at_, w) :: rest) (hv : ({ h with vx := r.vx } : Hart).votesOn w elem = true) (hn : ∀ x ∈ r.votes, x.elem ≠ elem) :
    exec (.recheckRun hid elem (.runs a b c)) s = .next (s.compareRuns h r at_ elem a b c) := by
  have hany : r.votes.any (fun v => v.elem == elem) = false := by simpa using hn
  show execRecheckRun hid elem (.runs a b c) s = _
  simp only [execRecheckRun, hh, hr, hc, hv, hany, Bool.not_false, Bool.and_self, if_true]

theorem recheckRun_idle {s : State} {hid elem : Nat} {h : Hart} {r : Recheck} (a b c : Option RunRes) {at_ : Word} {w : IWord}
    {rest : List (Word × IWord)} (hh : s.hart hid = some h) (hr : (s.core h.core).recheck.find? (fun r => r.hid == hid) = some r)
    (hc : r.conv = (at_, w) :: rest)
    (hv : ({ h with vx := r.vx } : Hart).votesOn w elem = false ∨ ∃ x ∈ r.votes, x.elem = elem) :
    exec (.recheckRun hid elem (.runs a b c)) s = .next s := by
  have hg : (({ h with vx := r.vx } : Hart).votesOn w elem && !r.votes.any (fun v => v.elem == elem)) = false := by
    rcases hv with e | ⟨x, hx, he⟩
    · rw [e, Bool.false_and]
    · have : r.votes.any (fun v => v.elem == elem) = true := List.any_eq_true.mpr ⟨x, hx, by rw [he, beq_self_eq_true]⟩
      rw [this, Bool.not_true, Bool.and_false]
  show execRecheckRun hid elem (.runs a b c) s = _
  simp only [execRecheckRun, hh, hr, hc, hg, Bool.false_eq_true, if_false]

/-- The state once the runs of an element have been counted, and their disagreement recorded. -/
def State.compared (s : State) (h : Hart) (r : Recheck) (at_ : Word) (elem : Nat) (first second : Option RunRes) (v : Voted) : State :=
  let s1 := s.count h.tid 13 ((if r.votes.isEmpty then 1 else 0) + (if first = second then 0 else 1))
  if first = second then s1 else s1.mcheck (if v.failed then 4 else 3) h.die h.tid h.hid h.core at_ elem

theorem compared_facts (s : State) (h : Hart) (r : Recheck) (at_ : Word) (elem : Nat) (first second : Option RunRes) (v : Voted) :
    let t := s.compared h r at_ elem first second v
    (∀ n, t.hart n = s.hart n) ∧ t.cores = s.cores ∧ (∀ x, inMcRing x = false → t.byteAt x = s.byteAt x) ∧
      (first = second → t.mem = s.mem) := by
  unfold State.compared
  simp only []
  split
  · next e =>
    exact ⟨fun n => hart_count .., cores_count .., fun x _ => congrArg (Tab.get 0 · x) (mem_count ..), fun _ => mem_count ..⟩
  · next e =>
    refine ⟨fun n => ?_, ?_, fun x hx => ?_, fun e2 => absurd e2 e⟩
    · exact (hart_of_unrecorded (unrecorded_mcheck ..) n).trans (hart_count ..)
    · exact (cores_of_unrecorded (unrecorded_mcheck ..)).trans (cores_count ..)
    · exact (byteAt_mcheck _ _ _ _ _ _ _ _ x hx).trans (congrArg (Tab.get 0 · x) (mem_count ..))

theorem keepsId_unwind (r : Recheck) (v : Voted) (h : Hart) : KeepsId h (h.unwind r v) := ⟨rfl, rfl⟩

/-- A vote that gives what the word computes is kept with its entry. -/
theorem compareRuns_kept {s : State} {h : Hart} {r : Recheck} {at_ : Word} {elem : Nat} {a b c : Option RunRes}
    (hv : (voteOf elem a b c).res = none) (hf : (voteOf elem a b c).failed = false) :
    s.compareRuns h r at_ elem a b c = (s.compared h r at_ elem a b (voteOf elem a b c)).setCore h.core
      (fun k => { k with recheck := keepVote h.hid (voteOf elem a b c) k.recheck }) := by
  have hg : ((voteOf elem a b c).res.isNone && !(voteOf elem a b c).failed) = true := by rw [hv, hf]; rfl
  simp only [State.compareRuns, hg, if_true]
  rfl

/-- A vote that gives another result, or fails, takes the vector side back. -/
theorem compareRuns_undone {s : State} {h : Hart} {r : Recheck} {at_ : Word} {elem : Nat} {a b c : Option RunRes}
    (hv : (voteOf elem a b c).res ≠ none ∨ (voteOf elem a b c).failed = true) :
    s.compareRuns h r at_ elem a b c = ((s.compared h r at_ elem a b (voteOf elem a b c)).dropEntries h.core h.hid).updHart h.hid
      (fun k => k.unwind r (voteOf elem a b c)) := by
  have hg : ((voteOf elem a b c).res.isNone && !(voteOf elem a b c).failed) = false := by
    rcases hv with e | e
    · rw [Option.isNone_eq_false_iff.mpr (Option.isSome_iff_ne_none.mpr e), Bool.false_and]
    · rw [e, Bool.not_true, Bool.and_false]
  simp only [State.compareRuns, hg, Bool.false_eq_true, if_false]
  rfl

/-- The bytes after a comparison, whatever it does to the queue. -/
theorem compareRuns_bytes (s : State) (h : Hart) (r : Recheck) (at_ : Word) (elem : Nat) (a b c : Option RunRes) :
    (∀ x, inMcRing x = false → (s.compareRuns h r at_ elem a b c).byteAt x = s.byteAt x) ∧
      (a = b → SameBytes s (s.compareRuns h r at_ elem a b c)) := by
  obtain ⟨-, -, h3, h4⟩ := compared_facts s h r at_ elem a b (voteOf elem a b c)
  have hm : (s.compareRuns h r at_ elem a b c).mem = (s.compared h r at_ elem a b (voteOf elem a b c)).mem := by
    by_cases hv : (voteOf elem a b c).res ≠ none ∨ (voteOf elem a b c).failed = true
    · rw [compareRuns_undone hv]
      rfl
    · rw [not_or, not_not, Bool.not_eq_true] at hv
      rw [compareRuns_kept hv.1 hv.2]
      rfl
  exact ⟨fun x hx => (congrArg (Tab.get 0 · x) hm).trans (h3 x hx), fun e => sameBytes_of_mem (hm.trans (h4 e))⟩

/-- The last clause: what a comparison of runs does to the hart and to the queue. -/
theorem compareRuns_result {s : State} {hid elem : Nat} {h : Hart} {r : Recheck} {at_ : Word} (a b c : Option RunRes)
    (hh : s.hart hid = some h) (hl : h.live = true) :
    let v := voteOf elem a b c
    let t := s.compareRuns h r at_ elem a b c
    (v.res = none → v.failed = false → t.hart hid = some h ∧ (t.core h.core).recheck = keepVote hid v (s.core h.core).recheck) ∧
      (v.res ≠ none ∨ v.failed = true →
        t.hart hid = some (h.unwind r v) ∧ (t.core h.core).recheck = (s.core h.core).recheck.filter (fun x => x.hid != hid)) := by
  obtain ⟨h1, h2, -, -⟩ := compared_facts s h r at_ elem a b (voteOf elem a b c)
  have hid' := State.hid_of_hart hh
  have hcore : (s.compared h r at_ elem a b (voteOf elem a b c)).core h.core = s.core h.core := congrArg (Tab.get Core.reset · h.core) h2
  refine ⟨fun hv hf => ?_, fun hv => ?_⟩
  · rw [compareRuns_kept hv hf, hart_setCore, core_setCore_same, h1, hh, hcore, hid']
    exact ⟨rfl, rfl⟩
  · rw [compareRuns_undone hv, hid']
    refine ⟨?_, ?_⟩
    · exact hart_updHart_self (fun k => (keepsId_unwind r _ k).2) (fun k => (keepsId_unwind r _ k).1)
        ((hart_setCore ..).trans ((h1 hid).trans hh)) hl
    · show (State.core (State.dropEntries _ _ _) _).recheck = _
      rw [State.dropEntries, core_setCore_same, hcore]

end Sys2Proof.Machine

namespace Sys2Proof.Claims
open Sys2Proof.Machine

/-- Settles O58: each event by the lemmas that say what it does. -/
theorem scheduleEvents : Obligations.ScheduleEvents := by
  unfold Obligations.ScheduleEvents
  refine ⟨?_, ?_, ?_, ?_, ?_, ?_, ?_, ?_⟩
  · intro s core slot d0 host h hh hl h63 hhost hslot hv hres h8 he hb
    refine ⟨_, (bindRecordSubmit_eq h63 h8).trans (congrArg Host.Outcome.next (submit_ok hhost hslot hv hres he hb)),
      hart_bindTo ((hart_writes ..).trans hh) hl .., ?_⟩
    rw [bind_bindTo, gtb_writes]
    exact ⟨rfl, rfl, rfl, rfl, rfl, rfl, rfl⟩
  · intro s core slot d0 host h hh hl hv hc hs h8 e he hr
    exact unbindTable_result hh hl hv hc hs h8 he hr
  · intro s core slot
    refine ⟨fun hl => ⟨_, unbindingComplete_free hl, setBind_only .., bind_setBind_same ..⟩, unbindingComplete_waiting, ?_⟩
    intro h b hl hh hlive hb hw hs hp ht hr
    exact unbindingComplete_stands hl hh hlive hb hw hs hp ht hr
  · intro s watts
    exact ⟨fun hw h hl => powerSample_lp hw hl, powerSample_clock, powerSample_within⟩
  · intro s hid h hh
    obtain ⟨-, -, hm, hs⟩ := endHart_facts hh
    obtain ⟨h1, h2⟩ := hart_endHart hh
    exact ⟨_, rfl, h1, sameBytes_of_mem hm, hs, h2⟩
  · intro s e rest hq hv hr ho
    obtain ⟨hx, hpc, hcode⟩ := takeBlock_facts s.h e rest
    exact ⟨_, blockStart_run hq hv hr ho, onlyHart_setH .., rfl, rfl, hx, hpc, rfl, hcode⟩
  · intro s s1 l hv hr hc ho hp hb hf hbp
    have hx := convoyIssue_words hv hr hc ho hp hb hf
    refine ⟨fun hok hen => ?_, fun c v a ht => ?_, fun p a hw => ?_, fun hh => ?_⟩
    · refine ⟨s1.issueNow l, ?_, rfl, rfl, rfl, onlyHart_setH ..⟩
      rw [hx, (issueWords_free hbp (by rw [hok]; exact Fate.noConfusion) (fun _ => hen)).1 hok]
    · rw [hx, (issueWords_free hbp (by rw [ht]; exact Fate.noConfusion) (fun e => by rw [ht] at e; cases e)).2.1 c v a ht]
    · rw [hx, (issueWords_free hbp (by rw [hw]; exact Fate.noConfusion) (fun e => by rw [hw] at e; cases e)).2.2 p a hw]
    · rw [hx, issueWords_held hh]
      rfl
  · intro s hid elem h r hh hl hr
    refine ⟨⟨_, recheckRun_agree elem hh hr, ?_, ?_, ?_⟩, ?_⟩
    · rw [core_setCore_same]
      exact congrArg (fun t : Tab Core => (Tab.get Core.reset t h.core).recheck.erase r) (cores_count ..)
    · rw [hart_setCore, hart_count, hh]
    · exact sameBytes_of_mem (mem_count ..)
    · intro a b c at_ w rest hc v
      refine ⟨fun hv hn => ?_, recheckRun_idle a b c hh hr hc⟩
      obtain ⟨hb1, hb2⟩ := compareRuns_bytes s h r at_ elem a b c
      obtain ⟨hk, hu⟩ := compareRuns_result (r := r) (at_ := at_) (elem := elem) a b c hh hl
      exact ⟨_, recheckRun_runs a b c hh hr hc hv hn, hb1, hb2, hk, hu⟩

end Sys2Proof.Claims
end

section
/-! PROOFS. What the memory system leaves as it stands: the checks of reads, writes at their homes, and the checks of accesses (R72, R78, R85, R86). -/

namespace Sys2Proof.Machine

/-! Errors found by reads -/

/-- The state without what the check of a read may change: what a record of the machine-check ring may change, and the counts of the dies. -/
def State.unfound (s : State) : State := { s.unrecorded with dies := [] }

/-- What the check of a read leaves alone (R72). -/
structure Found (s t : State) : Prop where
  rest : t.unfound = s.unfound
  split : t.hub.split = s.hub.split

namespace Found

theorem refl (s : State) : Found s s := ⟨rfl, rfl⟩

theorem trans {s t u : State} (h : Found s t) (h2 : Found t u) : Found s u := ⟨h2.rest.trans h.rest, h2.split.trans h.split⟩

theorem foldl {β : Type} {f : State → β → State} (h : ∀ s b, Found s (f s b)) (l : List β) (s : State) : Found s (l.foldl f s) :=
  ⟨foldl_keeps State.unfound f (fun u b => (h u b).rest) l s, foldl_keeps (fun u : State => u.hub.split) f (fun u b => (h u b).split) l s⟩

theorem ploughs {s t : State} (h : Found s t) : t.ploughs = s.ploughs := (congrArg State.ploughs h.rest :)
theorem copied {s t : State} (h : Found s t) : t.copied = s.copied := (congrArg State.copied h.rest :)
theorem rob {s t : State} (h : Found s t) : t.rob = s.rob := (congrArg State.rob h.rest :)

end Found

section

variable (s : State)

theorem split_keyed (t a n : Nat) : (s.keyed t a n).hub.split = s.hub.split := by
  unfold State.keyed
  split
  · exact foldl_keeps (fun u : State => u.hub.split) _ (by intros; rfl) _ s
  · rfl

theorem split_putRecord (r : List Word) : (s.putRecord r).hub.split = s.hub.split := split_keyed s 0 _ _

theorem split_hostPost (a b : Nat) (l : List Byte) : (s.hostPost a b l).hub.split = s.hub.split := by
  unfold State.hostPost; simp only []; split <;> rfl

theorem split_mcheck (a b c d e : Nat) (w : Word) (f : Nat) : (s.mcheck a b c d e w f).hub.split = s.hub.split := by
  obtain ⟨t, ht, hm⟩ := mcheck_cases s a b c d e w f
  have h1 : t.hub.split = s.hub.split := by
    rw [ht]
    split
    · exact split_putRecord ..
    · rfl
  rcases hm with hm | ⟨l, hm⟩ <;> rw [hm]
  · exact h1
  · exact (split_hostPost ..).trans h1

theorem found_mcheck (a b c d e : Nat) (w : Word) (f : Nat) : Found s (s.mcheck a b c d e w f) :=
  ⟨congrArg (fun u : State => ({ u with dies := [] } : State)) (unrecorded_mcheck ..), split_mcheck ..⟩

theorem found_mcheckMem (k t h a : Nat) : Found s (s.mcheckMem k t h a) := found_mcheck ..

theorem found_mcheckUnit (t h u : Nat) : Found s (s.mcheckUnit t h u) := by
  unfold State.mcheckUnit
  split
  · exact found_mcheckMem ..
  · split <;> exact found_mcheck ..

theorem found_marks (e : Tab Nat) (p : Tab Bool) : Found s { s with ecc := e, psn := p } := ⟨rfl, rfl⟩

theorem found_checkUnit (t h u : Nat) : Found s (s.checkUnit t h u) := by
  unfold State.checkUnit
  split
  · exact .refl s
  · exact ⟨rfl, rfl⟩
  · simp only []
    split
    · exact found_marks s _ s.psn
    · exact (found_marks s _ _).trans (found_mcheckUnit ..)

theorem found_checkRead (t h a n : Nat) : Found s (s.checkRead t h a n) := by
  unfold State.checkRead
  split
  · exact .refl s
  · exact .foldl (fun u x => found_checkUnit u t h x) ..

end

/-! What writes leave alone -/

/-- The state without what reads and writes may change: memory and its tables, translations, rings, counters of tenants, ploughs and dies, and
the journals and planes of regions. Harts, engines and objects stay. -/
def State.still (s : State) : State :=
  { s.unfound with tlb := [], copied := [], grdMarks := [], tenants := [], ploughs := [], regions := [], free := 0 }

/-- What a read or a write leaves alone. -/
structure Still (s t : State) : Prop where
  rest : t.still = s.still

namespace Still

theorem refl (s : State) : Still s s := ⟨rfl⟩

theorem trans {s t u : State} (h : Still s t) (h2 : Still t u) : Still s u := ⟨h2.rest.trans h.rest⟩

theorem foldl {β : Type} {f : State → β → State} (h : ∀ s b, Still s (f s b)) (l : List β) (s : State) : Still s (l.foldl f s) :=
  ⟨foldl_keeps State.still f (fun u b => (h u b).rest) l s⟩

theorem of_found {s t : State} (h : Found s t) : Still s t := ⟨(congrArg State.still h.rest :)⟩

theorem h {s t : State} (h : Still s t) : t.h = s.h := (congrArg State.h h.rest :)
theorem engines {s t : State} (h : Still s t) : t.engines = s.engines := (congrArg State.engines h.rest :)
theorem rob {s t : State} (h : Still s t) : t.rob = s.rob := (congrArg State.rob h.rest :)

end Still

section

variable (s : State)

theorem still_setTenant (n : Nat) (f : Tenant → Tenant) : Still s (s.setTenant n f) := ⟨rfl⟩
theorem still_setPlough (n : Nat) (f : Plough → Plough) : Still s (s.setPlough n f) := ⟨rfl⟩
theorem still_setRegion (n : Nat) (r : Option Region) : Still s (s.setRegion n r) := ⟨rfl⟩
theorem still_store (a : Nat) (l : List Byte) (b : Bool) : Still s (s.store a l b) := ⟨rfl⟩
theorem still_noteCopy (a : Nat) : Still s (s.noteCopy a) := ⟨rfl⟩
theorem still_free (n : Nat) : Still s { s with free := n } := ⟨rfl⟩
theorem still_forgot (l : List TlbEntry) : Still s { s with tlb := l } := ⟨rfl⟩
theorem still_reported (l : List Nat) : Still s { s with tableRep := l } := ⟨rfl⟩
theorem still_marked (p : Tab Bool) : Still s { s with psn := p } := ⟨rfl⟩
theorem still_keyed (t a n : Nat) : Still s (s.keyed t a n) := ⟨(congrArg State.still (unrecorded_keyed s t a n) :)⟩
theorem still_storeDev (a : Nat) (l : List Byte) : Still s (s.storeDev a l) := (still_keyed s 0 a l.length).trans (still_store ..)

theorem still_count (t i n : Nat) : Still s (s.count t i n) := by
  unfold State.count
  split
  · exact .refl s
  · exact still_setTenant ..

theorem still_countMem (t a n : Nat) : Still s (s.countMem t a n) := by
  unfold State.countMem
  split
  · exact still_count ..
  · split
    · exact still_count ..
    · split
      · exact still_count ..
      · exact .refl s

theorem still_checkRead (t h a n : Nat) : Still s (s.checkRead t h a n) := .of_found (found_checkRead ..)

theorem still_read (t h a n : Nat) : Still s (s.read t h a n).1 := by
  unfold State.read
  split
  · exact (Still.of_found (found_mcheckMem ..)).trans (still_free ..)
  · exact (still_checkRead ..).trans (still_countMem ..)

theorem still_readAt (a : Actor) (pl : Place) (n : Nat) : Still s (s.readAt a pl n).1 := still_read ..

theorem still_logDirty (a : Nat) : Still s (s.logDirty a) := by
  unfold State.logDirty
  split
  · exact .refl s
  · extract_lets e tag t page cell s0 s1 cell2 s2
    have h0 : Still s s0 := still_checkRead ..
    have h1 : Still s s1 := h0.trans (still_storeDev ..)
    repeat' split
    · exact .refl s
    · exact h0
    · exact (h1.trans (still_storeDev ..)).trans (still_setTenant ..)
    · exact ((h1.trans (still_checkRead ..)).trans (still_storeDev ..)).trans (still_setTenant ..)

theorem still_perform (t h a : Nat) (l : List Byte) (b : Bool) : Still s (s.perform t h a l b) := by
  unfold State.perform
  split
  · exact .of_found (found_mcheckMem ..)
  · exact (((still_logDirty ..).trans (still_noteCopy ..)).trans (still_keyed ..)).trans (still_store ..)

theorem still_write (t h a : Nat) (l : List Byte) (b : Bool) : Still s (s.write t h a l b) := by
  unfold State.write
  split
  · exact still_perform ..
  · exact (still_perform ..).trans (still_countMem ..)

theorem still_markLine (pl : Place) : Still s (s.markLine pl) := by
  unfold State.markLine
  repeat' split
  · exact .refl s
  · exact ⟨rfl⟩
  · exact .refl s

theorem still_planeStore (n : Nat) (r : Region) (x off v : Nat) (b : Bool) : Still s (s.planeStore n r x off v b) := by
  unfold State.planeStore
  repeat' split
  · exact .refl s
  · exact .refl s
  · exact still_setRegion ..
  · exact still_setRegion ..
  · exact .refl s

theorem still_guardNote (a : Actor) (n : Nat) (r : Region) (off len : Nat) : Still s (s.guardNote a n r off len) := by
  unfold State.guardNote
  repeat' split
  · exact .refl s
  · exact still_setRegion ..
  · exact (Still.foldl (fun t w => still_checkRead t ..) ..).trans (still_setRegion ..)

theorem still_combStore (a : Actor) (n : Nat) (r : Region) (off : Nat) (l : List Byte) (b : Bool) : Still s (s.combStore a n r off l b) := by
  unfold State.combStore
  split
  · exact (still_planeStore ..).trans (still_count ..)
  · exact (still_guardNote ..).trans (still_write ..)

theorem still_writeAt (a : Actor) (pl : Place) (l : List Byte) (b : Bool) : Still s (s.writeAt a pl l b) := by
  unfold State.writeAt
  repeat' split
  · exact still_combStore ..
  · exact .refl s
  · exact (still_markLine ..).trans (still_write ..)

theorem still_writePieces (a : Actor) (ps : List Place) (l : List Byte) (bad : List Nat) : Still s (s.writePieces a ps l bad) := by
  induction ps generalizing s l bad with
  | nil => exact .refl s
  | cons pl ps ih => exact ((still_writeAt s a pl (l.take 64) false).trans (still_marked ..)).trans (ih ..)

end

/-! What passed checks leave alone -/

/-- What an access or a read that passes its checks leaves alone: where no error is to be found, the bytes of memory too. -/
structure Passed (s t : State) : Prop where
  still : Still s t
  clean : s.ecc = [] → t.ecc = [] ∧ t.mem = s.mem

namespace Passed

theorem refl (s : State) : Passed s s := ⟨.refl s, fun h => ⟨h, rfl⟩⟩

theorem trans {s t u : State} (h : Passed s t) (h2 : Passed t u) : Passed s u := by
  refine ⟨h.still.trans h2.still, fun he => ?_⟩
  obtain ⟨h3, h4⟩ := h.clean he
  exact ⟨(h2.clean h3).1, (h2.clean h3).2.trans h4⟩

theorem foldl {β : Type} {f : State → β → State} (h : ∀ s b, Passed s (f s b)) (l : List β) (s : State) : Passed s (l.foldl f s) := by
  induction l generalizing s with
  | nil => exact refl s
  | cons b l ih => exact (h s b).trans (ih _)

end Passed

section

variable (s : State)

theorem passed_setTenant (n : Nat) (f : Tenant → Tenant) : Passed s (s.setTenant n f) := ⟨⟨rfl⟩, fun h => ⟨h, rfl⟩⟩
theorem passed_setPlough (n : Nat) (f : Plough → Plough) : Passed s (s.setPlough n f) := ⟨⟨rfl⟩, fun h => ⟨h, rfl⟩⟩

theorem passed_count (t i n : Nat) : Passed s (s.count t i n) := by
  unfold State.count
  split
  · exact .refl s
  · exact passed_setTenant ..

theorem passed_countMem (t a n : Nat) : Passed s (s.countMem t a n) := by
  unfold State.countMem
  split
  · exact passed_count ..
  · split
    · exact passed_count ..
    · split
      · exact passed_count ..
      · exact .refl s

theorem passed_checkUnit (t h u : Nat) : Passed s (s.checkUnit t h u) := by
  refine ⟨.of_found (found_checkUnit ..), fun he => ?_⟩
  rw [checkUnit_clean (by rw [he]; rfl)]
  exact ⟨he, rfl⟩

theorem passed_checkRead (t h a n : Nat) : Passed s (s.checkRead t h a n) := by
  unfold State.checkRead
  split
  · exact .refl s
  · exact .foldl (fun u x => passed_checkUnit u t h x) ..

theorem passed_heat (e pa : Nat) (b : Bool) : Passed s (s.heat e pa b) := by
  unfold State.heat
  split
  · exact .refl s
  · exact passed_setPlough ..

theorem passed_keepXlat (t : TlbEntry) : Passed s (s.keepXlat t) := by
  unfold State.keepXlat
  split
  · exact ⟨⟨rfl⟩, fun h => ⟨h, rfl⟩⟩
  · exact .refl s

theorem passed_walkReads (a : Actor) (va : Nat) : Passed s (s.walkReads a va) := by
  unfold State.walkReads
  refine .foldl (fun t pa => Passed.trans ?_ (passed_countMem ..)) ..
  split
  · exact passed_checkUnit ..
  · exact .refl t

/-- A read that finds no poison was made under its key (R78): it is checked and counted, and answers what it then reads. -/
theorem read_passed {t h a n v : Nat} {s2 : State} (hr : s.read t h a n = (s2, v, false)) : Passed s s2 ∧ v = s2.numFor t a n := by
  unfold State.read at hr
  split at hr
  · simp at hr
  · simp only [Prod.mk.injEq] at hr
    obtain ⟨rfl, rfl, -⟩ := hr
    exact ⟨(passed_checkRead ..).trans (passed_countMem ..), rfl⟩

theorem engines_withHarts (k : Hart) (l : List Hart) : ({ s with h := k, pool := l } : State).engines = s.engines := rfl

theorem engines_entryPoison (a : Actor) (pa : Nat) : (s.entryPoison a pa).engines = s.engines := by
  unfold State.entryPoison
  extract_lets tval tag s1 m s2 t
  refine (engines_withHarts s2 _ _).trans (Still.engines ?_)
  unfold s2
  split
  · exact ((still_forgot s _).trans (.of_found (found_mcheckMem s1 6 a.tid a.hid pa))).trans (still_reported m _)
  · exact still_forgot s _

theorem engines_tablePoison (a : Actor) (pa : Nat) : (s.tablePoison a pa).engines = s.engines := by
  refine (engines_entryPoison ..).trans ?_
  have h := found_checkUnit s a.tid a.hid (unitOf pa)
  split
  · exact (Still.of_found h).engines
  · exact (Still.of_found (h.trans (found_mcheckMem ..))).engines

/-- What a translation leaves alone, and more where it succeeds. -/
theorem translate_leaves (a : Actor) (p : Word) :
    (s.translate a p).1.engines = s.engines ∧ ∀ e size, (s.translate a p).2 = .ok e size → Passed s (s.translate a p).1 := by
  have h0 := passed_walkReads s a (bits p.toNat 0 56)
  have he := h0.still.engines
  unfold State.translate
  simp only []
  split
  · exact ⟨(passed_heat ..).still.engines, fun _ _ _ => passed_heat ..⟩
  · split
    · split
      · exact ⟨he, by simp⟩
      · exact ⟨((passed_heat ..).trans (passed_keepXlat ..)).still.engines.trans he,
          fun _ _ _ => (h0.trans (passed_heat ..)).trans (passed_keepXlat ..)⟩
    · exact ⟨he, by simp⟩
    · exact ⟨he, by simp⟩
    · exact ⟨(Still.of_found (found_mcheckMem ..)).engines.trans he, by simp⟩
    · exact ⟨(engines_tablePoison ..).trans he, by simp⟩

end

/-- What the checks of an access leave alone: an engine's, every engine; those that pass, all that a read leaves alone. -/
structure Checked (k : AKind) (s : State) (r : State × Res) : Prop where
  engines : k.engine = true → r.1.engines = s.engines
  passed : ∀ pl, r.2 = .ok pl → Passed s r.1

namespace Checked

theorem refused {k : AKind} {s t : State} (h : t.engines = s.engines) (c : Nat) (v : Word) : Checked k s (t, .trap c v) := ⟨fun _ => h, by simp⟩

theorem after {k : AKind} {s t : State} {r : State × Res} (h : Passed s t) (h2 : Checked k t r) : Checked k s r :=
  ⟨fun hk => (h2.engines hk).trans h.still.engines, fun pl hp => h.trans (h2.passed pl hp)⟩

end Checked

section

variable (s : State) (k : AKind)

theorem checked_ownedWait (pl : Place) : Checked k s (s.ownedWait k pl) := by
  unfold State.ownedWait
  split
  · exact ⟨fun _ => rfl, fun _ _ => .refl s⟩
  · next hk =>
    repeat' split
    · exact ⟨fun h => absurd h hk, by simp⟩
    · exact ⟨fun _ => rfl, by simp⟩
    · exact ⟨fun _ => rfl, by simp⟩
    · exact ⟨fun _ => rfl, fun _ _ => .refl s⟩

theorem checked_pageAccess (a : Actor) (p : Word) : Checked k s (s.pageAccess a k p) := by
  obtain ⟨he, hok⟩ := translate_leaves s a p
  unfold State.pageAccess
  split
  · next heq => rw [heq] at he; exact .refused he ..
  · next heq =>
    rw [heq] at he hok
    have hp := hok _ _ rfl
    simp only []
    split
    · exact .refused he ..
    · split
      · exact .refused ((Still.of_found (found_mcheckMem ..)).engines.trans he) ..
      · split
        · exact .refused he ..
        · split
          · exact .after hp (checked_ownedWait ..)
          · exact .refused he ..

theorem checked_combAccess (a : Actor) (p : Word) (n : Nat) : Checked k s (s.combAccess a k p n) := by
  unfold State.combAccess
  simp only []
  repeat' split
  · exact .refused rfl ..
  · exact .refused rfl ..
  · exact checked_ownedWait ..
  · exact .refused rfl ..

theorem checked_scratchAccess (a : Actor) (p : Word) : Checked k s (s.scratchAccess a k p) := by
  unfold State.scratchAccess
  simp only []
  repeat' split
  · exact .refused rfl ..
  · exact ⟨fun _ => rfl, by simp⟩
  · exact checked_ownedWait ..

/-- The checks of R85. -/
theorem checked_access (a : Actor) (p : Word) (n m : Nat) : Checked k s (s.access a k p n m) := by
  unfold State.access
  simp only []
  repeat' split
  · exact .refused rfl ..
  · exact .refused rfl ..
  · exact .refused rfl ..
  · exact checked_scratchAccess ..
  · exact checked_combAccess ..
  · exact checked_pageAccess ..

end

theorem access_passed {s s1 : State} {a : Actor} {k : AKind} {p : Word} {n m : Nat} {pl : Place} (h : s.access a k p n m = (s1, .ok pl)) :
    Passed s s1 := by
  have hc := checked_access s k a p n m
  rw [h] at hc
  exact hc.passed pl rfl

end Sys2Proof.Machine
end

section
/-! PROOFS. Scalar loads and stores (R84-R86). -/

namespace Sys2Proof.Machine

open Sys2Proof.Claims

/-- What a retired instruction leaves in the registers. -/
theorem retire_registers (s : State) (d : BitVec 5) (v : Word) : WroteX (s.retire d v) d v ∧ OtherX s (s.retire d v) d := by
  have h0 : d.toNat = 0 ↔ d = 0 := ⟨fun h => BitVec.eq_of_toNat_eq h, fun h => h ▸ rfl⟩
  refine ⟨?_, fun r hr => ?_⟩
  · exact (retire_xr s d v d.toNat).trans (by simp only [if_true, h0])
  · exact (retire_xr s d v r.toNat).trans (if_neg (fun h => hr (BitVec.eq_of_toNat_eq h)))

theorem bytesAt_congr {s t : State} : ∀ {n a : Nat}, (∀ i < n, t.byteAt (a + i) = s.byteAt (a + i)) → t.bytesAt a n = s.bytesAt a n
  | 0, _, _ => rfl
  | n + 1, a, h => congrArg₂ List.cons (h 0 (by omega)) (bytesAt_congr fun i hi => by
      rw [show a + 1 + i = a + (i + 1) by omega]
      exact h (i + 1) (by omega))

/-- What a tag reads depends on the bytes, on their keys and on its own key alone (R77). -/
theorem numFor_congr {s t : State} (hm : t.mem = s.mem) (hk : t.keys = s.keys) (ht : t.tenants = s.tenants) (tag a n : Nat) :
    t.numFor tag a n = s.numFor tag a n := by
  have hbyte : ∀ x, t.byteAt x = s.byteAt x := fun x => congrArg (Tab.get 0 · x) hm
  have hkey : ∀ x, t.keyAt x = s.keyAt x := fun x => congrArg (Tab.get 0 · (unitOf x)) hk
  have hid : t.keyId tag = s.keyId tag := congrArg (fun l => 1 + tag + 1024 * (Tab.get Tenant.reset l tag).keyGen) ht
  have hforeign : t.foreignAt tag = s.foreignAt tag := by
    funext x
    simp only [State.foreignAt, hkey, hid]
  have hplain : t.plainByte tag = s.plainByte tag := by
    funext x
    simp only [State.plainByte]
    rw [hkey, hid, hbyte, bytesAt_congr fun _ _ => hbyte _]
  unfold State.numFor State.bytesFor State.foreign
  rw [hforeign, hplain, bytesAt_congr fun _ _ => hbyte _]

/-! Loads -/

theorem exec_loadTable {d a : BitVec 5} {o : BitVec 13} {e : Instr × Nat × Bool} (he : e ∈ loadTable d a o) (s : State) :
    exec e.1 s = load e.2.1 e.2.2 d a o s := by
  simp only [loadTable, List.mem_cons, List.not_mem_nil, or_false] at he
  rcases he with rfl | rfl | rfl | rfl | rfl | rfl | rfl <;> rfl

/-- A load whose checks pass and whose bytes are unpoisoned retires with their value. -/
theorem load_retires {s s1 s2 : State} {d a : BitVec 5} {o : BitVec 13} {pl : Place} {n v : Nat} (signed : Bool)
    (hacc : s.access s.h.actor .load (s.xr a + o.signExtend 64) n n = (s1, .ok pl)) (hread : s1.readAt s.h.actor pl n = (s2, v, false)) :
    load n signed d a o s = .next (s2.retire d (if signed then BitVec.ofInt 64 (sgn v (8 * n)) else word v)) := by
  have hh : s1.h = s.h := (access_passed hacc).still.h
  simp only [load, State.scalarAddr, hacc, State.atPlace, hh, hread, Bool.false_eq_true, if_false]

/-- A load leaves memory as it was, but for the record of an error that it finds. -/
theorem sameMemory_load {s s1 s2 : State} {p : Word} {pl : Place} {n v : Nat} (hacc : s.access s.h.actor .load p n n = (s1, .ok pl))
    (hread : s1.readAt s.h.actor pl n = (s2, v, false)) : SameMemory s s2 := by
  have h1 := looked_access s s.h.actor .load p n n
  have h2 := looked_readAt s1 s.h.actor pl n
  rw [hacc] at h1
  rw [hread] at h2
  refine ⟨(h1.trans h2).1, fun he a => ?_⟩
  exact congrArg (Tab.get 0 · a) (((access_passed hacc).trans (read_passed s1 hread).1).clean he).2

/-! The bytes beside a store -/

theorem getD_leBytes (n v : Nat) : ∀ i < n, (leBytes n v).getD i 0 = BitVec.ofNat 8 (v / 256 ^ i) := by
  induction n generalizing v with
  | zero => simp
  | succ n ih =>
    intro i hi
    cases i with
    | zero => simp [leBytes]
    | succ i => simp only [leBytes, List.getD_cons_succ, ih (v / 256) i (by omega), Nat.div_div_eq_div_mul, Nat.pow_succ, Nat.mul_comm]

/-- A write beside its own bytes. -/
theorem byteAt_writeAt_other {s : State} {a : Actor} {pl : Place} (hreg : pl.reg = none) (hkey : s.hasKey a.tid = true) (bs : List Byte) {x : Nat}
    (hx : x < pl.loc ∨ pl.loc + bs.length ≤ x) :
    (s.writeAt a pl bs false).byteAt x = (BesideWrite (s.markLine pl) a.tid pl.loc bs.length).byteAt x := by
  have hk : (isMain pl.loc && !(s.markLine pl).hasKey a.tid) = false := by simp [hasKey_markLine, hkey]
  simp only [State.writeAt, hreg, State.write, State.perform, hk, Bool.false_eq_true, if_false]
  rw [State.byteAt, mem_countMem]
  exact byteAt_store_other _ _ _ _ _ hx

/-- A sector under the tag's own key, or only zeroed, stays so when another is put under it. -/
theorem foreignAt_rekey {s : State} {tag v : Nat} (h : s.foreignAt tag v = false) (u : Nat) : (s.rekey tag u).foreignAt tag v = false := by
  have hid : (s.rekey tag u).keyId tag = s.keyId tag := rfl
  have hkey : (s.rekey tag u).keyAt v = if unitOf v = u then s.keyId tag else s.keyAt v := Tab.get_set ..
  unfold State.foreignAt at h ⊢
  rw [hkey, hid]
  split
  · simp
  · exact h

theorem mem_rekey_own {s : State} {tag u : Nat} (h : s.foreignAt tag u = false) : (s.rekey tag u).mem = s.mem := by
  simp only [State.rekey, h, Bool.false_eq_true, if_false]

/-- Sectors that stand under no other key are put under the writer's without a change of their bytes (R77). -/
theorem mem_keyed_own {s : State} {tag loc n : Nat} (h : s.foreign tag loc n = false) : (s.keyed tag loc n).mem = s.mem := by
  have hl : ∀ (l : List Nat) (t : State), (∀ u ∈ l, t.foreignAt tag u = false) → (l.foldl (fun t u => t.rekey tag u) t).mem = t.mem := by
    intro l
    induction l with
    | nil => exact fun _ _ => rfl
    | cons u l ih =>
      intro t ht
      have hu := ht u List.mem_cons_self
      exact (ih _ (fun v hv => foreignAt_rekey (ht v (List.mem_cons_of_mem u hv)) u)).trans (mem_rekey_own hu)
  unfold State.keyed
  split
  · exact hl _ s (by simpa [State.foreign] using h)
  · rfl

theorem logDirty_unlogged {s : State} {loc : Nat} (h : (s.tenant (robTag (s.robAt loc))).dlEn = false) : s.logDirty loc = s := by
  unfold State.logDirty
  simp [h]

/-- A write that leaves no trace beside its bytes. -/
theorem byteAt_besideWrite {s : State} {tag loc n : Nat} (h : PlainWrite s tag loc n) (x : Nat) : (BesideWrite s tag loc n).byteAt x = s.byteAt x := by
  obtain ⟨hlog, hkey⟩ := h
  have hf : (s.noteCopy loc).foreign tag loc n = false := hkey
  rw [BesideWrite, logDirty_unlogged hlog, State.byteAt, mem_keyed_own hf]
  rfl

theorem plainWrite_markLine {s : State} {tag loc n : Nat} (h : PlainWrite s tag loc n) (pl : Place) :
    PlainWrite (s.markLine pl) tag loc n ∧ ∀ x, (s.markLine pl).byteAt x = s.byteAt x := by
  unfold State.markLine
  split
  · split
    · exact ⟨h, fun _ => rfl⟩
    · exact ⟨h, fun _ => rfl⟩
  · exact ⟨h, fun _ => rfl⟩

/-! Stores -/

theorem exec_storeTable {d a : BitVec 5} {o : BitVec 13} {e : Instr × Nat} (he : e ∈ storeTable d a o) (s : State) :
    exec e.1 s = storeOp e.2 d a o s := by
  simp only [storeTable, List.mem_cons, List.not_mem_nil, or_false] at he
  rcases he with rfl | rfl | rfl | rfl <;> rfl

/-- A store whose checks pass writes at its place and retires. -/
theorem storeOp_retires {s s1 : State} {d a : BitVec 5} {o : BitVec 13} {pl : Place} {n : Nat}
    (hacc : s.access s.h.actor .store (s.xr a + o.signExtend 64) n n = (s1, .ok pl)) :
    storeOp n d a o s = .next (s1.writeAt s.h.actor pl (leBytes n (s.xr d).toNat) false).retire0 := by
  have hh : s1.h = s.h := (access_passed hacc).still.h
  have hx : s1.xr d = s.xr d := congrArg (fun k : Hart => k.xr d.toNat) hh
  simp only [storeOp, State.scalarAddr, hacc, State.atPlace, hx, hh]

/-- An instruction without a register result retires over a state in which the hart is as it was. -/
theorem retire0_hart {s t : State} (h : t.h = s.h) :
    t.retire0.h.pc = s.h.pc + 4 ∧ (∀ r : BitVec 5, t.retire0.xr r = s.xr r) ∧ OnlyX s.h t.retire0.h := by
  refine ⟨?_, fun r => ?_, ?_⟩
  · rw [← h]; rfl
  · rw [State.xr, State.xr, ← h]; rfl
  · rw [OnlyX, ← h]; rfl

theorem byteAt_retire0 (s : State) (x : Nat) : s.retire0.byteAt x = s.byteAt x := rfl

end Sys2Proof.Machine

namespace Sys2Proof.Claims

open Sys2Proof.Machine

/-- Settles O5: an access that passes and a read without poison leave the hart in hand alone, so that the load retires over them. -/
theorem loadResults : Obligations.LoadResults := by
  unfold Obligations.LoadResults
  intro s s1 s2 d a o pl v e he hacc hread
  obtain ⟨hpass, hv⟩ := read_passed s1 hread
  have hh : s2.h = s.h := ((access_passed hacc).trans hpass).still.h
  refine ⟨_, (exec_loadTable he s).trans (load_retires e.2.2 hacc hread), ?_⟩
  generalize (if e.2.2 then BitVec.ofInt 64 (sgn v (8 * e.2.1)) else word v) = w
  obtain ⟨hwrote, hother⟩ := retire_registers s2 d w
  have hsame : SameMemory s s2 := sameMemory_load hacc hread
  have hnum : (s2.retire d w).numFor s.h.tid pl.loc e.2.1 = s2.numFor s.h.tid pl.loc e.2.1 :=
    numFor_congr (s := s2) (t := s2.retire d w) rfl rfl rfl ..
  refine ⟨hwrote, hv.trans hnum.symm, fun r hr => ?_, ?_, ?_, retire_rest s2 d w, hsame⟩
  · rw [hother r hr, State.xr, State.xr, hh]
  · rw [retire_pc, hh]
  · rw [OnlyX, ← hh]
    exact retire_only s2 d w

/-- Settles O6: the store's bytes, and beside them what the log, the plough's notes and the keys leave. -/
theorem storeResults : Obligations.StoreResults := by
  unfold Obligations.StoreResults
  intro s s1 d a o pl e he hacc hreg hkey
  have hpass := access_passed hacc
  let bs := leBytes e.2 (s.xr d).toNat
  have hlen : bs.length = e.2 := length_leBytes ..
  obtain ⟨hpc, hregs, honly⟩ := retire0_hart (t := s1.writeAt s.h.actor pl bs false) ((still_writeAt ..).h.trans hpass.still.h)
  refine ⟨_, (exec_storeTable he s).trans (storeOp_retires hacc), hpc, hregs, honly, fun i hi => ?_, fun x hx => ?_⟩
  · rw [byteAt_retire0, byteAt_writeAt hreg hkey bs (hlen.symm ▸ hi)]
    exact getD_leBytes _ _ i hi
  · have hbeside := byteAt_writeAt_other (a := s.h.actor) hreg hkey bs (hlen.symm ▸ hx)
    rw [hlen] at hbeside
    rw [byteAt_retire0]
    refine ⟨hbeside, fun hplain => ?_⟩
    obtain ⟨hmark, hbytes⟩ := plainWrite_markLine hplain pl
    have h1 : (s1.writeAt s.h.actor pl bs false).byteAt x = s1.byteAt x := hbeside.trans ((byteAt_besideWrite hmark x).trans (hbytes x))
    have hlook := looked_access s s.h.actor .store (s.xr a + o.signExtend 64) e.2 e.2
    rw [hacc] at hlook
    exact ⟨h1, fun hring => h1.trans (hlook.1 x hring)⟩

end Sys2Proof.Claims
end

section
/-! PROOFS. Engines: what a command leaves of them, its end and its final status (R142-R145), the grant of a lease and its end (R131, R132). -/

namespace Sys2Proof.Machine

open Sys2Proof.Claims

/-! What leaves every engine as it stands -/

theorem engine_congr {s t : State} (h : t.engines = s.engines) (e : Nat) : t.engine e = s.engine e := congrArg (Tab.get Engine.reset · e) h

section

variable (s : State)

theorem engines_answerIf (hid : Nat) (p : WaitKind → Bool) (v : Word) : (s.answerIf hid p v).engines = s.engines :=
  (congrArg State.engines (unsent_answerIf s hid p v) :)

theorem engines_wakeTile (core n : Nat) : (s.wakeTile core n).engines = s.engines := by
  unfold State.wakeTile
  dsimp only
  split
  · rfl
  · exact foldl_keeps State.engines _ (fun t (h : Hart) => engines_answerIf t h.hid _ _) _ s

theorem engines_setTile (core n : Nat) (f : Tile → Tile) : (s.setTile core n f).engines = s.engines := rfl

theorem engines_startTile (e : Nat) (c : Cmd) : (s.startTile e c).engines = s.engines := by
  unfold State.startTile
  repeat' split
  · exact engines_setTile ..
  · exact engines_setTile ..
  · rfl

theorem engines_endTile (e : Nat) (c : Cmd) (good : Bool) : (s.endTile e c good).engines = s.engines := by
  unfold State.endTile
  split
  · exact (engines_wakeTile ..).trans (engines_setTile ..)
  · split
    · exact (engines_wakeTile ..).trans (engines_setTile ..)
    · rfl

/-- An engine recalls no line: its accesses leave every engine as it stands. -/
theorem engines_access {k : AKind} (hk : k.engine = true) (a : Actor) (p : Word) (n m : Nat) : (s.access a k p n m).1.engines = s.engines :=
  (checked_access s k a p n m).engines hk

theorem engines_dline (a : Actor) (copy : Bool) (p : Word) : (s.dline a copy p).1.engines = s.engines := by
  have h := engines_access s (k := .engineWrite copy) rfl a p 64 64
  unfold State.dline
  split <;> next heq => rw [heq] at h; exact h

theorem engines_dlines (a : Actor) (copy : Bool) (n : Nat) : ∀ (s : State) (p : Word), (s.dlines a copy p n).1.engines = s.engines := by
  induction n with
  | zero => exact fun _ _ => rfl
  | succ n ih => exact fun s p => (ih _ (p + 64)).trans (engines_dline s a copy p)

theorem engines_withLines (c : Cmd) (rcd : Word) : (s.withLines c rcd).1.engines = s.engines :=
  (engines_dlines ..).trans (engines_dline s _ _ rcd)

theorem engines_writeRecord (c : Cmd) (f : Option (Nat × Word)) (out : Nat) : (s.writeRecord c f out).engines = s.engines := by
  unfold State.writeRecord
  dsimp only
  split
  · exact (still_writeAt ..).engines
  · rfl

theorem engines_readLine (a : Actor) (pl : Place) : (s.readLine a pl).1.engines = s.engines := (still_readAt s a pl 64).engines

theorem engines_readSource (c : Cmd) (n : Nat) : ∀ (s : State) (p : Word) (i : Nat), (s.readSource c n p i).1.engines = s.engines := by
  induction n with
  | zero => exact fun _ _ _ => rfl
  | succ n ih =>
    intro s p i
    have h := engines_access s (k := .engineRead) rfl (s.cmdActor c) p 64 64
    unfold State.readSource
    generalize s.access (s.cmdActor c) .engineRead p 64 64 = o at h
    obtain ⟨s1, pl | ⟨k, w⟩ | w⟩ := o
    · have hrest := ((ih _ (p + 64) (i + 8)).trans (engines_readLine s1 (s1.cmdActor c) pl)).trans h
      dsimp only
      split
      · next heq => rw [heq] at hrest; exact hrest
      · exact hrest
    · exact h
    · exact h

theorem engines_outPieces (c : Cmd) : (s.outPieces c).1.engines = s.engines := by
  have h := engines_readSource c (c.len / 64) s c.src 0
  unfold State.outPieces
  split
  · split <;> next heq => rw [heq] at h; exact h
  · split <;> rfl

end

section

variable (c : Cmd)

theorem engines_putLine (r : Work) (d : DLine) (p : Word) (bs : List Byte) (bad : List Nat) : (r.putLine c d p bs bad).st.engines = r.st.engines := by
  unfold Work.putLine
  repeat' split
  · rfl
  · rfl
  · exact (still_writePieces ..).engines

theorem engines_putPieces (l : List Piece) : ∀ r : Work, (r.putPieces c l).st.engines = r.st.engines := by
  induction l with
  | nil => exact fun _ => rfl
  | cons p l ih =>
    intro r
    have h := engines_putLine c r p.line p.dst p.data p.bad
    unfold Work.putPieces
    dsimp only
    split
    · exact h
    · exact (ih _).trans h

theorem engines_copy (l : List Piece) : ∀ r : Work, (r.copy c l).st.engines = r.st.engines := by
  induction l with
  | nil => exact fun _ => rfl
  | cons p l ih =>
    intro r
    have h := engines_access r.st (k := .engineRead) rfl (r.st.cmdActor c) p.src 64 64
    unfold Work.copy
    generalize r.st.access (r.st.cmdActor c) .engineRead p.src 64 64 = o at h
    obtain ⟨s1, pl | ⟨k, w⟩ | w⟩ := o
    · have hput := ((engines_putLine c { r with st := (s1.readLine (s1.cmdActor c) pl).1 } p.line p.dst (s1.readLine (s1.cmdActor c) pl).2.1
        (s1.readLine (s1.cmdActor c) pl).2.2).trans (engines_readLine s1 (s1.cmdActor c) pl)).trans h
      dsimp only
      split
      · exact hput
      · exact (ih _).trans hput
    · exact h
    · exact h

/-- What a stopped command has written leaves every engine as it stands. -/
theorem engines_stopWork (s : State) : (s.stopWork c).st.engines = s.engines := by
  unfold State.stopWork
  dsimp only
  split
  · exact engines_copy c _ { st := { s with free := s.free + 1 }, lines := 0, bad := false, fault := none }
  · exact (engines_putPieces c _ { st := { (s.outPieces c).1 with free := (s.outPieces c).1.free + 1 }, lines := 0, bad := false, fault := none }).trans
      (engines_outPieces s c)

end

/-! The final status of a command -/

/-- An engine after a command of its queue has its final status (R142). -/
def Engine.finished (g : Engine) (st : CmdStat) : Engine :=
  { g with queue := g.queue.filter (fun x => x.seq ≠ st.seq), stats := (st :: g.stats).take 64 }

theorem engine_finishCmd (s : State) (e : Nat) (c : Cmd) (w : Word) :
    (s.finishCmd e c w).engine e = (s.engine e).finished { seq := c.seq, tid := c.tid, word := w } := by
  let s1 := s.setEngine e (fun g => g.finished { seq := c.seq, tid := c.tid, word := w })
  have hfold : (s.finishCmd e c w).engines = s1.engines := by
    refine foldl_keeps State.engines _ (fun t (h : Hart) => ?_) s1.harts s1
    split
    · exact engines_answerIf ..
    · rfl
  rw [engine_congr hfold, engine_setEngine_self]

/-- The statuses that an engine keeps. -/
def State.statsOf (s : State) (e : Nat) : List CmdStat := (s.engine e).stats

theorem statsOf_congr {s t : State} (h : t.engines = s.engines) (e : Nat) : t.statsOf e = s.statsOf e := congrArg Engine.stats (engine_congr h e)

theorem statsOf_setEngine (s : State) (e : Nat) {f : Engine → Engine} (h : ∀ g, (f g).stats = g.stats) : (s.setEngine e f).statsOf e = s.statsOf e := by
  rw [State.statsOf, engine_setEngine_self, h, State.statsOf]

theorem statsOf_enqueue (s : State) (e : Nat) (c : Cmd) : (s.enqueue e c).statsOf e = s.statsOf e := by
  refine (statsOf_setEngine (s.startTile e c) e ?_).trans (statsOf_congr (engines_startTile ..) e)
  exact fun _ => rfl

theorem statsOf_updHart (s : State) (hid : Nat) (f : Hart → Hart) (e : Nat) : (s.updHart hid f).statsOf e = s.statsOf e := rfl

theorem statsOf_issueLate (s : State) (e : Nat) (c : Cmd) : (s.issueLate e c).statsOf e = s.statsOf e := by
  have h := engines_withLines s c c.rcd
  unfold State.issueLate
  generalize s.withLines c c.rcd = p at h
  obtain ⟨s1, c1⟩ := p
  refine Eq.trans ?_ (statsOf_congr h e)
  dsimp only
  split
  · exact statsOf_updHart ..
  · exact (statsOf_updHart ..).trans (statsOf_enqueue ..)
  · exact (statsOf_congr (engines_answerIf ..) e).trans (statsOf_enqueue ..)
  · exact statsOf_congr (engines_answerIf ..) e

/-- The commands that take up free slots leave the statuses alone. -/
theorem statsOf_fillSlots (e n : Nat) : ∀ s : State, (s.fillSlots e n).statsOf e = s.statsOf e := by
  induction n with
  | zero => exact fun _ => rfl
  | succ n ih =>
    intro s
    unfold State.fillSlots
    split
    · rfl
    · next c rest _ =>
      split
      · rfl
      · have htake : (s.setEngine e fun g => { g with pend := rest }).statsOf e = s.statsOf e := statsOf_setEngine s e fun _ => rfl
        refine (ih _).trans (Eq.trans ?_ htake)
        split
        · exact statsOf_issueLate ..
        · rfl

theorem fillSlots_none {s : State} {e : Nat} (h : (s.engine e).pend = []) (n : Nat) : s.fillSlots e n = s := by
  cases n with
  | zero => rfl
  | succ n => simp only [State.fillSlots, h]

/-- The status code that a command ends with: FAULT where the write of its record is turned away (R101). -/
def Cmd.finalCode (c : Cmd) (st : Nat) : Nat := if c.recordStands then st else 18

/-- The final status of a command is the latest that its engine keeps (R142). -/
theorem statsOf_finish (r : Work) (e : Nat) (c : Cmd) (out lowabs nabs st : Nat) :
    ((r.finish e c out lowabs nabs st).statsOf e).head? =
      some { seq := c.seq, tid := c.tid, word := statusWord (min r.lines (2 ^ 32 - 1)) lowabs nabs (c.finalCode st) } := by
  rw [Work.finish, statsOf_fillSlots, statsOf_congr (engines_endTile ..), State.statsOf, engine_finishCmd]
  rfl

/-! The ends of commands -/

/-- A running command at the head of its queue ends. -/
theorem exec_engineCommandEnd {s : State} {e : Nat} {c : Cmd} {rest : List Cmd} (hq : (s.engine e).queue = c :: rest) (hr : c.running = true) :
    exec (.engineCommandEnd e) s =
      .next (if c.kind = 3 then s.endComp e c else if c.kind = 4 then c.res.elim s (s.endColl e c) else s.endCopy e c) := by
  show execEngineCommandEnd e s = _
  simp only [execEngineCommandEnd, hq, hr, Bool.not_true, Bool.false_eq_true, if_false]
  split
  · next h => rw [if_pos h]
  · next h =>
    rw [if_neg (by omega), if_pos h]
    cases c.res <;> rfl
  · next h3 h4 => rw [if_neg h3, if_neg h4]

/-- A command whose end keeps a status word. -/
def EndsWith (s : State) (e : Nat) (c : Cmd) (w : Word) : Prop :=
  ∃ t, exec (.engineCommandEnd e) s = .next t ∧ (t.engine e).stats.head? = some { seq := c.seq, tid := c.tid, word := w }

section Ends

variable {s : State} {e : Nat} {c : Cmd} {rest : List Cmd} (hq : (s.engine e).queue = c :: rest) (hr : c.running = true)

include hq hr

theorem copy_ends (hk : c.kind < 3) :
    let r := ({ st := s, lines := 0, bad := false, fault := none } : Work).copy c (c.inOrder (copyPieces c.lines c.src c.dst))
    EndsWith s e c (statusWord (min r.lines (2 ^ 32 - 1)) 0xFFF 0
      (if r.fault.isSome || c.rcdLine.code != 0 then 18 else if r.bad then 19 else 0)) := by
  intro r
  have hexec := exec_engineCommandEnd hq hr
  rw [if_neg (by omega), if_neg (by omega)] at hexec
  refine ⟨_, hexec, (statsOf_finish r e c (64 * r.lines) 0xFFF 0 _).trans ?_⟩
  have hcode : c.finalCode (if r.fault.isSome then stFAULT else if r.bad then stPOISONED else stOK) =
      if r.fault.isSome || c.rcdLine.code != 0 then 18 else if r.bad then 19 else 0 := by
    unfold Cmd.finalCode Cmd.recordStands
    cases r.fault.isSome <;> cases hc : (c.rcdLine.code == 0) <;> simp [bne, hc, stFAULT, stPOISONED, stOK]
  rw [hcode]

theorem exec_comp (hk : c.kind = 3) : exec (.engineCommandEnd e) s = .next (s.endComp e c) := by
  rw [exec_engineCommandEnd hq hr, if_pos hk]

/-- A malformed stream ends a decompression with FAULT and no line (R144). -/
theorem comp_malformed (hk : c.kind = 3) {s1 : State} {bs : List Byte} {bad : List Nat}
    (hsrc : s.readSource c (c.len / 64) c.src 0 = (s1, .ok (bs, bad))) (hnone : compressed c.op bs = none) :
    EndsWith s e c (statusWord 0 0xFFF 0 18) := by
  have hend : s.endComp e c = ({ st := s1, lines := 0, bad := false, fault := some (5, 0) } : Work).finish e c 0 0xFFF 0 18 := by
    simp only [State.endComp, hsrc, hnone, stFAULT]
  refine ⟨_, (exec_comp hq hr hk).trans (congrArg _ hend), (statsOf_finish ..).trans ?_⟩
  have hcode : c.finalCode 18 = 18 := ite_self _
  rw [hcode]
  rfl

omit hq hr in
theorem finalCode_mem {l : List Nat} {st : Nat} (hst : st ∈ l) (hl : 18 ∈ l) : c.finalCode st ∈ l := by
  unfold Cmd.finalCode
  split
  · exact hst
  · exact hl

omit hq hr in
/-- The end of a compression whose source makes an output. -/
theorem endComp_finish {s1 : State} {bs out : List Byte} {bad : List Nat} (hsrc : s.readSource c (c.len / 64) c.src 0 = (s1, .ok (bs, bad)))
    (hout : compressed c.op bs = some out) : ∃ r n, ∃ st ∈ [0, 18, 19, 20], s.endComp e c = Work.finish r e c n 0xFFF 0 st := by
  simp only [State.endComp, hsrc, hout]
  generalize Work.putRun _ c c.lines c.dst _ _ = r
  split
  · exact ⟨_, _, stFAULT, by decide, rfl⟩
  · refine ⟨_, _, _, ?_, rfl⟩
    repeat' split
    all_goals decide

theorem comp_ends (hk : c.kind = 3) {s1 : State} {bs out : List Byte} {bad : List Nat}
    (hsrc : s.readSource c (c.len / 64) c.src 0 = (s1, .ok (bs, bad))) (hout : compressed c.op bs = some out) :
    ∃ t n, ∃ st ∈ [0, 18, 19, 20], exec (.engineCommandEnd e) s = .next t ∧
      (t.engine e).stats.head? = some { seq := c.seq, tid := c.tid, word := statusWord n 0xFFF 0 st } := by
  obtain ⟨r, n, st, hst, hend⟩ := endComp_finish (e := e) hsrc hout
  exact ⟨_, _, _, finalCode_mem hst (by decide), (exec_comp hq hr hk).trans (congrArg _ hend), statsOf_finish ..⟩

theorem coll_waits (hk : c.kind = 4) (hres : c.res = none) : exec (.engineCommandEnd e) s = .next s := by
  rw [exec_engineCommandEnd hq hr, if_neg (by omega), if_pos hk, hres]
  rfl

theorem coll_ends (hk : c.kind = 4) {x : CollRes} (hres : c.res = some x) :
    ∃ t n, ∃ st ∈ [0, 18, 19, 21], exec (.engineCommandEnd e) s = .next t ∧
      (t.engine e).stats.head? = some { seq := c.seq, tid := c.tid, word := statusWord n x.lowabs x.nabs st } := by
  have hexec : exec (.engineCommandEnd e) s = .next (s.endColl e c x) := by
    rw [exec_engineCommandEnd hq hr, if_neg (by omega), if_pos hk, hres]
    rfl
  refine ⟨_, _, _, finalCode_mem ?_ (by decide), hexec, statsOf_finish ..⟩
  repeat' split
  all_goals decide

end Ends

/-! The start of a command -/

section Starts

variable {s : State} {e : Nat} {c : Cmd} {rest : List Cmd} (hq : (s.engine e).queue = c :: rest) (hr : c.running = false)

include hq hr

theorem start_unconfirmed (hu : s.unconfirmed e c = true) : exec (.engineCommandStart e) s = .next s := by
  show execEngineCommandStart e s = _
  simp only [execEngineCommandStart, hq, hr, hu, Bool.or_true, if_true]

/-- The oldest command starts (R143). -/
theorem start_confirmed (hu : s.unconfirmed e c = false) (hk : c.kind ≠ 4) :
    ∃ t, exec (.engineCommandStart e) s = .next t ∧ SameBytes s t ∧
      (t.engine e).queue = (c :: rest).map (fun x => if x.seq = c.seq then { x with running := true } else x) := by
  refine ⟨s.setEngine e (fun g => { g with queue := g.queue.map (fun x => if x.seq = c.seq then { x with running := true } else x) }), ?_,
    fun _ => rfl, ?_⟩
  · show execEngineCommandStart e s = _
    simp only [execEngineCommandStart, hq, hr, hu, hk, Bool.or_self, Bool.false_eq_true, if_false]
  · rw [engine_setEngine_self, hq]

end Starts

/-! The end of a lease -/

/-- The lease of an engine has ended, and every command that it still holds is among a list to be ended (R132). -/
structure Draining (e : Nat) (l : List Cmd) (s : State) : Prop where
  free : (s.engine e).leased = false
  pend : (s.engine e).pend = []
  queue : ∀ x ∈ (s.engine e).queue, ∃ c ∈ l, c.seq = x.seq

theorem Draining.congr {e : Nat} {l : List Cmd} {s t : State} (h : Draining e l s) (ht : t.engines = s.engines) : Draining e l t := by
  obtain ⟨hf, hp, hq⟩ := h
  constructor <;> rw [engine_congr ht]
  · exact hf
  · exact hp
  · exact hq

/-- A command that has its final status has left the queue. -/
theorem Draining.finishCmd {e : Nat} {c : Cmd} {l : List Cmd} {s : State} (h : Draining e (c :: l) s) (w : Word) :
    Draining e l (s.finishCmd e c w) := by
  obtain ⟨hf, hp, hq⟩ := h
  constructor <;> rw [engine_finishCmd]
  · exact hf
  · exact hp
  · intro x hx
    obtain ⟨hx, hne⟩ := List.mem_filter.mp hx
    obtain ⟨y, hy, hseq⟩ := hq x hx
    rcases List.mem_cons.mp hy with rfl | hy
    · exact absurd hseq.symm (by simpa using hne)
    · exact ⟨y, hy, hseq⟩

theorem Draining.finish {e : Nat} {c : Cmd} {l : List Cmd} {r : Work} (h : Draining e (c :: l) r.st) (out lowabs nabs st : Nat) :
    Draining e l (r.finish e c out lowabs nabs st) := by
  have hrec := h.congr ((engines_writeRecord _ c r.fault out).trans (still_count r.st c.tid 8 r.lines).engines)
  have hend := (hrec.finishCmd (cmdWord r.lines lowabs nabs (if c.recordStands then st else stFAULT))).congr
    (engines_endTile _ e c (st = stOK || st = stPOISONED))
  rw [Work.finish, fillSlots_none hend.pend]
  exact hend

theorem Draining.stopRunning {e : Nat} {c : Cmd} {l : List Cmd} {s : State} (h : Draining e (c :: l) s) : Draining e l (s.stopRunning e c) :=
  Draining.finish (r := { s.stopWork c with fault := none }) (h.congr (engines_stopWork c s)) _ _ _ _

theorem Draining.discardCmd {e : Nat} {c : Cmd} {l : List Cmd} {s : State} (h : Draining e (c :: l) s) : Draining e l (s.discardCmd e c) :=
  ((h.congr (engines_writeRecord ..)).finishCmd _).congr (engines_endTile ..)

theorem Draining.stopAll {e : Nat} {l : List Cmd} : ∀ {s : State}, Draining e l s →
    Draining e [] (l.foldl (fun t c => if c.running then t.stopRunning e c else t.discardCmd e c) s) := by
  induction l with
  | nil => exact id
  | cons c l ih =>
    intro s h
    refine ih ?_
    dsimp only
    split
    · exact h.stopRunning
    · exact h.discardCmd

/-- A lease that ends leaves its engine with no command, and none that waits for a slot. -/
theorem endLease_empties {s : State} {e : Nat} (h : (s.engine e).leased = true) :
    ((s.endLease e).engine e).leased = false ∧ ((s.endLease e).engine e).queue = [] ∧ ((s.endLease e).engine e).pend = [] := by
  let s1 : State := { s with colls := s.colls.map (withdraw e) }
  let s2 : State := (s.engine e).pend.foldl (fun t c => t.answerIf c.hid (WaitKind.slotWait e) (badTicket 0 stREVOKED))
    (s1.setEngine e (fun k => { k with leased := false, pend := [] }))
  have hs : s.endLease e = (s.engine e).queue.foldl (fun t c => if c.running then t.stopRunning e c else t.discardCmd e c) s2 := by
    simp only [State.endLease, h, Bool.not_true, Bool.false_eq_true, if_false]
    rfl
  have hset : Draining e (s.engine e).queue (s1.setEngine e (fun k => { k with leased := false, pend := [] })) := by
    constructor <;> rw [engine_setEngine_self]
    exact fun x hx => ⟨x, hx, rfl⟩
  have hstart : Draining e (s.engine e).queue s2 := hset.congr (foldl_keeps State.engines _ (fun t (c : Cmd) => engines_answerIf t c.hid _ _) _ _)
  have hdone := hstart.stopAll
  rw [hs]
  exact ⟨hdone.free, List.eq_nil_iff_forall_not_mem.mpr fun x hx => by simpa using hdone.queue x hx, hdone.pend⟩

theorem leaseExpiry_due {s : State} {e : Nat} (h : (s.engine e).leased = true) (hd : (s.engine e).endAt ≤ s.gtb) :
    exec (.leaseExpiry e) s = .next (s.endLease e) := by
  show execLeaseExpiry e s = _
  simp only [execLeaseExpiry, h, hd, decide_true, Bool.and_self, if_true]

theorem leaseExpiry_early {s : State} {e : Nat} (h : s.gtb < (s.engine e).endAt) : exec (.leaseExpiry e) s = .next s := by
  show execLeaseExpiry e s = _
  have hn : ¬(s.engine e).endAt ≤ s.gtb := by omega
  simp only [execLeaseExpiry, hn, decide_false, Bool.and_false, Bool.false_eq_true, if_false]

/-! The grant of a lease -/

theorem leaseGrant_grants {s : State} {e : Nat} {q : LeaseReq} {h : Hart} {w : Wait} {kind : Nat} {req : BitVec 64} (hn : s.nextLease e = some q)
    (hw : WaitsIn s q.hid h w) (hk : w.kind = .elease kind req) (hnow : AnswersNow s w) :
    ∃ t, exec (.leaseGrant e) s = .next t ∧ t.leaseQ = s.leaseQ.erase q ∧
      t.engine e = { s.engine e with leased := true, tid := q.tid, endAt := s.gtb + (s.tenant q.tid).leaseLen, ser := (s.engine e).ser + 1 } ∧
      Answered s t q.hid h w (handle ((s.engine e).ser + 1) e 0) := by
  let s1 : State := ({ s with leaseQ := s.leaseQ.erase q } : State).grantLease e q.tid
  have hword : s1.leaseWord e = handle ((s.engine e).ser + 1) e 0 := leaseWord_grantLease { s with leaseQ := s.leaseQ.erase q } e q.tid
  have hexec : exec (.leaseGrant e) s = .next (s1.answerIf q.hid WaitKind.leases (handle ((s.engine e).ser + 1) e 0)) := by
    rw [← hword]
    show execLeaseGrant e s = _
    simp only [execLeaseGrant, hn]
    rfl
  refine ⟨_, hexec, (congrArg State.leaseQ (unsent_answerIf s1 ..) :), ?_, ?_⟩
  · rw [engine_congr (engines_answerIf ..)]
    exact engine_setEngine_self ..
  · exact answered_answerIf (t := s1) (p := WaitKind.leases) hw hnow ⟨rfl, rfl, rfl, rfl⟩ _ (by rw [hk]; rfl)

end Sys2Proof.Machine
end

section
/-! PROOFS. The close of a collective (R145), and halted harts (R440). -/

namespace Sys2Proof.Machine

open Sys2Proof.Claims

/-! Collectives -/

section

variable (s : State)

theorem unsent_sendParts (kind dst tag target count serial : Nat) (l : List Byte) (n : Nat) :
    ∀ s : State, (s.sendParts kind dst tag target count serial l n).unsent = s.unsent := by
  induction n with
  | zero => exact fun _ => rfl
  | succ n ih => exact fun s => (ih _).trans (unsent_sendFrame ..)

theorem unsent_sendLong (kind dst tag target : Nat) (l : List Byte) : (s.sendLong kind dst tag target l).unsent = s.unsent := by
  unfold State.sendLong
  split
  · exact unsent_sendFrame ..
  · exact unsent_sendParts ..

theorem unsent_setEngine (e : Nat) (f : Engine → Engine) : { (s.setEngine e f).unsent with engines := [] } = { s.unsent with engines := [] } := rfl

/-- A close's message to a member changes its engine, or leaves the package. -/
theorem unsent_sendColl (tag num : Nat) (r : CollRes) (m : CollMember) :
    { (s.sendColl tag num r m).unsent with engines := [] } = { s.unsent with engines := [] } := by
  unfold State.sendColl
  split
  · rw [unsent_sendLong]
  · exact unsent_setEngine ..

end

/-- The close of a collective at a live record (R145): one set of absent ranks stands in the record. -/
theorem closeColl_effect {s : State} {rcd : Nat} {b : Coll} {o : Obj} {w : Swarm} (hc : s.coll rcd = some b) (hw : s.swarm rcd = some (o, w)) :
    (s.closeColl rcd).coll rcd = none ∧ ∃ o2 w2, (s.closeColl rcd).swarm rcd = some (o2, w2) ∧
      w2.absents = (b.absent w).foldl (fun a k => setBit a k true) 0 := by
  let s1 : State := { s with colls := s.colls.filter (fun x => x.rcd ≠ rcd) }
  let w2 : Swarm := { w with absents := (b.absent w).foldl (fun a k => setBit a k true) 0 }
  let r : CollRes := { runs := b.runs, lowabs := lowRank (b.absent w), nabs := (b.absent w).length }
  let s2 := s1.setBody rcd o (.swarm w2)
  have hclose : s.closeColl rcd = b.members.foldl (fun t m => t.sendColl o.tag o.num r m) s2 := by
    have hw1 : s1.swarm rcd = some (o, w) := hw
    simp only [State.closeColl, hc]
    rw [hw1]
  have hsame : { (s.closeColl rcd).unsent with engines := [] } = { s2.unsent with engines := [] } := by
    rw [hclose]
    exact foldl_keeps (fun t : State => ({ t.unsent with engines := [] } : State)) _ (fun t m => unsent_sendColl t ..) _ _
  refine ⟨?_, _, w2, (congrArg (fun t : State => t.swarm rcd) hsame :).trans (swarm_setBody ..), rfl⟩
  refine (congrArg (fun t : State => t.coll rcd) hsame :).trans ?_
  refine List.find?_eq_none.mpr fun x hx => ?_
  simpa using (List.mem_filter.mp hx).2

theorem exec_collectiveClose {s : State} {rcd : Nat} {b : Coll} {o : Obj} {w : Swarm} (hc : s.coll rcd = some b) (hw : s.swarm rcd = some (o, w)) :
    exec (.collectiveClose rcd) s = .next (if b.complete w = true ∨ b.dead ≤ s.gtb then s.closeColl rcd else s) := by
  show execCollectiveClose rcd s = _
  simp only [execCollectiveClose, hc, hw, Bool.or_eq_true, decide_eq_true_eq]
  split <;> rfl

/-! Halted harts -/

/-- A change of one live hart that leaves ids and lives alone shows in that hart alone. -/
theorem updHart_shows {s : State} {h : Hart} (hh : s.hart h.hid = some h) (hl : h.live = true) (f : Hart → Hart) (hlive : ∀ k, (f k).live = k.live)
    (hhid : ∀ k, (f k).hid = k.hid) :
    SameBytes s (s.updHart h.hid f) ∧ (s.updHart h.hid f).hart h.hid = some (f h) ∧ ∀ n, n ≠ h.hid → (s.updHart h.hid f).hart n = s.hart n :=
  ⟨fun _ => rfl, hart_updHart_self hlive hhid hh hl, fun _ hn => hart_updHart_other hlive hhid s hn⟩

theorem exec_debugResume {s : State} {core slot : Nat} {h : Hart} (hslot : s.slotHart core slot = some h) :
    exec (.debugResume core slot) s = .next (s.updHart h.hid Hart.resumeHalt) := by
  show execDebugResume core slot s = _
  simp only [execDebugResume, hslot]

theorem exec_debugStep {s : State} {core slot : Nat} {h : Hart} (hslot : s.slotHart core slot = some h) :
    exec (.debugStep core slot) s = .next (s.updHart h.hid Hart.stepHalt) := by
  show execDebugStep core slot s = _
  simp only [execDebugStep, hslot]

theorem stepHalt_of_halt {h : Hart} {x : Halt} (hx : h.halt = some x) : h.stepHalt = { h with halt := some { x with steps := 1 } } := by
  rw [Hart.stepHalt, hx]
  rfl

end Sys2Proof.Machine
end

section
/-! PROOFS. The ploughs: the start of a move, its completion, and the end of an epoch (R66, R67, R69). -/

namespace Sys2Proof.Machine

open Sys2Proof.Claims

/-! The read of a leaf entry -/

theorem found_readLeaf (s : State) (ent : Nat) : Found s (s.readLeaf ent) := by
  unfold State.readLeaf
  repeat' split
  · exact .refl s
  · exact found_checkRead ..
  · exact found_mcheckMem ..

theorem byteAt_readLeaf (s : State) (ent : Nat) {x : Nat} (hx : inMcRing x = false) : (s.readLeaf ent).byteAt x = s.byteAt x := by
  unfold State.readLeaf
  repeat' split
  · rfl
  · exact byteAt_checkRead _ _ _ _ _ hx
  · exact byteAt_mcheck _ _ _ _ _ _ _ _ _ hx

/-- A leaf entry that reads without error, under its key, is read without a trace. -/
theorem readLeaf_reads {s : State} {ent : Nat} (h : LeafReads s ent) : s.readLeaf ent = s := by
  unfold State.readLeaf
  split
  · rfl
  · next hm =>
    obtain ⟨hecc, hkey⟩ := h (by simpa using hm)
    rw [if_pos hkey, State.checkRead, if_pos hecc]

/-! The start of a move -/

theorem exec_ploughMoveGo_ignored {s : State} {f : Nat} (h : (s.plough f).stat = 1 ∨ s.hub.phase = 8) (v : Word) :
    exec (.ploughMoveGo f v) s = .next s := by
  show Host.Outcome.next (s.ifAnswers (fun t => t.plcmdWrite f v)) = _
  rcases h with h | h
  · simp only [State.ifAnswers, State.plcmdWrite, h, decide_true, Bool.true_or, if_true, ite_self]
  · simp only [State.ifAnswers, State.answers, h, bne_self_eq_false, Bool.false_eq_true, if_false]

/-- The plough with the operands of PLCMD, of a hart or of none. -/
def Plough.commanded (p : Plough) (v : Word) (b : Option Nat) : Plough := { p with tag := bits v.toNat 16 10, big := bit v.toNat 1, byHart := b }

/-- Who commanded a move has no part in whether it is legal (R69). -/
theorem moveOk_commanded (s : State) (p : Plough) (v : Word) (b : Option Nat) :
    s.moveOk (p.commanded v b) = s.moveOk { p with tag := bits v.toNat 16 10, big := bit v.toNat 1 } := rfl

theorem ent_commanded (p : Plough) (v : Word) (b : Option Nat) : (p.commanded v b).ent = p.ent := rfl

/-- PLCMD with GO starts a legal move, or rejects it (R69). -/
theorem exec_ploughMoveGo {s : State} {f : Nat} {v : Word} (hs : (s.plough f).stat ≠ 1) (hp : s.hub.phase ≠ 8) (ht : bits v.toNat 16 10 ≤ 512)
    (hgo : bit v.toNat 0 = true) :
    let q := (s.plough f).commanded v s.deviceHart
    let u := s.readLeaf (s.plough f).ent.toNat
    exec (.ploughMoveGo f v) s = .next (if bit s.hub.split 2 then
      (if u.moveOk q then u.setPlough f (fun _ => { q with stat := 1 }) else u.rejectMove f q) else s.rejectMove f q) := by
  intro q u
  have hans : s.answers = true := by simpa [State.answers] using hp
  have hrun : (decide ((s.plough f).stat = 1) || decide (512 < bits v.toNat 16 10)) = false := by simp [hs, ht]
  show Host.Outcome.next (s.ifAnswers (fun t => t.plcmdWrite f v)) = _
  simp only [State.ifAnswers, hans, if_true, State.plcmdWrite, hrun, hgo, Bool.not_true, Bool.false_eq_true, if_false]
  cases bit s.hub.split 2 <;> rfl

/-- What a change of a plough over the read of its leaf entry shows. -/
theorem setPlough_readLeaf (s : State) (f ent : Nat) (g : Plough → Plough) :
    (∀ a, inMcRing a = false → ((s.readLeaf ent).setPlough f g).byteAt a = s.byteAt a) ∧
      (LeafReads s ent → { (s.readLeaf ent).setPlough f g with ploughs := s.ploughs } = s) := by
  refine ⟨fun a ha => byteAt_readLeaf s ent ha, fun h => ?_⟩
  rw [readLeaf_reads h]
  rfl

theorem stat_setPlough (s : State) (f : Nat) (p : Plough) : ((s.setPlough f (fun _ => p)).plough f).stat = p.stat :=
  congrArg Plough.stat (plough_setPlough_self ..)

theorem ploughMoveGo_effect {s : State} {f : Nat} {v : Word} (hs : (s.plough f).stat ≠ 1) (hp : s.hub.phase ≠ 8) (ht : bits v.toNat 16 10 ≤ 512)
    (hgo : bit v.toNat 0 = true) :
    let q := { s.plough f with tag := bits v.toNat 16 10, big := bit v.toNat 1 }
    ∃ t, exec (.ploughMoveGo f v) s = .next t ∧ (∀ a, inMcRing a = false → t.byteAt a = s.byteAt a) ∧
      (LeafReads s q.ent.toNat → { t with ploughs := s.ploughs } = s) ∧
      (t.plough f).stat = if bit s.hub.split 2 && (s.readLeaf q.ent.toNat).moveOk q then 1 else 3 := by
  intro q
  let u := s.readLeaf (s.plough f).ent.toNat
  let c := (s.plough f).commanded v s.deviceHart
  have hexec : exec (.ploughMoveGo f v) s = .next (if bit s.hub.split 2 then
    (if u.moveOk c then u.setPlough f (fun _ => { c with stat := 1 }) else u.rejectMove f c) else s.rejectMove f c) := exec_ploughMoveGo hs hp ht hgo
  have hok : u.moveOk c = u.moveOk q := moveOk_commanded ..
  cases hsplit : bit s.hub.split 2 with
  | false =>
    rw [hsplit] at hexec
    exact ⟨s.rejectMove f c, hexec, fun _ _ => rfl, fun _ => rfl, stat_setPlough ..⟩
  | true =>
    rw [hsplit, if_pos rfl] at hexec
    cases hmove : u.moveOk q with
    | false =>
      have hshow := setPlough_readLeaf s f (s.plough f).ent.toNat (fun _ => { c with stat := 3, own := false })
      refine ⟨u.rejectMove f c, hexec.trans (congrArg _ (if_neg (by rw [hok, hmove]; exact Bool.false_ne_true))), hshow.1, hshow.2, ?_⟩
      exact stat_setPlough ..
    | true =>
      have hshow := setPlough_readLeaf s f (s.plough f).ent.toNat (fun _ => { c with stat := 1 })
      refine ⟨u.setPlough f (fun _ => { c with stat := 1 }), hexec.trans (congrArg _ (if_pos (hok.trans hmove))), hshow.1, hshow.2, ?_⟩
      exact stat_setPlough ..

/-! The reverse ownership of a moved page -/

/-- The entries of moved pages, before those of the source are cleared. -/
theorem get_takenRob (rob : Tab Word) (a b m x : Nat) :
    Tab.get 0 (((List.range m).map (fun i => a + i)).foldl (fun t pn => Tab.set 0 t (pn - a + b) (Tab.get 0 rob pn)) rob) x =
      if b ≤ x ∧ x < b + m then Tab.get 0 rob (a + (x - b)) else Tab.get 0 rob x := by
  have hfold : ((List.range m).map (fun i => a + i)).foldl (fun t pn => Tab.set 0 t (pn - a + b) (Tab.get 0 rob pn)) rob =
      ((List.range m).map (fun i => i + b)).foldl (fun t u => Tab.set 0 t u (Tab.get 0 rob (a + (u - b)))) rob := by
    simp only [List.foldl_map, Nat.add_sub_cancel_left, Nat.add_sub_cancel]
  have hmem : x ∈ (List.range m).map (fun i => i + b) ↔ b ≤ x ∧ x < b + m := by
    simp only [List.mem_map, List.mem_range]
    exact ⟨fun ⟨i, hi, he⟩ => by omega, fun h => ⟨x - b, by omega, by omega⟩⟩
  rw [hfold, Tab.get_foldl_set 0 (fun u => Tab.get 0 rob (a + (u - b)))]
  simp only [hmem]

theorem mem_pagesOf {pa n x : Nat} : x ∈ pagesOf pa n ↔ pa / 65536 ≤ x ∧ x < pa / 65536 + n / 65536 := by
  simp only [pagesOf, List.mem_map, List.mem_range]
  exact ⟨fun ⟨i, hi, he⟩ => by omega, fun h => ⟨x - pa / 65536, by omega, by omega⟩⟩

theorem get_moveRob (rob : Tab Word) (src dst n x : Nat) :
    Tab.get 0 (moveRob rob src dst n) x =
      if src / 65536 ≤ x ∧ x < src / 65536 + n / 65536 then clearedEntry (Tab.get 0 rob x)
      else if dst / 65536 ≤ x ∧ x < dst / 65536 + n / 65536 then Tab.get 0 rob (src / 65536 + (x - dst / 65536)) else Tab.get 0 rob x := by
  unfold moveRob
  rw [Tab.get_foldl_set 0 (fun pn => clearedEntry (Tab.get 0 rob pn))]
  simp only [mem_pagesOf]
  rw [← get_takenRob]
  rfl

/-- A cleared entry is not valid (R91). -/
theorem robValid_clearedEntry (e : Word) : robValid (clearedEntry e).toNat = false := by
  have h := bit_setBit_self e.toNat 63 false
  unfold robValid clearedEntry word
  rw [BitVec.toNat_ofNat]
  generalize setBit e.toNat 63 false = y at h ⊢
  unfold bit at h ⊢
  rw [beq_eq_false_iff_ne] at h ⊢
  omega

theorem pageBytes_cases (big : Bool) : pageBytes big = 65536 ∨ pageBytes big = 2097152 := by cases big <;> simp [pageBytes]

/-- Of a page that has moved to another, the destination has the entries, and the source has none (R67). -/
theorem rob_moved (rob : Tab Word) {src dst : Nat} {big : Bool} (hs : src % pageBytes big = 0) (hd : dst % pageBytes big = 0) (hne : src ≠ dst) {i : Nat}
    (hi : i < pageBytes big / 65536) :
    Tab.get 0 (moveRob rob src dst (pageBytes big)) (dst / 65536 + i) = Tab.get 0 rob (src / 65536 + i) ∧
      robValid (Tab.get 0 (moveRob rob src dst (pageBytes big)) (src / 65536 + i)).toNat = false := by
  have hfar : ¬(src / 65536 ≤ dst / 65536 + i ∧ dst / 65536 + i < src / 65536 + pageBytes big / 65536) := by
    rcases pageBytes_cases big with hn | hn <;> rw [hn] at hs hd hi ⊢ <;> omega
  constructor
  · rw [get_moveRob, if_neg hfar, if_pos (by omega), Nat.add_sub_cancel_left]
  · rw [get_moveRob, if_pos (by omega)]
    exact robValid_clearedEntry _

/-! The leaf entry of a moved page -/

/-- The far tier ends below 2^49, and so does memory (R61, R64). -/
theorem hasMemory_lt {s : State} {pa : Nat} (h : s.hasMemory pa = true) : pa < 2 ^ 52 := by
  have hfar : farSize s.hub ≤ 2 ^ 7 * 2 ^ 11 * 2 ^ 30 := by
    unfold farSize
    split
    · exact Nat.zero_le _
    · have h1 : bits s.hub.ftmap.toNat 0 3 < 2 ^ 3 := Nat.mod_lt _ (by decide)
      have h2 : bits s.hub.ftmap.toNat 32 11 < 2 ^ 11 := Nat.mod_lt _ (by decide)
      have h3 : 2 ^ bits s.hub.ftmap.toNat 0 3 ≤ 2 ^ 7 := Nat.pow_le_pow_right (by decide) (by omega)
      exact Nat.mul_le_mul_right _ (Nat.mul_le_mul h3 h2.le)
  simp only [State.hasMemory, Bool.or_eq_true, Bool.and_eq_true, decide_eq_true_eq] at h
  omega

/-- The address of an entry that points to a page of memory (R88). -/
theorem pteAddr_setBits {e dst : Nat} (h4 : dst % 4096 = 0) (hlt : dst < 2 ^ 52) : pteAddr (setBits e 12 40 (dst / 4096) % 256 ^ 8) = dst := by
  unfold pteAddr setBits bits
  omega

/-- The rest of a page's move, once the leaf entry is written. -/
def State.afterMove (s : State) (f : Nat) (p : Plough) (st : Nat) : State := ((s.moveCount p).setPlough f (fun q => { q with stat := st })).releaseLines f

theorem still_moveCount (s : State) (p : Plough) : Still s (s.moveCount p) := by
  unfold State.moveCount
  split
  · exact (still_countMem ..).trans (still_countMem ..)
  · exact .refl s

theorem mem_moveCount (s : State) (p : Plough) : (s.moveCount p).mem = s.mem := by
  unfold State.moveCount
  split
  · rw [mem_countMem, mem_countMem]
  · rfl

/-- Errors found and sectors deciphered leave the reverse ownership alone. -/
theorem rob_recrypt_findErrors (s : State) (tag pa n : Nat) : ((s.findErrors tag pa n).recrypt tag pa n).rob = s.rob :=
  (foldl_keeps State.rob _ (by intros; rfl) _ (s.findErrors tag pa n)).trans
    (Found.foldl (fun t u => found_checkUnit t tag noHart u) _ s).rob

theorem still_logPages (s : State) (pa n : Nat) : Still s (s.logPages pa n) := .foldl (fun t pn => still_logDirty t (pn * 65536)) _ s

/-- A move, in the order of R67: the reverse ownership moves, the leaf entry points to the destination, and the plough ends its move. -/
theorem movePage_shape (s : State) (f : Nat) (p : Plough) :
    ∃ u : State, ∃ e, ∃ st ∈ [2, 5], s.movePage f p = (u.store64 p.ent.toNat (setBits e 12 40 (p.dst.toNat / 4096))).afterMove f p st ∧
      u.rob = moveRob s.rob p.src.toNat p.dst.toNat (pageBytes p.big) := by
  unfold State.movePage
  extract_lets n src dst s1 bad hub s2 tt e
  have hst : ∀ b : Bool, (if b then 5 else 2) ∈ [2, 5] := by decide
  refine ⟨(s2.logPages dst n).keyed tt p.ent.toNat 8, e, if bad then 5 else 2, hst bad, ?_, ?_⟩
  · unfold State.afterMove
    with_reducible rfl
  refine ((still_logPages s2 dst n).trans (still_keyed ..)).rob.trans ?_
  show moveRob s1.rob src dst n = _
  rw [show s1.rob = s.rob from rob_recrypt_findErrors ..]

theorem afterMove_plough (s : State) (f : Nat) (p : Plough) (st : Nat) :
    ((s.afterMove f p st).plough f).own = false ∧ ((s.afterMove f p st).plough f).stat = st ∧ ∀ c ∈ (s.afterMove f p st).copied, c.1 ≠ f := by
  let u := (s.moveCount p).setPlough f (fun q => { q with stat := st })
  have h : (s.afterMove f p st).plough f = { u.plough f with own := false } := plough_setPlough_self { u with copied := u.copied.filter (fun c => c.1 ≠ f) } ..
  rw [h, show u.plough f = _ from plough_setPlough_self ..]
  exact ⟨rfl, rfl, fun c hc => by simpa using (List.mem_filter.mp hc).2⟩

theorem afterMove_memory (s : State) (f : Nat) (p : Plough) (st : Nat) : (s.afterMove f p st).mem = s.mem ∧ (s.afterMove f p st).rob = s.rob :=
  ⟨mem_moveCount s p, (still_moveCount s p).rob⟩

theorem numAt_congr {s t : State} (h : t.mem = s.mem) (a n : Nat) : t.numAt a n = s.numAt a n :=
  congrArg leNat (bytesAt_congr fun i _ => congrArg (Tab.get 0 · (a + i)) h)

theorem moveOk_pages {s : State} {p : Plough} (h : s.moveOk p = true) :
    p.src.toNat % pageBytes p.big = 0 ∧ p.dst.toNat % pageBytes p.big = 0 ∧ s.hasMemory p.dst.toNat = true := by
  simp only [State.moveOk, State.hasRange, Bool.and_eq_true, beq_iff_eq] at h
  obtain ⟨⟨⟨⟨hs, hd⟩, -⟩, ⟨hm, -⟩, -⟩, -⟩ := h
  exact ⟨hs, hd, hm⟩

/-- What a legal move to another page leaves (R67). -/
theorem movePage_effect {s : State} {f : Nat} {p : Plough} (hok : s.moveOk p = true) (hne : p.src ≠ p.dst) :
    let t := s.movePage f p
    (t.plough f).own = false ∧ (∀ c ∈ t.copied, c.1 ≠ f) ∧ ((t.plough f).stat = 2 ∨ (t.plough f).stat = 5) ∧
      pteAddr (t.numAt p.ent.toNat 8) = p.dst.toNat ∧
      ∀ i < pageBytes p.big / 65536, Tab.get 0 t.rob (p.dst.toNat / 65536 + i) = Tab.get 0 s.rob (p.src.toNat / 65536 + i) ∧
        robValid (Tab.get 0 t.rob (p.src.toNat / 65536 + i)).toNat = false := by
  intro t
  obtain ⟨hs, hd, hm⟩ := moveOk_pages hok
  obtain ⟨u, e, st, hst, ht, hrob⟩ := movePage_shape s f p
  rw [show t = _ from ht]
  obtain ⟨hown, hstat, hcopied⟩ := afterMove_plough (u.store64 p.ent.toNat (setBits e 12 40 (p.dst.toNat / 4096))) f p st
  obtain ⟨hmem, hrob2⟩ := afterMove_memory (u.store64 p.ent.toNat (setBits e 12 40 (p.dst.toNat / 4096))) f p st
  have hrob3 := hrob2.trans hrob
  refine ⟨hown, hcopied, ?_, ?_, fun i hi => ?_⟩
  · rw [hstat]
    simpa using hst
  · rw [numAt_congr hmem, State.store64, numAt_store]
    refine pteAddr_setBits ?_ (hasMemory_lt hm)
    rcases pageBytes_cases p.big with hn | hn <;> rw [hn] at hd <;> omega
  · rw [hrob3]
    exact rob_moved s.rob hs hd (fun h => hne (BitVec.eq_of_toNat_eq h)) hi

/-! The completion of a move -/

/-- A commanded move whose page no engine owns: the plough takes the lines written meanwhile, performs the move, or rejects it (R67). -/
theorem exec_ploughMoveComplete {s : State} {f : Nat} (h1 : (s.plough f).stat = 1)
    (hsrc : s.pageOwned (s.plough f).src.toNat (pageBytes (s.plough f).big) = false)
    (hdst : s.pageOwned (s.plough f).dst.toNat (pageBytes (s.plough f).big) = false) (hsplit : bit s.hub.split 2 = true) :
    let p := s.plough f
    let u := s.readLeaf p.ent.toNat
    exec (.ploughMoveComplete f) s = .next (if !p.own && u.moveOk p && s.copied.any (fun c => c.1 == f) then
      u.setPlough f (fun q => { q with own := true }) else if u.moveOk p then u.movePage f p else (u.rejectMove f p).releaseLines f) := by
  intro p u
  have hf := found_readLeaf s p.ent.toNat
  have hsplit2 : bit u.hub.split 2 = true := hf.split ▸ hsplit
  show execPloughMoveComplete f s = _
  unfold execPloughMoveComplete
  simp only [h1, hsrc, hdst, ne_eq, not_true_eq_false, decide_false, Bool.or_self, Bool.false_eq_true, if_false]
  rw [hf.copied]
  split
  · rfl
  · rfl

/-- A move that its leaf entry no longer allows ends with STAT 3 (R67). -/
theorem rejectMove_effect {s u : State} (hp : u.ploughs = s.ploughs) (hc : u.copied = s.copied) (f : Nat) (p : Plough) :
    let t := (u.rejectMove f p).releaseLines f
    (t.plough f).stat = 3 ∧ { t with ploughs := s.ploughs, copied := s.copied } = u := by
  refine ⟨?_, ?_⟩
  · let v := u.rejectMove f p
    have h : (v.releaseLines f).plough f = { v.plough f with own := false } := plough_setPlough_self { v with copied := v.copied.filter (fun c => c.1 ≠ f) } ..
    rw [h, show v.plough f = _ from plough_setPlough_self ..]
  · rw [← hp, ← hc]
    rfl

/-- The three completions of a commanded move whose page no engine owns (R67). -/
theorem ploughMoveComplete_effect {s : State} {f : Nat} (h1 : (s.plough f).stat = 1)
    (hsrc : s.pageOwned (s.plough f).src.toNat (pageBytes (s.plough f).big) = false)
    (hdst : s.pageOwned (s.plough f).dst.toNat (pageBytes (s.plough f).big) = false) (hsplit : bit s.hub.split 2 = true) :
    let p := s.plough f
    let n := pageBytes p.big
    let u := s.readLeaf p.ent.toNat
    (u.moveOk p = true → p.own = false → (∃ c ∈ s.copied, c.1 = f) →
      exec (.ploughMoveComplete f) s = .next (u.setPlough f (fun q => { q with own := true }))) ∧
    (u.moveOk p = true → p.src ≠ p.dst → (p.own = true ∨ ∀ c ∈ s.copied, c.1 ≠ f) → ∃ t, exec (.ploughMoveComplete f) s = .next t ∧
      (t.plough f).own = false ∧ (∀ c ∈ t.copied, c.1 ≠ f) ∧
      ((t.plough f).stat = 2 ∨ (t.plough f).stat = 5) ∧ pteAddr (t.numAt p.ent.toNat 8) = p.dst.toNat ∧
      ∀ i < n / 65536, Tab.get 0 t.rob (p.dst.toNat / 65536 + i) = Tab.get 0 s.rob (p.src.toNat / 65536 + i) ∧
        robValid (Tab.get 0 t.rob (p.src.toNat / 65536 + i)).toNat = false) ∧
    (u.moveOk p = false → ∃ t, exec (.ploughMoveComplete f) s = .next t ∧ (t.plough f).stat = 3 ∧
      { t with ploughs := s.ploughs, copied := s.copied } = u) := by
  intro p n u
  have hf := found_readLeaf s p.ent.toNat
  have hexec : exec (.ploughMoveComplete f) s = .next (if !p.own && u.moveOk p && s.copied.any (fun c => c.1 == f) then
      u.setPlough f (fun q => { q with own := true }) else if u.moveOk p then u.movePage f p else (u.rejectMove f p).releaseLines f) :=
    exec_ploughMoveComplete h1 hsrc hdst hsplit
  refine ⟨fun hok hown hlines => ?_, fun hok hne hdone => ?_, fun hok => ?_⟩
  · have hany : s.copied.any (fun c => c.1 == f) = true := by simpa using hlines
    rwa [hown, hok, hany] at hexec
  · have htaken : (!p.own && u.moveOk p && s.copied.any (fun c => c.1 == f)) = false := by
      rcases hdone with hown | hnone
      · rw [hown]
        rfl
      · rw [show s.copied.any (fun c => c.1 == f) = false by simpa using hnone, Bool.and_false]
    rw [htaken, hok] at hexec
    obtain ⟨hown, hcopied, hstat, hleaf, hrob⟩ := movePage_effect (f := f) hok hne
    rw [hf.rob] at hrob
    exact ⟨_, hexec, hown, hcopied, hstat, hleaf, hrob⟩
  · rw [hok, Bool.and_false, Bool.false_and] at hexec
    exact ⟨_, hexec, rejectMove_effect hf.ploughs hf.copied f p⟩

/-! The end of an epoch -/

/-- A plough's heat table has started anew (R66). -/
structure Anew (f time : Nat) (s : State) : Prop where
  heat : (s.plough f).heat = []
  epochAt : (s.plough f).epochAt = time

theorem Anew.setPlough {f time : Nat} {s : State} (h : Anew f time s) {g : Plough → Plough} (hg : ∀ p, (g p).heat = p.heat ∧ (g p).epochAt = p.epochAt) :
    Anew f time (s.setPlough f g) := by
  constructor <;> rw [plough_setPlough_self]
  · rw [(hg _).1, h.heat]
  · rw [(hg _).2, h.epochAt]

theorem Anew.readLeaf {f time : Nat} {s : State} (h : Anew f time s) (ent : Nat) : Anew f time (s.readLeaf ent) := by
  have hp : (s.readLeaf ent).plough f = s.plough f := congrArg (Tab.get Plough.reset · f) (found_readLeaf s ent).ploughs
  constructor <;> rw [hp]
  · exact h.heat
  · exact h.epochAt

theorem Anew.startMove {f time : Nat} {s : State} (h : Anew f time s) (tag : Nat) (big : Bool) (src dst ent : Nat) :
    Anew f time (s.startMove f tag big src dst ent) := by
  obtain ⟨h1, h2⟩ := h.setPlough (g := fun p => { p with stat := 1, tag := tag, big := big, src := word src, dst := word dst, ent := word ent, byHart := none })
    (fun _ => ⟨rfl, rfl⟩)
  exact ⟨h1, h2⟩

theorem Anew.promote {f time : Nat} {s t : State} (h : Anew f time s) {key : Nat} (ht : s.promote f key = some t) : Anew f time t := by
  unfold State.promote at ht
  extract_lets ent big src tag at ht
  split at ht
  · exact absurd ht (by simp)
  · obtain ⟨dst, -, rfl⟩ := Option.map_eq_some_iff.mp ht
    exact h.startMove ..

theorem Anew.demote {f time : Nat} {s t : State} (h : Anew f time s) {tag : Nat} (ht : s.demote f tag = some t) : Anew f time t := by
  unfold State.demote at ht
  extract_lets x l at ht
  split at ht
  · exact absurd ht (by simp)
  · split at ht
    · exact absurd ht (by simp)
    · obtain ⟨dst, -, rfl⟩ := Option.map_eq_some_iff.mp ht
      exact (h.readLeaf _).startMove ..

theorem Anew.demoteAny {f time : Nat} {s : State} (h : Anew f time s) : Anew f time ((s.demoteAny f).getD s) := by
  cases ht : s.demoteAny f with
  | none => exact h
  | some t =>
    obtain ⟨tag, -, ht⟩ := List.exists_of_findSome?_eq_some ht
    exact h.demote ht

/-- The next move of a plough leaves its heat table as it stands. -/
theorem Anew.nextMove {f time : Nat} {l : List Nat} : ∀ {s : State}, Anew f time s → Anew f time (s.nextMove f l) := by
  induction l with
  | nil =>
    intro s h
    unfold State.nextMove
    exact Anew.demoteAny (h.setPlough (g := fun p => { p with todo := [] }) fun _ => ⟨rfl, rfl⟩)
  | cons k l ih =>
    intro s h
    unfold State.nextMove
    split
    · next ht => exact Anew.promote ((h.readLeaf _).setPlough (g := fun p => { p with todo := l }) fun _ => ⟨rfl, rfl⟩) ht
    · exact ih h

/-- At the end of an epoch the heat table starts anew (R66). -/
theorem ploughEpochEnd_effect (s : State) (f : Nat) :
    ∃ t, exec (.ploughEpochEnd f) s = .next t ∧ (t.plough f).heat = [] ∧ (t.plough f).epochAt = s.gtb := by
  have h1 : Anew f s.gtb (s.setPlough f (fun q => { q with epochAt := s.gtb, heat := [] })) := by
    constructor <;> rw [plough_setPlough_self]
  suffices h : ∃ t, execPloughEpochEnd f s = .next t ∧ Anew f s.gtb t from h.imp fun t ⟨he, ha⟩ => ⟨he, ha.heat, ha.epochAt⟩
  unfold execPloughEpochEnd
  split
  · exact ⟨_, rfl, h1⟩
  · refine ⟨_, rfl, ?_⟩
    split
    · exact h1.setPlough fun _ => ⟨rfl, rfl⟩
    · exact h1.nextMove

end Sys2Proof.Machine
end

section
/-! PROOFS. The flip of planes at a bank (R111), and the units. -/

namespace Sys2Proof.Machine

open Sys2Proof.Claims

/-! The flip of a word -/

/-- A run whose bytes stand reads the same. -/
theorem numAt_keeps {s t : State} {a n : Nat} (h : ∀ i < n, t.byteAt (a + i) = s.byteAt (a + i)) : t.numAt a n = s.numAt a n :=
  congrArg leNat (bytesAt_congr h)

/-- A store beside a run leaves it alone. -/
theorem numAt_store_other (s : State) {a b n : Nat} (l : List Byte) (p : Bool) (h : a + n ≤ b ∨ b + l.length ≤ a) :
    (s.store b l p).numAt a n = s.numAt a n :=
  numAt_keeps fun i hi => byteAt_store_other s b l p (a + i) (by omega)

/-- What lies below a region's report block is not of its counts (R117). -/
theorem numAt_countWriters (s : State) (r : Region) (ranks : List Nat) (p : PlnWord) {x n : Nat} (h : x + n ≤ r.report) :
    (s.countWriters r ranks p).numAt (locComb x) n = s.numAt (locComb x) n :=
  foldl_keeps (fun t : State => t.numAt (locComb x) n) _ (fun t e => numAt_store_other t _ _ (.inl (by simp only [locComb]; omega))) _ s

/-- The present plane takes the next value (R111). -/
theorem numAt_flipWord (s : State) (r : Region) (ranks : List Nat) (x : Nat) (p : PlnWord) (h : x + r.width ≤ r.report) :
    (s.flipWord r ranks (x, p)).numAt (locComb x) r.width = (p.next r).1 % 2 ^ (8 * r.width) := by
  have hcount : ((s.store (locComb x) (leBytes r.width (p.next r).1) (p.next r).2.1).countWriters r ranks p).numAt (locComb x) r.width =
      (p.next r).1 % 2 ^ (8 * r.width) := by
    rw [numAt_countWriters _ _ _ _ h, numAt_store, Nat.pow_mul]
  unfold State.flipWord
  dsimp only
  split
  · exact (numAt_store_other _ _ _ (.inl (by simp only [locComb]; omega))).trans hcount
  · exact hcount

theorem still_countWriters (s : State) (r : Region) (ranks : List Nat) (p : PlnWord) : Still s (s.countWriters r ranks p) :=
  .foldl (fun t _ => still_store t ..) _ s

theorem still_flipWord (s : State) (r : Region) (ranks : List Nat) (e : Nat × PlnWord) : Still s (s.flipWord r ranks e) := by
  unfold State.flipWord
  dsimp only
  split
  · exact ((still_store ..).trans (still_countWriters ..)).trans (still_store ..)
  · exact (still_store ..).trans (still_countWriters ..)

/-! The record of a swarm -/

theorem length_recordBytes (d0 d1 d2 d3 d4 d5 map : Nat) : (recordBytes d0 d1 d2 d3 d4 d5 map).length = 256 := by
  simp [recordBytes]

theorem length_objRecord (o : Obj) (n : Nat) : (o.record n).length = 256 := by
  unfold Obj.record
  split <;> exact length_recordBytes ..

/-- An object's change writes its record, and no run beside it (R341). -/
theorem numAt_setBody (s : State) (off : Nat) (o : Obj) (b : ObjKind) {x n : Nat} (h : x + n ≤ off ∨ off + 256 ≤ x) :
    (s.setBody off o b).numAt (locComb x) n = s.numAt (locComb x) n :=
  numAt_keeps fun i hi => by
    refine (get_putBytes ..).trans (if_neg ?_)
    rw [length_objRecord]
    simp only [locComb]
    omega

/-- Where no `step` result waits, none is sent: of memory the swarm's record alone is written. -/
theorem sendSteps_beside {s : State} {off x n : Nat} (h : ∀ o b, s.swarm off = some (o, b) → b.closed = [] ∧ (x + n ≤ off ∨ off + 256 ≤ x)) :
    (s.sendSteps off).numAt (locComb x) n = s.numAt (locComb x) n ∧ (s.sendSteps off).regions = s.regions := by
  unfold State.sendSteps
  split
  · exact ⟨rfl, rfl⟩
  · split
    · exact ⟨rfl, rfl⟩
    · next o b hw =>
      obtain ⟨hclosed, hbeside⟩ := h o b hw
      rw [hclosed]
      exact ⟨numAt_setBody _ _ _ _ hbeside, rfl⟩

/-! The flip of a bank -/

theorem region_setRegion_self (s : State) (n : Nat) (r : Option Region) : (s.setRegion n r).region n = r := Tab.get_set_self ..

theorem numAt_setRegion (s : State) (m : Nat) (r : Option Region) (a n : Nat) : (s.setRegion m r).numAt a n = s.numAt a n := numAt_keeps fun _ _ => rfl

theorem swarm_congr {s t : State} (h : t.objs = s.objs) (off : Nat) : t.swarm off = s.swarm off := by
  unfold State.swarm State.obj
  rw [h]

theorem planeFlip_flipped {s : State} {n bank : Nat} {r : Region} (hr : s.region n = some r) (h : r.flipBanks.contains bank = false) :
    exec (.planeFlip n bank) s = .next s := by
  show execPlaneFlip n bank s = _
  simp only [execPlaneFlip, hr, h, Bool.false_eq_true, if_false]

/-- A region after a bank has flipped its last words (R111). -/
def Region.flippedAt (r : Region) (bank : Nat) : Region :=
  { r with flip := [], flipBanks := r.flipBanks.filter (fun c => !([bank] : List Nat).contains c),
           flipEpi := if (r.flipBanks.filter (fun c => !([bank] : List Nat).contains c)).isEmpty then none else r.flipEpi }

theorem flipBanks_word {s : State} {n bank x : Nat} {r : Region} {p : PlnWord} (hr : s.region n = some r) (hflip : r.flip = [(x, p)])
    (hhome : (combHome x).2 = bank) :
    s.flipBanks n [bank] = (s.flipWord r (s.planeRanks r) (x, p)).setRegion n (some (r.flippedAt bank)) := by
  simp [State.flipBanks, hr, hflip, hhome, Region.flippedAt]

theorem exec_planeFlip {s : State} {n bank : Nat} {r : Region} (hr : s.region n = some r) (h : r.flipBanks.contains bank = true) :
    exec (.planeFlip n bank) s = .next ((combOffset r.obj).elim (s.flipBanks n [bank]) (s.flipBanks n [bank]).sendSteps) := by
  show execPlaneFlip n bank s = _
  simp only [execPlaneFlip, hr, h, if_true]
  cases combOffset r.obj <;> rfl

/-- A bank flips the word of a closed episode that is its own (R111). -/
theorem planeFlip_flips {s : State} {n bank x : Nat} {r : Region} {p : PlnWord} (hr : s.region n = some r) (h : r.flipBanks.contains bank = true)
    (hflip : r.flip = [(x, p)]) (hhome : (combHome x).2 = bank) (hx : x + r.width ≤ r.report)
    (hw : ∀ off o b, combOffset r.obj = some off → s.swarm off = some (o, b) → b.closed = [] ∧ (x + r.width ≤ off ∨ off + 256 ≤ x)) :
    ∃ t, exec (.planeFlip n bank) s = .next t ∧ t.region n = some (r.flippedAt bank) ∧
      t.numAt (locComb x) r.width = (p.next r).1 % 2 ^ (8 * r.width) := by
  let s1 := (s.flipWord r (s.planeRanks r) (x, p)).setRegion n (some (r.flippedAt bank))
  have hexec := exec_planeFlip hr h
  rw [flipBanks_word hr hflip hhome] at hexec
  have hregion : s1.region n = some (r.flippedAt bank) := region_setRegion_self ..
  have hnum : s1.numAt (locComb x) r.width = (p.next r).1 % 2 ^ (8 * r.width) := (numAt_setRegion ..).trans <| numAt_flipWord s r (s.planeRanks r) x p hx
  have hobjs : s1.objs = s.objs := (State.objs_setRegion ..).trans (congrArg State.objs (still_flipWord s r (s.planeRanks r) (x, p)).rest :)
  cases hobj : combOffset r.obj with
  | none =>
    rw [hobj] at hexec
    exact ⟨s1, hexec, hregion, hnum⟩
  | some off =>
    rw [hobj] at hexec
    obtain ⟨hkeep, hregs⟩ := sendSteps_beside (s := s1) (off := off) (x := x) (n := r.width) fun o b hob => hw off o b hobj (swarm_congr hobjs off ▸ hob)
    exact ⟨s1.sendSteps off, hexec, (congrArg (Tab.get none · n) hregs).trans hregion, hkeep.trans hnum⟩

end Sys2Proof.Machine

namespace Sys2Proof.Claims

open Sys2Proof.Machine

/-- Settles O59, by what each of the units' events does: the dispatcher's lemmas, those of commands and their ends, of collectives, ploughs,
planes and halted harts. -/
theorem unitEvents : Obligations.UnitEvents := by
  refine ⟨fun s e q h w kind req hn hw hk hnow => leaseGrant_grants hn hw hk hnow, fun s e hl => ⟨?_, ?_, ?_⟩, fun s e c rest hq => ?_,
    fun s rcd b o w hc hw => ⟨fun hdue => ?_, fun hopen hearly => ?_⟩, fun s f v => ⟨?_, ?_, ?_, ploughEpochEnd_effect s f⟩,
    fun s n bank x r p hr => ⟨planeFlip_flipped hr, fun h hflip hhome hx hw => ?_⟩, fun s core slot h x hslot hh hlive hx => ⟨?_, ?_⟩⟩
  · exact ⟨_, rfl, endLease_empties hl⟩
  · exact fun hd => ⟨_, leaseExpiry_due hl hd, endLease_empties hl⟩
  · exact leaseExpiry_early
  · exact ⟨start_unconfirmed hq, start_confirmed hq, copy_ends hq, fun hr hk _ _ => comp_malformed hq hr hk,
      fun hr hk _ _ _ _ => comp_ends hq hr hk, coll_waits hq, fun hr hk _ => coll_ends hq hr hk⟩
  · obtain ⟨hnone, o2, w2, hw2, habs⟩ := closeColl_effect hc hw
    exact ⟨_, o2, w2, (exec_collectiveClose hc hw).trans (congrArg _ (if_pos hdue)), hnone, hw2, habs⟩
  · refine (exec_collectiveClose hc hw).trans (congrArg _ (if_neg ?_))
    rintro (hcomp | hdead)
    · exact Bool.false_ne_true (hopen.symm.trans hcomp)
    · omega
  · exact fun h => exec_ploughMoveGo_ignored h v
  · exact ploughMoveGo_effect
  · refine ⟨readLeaf_reads, fun h1 hsrc hdst hsplit => ?_⟩
    exact ploughMoveComplete_effect h1 hsrc hdst hsplit
  · obtain ⟨t, hexec, hregion, hnum⟩ := planeFlip_flips hr h hflip hhome hx hw
    exact ⟨t, _, hexec, hregion, rfl, rfl, hnum⟩
  · obtain ⟨hbytes, hself, hothers⟩ := updHart_shows hh hlive Hart.resumeHalt (fun _ => rfl) (fun _ => rfl)
    exact ⟨_, exec_debugResume hslot, hbytes, hself, hothers⟩
  · obtain ⟨hbytes, hself, hothers⟩ := updHart_shows hh hlive Hart.stepHalt (fun _ => rfl) (fun _ => rfl)
    exact ⟨_, exec_debugStep hslot, hbytes, hself.trans (congrArg some (stepHalt_of_halt hx)), hothers⟩

end Sys2Proof.Claims
end

section
/-! PROOFS. The windows of pointers, and the first checks of a scalar access (R80-R85). -/

namespace Sys2Proof.Machine

open Sys2Proof.Claims

theorem resultX_retire (s : State) (d : BitVec 5) (v : Word) : ResultX s (s.retire d v) d v := by
  obtain ⟨hwrote, hother⟩ := retire_registers s d v
  exact ⟨hwrote, hother, retire_pc .., retire_only .., retire_rest .., fun _ => rfl⟩

/-! The windows (R83) -/

section Windows

variable {s : State} {d a : BitVec 5} {w : BitVec 2}

theorem exec_sptest : exec (.sptest d a) s = .next (s.retire d (word (window (s.xr a)))) := rfl

theorem exec_spcastChk (h : window (s.xr a) = w.toNat) : exec (.spcastChk d a w) s = .next (s.retire d (s.xr a)) :=
  if_neg (not_not.mpr h)

theorem exec_spcastMk (h : (s.xr a).toNat < 2 ^ offsetWidth w) :
    exec (.spcastMk d a w) s = .next (s.retire d (s.h.makePointer w (s.xr a))) :=
  if_neg (Nat.not_le.mpr h)

theorem exec_spcastOff (h : window (s.xr a) = w.toNat) :
    exec (.spcastOff d a w) s = .next (s.retire d (word ((s.xr a).toNat % 2 ^ offsetWidth w))) := by
  rw [← bits_zero_low]
  exact if_neg (not_not.mpr h)

end Windows

/-! The order of the checks (R85) -/

/-- The pointer names what belongs to another hart or core: its own window, or its scratchpad (R82). -/
def ForeignTo (a : Actor) (p : Word) : Prop :=
  window p = 1 ∧ bits p.toNat 40 16 ≠ a.hid ∨ window p = 2 ∧ bits p.toNat 40 8 ≠ a.core

section Checks

variable {s : State} {a : Actor} {k : AKind} {p : Word} {n m : Nat}

theorem access_invalid (h : window p = 15) : s.access a k p n m = (s, .trap cSPACE p) := if_pos h

theorem access_foreign (h : ForeignTo a p) : s.access a k p n m = (s, .trap cFOREIGN p) := by
  have hvalid : window p ≠ 15 := by rcases h with ⟨h, -⟩ | ⟨h, -⟩ <;> rw [h] <;> decide
  refine (if_neg hvalid).trans (if_pos ?_)
  simpa [ForeignTo] using h

theorem access_misaligned (hvalid : window p ≠ 15) (hown : ¬ForeignTo a p) (h : p.toNat % m ≠ 0) :
    s.access a k p n m = (s, .trap cALIGN p) := by
  refine (if_neg hvalid).trans ((if_neg ?_).trans (if_pos h))
  simpa [ForeignTo] using hown

end Checks

/-- A load or store whose access is refused takes its trap. -/
theorem exec_refused {s s1 : State} {d a : BitVec 5} {o : BitVec 13} {c : Nat} {v : Word} {e : Instr × Nat}
    (he : e ∈ (loadTable d a o).map (fun e => (e.1, e.2.1)) ++ storeTable d a o)
    (h : ∀ k, s.access s.h.actor k (s.xr a + o.signExtend 64) e.2 e.2 = (s1, .trap c v)) : exec e.1 s = .next (s1.trap c v) := by
  rcases List.mem_append.mp he with hmap | hs
  · obtain ⟨l, hl, rfl⟩ := List.mem_map.mp hmap
    rw [exec_loadTable hl, load, State.scalarAddr, h]
    rfl
  · rw [exec_storeTable hs, storeOp, State.scalarAddr, h]
    rfl

end Sys2Proof.Machine

namespace Sys2Proof.Claims

open Sys2Proof.Machine

/-- Settles O4: under its condition each word retires with its value. -/
theorem spaceResults : Obligations.SpaceResults := fun s _ _ _ =>
  ⟨⟨_, exec_sptest, resultX_retire s _ _⟩, fun h => ⟨_, exec_spcastChk h, resultX_retire s _ _⟩,
    fun h => ⟨_, exec_spcastMk h, resultX_retire s _ _⟩, fun h => ⟨_, exec_spcastOff h, resultX_retire s _ _⟩⟩

/-- Settles O7, by the checks of an access in their order. -/
theorem accessOrder : Obligations.AccessOrder := by
  intro s d a o p e he
  exact ⟨fun h => exec_refused he fun _ => access_invalid h, fun h => exec_refused he fun _ => access_foreign h,
    fun ⟨hvalid, hhart, hcore, h⟩ => exec_refused he fun _ => access_misaligned hvalid (not_or.mpr ⟨hhart, hcore⟩) h⟩

end Sys2Proof.Claims
end

section
/-! PROOFS. Trap entry (R394-R396): the handler that it enters, and the hart without one. -/

namespace Sys2Proof.Machine

open Sys2Proof.Claims

/-! Counters, stores and trace records do not look at the hart in hand -/

section Hand

variable (s : State) (f : Hart → Hart)

theorem count_setH (t i n : Nat) : (s.setH f).count t i n = (s.count t i n).setH f := by
  unfold State.count
  split <;> rfl

theorem numAt_setH : (s.setH f).numAt = s.numAt := by
  funext a n
  exact numAt_congr (s := s) (t := s.setH f) rfl a n

theorem store_setH (a : Nat) (l : List Byte) (b : Bool) : (s.setH f).store a l b = (s.store a l b).setH f := rfl

theorem store64_setH (a v : Nat) : (s.setH f).store64 a v = (s.store64 a v).setH f := rfl

theorem trctl_setH (tag : Nat) : (s.setH f).trctl tag = s.trctl tag := rfl

theorem traceOn_setH (tag type : Nat) : (s.setH f).traceOn tag type = s.traceOn tag type := rfl

theorem traceRing_setH (tag : Nat) : (s.setH f).traceRing tag = s.traceRing tag := rfl

theorem trace_setH (tag hid die type code : Nat) (pc v : Word) :
    (s.setH f).trace tag hid die type code pc v = (s.trace tag hid die type code pc v).setH f := by
  unfold State.trace
  rw [traceOn_setH, traceRing_setH]
  split
  · rfl
  · split
    · rfl
    · dsimp only
      rw [trctl_setH, numAt_setH, store64_setH, store_setH, store64_setH, State.gtb_setH]
      split <;> rfl

end Hand

/-! The trap registers -/

/-- What a PAGE of a poisoned table meets is of its hart's pending events alone (R96). -/
theorem pageMet_only (h : Hart) (cause : Nat) (tval : Word) :
    { h.pageMet cause tval with
      pagePend := if tablePage cause tval then h.pagePend else (h.pageMet cause tval).pagePend,
      pagePendV := if tablePage cause tval then h.pagePendV else (h.pageMet cause tval).pagePendV } = h := by
  unfold Hart.pageMet
  split <;> rfl

/-- Every field of the hart but its pending events is as it was. -/
theorem pageMet_keeps {α : Type} (g : Hart → α) (hg : ∀ k v p, g ({ k with pagePend := v, pagePendV := p } : Hart) = g k) (h : Hart) (cause : Nat)
    (tval : Word) : g (h.pageMet cause tval) = g h :=
  (hg ..).symm.trans (congrArg g (pageMet_only h cause tval))

theorem pageMet_names (h : Hart) (cause : Nat) (tval : Word) :
    (h.pageMet cause tval).tid = h.tid ∧ (h.pageMet cause tval).hid = h.hid ∧ (h.pageMet cause tval).core = h.core :=
  ⟨pageMet_keeps Hart.tid (fun _ _ _ => rfl) h cause tval, pageMet_keeps Hart.hid (fun _ _ _ => rfl) h cause tval,
    pageMet_keeps Hart.core (fun _ _ _ => rfl) h cause tval⟩

/-- A PAGE that is not posted, and every other trap, is entered once its event has been met (R96, R455). -/
theorem trap_unposted {s : State} {cause : Nat} (tval : Word) (h : ¬(cause = cPAGE ∧ s.h.mode = .a ∧ bit s.hub.split 0 = true)) :
    s.trap cause tval = (s.setH (fun h => h.pageMet cause tval)).enterTrap cause tval s.h.pc false := by
  have hmode : (s.h.pageMet cause tval).mode = s.h.mode := pageMet_keeps Hart.mode (fun _ _ _ => rfl) s.h cause tval
  refine if_neg ?_
  simpa [hmode, and_assoc] using h

/-- The trap of a hart whose handler can be fetched: the count, the trace record, and the registers of R394. -/
theorem trap_handled {s : State} {cause : Nat} {tval : Word} (hok : (s.setH (fun h => h.pageMet cause tval)).handlerOk cause = true)
    (h : ¬(cause = cPAGE ∧ s.h.mode = .a ∧ bit s.hub.split 0 = true)) :
    s.trap cause tval =
      { (s.count s.h.tid 12 1).traceHart s.h 6 cause s.h.pc tval with
        h := { (s.h.pageMet cause tval).enter cause tval s.h.pc false with
               iw := none, begun := none, pageIn := (s.h.pageMet cause tval).pageEntered cause tval },
        did := .trapped } := by
  obtain ⟨htid, hhid, hcore⟩ := pageMet_names s.h cause tval
  rw [trap_unposted tval h, State.enterTrap, if_pos hok]
  simp only [State.h_setH, State.traceHart, count_setH, trace_setH, htid, hhid, hcore]
  rfl

/-- The registers after an entry, of the hart as it stood before its event was met. -/
theorem entered_pageMet (h : Hart) (cause : Nat) (tval tepc : Word) (l : List (Option Word)) :
    Entered h { (h.pageMet cause tval).enter cause tval tepc false with iw := none, begun := none, pageIn := l } cause tval tepc false := by
  unfold Hart.pageMet
  split
  · next ht => exact ⟨rfl, rfl, rfl, rfl, rfl, rfl, by simp only [ht, if_true]; rfl⟩
  · next ht => exact ⟨rfl, rfl, rfl, rfl, rfl, rfl, by simp only [ht]; rfl⟩

/-! A hart without a handler (R396) -/

theorem trap_unhandled {s : State} {cause : Nat} {tval : Word} (hok : (s.setH (fun h => h.pageMet cause tval)).handlerOk cause = false)
    (h : ¬(cause = cPAGE ∧ s.h.mode = .a ∧ bit s.hub.split 0 = true)) :
    s.trap cause tval =
      { ((s.setH (fun h => h.pageMet cause tval)).mcheck 11 s.h.die s.h.tid s.h.hid s.h.core s.h.pc cause).endHart s.h.hid with
        did := .trapped } := by
  obtain ⟨htid, hhid, hcore⟩ := pageMet_names s.h cause tval
  have hdie : (s.h.pageMet cause tval).die = s.h.die := congrArg dieOfCore hcore
  rw [trap_unposted tval h, State.enterTrap, if_neg (by simp [hok])]
  simp only [State.h_setH, htid, hhid, hcore, hdie]

theorem mcRing_congr {s t : State} (h : t.ringView = s.ringView) : t.mcRing = s.mcRing := congrArg Prod.fst h

/-- The record of the machine-check ring, then the end of the hart. -/
theorem mcheck_endHart {s : State} {hid : Nat} {h : Hart} (hh : s.hart hid = some h) (a b c d e : Nat) (w : Word) (f : Nat) :
    ((s.mcheck a b c d e w f).endHart hid).hart hid = none ∧
      ((s.hub.mchead + 2 ^ 32 - s.hub.mctail) % 2 ^ 32 < 4096 →
        ((s.mcheck a b c d e w f).endHart hid).mcRing = s.mcRing ++ [mcWords a b c d e w s.gtb f]) := by
  refine ⟨(hart_endHart ((hart_of_unrecorded (unrecorded_mcheck ..) _).trans hh)).1, fun hroom => ?_⟩
  exact (mcRing_congr (ringView_endHart ..)).trans (mcRing_mcheck hroom ..)

theorem hart_withDid (s : State) (d : Did) (n : Nat) : ({ s with did := d } : State).hart n = s.hart n := hart_congr rfl rfl n

theorem mcRing_withDid (s : State) (d : Did) : ({ s with did := d } : State).mcRing = s.mcRing := rfl

end Sys2Proof.Machine

namespace Sys2Proof.Claims

open Sys2Proof.Machine

/-- Settles O11: with a handler the trap is `trap_handled`; without one the record enters the ring and the hart ends. -/
theorem trapEntry : Obligations.TrapEntry := by
  unfold Obligations.TrapEntry
  refine ⟨fun s cause tval hok hpost => ?_, fun s cause tval hlive hok hpost => ?_⟩
  · rw [trap_handled hok hpost]
    refine ⟨entered_pageMet .., fun r => ?_, rfl, rfl, ?_⟩
    · exact pageMet_keeps (fun h => h.xr r.toNat) (fun _ _ _ => rfl) s.h cause tval
    · rfl
  · let s1 := s.setH (fun h => h.pageMet cause tval)
    obtain ⟨-, hhid, -⟩ := pageMet_names s.h cause tval
    have hself : s1.hart s.h.hid = some s1.h :=
      State.hart_self ((pageMet_keeps Hart.live (fun _ _ _ => rfl) s.h cause tval).trans hlive) hhid
    obtain ⟨hgone, hring⟩ := mcheck_endHart hself 11 s.h.die s.h.tid s.h.hid s.h.core s.h.pc cause
    rw [trap_unhandled hok hpost, hart_withDid, mcRing_withDid]
    exact ⟨hgone, hring⟩

end Sys2Proof.Claims
end

section
/-! PROOFS. A tenant's registers: translations discarded (R90), reverse ownership (R91, R421), and the boot hart (R291). -/

namespace Sys2Proof.Machine

open Sys2Proof.Claims

theorem onlyTenants_setTenant (s : State) (tag : Nat) (f : Tenant → Tenant) : OnlyTenants s (s.setTenant tag f) := rfl

/-- An event that writes a tenant's block, and nothing else. -/
theorem tenant_written {i : Instr} {s : State} {tag : Nat} {f : Tenant → Tenant} (h : exec i s = .next (s.setTenant tag f)) :
    ∃ t, exec i s = .next t ∧ OnlyTenants s t ∧ t.tenant tag = f (s.tenant tag) :=
  ⟨_, h, onlyTenants_setTenant .., tenant_setTenant_self ..⟩

/-! Bits of register words -/

theorem bit_eq_testBit (x i : Nat) : bit x i = x.testBit i := by
  rw [Nat.testBit_eq_decide_div_mod_eq]
  rfl

theorem bit_and (v m : Word) (i : Nat) : bit (v &&& m).toNat i = (bit v.toNat i && bit m.toNat i) := by
  simp only [bit_eq_testBit, BitVec.toNat_and, Nat.testBit_and]

theorem bit_word {i : Nat} (h : i < 64) (x : Nat) : bit (word x).toNat i = bit x i := by
  simp only [bit_eq_testBit, word, BitVec.toNat_ofNat, Nat.testBit_mod_two_pow, h, decide_true, Bool.true_and]

/-! TINV -/

theorem exec_tinvGo (s : State) (tag : Nat) (v : Word) : exec (.tinvGo tag v) s = .next (s.ifAnswers (fun t => t.tinvWrite tag v)) := rfl

theorem exec_tinvGo_ignored {s : State} {tag : Nat} (h : (s.tenant tag).tinvBusy = true ∨ s.hub.phase = 8) (v : Word) :
    exec (.tinvGo tag v) s = .next s := by
  rw [exec_tinvGo]
  by_cases h8 : s.hub.phase = 8
  · rw [ifAnswers_of_eq h8]
  · rw [ifAnswers_of_ne h8, State.tinvWrite, if_pos (h.resolve_right h8)]

/-- A write of TINV that is taken: with GO it discards the translations of its range (R90). -/
theorem tinvGo_taken {s : State} {tag : Nat} (hbusy : (s.tenant tag).tinvBusy = false) (h8 : s.hub.phase ≠ 8) (v : Word) :
    ∃ t, exec (.tinvGo tag v) s = .next t ∧ (t.tenant tag).tinvBusy = bit v.toNat 0 ∧
      t.tlb = (if bit v.toNat 0 then s.tlb.filter (fun e => !tinvHits tag (v &&& 0x00FFFFFFFFFF0303#64) e) else s.tlb) ∧
      OnlyTenants s { t with tlb := s.tlb } := by
  have hbit : bit (v &&& vfMask 0x108).toNat 0 = bit v.toNat 0 := (bit_and ..).trans (Bool.and_true _)
  refine ⟨s.tinvWrite tag v, by rw [exec_tinvGo, ifAnswers_of_ne h8], ?_⟩
  simp only [State.tinvWrite, hbusy, hbit, Bool.false_eq_true, if_false]
  generalize hs1 : s.setTenant tag _ = s1
  have hset : (s1.tenant tag).tinvBusy = bit v.toNat 0 := by rw [← hs1, tenant_setTenant_self]
  have honly : OnlyTenants s s1 := by rw [← hs1]; rfl
  have htlb : s1.tlb = s.tlb := (congrArg State.tlb honly :)
  split
  · exact ⟨hset, by rw [← htlb]; rfl, (congrArg (fun u : State => { u with tlb := s.tlb }) honly :)⟩
  · exact ⟨hset, htlb, (congrArg (fun u : State => { u with tlb := s.tlb }) honly :)⟩

/-- A receiver of the tenant waits with a destination that was translated (R358). -/
theorem keepsPlaces_iff (tag : Nat) (o : Obj) :
    o.keepsPlaces tag = true ↔ ∃ b, ∃ r ∈ b.receivers, o.body = .chan b ∧ o.tag = tag ∧ ∃ pl ∈ r.dst, isMain pl.loc = true := by
  unfold Obj.keepsPlaces
  cases o.body with
  | swarm b => simp
  | latch b => simp
  | chan b =>
    simp only [Bool.and_eq_true, beq_iff_eq, List.any_eq_true, ObjKind.chan.injEq]
    constructor
    · exact fun ⟨htag, r, hr, hpl⟩ => ⟨b, r, hr, rfl, htag, hpl⟩
    · rintro ⟨_, r, hr, rfl, htag, hpl⟩
      exact ⟨htag, r, hr, hpl⟩

/-- What holds back the end of an invalidation: a command of the tenant, or a RECV of it that waits with a translated destination (R90). -/
theorem tinvOpen_iff (s : State) (tag : Nat) :
    s.tinvOpen tag = true ↔
      (∃ e ∈ s.engines, ∃ c ∈ e.2.queue ++ e.2.pend, c.tid = tag) ∨ ∃ e ∈ s.objs, ∃ o, e.2 = some o ∧ o.keepsPlaces tag = true := by
  simp only [State.tinvOpen, Bool.or_eq_true, List.any_eq_true, beq_iff_eq, Option.any_eq_true_iff_get]
  refine or_congr Iff.rfl (exists_congr fun e => and_congr_right fun _ => ?_)
  cases e.2 <;> simp

theorem exec_tinvComplete (s : State) (tag : Nat) :
    exec (.tinvComplete tag) s = .next (if s.tinvOpen tag then s else s.setTenant tag (fun t => { t with tinvBusy := false })) := rfl

theorem exec_tinvComplete_open {s : State} {tag : Nat} (h : s.tinvOpen tag = true) : exec (.tinvComplete tag) s = .next s := by
  rw [exec_tinvComplete, if_pos h]

/-- An invalidation ends once every access under the translations of before has been performed (R90). -/
theorem exec_tinvComplete_closed {s : State} {tag : Nat} (h : s.tinvOpen tag = false) :
    exec (.tinvComplete tag) s = .next (s.setTenant tag (fun t => { t with tinvBusy := false })) := by
  rw [exec_tinvComplete, if_neg (by simp [h])]

/-! ROREQ -/

theorem exec_roreqGo (s : State) (tag : Nat) (v : Word) : exec (.roreqGo tag v) s = .next (s.ifAnswers (fun t => t.roreqWrite tag v)) := rfl

theorem exec_roreqGo_ignored {s : State} {tag : Nat} (h : bits (s.tenant tag).rostat.toNat 0 2 = 1 ∨ s.hub.phase = 8) (v : Word) :
    exec (.roreqGo tag v) s = .next s := by
  rw [exec_roreqGo]
  by_cases h8 : s.hub.phase = 8
  · rw [ifAnswers_of_eq h8]
  · rw [ifAnswers_of_ne h8, State.roreqWrite, if_pos (h.resolve_right h8)]

theorem exec_roreqGo_taken {s : State} {tag : Nat} {v : Word} (hidle : bits (s.tenant tag).rostat.toNat 0 2 ≠ 1) (h8 : s.hub.phase ≠ 8)
    (hgo : bit v.toNat 63 = true) :
    exec (.roreqGo tag v) s =
      .next (s.setTenant tag (fun t => { t with roreq := v &&& 0xE3FFFF0FFFFFFFFF#64, rostat := 1,
                                                roBad := decide (bits v.toNat 58 3 ≠ 0 ∨ bits v.toNat 36 4 ≠ 0) })) := by
  rw [exec_roreqGo, ifAnswers_of_ne h8, State.roreqWrite, if_neg hidle]
  simp only [hgo, if_true, Bool.decide_or]
  rfl

theorem robValid_cleared (e : Word) : robValid (clearedEntry e).toNat = false := (bit_word (by decide) _).trans (bit_setBit_self ..)

/-- The entry that a request gives its page (R421). -/
def roreqEntry (s : State) (tag x : Nat) : Word :=
  match bits x 61 2 with
  | 0 => robEntry 0 tag (bits x 56 2) (bits x 40 16)
  | 1 => robEntry 1 tag 0 0
  | _ => clearedEntry (Tab.get 0 s.rob (bits x 0 36))

section Complete

variable {s : State} {tag : Nat} (h1 : bits (s.tenant tag).rostat.toNat 0 2 = 1)

include h1

theorem exec_roreqComplete_granted (h : s.roreqReason tag (s.tenant tag).roreq.toNat = 0) :
    exec (.roreqComplete tag) s =
      .next (({ s with rob := Tab.set 0 s.rob (bits (s.tenant tag).roreq.toNat 0 36) (roreqEntry s tag (s.tenant tag).roreq.toNat) } : State).setTenant
        tag (fun t => { t with rostat := 2 })) := by
  show execRoreqComplete tag s = _
  simp only [execRoreqComplete, h1, ne_eq, not_true_eq_false, if_false, h]
  rfl

theorem exec_roreqComplete_refused (h : s.roreqReason tag (s.tenant tag).roreq.toNat ≠ 0) :
    exec (.roreqComplete tag) s =
      .next (s.setTenant tag (fun t => { t with rostat := word (s.roreqReason tag (s.tenant tag).roreq.toNat * 2 ^ 8 + 3) })) := by
  show execRoreqComplete tag s = _
  simp only [execRoreqComplete, h1, ne_eq, not_true_eq_false, if_false]

/-- A request takes effect on the entry of its page, or is refused with its reason (R421). -/
theorem roreqComplete_effect :
    let x := (s.tenant tag).roreq.toNat
    let pn := bits x 0 36
    ∃ t, exec (.roreqComplete tag) s = .next t ∧ OnlyTenants s { t with rob := s.rob } ∧
      (∀ p, p ≠ pn → Tab.get 0 t.rob p = Tab.get 0 s.rob p) ∧
      (s.roreqReason tag x ≠ 0 →
        t.rob = s.rob ∧ t.tenant tag = { s.tenant tag with rostat := word (s.roreqReason tag x * 2 ^ 8 + 3) }) ∧
      (s.roreqReason tag x = 0 → t.tenant tag = { s.tenant tag with rostat := 2 } ∧ Tab.get 0 t.rob pn = roreqEntry s tag x) := by
  intro x pn
  by_cases h : s.roreqReason tag x = 0
  · refine ⟨_, exec_roreqComplete_granted h1 h, rfl, fun p hp => Tab.get_set_other _ _ _ _ _ hp, absurd h, fun _ => ⟨?_, Tab.get_set_self ..⟩⟩
    exact tenant_setTenant_self { s with rob := Tab.set 0 s.rob pn (roreqEntry s tag x) } tag _
  · exact ⟨_, exec_roreqComplete_refused h1 h, rfl, fun _ _ => rfl, fun _ => ⟨rfl, tenant_setTenant_self s tag _⟩, (absurd · h)⟩

end Complete

theorem roreqEntry_exclusive {x : Nat} (h : bits x 61 2 = 0) (s : State) (tag : Nat) :
    roreqEntry s tag x = robEntry 0 tag (bits x 56 2) (bits x 40 16) := by
  simp only [roreqEntry, h]

theorem roreqEntry_shared {x : Nat} (h : bits x 61 2 = 1) (s : State) (tag : Nat) : roreqEntry s tag x = robEntry 1 tag 0 0 := by
  simp only [roreqEntry, h]

theorem roreqEntry_none {x : Nat} (h : bits x 61 2 = 2) (s : State) (tag : Nat) : robValid (roreqEntry s tag x).toNat = false := by
  simp only [roreqEntry, h, robValid_cleared]

end Sys2Proof.Machine
end

section
/-! PROOFS. The boot hart (R291). -/

namespace Sys2Proof.Machine

open Sys2Proof.Claims

/-! TENBOOT written -/

theorem exec_tenbootGo (s : State) (tag : Nat) (v : Word) : exec (.tenbootGo tag v) s = .next (s.ifAnswers (fun t => t.tenbootWrite tag v)) := rfl

/-- A write without GO sets the record's address alone. -/
theorem exec_tenbootGo_address {s : State} {v : Word} (hgo : bit v.toNat 63 = false) (h8 : s.hub.phase ≠ 8) (tag : Nat) :
    exec (.tenbootGo tag v) s = .next (s.setTenant tag (fun t => { t with bootRec := word (bits v.toNat 0 56) })) := by
  rw [exec_tenbootGo, ifAnswers_of_ne h8, State.tenbootWrite, if_pos (by simp [hgo])]

theorem exec_tenbootGo_taken {s : State} {tag : Nat} {v : Word} (hidle : (s.tenant tag).bootBusy = false)
    (hst : if tag = 0 then 6 ≤ s.hub.phase else (s.tenant tag).st = 1) (h8 : s.hub.phase ≠ 8) (hgo : bit v.toNat 63 = true) :
    exec (.tenbootGo tag v) s =
      .next (s.setTenant tag (fun t => { t with bootRec := word (bits v.toNat 0 56), bootBusy := true, bootRes := 0 })) := by
  have hok : (!(s.tenant tag).bootBusy && (if tag = 0 then decide (6 ≤ s.hub.phase) else (s.tenant tag).st == 1)) = true := by
    rw [hidle]
    split at hst <;> next h0 => simp [h0, hst]
  rw [exec_tenbootGo, ifAnswers_of_ne h8, State.tenbootWrite, if_neg (by simp [hgo]), if_pos hok]

theorem exec_tenbootGo_ignored {s : State} {tag : Nat} {v : Word} (h : (s.tenant tag).bootBusy = true ∨ s.hub.phase = 8)
    (hgo : bit v.toNat 63 = true) : exec (.tenbootGo tag v) s = .next s := by
  rw [exec_tenbootGo]
  by_cases h8 : s.hub.phase = 8
  · rw [ifAnswers_of_eq h8]
  · rw [ifAnswers_of_ne h8, State.tenbootWrite, if_neg (by simp [hgo]), if_neg (by simp [h.resolve_right h8])]

/-! The hart that a boot makes -/

/-- The boot hart of an image, as its pool holds it while its enrolment is awaited or once it is enrolled. -/
theorem bootHart_bootHart (s : State) (tag hid core : Nat) (i : Image) (time : Nat) (created : Bool) :
    BootHart s tag hid core i { bootHart hid tag core (s.tenant tag).bootMaxw.toNat i time with created := created } := by
  refine ⟨rfl, rfl, rfl, rfl, rfl, rfl, rfl, ?_, rfl⟩
  exact BitVec.ofNat_toNat ..

theorem pool_addHart (s : State) (k : Hart) (i : Image) : (s.addHart k i).pool = s.pool ++ [k] := by
  unfold State.addHart
  dsimp only
  split
  · rfl
  · split
    · unfold State.enrol
      split <;> rfl
    · rfl

theorem pool_createHart (s : State) (k : Hart) (i : Image) (o : Obj) (b : Swarm) (limit : Nat) :
    (s.createHart k i o b limit).pool = s.pool ++ [{ k with created := true }] := by
  have hpool : (s.askHome o b 6 k.hid i.rank limit).pool = s.pool := by
    unfold State.askHome State.sendFrame
    dsimp only
    split <;> rfl
  exact congrArg (· ++ [{ k with created := true }]) hpool

/-! The answer of a boot -/

section Boot

variable {s : State} {tag hid core : Nat} {i : Image}

theorem boot_guard (hcores : s.coresFor tag 4 ≠ []) (hst : tag ≠ 0 → (s.tenant tag).st = 1) :
    ((s.coresFor tag 4).isEmpty || (decide (tag ≠ 0) && decide ((s.tenant tag).st ≠ 1))) = false := by
  rw [Bool.or_eq_false_iff]
  refine ⟨by simpa using hcores, ?_⟩
  by_cases h0 : tag = 0
  · simp [h0]
  · simp [hst h0]

/-- A state in which the enrolment of a boot hart is awaited. -/
def State.awaitingChild (s : State) (tag hid : Nat) (i : Image) : State :=
  s.setTenant tag (fun t => { t with bootChild := some (hid, bits i.swarm 0 28) })

variable (hcores : s.coresFor tag 4 ≠ []) (hst : tag ≠ 0 → (s.tenant tag).st = 1) (hadm : s.admitImage tag i = .ok (hid, core))

include hcores hst hadm

theorem boot_proxy {o : Obj} {b : Swarm} (hproxy : s.proxySwarm i = some (o, b)) :
    s.boot tag i =
      (s.createHart (bootHart hid tag core (s.tenant tag).bootMaxw.toNat i s.gtb) i o b (s.gtb + bootLimit)).awaitingChild tag hid i := by
  simp only [State.boot, boot_guard hcores hst, hadm, hproxy, Bool.false_eq_true, if_false]
  rfl

theorem boot_late {d : Nat} (hproxy : s.proxySwarm i = none) (hslow : s.slowest i.homes = some d) :
    s.boot tag i =
      (s.addHart { bootHart hid tag core (s.tenant tag).bootMaxw.toNat i s.gtb with created := true } i).awaitingChild tag hid i := by
  simp only [State.boot, boot_guard hcores hst, hadm, hproxy, hslow, Bool.false_eq_true, if_false]
  rfl

theorem boot_prompt (hproxy : s.proxySwarm i = none) (hslow : s.slowest i.homes = none) :
    s.boot tag i = (s.addHart (bootHart hid tag core (s.tenant tag).bootMaxw.toNat i s.gtb) i).bootDone tag 1 := by
  simp only [State.boot, boot_guard hcores hst, hadm, hproxy, hslow, Bool.false_eq_true, if_false]

/-- The image's swarm needs no answer: the boot is done (R291). -/
theorem boot_done (hproxy : s.proxySwarm i = none) (hslow : s.slowest i.homes = none) :
    ((s.boot tag i).tenant tag).bootBusy = false ∧ ((s.boot tag i).tenant tag).bootRes = 1 ∧
      ∃ k ∈ (s.boot tag i).pool, BootHart s tag hid core i k ∧ k.created = false := by
  rw [boot_prompt hcores hst hadm hproxy hslow, State.bootDone, tenant_setTenant_self]
  refine ⟨rfl, rfl, _, ?_, bootHart_bootHart s tag hid core i s.gtb false, rfl⟩
  rw [State.pool_setTenant, pool_addHart]
  exact List.mem_append_right _ (List.mem_singleton.mpr rfl)

/-- The image's enrolment waits for a home bank: the hart stays in CREATED (R311; log entry 63). -/
theorem boot_waits (hwait : s.proxySwarm i ≠ none ∨ s.slowest i.homes ≠ none) :
    ((s.boot tag i).tenant tag).bootChild = some (hid, bits i.swarm 0 28) ∧
      ∃ k ∈ (s.boot tag i).pool, BootHart s tag hid core i k ∧ k.created = true := by
  obtain ⟨u, hboot, hpool⟩ : ∃ u : State, s.boot tag i = u.awaitingChild tag hid i ∧
      u.pool = s.pool ++ [{ bootHart hid tag core (s.tenant tag).bootMaxw.toNat i s.gtb with created := true }] := by
    cases hproxy : s.proxySwarm i with
    | some p => exact ⟨_, boot_proxy hcores hst hadm hproxy, pool_createHart ..⟩
    | none =>
      obtain ⟨d, hslow⟩ := Option.ne_none_iff_exists'.mp (hwait.resolve_left (absurd hproxy))
      exact ⟨_, boot_late hcores hst hadm hproxy hslow, pool_addHart ..⟩
  rw [hboot, State.awaitingChild, tenant_setTenant_self]
  refine ⟨rfl, _, ?_, bootHart_bootHart s tag hid core i s.gtb true, rfl⟩
  rw [State.pool_setTenant, hpool]
  exact List.mem_append_right _ (List.mem_singleton.mpr rfl)

end Boot

theorem exec_tenbootComplete_idle {s : State} {tag : Nat} (h : (s.tenant tag).bootBusy = false) : exec (.tenbootComplete tag) s = .next s := by
  show execTenbootComplete tag s = _
  rw [execTenbootComplete, if_pos (by simp [h])]

/-- The record of a boot is read through the tenant's tables. -/
theorem exec_tenbootComplete_read {s s1 s2 : State} {tag : Nat} {pls : List Place} {bs : List Byte} (hbusy : (s.tenant tag).bootBusy = true)
    (hchild : (s.tenant tag).bootChild = none) (hacc : s.accessRun (hostActor tag) .load (s.tenant tag).bootRec 2 = (s1, .ok pls))
    (hread : s1.readPieces (hostActor tag) pls = (s2, bs, false)) : exec (.tenbootComplete tag) s = .next (s2.boot tag (imageOf bs)) := by
  show execTenbootComplete tag s = _
  simp only [execTenbootComplete, hbusy, hchild, hacc, hread, Bool.not_true, Option.isSome_none, Bool.false_eq_true, if_false]

end Sys2Proof.Machine
end

section
/-! PROOFS. What the end of a lease leaves of the other engines, and what a release leaves of the harts of other tenants. -/

namespace Sys2Proof.Machine

/-! One engine at a time -/

/-- Every engine but one is as it was. -/
structure OtherEngines (e : Nat) (s t : State) : Prop where
  same : ∀ e2, e2 ≠ e → t.engine e2 = s.engine e2

namespace OtherEngines

variable {e : Nat} {s t u : State}

theorem trans (h : OtherEngines e s t) (h2 : OtherEngines e t u) : OtherEngines e s u := ⟨fun e2 he => (h2.same e2 he).trans (h.same e2 he)⟩

theorem of_engines (h : t.engines = s.engines) : OtherEngines e s t := ⟨fun e2 _ => engine_congr h e2⟩

theorem foldl {β : Type} {f : State → β → State} (h : ∀ s b, OtherEngines e s (f s b)) (l : List β) (s : State) :
    OtherEngines e s (l.foldl f s) := by
  induction l generalizing s with
  | nil => exact of_engines rfl
  | cons b l ih => exact (h s b).trans (ih _)

end OtherEngines

section

variable (s : State) (e : Nat)

theorem otherEngines_setEngine (f : Engine → Engine) : OtherEngines e s (s.setEngine e f) := ⟨fun _ he => engine_setEngine_other s f he⟩

theorem otherEngines_answerIf (hid : Nat) (p : WaitKind → Bool) (v : Word) : OtherEngines e s (s.answerIf hid p v) :=
  .of_engines (engines_answerIf ..)

theorem otherEngines_enqueue (c : Cmd) : OtherEngines e s (s.enqueue e c) :=
  (OtherEngines.of_engines (engines_startTile ..)).trans (otherEngines_setEngine _ e _)

theorem otherEngines_updHart (hid : Nat) (f : Hart → Hart) : OtherEngines e s (s.updHart hid f) := .of_engines rfl

theorem otherEngines_issueLate (c : Cmd) : OtherEngines e s (s.issueLate e c) := by
  have h : OtherEngines e s (s.withLines c c.rcd).1 := .of_engines (engines_withLines s c c.rcd)
  unfold State.issueLate
  generalize s.withLines c c.rcd = p at h
  obtain ⟨s1, c1⟩ := p
  refine h.trans ?_
  dsimp only
  split
  · exact otherEngines_updHart ..
  · exact (otherEngines_enqueue ..).trans (otherEngines_updHart ..)
  · exact (otherEngines_enqueue ..).trans (otherEngines_answerIf ..)
  · exact otherEngines_answerIf ..

theorem otherEngines_fillSlots (n : Nat) : ∀ s : State, OtherEngines e s (s.fillSlots e n) := by
  induction n with
  | zero => exact fun _ => .of_engines rfl
  | succ n ih =>
    intro s
    unfold State.fillSlots
    split
    · exact .of_engines rfl
    · next c rest _ =>
      split
      · exact .of_engines rfl
      · have htake : OtherEngines e s (s.setEngine e fun g => { g with pend := rest }) := otherEngines_setEngine ..
        refine (htake.trans ?_).trans (ih _)
        split
        · exact otherEngines_issueLate ..
        · exact .of_engines rfl

theorem otherEngines_finishCmd (c : Cmd) (w : Word) : OtherEngines e s (s.finishCmd e c w) := by
  refine (otherEngines_setEngine s e _).trans (.foldl (fun t h => ?_) _ _)
  split
  · exact otherEngines_answerIf ..
  · exact .of_engines rfl

theorem otherEngines_discardCmd (c : Cmd) : OtherEngines e s (s.discardCmd e c) :=
  ((OtherEngines.of_engines (engines_writeRecord ..)).trans (otherEngines_finishCmd ..)).trans (.of_engines (engines_endTile ..))

end

theorem otherEngines_finish (r : Work) (c : Cmd) (e out lowabs nabs st : Nat) : OtherEngines e r.st (r.finish e c out lowabs nabs st) := by
  have hrec : OtherEngines e r.st ((r.st.count c.tid 8 r.lines).writeRecord c r.fault out) :=
    .of_engines ((engines_writeRecord ..).trans (still_count r.st c.tid 8 r.lines).engines)
  exact ((hrec.trans (otherEngines_finishCmd ..)).trans (.of_engines (engines_endTile ..))).trans (otherEngines_fillSlots ..)

theorem otherEngines_stopRunning (s : State) (e : Nat) (c : Cmd) : OtherEngines e s (s.stopRunning e c) :=
  (OtherEngines.of_engines (engines_stopWork c s)).trans (otherEngines_finish { s.stopWork c with fault := none } c e _ _ _ _)

/-- The end of a lease leaves every other engine as it stands. -/
theorem otherEngines_endLease (s : State) (e : Nat) : OtherEngines e s (s.endLease e) := by
  unfold State.endLease
  dsimp only
  split
  · exact .of_engines rfl
  · refine (OtherEngines.trans ?_ (.foldl (fun t c => otherEngines_answerIf t e ..) _ _)).trans (.foldl (fun t c => ?_) _ _)
    · exact ⟨fun e2 he => engine_setEngine_other { s with colls := s.colls.map (withdraw e) } _ he⟩
    · split
      · exact otherEngines_stopRunning ..
      · exact otherEngines_discardCmd ..

theorem endLease_unleased (s : State) (e : Nat) : ((s.endLease e).engine e).leased = false := by
  by_cases h : (s.engine e).leased = true
  · exact endLease_frees h
  · rw [State.endLease, if_pos (by simpa using h)]
    simpa using h

/-- Once the leases of a list have ended, the engines still leased are others, as they were. -/
theorem leased_endLeases {l : List Nat} {e : Nat} : ∀ {s : State}, ((l.foldl State.endLease s).engine e).leased = true →
    e ∉ l ∧ (l.foldl State.endLease s).engine e = s.engine e := by
  induction l with
  | nil => exact fun _ => ⟨List.not_mem_nil, rfl⟩
  | cons e0 l ih =>
    intro s h
    obtain ⟨hnot, hsame⟩ := ih h
    have hne : e ≠ e0 := by
      rintro rfl
      rw [List.foldl_cons, hsame, endLease_unleased] at h
      exact Bool.false_ne_true h
    exact ⟨List.not_mem_cons_of_ne_of_not_mem hne hnot, hsame.trans ((otherEngines_endLease s e0).same e hne)⟩

/-- A read of a table gives its default, or an entry. -/
theorem Tab.get_eq_or_mem {α : Type} (d : α) (t : Tab α) (k : Nat) : Tab.get d t k = d ∨ (k, Tab.get d t k) ∈ t := by
  unfold Tab.get
  induction t with
  | nil => exact .inl rfl
  | cons e t ih =>
    unfold Tab.find
    split
    · next hk => exact .inr (hk ▸ List.mem_cons_self)
    · exact ih.imp id (List.mem_cons_of_mem _)

theorem mem_leasesOf {s : State} {e tag : Nat} (hl : (s.engine e).leased = true) (ht : (s.engine e).tid = tag) : e ∈ s.leasesOf tag := by
  rcases Tab.get_eq_or_mem Engine.reset s.engines e with h | h
  · rw [State.engine, h] at hl
    exact absurd hl (by decide)
  · exact List.mem_map.mpr ⟨(e, s.engine e), List.mem_filter.mpr ⟨h, by simp [hl, ht]⟩, rfl⟩

/-! The tenants of the harts -/

/-- Whether the hart in hand lives, and the tenants that harts belong to. -/
def State.tids (s : State) : Bool × Nat × List Nat := (s.h.live, s.h.tid, s.pool.map Hart.tid)

/-- A change of harts that leaves lives and tenants alone. -/
def KeepsTid (f : Hart → Hart) : Prop := ∀ k, (f k).live = k.live ∧ (f k).tid = k.tid

theorem tids_of_map {s t : State} {f : Hart → Hart} (hf : KeepsTid f) (hh : t.h = f s.h) (hp : t.pool = s.pool.map f) : t.tids = s.tids := by
  have hmap : (s.pool.map f).map Hart.tid = s.pool.map Hart.tid := by
    rw [List.map_map]
    exact List.map_congr_left fun k _ => (hf k).2
  simp only [State.tids, hh, hp, hmap, hf s.h]

theorem tids_congr {s t : State} (hh : t.h = s.h) (hp : t.pool = s.pool) : t.tids = s.tids := by
  rw [State.tids, hh, hp, State.tids]

theorem keepsTid_onHid (hid : Nat) {f : Hart → Hart} (hf : KeepsTid f) : KeepsTid (onHid hid f) := fun k => by
  unfold onHid
  split
  · exact hf k
  · exact ⟨rfl, rfl⟩

/-- Each hart stands for one of the same tenant before. -/
theorem exists_hart_of_tids {s t : State} (h : t.tids = s.tids) {k : Hart} (hk : k ∈ t.harts) : ∃ j ∈ s.harts, j.tid = k.tid := by
  have hmap : t.harts.map Hart.tid = s.harts.map Hart.tid := by
    simp only [State.tids, Prod.mk.injEq] at h
    obtain ⟨hlive, htid, hpool⟩ := h
    unfold State.harts
    rw [hlive]
    split
    · rw [List.map_cons, List.map_cons, htid, hpool]
    · exact hpool
  exact List.mem_map.mp (hmap ▸ List.mem_map_of_mem hk)

section

variable (s : State)

theorem tids_updHart (hid : Nat) {f : Hart → Hart} (hf : KeepsTid f) : (s.updHart hid f).tids = s.tids := tids_of_map (keepsTid_onHid hid hf) rfl rfl

theorem keepsTid_takes (flags : Nat) (x : Option Holding) : KeepsTid (fun h => h.takes flags x) := fun k => by
  unfold Hart.takes Hart.keep
  by_cases hf : flags = 0
  · cases x <;> simp only [hf, if_true, and_self]
  · cases x <;> simp only [hf, if_false, and_self]

theorem keepsTid_answer (time : Nat) (v : Word) : KeepsTid (fun h => h.answer time v) := fun k => by
  refine ⟨(answer_hid_live k time v).2, ?_⟩
  show (k.answer time v).tid = k.tid
  unfold Hart.answer
  split
  · rfl
  · split
    · exact (congrArg Hart.tid (setX_only k _ v) :)
    · rfl

theorem tids_traceHart (k : Hart) (a b : Nat) (p v : Word) : (s.traceHart k a b p v).tids = s.tids :=
  tids_congr (State.h_traceHart ..) (State.pool_traceHart ..)

theorem tids_count (t i n : Nat) : (s.count t i n).tids = s.tids := tids_congr (State.h_count ..) (State.pool_count ..)

theorem tids_answer (hid : Nat) (v : Word) : (s.answer hid v).tids = s.tids := by
  unfold State.answer
  split
  · rfl
  · next h _ =>
    split
    · have hupd := (tids_updHart (s.traceHart h 5 0 h.pc v) hid (keepsTid_answer s.gtb v)).trans (tids_traceHart ..)
      dsimp only
      split
      · exact (tids_count ..).trans hupd
      · exact hupd
    · rfl

theorem tids_respond (hid : Nat) (w : Wait) (v : Word) (f : Nat) (x : Option Holding) : (s.respond hid w v f x).tids = s.tids := by
  have htakes := (tids_answer (s.updHart hid (fun h => h.takes f x)) hid v).trans (tids_updHart s hid (keepsTid_takes f x))
  unfold State.respond
  split
  · exact htakes
  · split
    · exact htakes
    · split <;> rfl

theorem tids_answerIf (hid : Nat) (p : WaitKind → Bool) (v : Word) : (s.answerIf hid p v).tids = s.tids := by
  unfold State.answerIf
  split
  · split
    · exact tids_respond ..
    · rfl
  · rfl

theorem tids_answerTick (hid tick : Nat) (p : WaitKind → Bool) (v : Word) (f : Nat) : (s.answerTick hid tick p v f).tids = s.tids := by
  unfold State.answerTick
  split
  · split
    · exact tids_respond ..
    · rfl
  · rfl

theorem tids_sendFrame (kind dst tag target : Nat) (l : List Byte) : (s.sendFrame kind dst tag target l).tids = s.tids := by
  unfold State.sendFrame
  dsimp only
  split <;> rfl

theorem tids_fabricResult (o : Obj) (far tick : Nat) (v : Word) (f : Nat) : (s.fabricResult o far tick v f).tids = s.tids := by
  unfold State.fabricResult State.fabricReply
  split
  · exact tids_sendFrame ..
  · rfl

theorem tids_sendStep (off : Nat) (o : Obj) (f : Nat) (e : StepRes) : (s.sendStep off o f e).tids = s.tids := by
  unfold State.sendStep
  split
  · exact tids_fabricResult ..
  · exact tids_answerTick ..

theorem tids_sendSteps (off : Nat) : (s.sendSteps off).tids = s.tids := by
  unfold State.sendSteps
  split
  · rfl
  · split
    · rfl
    · next o b _ =>
      dsimp only
      exact foldl_keeps State.tids _ (fun t e => tids_sendStep t off o _ e) _ _

theorem tids_sendResult (off hid : Nat) (v : Word) : (s.sendResult off hid v).tids = s.tids := by
  unfold State.sendResult
  split
  · split
    · exact tids_sendFrame ..
    · rfl
  · split
    · rfl
    · exact tids_answerIf ..

theorem tids_closeWaits (off : Nat) (o : Obj) : (s.closeWaits off o).tids = s.tids := by
  unfold State.closeWaits
  split
  · exact (foldl_keeps State.tids _ (fun t (h : Hart) => tids_answerIf t h.hid _ _) _ _).trans
      (foldl_keeps State.tids _ (fun t (x : Nat × Nat) => tids_fabricResult t o x.1 x.2 _ _) _ _)
  · exact foldl_keeps State.tids _ (fun t (q : Nat × Nat) => tids_answerIf t q.1 _ _) _ _
  · exact (foldl_keeps State.tids _ (fun t r => tids_answerIf t _ _ _) _ _).trans
      (foldl_keeps State.tids _ (fun t r => tids_sendResult t off _ _) _ _)

/-- An object that ends takes no hart with it. -/
theorem tids_endObject (off : Nat) (o : Obj) : (s.endObject off o).tids = s.tids :=
  (tids_of_map (s := s.closeWaits off o) (t := s.endObject off o) (f := endHolding off) (fun _ => ⟨rfl, rfl⟩) rfl rfl).trans (tids_closeWaits ..)

theorem tids_refreshObj (r : Region) : (s.refreshObj r).tids = s.tids := by
  unfold State.refreshObj
  split
  · split <;> rfl
  · rfl

theorem tids_freeRegionAt (n : Nat) (r : Region) : (s.freeRegionAt n r).tids = s.tids := by
  unfold State.freeRegionAt
  extract_lets s1 s2
  have h2 : s2.tids = s.tids := tids_refreshObj (s1.setRegion n none) r
  split
  · split
    · exact (tids_sendSteps ..).trans h2
    · exact h2
  · exact h2

theorem tids_releaseRegion (e : Nat × Option Region) : (s.releaseRegion e).tids = s.tids := by
  unfold State.releaseRegion
  split
  · exact tids_freeRegionAt ..
  · rfl

theorem tids_releaseCore (tag core : Nat) : (s.releaseCore tag core).tids = s.tids :=
  foldl_keeps State.tids _ (fun t n => (rfl : (t.zeroTile core n).tids = t.tids)) _ s

theorem keepsTid_countSave (owners : List Nat) : KeepsTid (countSave owners) := fun k => by
  unfold countSave
  split <;> exact ⟨rfl, rfl⟩

theorem tids_saveLanes (core : Nat) (p : Nat × Nat → Bool) : (s.saveLanes core p).tids = s.tids :=
  tids_of_map (keepsTid_countSave (((s.core core).lane.filter p).map (fun e => e.2))) rfl rfl

theorem tids_releasePmap (tag core : Nat) : (s.releasePmap tag core).tids = s.tids := tids_saveLanes ..

end

end Sys2Proof.Machine
end

section
/-! PROOFS. The states of a tenant (R410, R419, R420, R423), its partitions (R413) and a weight slot freed (R265). -/

namespace Sys2Proof.Machine

open Sys2Proof.Claims

/-! TENCFG written -/

theorem bits_withState (v : Word) {n : Nat} (hn : n < 4) : bits (withState v n).toNat 62 2 = n := by
  have hv : v.toNat < 2 ^ 64 := v.isLt
  simp only [withState, word, setBits, bits, BitVec.toNat_ofNat]
  omega

theorem setQuotas_eq (s : State) (tag x : Nat) : s.setQuotas tag x = s.setTenant tag (quotasOf x) := rfl

/-- An event that writes a tenant's block twice, and nothing else. -/
theorem tenant_written_twice {i : Instr} {s : State} {tag : Nat} {f g : Tenant → Tenant}
    (h : exec i s = .next ((s.setTenant tag f).setTenant tag g)) :
    ∃ t, exec i s = .next t ∧ OnlyTenants s t ∧ t.tenant tag = g (f (s.tenant tag)) :=
  ⟨_, h, rfl, by rw [tenant_setTenant_self, tenant_setTenant_self]⟩

/-- A tenant's block as it becomes ACTIVE (R77, R419). -/
def Tenant.activated (t : Tenant) : Tenant := { t with st := 1, key := true, keyGen := t.keyGen + 1 }

theorem activated_quotasOf (x : Nat) (t : Tenant) :
    (quotasOf x t).activated = { quotasOf x t with st := 1, key := true, keyGen := t.keyGen + 1 } := rfl

section Config

variable {s : State} {tag : Nat} {v : Word} (h0 : tag ≠ 0) (h8 : s.hub.phase ≠ 8)

include h0 h8

/-- While a release goes on, a write of the same STATE sets the quotas alone. -/
theorem exec_tenantFreeze_releasing (hok : tencfgOk (withState v 3).toNat = true) (hrel : (s.tenant tag).releasing = true)
    (hst : (s.tenant tag).st = 3) : exec (.tenantFreeze tag v) s = .next (s.setTenant tag (quotasOf (withState v 3).toNat)) := by
  have hexec : exec (.tenantFreeze tag v) s = .next (s.ifAnswers (fun t => t.tencfgWrite tag (withState v 3))) := rfl
  rw [hexec, ifAnswers_of_ne h8, ← setQuotas_eq]
  simp [State.tencfgWrite, h0, hok, hrel, hst, bits_withState]

variable (hrel : (s.tenant tag).releasing = false)

include hrel

theorem exec_tenantActivate_free (hok : tencfgOk (withState v 1).toNat = true) (hst : (s.tenant tag).st = 0) (h7 : s.hub.phase = 7) :
    exec (.tenantActivate tag v) s =
      .next ((s.setTenant tag (quotasOf (withState v 1).toNat)).setTenant tag (fun t => t.activated)) := by
  have hexec : exec (.tenantActivate tag v) s = .next (s.ifAnswers (fun t => t.tencfgWrite tag (withState v 1))) := rfl
  rw [hexec, ifAnswers_of_ne h8, ← setQuotas_eq]
  simp [State.tencfgWrite, h0, hok, hrel, hst, h7, bits_withState, Tenant.activated]

theorem exec_tenantThaw_frozen (hok : tencfgOk (withState v 1).toNat = true) (hst : (s.tenant tag).st = 3) :
    exec (.tenantThaw tag v) s =
      .next ((s.setTenant tag (quotasOf (withState v 1).toNat)).setTenant tag (fun t => { t with st := 1 })) := by
  have hexec : exec (.tenantThaw tag v) s =
      .next (if s.answers && (s.tenant tag).st = 3 then s.tencfgWrite tag (withState v 1) else s) := rfl
  rw [hexec, if_pos (by simp [State.answers, h8, hst]), ← setQuotas_eq]
  simp [State.tencfgWrite, h0, hok, hrel, hst, bits_withState]

theorem exec_tenantFreeze_active (hok : tencfgOk (withState v 3).toNat = true) (hst : (s.tenant tag).st = 1) :
    exec (.tenantFreeze tag v) s = .next ((s.setQuotas tag (withState v 3).toNat).freeze tag) := by
  have hexec : exec (.tenantFreeze tag v) s = .next (s.ifAnswers (fun t => t.tencfgWrite tag (withState v 3))) := rfl
  rw [hexec, ifAnswers_of_ne h8]
  simp [State.tencfgWrite, h0, hok, hrel, hst, bits_withState]

theorem exec_tenantRelease_frozen (hok : tencfgOk (withState v 0).toNat = true) (hst : (s.tenant tag).st = 3) :
    exec (.tenantRelease tag v) s = .next ((s.setQuotas tag (withState v 0).toNat).release tag) := by
  have hexec : exec (.tenantRelease tag v) s = .next (s.ifAnswers (fun t => t.tencfgWrite tag (withState v 0))) := rfl
  rw [hexec, ifAnswers_of_ne h8]
  simp [State.tencfgWrite, h0, hok, hrel, hst, bits_withState]

end Config

/-! Freezing (R420) -/

/-- A freeze ends every lease of the tenant. -/
theorem freeze_effect (s : State) (tag : Nat) :
    ((s.freeze tag).tenant tag).st = 2 ∧ ∀ e, ((s.freeze tag).engine e).leased = true → ((s.freeze tag).engine e).tid ≠ tag := by
  unfold State.freeze
  extract_lets hs s1 s2
  refine ⟨congrArg Tenant.st (tenant_setTenant_self ..), fun e hl ht => ?_⟩
  let s3 := (s2.leasesOf tag).foldl State.endLease s2
  have hl3 : (s3.engine e).leased = true := hl
  have ht3 : (s3.engine e).tid = tag := ht
  obtain ⟨hnot, hsame⟩ := leased_endLeases hl3
  rw [hsame] at hl3 ht3
  exact hnot (mem_leasesOf hl3 ht3)

theorem allUnbound_iff (s : State) (tag : Nat) :
    s.allUnbound tag = true ↔ ∀ k ∈ s.harts, k.tid = tag → k.slot = none ∧ k.leaving = none := by
  simp [State.allUnbound, State.tenantHarts, imp_iff_not_or]

theorem exec_tenantFrozen (s : State) (tag : Nat) :
    exec (.tenantFrozen tag) s =
      .next (if (s.tenant tag).st = 2 && s.allUnbound tag then s.setTenant tag (fun t => { t with st := 3 }) else s) := rfl

theorem exec_tenantFrozen_unbound {s : State} {tag : Nat} (hst : (s.tenant tag).st = 2)
    (hall : ∀ k ∈ s.harts, k.tid = tag → k.slot = none ∧ k.leaving = none) :
    exec (.tenantFrozen tag) s = .next (s.setTenant tag (fun t => { t with st := 3 })) := by
  rw [exec_tenantFrozen, if_pos (by simp [hst, (allUnbound_iff s tag).mpr hall])]

theorem exec_tenantFrozen_early {s : State} {tag : Nat}
    (h : (s.tenant tag).st ≠ 2 ∨ ∃ k ∈ s.harts, k.tid = tag ∧ (k.slot ≠ none ∨ k.leaving ≠ none)) :
    exec (.tenantFrozen tag) s = .next s := by
  rw [exec_tenantFrozen, if_neg]
  rw [Bool.and_eq_true, decide_eq_true_eq, allUnbound_iff]
  rintro ⟨hst, hall⟩
  rcases h with h | ⟨k, hk, htid, hbound⟩
  · exact h hst
  · obtain ⟨hslot, hleaving⟩ := hall k hk htid
    exact hbound.elim (absurd hslot) (absurd hleaving)

/-! Release (R423) -/

theorem tids_releaseCores (s : State) (tag : Nat) (l : List Nat) :
    (l.foldl (fun t c => (t.releaseCore tag c).releasePmap tag c) s).tids = s.tids :=
  foldl_keeps State.tids _ (fun t c => (tids_releasePmap ..).trans (tids_releaseCore t tag c)) l s

/-- The last step of a release: the tenant's registers and translations. -/
def State.resetBlock (s : State) (tag : Nat) : State :=
  { s.setTenant tag Tenant.release with tlb := s.tlb.filter (fun e => e.tag ≠ tag), alog := s.alog.filter (fun a => a.tag ≠ tag) }

theorem resetBlock_effect (s : State) (tag : Nat) :
    (s.resetBlock tag).tenant tag = Tenant.release (s.tenant tag) ∧ (s.resetBlock tag).harts = s.harts ∧
      ∀ e ∈ (s.resetBlock tag).tlb, e.tag ≠ tag :=
  ⟨tenant_setTenant_self s tag Tenant.release, rfl, fun _ he => of_decide_eq_true (List.mem_filter.mp he).2⟩

/-- Before that, once the tenant's harts have ended, a release takes away no hart, and gives none to the tenant. -/
theorem release_eq (s : State) (tag : Nat) :
    ∃ u : State, u.tids = ((s.tenantHarts tag).foldl (fun t h => t.endHart h.hid) s).tids ∧ s.release tag = u.resetBlock tag := by
  unfold State.release
  extract_lets s1 mine s2 objs s3 s4
  have h2 : s2.tids = s1.tids := foldl_keeps State.tids _ tids_releaseRegion mine s1
  have h3 : s3.tids = s2.tids := foldl_keeps State.tids _ (fun t (e : Nat × Obj) => tids_endObject t e.1 e.2) objs s2
  have h4 : s4.tids = s3.tids := tids_releaseCores s3 tag _
  exact ⟨s4, (h4.trans h3).trans h2, rfl⟩

/-- A release takes away the tenant's harts and translations, and resets its registers. -/
theorem release_effect (s : State) (tag : Nat) :
    ((s.release tag).tenant tag).releasing = true ∧ ((s.release tag).tenant tag).combq = 0 ∧ ((s.release tag).tenant tag).ptbase = 0 ∧
      (∀ k ∈ (s.release tag).harts, k.tid ≠ tag) ∧ ∀ e ∈ (s.release tag).tlb, e.tag ≠ tag := by
  obtain ⟨u, htids, hu⟩ := release_eq s tag
  obtain ⟨hblock, hharts, htlb⟩ := resetBlock_effect u tag
  rw [hu, hharts, hblock]
  refine ⟨rfl, rfl, rfl, fun k hk ht => ?_, htlb⟩
  obtain ⟨j, hj, hjk⟩ := exists_hart_of_tids htids hk
  obtain ⟨hmem, hgone⟩ := mem_harts_endHarts hj
  exact hgone j (List.mem_filter.mpr ⟨hmem, by simp [hjk, ht]⟩) rfl

/-! The end of a release -/

/-- The reverse ownership entry of a page once its tenant is released: one of the tenant's is cleared (R423). -/
def releasedEntry (tag : Nat) (e : Word) : Word := if robTag e.toNat = tag && robValid e.toNat then clearedEntry e else e

theorem releasedEntry_foreign (tag : Nat) (e : Word) (h : robValid (releasedEntry tag e).toNat = true) :
    robTag (releasedEntry tag e).toNat ≠ tag := by
  unfold releasedEntry at h ⊢
  split
  · next hc =>
    rw [if_pos hc, robValid_cleared] at h
    exact absurd h Bool.false_ne_true
  · next hc =>
    rw [if_neg hc] at h
    simpa [h] using hc

/-- An entry that a release leaves is of another tenant, or is not valid. -/
theorem rob_released (rob : Tab Word) (tag p : Nat) :
    let e := Tab.get 0 ((rob.map (fun e => (e.1, releasedEntry tag e.2))).filter (fun e => e.2 ≠ 0)) p
    robValid e.toNat = true → robTag e.toNat ≠ tag := by
  intro e h
  rcases Tab.get_eq_or_mem 0 ((rob.map (fun e => (e.1, releasedEntry tag e.2))).filter (fun e => e.2 ≠ 0)) p with hz | hm
  · rw [show e = 0 from hz] at h
    exact absurd h (by decide)
  · obtain ⟨x, -, hx⟩ := List.mem_map.mp (List.mem_filter.mp hm).1
    have he : releasedEntry tag x.2 = e := congrArg Prod.snd hx
    rw [← he] at h ⊢
    exact releasedEntry_foreign tag x.2 h

theorem allot_released {tag : Nat} (h0 : tag ≠ 0) (allot : Tab Nat) (p : Nat) : Tab.get 0 (allot.filter (fun e => e.2 ≠ tag)) p ≠ tag := by
  rcases Tab.get_eq_or_mem 0 (allot.filter (fun e => e.2 ≠ tag)) p with hz | hm
  · rw [hz]
    exact h0.symm
  · simpa using (List.mem_filter.mp hm).2

/-- The state of the package once a release has ended (R423, R457). -/
def State.released (s : State) (tag : Nat) : State :=
  { (({ s with
        rob := (s.rob.map (fun e => (e.1, releasedEntry tag e.2))).filter (fun e => e.2 ≠ 0),
        allot := s.allot.filter (fun e => e.2 ≠ tag) } : State).setTenant tag
      (fun t => { t with st := 0, releasing := false, key := false,
                         hsres := if bits t.hsres.toNat 0 8 = 0xFF then plainStatus stCLOSED else t.hsres })) with
    held := s.held.filter (fun fr => fr.tag ≠ tag) }

theorem exec_tenantReleased {s : State} {tag : Nat} (h : (s.tenant tag).releasing = true) :
    exec (.tenantReleased tag) s = .next (s.released tag) := by
  show execTenantReleased tag s = _
  rw [execTenantReleased, if_neg (by simp [h])]
  rfl

theorem released_effect {tag : Nat} (h0 : tag ≠ 0) (s : State) :
    SameBytes s (s.released tag) ∧
      (s.released tag).tenant tag = { s.tenant tag with
        st := 0, releasing := false, key := false,
        hsres := if bits (s.tenant tag).hsres.toNat 0 8 = 0xFF then statusWord 0 0xFFF 0 6 else (s.tenant tag).hsres } ∧
      (∀ fr ∈ (s.released tag).held, fr.tag ≠ tag) ∧
      (∀ p, robValid (Tab.get 0 (s.released tag).rob p).toNat = true → robTag (Tab.get 0 (s.released tag).rob p).toNat ≠ tag) ∧
      ∀ p, Tab.get 0 (s.released tag).allot p ≠ tag :=
  ⟨fun _ => rfl, Tab.get_set_self .., fun _ hfr => of_decide_eq_true (List.mem_filter.mp hfr).2, rob_released s.rob tag, allot_released h0 s.allot⟩

/-! Partitions (R413) -/

theorem exec_pmapWrite {s : State} {idx : Nat} (h2 : idx < 2) (h8 : s.hub.phase ≠ 8) (core : Nat) (v : Word) :
    exec (.pmapWrite core idx v) s = .next (s.pmapWrite core idx v) := by
  show execPmapWrite core idx v s = _
  rw [execPmapWrite, if_pos (by simp [State.answers, h2, h8])]

/-- The partition registers stand when contexts are saved. -/
theorem pmap_saveLanes (s : State) (core : Nat) (p : Nat × Nat → Bool) : ((s.saveLanes core p).core core).pmap = (s.core core).pmap := by
  unfold State.saveLanes
  extract_lets owners
  exact core_setCore_keeps (f := fun c => { c with lane := c.lane.filter (fun e => !owners.contains e.2) }) Core.pmap s core core fun _ => rfl

theorem pmapWrite_taken {s : State} {core idx : Nat} {v : Word} (hok : pmapOk (s.pmapWith core idx v) = true) (hb : (s.core core).binds = []) :
    Tab.get 0 ((s.pmapWrite core idx v).core core).pmap idx = v := by
  simp only [State.pmapWrite, hok, hb, List.any_nil, Bool.not_false, Bool.and_self, if_true]
  rw [pmap_saveLanes, core_setCore_same]
  exact Tab.get_set_self ..

theorem pmapWrite_refused {s : State} {core idx : Nat} {v : Word} (h : pmapOk (s.pmapWith core idx v) = false) :
    s.pmapWrite core idx v = s.setHub (fun b => { b with refused := satInc b.refused 32 }) := by
  simp only [State.pmapWrite, h, Bool.false_and, Bool.false_eq_true, if_false]

/-! Weight slots (R265) -/

theorem exec_weightSlotFreeMgmt (s : State) (core slot : Nat) :
    exec (.weightSlotFreeMgmt core slot) s = .next (s.ifAnswers (fun t => t.freeSlotMgmt core slot)) := rfl

/-- A core without queued rechecks has none to end. -/
theorem drainCore_nil {s : State} {core : Nat} (h : (s.core core).recheck = []) : s.drainCore core = s := by
  have hof : ∀ l : List Hart, (∀ k ∈ l, k.core = core) → l.foldl State.drainOf s = s := by
    intro l
    induction l with
    | nil => exact fun _ => rfl
    | cons k l ih =>
      intro hl
      have hk : s.drainOf k = s := by simp [State.drainOf, hl k List.mem_cons_self, h]
      rw [List.foldl_cons, hk]
      exact ih fun j hj => hl j (List.mem_cons_of_mem k hj)
  exact hof _ fun k hk => by simpa using (List.mem_filter.mp hk).2

theorem weightSlotFreeMgmt_free {s : State} {core slot : Nat} (h8 : s.hub.phase ≠ 8) (hused : s.slotUsed core slot = false)
    (hr : (s.core core).recheck = []) :
    ∃ t, exec (.weightSlotFreeMgmt core slot) s = .next t ∧ { t with cores := s.cores } = s ∧
      Tab.get WSlot.reset (t.core core).slots slot = (Tab.get WSlot.reset (s.core core).slots slot).clear := by
  refine ⟨s.setCore core (fun c => { c with slots := Tab.set WSlot.reset c.slots slot (Tab.get WSlot.reset c.slots slot).clear }), ?_, rfl, ?_⟩
  · rw [exec_weightSlotFreeMgmt, ifAnswers_of_ne h8, State.freeSlotMgmt, if_neg (by simp [hused]), drainCore_nil hr]
  · rw [core_setCore_same]
    exact Tab.get_set_self ..

/-- While a matrix word on the slot is under way, the write is held up, where the registers answer at all. -/
theorem weightSlotFreeMgmt_used {s : State} {core slot : Nat} (hused : s.slotUsed core slot = true) :
    ∃ t, exec (.weightSlotFreeMgmt core slot) s = .next t ∧ { t with held := s.held } = s := by
  refine ⟨_, exec_weightSlotFreeMgmt s core slot, ?_⟩
  by_cases h8 : s.hub.phase = 8
  · rw [ifAnswers_of_eq h8]
  · rw [ifAnswers_of_ne h8, State.freeSlotMgmt, if_pos hused]
    rfl

theorem partitions_ignored {s : State} (h8 : s.hub.phase = 8) (core idx slot : Nat) (v : Word) :
    ∀ i ∈ [Instr.weightSlotFreeMgmt core slot, .pmapWrite core idx v], exec i s = .next s := by
  intro i hi
  rcases List.mem_pair.mp hi with rfl | rfl
  · rw [exec_weightSlotFreeMgmt, ifAnswers_of_eq h8]
  · show execPmapWrite core idx v s = _
    rw [execPmapWrite, if_neg (by simp [State.answers, h8])]

end Sys2Proof.Machine

namespace Sys2Proof.Claims

open Sys2Proof.Machine

/-- Settles O57, register by register, then state by state. -/
theorem tenantEvents : Obligations.TenantEvents := by
  unfold Obligations.TenantEvents
  refine ⟨fun s tag v => ?tinv, fun s tag v => ?roreq, fun s tag v => ?tenboot, fun s tag v h0 hrel h8 => ?states, fun s tag h0 => ?ends,
    fun s core idx slot v => ?cores⟩
  case tinv =>
    refine ⟨fun hbusy h8 => tinvGo_taken hbusy h8 v, fun h => exec_tinvGo_ignored h v, fun h => ?_, ?_, fun hcmds hrecvs => ?_⟩
    · exact exec_tinvComplete_open ((tinvOpen_iff s tag).mpr (.inl h))
    · rintro ⟨e, he, o, b, r, hr, ho, hb, htag, hpl⟩
      exact exec_tinvComplete_open ((tinvOpen_iff s tag).mpr (.inr ⟨e, he, o, ho, (keepsPlaces_iff tag o).mpr ⟨b, r, hr, hb, htag, hpl⟩⟩))
    · have hclosed : s.tinvOpen tag = false := by
        rw [Bool.eq_false_iff, ne_eq, tinvOpen_iff]
        rintro (⟨e, he, c, hc, htid⟩ | ⟨e, he, o, ho, hkeep⟩)
        · exact hcmds e he c hc htid
        · obtain ⟨b, r, hr, hb, htag, pl, hpl, hmain⟩ := (keepsPlaces_iff tag o).mp hkeep
          exact Bool.false_ne_true ((hrecvs e he o b ho hb htag r hr pl hpl).symm.trans hmain)
      obtain ⟨t, hexec, honly, htenant⟩ := tenant_written (exec_tinvComplete_closed hclosed)
      exact ⟨t, hexec, htenant, honly⟩
  case roreq =>
    refine ⟨fun h => exec_roreqGo_ignored h v, fun hidle h8 hgo => tenant_written (exec_roreqGo_taken hidle h8 hgo), fun h1 => ?_⟩
    obtain ⟨t, hexec, honly, hother, hrefused, hgranted⟩ := roreqComplete_effect h1
    refine ⟨t, hexec, honly, hother, hrefused, fun hreason => ?_⟩
    obtain ⟨hblock, hentry⟩ := hgranted hreason
    exact ⟨hblock, fun hop => hentry.trans (roreqEntry_exclusive hop s tag), fun hop => hentry.trans (roreqEntry_shared hop s tag),
      fun hop => (congrArg (fun e : Word => robValid e.toNat) hentry).trans (roreqEntry_none hop s tag)⟩
  case tenboot =>
    refine ⟨fun hidle hst h8 hgo => tenant_written (exec_tenbootGo_taken hidle hst h8 hgo), exec_tenbootGo_ignored,
      fun hgo h8 => tenant_written (exec_tenbootGo_address hgo h8 tag), exec_tenbootComplete_idle,
      fun s1 s2 pls bs hid core hbusy hchild hacc hread hcores hst hadm => ?_⟩
    exact ⟨_, exec_tenbootComplete_read hbusy hchild hacc hread, boot_done hcores hst hadm, boot_waits hcores hst hadm⟩
  case states =>
    refine ⟨fun hok hst h7 => ?_, fun hok hst => tenant_written_twice (exec_tenantThaw_frozen h0 h8 hrel hok hst),
      fun hok hst => ?_, fun hok hst => ?_⟩
    · obtain ⟨t, hexec, honly, hblock⟩ := tenant_written_twice (exec_tenantActivate_free h0 h8 hrel hok hst h7)
      exact ⟨t, hexec, honly, hblock.trans (activated_quotasOf ..)⟩
    · exact ⟨_, exec_tenantFreeze_active h0 h8 hrel hok hst, freeze_effect ..⟩
    · exact ⟨_, exec_tenantRelease_frozen h0 h8 hrel hok hst, release_effect ..⟩
  case ends =>
    refine ⟨fun hst hall => tenant_written (exec_tenantFrozen_unbound hst hall), exec_tenantFrozen_early,
      fun v hrel hst h8 hok => tenant_written (exec_tenantFreeze_releasing h0 h8 hok hrel hst), fun hrel => ?_⟩
    exact ⟨_, exec_tenantReleased hrel, released_effect h0 s⟩
  case cores =>
    refine ⟨fun h2 h8 => ⟨_, exec_pmapWrite h2 h8 core v, ?_⟩, fun h8 hused hr => ?_, weightSlotFreeMgmt_used,
      fun h8 => partitions_ignored h8 core idx slot v⟩
    · intro new
      split
      · next h => exact pmapWrite_taken h.1 h.2
      · intro hbad
        rw [pmapWrite_refused hbad]
        exact ⟨rfl, rfl⟩
    · obtain ⟨t, hexec, honly, hslot⟩ := weightSlotFreeMgmt_free (slot := slot) h8 hused hr
      refine ⟨t, hexec, honly, ?_⟩
      rw [hslot]
      exact ⟨rfl, rfl, rfl⟩

end Sys2Proof.Claims
end

section
/-! PROOFS. Atomic memory operations (R122-R125): what the read and the write at the target leave of the hart. -/

namespace Sys2Proof.Machine

open Sys2Proof.Claims

theorem still_amoNote (s : State) (o : AmoOp) (pl : Place) (n : Nat) : Still s (s.amoNote o pl n) := by
  unfold State.amoNote
  repeat' split
  · exact still_guardNote ..
  · exact .refl s
  · exact .refl s
  · exact .refl s

theorem still_rmwAt (s : State) (a : Actor) (pl : Place) (bs : List Byte) (bad : Bool) : Still s (s.rmwAt a pl bs bad) := by
  unfold State.rmwAt
  repeat' split
  · exact (still_guardNote ..).trans (still_perform ..)
  · exact .refl s
  · exact (still_markLine ..).trans (still_write ..)

/-- The journal entry and the read of a target leave the hart as it is. -/
theorem still_targetRead {s u : State} {a : Actor} {o : AmoOp} {pl : Place} {n old : Nat} {bad : Bool}
    (hread : (s.amoNote o pl n).readAt a pl n = (u, old, bad)) : Still s u := by
  have h := still_readAt (s.amoNote o pl n) a pl n
  rw [hread] at h
  exact (still_amoNote s o pl n).trans h

/-- An instruction that writes x[d] and may set FXF retires over a state in which the hart is as it was. -/
theorem retireX_flagged {s t : State} (d : BitVec 5) (v : Word) (fl : Nat) (hh : t.h = s.h) :
    let r := (t.setH (fun h => { h with fxf := orFlags h.fxf fl })).retireX d v
    WroteX r d v ∧ OtherX s r d ∧ r.h.pc = s.h.pc + 4 ∧ r.h.fxf = orFlags s.h.fxf fl ∧ OnlyX s.h { r.h with fxf := s.h.fxf } ∧
      OnlyHart t r := by
  obtain ⟨hwrote, hother, -⟩ := resultX_retireX (t.setH (fun h => { h with fxf := orFlags h.fxf fl })) d v
  rw [← hh]
  refine ⟨hwrote, fun r hr => ?_, rfl, ?_, ?_, rfl⟩
  · rw [hother r hr, State.xr, State.xr, ← hh]; rfl
  all_goals
    unfold State.retireX Hart.setX
    split <;> rfl

theorem exec_amoTable {d a b : BitVec 5} {w : BitVec 1} {o : BitVec 2} {k : BitVec 3} {e : Instr × AmoOp} (he : e ∈ amoTable d a b w o k)
    (s : State) : exec e.1 s = amo e.2 (amoBytes w) d a (if e.2 = .ld then 0 else b) s := by
  simp only [amoTable, List.mem_cons, List.not_mem_nil, or_false] at he
  rcases he with rfl | rfl | rfl | rfl | rfl | rfl | rfl | rfl | rfl | rfl | rfl | rfl | rfl | rfl <;> rfl

theorem exec_amoQTable {d a b : BitVec 5} {o : BitVec 2} {k : BitVec 3} {e : Instr × AmoOp} (he : e ∈ amoQTable d a b o k) (s : State) :
    exec e.1 s = amo e.2 8 d a b s := by
  simp only [amoQTable, List.mem_cons, List.not_mem_nil, or_false] at he
  rcases he with rfl | rfl <;> rfl

/-- An AMO on a scratchpad takes SPACE (R124). -/
theorem amo_scratchpad {s : State} {a : BitVec 5} (hw : window (s.xr a) = 2) (o : AmoOp) (n : Nat) (d b : BitVec 5) :
    amo o n d a b s = .next (s.trap cSPACE (s.xr a)) := by
  simp only [amo, hw, if_true]

/-- An AMO whose access passes its checks and whose target suits it and reads unpoisoned (R123). -/
theorem amo_effect {s s1 u : State} {o : AmoOp} {n : Nat} {d a b : BitVec 5} {pl : Place} {old : Nat} (hw : window (s.xr a) ≠ 2)
    (hacc : s.access s.h.actor o.kind (s.xr a) n n = (s1, .ok pl)) (hsuits : s1.amoSuits o (s.xr a) n = true)
    (hread : (s1.amoNote o pl n).readAt s.h.actor pl n = (u, old, false)) :
    ∃ t, amo o n d a b s = .next t ∧ AmoEffect o n s u t d b (s.xr a) pl old := by
  have h1 : s1.h = s.h := (access_passed hacc).still.h
  have hu : u.h = s.h := (still_targetRead hread).h.trans h1
  have hlow : ∀ r m, u.lowBytes r m = s.lowBytes r m := fun r m => by simp only [State.lowBytes, State.xr, hu]
  have hamo : amo o n d a b s = .next (s1.amoAt o n d b (s.xr a) pl) := by
    simp only [amo, hw, if_false, hacc, hsuits, if_true]
  refine ⟨_, hamo, ?_⟩
  simp only [State.amoAt, h1, hread, Bool.false_eq_true, if_false, hlow, hu]
  have hwritten : (if o.writes old (s.lowBytes d n) then u.rmwAt s.h.actor pl (leBytes n (o.eval n (u.amoModulus (s.xr a)) old
      (s.lowBytes b n) (s.lowBytes d n)).1) false else u).h = s.h := by
    split
    · exact (still_rmwAt ..).h.trans hu
    · exact hu
  exact retireX_flagged d _ _ hwritten

end Sys2Proof.Machine

namespace Sys2Proof.Claims

open Sys2Proof.Machine

/-- Settles O9: the target's old value retires into xd over the state that its write leaves. -/
theorem amoResults : Obligations.AmoResults := by
  unfold Obligations.AmoResults
  refine ⟨fun s s1 u d a b w o k pl old => ⟨fun e he hw hacc hsuits hread => ?_, fun e he hw hacc hsuits hread => ?_⟩,
    fun s d a b w o k hw e he => ?_⟩
  · rw [exec_amoTable he]
    exact amo_effect hw hacc hsuits hread
  · rw [exec_amoQTable he]
    exact amo_effect hw hacc hsuits hread
  · rcases List.mem_append.mp he with he | he
    · rw [exec_amoTable he, amo_scratchpad hw]
    · rw [exec_amoQTable he, amo_scratchpad hw]

end Sys2Proof.Claims
end

section
/-! PROOFS. Where the elements of vector memory words lie (R155, R156), and what a poisoned index does (R158, R165). -/

namespace Sys2Proof.Machine

section

variable {h : Hart} {w : Walker} {e : Nat}

/-- An element at a number of bits past the base. -/
theorem element_at_bits {n : Nat} (hb : h.bitOff w e = n) : h.elAddr w e = w.base + word (n / 8) ∧ h.elShift w e = n % 8 := by
  unfold Hart.elAddr Hart.elShift
  rw [hb]
  refine ⟨congrArg (w.base + ·) ?_, by omega⟩
  exact BitVec.ofInt_natCast 64 (n / 8)

/-- An element at a number of whole bytes past the base. -/
theorem element_at_bytes {k : Int} (hb : h.bitOff w e = 8 * k) : h.elAddr w e = w.base + BitVec.ofInt 64 k ∧ h.elShift w e = 0 := by
  unfold Hart.elAddr Hart.elShift
  rw [hb]
  exact ⟨by rw [Int.mul_ediv_cancel_left k (by decide)], by omega⟩

end

variable (h : Hart) (b k : Word) (off e i w t : Nat) (sc : BitVec 1)

theorem bitOff_unitWalk : h.bitOff (unitWalk h b off) e = (off + e * h.sew : Nat) := by
  simp [Hart.bitOff, unitWalk, Int.mul_comm]

theorem bitOff_tileWalk : h.bitOff (tileWalk h b t) e = (e * h.sew : Nat) := by
  simp [Hart.bitOff, tileWalk, Int.mul_comm]

theorem bitOff_stridedWalk : h.bitOff (stridedWalk b k) e = 8 * (k.toInt * e) := by
  simp [Hart.bitOff, stridedWalk, Int.mul_assoc]

theorem bitOff_indexWalk : h.bitOff (indexWalk h b i w sc) e =
    (8 * ((h.el (if w = 0 then h.sew else 8 * 2 ^ w) i e).1 * (if sc = 1 then 1 else h.sew / 8)) : Nat) := by
  simp [Hart.bitOff, Hart.idx, indexWalk, Hart.iwidth, Int.mul_comm]

/-- An indexed element lies at whole bytes past the base. -/
theorem element_indexed : h.elAddr (indexWalk h b i w sc) e =
      b + word ((h.el (if w = 0 then h.sew else 8 * 2 ^ w) i e).1 * (if sc = 1 then 1 else h.sew / 8)) ∧
    h.elShift (indexWalk h b i w sc) e = 0 := by
  obtain ⟨haddr, hshift⟩ := element_at_bits (bitOff_indexWalk h b e i w sc)
  rw [Nat.mul_div_cancel_left _ (by decide : 0 < 8)] at haddr
  exact ⟨haddr, hshift.trans (Nat.mul_mod_right ..)⟩

section

variable {s : State} {x : Walker} {j : Nat} (hbad : (s.h.idx x j).2 = true)

include hbad

theorem loadElem_poisoned (v : Nat) : s.loadElem x v j = (s.setH (fun h => h.putEl h.sew v j 0 true), .ok []) := by
  simp only [State.loadElem, hbad, if_true]
  rfl

theorem storeElem_poisoned (v : Nat) : s.storeElem x v j = (s, .trap cSPOISON (word j)) := by
  simp only [State.storeElem, hbad, if_true]

theorem bopElem_poisoned (o : AmoOp) (v : Nat) : s.bopElem o x v j = (s, .trap cSPOISON (word j)) := by
  simp only [State.bopElem, hbad, if_true]

end

end Sys2Proof.Machine

namespace Sys2Proof.Claims

open Sys2Proof.Machine

/-- Settles O42: the bit offset of an element in each form, then the checks' first case. -/
theorem vectorAddresses : Obligations.VectorAddresses := by
  unfold Obligations.VectorAddresses
  refine ⟨fun h b k off e i w t sc => ⟨element_at_bits (bitOff_unitWalk ..), element_at_bytes (bitOff_stridedWalk ..),
    element_at_bits (bitOff_tileWalk ..), element_indexed ..⟩, fun s w o v e hbad =>
    ⟨loadElem_poisoned hbad v, storeElem_poisoned hbad v, bopElem_poisoned hbad o v⟩⟩

end Sys2Proof.Claims
end

section
/-! PROOFS. Operations at the Comb banks (R126-R129): what their elements leave of the hart, and how the word ends. -/

namespace Sys2Proof.Machine

open Sys2Proof.Claims

/-! What the elements leave alone -/

theorem aside_of_still {s t : State} (h : Still s t) : Aside s t :=
  ⟨(congrArg State.aside h.rest :), fun e => by simp only [State.engine, h.engines]⟩

/-- What an operation at the banks leaves alone: what a write does, but for the flags of the running block. -/
def AsideFlags (s t : State) : Prop := Aside (s.setH (fun h => h.setRaised 0)) (t.setH (fun h => h.setRaised 0))

namespace AsideFlags

theorem trans {s t u : State} (h : AsideFlags s t) (h2 : AsideFlags t u) : AsideFlags s u := Aside.trans h h2

theorem of_aside {s t : State} (h : Aside s t) : AsideFlags s t :=
  ⟨(congrArg (fun u : State => u.setH (fun h => h.setRaised 0)) h.1 :), h.2⟩

theorem of_still {s t : State} (h : Still s t) : AsideFlags s t := .of_aside (aside_of_still h)

theorem refl (s : State) : AsideFlags s s := Aside.refl _

/-- A part of the hart that shows neither pending page traps nor the block's flags. -/
theorem same {α : Type} {s t : State} (h : AsideFlags s t) (g : Hart → α) (hg : ∀ k : Hart, g (k.setRaised 0).unpended = g k) : g t.h = g s.h :=
  (hg t.h).symm.trans ((congrArg g h.unpended_h).trans (hg s.h))

theorem breakpoints {s t : State} (h : AsideFlags s t) (kind : Nat) (a : Word) : t.breakpoints kind a = s.breakpoints kind a :=
  (congrArg (fun u : State => u.breakpoints kind a) h.1 :)

theorem recheck {s t : State} (h : AsideFlags s t) : (t.core t.h.core).recheck = (s.core s.h.core).recheck :=
  (congrArg (fun u : State => (u.core u.h.core).recheck) h.1 :)

end AsideFlags

theorem asideFlags_setRaised (s : State) (fl : Nat) : AsideFlags s (s.setH (fun h => h.setRaised fl)) := by
  refine ⟨congrArg (fun k : Hart => { s.aside with h := k }) ?_, fun _ => rfl⟩
  simp [Hart.setRaised, Hart.unpended, Function.comp_def]

theorem asideFlags_raise (s : State) (fl : Nat) : AsideFlags s (s.raise fl) := by
  refine ⟨congrArg (fun k : Hart => { s.aside with h := k }) ?_, fun _ => rfl⟩
  simp [State.raise, Hart.setRaised, Hart.unpended, Block.raise, Function.comp_def]

/-- The checks of an element that pass are those of its access (R129). -/
theorem access_of_bopChecks {s s1 : State} {o : AmoOp} {p : Word} {n : Nat} {pls : List Place} (h : s.bopChecks o p n = (s1, .ok pls)) :
    ∃ pl, pls = [pl] ∧ s.access s.h.actor .vbop p n n = (s1, .ok pl) := by
  unfold State.bopChecks at h
  split at h
  · simp at h
  · split at h
    · simp at h
    · split at h <;> simp at h
    · next hacc =>
      split at h
      · simp only [Prod.mk.injEq, EChk.ok.injEq] at h
        obtain ⟨rfl, rfl⟩ := h
        exact ⟨_, rfl, hacc⟩
      · simp at h

theorem aside_bopChecks (s : State) (o : AmoOp) (p : Word) (n : Nat) : Aside s (s.bopChecks o p n).1 := by
  have h := aside_access s s.h.actor .vbop p n n
  unfold State.bopChecks
  split
  · exact .refl s
  · split
    · next hacc => rw [hacc] at h; exact h
    · next hacc => rw [hacc] at h; split <;> exact h
    · next hacc => rw [hacc] at h; split <;> exact h

/-! An element at its home -/

section

variable {s s1 : State} {o : AmoOp} {p : Word} {pl : Place} {n old : Nat} (v : Nat) (bad : Bool)

theorem bopApply_poisoned (hread : (s.amoNote o pl n).readAt s.h.actor pl n = (s1, old, true)) : s.bopApply o p pl n v bad = s1 := by
  simp only [State.bopApply, hread, if_true]

theorem bopApply_clean (hread : (s.amoNote o pl n).readAt s.h.actor pl n = (s1, old, false)) : s.bopApply o p pl n v bad =
    let r := o.eval n (s1.amoModulus p) old v 0
    let s2 := s1.rmwAt s1.h.actor pl (leBytes n r.1) bad
    if bad then s2 else s2.raise r.2 := by
  simp only [State.bopApply, hread, Bool.false_eq_true, if_false]

/-- The element's new value stands at its home. -/
theorem sameBytes_bopApply (hread : (s.amoNote o pl n).readAt s.h.actor pl n = (s1, old, false)) :
    SameBytes (s1.rmwAt s1.h.actor pl (leBytes n (o.eval n (s1.amoModulus p) old v 0).1) bad) (s.bopApply o p pl n v bad) := by
  rw [bopApply_clean v bad hread]
  cases bad <;> exact fun _ => rfl

end

theorem asideFlags_bopApply (s : State) (o : AmoOp) (p : Word) (pl : Place) (n v : Nat) (bad : Bool) :
    AsideFlags s (s.bopApply o p pl n v bad) := by
  obtain ⟨s1, old, tbad, hread⟩ : ∃ s1 old tbad, (s.amoNote o pl n).readAt s.h.actor pl n = (s1, old, tbad) := ⟨_, _, _, rfl⟩
  have h1 := AsideFlags.of_still (still_targetRead hread)
  cases tbad with
  | true => rw [bopApply_poisoned v bad hread]; exact h1
  | false =>
    rw [bopApply_clean v bad hread]
    cases bad with
    | true => exact h1.trans (.of_still (still_rmwAt ..))
    | false => exact (h1.trans (.of_still (still_rmwAt ..))).trans (asideFlags_raise ..)

theorem asideFlags_bopElem (s : State) (o : AmoOp) (w : Walker) (v e : Nat) : AsideFlags s (s.bopElem o w v e).1 := by
  have h := AsideFlags.of_aside (aside_bopChecks s o (s.h.elAddr w e) (s.h.sew / 8))
  unfold State.bopElem
  dsimp only
  split
  · exact .refl s
  · split
    · next hc => rw [hc] at h; exact h.trans (asideFlags_bopApply ..)
    · next hc => rw [hc] at h; exact h
    · exact h

theorem bopElem_passes {s s1 : State} {o : AmoOp} {w : Walker} {j : Nat} {pl : Place} (hidx : (s.h.idx w j).2 = false)
    (hchk : s.bopChecks o (s.h.elAddr w j) (s.h.sew / 8) = (s1, .ok [pl])) (v : Nat) :
    s.bopElem o w v j = (s1.bopApply o (s.h.elAddr w j) pl (s.h.sew / 8) (s.h.el s.h.sew v j).1 (s.h.el s.h.sew v j).2, .ok []) := by
  simp only [State.bopElem, hidx, Bool.false_eq_true, if_false, hchk]

/-! The run over the elements -/

/-- A word without a breakpoint goes through each of its elements. -/
theorem reach_unwatched {s : State} (h : s.breakpoints 2 s.h.vaddr = []) (e cut : Nat) (a : Word) : s.reach e cut a = (s, none) := by
  simp [State.reach, State.elemBreaks, State.bpsAt, h]

theorem asideFlags_runElems {one : State → Nat → State × EChk} (hone : ∀ s e, AsideFlags s (one s e).1) (addr : Nat → Word) (cut : Nat)
    (l : List Nat) (s : State) (hbp : s.breakpoints 2 s.h.vaddr = []) : AsideFlags s (State.runElems one addr cut l s).1 := by
  induction l generalizing s with
  | nil => exact .refl s
  | cons e l ih =>
    have h1 := hone s e
    simp only [State.runElems, reach_unwatched hbp]
    split
    · next hone =>
      rw [hone] at h1
      exact h1.trans (ih _ (by rw [h1.breakpoints, h1.same Hart.vaddr (fun _ => rfl)]; exact hbp))
    · next hone => rw [hone] at h1; exact h1
    · next hone => rw [hone] at h1; exact h1

/-- The run over one element that passes. -/
theorem runElems_one {one : State → Nat → State × EChk} {s u : State} {j : Nat} {pls : List Place} (hbp : s.breakpoints 2 s.h.vaddr = [])
    (hone : one s j = (u, .ok pls)) (addr : Nat → Word) (cut : Nat) : State.runElems one addr cut [j] s = (u, .all) := by
  simp only [State.runElems, reach_unwatched hbp, hone]

/-! How a vector memory word ends -/

theorem flOr_zero (x : Nat) : flOr x 0 = x := Nat.or_zero x

/-- A word over whose elements only the flags and memory have changed completes. -/
theorem memDone_vdone {s z : State} (h : AsideFlags s z) : MemDone s z (z.vdone z.h 0) s.h.vx := by
  have hrun : z.h.run.map (fun b => b.raise 0) = z.h.run := by
    simp [Block.raise, flOr_zero]
  refine ⟨?_, rfl⟩
  show z.h.vdone 0 = _
  unfold Hart.vdone
  rw [hrun, h.same Hart.vaddr (fun _ => rfl), h.same Hart.conv (fun _ => rfl), ← h.same Hart.vx (fun _ => rfl)]

theorem memDone_next {s u r : State} {x : VCtx} (h : MemDone s u r x) : r.h.vx = x ∧ r.h.vpc = s.h.vaddr + 4 := by
  obtain ⟨hr, -⟩ := h
  exact ⟨(congrArg Hart.vx hr :), (congrArg Hart.vpc hr :)⟩

/-- A vector-side trap of a hart without a SPAWN in hand stops its vector side (R397, R401). -/
theorem vectorTrap_stops {s : State} (hr : (s.core s.h.core).recheck = []) (hm : s.h.mode = .a ∨ s.h.begun = none) (v : VStop) (cut : Nat) :
    let k := (s.vectorTrap v cut).h
    k.stop = some v ∧ k.ecut = word cut ∧ k.vx = s.h.vx ∧ k.conv = [] ∧ k.x = s.h.x ∧ k.pc = s.h.pc := by
  have hspawn : (if s.h.mode == .a then s else s.endSpawn) = s := by
    rcases hm with hm | hm
    · simp [hm]
    · simp [State.endSpawn, hm]
  simp only [State.vectorTrap, drainRechecks_nil hr, hspawn, Hart.pageMet]
  split <;> exact ⟨rfl, rfl, rfl, rfl, rfl, rfl⟩

theorem aside_writeFaultRecord (s : State) (l : List Byte) : Aside s (s.writeFaultRecord l).1 := by
  unfold State.writeFaultRecord
  split
  · exact aside_writeAt ..
  · exact aside_mcheck ..

theorem memTrapped_congr {s y z t : State} {e cause : Nat} {tval : Word} (hvx : y.h.vx = z.h.vx) (h : MemTrapped s y t e cause tval) :
    MemTrapped s z t e cause tval := by
  unfold MemTrapped at h ⊢
  rwa [← hvx]

/-- A trap of a hart that its elements have left as it was, at the word in hand. -/
theorem memTrapped_vectorTrap {s z : State} (h : AsideFlags s z) (hr : (s.core s.h.core).recheck = []) (e cause : Nat) (tval : Word)
    (rcd : List Byte) : MemTrapped s z (z.vectorTrap { cause := cause, tval := tval, tepc := z.h.vaddr, frec := rcd } e) e cause tval := by
  intro hm
  rw [← h.same Hart.mode (fun _ => rfl), ← h.same Hart.begun (fun _ => rfl)] at hm
  obtain ⟨hstop, hrest⟩ := vectorTrap_stops (h.recheck.trans hr) hm { cause := cause, tval := tval, tepc := z.h.vaddr, frec := rcd } e
  rw [h.same Hart.x (fun _ => rfl), h.same Hart.pc (fun _ => rfl)] at hrest
  exact ⟨⟨rcd, by rw [hstop, h.same Hart.vaddr (fun _ => rfl)]⟩, hrest⟩

/-- A trap at an element stops the vector side there; a PAGE writes its fault record first (R163, R164). -/
theorem memTrapped_memTrap {s z : State} (h : AsideFlags s z) (hr : (s.core s.h.core).recheck = []) (e cause : Nat) (tval : Word)
    (ends probes : List Word) (wr : Bool) : MemTrapped s z (z.memTrap cause tval e ends probes wr) e cause tval := by
  unfold State.memTrap
  rw [drainRechecks_nil (h.recheck.trans hr)]
  split
  · extract_lets first
    split
    next pages more _ =>
    split
    next s1 rcd hrec =>
    have hw : Aside z s1 := by
      have h1 := aside_writeFaultRecord z (z.faultRecord e pages more wr)
      rwa [hrec] at h1
    have hz := AsideFlags.of_aside hw
    exact memTrapped_congr (hz.same Hart.vx (fun _ => rfl)) (memTrapped_vectorTrap (h.trans hz) hr e cause tval rcd)
  · exact memTrapped_vectorTrap h hr e cause tval []

/-! The words -/

/-- How an operation at the banks addresses its elements (R127). -/
def bankWalk (h : Hart) (b : Word) (i : Nat) (p : BitVec 2) : Walker :=
  if p = 1 then indexWalk h b i 0 0 else if p = 2 then stridedWalk b 0 else unitWalk h b 0

/-- The state in which the elements begin: `vbop.fadd` tells its own flags apart (R198). -/
def State.bankStart (s : State) (o : AmoOp) : State := if o = .fadd then s.setH (fun h => h.setRaised 0) else s

/-- The run over the elements. -/
def State.bankRun (s : State) (o : AmoOp) (w : Walker) (v m : Nat) : State × VEnd :=
  State.runElems (fun z j => z.bopElem o w v j) (s.h.elAddr w) s.h.cut (s.h.fromCut m) (s.bankStart o)

/-- `vbop.fadd` has raised an enabled flag (R198). -/
def State.bankFpe (s : State) (o : AmoOp) (u : State) : Prop := o = .fadd ∧ s.h.run.any (fun k => flTraps k.fen u.h.raised) = true

/-- The state over which the word ends: the flags of `vbop.fadd` are joined to those of the block. -/
def State.bankEnd (s : State) (o : AmoOp) (u : State) : State := if o = .fadd then u.raise s.h.raised else u

theorem exec_vbopTable {c : BitVec 1} {v : BitVec 6} {b : BitVec 5} {i : BitVec 6} {m : BitVec 3} {p : BitVec 2} {e : Instr × AmoOp}
    (he : e ∈ vbopTable c v b i m p) (s : State) : exec e.1 s = vbop e.2 v.toNat i.toNat m.toNat p.toNat b.toNat s := by
  simp only [vbopTable, List.mem_cons, List.not_mem_nil, or_false] at he
  rcases he with rfl | rfl | rfl | rfl | rfl | rfl | rfl | rfl <;> rfl

section

variable {s : State} (o : AmoOp)

theorem asideFlags_bankStart : AsideFlags s (s.bankStart o) := by
  unfold State.bankStart
  split
  · exact asideFlags_setRaised ..
  · exact .refl s

theorem asideFlags_bankEnd (u : State) : AsideFlags u (s.bankEnd o u) := by
  unfold State.bankEnd
  split
  · exact asideFlags_raise ..
  · exact .refl u

theorem sameBytes_bankEnd (u : State) : SameBytes u (s.bankEnd o u) := by
  unfold State.bankEnd
  split <;> exact fun _ => rfl

theorem sameBytes_bankStart : SameBytes s (s.bankStart o) := by
  unfold State.bankStart
  split <;> exact fun _ => rfl

variable {o}

theorem asideFlags_bankRun {u : State} {x : VEnd} {w : Walker} {v m : Nat} (hbp : s.breakpoints 2 s.h.vaddr = [])
    (hrun : s.bankRun o w v m = (u, x)) : AsideFlags s u := by
  have h := asideFlags_bankStart (s := s) o
  have hbp' : (s.bankStart o).breakpoints 2 (s.bankStart o).h.vaddr = [] := by
    rw [h.breakpoints, h.same Hart.vaddr (fun _ => rfl)]
    exact hbp
  have hall := h.trans (asideFlags_runElems (fun z j => asideFlags_bopElem z o w v j) (s.h.elAddr w) s.h.cut (s.h.fromCut m) _ hbp')
  rw [State.bankRun] at hrun
  rwa [hrun] at hall

theorem bankRun_empty {w : Walker} {v m : Nat} (h : s.h.fromCut m = []) : s.bankRun o w v m = (s.bankStart o, .all) := by
  simp only [State.bankRun, h, State.runElems]

theorem bankRun_one {s1 : State} {w : Walker} {v m j : Nat} {pl : Place} (hbp : s.breakpoints 2 s.h.vaddr = []) (hone : s.h.fromCut m = [j])
    (hidx : (s.h.idx w j).2 = false) (hchk : (s.bankStart o).bopChecks o (s.h.elAddr w j) (s.h.sew / 8) = (s1, .ok [pl])) :
    s.bankRun o w v m =
      (s1.bopApply o (s.h.elAddr w j) pl (s.h.sew / 8) (s.h.el s.h.sew v j).1 (s.h.el s.h.sew v j).2, .all) := by
  have h := asideFlags_bankStart (s := s) o
  have hidx' : ((s.bankStart o).h.idx w j).2 = false := (h.same (fun k => (k.idx w j).2) (fun _ => rfl)).trans hidx
  have haddr : (s.bankStart o).h.elAddr w j = s.h.elAddr w j := h.same (fun k => k.elAddr w j) (fun _ => rfl)
  have hsew : (s.bankStart o).h.sew = s.h.sew := h.same Hart.sew (fun _ => rfl)
  have hel : ∀ n, (s.bankStart o).h.el n v j = s.h.el n v j := fun n => h.same (fun k => k.el n v j) (fun _ => rfl)
  rw [← haddr, ← hsew] at hchk
  have helem := bopElem_passes hidx' hchk v
  rw [haddr, hsew, hel] at helem
  rw [State.bankRun, hone]
  refine runElems_one ?_ helem ..
  rw [h.breakpoints, h.same Hart.vaddr (fun _ => rfl)]
  exact hbp

/-- A word none of whose elements has run has raised no flag. -/
theorem raised_bankStart (h : o = .fadd) : (s.bankStart o).h.raised = 0 := by
  simp only [State.bankStart, h, if_true, State.h_setH, Hart.setRaised, Hart.raised, Option.map_map]
  cases s.h.run <;> rfl

theorem flTraps_zero (fen : BitVec 5) : flTraps fen 0 = false := by
  simp [flTraps, flHas]

theorem not_bankFpe_bankStart : ¬s.bankFpe o (s.bankStart o) := by
  rintro ⟨ho, hany⟩
  rw [raised_bankStart ho] at hany
  simp [flTraps_zero] at hany

/-- A word whose one element raises no enabled flag takes no FPE. -/
theorem not_bankFpe_bopApply {s1 s2 : State} {q : Word} {pl : Place} {n v old : Nat} {bad : Bool} (h1 : s1.h = (s.bankStart o).h)
    (hread : (s1.amoNote o pl n).readAt s1.h.actor pl n = (s2, old, false))
    (hquiet : o = .fadd → ∀ k, s.h.run = some k → flTraps k.fen (o.eval n (s2.amoModulus q) old v 0).2 = false) :
    ¬s.bankFpe o (s1.bopApply o q pl n v bad) := by
  rintro ⟨ho, hany⟩
  have hwritten := fun l => (still_rmwAt s2 s2.h.actor pl l bad).h.trans ((still_targetRead hread).h.trans h1)
  have hraised := raised_bankStart (s := s) ho
  rw [bopApply_clean v bad hread] at hany
  cases bad with
  | true => simp [hwritten, hraised, flTraps_zero] at hany
  | false =>
    have hrun : (s.bankStart o).h.run = s.h.run.map (fun b => { b with flags := 0 }) := by
      simp only [State.bankStart, ho, if_true]
      rfl
    cases hr : s.h.run with
    | none => simp [hr] at hany
    | some k =>
      have hk := hquiet ho k hr
      simp [State.raise, hwritten, Hart.raised, hrun, hr, Block.raise, flOr, hk] at hany

section

variable {v i m base : Nat} {p : BitVec 2} (hready : MemReady s (needVbop o v i p.toNat s.h) 0 none)

include hready

/-- The word issues, and finds its base in the Comb or not. -/
theorem vbop_issued : vbop o v i m p.toNat base s =
    let w := bankWalk s.h (s.h.code base) i p
    .next (if window (s.h.code base) ≠ 3 then s.vtrap cSPACE (s.h.code base) 0
      else if o = .fadd then s.faddEnd (s.bankRun o w v m) m (s.h.elEnds w) false
      else State.memEnd (s.bankRun o w v m) m (s.h.elEnds w) true false) := by
  obtain ⟨hissue, -, -, hr, -⟩ := hready
  have h1 : (p.toNat = 1) = (p = 1) := propext ⟨fun h => BitVec.eq_of_toNat_eq h, fun h => h ▸ rfl⟩
  have h2 : (p.toNat = 2) = (p = 2) := propext ⟨fun h => BitVec.eq_of_toNat_eq h, fun h => h ▸ rfl⟩
  simp only [vbop, State.vissue, hissue, if_true, vbopRun, drainRechecks_nil hr, h1, h2, bankWalk]
  split
  · rfl
  · split
    · next ho => simp only [State.bankRun, State.bankStart, ho, if_true]; rfl
    · next ho => simp only [State.bankRun, State.bankStart, ho, if_false]; rfl

theorem vbop_outside (hw : window (s.h.code base) ≠ 3) : vbop o v i m p.toNat base s = .next (s.vtrap cSPACE (s.h.code base) 0) := by
  rw [vbop_issued hready]
  exact congrArg _ (if_pos hw)

/-- `vbop.fadd` that raises an enabled flag takes FPE with nothing applied. -/
theorem vbop_fpe {u : State} {x : VEnd} (hw : window (s.h.code base) = 3)
    (hrun : s.bankRun o (bankWalk s.h (s.h.code base) i p) v m = (u, x)) (hfpe : s.bankFpe o u) :
    vbop o v i m p.toNat base s = .next (s.vtrap cFPE (word (u.h.raised % 32)) 0) := by
  obtain ⟨rfl, hany⟩ := hfpe
  rw [vbop_issued hready]
  simp only [hw, hrun, ne_eq, not_true_eq_false, if_false, if_true, State.faddEnd, hany]

/-- Without such a flag, and without a wait, the word ends as a vector memory word does. -/
theorem vbop_ends {u : State} {x : VEnd} (hw : window (s.h.code base) = 3)
    (hrun : s.bankRun o (bankWalk s.h (s.h.code base) i p) v m = (u, x)) (hfpe : ¬s.bankFpe o u) (hwait : ∀ e q, x ≠ .wait e q) :
    vbop o v i m p.toNat base s =
      .next (State.memEnd (s.bankEnd o u, x) m (s.h.elEnds (bankWalk s.h (s.h.code base) i p)) true false) := by
  rw [vbop_issued hready]
  simp only [hw, hrun, ne_eq, not_true_eq_false, if_false, State.bankEnd]
  split
  · next ho =>
    have hany : s.h.run.any (fun k => flTraps k.fen u.h.raised) = false := by
      simpa [State.bankFpe, ho] using hfpe
    simp only [State.faddEnd, hany, Bool.false_eq_true, if_false]
    cases x with
    | wait e q => exact absurd rfl (hwait e q)
    | _ => rfl
  · rfl

/-- The word has completed: nothing of the hart has changed but its flags, and memory is as the elements left it. -/
theorem vbop_completes {u : State} (hw : window (s.h.code base) = 3)
    (hrun : s.bankRun o (bankWalk s.h (s.h.code base) i p) v m = (u, .all)) (hfpe : ¬s.bankFpe o u) :
    ∃ r, vbop o v i m p.toNat base s = .next r ∧ MemDone s (s.bankEnd o u) r s.h.vx ∧ SameBytes u r ∧ r.h.x = s.h.x ∧ r.h.pc = s.h.pc := by
  obtain ⟨-, -, -, -, hbp⟩ := id hready
  have hu := asideFlags_bankRun hbp hrun
  have hz := hu.trans (asideFlags_bankEnd (s := s) o u)
  exact ⟨_, vbop_ends hready hw hrun hfpe nofun, memDone_vdone hz, sameBytes_bankEnd o u, hz.same Hart.x (fun _ => rfl),
    hz.same Hart.pc (fun _ => rfl)⟩

/-- The word has stopped at an element that fails its checks. -/
theorem vbop_traps {u : State} {j a : Nat} {x : Word} (hw : window (s.h.code base) = 3)
    (hrun : s.bankRun o (bankWalk s.h (s.h.code base) i p) v m = (u, .trap j a x)) (hfpe : ¬s.bankFpe o u) :
    ∃ r, vbop o v i m p.toNat base s = .next r ∧ MemTrapped s u r j a x := by
  obtain ⟨-, -, -, hr, hbp⟩ := id hready
  have hu := asideFlags_bankRun hbp hrun
  have hvx : (s.bankEnd o u).h.vx = u.h.vx := (asideFlags_bankEnd o u).same Hart.vx (fun _ => rfl)
  exact ⟨_, vbop_ends hready hw hrun hfpe nofun,
    memTrapped_congr hvx (memTrapped_memTrap (hu.trans (asideFlags_bankEnd o u)) hr j a x _ _ true)⟩

/-- A word with no active element from the cut on changes nothing. -/
theorem vbop_empty (hw : window (s.h.code base) = 3) (hnone : s.h.fromCut m = []) :
    ∃ r, vbop o v i m p.toNat base s = .next r ∧ r.h.vx = s.h.vx ∧ r.h.vpc = s.h.vaddr + 4 ∧ SameBytes s r := by
  obtain ⟨r, hr, hdone, hbytes, -⟩ := vbop_completes hready hw (bankRun_empty hnone) not_bankFpe_bankStart
  obtain ⟨hvx, hvpc⟩ := memDone_next hdone
  exact ⟨r, hr, hvx, hvpc, fun a => (hbytes a).trans (sameBytes_bankStart o a)⟩

/-- A word with one active element from the cut on combines it with the word at its home. -/
theorem vbop_one {s1 s2 : State} {j old : Nat} {pl : Place} (hw : window (s.h.code base) = 3) (hone : s.h.fromCut m = [j])
    (hidx : (s.h.idx (bankWalk s.h (s.h.code base) i p) j).2 = false)
    (hchk : (s.bankStart o).bopChecks o (s.h.elAddr (bankWalk s.h (s.h.code base) i p) j) (s.h.sew / 8) = (s1, .ok [pl]))
    (hread : (s1.amoNote o pl (s.h.sew / 8)).readAt s.h.actor pl (s.h.sew / 8) = (s2, old, false)) :
    let x := s.h.el s.h.sew v j
    let q := o.eval (s.h.sew / 8) (s2.amoModulus (s.h.elAddr (bankWalk s.h (s.h.code base) i p) j)) old x.1 0
    (o = .fadd → ∀ k, s.h.run = some k → flTraps k.fen q.2 = false) →
    ∃ r, vbop o v i m p.toNat base s = .next r ∧ r.h.vx = s.h.vx ∧ r.h.vpc = s.h.vaddr + 4 ∧
      SameBytes (s2.rmwAt s.h.actor pl (leBytes (s.h.sew / 8) q.1) x.2) r := by
  intro x q hquiet
  obtain ⟨-, -, -, -, hbp⟩ := id hready
  obtain ⟨_, hpl, hacc⟩ := access_of_bopChecks hchk
  obtain rfl : pl = _ := List.singleton_inj.mp hpl
  have h1 : s1.h = (s.bankStart o).h := (access_passed hacc).still.h
  have hactor : s1.h.actor = s.h.actor := by
    rw [h1]; exact (asideFlags_bankStart o).same Hart.actor (fun _ => rfl)
  rw [← hactor] at hread
  have hactor2 : s2.h.actor = s.h.actor := (congrArg Hart.actor (still_targetRead hread).h).trans hactor
  obtain ⟨r, hr, hdone, hbytes, -⟩ := vbop_completes hready hw (bankRun_one (v := v) hbp hone hidx hchk) (not_bankFpe_bopApply h1 hread hquiet)
  obtain ⟨hvx, hvpc⟩ := memDone_next hdone
  refine ⟨r, hr, hvx, hvpc, fun a => (hbytes a).trans ?_⟩
  rw [← hactor2]
  exact sameBytes_bopApply x.1 x.2 hread a

end

end

end Sys2Proof.Machine

namespace Sys2Proof.Claims

open Sys2Proof.Machine

/-- Settles O47: the run over the elements leaves the hart as it is but for the block's flags, and the word ends as the run does. -/
theorem bankOperations : Obligations.BankOperations := by
  unfold Obligations.BankOperations
  refine ⟨fun s u c v b i m p e he hready => ?_, fun s s1 o q pl n v old bad =>
    ⟨bopApply_poisoned v bad, sameBytes_bopApply v bad⟩⟩
  rw [exec_vbopTable he]
  exact ⟨vbop_outside hready, vbop_completes hready, fun hw j a x => vbop_traps hready hw, fun hw x => vbop_fpe hready hw,
    vbop_empty hready, fun j s1 pl s2 old hw => vbop_one hready hw⟩

end Sys2Proof.Claims
end

section
/-! PROOFS. Latches (R351-R354): the answers of a record's bank, and what taking, releasing and revoking a latch leave. -/

namespace Sys2Proof.Machine

open Sys2Proof.Claims

/-! Answers of a bank -/

/-- A pointer that names a record passes the checks of R339. -/
theorem atRecord_at {s : State} {p : Word} {off : Nat} (h : RecordAt s p off) (f : Nat → Out) :
    s.atRecord p f = countBank s.h.tid (f off) := by
  obtain ⟨hw, halign, rfl, i, r, hreg, hcov, hdisc⟩ := h
  simp only [State.atRecord, hw, halign, hreg, hcov, hdisc, ne_eq, not_true_eq_false, Bool.not_true, Bool.false_eq_true, if_false]

theorem dies_traceHart (s : State) (k : Hart) (a b : Nat) (p v : Word) : (s.traceHart k a b p v).dies = s.dies :=
  (congrArg State.dies (unsent_traceHart s k a b p v) :)

theorem slowest_one (s : State) (x : Nat) : s.slowest [x] = if (s.die x).late = 0 then none else some x := by
  simp only [State.slowest, List.foldl_cons, List.foldl_nil]

theorem slowest_prompt {s : State} (h : Prompt s) (l : List Nat) : s.slowest l = none := by
  unfold State.slowest
  induction l with
  | nil => rfl
  | cons x l ih => rw [List.foldl_cons, if_pos (h x)]; exact ih

theorem finishWhen_answered {s : State} {l : List Nat} (h : s.slowest l = none) (d : BitVec 5) (v : Word) :
    s.finishWhen l d v = s.finishWait d v :=
  retireWhen_none ((slowest_congr (dies_traceHart ..) l).trans h) d v _

/-- A WAIT instruction has returned at its object's bank (R415). -/
def State.bankReturn (u : State) (d : BitVec 5) (v : Word) : State := (u.finishWait d v).count u.h.tid 7 1

section

variable (u : State) (d : BitVec 5) (v : Word)

theorem atBank_bankReturn : AtBank u (u.bankReturn d v) d v := by
  have ho := outcome_finishWait u d v
  obtain ⟨hwrote, -, hpc, -⟩ := id ho
  refine ⟨?_, ?_, _, ho, rfl⟩
  · rw [WroteX, State.xr, State.bankReturn, State.h_count]; exact hwrote
  · rw [State.bankReturn, State.h_count, hpc, Traced, State.h_traceHart]

theorem latch_bankReturn (off : Nat) : (u.bankReturn d v).latch off = u.latch off :=
  (latch_of_unsent (unsent_count (u.finishWait d v) u.h.tid 7 1) off).trans (latch_of_unsent (unsent_traceHart u u.h 5 0 u.h.pc v) off)

theorem holds_bankReturn : (u.bankReturn d v).h.holds = u.h.holds := by
  have hset : ∀ h : Hart, (h.setX d.toNat v).holds = h.holds := fun h => (congrArg Hart.holds (setX_only h d.toNat v) :)
  rw [State.bankReturn, State.h_count]
  refine (hset _).trans ?_
  rw [State.h_traceHart]

variable {u} {tid : Nat} {l : List Nat}

theorem countBank_finishWait (ht : u.h.tid = tid) : countBank tid (.next (u.finishWait d v)) = .next (u.bankReturn d v) := by
  subst ht
  exact congrArg Host.Outcome.next (if_pos rfl)

/-- An instruction whose dies answer returns. -/
theorem countBank_answered (ht : u.h.tid = tid) (hl : u.slowest l = none) :
    countBank tid (.next (u.finishWhen l d v)) = .next (u.bankReturn d v) := by
  rw [finishWhen_answered hl, countBank_finishWait d v ht]

/-- An instruction whose bank leaves its request unanswered waits for it under IWL (R334). -/
theorem countBank_held {x : Nat} (hl : u.slowest l = some x) :
    ∃ t, countBank tid (.next (u.finishWhen l d v)) = .next t ∧ HeldFor t u.h.pc (partyWord 1 x) := by
  have hheld : HeldFor (u.finishWhen l d v) u.h.pc (partyWord 1 x) := by
    have h := heldFor_retireWhen ((slowest_congr (dies_traceHart u u.h 5 0 u.h.pc v) l).trans hl) d v .stands
    rwa [State.h_traceHart] at h
  obtain ⟨-, hbegun, -⟩ := id hheld
  rw [← Option.isSome_iff_ne_none] at hbegun
  refine ⟨(u.finishWhen l d v).count tid 7 1, congrArg Host.Outcome.next (if_pos (by simp only [hbegun, Bool.or_true])), ?_⟩
  rw [HeldFor, State.h_count]
  exact hheld

end

/-! Waits that a bank decides -/

/-- The die that decides a wait answers: the hart takes what it grants, and the wait returns. -/
theorem finishAt_granted {s : State} {k : WaitKind} {x : Nat} (hk : k.decidedAt = some x) (hl : (s.die x).late = 0) (d : BitVec 5) (dead : Nat)
    (v : Word) (hold : Option Holding) : s.finishAt k d dead v hold = (s.setH (fun h => h.takes 0 hold)).finishWait d v := by
  simp only [State.finishAt, hk, Option.elim_some, hl, if_true]

/-- A late die keeps the result that it has decided. -/
theorem respond_withheld {s : State} {w : Wait} {x : Nat} (hk : w.kind.decidedAt = some x) (hl : (s.die x).late ≠ 0) (hid : Nat) (v : Word)
    (f : Nat) (hold : Option Holding) : { s.respond hid w v f hold with slow := s.slow } = s := by
  unfold State.respond
  rw [hk]
  dsimp only
  rw [if_neg hl]
  split <;> rfl

/-- What a late die has decided, the hart that asked waits for. -/
theorem finishAt_withheld {s : State} {k : WaitKind} {x : Nat} (hk : k.decidedAt = some x) (hl : (s.die x).late ≠ 0) (d : BitVec 5) (dead : Nat)
    (v : Word) (hold : Option Holding) : { s.finishAt k d dead v hold with slow := s.slow } = s.startWait k d dead := by
  have hfin : s.finishAt k d dead v hold = (s.startWait k d dead).respond s.h.hid (s.waitFrom k d dead) v 0 hold := by
    simp only [State.finishAt, hk, Option.elim_some, hl, if_false, State.h_startWait, State.waitFrom]
  rw [hfin]
  exact respond_withheld (s := s.startWait k d dead) (w := s.waitFrom k d dead) hk hl s.h.hid v 0 hold

/-- A WAIT instruction at a late die leaves its hart waiting, and its object as its bank has it. -/
theorem countBank_withheld {z : State} {k : WaitKind} {x : Nat} (hk : k.decidedAt = some x) (hl : (z.die x).late ≠ 0) (tid : Nat) (d : BitVec 5)
    (dead : Nat) (v : Word) (hold : Option Holding) : ∃ u, countBank tid (.next (z.finishAt k d dead v hold)) = .next u ∧
      StandsBy z u k d dead ∧ ∀ off, u.latch off = z.latch off := by
  have hw := finishAt_withheld hk hl d dead v hold
  have hdid : (z.finishAt k d dead v hold).did = .waits := (congrArg State.did hw :)
  have hh : (z.finishAt k d dead v hold).h = (z.startWait k d dead).h := (congrArg State.h hw :)
  refine ⟨(z.finishAt k d dead v hold).count tid 7 1, congrArg Host.Outcome.next (if_pos (by rw [hdid]; rfl)), ?_, fun off => ?_⟩
  · simp only [StandsBy, State.xr, State.h_count, hh]
    exact ⟨rfl, rfl, fun _ => rfl⟩
  · exact (latch_of_unsent (unsent_count ..) off).trans (congrArg (fun u : State => u.latch off) hw :)

theorem standsBy_congr {s z u : State} {k : WaitKind} {d : BitVec 5} {dead : Nat} (hh : z.h = s.h) (hgtb : z.gtb = s.gtb)
    (h : StandsBy z u k d dead) : StandsBy s u k d dead := by
  simpa only [StandsBy, State.xr, hh, hgtb] using h

theorem nowWaits_startWait (s : State) (k : WaitKind) (d : BitVec 5) (dead : Nat) : NowWaits s (s.startWait k d dead) k d dead :=
  ⟨rfl, rfl, rfl, fun _ => rfl⟩

/-! What the clearing and the rolling back of guarded data leave alone -/

/-- The state without what a latch guards: memory and its marks, and the journals and marks of regions and pages. -/
def State.unguarded (s : State) : State :=
  { s with mem := [], psn := [], ecc := [], tableRep := [], hub := Hub.reset, regions := [], grdMarks := [] }

theorem unguarded_clearGuards (s : State) (off num : Nat) : (s.clearGuards off num).unguarded = s.unguarded :=
  foldl_keeps State.unguarded (fun (t : State) (e : Nat × Region) => t.setRegion e.1 (some { e.2 with journal := [], marks := [] }))
    (fun _ _ => rfl) (s.naming 1 off) { s with grdMarks := s.grdMarks.filter (fun m => m.2 ≠ num) }

theorem unguarded_marked (s : State) (p : Tab Bool) : ({ s with psn := p } : State).unguarded = s.unguarded := rfl

theorem unguarded_undo (s : State) (w : Nat) (e : JEntry) : (s.undo w e).unguarded = s.unguarded := rfl

theorem unguarded_rollback (s : State) (r : Region) : (s.rollback r).unguarded = s.unguarded := by
  unfold State.rollback
  extract_lets s1
  refine (unguarded_marked s1 _).trans ?_
  exact foldl_keeps State.unguarded (fun (t : State) (e : JEntry) => t.undo r.width e) (fun t e => unguarded_undo t r.width e) _ s

theorem unguarded_mendGuards (s : State) (off num : Nat) : (s.mendGuards off num).unguarded = s.unguarded := by
  unfold State.mendGuards
  extract_lets s1
  refine (unguarded_marked s1 _).trans ?_
  exact foldl_keeps State.unguarded (fun (t : State) (e : Nat × Region) => t.rollback e.2) (fun t e => unguarded_rollback t e.2) _ s

section

variable {s z : State} (hz : z.unguarded = s.unguarded)

include hz

theorem h_of_unguarded : z.h = s.h := (congrArg State.h hz :)
theorem dies_of_unguarded : z.dies = s.dies := (congrArg State.dies hz :)
theorem gtb_of_unguarded : z.gtb = s.gtb := (congrArg State.gtb hz :)

end

/-! A latch taken -/

section

variable (off : Nat) (o : Obj) (b : Latch)

/-- What the taking of a latch shows to harts. -/
theorem sameParties_takeLatch (s : State) : (s.takeLatch off o b).h = s.h ∧ (s.takeLatch off o b).dies = s.dies ∧
    (s.takeLatch off o b).gtb = s.gtb := by
  obtain ⟨hh, -, hgtb, hdies⟩ := sameParties_setBody (s.clearGuards off o.num) off o (.latch (b.take s.h.hid s.gtb))
  have hc := unguarded_clearGuards s off o.num
  exact ⟨hh.trans (h_of_unguarded hc), hdies.trans (dies_of_unguarded hc), hgtb.trans (gtb_of_unguarded hc)⟩

theorem latch_takeLatch (s : State) : ∃ o2 b2, (s.takeLatch off o b).latch off = some (o2, b2) ∧ b2.held = true ∧ b2.holder = s.h.hid ∧
    b2.hold = b.hold + 1 ∧ b2.queue = b.queue := ⟨_, _, latch_setBody .., rfl, rfl, rfl, rfl⟩

theorem find_keep (h : Hart) (x : Holding) : (h.keep x).holds.find? (fun y => y.rcd == x.rcd) = some x := by
  have hnone : (h.holds.filter (fun y => y.rcd ≠ x.rcd)).find? (fun y => y.rcd == x.rcd) = none := by
    simp [List.find?_eq_none]
  simp only [Hart.keep, List.find?_append, hnone, Option.none_or, List.find?_singleton, beq_self_eq_true, if_true]

/-- The latch after it was taken and the taker's instruction has returned: the taker holds it. -/
theorem latch_taken {s z : State} (x : Holding) (hx : x.rcd = off) (hz : z.h = s.h) (d : BitVec 5) (v : Word) :
    let u := ((z.takeLatch off o b).setH (fun h => h.keep x)).bankReturn d v
    ∃ o2 b2, u.latch off = some (o2, b2) ∧ b2.held = true ∧ b2.holder = s.h.hid ∧ b2.hold = b.hold + 1 ∧ b2.queue = b.queue ∧
      u.h.holds.find? (fun y => y.rcd == off) = some x := by
  obtain ⟨o2, b2, hlatch, hheld, hholder, hhold, hqueue⟩ := latch_takeLatch off o b z
  refine ⟨o2, b2, (latch_bankReturn ..).trans hlatch, hheld, hholder.trans (congrArg Hart.hid hz), hhold, hqueue, ?_⟩
  rw [holds_bankReturn, ← hx]
  exact find_keep ..

end

/-! The grant of a latch to a hart in its queue -/

theorem grantQueued_empty {s : State} {off : Nat} {o : Obj} {b : Latch} (h : s.latch off = some (o, b)) (hq : b.queue = []) :
    s.grantQueued off = s := by
  simp only [State.grantQueued, h, hq]

/-- The home bank of a latch decides its waits (R24). -/
theorem decidedAt_of_acquires {k : WaitKind} {off : Nat} (h : k.acquires off = true) : k.decidedAt = some (combHome off).1 := by
  cases k <;> simp_all [WaitKind.acquires, WaitKind.decidedAt]

/-- A grant leaves the dies and the tenant of the hart in hand as they are, and the hart itself where the latch's home is late. -/
theorem grantQueued_leaves (s : State) (off : Nat) : (s.grantQueued off).dies = s.dies ∧ (s.grantQueued off).h.tid = s.h.tid ∧
    (¬HomeAnswers s off → (s.grantQueued off).h = s.h) := by
  unfold State.grantQueued
  split
  · exact ⟨rfl, rfl, fun _ => rfl⟩
  · next o b _ =>
    split
    · exact ⟨rfl, rfl, fun _ => rfl⟩
    · next hid dead rest _ =>
      extract_lets b0 b1 s1
      have hc := unguarded_clearGuards s off o.num
      obtain ⟨hh, -, -, hdies⟩ := sameParties_setBody (s.clearGuards off o.num) off o (.latch b1)
      have hh1 : s1.h = s.h := hh.trans (h_of_unguarded hc)
      have hd1 : s1.dies = s.dies := hdies.trans (dies_of_unguarded hc)
      clear_value s1
      split
      · next w _ =>
        split
        · next hacq =>
          refine ⟨(congrArg State.dies (unsent_respond ..) :).trans hd1, ?_, fun hl => ?_⟩
          · exact (congrArg (fun x : Bool × Nat × List Nat => x.2.1) (tids_respond s1 ..)).trans (congrArg Hart.tid hh1)
          · have hl1 : (s1.die (combHome off).1).late ≠ 0 := by rw [State.die, hd1]; exact hl
            exact (congrArg State.h (respond_withheld (decidedAt_of_acquires hacq) hl1 ..) :).trans hh1
        · exact ⟨hd1, congrArg Hart.tid hh1, fun _ => hh1⟩
      · exact ⟨hd1, congrArg Hart.tid hh1, fun _ => hh1⟩

/-! A latch released -/

section

variable (s : State) (off : Nat) (o : Obj) (b : Latch)

/-- A latch free again, before the oldest of its queue is granted it. -/
def State.freeLatch : State := (s.clearGuards off o.num).setBody off o (.latch { b with held := false, holder := 0xFFFF })

theorem sameParties_freeLatch : (s.freeLatch off o b).h = s.h ∧ (s.freeLatch off o b).dies = s.dies := by
  obtain ⟨hh, -, -, hdies⟩ := sameParties_setBody (s.clearGuards off o.num) off o (.latch { b with held := false, holder := 0xFFFF })
  have hc := unguarded_clearGuards s off o.num
  exact ⟨hh.trans (h_of_unguarded hc), hdies.trans (dies_of_unguarded hc)⟩

theorem releaseLatch_leaves : (s.releaseLatch off o b).dies = s.dies ∧ (s.releaseLatch off o b).h.tid = s.h.tid ∧
    (¬HomeAnswers s off → (s.releaseLatch off o b).h = s.h) := by
  obtain ⟨hh, hd⟩ := sameParties_freeLatch s off o b
  obtain ⟨hdies, htid, hlate⟩ := grantQueued_leaves (s.freeLatch off o b) off
  refine ⟨hdies.trans hd, htid.trans (congrArg Hart.tid hh), fun hl => (hlate ?_).trans hh⟩
  simpa only [HomeAnswers, State.die, hd] using hl

/-- A latch that no other hart waits for is free. -/
theorem releaseLatch_unqueued (hq : b.queue = []) : s.releaseLatch off o b = s.freeLatch off o b :=
  grantQueued_empty (latch_setBody ..) hq

theorem latch_freeLatch : ∃ o2 b2, (s.freeLatch off o b).latch off = some (o2, b2) ∧ b2.held = false ∧ b2.hold = b.hold :=
  ⟨_, _, latch_setBody .., rfl, rfl⟩

end

/-! The instructions -/

/-- A latch record of the hart's tenant. -/
theorem atLatch_own {s : State} {off : Nat} {o : Obj} {b : Latch} (hb : s.latch off = some (o, b)) (ht : o.tag = s.h.tid)
    (k : Option (WaitKind × Nat)) (d : BitVec 5) (f : Obj → Latch → Out) : s.atLatch k d off f = f o b := by
  simp only [State.atLatch, hb, ht, if_true]

section

variable {s : State} {d a : BitVec 5} {off : Nat} {o : Obj} {b : Latch} (hrec : RecordAt s (s.xr a) off) (hb : s.latch off = some (o, b))

include hrec hb

section

variable {t : BitVec 5} {r : BitVec 1} (ht : o.tag = s.h.tid) (hother : ¬(b.held = true ∧ b.holder = s.h.hid)) (hroom : s.h.holds.length < 8)

include ht hother hroom

/-- `acq` of another hart's latch or of a free one: it is taken, or refused under a past deadline, or its request waits (R352). -/
theorem exec_acq : exec (.acq d a t r) s = countBank s.h.tid (.next (
    if b.held = false ∧ b.queue = [] then
      (s.takeLatch off o b).finishAt (.acq off) d (s.deadline t r) (holdWord (b.hold + 1) stOK) (some (s.newHolding off o b))
    else if s.deadline t r ≤ s.gtb then s.finishAt (.acq off) d (s.deadline t r) (s.acqExpired b) none
    else (s.setBody off o (.latch { b with queue := b.queue ++ [(s.h.hid, s.deadline t r)] })).startWait (.acq off) d (s.deadline t r))) := by
  have hmine : (b.held && b.holder == s.h.hid) = false := by simpa using hother
  show execAcq d a t r s = _
  rw [execAcq, atRecord_at hrec, atLatch_own hb ht]
  simp only [hmine, Bool.false_eq_true, if_false, Nat.not_le.mpr hroom, Bool.and_eq_true, Bool.not_eq_true', List.isEmpty_iff, State.endsAt]
  split
  · rfl
  · split <;> rfl

/-- A free latch whose home answers is the hart's when `acq` returns. -/
theorem acq_takes (hfree : b.held = false) (hq : b.queue = []) (hhome : HomeAnswers s off) : exec (.acq d a t r) s =
    .next (((s.takeLatch off o b).setH (fun h => h.keep ⟨off, o.num, (b.hold + 1).toNat⟩)).bankReturn d
      (statusWord (b.hold + 1).toNat 0xFFF 0 0)) := by
  obtain ⟨hh, hdies, -⟩ := sameParties_takeLatch off o b s
  have hl : ((s.takeLatch off o b).die (combHome off).1).late = 0 := by rw [State.die, hdies]; exact hhome
  rw [exec_acq hrec hb ht hother hroom, if_pos ⟨hfree, hq⟩, finishAt_granted rfl hl]
  exact countBank_finishWait d _ (congrArg Hart.tid hh :)

/-- A free latch whose home is late is taken, and its taker waits for the result. -/
theorem acq_withheld (hfree : b.held = false) (hq : b.queue = []) (hhome : ¬HomeAnswers s off) : ∃ u, exec (.acq d a t r) s = .next u ∧
    StandsBy s u (.acq off) d (s.deadline t r) ∧ ∃ o2 b2, u.latch off = some (o2, b2) ∧ b2.held = true ∧ b2.holder = s.h.hid := by
  obtain ⟨hh, hdies, hgtb⟩ := sameParties_takeLatch off o b s
  have hl : ((s.takeLatch off o b).die (combHome off).1).late ≠ 0 := by rw [State.die, hdies]; exact hhome
  rw [exec_acq hrec hb ht hother hroom, if_pos ⟨hfree, hq⟩]
  obtain ⟨u, hu, hstand, hlatch⟩ := countBank_withheld (k := .acq off) rfl hl s.h.tid d (s.deadline t r) (holdWord (b.hold + 1) stOK)
    (some (s.newHolding off o b))
  obtain ⟨o2, b2, htaken, hheld, hholder, -⟩ := latch_takeLatch off o b s
  exact ⟨u, hu, standsBy_congr hh hgtb hstand, o2, b2, (hlatch off).trans htaken, hheld, hholder⟩

theorem acq_expired (hbusy : b.held = true ∨ b.queue ≠ []) (hpast : s.deadline t r ≤ s.gtb) (hhome : HomeAnswers s off) :
    exec (.acq d a t r) s = .next (s.bankReturn d (statusWord b.hold.toNat (s.holderRank b) 1 1)) := by
  have hc : ¬(b.held = false ∧ b.queue = []) := by rintro ⟨hf, hq⟩; simp [hf, hq] at hbusy
  rw [exec_acq hrec hb ht hother hroom, if_neg hc, if_pos hpast, finishAt_answered rfl hhome]
  exact countBank_finishWait d _ rfl

theorem acq_queues (hbusy : b.held = true ∨ b.queue ≠ []) (hfuture : s.gtb < s.deadline t r) : ∃ u, exec (.acq d a t r) s = .next u ∧
    BankWaits (s.setBody off o (.latch { b with queue := b.queue ++ [(s.h.hid, s.deadline t r)] })) u (.acq off) d (s.deadline t r) := by
  have hc : ¬(b.held = false ∧ b.queue = []) := by rintro ⟨hf, hq⟩; simp [hf, hq] at hbusy
  rw [exec_acq hrec hb ht hother hroom, if_neg hc, if_neg (Nat.not_le.mpr hfuture)]
  exact ⟨_, rfl, _, nowWaits_startWait .., rfl⟩

end

/-- `rel` of a holding: the latch has ended, the holding was revoked, or the latch is released (R353). -/
theorem exec_rel {x : Holding} (hx : s.h.holds.find? (fun y => y.rcd == off) = some x) :
    exec (.rel d a) s = countBank s.h.tid (.next (
      if o.num ≠ x.obj then (s.dropHolding off).finishWhen [(combHome off).1] d (statusWord 0 0xFFF 0 6)
      else if b.hold.toNat ≠ x.num ∨ b.held = false then
        (s.dropHolding off).finishWhen [(combHome off).1] d (statusWord x.num 0xFFF 0 3)
      else ((s.dropHolding off).releaseLatch off o b).finishWhen [(combHome off).1] d (statusWord x.num 0xFFF 0 0))) := by
  show execRel d a s = _
  rw [execRel, atRecord_at hrec]
  simp only [hx, hb, Bool.or_eq_true, decide_eq_true_eq, Bool.not_eq_true', State.endsAt]
  split
  · rfl
  · split <;> rfl

theorem exec_rel_none (ht : o.tag = s.h.tid) (hx : s.h.holds.find? (fun y => y.rcd == off) = none) :
    exec (.rel d a) s = countBank s.h.tid (.next (s.finishWhen [(combHome off).1] d (statusWord 0 0xFFF 7 16))) := by
  show execRel d a s = _
  rw [execRel, atRecord_at hrec]
  simp only [hx, hb, ht, if_true]
  rfl

/-- `mend` and `adopt` of a holding that the latch's bank does not know, or that is the hart's own, are ABANDONED (R354). -/
theorem revoke_abandoned (ht : o.tag = s.h.tid) (h : bits (s.xr d).toNat 32 32 ≠ b.hold.toNat ∨ b.held = false ∨ b.holder = s.h.hid)
    (mend : Bool) : revoke mend d a s = countBank s.h.tid (.next (s.finishWhen [(combHome off).1] d (statusWord b.hold.toNat 0xFFF 0 4))) := by
  have hc : (decide (bits (s.xr d).toNat 32 32 ≠ b.hold.toNat) || !b.held || b.holder == s.h.hid) = true := by
    simpa [or_assoc] using h
  rw [revoke, atRecord_at hrec, atLatch_own hb ht, if_pos hc]
  rfl

/-- `mend` and `adopt` of another hart's holding take the latch from it (R354). -/
theorem revoke_takes (ht : o.tag = s.h.tid) (hnum : bits (s.xr d).toNat 32 32 = b.hold.toNat) (hheld : b.held = true)
    (hother : b.holder ≠ s.h.hid) (hroom : s.h.holds.length < 8) (mend : Bool) : revoke mend d a s = countBank s.h.tid (.next (
      (((if mend then s.mendGuards off o.num else s).takeLatch off o b).setH (fun h => h.keep ⟨off, o.num, (b.hold + 1).toNat⟩)).finishWhen
        (s.guardDies off o.num) d (statusWord (b.hold + 1).toNat 0xFFF 0 0))) := by
  have hc : ¬(decide (bits (s.xr d).toNat 32 32 ≠ b.hold.toNat) || !b.held || b.holder == s.h.hid) = true := by
    simp [hnum, hheld, hother]
  rw [revoke, atRecord_at hrec, atLatch_own hb ht, if_neg hc, if_neg (Nat.not_le.mpr hroom)]
  rfl

section

variable {x : Holding} (hx : s.h.holds.find? (fun y => y.rcd == off) = some x)

include hx

/-- `rel` of the hart's own holding, at a home that answers. -/
theorem rel_releases (hnum : o.num = x.obj) (hhold : b.hold.toNat = x.num) (hheld : b.held = true) (hhome : HomeAnswers s off) :
    exec (.rel d a) s = .next (((s.dropHolding off).releaseLatch off o b).bankReturn d (statusWord x.num 0xFFF 0 0)) := by
  obtain ⟨hdies, htid, -⟩ := releaseLatch_leaves (s.dropHolding off) off o b
  rw [exec_rel hrec hb hx, if_neg (not_not.mpr hnum), if_neg (by simp [hhold, hheld])]
  refine countBank_answered d _ htid ?_
  rw [slowest_one, State.die, hdies]
  exact if_pos hhome

theorem rel_closed (hnum : o.num ≠ x.obj) (hhome : HomeAnswers s off) :
    exec (.rel d a) s = .next ((s.dropHolding off).bankReturn d (statusWord 0 0xFFF 0 6)) := by
  rw [exec_rel hrec hb hx, if_pos hnum]
  exact countBank_answered (u := s.dropHolding off) d _ rfl ((slowest_one ..).trans (if_pos hhome))

theorem rel_revoked (hnum : o.num = x.obj) (hgone : b.hold.toNat ≠ x.num ∨ b.held = false) (hhome : HomeAnswers s off) :
    exec (.rel d a) s = .next ((s.dropHolding off).bankReturn d (statusWord x.num 0xFFF 0 3)) := by
  rw [exec_rel hrec hb hx, if_neg (not_not.mpr hnum), if_pos hgone]
  exact countBank_answered (u := s.dropHolding off) d _ rfl ((slowest_one ..).trans (if_pos hhome))

/-- `rel` at a late home waits for its answer. -/
theorem rel_held (hhome : ¬HomeAnswers s off) : ∃ u, exec (.rel d a) s = .next u ∧ HeldFor u s.h.pc (partyWord 1 (combHome off).1) := by
  rw [exec_rel hrec hb hx]
  have hslow : ∀ z : State, z.dies = s.dies → z.slowest [(combHome off).1] = some (combHome off).1 := fun z hz => by
    rw [slowest_one, State.die, hz]
    exact if_neg hhome
  split
  · exact countBank_held (u := s.dropHolding off) d _ (hslow _ rfl)
  · split
    · exact countBank_held (u := s.dropHolding off) d _ (hslow _ rfl)
    · obtain ⟨hdies, -, hlate⟩ := releaseLatch_leaves (s.dropHolding off) off o b
      have hheld := countBank_held (tid := s.h.tid) d (statusWord x.num 0xFFF 0 0) (hslow _ hdies)
      rwa [hlate hhome] at hheld

end

/-- `mend` and `adopt` return once every die that has a part has answered. -/
theorem revoke_returns (ht : o.tag = s.h.tid) (hnum : bits (s.xr d).toNat 32 32 = b.hold.toNat) (hheld : b.held = true)
    (hother : b.holder ≠ s.h.hid) (hroom : s.h.holds.length < 8) (hprompt : Prompt s) (mend : Bool) :
    let z := if mend then s.mendGuards off o.num else s
    let x : Holding := ⟨off, o.num, (b.hold + 1).toNat⟩
    z.h = s.h ∧ revoke mend d a s =
      .next (((z.takeLatch off o b).setH (fun h => h.keep x)).bankReturn d (statusWord (b.hold + 1).toNat 0xFFF 0 0)) := by
  intro z x
  have hz : z.unguarded = s.unguarded := by
    unfold z
    split
    · exact unguarded_mendGuards ..
    · rfl
  obtain ⟨hh, hdies, -⟩ := sameParties_takeLatch off o b z
  refine ⟨h_of_unguarded hz, ?_⟩
  rw [revoke_takes hrec hb ht hnum hheld hother hroom]
  have hslow : ((z.takeLatch off o b).setH (fun h => h.keep x)).slowest (s.guardDies off o.num) = none :=
    (slowest_congr ((State.dies_setH ..).trans (hdies.trans (dies_of_unguarded hz))) _).trans (slowest_prompt hprompt _)
  exact countBank_answered d _ (congrArg Hart.tid (hh.trans (h_of_unguarded hz)) :) hslow

end

end Sys2Proof.Machine

namespace Sys2Proof.Claims

open Sys2Proof.Machine

/-- Settles O23: each instruction by the lemma of its outcome, at a home that answers and at a late one. -/
theorem latchResults : Obligations.LatchResults := by
  unfold Obligations.LatchResults
  intro s d a t r off o b hrec hb ht mine kept
  refine ⟨fun hother hroom => ⟨fun hfree hq => ?_, fun hbusy => ⟨fun hpast hhome => ?_, acq_queues hrec hb ht hother hroom hbusy⟩⟩,
    fun x hx => ⟨fun hhome => ⟨fun hnum hhold hheld => ?_, fun hnum => ?_, fun hnum hgone => ?_⟩, rel_held hrec hb hx⟩,
    fun hx hhome => ?_, fun hnum hheld hother hroom hprompt => ⟨?_, ?_⟩, fun habandoned hhome i hi => ?_⟩
  · by_cases hhome : HomeAnswers s off
    · exact ⟨_, acq_takes hrec hb ht hother hroom hfree hq hhome,
        fun _ => ⟨atBank_bankReturn .., latch_taken off o b _ rfl rfl ..⟩, fun hlate => absurd hhome hlate⟩
    · obtain ⟨u, hu, hstand⟩ := acq_withheld hrec hb ht hother hroom hfree hq hhome
      exact ⟨u, hu, fun hnow => absurd hnow hhome, fun _ => hstand⟩
  · exact ⟨_, acq_expired hrec hb ht hother hroom hbusy hpast hhome, atBank_bankReturn ..⟩
  · refine ⟨_, rel_releases hrec hb hx hnum hhold hheld hhome, atBank_bankReturn .., fun hq => ?_⟩
    rw [releaseLatch_unqueued _ _ _ _ hq, holds_bankReturn, latch_bankReturn]
    obtain ⟨hh, -⟩ := sameParties_freeLatch (s.dropHolding off) off o b
    exact ⟨congrArg Hart.holds hh, latch_freeLatch ..⟩
  · exact ⟨_, rel_closed hrec hb hx hnum hhome, atBank_bankReturn ..⟩
  · exact ⟨_, rel_revoked hrec hb hx hnum hgone hhome, atBank_bankReturn ..⟩
  · exact ⟨_, (exec_rel_none hrec hb ht hx).trans (countBank_answered d _ rfl ((slowest_one ..).trans (if_pos hhome))), atBank_bankReturn ..⟩
  · obtain ⟨hz, hexec⟩ := revoke_returns hrec hb ht hnum hheld hother hroom hprompt true
    exact ⟨_, hexec, atBank_bankReturn .., latch_taken off o b _ rfl hz ..⟩
  · obtain ⟨hz, hexec⟩ := revoke_returns hrec hb ht hnum hheld hother hroom hprompt false
    exact ⟨_, hexec, atBank_bankReturn .., latch_taken off o b _ rfl hz ..⟩
  · have hret := fun mend => (revoke_abandoned hrec hb ht habandoned mend).trans
      (countBank_answered d _ rfl ((slowest_one ..).trans (if_pos hhome)))
    simp only [List.mem_cons, List.not_mem_nil, or_false] at hi
    rcases hi with rfl | rfl
    · exact ⟨_, hret true, atBank_bankReturn ..⟩
    · exact ⟨_, hret false, atBank_bankReturn ..⟩

end Sys2Proof.Claims
end

section
/-! PROOFS. The issue of commands (R137, R138) and the reading of their status (R146, R147). -/

namespace Sys2Proof.Machine

open Sys2Proof.Claims

/-! Issue -/

theorem exec_issueTable {d a t : BitVec 5} {r : BitVec 1} {x : Instr × Nat} (hx : x ∈ issueTable d a t r) (s : State) :
    exec x.1 s = issue x.2 d a t r s := by
  simp only [issueTable, List.mem_cons, List.not_mem_nil, or_false] at hx
  rcases hx with rfl | rfl | rfl | rfl | rfl <;> rfl

/-- A command that asks no far bank for a rank, or whose far bank has told it, goes on (R139). -/
theorem atTop_of_topKnown {s : State} {c : Cmd} (h : TopKnown s c) (f : State → Out) : s.atTop c f = f s := by
  unfold State.atTop
  split
  · rfl
  · next off o w hg =>
    obtain ⟨x, hx, hparty, hsince⟩ := h off o w hg
    simp only [hx, Option.filter_some, hparty, beq_self_eq_true, if_true, hsince]

/-- The ticket of a command that issued (R138). -/
theorem ticket_ok (e : Nat) (q : BitVec 32) : ticket e q 0 stOK = word (e * 2 ^ 48 + q.toNat * 2 ^ 16) := by
  rw [ticket, stOK, Nat.zero_mul, Nat.add_zero]

/-- A command that passes its checks, at an engine with a free slot and lines whose homes confirm at once, is issued. -/
theorem issueCmd_issues {u : State} {e : Nat} {c : Cmd} {bs : List Byte} (hreason : u.cmdReason e c bs = 0) (hdrain : u.drainUser c = none)
    (hroom : (u.engine e).queue.length < 4) (hpend : (u.engine e).pend = []) (hhomes : u.slowest c.homes = none) (d : BitVec 5) (dead : Nat) :
    u.issueCmd e c bs d dead =
      .next ((u.enqueue e c).finishWait d (word (e * 2 ^ 48 + (u.engine e).seq.toNat * 2 ^ 16))) := by
  simp only [State.issueCmd, hreason, hdrain, hroom, hpend, hhomes, ticket_ok, List.isEmpty_nil, decide_true, Bool.and_self, if_true]

theorem issue_issues {s u : State} {kind e : Nat} {a : BitVec 5} {c : Cmd} {bs : List Byte} (h : Issues s kind a u e c bs) (d t : BitVec 5)
    (r : BitVec 1) : issue kind d a t r s =
      .next ((u.enqueue e c).finishWait d (word (e * 2 ^ 48 + (u.engine e).seq.toNat * 2 ^ 16))) := by
  obtain ⟨s1, s2, pl, v, haccess, hread, rfl, hlease, hlines, htop, hreason, hdrain, hroom, hpend, hhomes⟩ := h
  simp only [issue, State.atPlace, haccess, hread, Bool.false_eq_true, if_false, hlease, atTop_of_topKnown htop, hlines]
  exact issueCmd_issues hreason hdrain hroom hpend hhomes d _

/-! Status -/

theorem exec_estat (d a : BitVec 5) (s : State) : exec (.estat d a) s = .next (s.retireX d (s.cmdStatus s.h.tid (s.xr a))) := rfl

/-- The engine and the sequence number of a ticket, as the wait for its command. -/
def ticketWait (tk : Word) : WaitKind := .ewait (bits tk.toNat 48 8) (BitVec.ofNat 32 (bits tk.toNat 16 32))

/-- The engine's die ends the wait for a command (R24). -/
theorem decidedAt_ticketWait (tk : Word) : (ticketWait tk).decidedAt = some (engineDie (bits tk.toNat 48 8)) := rfl

section Ewait

variable (s : State) (d a t : BitVec 5) (r : BitVec 1)

/-- `ewait` by the status code in the low byte of its word (R147). -/
theorem exec_ewait : exec (.ewait d a t r) s =
    let w := s.cmdStatus s.h.tid (s.xr a)
    if w.toNat % 256 = stUNKNOWN then .next (s.finishWait d w)
    else if w.toNat % 256 ≠ stBUSY then .next (s.finishAt (ticketWait (s.xr a)) d (s.deadline t r) w none)
    else if s.deadline t r ≤ s.gtb then
      .next (s.finishAt (ticketWait (s.xr a)) d (s.deadline t r) (cmdWord 0 0xFFF 0 stEXPIRED) none)
    else .next (s.startWait (ticketWait (s.xr a)) d (s.deadline t r)) := by
  show execEwait d a t r s = _
  simp only [execEwait, bits_zero_low, Nat.reducePow, ticketWait]

variable {s d a t r}

theorem ewait_unknown (h : (s.cmdStatus s.h.tid (s.xr a)).toNat % 256 = stUNKNOWN) :
    exec (.ewait d a t r) s = .next (s.finishWait d (s.cmdStatus s.h.tid (s.xr a))) :=
  (exec_ewait ..).trans (if_pos h)

/-- A final status goes through the engine's die. -/
theorem ewait_final (hbusy : (s.cmdStatus s.h.tid (s.xr a)).toNat % 256 ≠ stBUSY)
    (hunknown : (s.cmdStatus s.h.tid (s.xr a)).toNat % 256 ≠ stUNKNOWN) :
    exec (.ewait d a t r) s =
      .next (s.finishAt (ticketWait (s.xr a)) d (s.deadline t r) (s.cmdStatus s.h.tid (s.xr a)) none) :=
  (exec_ewait ..).trans ((if_neg hunknown).trans (if_pos hbusy))

theorem ewait_busy (hbusy : (s.cmdStatus s.h.tid (s.xr a)).toNat % 256 = stBUSY) (hfuture : s.gtb < s.deadline t r) :
    exec (.ewait d a t r) s = .next (s.startWait (ticketWait (s.xr a)) d (s.deadline t r)) := by
  rw [exec_ewait]
  simp only [hbusy, ne_eq, not_true_eq_false, if_false, Nat.not_le.mpr hfuture, show stBUSY ≠ stUNKNOWN by decide]

end Ewait

end Sys2Proof.Machine

namespace Sys2Proof.Claims

open Sys2Proof.Machine

/-- Settles O26: the issue by its conditions in the order of R138, `ewait` by the status it reads and whether the engine's die answers. -/
theorem commandIssue : Obligations.CommandIssue := by
  unfold Obligations.CommandIssue
  refine ⟨fun s u d a t r e c bs x hx h => ?issue, fun s d a t r => ⟨?estat, fun h => ?final, fun hbusy hunknown hlate => ?withheld,
    fun hbusy hfuture => ?busy⟩⟩
  case issue => exact ⟨_, (exec_issueTable hx s).trans (issue_issues h d t r), outcome_finishWait ..⟩
  case estat => exact ⟨_, exec_estat d a s, resultX_retireX ..⟩
  case final =>
    by_cases hunknown : (s.cmdStatus s.h.tid (s.xr a)).toNat % 256 = stUNKNOWN
    · exact ⟨_, ewait_unknown hunknown, outcome_finishWait ..⟩
    · obtain ⟨hbusy, hanswers⟩ := h.resolve_left hunknown
      refine ⟨_, ewait_final hbusy hunknown, ?_⟩
      rw [finishAt_answered (decidedAt_ticketWait ..) hanswers]
      exact outcome_finishWait ..
  case withheld => exact ⟨_, ewait_final hbusy hunknown, (finishAt_late (decidedAt_ticketWait ..) hlate ..).1⟩
  case busy => exact ⟨_, ewait_busy hbusy hfuture, nowWaits_startWait ..⟩

end Sys2Proof.Claims
end

section
/-! PROOFS. The tile instructions (R148-R150). -/

namespace Sys2Proof.Machine

open Sys2Proof.Claims

/-! The tile's tenant -/

section Tag

variable {s : State} {n : BitVec 4}

theorem atTile_own (h : (s.tile s.h.core n.toNat).tag = s.h.tid) (f : Tile → Out) : s.atTile n f = f (s.tile s.h.core n.toNat) :=
  if_neg (not_not_intro h)

theorem atTile_foreign (h : (s.tile s.h.core n.toNat).tag ≠ s.h.tid) (f : Tile → Out) :
    s.atTile n f = .next (s.trap cPROT (tilePointer s.h.core n.toNat)) :=
  if_pos h

end Tag

/-- The result word of a tile with OK is its state alone (R150). -/
theorem tileWord_ok (x : Tile) : tileWord x stOK = word (x.st * 2 ^ 32) := by
  rw [tileWord, stOK, Nat.add_zero]

/-! The instructions on a tile of the own tenant -/

section Own

variable {s : State} {n : BitVec 4} (hown : (s.tile s.h.core n.toNat).tag = s.h.tid)

include hown

theorem exec_tstat (d : BitVec 5) : exec (.tstat d n) s = .next (s.retireX d
    (word ((s.tile s.h.core n.toNat).tag * 2 ^ 32 + (s.tile s.h.core n.toNat).eng * 2 ^ 24 + (s.tile s.h.core n.toNat).st))) := by
  show execTstat d n s = _
  rw [execTstat, atTile_own hown]

/-- A tile that neither fills nor drains is not waited for (R150). -/
theorem twait_steady (hfill : (s.tile s.h.core n.toNat).st ≠ 1) (hdrain : (s.tile s.h.core n.toNat).st ≠ 3) (d t : BitVec 5) (r : BitVec 1) :
    exec (.twait d n t r) s = .next (s.finishWait d (word ((s.tile s.h.core n.toNat).st * 2 ^ 32))) := by
  show execTwait d n t r s = _
  rw [execTwait, atTile_own hown, ← tileWord_ok]
  simp only [beq_eq_false_iff_ne.mpr hfill, beq_eq_false_iff_ne.mpr hdrain, Bool.or_self, Bool.not_false, if_true]

/-! `tset` from one state to another -/

variable (fr nx : Nat) (d : BitVec 5)

theorem tset_used {h : Nat} (huser : s.tileUser s.h.core n.toNat = some h) : tset fr nx d n s = .next (s.stall (partyWord 4 h)) := by
  rw [tset, atTile_own hown, huser]

variable (hidle : s.tileUser s.h.core n.toNat = none)

include hidle

theorem tset_moves (hst : (s.tile s.h.core n.toNat).st = fr) : tset fr nx d n s =
    .next ((s.setTile s.h.core n.toNat (fun y => { y with st := nx })).retireX d (word (nx * 2 ^ 32))) := by
  rw [tset, atTile_own hown, hidle]
  simp only [hst, if_true, tileWord_ok]

theorem tset_refuses (hst : (s.tile s.h.core n.toNat).st ≠ fr) :
    tset fr nx d n s = .next (s.retireX d (word ((s.tile s.h.core n.toNat).st * 2 ^ 32 + 16))) := by
  rw [tset, atTile_own hown, hidle]
  simp only [hst, if_false, tileWord, stREFUSED]

end Own

/-- The two forms of `tset` with the states they move from and to (R149). -/
theorem exec_tset {d : BitVec 5} {n : BitVec 4} {e : Instr × Nat × Nat} (he : e ∈ [(Instr.tsetReady d n, 0, 2), (.tsetEmpty d n, 2, 0)])
    (s : State) : exec e.1 s = tset e.2.1 e.2.2 d n s := by
  simp only [List.mem_cons, List.not_mem_nil, or_false] at he
  rcases he with rfl | rfl <;> rfl

/-- Another tenant's tile takes PROT with its pointer (R148). -/
theorem exec_tile_foreign {s : State} {d t : BitVec 5} {n : BitVec 4} {r : BitVec 1} {i : Instr}
    (hi : i ∈ [Instr.tstat d n, .twait d n t r, .tsetReady d n, .tsetEmpty d n]) (h : (s.tile s.h.core n.toNat).tag ≠ s.h.tid) :
    exec i s = .next (s.trap cPROT (tilePointer s.h.core n.toNat)) := by
  simp only [List.mem_cons, List.not_mem_nil, or_false] at hi
  rcases hi with rfl | rfl | rfl | rfl
  · show execTstat d n s = _
    rw [execTstat, atTile_foreign h]
  · show execTwait d n t r s = _
    rw [execTwait, atTile_foreign h]
  · show tset 0 2 d n s = _
    rw [tset, atTile_foreign h]
  · show tset 2 0 d n s = _
    rw [tset, atTile_foreign h]

end Sys2Proof.Machine

namespace Sys2Proof.Claims

open Sys2Proof.Machine

/-- Settles O27: the tile's tenant decides first, then for `tset` the vector side that uses the tile, then the tile's state. -/
theorem tileResults : Obligations.TileResults := by
  unfold Obligations.TileResults
  intro s d t n r x
  refine ⟨fun hown => ⟨?tstat, fun hfill hdrain => ?twait, fun e he => ?tset⟩, fun hforeign i hi => ?foreign⟩
  case tstat => exact ⟨_, exec_tstat hown d, resultX_retireX ..⟩
  case twait => exact ⟨_, twait_steady hown hfill hdrain d t r, outcome_finishWait ..⟩
  case tset =>
    rw [exec_tset he]
    exact ⟨fun _ huser => tset_used hown _ _ d huser,
      fun hidle hst => ⟨_, tset_moves hown _ _ d hidle hst, resultX_retireX ..⟩,
      fun hidle hst => ⟨_, tset_refuses hown _ _ d hidle hst, resultX_retireX ..⟩⟩
  case foreign => exact exec_tile_foreign hi hforeign

end Sys2Proof.Claims
end

section
/-! PROOFS. Loads by a tenant without a key (R78): each read leaves a record in the machine-check ring, also where no error stands in memory
that a read could find. -/

namespace Sys2Proof.Machine

open Sys2Proof.Claims

/-! The bytes of a record -/

/-- The first word of a machine-check record (R434). -/
def mcHead (kind die tag hid unit : Nat) : Word := word (kind * 2 ^ 56 + die * 2 ^ 48 + tag * 2 ^ 38 + recordHid hid * 2 ^ 16 + unit)

theorem byteAt_putRecord (s : State) (r : List Word) {i : Nat} (hi : i < (r.flatMap (fun w => leBytes 8 w.toNat)).length) :
    (s.putRecord r).byteAt (mcAt s.hub.mchead + i) = (r.flatMap (fun w => leBytes 8 w.toNat)).getD i 0 := by
  show (s.storeDev _ _).byteAt _ = _
  rw [State.storeDev, byteAt_store, if_pos (by omega), Nat.add_sub_cancel_left]

/-- With room in the ring, the first word of a record stands at its place (R435). -/
theorem byteAt_mcheck_head {s : State} (hroom : (s.hub.mchead + 2 ^ 32 - s.hub.mctail) % 2 ^ 32 < 4096) (kind die tag hid unit : Nat) (a : Word)
    (d : Nat) {i : Nat} (hi : i < 8) :
    (s.mcheck kind die tag hid unit a d).byteAt (mcAt s.hub.mchead + i) = BitVec.ofNat 8 ((mcHead kind die tag hid unit).toNat / 256 ^ i) := by
  obtain ⟨t, ht, hm⟩ := mcheck_cases s kind die tag hid unit a d
  rw [if_pos hroom] at ht
  have hmem : (s.mcheck kind die tag hid unit a d).mem = t.mem := by
    rcases hm with hm | ⟨l, hm⟩
    · rw [hm]
    · rw [hm, State.mem_hostPost]
  have hbyte : t.byteAt (mcAt s.hub.mchead + i) = BitVec.ofNat 8 ((mcHead kind die tag hid unit).toNat / 256 ^ i) := by
    rw [ht, byteAt_putRecord s _ (by rw [length_record]; omega), ← getD_leBytes 8 _ i hi]
    simp only [mcWords, List.flatMap_cons, mcHead]
    rw [List.getD_append _ _ _ _ (by rw [length_leBytes]; exact hi)]
  exact (congrArg (Tab.get 0 · _) hmem).trans hbyte

theorem mem_withFree (s : State) (n : Nat) : ({ s with free := n } : State).mem = s.mem := rfl

/-- A read without a key leaves a record of KIND 9 (R78). -/
theorem read_unkeyed {s : State} {tag loc : Nat} (hmain : isMain loc = true) (hkey : s.hasKey tag = false) (hid n : Nat) :
    (s.read tag hid loc n).1 = { s.mcheckMem 9 tag hid loc with free := s.free + 1 } := by
  have hunread : (isMain loc && !s.hasKey tag) = true := by rw [hmain, hkey]; rfl
  exact congrArg Prod.fst (if_pos hunread)

/-! A hart of a tenant without a key -/

/-- A hart of tenant 1, whose key is not installed, at a word of the vector side: one element of bf16, from a page at 0x40_0000 that a cached
translation maps and that is the tenant's own. Memory holds no byte but 0, and no error. -/
def unkeyed : State :=
  { State.reset with
    h := { Hart.blank with
           hid := 1, tid := 1, live := true, slot := some 0, mode := .s, vpc := 0x400000#64, conv := [(0x400000#64, 0)],
           run := some { addr := 0x400000#64, seq := 0, rm := 0, fen := 0, fxf := 0, dscale := 0, qcfg := 0, rchk := 0, flags := 0 },
           vx := { VCtx.dead with vl := 1, vtype := { vill := false, g := 0, ty := 2, sw := 1 }, sc := [(8, 0x400000#64)] } },
    tenants := [(1, { Tenant.reset with ptbase := 0x100001#64 })],
    rob := [(64, word (2 ^ 63 + 2 ^ 32))],
    tlb := [{ tag := 1, va := 0, sz := 30, leaf := word (5 * 2 ^ 60 + 0x1F), leafAt := 0x200000, tables := [2] }] }

/-- The place of its loads. -/
def unkeyedPlace : Place := ⟨0x400000, none, none⟩

theorem unkeyed_access {n : Nat} (hn : n = 2 ∨ n = 64) :
    unkeyed.access unkeyed.h.actor .load 0x400000#64 n n = (unkeyed, .ok unkeyedPlace) := by
  rcases hn with rfl | rfl
  · decide +kernel
  · decide +kernel

/-- Its read writes the number of the record's KIND, 9, into the ring. -/
theorem byteAt_unkeyed_read (n : Nat) : (unkeyed.readAt unkeyed.h.actor unkeyedPlace n).1.byteAt (mcAt 0 + 7) = 9 := by
  have hread := read_unkeyed (s := unkeyed) (tag := 1) (loc := 0x400000) (by decide) (by decide) 1 n
  have hmem := (congrArg State.mem hread).trans (mem_withFree ..)
  refine (congrArg (Tab.get 0 · (mcAt 0 + 7)) hmem).trans ?_
  exact (byteAt_mcheck_head (s := unkeyed) (by decide) 9 _ 1 1 _ _ 0 (by decide : 7 < 8)).trans (by decide +kernel)

/-- No state with the memory that this read leaves has the memory from before it. -/
theorem not_sameMemory_unkeyed {n : Nat} {r : State} (h : r.mem = (unkeyed.readAt unkeyed.h.actor unkeyedPlace n).1.mem) :
    ¬SameMemory unkeyed r := by
  intro hsame
  have hzero : r.byteAt (mcAt 0 + 7) = 0 := hsame.2 rfl (mcAt 0 + 7)
  have hnine : r.byteAt (mcAt 0 + 7) = 9 := (congrArg (Tab.get 0 · (mcAt 0 + 7)) h).trans (byteAt_unkeyed_read n)
  exact absurd (hzero.symm.trans hnine) (by decide)

theorem unkeyed_elemChecks : unkeyed.elemChecks .load (unitWalk unkeyed.h 0x400000#64 0) 0 = (unkeyed, .ok [unkeyedPlace]) := by
  decide +kernel

theorem unkeyed_unwatched : unkeyed.breakpoints 2 unkeyed.h.vaddr = [] := by decide +kernel

theorem unkeyed_ready {n : Need} (h : unkeyed.h.issueOk n = true) : MemReady unkeyed n 0 none :=
  ⟨h, by decide, nofun, rfl, unkeyed_unwatched⟩

/-! Described blocks -/

/-- A block without an enabled exception takes no FPE (R198). -/
theorem firstTrap_disabled {b : Block} (h : b.fen = 0) (l : List (Nat × ERes)) : b.firstTrap l = none := by
  have hfen : ∀ fl, flTraps b.fen fl = false := fun fl => by simp [h, flTraps, flHas, fenFlags]
  simp [Block.firstTrap, hfen]

/-- The elements of a block change no state where none of them is watched. -/
theorem blkElems_unwatched {s : State} (h : s.breakpoints 2 s.h.vaddr = []) (m cut e0 : Nat) (k : DBlk) (p : Word) (l : List Nat) :
    ∃ res, s.blkElems m cut e0 k p l = (s, res, none) := by
  induction l with
  | nil => exact ⟨_, rfl⟩
  | cons i l ih =>
    obtain ⟨res, hres⟩ := ih
    simp only [State.blkElems, reach_unwatched h, ite_self, hres]
    split
    · exact ⟨_, rfl⟩
    · exact ⟨_, rfl⟩

/-- VLDD of a vector that its first block holds reads that block, and no other (R168). -/
theorem blocks_first {s s1 s2 : State} {addr : Nat → Option Word} {p : Word} {pl : Place} {k : DBlk} (h : s.breakpoints 2 s.h.vaddr = [])
    (hvl : 0 < s.h.vx.vl) (haddr : addr 0 = some p) (hacc : s.access s.h.actor .load p 64 64 = (s1, .ok pl))
    (hread : s1.readBlk pl = (s2, k)) (hcount : s.h.vx.vl ≤ k.fmt.count) (m : Nat) :
    ∃ res, State.blocks addr m 0 (s.h.vx.vl + 1) 0 0 s [] = (s2, { res := res, fin := .all, addr := 0 }) := by
  have h2 : Still s s2 := by
    have hs := still_readAt s1 s1.h.actor pl 64
    simp only [State.readBlk, Prod.mk.injEq] at hread
    rw [hread.1] at hs
    exact (access_passed hacc).still.trans hs
  have hbp2 : s2.breakpoints 2 s2.h.vaddr = [] := by
    rw [(AsideFlags.of_still h2).breakpoints, h2.h]
    exact h
  obtain ⟨n, hn⟩ : ∃ n, s.h.vx.vl = n + 1 := ⟨s.h.vx.vl - 1, by omega⟩
  obtain ⟨res, hres⟩ := blkElems_unwatched hbp2 m 0 0 k p (List.range k.fmt.count)
  refine ⟨res, ?_⟩
  rw [hn] at hcount ⊢
  simp only [State.blocks, hn, haddr, reach_unwatched h, ite_self, hacc, hread, hres, h2.h, Option.isNone_some, Option.getD_some,
    Nat.le_zero_eq, Nat.succ_ne_zero, Nat.zero_add, if_false, List.nil_append, hcount, if_true, Bool.false_eq_true]

/-- Every described format has an element in each block (R167). -/
theorem count_pos (k : DBlk) : 1 ≤ k.fmt.count := by
  unfold DBlk.fmt dFmt
  split
  · decide
  · split <;> decide

theorem exec_vldd_issued {s : State} {v : BitVec 6} (h : s.h.issueOk (needLoad describedType v.toNat s.h) = true) (c : BitVec 1) (b : BitVec 5)
    (m : BitVec 3) : exec (.vldd c v b m) s = .next (vlddRun (blkAddr b.toNat) v.toNat m.toNat false s) := by
  show execVldd c v b m s = _
  rw [execVldd, State.vissue, if_pos h]

/-- VLDD of a vector that its first block holds, without an enabled exception, leaves memory as that block's read does. -/
theorem mem_vlddRun_first {s s1 s2 : State} {addr : Hart → Nat → Option Word} {p : Word} {pl : Place} {k : DBlk}
    (hr : (s.core s.h.core).recheck = []) (hbp : s.breakpoints 2 s.h.vaddr = []) (hcut : s.h.cut = 0) (hvl : 0 < s.h.vx.vl)
    (haddr : addr s.h 0 = some p) (hacc : s.access s.h.actor .load p 64 64 = (s1, .ok pl)) (hread : s1.readBlk pl = (s2, k))
    (hcount : s.h.vx.vl ≤ k.fmt.count) (hfen : ∀ b, s2.h.run = some b → b.fen = 0) (d m : Nat) :
    (vlddRun addr d m false s).mem = s2.mem := by
  obtain ⟨res, hblocks⟩ := blocks_first hbp hvl haddr hacc hread hcount m
  have hquiet : s2.h.run.bind (fun b => b.firstTrap res) = none := by
    cases hrun : s2.h.run with
    | none => rfl
    | some b => exact firstTrap_disabled (hfen b hrun) res
  simp only [vlddRun, drainRechecks_nil hr, hcut, hblocks, State.vlddEnd, hquiet]
  rfl

end Sys2Proof.Machine

namespace Sys2Proof.Claims

open Sys2Proof.Machine

/-- Refutes O43: a load by a tenant without a key completes with a poisoned element and leaves a record in the machine-check ring, though no
error stands in memory. -/
theorem not_vectorLoads : ¬Obligations.VectorLoads := by
  unfold Obligations.VectorLoads
  intro h
  have hload := h unkeyed unkeyed 0 2 8 0 0 0 0 0 0 _ List.mem_cons_self (unkeyed_ready (by decide))
  obtain ⟨-, -, -, -, hone⟩ := hload
  obtain ⟨s2, x, bad, hread⟩ : ∃ s2 x bad, unkeyed.readAt unkeyed.h.actor unkeyedPlace 2 = (s2, x, bad) := ⟨_, _, _, rfl⟩
  obtain ⟨r, -, ⟨-, honly⟩, hsame⟩ := hone 0 unkeyed unkeyedPlace s2 x bad (by decide) (by decide) rfl unkeyed_elemChecks hread
  refine not_sameMemory_unkeyed (n := 2) ?_ hsame
  rw [hread]
  exact (congrArg State.mem honly :)

/-- Refutes O45: so does VLDD of a block that the tenant reads without a key. -/
theorem not_describedBlocks : ¬Obligations.DescribedBlocks := by
  unfold Obligations.DescribedBlocks
  intro h
  have hissue : unkeyed.h.issueOk (needLoad describedType 2 unkeyed.h) = true := by decide
  obtain ⟨-, -, hone⟩ := (h unkeyed unkeyed 0 2 8 0 0 0 0).1 _ List.mem_cons_self (unkeyed_ready hissue)
  obtain ⟨s2, k, hread⟩ : ∃ s2 k, unkeyed.readBlk unkeyedPlace = (s2, k) := ⟨_, _, rfl⟩
  have hacc := unkeyed_access (.inr rfl)
  have hcount : unkeyed.h.vx.vl ≤ k.fmt.count := count_pos k
  obtain ⟨r, hr, -, hsame, -⟩ := hone _ unkeyed unkeyedPlace s2 k rfl (by decide) rfl hacc hread hcount (firstTrap_disabled rfl _)
  refine not_sameMemory_unkeyed (n := 64) ?_ hsame
  have hs2 : s2 = (unkeyed.readAt unkeyed.h.actor unkeyedPlace 64).1 := (congrArg Prod.fst hread).symm
  have hh : s2.h = unkeyed.h := by rw [hs2]; exact (still_readAt ..).h
  have hmem := mem_vlddRun_first (addr := blkAddr 8) rfl unkeyed_unwatched rfl (by decide) rfl hacc hread hcount
    (fun b hb => by rw [hh] at hb; cases hb; rfl) 2 0
  have hexec := exec_vldd_issued (s := unkeyed) (v := 2) hissue 0 8 0
  rw [← hs2, ← hmem]
  exact congrArg State.mem (Host.Outcome.next.inj (hr.symm.trans hexec))

end Sys2Proof.Claims
end

section
/-! PROOFS. Vector stores (R151-R166): what an element's checks and its write leave of the hart, the bytes at its place and beside them, and how
the word ends. -/

namespace Sys2Proof.Machine

open Sys2Proof.Claims

/-! What an element leaves alone -/

section

variable (s : State)

theorem aside_takeRoom (pl : Place) (n : Nat) : Aside s (s.takeRoom pl n) := by
  unfold State.takeRoom
  split
  · split
    · split
      · exact aside_setRegion ..
      · exact .refl s
    · exact .refl s
  · exact aside_markLine ..

theorem aside_sameRoom (z : State) : Aside s (s.sameRoom z) := ⟨rfl, fun _ => rfl⟩

theorem aside_byteChecks (k : AKind) (p q : Word) (n : Nat) : Aside s (s.byteChecks k p q n).1 := by
  induction n generalizing s q with
  | zero => exact .refl s
  | succ n ih =>
    have h := aside_access s s.h.actor k q 1 1
    unfold State.byteChecks
    split
    · next he => rw [he] at h; exact h
    · next he => rw [he] at h; exact h
    · next s1 pl he =>
      rw [he] at h
      have hroom : Aside s (if k.reads then s1 else s1.takeRoom pl 1) := by
        split
        · exact h
        · exact h.trans (aside_takeRoom ..)
      have h2 := hroom.trans (ih _ (q + 1))
      split
      · next he2 => rw [he2] at h2; exact h2
      · exact h2

theorem aside_elemChecks (k : AKind) (w : Walker) (e : Nat) : Aside s (s.elemChecks k w e).1 := by
  have h := aside_access s s.h.actor k (s.h.elAddr w e) (s.h.elBytes w e) (s.h.elBytes w e)
  unfold State.elemChecks
  dsimp only
  split
  · exact .refl s
  · split
    · exact (aside_byteChecks ..).trans (aside_sameRoom ..)
    · split
      · next he => rw [he] at h; exact h
      · next he => rw [he] at h; exact h
      · next he => rw [he] at h; exact h

theorem aside_mergeByte (pl : Place) (lo n v : Nat) (bad first : Bool) : Aside s (s.mergeByte pl lo n v bad first) := by
  unfold State.mergeByte
  dsimp only
  split
  · exact aside_writeAt ..
  · exact aside_of_still (still_rmwAt ..)

theorem aside_mergeBytes (lo n v : Nat) (bad first : Bool) (l : List Place) : Aside s (s.mergeBytes lo n v bad first l) := by
  induction l generalizing s lo n v first with
  | nil => exact .refl s
  | cons pl l ih => exact (aside_mergeByte ..).trans (ih ..)

theorem aside_storeElem (w : Walker) (v e : Nat) : Aside s (s.storeElem w v e).1 := by
  have h := aside_elemChecks s .store w e
  unfold State.storeElem
  dsimp only
  split
  · exact .refl s
  · split
    · next he =>
      rw [he] at h
      split
      · split
        · exact h.trans (aside_mergeBytes ..)
        · exact h.trans (aside_writeAt ..)
      · exact h
    · exact h

end

/-! An element whose checks pass -/

/-- An element with one place is written there: its bits merged into their byte, or its bytes. -/
theorem storeElem_passes {s s1 : State} {w : Walker} {e : Nat} {pl : Place} (hidx : (s.h.idx w e).2 = false)
    (hchk : s.elemChecks .store w e = (s1, .ok [pl])) (v : Nat) : s.storeElem w v e =
      (if s.h.sew < 8 then s1.mergeBytes (s.h.elShift w e) s.h.sew (s.h.el s.h.sew v e).1 (s.h.el s.h.sew v e).2 true [pl]
        else s1.writeAt s.h.actor pl (leBytes (s.h.elBytes w e) (s.h.el s.h.sew v e).1) (s.h.el s.h.sew v e).2, .ok []) := by
  simp only [State.storeElem, hidx, Bool.false_eq_true, if_false, hchk]
  split <;> rfl

/-- An element that lies in one byte is merged there, its other bits as the writer reads them. -/
theorem mergeBytes_one {s : State} {lo n : Nat} (h : lo + n ≤ 8) (v : Nat) (bad : Bool) (pl : Place) :
    s.mergeBytes lo n v bad true [pl] = s.writeAt s.h.actor pl [BitVec.ofNat 8 (setBits (s.numFor s.h.tid pl.loc 1) lo n v)] bad := by
  simp only [State.mergeBytes, State.mergeByte, if_true, Nat.min_eq_left (show n ≤ 8 - lo by omega)]

/-- The poison of a write changes no byte. -/
theorem mem_writeAt_bad {s : State} {pl : Place} (hreg : pl.reg = none) (a : Actor) (bs : List Byte) (bad : Bool) :
    (s.writeAt a pl bs bad).mem = (s.writeAt a pl bs false).mem := by
  simp only [State.writeAt, hreg, State.write, State.perform]
  split
  · rfl
  · rw [mem_countMem, mem_countMem]
    rfl

/-- The bytes of a write outside the Comb, at its place and beside it. -/
theorem byteAt_written {s : State} {a : Actor} {pl : Place} (hreg : pl.reg = none) (hkey : s.hasKey a.tid = true) (bs : List Byte) (bad : Bool) :
    (∀ i < bs.length, (s.writeAt a pl bs bad).byteAt (pl.loc + i) = bs.getD i 0) ∧
      ∀ x, x < pl.loc ∨ pl.loc + bs.length ≤ x →
        (s.writeAt a pl bs bad).byteAt x = (BesideWrite (s.markLine pl) a.tid pl.loc bs.length).byteAt x := by
  have hclean : ∀ x, (s.writeAt a pl bs bad).byteAt x = (s.writeAt a pl bs false).byteAt x :=
    fun x => congrArg (Tab.get 0 · x) (mem_writeAt_bad hreg a bs bad)
  exact ⟨fun i hi => (hclean _).trans (byteAt_writeAt hreg hkey bs hi), fun x hx => (hclean x).trans (byteAt_writeAt_other hreg hkey bs hx)⟩

/-! The start of a vector memory word -/

section

variable {s : State} {tile : Option Nat}

/-- The wait for a tile that is over shows in no other part of the hart. -/
theorem started_same {α : Type} (g : Hart → α) (hg : ∀ k p, g (Hart.waitedFor k p) = g k) : g (Started s tile).h = g s.h := by
  cases tile with
  | none => rfl
  | some t => exact hg ..

theorem started_breakpoints (h : s.breakpoints 2 s.h.vaddr = []) : (Started s tile).breakpoints 2 (Started s tile).h.vaddr = [] := by
  cases tile with
  | none => exact h
  | some t => exact h

theorem sameBytes_started : SameBytes s (Started s tile) := by
  cases tile with
  | none => exact fun _ => rfl
  | some t => exact fun _ => rfl

theorem memDone_started {u r : State} {vx : VCtx} (h : MemDone (Started s tile) u r vx) : MemDone s u r vx := by
  cases tile with
  | none => exact h
  | some t => exact h

theorem memTrapped_started {u r : State} {e cause : Nat} {tval : Word} (h : MemTrapped (Started s tile) u r e cause tval) :
    MemTrapped s u r e cause tval := by
  cases tile with
  | none => exact h
  | some t => exact h

/-- A word that is ready begins its elements. -/
theorem memStart_ready {n : Need} {off : Word} (h : MemReady s n off tile) (f : State → State) : s.memStart off tile f = f (Started s tile) := by
  obtain ⟨-, hoff, htile, hr, -⟩ := h
  unfold State.memStart
  rw [if_neg (Nat.not_le.mpr hoff), drainRechecks_nil hr]
  cases tile with
  | none => rfl
  | some t => exact if_neg (not_not_intro (htile t rfl))

end

/-! The word -/

theorem exec_vstoreTable {h : Hart} {c : BitVec 1} {v : BitVec 6} {b : BitVec 5} {k : BitVec 6} {t : BitVec 4} {m : BitVec 3} {hh : BitVec 1}
    {w : BitVec 2} {sc : BitVec 1} {e : Instr × Need × Walker × Word × Option Nat} (he : e ∈ vstoreTable h c v b k t m hh w sc) :
    ∃ need : Hart → Need, need h = e.2.1 ∧
      ∀ s : State, s.h = h → exec e.1 s = vstore need e.2.2.1 e.2.2.2.1 e.2.2.2.2 v.toNat m.toNat s := by
  simp only [vstoreTable, List.mem_cons, List.not_mem_nil, or_false] at he
  rcases he with rfl | rfl | rfl | rfl | rfl <;> exact ⟨_, rfl, fun s hs => by subst hs; rfl⟩

/-- The run over the elements of a store. -/
def State.storeRun (s : State) (w : Walker) (tile : Option Nat) (v m : Nat) : State × VEnd :=
  State.runElems (fun z j => z.storeElem w v j) (s.h.elAddr w) s.h.cut (s.h.fromCut m) (Started s tile)

section

variable {s : State} {need : Hart → Need} {w : Walker} {off : Word} {tile : Option Nat} {v m : Nat} (hready : MemReady s (need s.h) off tile)

theorem asideFlags_storeRun {u : State} {x : VEnd} (hbp : s.breakpoints 2 s.h.vaddr = []) (hrun : s.storeRun w tile v m = (u, x)) :
    AsideFlags (Started s tile) u := by
  have h := asideFlags_runElems (fun z j => AsideFlags.of_aside (aside_storeElem z w v j)) (s.h.elAddr w) s.h.cut (s.h.fromCut m) (Started s tile)
    (started_breakpoints hbp)
  rw [State.storeRun] at hrun
  rwa [hrun] at h

include hready

/-- The word issues, and ends as the run over its elements does. -/
theorem vstore_issued : vstore need w off tile v m s = .next (State.memEnd (s.storeRun w tile v m) m (s.h.elEnds w) true false) := by
  rw [vstore, State.vissue, if_pos hready.1, memStart_ready hready, State.storeRun, started_same (fun k => k.elAddr w) (fun _ _ => rfl),
    started_same Hart.cut (fun _ _ => rfl), started_same (fun k => k.fromCut m) (fun _ _ => rfl),
    started_same (fun k => k.elEnds w) (fun _ _ => rfl)]

theorem vstore_completes {u : State} (hrun : s.storeRun w tile v m = (u, .all)) :
    ∃ r, vstore need w off tile v m s = .next r ∧ MemDone s u r s.h.vx ∧ SameBytes u r ∧ r.h.x = s.h.x ∧ r.h.pc = s.h.pc ∧
      r.h.queue = s.h.queue := by
  obtain ⟨-, -, -, -, hbp⟩ := id hready
  have hu := asideFlags_storeRun hbp hrun
  have hdone := memDone_started (memDone_vdone hu)
  rw [started_same Hart.vx (fun _ _ => rfl)] at hdone
  refine ⟨_, by rw [vstore_issued hready, hrun, State.memEnd], hdone, fun _ => rfl, ?_, ?_, ?_⟩
  · exact (hu.same Hart.x (fun _ => rfl)).trans (started_same Hart.x (fun _ _ => rfl))
  · exact (hu.same Hart.pc (fun _ => rfl)).trans (started_same Hart.pc (fun _ _ => rfl))
  · exact (hu.same Hart.queue (fun _ => rfl)).trans (started_same Hart.queue (fun _ _ => rfl))

theorem vstore_traps {u : State} {j a : Nat} {x : Word} (hrun : s.storeRun w tile v m = (u, .trap j a x)) :
    ∃ r, vstore need w off tile v m s = .next r ∧ MemTrapped s u r j a x := by
  obtain ⟨-, -, -, hr, hbp⟩ := id hready
  have hr0 : ((Started s tile).core (Started s tile).h.core).recheck = [] := by cases tile <;> exact hr
  refine ⟨_, by rw [vstore_issued hready, hrun, State.memEnd], ?_⟩
  exact memTrapped_started (memTrapped_memTrap (asideFlags_storeRun hbp hrun) hr0 j a x _ _ true)

theorem vstore_waits {u : State} {j : Nat} {p : Word} (hrun : s.storeRun w tile v m = (u, .wait j p)) :
    vstore need w off tile v m s = .next (u.vstall p j) := by
  rw [vstore_issued hready, hrun, State.memEnd]

/-- A store with no active element from the cut on changes nothing. -/
theorem vstore_empty (hnone : s.h.fromCut m = []) :
    ∃ r, vstore need w off tile v m s = .next r ∧ MemDone s (Started s tile) r s.h.vx ∧ SameBytes s r := by
  have hrun : s.storeRun w tile v m = (Started s tile, .all) := by rw [State.storeRun, hnone, State.runElems]
  obtain ⟨r, hr, hdone, hbytes, -⟩ := vstore_completes hready hrun
  exact ⟨r, hr, hdone, fun a => (hbytes a).trans (sameBytes_started a)⟩

/-- A store with one active element of whole bytes from the cut on writes it. -/
theorem vstore_one {s1 : State} {j : Nat} {pl : Place} (hone : s.h.fromCut m = [j]) (hsew : 8 ≤ s.h.sew) (hidx : (s.h.idx w j).2 = false)
    (hchk : (Started s tile).elemChecks .store w j = (s1, .ok [pl])) :
    let x := s.h.el s.h.sew v j
    ∃ r, vstore need w off tile v m s = .next r ∧ MemDone s (s1.writeAt s.h.actor pl (leBytes (s.h.elBytes w j) x.1) x.2) r s.h.vx := by
  intro x
  obtain ⟨-, -, -, -, hbp⟩ := id hready
  have helem := storeElem_passes ((started_same (fun k => (k.idx w j).2) (fun _ _ => rfl)).trans hidx) hchk v
  rw [started_same Hart.sew (fun _ _ => rfl), if_neg (Nat.not_lt.mpr hsew), started_same Hart.actor (fun _ _ => rfl),
    started_same (fun k => k.elBytes w j) (fun _ _ => rfl), started_same (fun k => k.el s.h.sew v j) (fun _ _ => rfl)] at helem
  have hrun : s.storeRun w tile v m = (s1.writeAt s.h.actor pl (leBytes (s.h.elBytes w j) x.1) x.2, .all) := by
    rw [State.storeRun, hone]
    exact runElems_one (started_breakpoints hbp) helem ..
  obtain ⟨r, hr, hdone, -⟩ := vstore_completes hready hrun
  exact ⟨r, hr, hdone⟩

end

/-- An element stored outside the Comb under a key: its bytes, or its bits in their byte, and the bytes beside it. -/
theorem storeElem_bytes {s s1 : State} {w : Walker} {e : Nat} {pl : Place} (hidx : (s.h.idx w e).2 = false)
    (hchk : s.elemChecks .store w e = (s1, .ok [pl])) (hreg : pl.reg = none) (hkey : s1.hasKey s.h.tid = true) (v : Nat) :
    let x := (s.h.el s.h.sew v e).1
    ∃ r, s.storeElem w v e = (r, .ok []) ∧ r.h.vx = s.h.vx ∧
      (8 ≤ s.h.sew →
        (∀ i < s.h.elBytes w e, r.byteAt (pl.loc + i) = BitVec.ofNat 8 (x / 256 ^ i)) ∧
        ∀ a, a < pl.loc ∨ pl.loc + s.h.elBytes w e ≤ a →
          r.byteAt a = (BesideWrite (s1.markLine pl) s.h.tid pl.loc (s.h.elBytes w e)).byteAt a) ∧
      (s.h.sew < 8 → s.h.elShift w e + s.h.sew ≤ 8 →
        r.byteAt pl.loc = BitVec.ofNat 8 (setBits (s1.numFor s.h.tid pl.loc 1) (s.h.elShift w e) s.h.sew x) ∧
        ∀ a, a ≠ pl.loc → r.byteAt a = (BesideWrite (s1.markLine pl) s.h.tid pl.loc 1).byteAt a) := by
  intro x
  have hstored := storeElem_passes hidx hchk v
  have haside := aside_storeElem s w v e
  rw [hstored] at haside
  refine ⟨_, hstored, (AsideFlags.of_aside haside).same Hart.vx (fun _ => rfl), fun hsew => ?_, fun hsew hbyte => ?_⟩
  · rw [if_neg (Nat.not_lt.mpr hsew)]
    obtain ⟨hin, hbeside⟩ := byteAt_written (a := s.h.actor) hreg hkey (leBytes (s.h.elBytes w e) x) (s.h.el s.h.sew v e).2
    rw [length_leBytes] at hin hbeside
    exact ⟨fun i hi => (hin i hi).trans (getD_leBytes _ _ i hi), hbeside⟩
  · have htid : s1.h.tid = s.h.tid := by
      have h1 := aside_elemChecks s .store w e
      rw [hchk] at h1
      exact h1.tid
    rw [if_pos hsew, mergeBytes_one hbyte, htid]
    have hkey1 : s1.hasKey s1.h.actor.tid = true := (congrArg s1.hasKey htid).trans hkey
    obtain ⟨hin, hbeside⟩ := byteAt_written hreg hkey1
      [BitVec.ofNat 8 (setBits (s1.numFor s.h.tid pl.loc 1) (s.h.elShift w e) s.h.sew x)] (s.h.el s.h.sew v e).2
    rw [List.length_singleton, show s1.h.actor.tid = s.h.tid from htid] at hbeside
    exact ⟨hin 0 Nat.zero_lt_one, fun a ha => hbeside a (by omega)⟩

end Sys2Proof.Machine

namespace Sys2Proof.Claims

open Sys2Proof.Machine

/-- Settles O44: the word ends as the run over its elements does, and each element is one write at its place. -/
theorem vectorStores : Obligations.VectorStores := by
  unfold Obligations.VectorStores
  refine ⟨fun s u c v b k t m hh w sc e he hready => ?_, fun s s1 w v e pl hidx hchk hreg hkey => storeElem_bytes hidx hchk hreg hkey v⟩
  obtain ⟨need, hneed, hexec⟩ := exec_vstoreTable he
  rw [hexec s rfl]
  rw [← hneed] at hready
  exact ⟨vstore_completes hready, fun j a x => vstore_traps hready, fun j p => vstore_waits hready, vstore_empty hready,
    fun j s1 pl => vstore_one hready⟩

end Sys2Proof.Claims
end

section
/-! PROOFS. Compress-and-append (R170, R171): the header's checks, the reservation, the slots that are written, and the result word. -/

namespace Sys2Proof.Machine

open Sys2Proof.Claims

/-! The header -/

/-- A header whose checks pass has been accessed, and the hart is as it was. -/
theorem passed_appHeader {s s1 : State} {b : Word} {pl : Place} (h : s.appHeader b = (s1, .ok pl)) : Passed s s1 := by
  unfold State.appHeader at h
  split at h
  · simp at h
  · split at h
    · next hacc =>
      have hpass := access_passed hacc
      split at h
      · split at h
        · simp only [Prod.mk.injEq] at h
          rw [← h.1]
          exact hpass
        · simp at h
      · simp at h
    · next hnot => exact absurd h (hnot s1 pl)

theorem exec_vstApp_fresh {s s1 : State} {v : BitVec 6} {b : BitVec 5} {pl : Place} (hready : MemReady s (needStore byteType v.toNat s.h) 0 none)
    (happ : s.h.app = none) (hhead : s.appHeader (s.h.code b.toNat) = (s1, .ok pl)) (c : BitVec 1) (r m : BitVec 3) (hh : BitVec 1) :
    exec (.vstApp c v b r m hh) s = .next (s1.appReserve v.toNat r.toNat m.toNat (s.h.code b.toNat) pl) := by
  obtain ⟨hissue, -, -, hr, -⟩ := hready
  show execVstApp c v b r m hh s = _
  rw [execVstApp, State.vissue, if_pos hissue]
  simp only [drainRechecks_nil hr, happ, hhead, (passed_appHeader hhead).still.h]

/-! The reservation -/

/-- The state in which `g` slots from slot `t` on have been reserved for `n` active elements. -/
def State.reserved (s : State) (pl : Place) (data : Word) (t g n : Nat) : State :=
  (s.rmwAt s.h.actor { pl with loc := pl.loc + 16 } (leBytes 8 (t + g)) false).setH (fun h => { h with app := some (data, t, g, n), viw := none })

section

variable {s s2 : State} {pl : Place} {x : Nat} {bad : Bool} (hread : s.readAt s.h.actor pl 32 = (s2, x, bad)) (v r m : Nat) (b : Word)

include hread

theorem appReserve_poisoned (hbad : bad = true) : s.appReserve v r m b pl = s2.vtrap cSPOISON b 0 := by
  subst hbad
  simp only [State.appReserve, hread, if_true]

/-- What the header's fields decide (R170, R171). -/
theorem appReserve_read (hbad : bad = false) : s.appReserve v r m b pl =
    let cap := bits x 64 32
    let t := bits x 128 32
    let n := (s.h.actives m).length
    let g := min n (cap - t)
    if bits x 96 32 = 0 ∧ bits x 160 96 = 0 ∧ t ≤ cap then
      (s2.reserved pl (word (bits x 0 64)) t g n).appWrites v r m (word (bits x 0 64)) t g n false
    else s2.vtrap cDISC b 0 := by
  subst hbad
  have hh : s2.h = s.h := by
    have h := still_readAt s s.h.actor pl 32
    rw [hread] at h
    exact h.h
  have hvalid : (bits x 96 32 ≠ 0 || bits x 160 96 ≠ 0 || bits x 64 32 < bits x 128 32) = true ↔
      ¬(bits x 96 32 = 0 ∧ bits x 160 96 = 0 ∧ bits x 128 32 ≤ bits x 64 32) := by
    simp only [Bool.or_eq_true, decide_eq_true_eq, not_and_or, Nat.not_le, ne_eq, or_assoc]
  simp only [State.appReserve, hread, Bool.false_eq_true, if_false, hvalid, ite_not, hh, State.reserved]

end

/-! The slots -/

theorem aside_appElem (s : State) (v m : Nat) (data : Word) (t e : Nat) : Aside s (s.appElem v m data t e).1 := by
  have h := aside_access s s.h.actor .store (s.h.appAddr m data t e) (s.h.sew / 8) (s.h.sew / 8)
  unfold State.appElem
  dsimp only
  split
  · exact .refl s
  · split
    · next he => rw [he] at h; exact h
    · next he => rw [he] at h; exact h
    · next he => rw [he] at h; exact h.trans (aside_writeAt ..)

/-- The run over the elements whose slots have been reserved. -/
def State.appRun (s : State) (v m : Nat) (data : Word) (t g : Nat) : State × VEnd :=
  State.runElems (fun z e => z.appElem v m data t e) (s.h.appAddr m data t) 0 ((s.h.actives m).take g) s

/-- A result word without a fault (R171). -/
theorem appDone_ok (s : State) (r t g n w : Nat) : s.appDone r t g n w 0 =
    s.vdone (s.h.setCode (8 + r) (word ((if g < n then 2 ^ 63 else 0) + w * 2 ^ 40 + t))) 0 := by
  rw [State.appDone, if_pos rfl, Nat.add_zero, Nat.zero_mul, Nat.add_zero]

/-- When every reserved slot is written, the result word holds no fault. -/
theorem appWrites_all {s u : State} {v m t g : Nat} {data : Word} (hcut : s.h.cut = 0) (hrun : s.appRun v m data t g = (u, .all)) (r n : Nat)
    (late : Bool) : s.appWrites v r m data t g n late =
      u.vdone (u.h.setCode (8 + r) (word ((if g < n then 2 ^ 63 else 0) + g * 2 ^ 40 + t))) 0 := by
  have hall : ((s.h.actives m).take g).filter (fun e => s.h.cut ≤ e) = (s.h.actives m).take g := by
    simp [hcut]
  rw [State.appRun, ← hcut] at hrun
  rw [← appDone_ok, State.appWrites]
  simp only [hall, hrun]

theorem asideFlags_appRun {s u : State} {v m t g : Nat} {data : Word} {x : VEnd} (hbp : s.breakpoints 2 s.h.vaddr = [])
    (hrun : s.appRun v m data t g = (u, x)) : AsideFlags s u := by
  have h := asideFlags_runElems (fun z e => AsideFlags.of_aside (aside_appElem z v m data t e)) (s.h.appAddr m data t) 0
    ((s.h.actives m).take g) s hbp
  rwa [← State.appRun, hrun] at h

/-- A word that is done with its slots has completed with its result word; of the hart, only what the word keeps while it waits differs before
them. -/
theorem append_done {s z u : State} (hz : { z.h with app := s.h.app, viw := s.h.viw } = s.h) (hu : AsideFlags z u) (r : Nat) (y : Word) :
    let t := u.vdone (u.h.setCode (8 + r) y) 0
    SameBytes u t ∧ t.h.vpc = s.h.vaddr + 4 ∧ t.h.app = none ∧ t.h.vx.v = s.h.vx.v ∧ t.h.code (8 + r) = y ∧
      ∀ i, i ≠ 8 + r → t.h.code i = s.h.code i := by
  intro t
  have hvx : u.h.vx = s.h.vx := (hu.same Hart.vx (fun _ => rfl)).trans (congrArg Hart.vx hz :)
  have hvaddr : u.h.vaddr = s.h.vaddr := (hu.same Hart.vaddr (fun _ => rfl)).trans (congrArg Hart.vaddr hz :)
  refine ⟨fun _ => rfl, congrArg (· + 4) hvaddr, rfl, (congrArg VCtx.v hvx :), Hart.code_setCode_same .., fun i hi => ?_⟩
  exact (Hart.code_setCode_other u.h (8 + r) i y hi).trans (congrArg (fun k : VCtx => Tab.get 0 k.sc i) hvx)

/-! The word -/

section

variable {s s1 s2 : State} {v : BitVec 6} {b : BitVec 5} {pl : Place} {x : Nat} {bad : Bool}
  (hready : MemReady s (needStore byteType v.toNat s.h) 0 none) (happ : s.h.app = none) (hcut : s.h.cut = 0)
  (hhead : s.appHeader (s.h.code b.toNat) = (s1, .ok pl)) (hread : s1.readAt s1.h.actor pl 32 = (s2, x, bad)) (c : BitVec 1) (r m : BitVec 3)
  (hh : BitVec 1)

include hhead hread in
theorem still_headerRead : Still s s2 := by
  have h := still_readAt s1 s1.h.actor pl 32
  rw [hread] at h
  exact (passed_appHeader hhead).still.trans h

include hhead hread in
/-- The reservation shows in what the word keeps while it waits, and in no other part of the hart. -/
theorem reserved_hart (data : Word) (t g n : Nat) : { (s2.reserved pl data t g n).h with app := s.h.app, viw := s.h.viw } = s.h :=
  (congrArg (fun k : Hart => { k with app := s.h.app, viw := s.h.viw }) ((still_headerRead hhead hread).trans (still_rmwAt ..)).h :)

include hready hhead hread in
/-- The reservation leaves the word without a watched element. -/
theorem reserved_unwatched (data : Word) (t g n : Nat) :
    (s2.reserved pl data t g n).breakpoints 2 (s2.reserved pl data t g n).h.vaddr = [] := by
  obtain ⟨-, -, -, -, hbp⟩ := hready
  have h := (still_headerRead hhead hread).trans (still_rmwAt s2 s2.h.actor { pl with loc := pl.loc + 16 } (leBytes 8 (t + g)) false)
  have hu := (AsideFlags.of_still h).breakpoints 2 s.h.vaddr
  rw [hbp, ← h.h] at hu
  exact hu

include hready happ hhead hread

theorem vstApp_poisoned (hbad : bad = true) : exec (.vstApp c v b r m hh) s = .next (s2.vtrap cSPOISON (s.h.code b.toNat) 0) := by
  rw [exec_vstApp_fresh hready happ hhead, appReserve_poisoned hread _ _ _ _ hbad]

theorem vstApp_invalid (hbad : bad = false) (hok : ¬(bits x 96 32 = 0 ∧ bits x 160 96 = 0 ∧ bits x 128 32 ≤ bits x 64 32)) :
    exec (.vstApp c v b r m hh) s = .next (s2.vtrap cDISC (s.h.code b.toNat) 0) := by
  rw [exec_vstApp_fresh hready happ hhead, appReserve_read hread _ _ _ _ hbad]
  exact congrArg _ (if_neg hok)

include hcut

/-- With a valid header the slots are reserved; when each of them is written, the word completes with its result word. -/
theorem vstApp_completes (hbad : bad = false) (hok : bits x 96 32 = 0 ∧ bits x 160 96 = 0 ∧ bits x 128 32 ≤ bits x 64 32) {u : State} :
    let n := (s.h.actives m.toNat).length
    let g := min n (bits x 64 32 - bits x 128 32)
    (s2.reserved pl (word (bits x 0 64)) (bits x 128 32) g n).appRun v.toNat m.toNat (word (bits x 0 64)) (bits x 128 32) g = (u, .all) →
    ∃ t, exec (.vstApp c v b r m hh) s = .next t ∧ SameBytes u t ∧ t.h.vpc = s.h.vaddr + 4 ∧ t.h.app = none ∧ t.h.vx.v = s.h.vx.v ∧
      t.h.code (8 + r.toNat) = word ((if g < n then 2 ^ 63 else 0) + g * 2 ^ 40 + bits x 128 32) ∧
      ∀ i, i ≠ 8 + r.toNat → t.h.code i = s.h.code i := by
  intro n g hrun
  have hu := asideFlags_appRun (reserved_unwatched hready hhead hread ..) hrun
  have hz := reserved_hart hhead hread (word (bits x 0 64)) (bits x 128 32) g n
  refine ⟨_, ?_, append_done hz hu r.toNat _⟩
  rw [exec_vstApp_fresh hready happ hhead, appReserve_read hread _ _ _ _ hbad, (passed_appHeader hhead).still.h]
  refine congrArg _ ((if_pos hok).trans (appWrites_all ?_ hrun ..))
  exact (congrArg Hart.cut hz :).trans hcut

/-- Without a granted slot there is nothing to write. -/
theorem vstApp_ungranted (hbad : bad = false) (hok : bits x 96 32 = 0 ∧ bits x 160 96 = 0 ∧ bits x 128 32 ≤ bits x 64 32) :
    let n := (s.h.actives m.toNat).length
    min n (bits x 64 32 - bits x 128 32) = 0 →
    ∃ t, exec (.vstApp c v b r m hh) s = .next t ∧ t.h.vpc = s.h.vaddr + 4 ∧ t.h.vx.v = s.h.vx.v ∧
      t.h.code (8 + r.toNat) = word ((if 0 < n then 2 ^ 63 else 0) + bits x 128 32) := by
  intro n hg
  obtain ⟨t, ht, -, hvpc, -, hv, hcode, -⟩ := vstApp_completes hready happ hcut hhead hread c r m hh hbad hok
    (show State.appRun _ _ _ _ _ _ = (_, .all) by rw [hg, State.appRun, List.take_zero, State.runElems])
  rw [hg, Nat.zero_mul, Nat.add_zero] at hcode
  exact ⟨t, ht, hvpc, hv, hcode⟩

end

end Sys2Proof.Machine

namespace Sys2Proof.Claims

open Sys2Proof.Machine

/-- Settles O46: the header decides between the traps and the reservation, after which the word ends as its run over the slots does. -/
theorem appendResults : Obligations.AppendResults := by
  unfold Obligations.AppendResults
  intro s s1 s2 u c v b r m hh pl x bad hready happ hcut hhead hread cap n g ok
  exact ⟨vstApp_poisoned hready happ hhead hread c r m hh, vstApp_invalid hready happ hhead hread c r m hh,
    fun hbad hok => vstApp_completes hready happ hcut hhead hread c r m hh hbad hok,
    fun hbad hok => vstApp_ungranted hready happ hcut hhead hread c r m hh hbad hok⟩

end Sys2Proof.Claims
end

section
/-! PROOFS. Vector-side traps (R397-R401): where the vector side stops, and the trap that the forager takes. A fetch does not look at the hart in
hand, so that a handler can be fetched as well when the hart holds its PC. -/

namespace Sys2Proof.Machine

open Sys2Proof.Claims

/-! Reads of memory do not look at the hart in hand -/

theorem foldl_setH {β : Type} {g : State → β → State} {f : Hart → Hart} (h : ∀ s b, g (s.setH f) b = (g s b).setH f)
    (l : List β) (s : State) :
    l.foldl g (s.setH f) = (l.foldl g s).setH f := by
  induction l generalizing s with
  | nil => rfl
  | cons b l ih => rw [List.foldl_cons, h, ih, List.foldl_cons]

section

variable (s : State) (f : Hart → Hart)

theorem numFor_setH (tag a n : Nat) : (s.setH f).numFor tag a n = s.numFor tag a n := 
  numFor_congr (s := s) (t := s.setH f) rfl rfl rfl tag a n

theorem keyed_setH (tag loc n : Nat) : (s.setH f).keyed tag loc n = (s.keyed tag loc n).setH f := by
  unfold State.keyed
  split
  · exact foldl_setH (fun _ _ => rfl) ..
  · rfl

theorem putRecord_setH (r : List Word) : (s.setH f).putRecord r = (s.putRecord r).setH f := by
  simp only [State.putRecord, State.storeDev, State.hub_setH, keyed_setH]
  rfl

theorem setHub_setH (g : Hub → Hub) : (s.setH f).setHub g = (s.setHub g).setH f := rfl

theorem hostPost_setH (type tag : Nat) (l : List Byte) : (s.setH f).hostPost type tag l = (s.hostPost type tag l).setH f := by
  unfold State.hostPost
  dsimp only [State.hub_setH]
  split <;> rfl

theorem mcheck_setH (kind die tag hid unit : Nat) (a : Word) (d : Nat) :
    (s.setH f).mcheck kind die tag hid unit a d = (s.mcheck kind die tag hid unit a d).setH f := by
  have hposted : ∀ (t : State) (l : List Byte), (if bit (t.setH f).hub.split 3 then (t.setH f).hostPost 2 tag l else t.setH f) =
      (if bit t.hub.split 3 then t.hostPost 2 tag l else t).setH f := by
    intro t l
    rw [State.hub_setH, hostPost_setH]
    split <;> rfl
  simp only [State.mcheck, State.hub_setH, State.gtb_setH, putRecord_setH, setHub_setH]
  split
  · exact hposted ..
  · exact hposted ..

theorem mcheckMem_setH (kind tag hid pa : Nat) : (s.setH f).mcheckMem kind tag hid pa = (s.mcheckMem kind tag hid pa).setH f := mcheck_setH ..

theorem mcheckUnit_setH (tag hid u : Nat) : (s.setH f).mcheckUnit tag hid u = (s.mcheckUnit tag hid u).setH f := by
  unfold State.mcheckUnit
  split
  · exact mcheckMem_setH ..
  · split <;> exact mcheck_setH ..

theorem setDie_setH (d : Nat) (g : Die → Die) : (s.setH f).setDie d g = (s.setDie d g).setH f := rfl

/-- The marks of an error found. -/
def State.marked (s : State) (e : Tab Nat) (p : Tab Bool) : State := { s with ecc := e, psn := p }

theorem marked_setH (e : Tab Nat) (p : Tab Bool) : (s.setH f).marked e p = (s.marked e p).setH f := rfl

theorem checkUnit_eq (tag hid u : Nat) : s.checkUnit tag hid u =
    if Tab.get 0 s.ecc u = 0 then s
    else if Tab.get 0 s.ecc u = 1 then
      (s.marked (Tab.set 0 s.ecc u 0) s.psn).setDie (if isMain u then (memFinder s.hub u).1 else dieOfLoc u)
        (fun d => { d with corrected := d.corrected + 1 })
    else if Tab.get false s.psn u then s.marked (Tab.set 0 s.ecc u 0) s.psn
    else (s.marked (Tab.set 0 s.ecc u 0) (putMarks s.psn true (marksOf u))).mcheckUnit tag hid u := by
  unfold State.checkUnit
  split
  · next h => rw [if_pos h]
  · next h => rw [h]; rfl
  · next h0 h1 => rw [if_neg h0, if_neg h1]; rfl

theorem checkUnit_setH (tag hid u : Nat) : (s.setH f).checkUnit tag hid u = (s.checkUnit tag hid u).setH f := by
  simp only [checkUnit_eq, State.ecc_setH, State.psn_setH, State.hub_setH, marked_setH, setDie_setH, mcheckUnit_setH]
  repeat' split
  all_goals rfl

theorem checkRead_setH (tag hid loc n : Nat) : (s.setH f).checkRead tag hid loc n = (s.checkRead tag hid loc n).setH f := by
  unfold State.checkRead
  rw [State.ecc_setH]
  split
  · rfl
  · exact foldl_setH (fun t u => checkUnit_setH t f tag hid u) ..

theorem countMem_setH (tag loc n : Nat) : (s.setH f).countMem tag loc n = (s.countMem tag loc n).setH f := by
  unfold State.countMem
  repeat' split
  · exact count_setH ..
  · exact count_setH ..
  · exact count_setH ..
  · rfl

theorem read_setH (tag hid loc n : Nat) : (s.setH f).read tag hid loc n = ((s.read tag hid loc n).1.setH f, (s.read tag hid loc n).2) := by
  have hkey : (s.setH f).hasKey tag = s.hasKey tag := rfl
  have hfree : ∀ t : State, ({ t.setH f with free := s.free + 1 } : State) = ({ t with free := s.free + 1 } : State).setH f := fun _ => rfl
  have hbad : ∀ t : State, (t.setH f).poisoned loc n = t.poisoned loc n := fun _ => rfl
  simp only [State.read, hkey, mcheckMem_setH, State.free_setH, hfree, checkRead_setH, countMem_setH, numFor_setH, hbad]
  split <;> rfl

/-! Translations -/

theorem pathFrom_setH (tid va : Nat) (l : List Level) (base : Nat) : (s.setH f).pathFrom tid va l base = s.pathFrom tid va l base := by
  induction l generalizing base with
  | nil => rfl
  | cons x l ih =>
    unfold State.pathFrom
    simp only [ih, numFor_setH]
    rfl

theorem walkFrom_setH (tid va : Nat) (l : List Level) (base : Nat) : (s.setH f).walkFrom tid va l base = s.walkFrom tid va l base := by
  induction l generalizing base with
  | nil => rfl
  | cons x l ih =>
    unfold State.walkFrom
    simp only [ih, numFor_setH]
    rfl

theorem path_setH (tid va : Nat) : (s.setH f).path tid va = s.path tid va := by
  simp only [State.path, pathFrom_setH]
  rfl

theorem walk_setH (tid va : Nat) : (s.setH f).walk tid va = s.walk tid va := by
  simp only [State.walk, walkFrom_setH]
  rfl

theorem walkReads_setH (a : Actor) (va : Nat) : (s.setH f).walkReads a va = (s.walkReads a va).setH f := by
  unfold State.walkReads
  rw [path_setH]
  refine foldl_setH (fun t pa => ?_) ..
  rw [← countMem_setH, checkUnit_setH, State.ecc_setH]
  split <;> rfl

theorem heat_setH (e pa : Nat) (w : Bool) : (s.setH f).heat e pa w = (s.heat e pa w).setH f := by
  unfold State.heat
  rw [State.hub_setH]
  split <;> rfl

theorem keepXlat_setH (t : TlbEntry) : (s.setH f).keepXlat t = (s.keepXlat t).setH f := by
  unfold State.keepXlat
  rw [State.tlbFill_setH]
  split <;> rfl

/-- A translation ends in the same way, and one that succeeds leaves the rest of the state the same. -/
theorem translate_setH (a : Actor) (p : Word) :
    ((s.setH f).translate a p).2 = (s.translate a p).2 ∧
      ∀ e size, (s.translate a p).2 = .ok e size → ((s.setH f).translate a p).1 = (s.translate a p).1.setH f := by
  have hcached : ∀ va, (s.setH f).cached a.tid va = s.cached a.tid va := fun _ => rfl
  have hmem : ∀ pa, (s.setH f).hasMemory pa = s.hasMemory pa := fun _ => rfl
  unfold State.translate
  dsimp only
  rw [hcached, walk_setH, walkReads_setH, path_setH]
  simp only [hmem]
  split
  · exact ⟨rfl, fun _ _ _ => heat_setH ..⟩
  · split
    · split
      · exact ⟨rfl, by simp⟩
      · exact ⟨rfl, fun _ _ _ => by rw [heat_setH, keepXlat_setH]⟩
    · exact ⟨rfl, by simp⟩
    · exact ⟨rfl, by simp⟩
    · exact ⟨rfl, by simp⟩
    · exact ⟨rfl, by simp⟩

/-! Fetches -/

theorem ownedWait_setH (k : AKind) (pl : Place) : (s.setH f).ownedWait k pl = ((s.ownedWait k pl).1.setH f, (s.ownedWait k pl).2) := by
  have howner : (s.setH f).lineOwner pl.loc = s.lineOwner pl.loc := rfl
  have hplough : (s.setH f).ploughOwner pl.loc = s.ploughOwner pl.loc := rfl
  have hdie : (s.setH f).die (dieOfLoc pl.loc) = s.die (dieOfLoc pl.loc) := rfl
  unfold State.ownedWait
  rw [howner, hplough, hdie]
  repeat' split
  all_goals rfl

/-- An access to a page ends in the same way, and one that does not trap leaves the rest of the state the same. -/
theorem pageAccess_setH (a : Actor) (k : AKind) (p : Word) :
    ((s.setH f).pageAccess a k p).2 = (s.pageAccess a k p).2 ∧
      ((∃ c v, (s.pageAccess a k p).2 = .trap c v) ∨ ((s.setH f).pageAccess a k p).1 = (s.pageAccess a k p).1.setH f) := by
  obtain ⟨hend, hok⟩ := translate_setH s f a p
  rcases hs : s.translate a p with ⟨s1, x⟩
  rcases ht : (s.setH f).translate a p with ⟨t1, y⟩
  rw [hs, ht] at hend hok
  obtain rfl : y = x := hend
  cases y with
  | trap c v => simp [State.pageAccess, hs, ht]
  | ok e size =>
    obtain rfl : t1 = s1.setH f := hok e size rfl
    have hrob : ∀ pa, (s1.setH f).robAt pa = s1.robAt pa := fun _ => rfl
    have hdisc : ∀ pa, (s1.setH f).pageDisc a k e pa = s1.pageDisc a k e pa := fun _ => rfl
    simp only [State.pageAccess, hs, ht, State.robBad_setH, hrob, hdisc]
    split
    · exact ⟨rfl, .inl ⟨_, _, rfl⟩⟩
    · split
      · exact ⟨rfl, .inl ⟨_, _, rfl⟩⟩
      · split
        · exact ⟨rfl, .inl ⟨_, _, rfl⟩⟩
        · split
          · rw [ownedWait_setH]; exact ⟨rfl, .inr rfl⟩
          · exact ⟨rfl, .inl ⟨_, _, rfl⟩⟩

/-- A fetch at an aligned pointer of window 0 is an access to a page (R82). -/
theorem fetch_page {pc : Word} (hwin : window pc = 0) (halign : pc.toNat % 4 = 0) (a : Actor) :
    s.access a .fetch pc 4 4 = s.pageAccess a .fetch pc := by
  simp [State.access, hwin, halign]

/-- A fetch ends in the same way, and one that waits leaves the rest of the state the same. -/
theorem fetch_setH (a : Actor) (pc : Word) :
    ((s.setH f).fetch a pc).2 = (s.fetch a pc).2 ∧
      ∀ q, (s.fetch a pc).2 = .wait q → ((s.setH f).fetch a pc).1 = (s.fetch a pc).1.setH f := by
  by_cases hwin : window pc = 0
  case neg => simp [State.fetch, hwin]
  by_cases halign : pc.toNat % 4 = 0
  case neg => simp [State.fetch, State.access, hwin, halign]
  obtain ⟨hend, hst⟩ := pageAccess_setH s f a .fetch pc
  rcases hs : s.pageAccess a .fetch pc with ⟨s1, x⟩
  rcases ht : (s.setH f).pageAccess a .fetch pc with ⟨t1, y⟩
  rw [hs, ht] at hend hst
  obtain rfl : y = x := hend
  have hwin0 : ¬window pc ≠ 0 := not_not.mpr hwin
  cases y with
  | trap c v => simp [State.fetch, hwin, fetch_page _ hwin halign, hs, ht]
  | wait q => simpa [State.fetch, hwin, fetch_page _ hwin halign, hs, ht] using hst
  | ok pl =>
    obtain rfl : t1 = s1.setH f := hst.resolve_left (by simp)
    simp only [State.fetch, hwin0, if_false, fetch_page _ hwin halign, hs, ht, read_setH]
    split <;> simp

/-- A handler is judged by what the hart's actor reads at its address (R396). -/
theorem handlerOk_setH (htvec : (f s.h).tvec = s.h.tvec) (hactor : (f s.h).actor = s.h.actor) (cause : Nat) :
    (s.setH f).handlerOk cause = s.handlerOk cause := by
  have hmode : (f s.h).mode = s.h.mode := congrArg Actor.mode hactor
  have haddr : (f s.h).handler cause = s.h.handler cause := by simp only [Hart.handler, htvec]
  have hword : (s.setH f).handlerWord cause = s.handlerWord cause := by
    simp only [State.handlerWord, State.h_setH, hactor, hmode, haddr]
    obtain ⟨hend, hwait⟩ := fetch_setH s f { s.h.actor with mode := s.h.mode.trapped } (s.h.handler cause)
    rcases hs : s.fetch { s.h.actor with mode := s.h.mode.trapped } (s.h.handler cause) with ⟨s1, x⟩
    rcases ht : (s.setH f).fetch { s.h.actor with mode := s.h.mode.trapped } (s.h.handler cause) with ⟨t1, y⟩
    rw [hs, ht] at hend hwait
    obtain rfl : y = x := hend
    cases y with
    | word w => rfl
    | trap c v => rfl
    | wait q =>
      obtain rfl : t1 = s1.setH f := hwait q rfl
      have hplace : ∀ b p, (s1.setH f).fetchPlace b p = s1.fetchPlace b p := fun b p => by
        rw [State.fetchPlace, State.fetchPlace, (translate_setH s1 f b p).1]
      simp only [hplace, read_setH]
  simp only [State.handlerOk, hword, State.h_setH, htvec]

end

/-! Where the vector side stops -/

section

variable (s : State)

theorem h_drainRechecks : s.drainRechecks.h = s.h := by
  unfold State.drainRechecks State.drainOf
  dsimp only
  split
  · rfl
  · exact (State.h_setCore ..).trans (State.h_count ..)

theorem sameBytes_drainRechecks : SameBytes s s.drainRechecks := by
  have hmem : s.drainRechecks.mem = s.mem := by
    unfold State.drainRechecks State.drainOf
    dsimp only
    split
    · rfl
    · exact State.mem_count ..
  exact fun a => congrArg (Tab.get 0 · a) hmem

/-- What a vector-side trap makes of a hart (R397, R398, R401). -/
def Hart.vstopped (h : Hart) (v : VStop) (cut : Nat) : Hart :=
  let raised := (h.run.map (fun b => b.flags)).getD 0
  ({ (h.pageMet v.cause v.tval).stopAt v cut with fxf := orFlags h.fxf raised } : Hart).waitCut

theorem vstopped_stops (h : Hart) (v : VStop) (cut : Nat) :
    let k := h.vstopped v cut
    k.stop = some v ∧ k.ecut = word cut ∧ k.conv = [] ∧ k.begun = h.begun ∧ (h.iw = none → k.iw = none) := by
  unfold Hart.vstopped Hart.pageMet
  split
  · exact ⟨rfl, rfl, rfl, rfl, fun hi => by simp [Hart.waitCut, Hart.stopAt, Hart.pageTaken, hi]⟩
  · exact ⟨rfl, rfl, rfl, rfl, fun hi => by simp [Hart.waitCut, Hart.stopAt, hi]⟩

theorem vstopped_keeps (h : Hart) (v : VStop) (cut : Nat) :
    let k := h.vstopped v cut
    k.vx = h.vx ∧ k.run = h.run ∧ k.queue = h.queue ∧ k.x = h.x ∧ k.pc = h.pc ∧ k.mode = h.mode ∧
      k.fxf = orFlags h.fxf ((h.run.map (fun b => b.flags)).getD 0) := by
  unfold Hart.vstopped Hart.pageMet
  split <;> exact ⟨rfl, rfl, rfl, rfl, rfl, rfl, rfl⟩

/-- Without a SPAWN in hand that the trap would end, only the hart in hand and its rechecks change. -/
theorem vectorTrap_unspawned {s : State} (h : s.h.mode = .a ∨ s.h.begun = none) (v : VStop) (cut : Nat) :
    s.vectorTrap v cut = { s.drainRechecks with h := s.h.vstopped v cut, did := .nothing } := by
  have hspawn : (if s.drainRechecks.h.mode == .a then s.drainRechecks else s.drainRechecks.endSpawn) = s.drainRechecks := by
    rcases h with h | h
    · simp [h_drainRechecks, h]
    · simp [State.endSpawn, h_drainRechecks, h]
  unfold State.vectorTrap
  dsimp only
  rw [hspawn, h_drainRechecks]
  rfl

/-- In modes S and D a SPAWN in hand that waits for its hart's enrolment ends first (R398). -/
theorem vectorTrap_spawning {s : State} {c off x : Nat} {y : Word} (hm : s.h.mode ≠ .a) (hb : s.h.begun = some ⟨x, y, .child c off⟩)
    (v : VStop) (cut : Nat) : (s.vectorTrap v cut).h =
      ({ (s.drainRechecks.takeChild c off).h with begun := none, iw := none } : Hart).vstopped v cut := by
  have hmode : (s.drainRechecks.h.mode == .a) = false := by rw [h_drainRechecks]; exact beq_eq_false_iff_ne.mpr hm
  have hend : s.drainRechecks.endSpawn = (s.drainRechecks.takeChild c off).setH (fun h => { h with begun := none, iw := none }) := by
    rw [State.endSpawn, h_drainRechecks, hb]
  simp only [State.vectorTrap, hmode, hend, Bool.false_eq_true, if_false]
  rfl

end

/-! The trap that the forager takes -/

theorem exec_vectorTrapDelivery (s : State) :
    exec .vectorTrapDelivery s = .next (if s.h.deliverable then s.takeVectorTrap else s) := rfl

/-- A forager that has an instruction in hand, holds its PC already, is not bound or is halted takes no vector-side trap (R397). -/
theorem not_deliverable {h : Hart} (hn : h.iw ≠ none ∨ h.held ≠ none ∨ h.slot = none ∨ ∃ x, h.halt = some x ∧ x.steps = 0) :
    h.deliverable = false := by
  rcases hn with hn | hn | hn | ⟨x, hx, hsteps⟩
  · obtain ⟨y, hy⟩ := Option.ne_none_iff_exists'.mp hn
    simp [Hart.deliverable, hy]
  · obtain ⟨y, hy⟩ := Option.ne_none_iff_exists'.mp hn
    simp [Hart.deliverable, Hart.trapWaits, hy]
  · simp [Hart.deliverable, hn]
  · simp [Hart.deliverable, Hart.halted, hx, hsteps]

/-- A PC is held beside what a trap meets. -/
theorem pageMet_held (h : Hart) (cause : Nat) (tval : Word) (p : Option Word) :
    ({ h with held := p } : Hart).pageMet cause tval = { h.pageMet cause tval with held := p } := by
  unfold Hart.pageMet
  split <;> rfl

/-- The registers after the entry of a hart whose pending event has been met. -/
theorem entered_met {h k : Hart} {cause : Nat} {tval tepc : Word} {vs : Bool} (hk : Entered (h.pageMet cause tval) k cause tval tepc vs) :
    Entered h k cause tval tepc vs := by
  by_cases ht : tablePage cause tval = true
  · rw [show h.pageMet cause tval = h.pageTaken tval from if_pos ht] at hk
    obtain ⟨hcause, htval, htepc, htstat, hmode, hpc, hrest⟩ := hk
    refine ⟨hcause, htval, htepc, htstat, hmode, hpc, ?_⟩
    simp only [ht, if_true] at hrest ⊢
    exact congrArg (fun z : Hart => { z with pagePend := h.pagePend, pagePendV := h.pagePendV }) hrest
  · rwa [show h.pageMet cause tval = h from if_neg ht] at hk

section

variable {s : State} {v : VStop} (hstop : s.h.stop = some v) (hwait : s.h.wait = none) (hiw : s.h.iw = none)

include hstop hwait hiw

theorem deliverable_of (hmode : s.h.mode = .a) (hheld : s.h.held = none) (hslot : s.h.slot ≠ none) (hhalt : s.h.halt = none)
    (hpend : s.h.pagePend = []) : s.h.deliverable = true := by
  obtain ⟨n, hn⟩ := Option.ne_none_iff_exists'.mp hslot
  simp [Hart.deliverable, Hart.halted, Hart.trapWaits, hn, hhalt, hstop, hheld, hmode, hwait, hiw, hpend]

variable (hpost : ¬(v.cause = cPAGE ∧ bit s.hub.split 0 = true))

include hpost

/-- A trap that is not posted to the host is entered at once, with the PC held (R394, R397). -/
theorem takeVectorTrap_enters (hr : (s.core s.h.core).recheck = []) : s.takeVectorTrap =
    ((s.setH (fun h => h.pageMet v.cause v.tval)).setH (fun h => { h with held := some s.h.pc })).enterTrap v.cause v.tval v.tepc true := by
  have hhart : ({ s.h with held := some s.h.pc, iw := none, wait := none } : Hart) = { s.h with held := some s.h.pc } := by
    rw [← hiw, ← hwait]
  have hmet : (s.setH (fun h => { h with held := some h.pc, iw := none, wait := none })).setH (fun h => h.pageMet v.cause v.tval) =
      (s.setH (fun h => h.pageMet v.cause v.tval)).setH (fun h => { h with held := some s.h.pc }) := by
    simp only [State.setH, hhart, pageMet_held]
  have hnot : (v.cause = cPAGE && ((s.setH (fun h => h.pageMet v.cause v.tval)).setH (fun h => { h with held := some s.h.pc })).h.mode == .a &&
      bit s.hub.split 0) = false := by
    by_contra hc
    simp only [Bool.not_eq_false, Bool.and_eq_true, decide_eq_true_eq] at hc
    exact hpost ⟨hc.1.1, hc.2⟩
  simp only [State.takeVectorTrap, hstop, drainRechecks_nil hr, State.takeTrap, hmet]
  exact if_neg (ne_true_of_eq_false hnot)

theorem takeVectorTrap_entered (hr : (s.core s.h.core).recheck = [])
    (hok : (s.setH (fun h => h.pageMet v.cause v.tval)).handlerOk v.cause = true) :
    let t := s.takeVectorTrap
    t.h.held = some s.h.pc ∧ Entered { s.h with held := some s.h.pc } t.h v.cause v.tval v.tepc true ∧ t.h.stop = some v := by
  have hok1 := (handlerOk_setH (s.setH (fun h => h.pageMet v.cause v.tval)) (fun h => { h with held := some s.h.pc }) rfl rfl v.cause).trans hok
  have hent := entered_enterTrap v.tval v.tepc true hok1
  rw [State.h_setH, State.h_setH, ← pageMet_held] at hent
  have hent := entered_met hent
  intro t
  have ht : t.h = _ := congrArg State.h (takeVectorTrap_enters hstop hwait hiw hpost hr)
  rw [← ht] at hent
  obtain ⟨-, -, -, -, -, -, hrest⟩ := id hent
  exact ⟨(congrArg Hart.held hrest :), hent, (congrArg Hart.stop hrest :).trans hstop⟩

end

end Sys2Proof.Machine

namespace Sys2Proof.Claims

open Sys2Proof.Machine

/-- Settles O40: what the trap makes of the hart, without and with a SPAWN in hand, then whether the forager takes it, and its entry. -/
theorem vectorTraps : Obligations.VectorTraps := by
  unfold Obligations.VectorTraps
  refine ⟨fun s cause cut tval hm => ?stops, fun s cause cut c off x y tval hm hb => ?spawning, fun s v hstop hmode hwait => ⟨fun hn => ?stands,
    fun hiw hheld hslot hhalt hpend hr hok hpost => ?taken⟩⟩
  case stops =>
    intro t
    rw [show t = _ from vectorTrap_unspawned hm _ cut]
    obtain ⟨hstop, hecut, hconv, -⟩ := vstopped_stops s.h _ cut
    obtain ⟨hvx, hrun, hqueue, hx, hpc, hmode, hfxf⟩ := vstopped_keeps s.h _ cut
    refine ⟨hstop, hecut, hconv, hvx, hrun, hqueue, hx, hpc, hmode, hfxf, sameBytes_drainRechecks s, fun hr => ?_⟩
    rw [drainRechecks_nil hr]
    rfl
  case spawning =>
    intro t
    rw [show t.h = _ from vectorTrap_spawning hm hb _ cut]
    obtain ⟨hstop, hecut, hconv, hbegun, hiw⟩ := vstopped_stops _ _ cut
    exact ⟨hstop, hecut, hconv, hbegun, hiw rfl⟩
  case stands => rw [exec_vectorTrapDelivery, not_deliverable hn]; rfl
  case taken =>
    refine ⟨s.takeVectorTrap, ?_, takeVectorTrap_entered hstop hwait hiw hpost hr hok⟩
    rw [exec_vectorTrapDelivery, deliverable_of hstop hwait hiw hmode hheld hslot hhalt hpend]
    rfl

end Sys2Proof.Claims
end

section
/-! PROOFS. Writes of vector and mask registers (R177-R180, R188): what an element, a mask bit and a copied register read as after them, and that
they change the vector context alone. -/

namespace Sys2Proof.Machine

open Sys2Proof.Claims

/-! Bit fields -/

theorem testBit_setBits (x lo n v i : Nat) :
    (setBits x lo n v).testBit i = if lo ≤ i ∧ i < lo + n then v.testBit (i - lo) else x.testBit i := by
  have hsplit : setBits x lo n v = 2 ^ lo * (2 ^ n * (x / 2 ^ lo / 2 ^ n) + v % 2 ^ n) + x % 2 ^ lo := by
    have hlo := Nat.div_add_mod x (2 ^ lo)
    have hn := congrArg (2 ^ lo * ·) (Nat.div_add_mod (x / 2 ^ lo) (2 ^ n))
    simp only [Nat.mul_add] at hn
    rw [setBits, bits, Nat.mul_comm (x / 2 ^ lo % 2 ^ n), Nat.mul_comm (v % 2 ^ n), Nat.mul_add]
    omega
  rw [hsplit, Nat.testBit_two_pow_mul_add _ (Nat.mod_lt _ (Nat.two_pow_pos lo))]
  by_cases hlo : i < lo
  · rw [if_pos hlo, if_neg (by omega), Nat.testBit_mod_two_pow, decide_eq_true hlo, Bool.true_and]
  · rw [if_neg hlo, Nat.testBit_two_pow_mul_add _ (Nat.mod_lt _ (Nat.two_pow_pos n))]
    by_cases hn : i - lo < n
    · rw [if_pos hn, if_pos (by omega), Nat.testBit_mod_two_pow, decide_eq_true hn, Bool.true_and]
    · rw [if_neg hn, if_neg (by omega), Nat.testBit_div_two_pow, Nat.testBit_div_two_pow]
      exact congrArg x.testBit (by omega)

theorem testBit_bits (x lo n i : Nat) : (bits x lo n).testBit i = (decide (i < n) && x.testBit (i + lo)) := by
  rw [bits, Nat.testBit_mod_two_pow, Nat.testBit_div_two_pow]

theorem bits_setBits_self (x lo n v : Nat) : bits (setBits x lo n v) lo n = v % 2 ^ n := by
  refine Nat.eq_of_testBit_eq fun i => ?_
  rw [testBit_bits, testBit_setBits, Nat.testBit_mod_two_pow]
  by_cases h : i < n
  · rw [if_pos (by omega), Nat.add_sub_cancel]
  · simp [h]

theorem bits_setBits_disjoint {lo n lo2 n2 : Nat} (h : lo + n ≤ lo2 ∨ lo2 + n2 ≤ lo) (x v : Nat) :
    bits (setBits x lo n v) lo2 n2 = bits x lo2 n2 := by
  refine Nat.eq_of_testBit_eq fun i => ?_
  rw [testBit_bits, testBit_bits, testBit_setBits]
  by_cases hi : i < n2
  · rw [if_neg (by omega)]
  · simp [hi]

theorem bit_setBit (x i j : Nat) (b : Bool) : bit (setBit x i b) j = if j = i then b else bit x j := by
  split
  · next h => rw [h, bit_setBit_self]
  · next h => rw [bit_eq_testBit, setBit, testBit_setBits, if_neg (by omega), bit_eq_testBit]

/-! The registers that names have (R315) -/

/-- Renaming in a rotating loop gives different names different registers. -/
theorem phys_injective (h : Hart) {p q : Nat} (hp : p < nrOf h.nrc) (hq : q < nrOf h.nrc) (he : h.phys p = h.phys q) : p = q := by
  unfold Hart.phys at he
  split at he
  · exact he
  · next l _ =>
    have hnr : nrOf h.nrc = 2 * (nrOf h.nrc / 2) := by
      have heven : nrOf h.nrc = 2 * 2 ^ (2 + h.nrc.toNat) := by rw [nrOf, ← Nat.pow_succ']; congr 1; omega
      omega
    dsimp only at he
    generalize nrOf h.nrc / 2 = half at he hnr
    generalize half - (h.code (16 + l.ctr)).toNat % half = turn at he
    split at he
    · next hlow =>
      split at he <;> omega
    · next hhigh =>
      split at he
      · omega
      · have hmod : (p - half + turn) % half = (q - half + turn) % half := Nat.add_left_cancel he
        have hsame : p - half = q - half := Nat.ModEq.eq_of_lt_of_lt (Nat.ModEq.add_right_cancel' turn hmod) (by omega) (by omega)
        omega

/-! Elements (R179, R180) -/

/-- Where an element of a group rests: its register and its position there. -/
def Hart.elCell (h : Hart) (w r e : Nat) : Nat × Nat := (h.phys (r + e / h.maxvl w), e % h.maxvl w)

/-- Elements in different cells are bits of different registers, or different bits. -/
theorem cells_disjoint {w i j : Nat} (h : i ≠ j) : i * w + w ≤ j * w ∨ j * w + w ≤ i * w := by
  rw [← Nat.succ_mul, ← Nat.succ_mul]
  rcases Nat.lt_or_gt_of_ne h with h | h
  · exact .inl (Nat.mul_le_mul_right w h)
  · exact .inr (Nat.mul_le_mul_right w h)

@[simp] theorem elCell_putEl (h : Hart) (w r e v : Nat) (bad : Bool) : (h.putEl w r e v bad).elCell = h.elCell := by
  unfold Hart.putEl
  split <;> rfl

theorem el_setEl_self {w : Nat} (hw : 0 < w) (h : Hart) (r e v : Nat) (bad : Bool) : (h.setEl w r e v bad).el w r e = (v % 2 ^ w, bad) := by
  have hpow : 1 < 2 ^ w := Nat.one_lt_two_pow (by omega)
  have hbad : ((if bad then 2 ^ w - 1 else 0) % 2 ^ w != 0) = bad := by
    cases bad
    · simp
    · rw [if_pos rfl, Nat.mod_eq_of_lt (by omega)]
      exact bne_iff_ne.mpr (by omega)
  show (bits (Tab.get 0 (Tab.set 0 _ _ _) (h.phys (r + e / h.maxvl w))) (e % h.maxvl w * w) w,
    bits (Tab.get 0 (Tab.set 0 _ _ _) (h.phys (r + e / h.maxvl w))) (e % h.maxvl w * w) w != 0) = _
  rw [Tab.get_set_self, Tab.get_set_self, bits_setBits_self, bits_setBits_self, hbad]

theorem el_setEl_other {h : Hart} {w r e q f : Nat} (hc : h.elCell w r e ≠ h.elCell w q f) (v : Nat) (bad : Bool) :
    (h.setEl w r e v bad).el w q f = h.el w q f := by
  show (bits (Tab.get 0 (Tab.set 0 _ _ _) (h.phys (q + f / h.maxvl w))) (f % h.maxvl w * w) w,
    bits (Tab.get 0 (Tab.set 0 _ _ _) (h.phys (q + f / h.maxvl w))) (f % h.maxvl w * w) w != 0) = _
  by_cases hreg : h.phys (q + f / h.maxvl w) = h.phys (r + e / h.maxvl w)
  · have hpos : e % h.maxvl w ≠ f % h.maxvl w := fun hpos => hc (Prod.ext hreg.symm hpos)
    rw [hreg, Tab.get_set_self, Tab.get_set_self, bits_setBits_disjoint (cells_disjoint hpos), bits_setBits_disjoint (cells_disjoint hpos), ← hreg]
    rfl
  · rw [Tab.get_set_other _ _ _ _ _ hreg, Tab.get_set_other _ _ _ _ _ hreg]
    rfl

/-- The mark in pm leaves elements alone. -/
theorem el_putEl (h : Hart) (w r e v : Nat) (bad : Bool) : (h.putEl w r e v bad).el = (h.setEl w r e v bad).el := by
  unfold Hart.putEl
  split <;> rfl

theorem el_putEls_other {w r q f : Nat} {l : List (Nat × ERes)} {h : Hart} (hc : ∀ x ∈ l, h.elCell w r x.1 ≠ h.elCell w q f) :
    (h.putEls w r l).el w q f = h.el w q f := by
  induction l generalizing h with
  | nil => rfl
  | cons x l ih =>
    obtain ⟨hx, hl⟩ := List.forall_mem_cons.mp hc
    have htail := ih (h := h.putEl w r x.1 x.2.val x.2.bad) (by rwa [elCell_putEl])
    rw [el_putEl, el_setEl_other hx] at htail
    exact htail

/-- Results for different cells all stand at the end. -/
theorem el_putEls_mem {w r : Nat} (hw : 0 < w) {l : List (Nat × ERes)} {h : Hart} (hl : (l.map (fun x => h.elCell w r x.1)).Nodup)
    {x : Nat × ERes} (hx : x ∈ l) : (h.putEls w r l).el w r x.1 = (x.2.val % 2 ^ w, x.2.bad) := by
  induction l generalizing h with
  | nil => cases hx
  | cons y l ih =>
    obtain ⟨hy, hl⟩ := List.nodup_cons.mp hl
    let k := h.putEl w r y.1 y.2.val y.2.bad
    have hcell : k.elCell = h.elCell := elCell_putEl ..
    show (k.putEls w r l).el w r x.1 = _
    rcases List.mem_cons.mp hx with rfl | hx
    · have hrest : ∀ z ∈ l, k.elCell w r z.1 ≠ k.elCell w r x.1 := fun z hz he =>
        hy (List.mem_map.mpr ⟨z, hz, by rwa [hcell] at he⟩)
      rw [el_putEls_other hrest, el_putEl, el_setEl_self hw]
    · exact ih (by rwa [hcell]) hx

/-- Two elements of a group below NR that rest in one cell are one element. -/
theorem elCell_injective {h : Hart} {w r g i j : Nat} (hg : r + g ≤ nrOf h.nrc) (hi : i < g * h.maxvl w) (hj : j < g * h.maxvl w)
    (hc : h.elCell w r i = h.elCell w r j) : i = j := by
  obtain ⟨hreg, hpos⟩ := Prod.mk.inj hc
  have hig := Nat.div_lt_of_lt_mul (Nat.mul_comm g _ ▸ hi)
  have hjg := Nat.div_lt_of_lt_mul (Nat.mul_comm g _ ▸ hj)
  have hdiv : i / h.maxvl w = j / h.maxvl w := Nat.add_left_cancel (phys_injective h (by omega) (by omega) hreg)
  rw [← Nat.div_add_mod i (h.maxvl w), ← Nat.div_add_mod j (h.maxvl w), hdiv, hpos]

/-! Mask bits (R177, R188) -/

theorem maskBit_setMaskBit (h : Hart) (m e : Nat) (b : Bool) (j f : Nat) :
    (h.setMaskBit m e b).maskBit j f = if j = m ∧ f = e then b else h.maskBit j f := by
  show bit (Tab.get 0 (Tab.set 0 h.vx.m m (setBit (Tab.get 0 h.vx.m m) e b)) j) f = _
  by_cases hj : j = m
  · subst hj
    simp only [Tab.get_set_self, bit_setBit, true_and]
    rfl
  · rw [Tab.get_set_other _ _ _ _ _ hj, if_neg (fun hc => hj hc.1)]
    rfl

theorem maskBit_markPm (h : Hart) (e j f : Nat) : (h.markPm e).maskBit j f = true ↔ (j = 7 ∧ e = f) ∨ h.maskBit j f = true := by
  rw [Hart.markPm, maskBit_setMaskBit, eq_comm (a := e)]
  by_cases hc : j = 7 ∧ f = e <;> simp [hc]

theorem maskBit_putEl (h : Hart) (w r e v : Nat) (bad : Bool) (j f : Nat) :
    (h.putEl w r e v bad).maskBit j f = true ↔ (j = 7 ∧ e = f ∧ bad = true) ∨ h.maskBit j f = true := by
  unfold Hart.putEl
  split
  · next hbad =>
    rw [maskBit_markPm, and_iff_left hbad]
    rfl
  · next hbad =>
    rw [or_iff_right (fun hc => hbad hc.2.2)]
    rfl

theorem maskBit_putEls (w r : Nat) (l : List (Nat × ERes)) (h : Hart) (j f : Nat) :
    (h.putEls w r l).maskBit j f = true ↔ (j = 7 ∧ ∃ x ∈ l, x.1 = f ∧ x.2.bad = true) ∨ h.maskBit j f = true := by
  induction l generalizing h with
  | nil => simp [Hart.putEls]
  | cons x l ih =>
    show ((h.putEl w r x.1 x.2.val x.2.bad).putEls w r l).maskBit j f = true ↔ _
    rw [ih, maskBit_putEl, List.exists_mem_cons_iff, and_or_left, or_assoc, or_left_comm]

section

variable {α : Type} (m : Nat) (pos : α → Nat) (b : α → Bool)

/-- Bits of a mask register written for the entries of a list. -/
def Hart.setMaskBits (h : Hart) (l : List α) : Hart := l.foldl (fun k x => k.setMaskBit m (pos x) (b x)) h

theorem setMaskBits_only (h : Hart) (l : List α) : { h.setMaskBits m pos b l with vx := h.vx } = h :=
  foldl_keeps (fun k : Hart => { k with vx := h.vx }) (fun k x => k.setMaskBit m (pos x) (b x)) (fun _ _ => rfl) l h

theorem setMaskBits_registers (h : Hart) (l : List α) : (h.setMaskBits m pos b l).vx.v = h.vx.v ∧ (h.setMaskBits m pos b l).vx.vp = h.vx.vp :=
  ⟨foldl_keeps (fun k : Hart => k.vx.v) (fun k x => k.setMaskBit m (pos x) (b x)) (fun _ _ => rfl) l h,
    foldl_keeps (fun k : Hart => k.vx.vp) (fun k x => k.setMaskBit m (pos x) (b x)) (fun _ _ => rfl) l h⟩

theorem maskBit_setMaskBits_other {l : List α} {j f : Nat} (hn : j = m → ∀ x ∈ l, pos x ≠ f) (h : Hart) :
    (h.setMaskBits m pos b l).maskBit j f = h.maskBit j f := by
  induction l generalizing h with
  | nil => rfl
  | cons x l ih =>
    have htail := ih (fun hj y hy => hn hj y (List.mem_cons_of_mem x hy)) (h.setMaskBit m (pos x) (b x))
    rw [maskBit_setMaskBit, if_neg (fun hc => hn hc.1 x List.mem_cons_self hc.2.symm)] at htail
    exact htail

theorem maskBit_setMaskBits_mem {l : List α} (hl : (l.map pos).Nodup) {x : α} (hx : x ∈ l) (h : Hart) :
    (h.setMaskBits m pos b l).maskBit m (pos x) = b x := by
  induction l generalizing h with
  | nil => cases hx
  | cons y l ih =>
    obtain ⟨hy, hl⟩ := List.nodup_cons.mp hl
    show ((h.setMaskBit m (pos y) (b y)).setMaskBits m pos b l).maskBit m (pos x) = b x
    rcases List.mem_cons.mp hx with rfl | hx
    · have hrest : ∀ z ∈ l, pos z ≠ pos x := fun z hz he => hy (List.mem_map.mpr ⟨z, hz, he⟩)
      rw [maskBit_setMaskBits_other m pos b (fun _ => hrest), maskBit_setMaskBit, if_pos ⟨rfl, rfl⟩]
    · exact ih hl hx _

end

theorem maskBit_foldl_markPm {α : Type} (pos : α → Nat) (l : List α) (h : Hart) (j f : Nat) :
    (l.foldl (fun k x => k.markPm (pos x)) h).maskBit j f = true ↔ (j = 7 ∧ ∃ x ∈ l, pos x = f) ∨ h.maskBit j f = true := by
  induction l generalizing h with
  | nil => simp
  | cons x l ih =>
    rw [List.foldl_cons, ih, maskBit_markPm, List.exists_mem_cons_iff, and_or_left, or_assoc, or_left_comm]

/-- Mask results as they are written, before their poison reaches pm. -/
abbrev Hart.maskWritten (h : Hart) (d : Nat) (l : List (Nat × ERes)) : Hart := h.setMaskBits d Prod.fst (fun x => x.2.val != 0) l

theorem putMask_eq (h : Hart) (d : Nat) (l : List (Nat × ERes)) :
    h.putMask d l = (l.filter (fun x => x.2.bad)).foldl (fun k x => k.markPm x.1) (h.maskWritten d l) := rfl

theorem maskBit_putMask (h : Hart) (d : Nat) (l : List (Nat × ERes)) (j f : Nat) :
    (h.putMask d l).maskBit j f = true ↔ (j = 7 ∧ ∃ x ∈ l, x.1 = f ∧ x.2.bad = true) ∨ (h.maskWritten d l).maskBit j f = true := by
  have hmarks : (∃ x ∈ l.filter (fun e => e.2.bad), x.1 = f) ↔ ∃ x ∈ l, x.1 = f ∧ x.2.bad = true := by
    simp only [List.mem_filter, and_assoc, and_comm (a := Prod.fst _ = f)]
  rw [putMask_eq, maskBit_foldl_markPm Prod.fst, hmarks]

theorem putMask_registers (h : Hart) (d : Nat) (l : List (Nat × ERes)) :
    (h.putMask d l).vx.v = h.vx.v ∧ (h.putMask d l).vx.vp = h.vx.vp := by
  obtain ⟨hv, hvp⟩ := setMaskBits_registers d Prod.fst (fun x : Nat × ERes => x.2.val != 0) h l
  rw [putMask_eq]
  exact ⟨Eq.trans (foldl_keeps (fun k : Hart => k.vx.v) _ (by intros; rfl) _ (h.maskWritten d l)) hv,
    Eq.trans (foldl_keeps (fun k : Hart => k.vx.vp) _ (by intros; rfl) _ (h.maskWritten d l)) hvp⟩

/-- A written bit, with the mark of its poison when the destination is pm itself. -/
theorem maskBit_putMask_mem {l : List (Nat × ERes)} (hl : (l.map Prod.fst).Nodup) {x : Nat × ERes} (hx : x ∈ l) (h : Hart) (d : Nat) :
    (h.putMask d l).maskBit d x.1 = (x.2.val != 0 || (d == 7 && x.2.bad)) := by
  have hown : (∃ y ∈ l, y.1 = x.1 ∧ y.2.bad = true) ↔ x.2.bad = true :=
    ⟨fun ⟨y, hy, hyx, hbad⟩ => List.inj_on_of_nodup_map hl hy hx hyx ▸ hbad, fun hbad => ⟨x, hx, rfl, hbad⟩⟩
  rw [Bool.eq_iff_iff, maskBit_putMask, hown, maskBit_setMaskBits_mem d Prod.fst _ hl hx, or_comm]
  simp

/-! Whole registers copied (R190) -/

/-- The hart after `n` registers from `a` on have been copied to those from `d` on. -/
def Hart.copyRegs (h : Hart) (d a n : Nat) : Hart := (List.range n).foldl (fun k i => k.copyReg h (d + i) (a + i)) h

theorem copyRegs_succ (h : Hart) (d a n : Nat) : h.copyRegs d a (n + 1) = (h.copyRegs d a n).copyReg h (d + n) (a + n) := by
  rw [Hart.copyRegs, List.range_succ, List.foldl_append]
  rfl

theorem copyRegs_only (h : Hart) (d a n : Nat) : { h.copyRegs d a n with vx := h.vx } = h :=
  foldl_keeps (fun k : Hart => { k with vx := h.vx }) (fun k i => k.copyReg h (d + i) (a + i)) (fun _ _ => rfl) (List.range n) h

theorem copyRegs_masks (h : Hart) (d a n : Nat) : (h.copyRegs d a n).vx.m = h.vx.m :=
  foldl_keeps (fun k : Hart => k.vx.m) (fun k i => k.copyReg h (d + i) (a + i)) (fun _ _ => rfl) (List.range n) h

/-- The register whose content stands at a name after the copy. -/
def copySource (d a n q : Nat) : Nat := if d ≤ q ∧ q < d + n then a + (q - d) else q

theorem get_copyRegs {h : Hart} {d n q : Nat} (hd : d + n ≤ nrOf h.nrc) (hq : q < nrOf h.nrc) (a : Nat) :
    Tab.get 0 (h.copyRegs d a n).vx.v (h.phys q) = Tab.get 0 h.vx.v (h.phys (copySource d a n q)) ∧
      Tab.get 0 (h.copyRegs d a n).vx.vp (h.phys q) = Tab.get 0 h.vx.vp (h.phys (copySource d a n q)) := by
  induction n with
  | zero =>
    rw [copySource, if_neg (by omega)]
    exact ⟨rfl, rfl⟩
  | succ n ih =>
    rw [copyRegs_succ]
    show Tab.get 0 (Tab.set 0 _ (h.phys (d + n)) _) _ = _ ∧ Tab.get 0 (Tab.set 0 _ (h.phys (d + n)) _) _ = _
    by_cases hlast : q = d + n
    · subst hlast
      rw [copySource, if_pos (by omega), Nat.add_sub_cancel_left, Tab.get_set_self, Tab.get_set_self]
      exact ⟨rfl, rfl⟩
    · have hreg : h.phys q ≠ h.phys (d + n) := fun he => hlast (phys_injective h hq (by omega) he)
      have hsource : copySource d a (n + 1) q = copySource d a n q := by
        unfold copySource
        congr 1
        exact propext (by omega)
      rw [Tab.get_set_other _ _ _ _ _ hreg, Tab.get_set_other _ _ _ _ _ hreg, hsource]
      exact ih (by omega)

end Sys2Proof.Machine

namespace Sys2Proof.Claims

open Sys2Proof.Machine

/-- Settles O32: results for different elements go to different cells, so that each of them stands, and the other cells are as they were; pm and
the mask bits by the lists' order. -/
theorem vectorWrites : Obligations.VectorWrites := by
  unfold Obligations.VectorWrites
  refine ⟨fun h w r g l hw hm hg hl hlt => ⟨fun x hx => ?written, fun q e hq he hx => ?others, maskBit_putEls w r l h⟩,
    fun h d l hl => ⟨fun x hx => maskBit_putMask_mem hl hx h d, fun j e hj => ?masks, fun e he => ?bits, putMask_registers h d l⟩⟩
  case written =>
    refine el_putEls_mem hw ?_ hx
    exact List.Nodup.map_on (fun y hy z hz hc => List.inj_on_of_nodup_map hl hy hz (elCell_injective hg (hlt y hy) (hlt z hz) hc)) hl.of_map
  case others =>
    refine el_putEls_other fun x hxl hc => hx x hxl ?_
    obtain ⟨hreg, hpos⟩ := Prod.mk.inj hc
    have hxg := Nat.div_lt_of_lt_mul (Nat.mul_comm g _ ▸ hlt x hxl)
    rw [Nat.div_eq_of_lt he, Nat.add_zero] at hreg
    exact ⟨phys_injective h (by omega) hq hreg, hpos.trans (Nat.mod_eq_of_lt he)⟩
  case masks =>
    rw [maskBit_putMask, maskBit_setMaskBits_other d Prod.fst _ (fun hjd => absurd hjd hj)]
  case bits =>
    rw [Bool.eq_iff_iff, maskBit_putMask, maskBit_setMaskBits_other d Prod.fst _ (fun _ => he)]
    exact or_iff_right fun ⟨_, x, hx, hxe, _⟩ => he x hx hxe

end Sys2Proof.Claims
end

section
/-! PROOFS. VMISC (R189, R190), and the end and the new start of a hart's vector state (R182, R191, R285, R309). -/

namespace Sys2Proof.Machine

open Sys2Proof.Claims

/-! VMISC -/

/-- A word that passes its issue checks does what it does. -/
theorem vissue_ok {s : State} {n : Hart → Need} (h : s.h.issueOk (n s.h) = true) (f : Out) : s.vissue n f = f := if_pos h

/-- A word that gives the hart in hand a new vector context, and changes nothing else, has completed. -/
theorem vdone_completes {s : State} {k : Hart} (hk : { k with vx := s.h.vx } = s.h) (fl : Nat) : VDone s (s.vdone k fl) k fl := by
  refine ⟨?_, rfl, fun _ => rfl, fun _ => rfl⟩
  show k.vdone fl = _
  generalize s.h = h at hk
  generalize h.vx = x at hk
  subst hk
  rfl

/-- The elements below VL of a group with their poison cleared. -/
def Hart.clearPoison (h : Hart) (d : Nat) : Hart :=
  (List.range h.vx.vl).foldl (fun k e => k.setEl k.sew d e (k.el k.sew d e).1 false) h

theorem clearPoison_only (h : Hart) (d : Nat) : { h.clearPoison d with vx := h.vx } = h :=
  foldl_keeps (fun k : Hart => { k with vx := h.vx }) (fun k e => k.setEl k.sew d e (k.el k.sew d e).1 false) (fun _ _ => rfl) (List.range h.vx.vl) h

theorem clearPoison_masks (h : Hart) (d : Nat) : (h.clearPoison d).vx.m = h.vx.m :=
  foldl_keeps (fun k : Hart => k.vx.m) (fun k e => k.setEl k.sew d e (k.el k.sew d e).1 false) (fun _ _ => rfl) (List.range h.vx.vl) h

section

variable {s : State} (c : BitVec 1)

theorem exec_vpclr {d : BitVec 6} (h : s.h.issueOk (needVpclr d.toNat s.h) = true) :
    exec (.vpclr c d) s = .next (s.vdone (s.h.clearPoison d.toNat) 0) := vissue_ok h _

theorem exec_vpmclr : exec (.vpmclr c) s = .next (s.vdone { s.h with vx := { s.h.vx with m := Tab.set 0 s.h.vx.m 7 0 } } 0) := rfl

theorem exec_vpmask {k : BitVec 3} {a : BitVec 6} (h : s.h.issueOk (needVpmask k.toNat a.toNat s.h) = true) :
    exec (.vpmask c k a) s = .next (s.vdone (s.h.setMaskBits k.toNat id (fun e => (s.h.el s.h.sew a.toNat e).2) (List.range s.h.vx.vl)) 0) :=
  vissue_ok h _

theorem exec_vid {d : BitVec 6} (h : s.h.issueOk (needVid d.toNat s.h) = true) : exec (.vid c d) s =
    .next (s.vdone (s.h.putEls s.h.sew d.toNat ((List.range s.h.vx.vl).map (fun e => (e, ERes.clean e)))) 0) := vissue_ok h _

theorem exec_vmvR {d a : BitVec 6} {n : BitVec 2} (h : s.h.issueOk (needVmvR d.toNat a.toNat (2 ^ n.toNat) s.h) = true) :
    exec (.vmvR c d a n) s = .next (s.vdone (s.h.copyRegs d.toNat a.toNat (2 ^ n.toNat)) 0) := vissue_ok h _

end

/-- The destination of a `vmv.r` that passes its checks ends below NR (R190). -/
theorem issueOk_vmvR {h : Hart} {d a n : Nat} (hok : h.issueOk (needVmvR d a n h) = true) : d + n ≤ nrOf h.nrc := by
  simp only [Hart.issueOk, needVmvR, groupOk, List.all_cons, Bool.and_eq_true, decide_eq_true_eq] at hok
  obtain ⟨⟨⟨-, ⟨⟨-, hd⟩, -⟩, -⟩, -⟩, -⟩ := hok
  exact hd

/-! The life of vector state -/

/-- The state in which the hart in hand has given up its lanes. -/
def State.lanesGiven (s : State) : State :=
  match s.h.slot with
  | some n => (s.dropLanes s.h.core s.h.hid).setBind s.h.core n (fun b => { b with lgm := 0 })
  | none => s.dropLanes s.h.core s.h.hid

@[simp] theorem State.h_lanesGiven (s : State) : s.lanesGiven.h = s.h := by
  unfold State.lanesGiven
  split <;> rfl

@[simp] theorem State.mem_lanesGiven (s : State) : s.lanesGiven.mem = s.mem := by
  unfold State.lanesGiven
  split <;> rfl

/-- The hart after its vector state has died for good (R285). -/
def Hart.disbanded (h : Hart) : Hart := { h.killVector with released := true }

/-- What the forager sees of vector state that VCFG has cleared (R182). -/
def Snap.cleared (x : Snap) : Snap := { x with vl := 0, vtype := vtypeIllWord }

/-- The hart after its vector state has been cleared under a new register count (R182). -/
def Hart.configured (h : Hart) (n : BitVec 2) : Hart :=
  { h with nrc := n, vx := { h.vx with v := [], vp := [], m := [], vl := 0, vtype := VType.ill }, seen := h.seen.cleared,
           lastSnap := h.lastSnap.map Snap.cleared, replies := h.replies.map (fun e => (e.1, e.2.map Snap.cleared)) }

section

variable {s : State} (htrap : s.h.trapWaits = false) (hrun : s.h.run = none) (hqueue : s.h.queue = []) (hown : OwnsLanes s)

include htrap hrun hqueue hown

theorem exec_vrel (d : BitVec 5) :
    exec (.vrel d) s = .next ((s.lanesGiven.setH Hart.disbanded).retireX d 0) := by
  have hidle : s.h.vectorBusy = false := by simp [Hart.vectorBusy, hrun, hqueue]
  show execVrel d s = _
  rw [execVrel, State.meetsTrap, htrap, hidle, withLanes_of_ownsLanes hown]
  rfl

theorem exec_vcfg (hrel : s.h.released = false) (d : BitVec 5) (n : BitVec 2) :
    exec (.vcfg d n) s = .next ((s.setH (fun h => h.configured n)).retireX d (word (regBits s.h.lanes n))) := by
  have hidle : s.h.vectorBusy = false := by simp [Hart.vectorBusy, hrun, hqueue]
  show execVcfg d n s = _
  rw [execVcfg, State.meetsTrap, htrap, hrel, hidle, withLanes_of_ownsLanes hown]
  rfl

end

/-- A write of a scalar register leaves the rest of the hart as it was. -/
theorem retireX_same {α : Type} (f : Hart → α) (hf : ∀ h x pc iw begun, f { h with x := x, pc := pc, iw := iw, begun := begun } = f h)
    (s : State) (d : BitVec 5) (v : Word) : f (s.retireX d v).h = f s.h :=
  (hf (s.retireX d v).h s.h.x s.h.pc s.h.iw s.h.begun).symm.trans (congrArg f (retireX_only s d v))

/-- A word that changes no scalar register and no byte before it retires shows its result and the next word alone. -/
theorem retireX_after {s u : State} (hx : u.h.x = s.h.x) (hpc : u.h.pc = s.h.pc) (hmem : u.mem = s.mem) (d : BitVec 5) (v : Word) :
    WroteX (u.retireX d v) d v ∧ OtherX s (u.retireX d v) d ∧ (u.retireX d v).h.pc = s.h.pc + 4 ∧ SameBytes s (u.retireX d v) := by
  obtain ⟨hwrote, hother, -⟩ := resultX_retireX u d v
  have hxr : ∀ n, u.h.xr n = s.h.xr n := fun n => by rw [Hart.xr, Hart.xr, hx]
  exact ⟨hwrote, fun r hr => (hother r hr).trans (hxr _), by rw [retireX_pc, hpc], sameBytes_of_mem hmem⟩

end Sys2Proof.Machine

namespace Sys2Proof.Claims

open Sys2Proof.Machine

/-- Settles O36, word by word. -/
theorem vectorMoves : Obligations.VectorMoves := by
  unfold Obligations.VectorMoves
  refine fun s c d a k n => ⟨fun hok => ?vpclr, ?vpmclr, fun hok => ?vpmask, fun hok => ?vid, fun hok => ?vmvR⟩
  case vpclr => exact ⟨_, exec_vpclr c hok, vdone_completes (clearPoison_only ..) 0, clearPoison_masks ..⟩
  case vpmclr => exact ⟨_, exec_vpmclr c, vdone_completes (by rfl) 0⟩
  case vpmask =>
    obtain ⟨hv, hvp⟩ := setMaskBits_registers k.toNat id (fun e => (s.h.el s.h.sew a.toNat e).2) s.h (List.range s.h.vx.vl)
    refine ⟨_, exec_vpmask c hok, hv, hvp, fun e => ?_, fun j e hj => ?_, vdone_completes (setMaskBits_only ..) 0⟩
    · split
      · next he =>
        exact maskBit_setMaskBits_mem k.toNat id _ (by rw [List.map_id]; exact List.nodup_range) (List.mem_range.mpr he) s.h
      · next he =>
        exact maskBit_setMaskBits_other k.toNat id _ (fun _ x hx => ne_of_lt (lt_of_lt_of_le (List.mem_range.mp hx) (not_lt.mp he))) s.h
    · exact maskBit_setMaskBits_other k.toNat id _ (fun hjk => absurd hjk hj) s.h
  case vid => exact ⟨_, exec_vid c hok, vdone_completes (putEls_only ..) 0⟩
  case vmvR =>
    exact ⟨_, exec_vmvR c hok, vdone_completes (copyRegs_only ..) 0, copyRegs_masks .., fun q hq => get_copyRegs (issueOk_vmvR hok) hq _⟩

/-- Settles O19: the hart as each of the two words makes it, with the word's result in its register. -/
theorem vectorLife : Obligations.VectorLife := by
  unfold Obligations.VectorLife
  refine fun s d n htrap hrun hqueue hown => ⟨⟨_, exec_vrel htrap hrun hqueue hown d, ?vrel⟩,
    fun hrel => ⟨_, exec_vcfg htrap hrun hqueue hown hrel d n, ?vcfg⟩⟩
  case vrel =>
    have hu : (s.lanesGiven.setH Hart.disbanded).h = s.h.disbanded := by rw [State.h_setH, State.h_lanesGiven]
    obtain ⟨hwrote, hother, hpc, hbytes⟩ := retireX_after (s := s) (congrArg Hart.x hu :) (congrArg Hart.pc hu :) (State.mem_lanesGiven s) d 0
    refine ⟨?_, ?_, ?_, hwrote, hother, hpc, ?_, ?_, hbytes⟩
    · rw [retireX_same Hart.released (by intros; rfl), hu]; rfl
    · rw [retireX_same Hart.vx (by intros; rfl), hu]; rfl
    · rw [retireX_same Hart.seen (by intros; rfl), hu]; rfl
    · rw [retireX_same Hart.fxf (by intros; rfl), hu]; rfl
    · rw [retireX_same Hart.nrc (by intros; rfl), hu]; rfl
  case vcfg =>
    obtain ⟨hwrote, hother, hpc, hbytes⟩ := retireX_after (s := s) (u := s.setH (fun h => h.configured n)) rfl rfl rfl d (word (regBits s.h.lanes n))
    refine ⟨?_, ?_, ?_, ?_, ?_, ?_, ?_, hwrote, hother, hpc, rfl, hbytes⟩
    · rw [retireX_same Hart.nrc (by intros; rfl)]; rfl
    all_goals rw [retireX_same Hart.vx (by intros; rfl)]; rfl

end Sys2Proof.Claims
end

section
/-! PROOFS. Words of the lanes that write vector registers (R197, R210-R216): how their results trap or complete, without and with redundant
execution, and the element-wise integer, logic, shift and merge words. -/

namespace Sys2Proof.Machine

open Sys2Proof.Claims

/-! The recheck queue -/

theorem core_count (s : State) (t i n c : Nat) : (s.count t i n).core c = s.core c := congrArg (Tab.get Core.reset · c) (cores_count s t i n)

/-- A change of one core's recheck queue changes no core but for its queue. -/
theorem core_setQueue (s : State) (a c : Nat) (q : Core → List Recheck) (l : List Recheck) :
    { (s.setCore a (fun k => { k with recheck := q k })).core c with recheck := l } = { s.core c with recheck := l } :=
  core_setCore_keeps (fun k => { k with recheck := l }) s a c (f := fun k => { k with recheck := q k }) (fun _ => rfl)

/-- A word that enters the recheck queue changes that queue and the counts of rechecks; without redundant execution it enters none (R430). -/
theorem onlyLanes_enqueueRecheck (s : State) : OnlyLanes s s.enqueueRecheck := by
  have hcounted : ∀ t n, { s.count t 13 n with h := s.h, did := s.did, cores := s.cores, tenants := s.tenants } = s := fun t n =>
    congrArg (fun z : State => { z with h := s.h, did := s.did, cores := s.cores }) (count_only s t 13 n)
  unfold State.enqueueRecheck
  dsimp only
  split
  case isTrue => exact ⟨rfl, fun _ => rfl, fun _ => rfl⟩
  case isFalse hon =>
    refine ⟨?machine, fun c => ?cores, fun h => absurd h hon⟩
    case machine =>
      split
      · rfl
      · split
        · exact hcounted ..
        · exact hcounted ..
    case cores =>
      split
      · exact core_setQueue s s.h.core c (fun k => k.recheck ++ [s.h.snapshot]) _
      · split
        · rw [core_count]
        · refine (core_setQueue _ s.h.core c (fun k => k.recheck.tail ++ [s.h.snapshot]) _).trans ?_
          rw [core_count]

/-- A word that completes after it has entered the recheck queue. -/
theorem vdone_enqueueRecheck {s : State} {k : Hart} (hk : { k with vx := s.h.vx } = s.h) (fl : Nat) :
    VDone s (s.enqueueRecheck.vdone k fl) k fl := by
  obtain ⟨hhart, -⟩ := vdone_completes hk fl
  exact ⟨hhart, onlyLanes_enqueueRecheck s⟩

/-! Words of the lanes -/

/-- Without votes the results of the first run stand (R431). -/
theorem voted_of_no_votes {h : Hart} (hv : h.votes = []) (l : List (Nat × ERes)) : h.voted l = l := by
  simp [Hart.voted, Hart.votedBy, hv]

theorem laneDone_completes {s : State} {l : List (Nat × ERes)} (h : s.h.run.bind (fun b => b.arithTrap l) = none) (k : Hart) :
    s.laneDone l k = .next (s.enqueueRecheck.vdone k (flagsOf l)) := by
  rw [State.laneDone, h]

theorem laneDone_traps {s : State} {l : List (Nat × ERes)} {c : Nat} {v : Word} (h : s.h.run.bind (fun b => b.arithTrap l) = some (c, v))
    (k : Hart) : s.laneDone l k = .next (if s.h.rechk = 0 || s.h.owed then s.vtrap c v 0 else s.oweTrap) := by
  rw [State.laneDone, h]

/-- A word that ends its run with results, and writes the vector context alone, is a word of the lanes. -/
theorem lane_laneDone {s : State} {j : Instr} {n : Hart → Need} {l : List (Nat × ERes)} {k : List (Nat × ERes) → Hart}
    (hexec : exec j s = s.vissue n (s.laneDone (s.h.voted l) (k (s.h.voted l)))) (hk : { k l with vx := s.h.vx } = s.h) :
    Lane s (j, n s.h, l) (k l) := by
  refine ⟨fun hbad => hexec.trans (if_neg (ne_true_of_eq_false hbad)), fun hok hv => ?_⟩
  rw [vissue_ok hok, voted_of_no_votes hv] at hexec
  refine ⟨fun hnone => ⟨_, hexec.trans (laneDone_completes hnone _), vdone_enqueueRecheck hk _⟩,
    fun c v htrap => ⟨fun hend => ?_, fun hon howed => ?_⟩⟩
  · rw [hexec, laneDone_traps htrap, if_pos (by simpa using hend)]
  · rw [hexec, laneDone_traps htrap, if_neg (by simp [hon, howed])]

/-- A word that writes its results to a vector group. -/
theorem lane_toVec {s : State} {j : Instr} {n : Hart → Need} {d : Nat} {l : List (Nat × ERes)} (hexec : exec j s = s.vissue n (s.toVec d l)) :
    Lane s (j, n s.h, l) (s.h.putEls s.h.sew d l) :=
  lane_laneDone (k := s.h.putEls s.h.sew d) hexec (putEls_only ..)

section

variable {s : State} {j : Instr} {n : Hart → Need} {d m : Nat} {A B : Hart → VOpnd} {r : Need × List (Nat × ERes)}

/-- A word whose meaning is element-wise has the row that its function and operands give. -/
theorem lane_ewise (meaning : State → Out) {f : Nat → Nat → Nat → Nat × Nat} (hexec : exec j s = meaning s)
    (hmeaning : meaning s = ewise n f d m A B s) (hr : r = (n s.h, s.h.results m (bin (f s.h.sew) (A s.h) (B s.h)))) :
    Lane s (j, r) (s.h.putEls s.h.sew d r.2) :=
  hr ▸ lane_toVec (hexec.trans hmeaning)

/-- What `vmerge` takes for an element (R215). -/
def Hart.merged (h : Hart) (m : Nat) (a b : VOpnd) (e : Nat) : ERes :=
  let x := if h.active m e then b e else a e
  { val := x.1, bad := x.2, fl := 0 }

/-- Mask field 0 makes every element below VL active (R178). -/
theorem actives_zero (h : Hart) : h.actives 0 = List.range h.vx.vl := List.filter_eq_self.mpr fun _ _ => rfl

theorem lane_merge (meaning : State → Out) (hexec : exec j s = meaning s) (hmeaning : meaning s = merge n d m A B s)
    (hr : r = (n s.h, (List.range s.h.vx.vl).map (fun e => (e, s.h.merged m (A s.h) (B s.h) e)))) :
    Lane s (j, r) (s.h.putEls s.h.sew d r.2) := by
  rw [← actives_zero] at hr
  exact hr ▸ lane_toVec (hexec.trans hmeaning)

end

/-! Integer functions (R213, R216) -/

theorem satTo_eq_saturated (w : Nat) (lo hi x : Int) : satTo w lo hi x = saturated w lo hi x := by
  unfold satTo saturated clamp
  split
  · next hlo => rw [if_neg (by omega)]
  · split
    · next hhi => rw [if_neg (by omega)]
    · rw [if_pos rfl]

theorem iSadd_eq (w : Nat) :
    iSadd w = fun x y => saturated w (-(2 ^ (w - 1) : Nat)) ((2 ^ (w - 1) : Nat) - 1) (sgn x w + sgn y w) :=
  funext₂ fun _ _ => satTo_eq_saturated ..

theorem iSaddu_eq (w : Nat) : iSaddu w = fun (x y : Nat) => saturated w 0 ((2 ^ w : Nat) - 1) ((x : Int) + y) :=
  funext₂ fun _ _ => satTo_eq_saturated ..

theorem iSsub_eq (w : Nat) :
    iSsub w = fun x y => saturated w (-(2 ^ (w - 1) : Nat)) ((2 ^ (w - 1) : Nat) - 1) (sgn x w - sgn y w) :=
  funext₂ fun _ _ => satTo_eq_saturated ..

theorem iSsubu_eq (w : Nat) : iSsubu w = fun (x y : Nat) => saturated w 0 ((2 ^ w : Nat) - 1) ((x : Int) - y) :=
  funext₂ fun _ _ => satTo_eq_saturated ..

theorem iMinu_eq (w : Nat) : iMinu w = fun x y => (min x y, 0) := by
  funext x y
  rw [iMinu, min_comm, min_def_lt]

theorem iMaxu_eq (w : Nat) : iMaxu w = fun x y => (max x y, 0) := by
  funext x y
  rw [iMaxu, max_def_lt]

/-- A number's residue modulo 2^n. -/
theorem unsg_natCast (x n : Nat) : unsg x n = x % 2 ^ n := by rw [unsg, ← Int.natCast_emod, Int.toNat_natCast]

theorem iSll_eq (w : Nat) : iSll w = fun x y => (x * 2 ^ (y % w) % 2 ^ w, 0) :=
  funext₂ fun _ _ => congrArg (·, 0) (unsg_natCast ..)

/-! The tables -/

section

variable (s : State) (c : BitVec 1) (d a b i : BitVec 6) (m : BitVec 3)

/-- The rows in the order of the table: exact results, high halves, saturated sums and differences, logic, extremes, and shifts. The functions
of most rows are the model's, spelled out; the others are so by the equations above. -/
theorem lane_intTable (n : BitVec 5) : ∀ e ∈ intTable s.h c d a b i n m, Lane s e (s.h.putEls s.h.sew d.toNat e.2.2) := by
  simp only [intTable, List.forall_mem_cons]
  exact ⟨lane_ewise (execVaddVv c d a b m) rfl rfl rfl, lane_ewise (execVaddVx c d a b m) rfl rfl rfl,
    lane_ewise (execVaddVi c d a i m) rfl rfl rfl, lane_ewise (execVsubVv c d a b m) rfl rfl rfl,
    lane_ewise (execVsubVx c d a b m) rfl rfl rfl, lane_ewise (execVrsubVx c d a b m) rfl rfl rfl,
    lane_ewise (execVrsubVi c d a i m) rfl rfl rfl, lane_ewise (execVmulVv c d a b m) rfl rfl rfl,
    lane_ewise (execVmulVx c d a b m) rfl rfl rfl, lane_ewise (execVmulh c d a b m) rfl rfl rfl,
    lane_ewise (execVmulhuVv c d a b m) rfl rfl rfl, lane_ewise (execVmulhuVx c d a b m) rfl rfl rfl,
    lane_ewise (execVmulhsu c d a b m) rfl rfl rfl, lane_ewise (execVsadd c d a b m) rfl rfl (by rw [iSadd_eq]),
    lane_ewise (execVsaddu c d a b m) rfl rfl (by rw [iSaddu_eq]), lane_ewise (execVssub c d a b m) rfl rfl (by rw [iSsub_eq]),
    lane_ewise (execVssubu c d a b m) rfl rfl (by rw [iSsubu_eq]), lane_ewise (execVandVv c d a b m) rfl rfl rfl,
    lane_ewise (execVandVx c d a b m) rfl rfl rfl, lane_ewise (execVorVv c d a b m) rfl rfl rfl,
    lane_ewise (execVorVx c d a b m) rfl rfl rfl, lane_ewise (execVxorVv c d a b m) rfl rfl rfl,
    lane_ewise (execVxorVx c d a b m) rfl rfl rfl, lane_ewise (execVxorVi c d a i m) rfl rfl rfl,
    lane_ewise (execVandn c d a b m) rfl rfl rfl, lane_ewise (execVmin c d a b m) rfl rfl rfl,
    lane_ewise (execVminu c d a b m) rfl rfl (by rw [iMinu_eq]), lane_ewise (execVmax c d a b m) rfl rfl rfl,
    lane_ewise (execVmaxu c d a b m) rfl rfl (by rw [iMaxu_eq]), lane_ewise (execVsllVv c d a b m) rfl rfl (by rw [iSll_eq]),
    lane_ewise (execVsllVi c d a n m) rfl rfl (by rw [iSll_eq]), lane_ewise (execVsrlVv c d a b m) rfl rfl rfl,
    lane_ewise (execVsrlVi c d a n m) rfl rfl rfl, lane_ewise (execVsraVv c d a b m) rfl rfl rfl,
    lane_ewise (execVsraVi c d a n m) rfl rfl rfl, List.forall_mem_nil _⟩

theorem lane_mergeTable : ∀ e ∈ mergeTable s.h c d a b i m, Lane s e (s.h.putEls s.h.sew d.toNat e.2.2) := by
  simp only [mergeTable, List.forall_mem_cons]
  exact ⟨lane_merge (execVmergeVv c d a b m) rfl rfl rfl, lane_merge (execVmergeVx c d a b m) rfl rfl rfl,
    lane_merge (execVmergeVi c d a i m) rfl rfl rfl, List.forall_mem_nil _⟩

end

end Sys2Proof.Machine

namespace Sys2Proof.Claims

open Sys2Proof.Machine

/-- Settles O29, table by table. -/
theorem vectorInteger : Obligations.VectorInteger := by
  unfold Obligations.VectorInteger
  exact fun s c d a b i n m => List.forall_mem_append.mpr ⟨lane_intTable s c d a b i m n, lane_mergeTable s c d a b i m⟩

end Sys2Proof.Claims
end

section
/-! PROOFS. Words of the lanes that write masks (R217, R227, R228): the compares, the combinations of masks, and the running passes along a
mask, with the law of passes over ascending elements that scans and ranks share. -/

namespace Sys2Proof.Machine

open Sys2Proof.Claims

/-! Passes over ascending elements (R226, R228) -/

theorem actives_ascending (h : Hart) (m : Nat) : (h.actives m).Pairwise (· < ·) := List.pairwise_lt_range.filter _

theorem lt_of_mem_actives {h : Hart} {m e : Nat} (he : e ∈ h.actives m) : e < h.vx.vl := List.mem_range.mp (List.mem_of_mem_filter he)

/-- The elements of an ascending list below one of them are those before it. -/
theorem filter_lt_ascending {l r : List Nat} {e : Nat} (h : (l ++ e :: r).Pairwise (· < ·)) :
    (l ++ e :: r).filter (· < e) = l := by
  obtain ⟨-, hr, hl⟩ := List.pairwise_append.mp h
  have hbelow : l.filter (· < e) = l := List.filter_eq_self.mpr fun j hj => decide_eq_true (hl j hj e List.mem_cons_self)
  have habove : (e :: r).filter (· < e) = [] := List.filter_eq_nil_iff.mpr fun j hj hlt => by
    rcases List.mem_cons.mp hj with rfl | hj
    · exact lt_irrefl _ (of_decide_eq_true hlt)
    · exact lt_asymm (List.rel_of_pairwise_cons hr hj) (of_decide_eq_true hlt)
  rw [List.filter_append, hbelow, habove, List.append_nil]

/-- One step of a pass along elements: the accumulator goes on, and an output of the accumulator before the element joins those so far, the
last first. -/
def passStep {β γ : Type} (g : β → Nat → β) (out : β → Nat → γ) (p : β × List γ) (e : Nat) : β × List γ := (g p.1 e, out p.1 e :: p.2)

/-- A pass outputs, at each element, what the fold of the elements before it gives. -/
theorem pass_ascending {β γ : Type} (g : β → Nat → β) (out : β → Nat → γ) (z : β) (l : List Nat) (hl : l.Pairwise (· < ·)) :
    l.foldl (passStep g out) (z, []) = (l.foldl g z, (l.map (fun e => out ((l.filter (· < e)).foldl g z) e)).reverse) := by
  induction l using List.reverseRecOn with
  | nil => rfl
  | append_singleton l x ih =>
    obtain ⟨hfirst, -, habove⟩ := List.pairwise_append.mp hl
    have hlast : (l ++ [x]).filter (· < x) = l := filter_lt_ascending hl
    have hbefore : ∀ e ∈ l, (l ++ [x]).filter (· < e) = l.filter (· < e) := fun e he => by
      have hx : ¬x < e := lt_asymm (habove e he x (List.mem_singleton_self x))
      rw [List.filter_append, List.filter_singleton, decide_eq_false hx]
      exact List.append_nil _
    have houts : l.map (fun e => out (((l ++ [x]).filter (· < e)).foldl g z) e) = l.map (fun e => out ((l.filter (· < e)).foldl g z) e) :=
      List.map_congr_left fun e he => by rw [hbefore e he]
    rw [List.foldl_append, ih hfirst, List.map_append, houts, List.reverse_append, List.foldl_append, List.map_singleton, hlast]
    rfl

/-! Masks -/

theorem putMask_only (h : Hart) (d : Nat) (l : List (Nat × ERes)) : { h.putMask d l with vx := h.vx } = h :=
  (foldl_keeps (fun k : Hart => { k with vx := h.vx }) _ (by intros; rfl) _ (h.maskWritten d l)).trans (setMaskBits_only ..)

section

variable {s : State} {j : Instr} {n : Hart → Need} {d m : Nat} {A B : Hart → VOpnd} {r : Need × List (Nat × ERes)}

/-- A word that writes its results to a mask. -/
theorem lane_toMask {l : List (Nat × ERes)} (hexec : exec j s = s.vissue n (s.toMask d l)) : Lane s (j, n s.h, l) (s.h.putMask d l) :=
  lane_laneDone (k := s.h.putMask d) hexec (putMask_only ..)

/-- A compare has the row that its condition and operands give. -/
theorem lane_compare (meaning : State → Out) {f : Nat → Nat → Nat → Bool} (hexec : exec j s = meaning s)
    (hmeaning : meaning s = compare n f d m A B s)
    (hr : r = (n s.h, s.h.results m (cond (fun x y => (f s.h.sew x y, 0)) (A s.h) (B s.h)))) : Lane s (j, r) (s.h.putMask d r.2) :=
  hr ▸ lane_toMask (hexec.trans hmeaning)

/-- A combination of masks, bit by bit. -/
theorem lane_maskOp (meaning : State → Out) {f : Bool → Bool → Bool} {a b : Nat} (hexec : exec j s = meaning s)
    (hmeaning : meaning s = maskOp f d a b m s)
    (hr : r = (needM d s.h, s.h.results m (fun e => ERes.clean (f (s.h.maskBit a e) (s.h.maskBit b e)).toNat))) :
    Lane s (j, r) (s.h.putMask d r.2) :=
  hr ▸ lane_toMask (hexec.trans hmeaning)

end

/-- A count along a list counts the elements of a predicate. -/
theorem foldl_count (p : Nat → Bool) (l : List Nat) (n : Nat) : l.foldl (fun k e => if p e then k + 1 else k) n = n + (l.filter p).length := by
  induction l generalizing n with
  | nil => rfl
  | cons e l ih =>
    rw [List.foldl_cons, ih, List.filter_cons]
    split
    · rw [List.length_cons, Nat.add_right_comm, Nat.add_assoc]
    · rfl

/-- The rank of an active element is the number of set bits below it. -/
theorem ranks_eq (h : Hart) (a m : BitVec 3) : h.ranks a.toNat m.toNat = (h.actives m.toNat).map (fun e => (e, setBelow h a m e)) := by
  have hpass : countStep (h.maskBit a.toNat) = passStep (fun k e => if h.maskBit a.toNat e then k + 1 else k) (fun k e => (e, k)) := rfl
  have hrank : ∀ e, ((h.actives m.toNat).filter (· < e)).foldl (fun k e => if h.maskBit a.toNat e then k + 1 else k) 0 = setBelow h a m e :=
    fun e => by
      rw [foldl_count, Nat.zero_add, List.filter_filter, setBelow]
      simp only [Bool.and_comm]
  rw [Hart.ranks, hpass, pass_ascending _ _ _ _ (actives_ascending h m.toNat), List.reverse_reverse]
  simp only [hrank]

/-- A pass along a mask has the row of its function of the rank and the bit of each active element. -/
theorem lane_maskScan {s : State} {j : Instr} {a m : BitVec 3} {d : Nat} {r : Need × List (Nat × ERes)} (meaning : State → Out)
    {f : Nat → Bool → Bool} (hexec : exec j s = meaning s) (hmeaning : meaning s = maskScan f d a.toNat m.toNat s)
    (hr : r = (needM d s.h, s.h.results m.toNat (fun e => ERes.clean (f (setBelow s.h a m e) (s.h.maskBit a.toNat e)).toNat))) :
    Lane s (j, r) (s.h.putMask d r.2) := by
  rw [maskScan, ranks_eq, List.map_map] at hmeaning
  exact hr ▸ lane_toMask (hexec.trans hmeaning)

theorem cNe_eq (w : Nat) : cNe w = fun x y => decide (x ≠ y) := by
  funext x y
  rw [decide_not]
  rfl

section

variable (s : State) (c : BitVec 1) (d : BitVec 3) (a b : BitVec 6) (m : BitVec 3)

/-- The rows in the order of the table: equal, unequal, less, at most, and greater. -/
theorem lane_compareTable : ∀ e ∈ compareTable s.h c d a b m, Lane s e (s.h.putMask d.toNat e.2.2) := by
  simp only [compareTable, List.forall_mem_cons]
  exact ⟨lane_compare (execVmseqVv c d a b m) rfl rfl rfl, lane_compare (execVmseqVx c d a b m) rfl rfl rfl,
    lane_compare (execVmsne c d a b m) rfl rfl (by rw [cNe_eq]), lane_compare (execVmslt c d a b m) rfl rfl rfl,
    lane_compare (execVmsltuVv c d a b m) rfl rfl rfl, lane_compare (execVmsltuVx c d a b m) rfl rfl rfl,
    lane_compare (execVmsle c d a b m) rfl rfl rfl, lane_compare (execVmsleu c d a b m) rfl rfl rfl,
    lane_compare (execVmsgt c d a b m) rfl rfl rfl, lane_compare (execVmsgtu c d a b m) rfl rfl rfl, List.forall_mem_nil _⟩

/-- The rows in the order of the table: combinations of masks, then passes along a mask. -/
theorem lane_maskTable (k l : BitVec 3) : ∀ e ∈ maskTable s.h c d k l m, Lane s e (s.h.putMask d.toNat e.2.2) := by
  simp only [maskTable, List.forall_mem_cons]
  exact ⟨lane_maskOp (execMkand c d k l m) rfl rfl rfl, lane_maskOp (execMkor c d k l m) rfl rfl rfl,
    lane_maskOp (execMkxor c d k l m) rfl rfl rfl, lane_maskOp (execMkandn c d k l m) rfl rfl rfl,
    lane_maskOp (execMknot c d k m) rfl rfl rfl, lane_maskOp (execMkfill c d m) rfl rfl rfl,
    lane_maskScan (execMkspreadI c d k m) rfl rfl rfl, lane_maskScan (execMkspreadX c d k m) rfl rfl rfl,
    lane_maskScan (execMkparity c d k m) rfl rfl rfl, lane_maskScan (execMkfirst c d k m) rfl rfl rfl, List.forall_mem_nil _⟩

end

end Sys2Proof.Machine

namespace Sys2Proof.Claims

open Sys2Proof.Machine

/-- Settles O30, table by table. -/
theorem vectorMasks : Obligations.VectorMasks := by
  unfold Obligations.VectorMasks
  exact fun s c d k l m a b => List.forall_mem_append.mpr ⟨lane_compareTable s c d a b m, lane_maskTable s c d m k l⟩

end Sys2Proof.Claims
end

section
/-! PROOFS. Words of the lanes that read across elements: bit strings (R219, R220), permutes (R222-R224), reductions (R225) and scans
(R226). -/

namespace Sys2Proof.Machine

open Sys2Proof.Claims

/-! Bit strings and permutes -/

/-- An element not below VL reads as 0, unpoisoned. -/
theorem elOr0_eq (h : Hart) (a i : Nat) : h.elOr0 a i =
    { val := if i < h.vx.vl then (h.opV a i).1 else 0, bad := decide (i < h.vx.vl) && (h.opV a i).2, fl := 0 } := by
  unfold Hart.elOr0
  split
  · next hi => rw [decide_eq_true hi, Bool.true_and]
  · next hi => rw [decide_eq_false hi]; rfl

section

variable {s : State} {j : Instr} {n : Hart → Need} {d a : Nat} {r : Need × List (Nat × ERes)}

/-- A bit-string word has the row of its shift of the whole strings. -/
theorem lane_bitString (meaning : State → Out) {f : Nat → Nat → Nat → Nat → Nat} {funnel : Bool} {k : Nat} (hexec : exec j s = meaning s)
    (hmeaning : meaning s = s.vissue n (bitString f funnel d a k s))
    (hr : r = (n s.h, (List.range s.h.vx.vl).map (fun e =>
      let w := s.h.sew
      let size := s.h.vx.vl * w
      let A := s.h.str a s.h.vx.vl
      let D := if funnel then s.h.str d s.h.vx.vl else (0, 0)
      (e, { val := bits (f size (min k size) A.1 D.1) (e * w) w, bad := bits (f size (min k size) A.2 D.2) (e * w) w != 0, fl := 0 })))) :
    Lane s (j, r) (s.h.putEls s.h.sew d r.2) := by
  rw [← actives_zero] at hr
  exact hr ▸ lane_toVec (hexec.trans hmeaning)

/-- A word that writes a function of the element number at each of some elements. -/
theorem lane_elements (meaning : State → Out) {l : List Nat} {g f : Nat → ERes} (hexec : exec j s = meaning s)
    (hmeaning : meaning s = s.vissue n (s.toVec d (l.map (fun e => (e, g e))))) (hr : r = (n s.h, l.map (fun e => (e, f e))))
    (hfun : ∀ e ∈ l, g e = f e) : Lane s (j, r) (s.h.putEls s.h.sew d r.2) := by
  have hsame : l.map (fun e => (e, g e)) = l.map (fun e => (e, f e)) := List.map_congr_left fun e he => by rw [hfun e he]
  rw [hsame] at hmeaning
  exact hr ▸ lane_toVec (hexec.trans hmeaning)

/-- A slide up leaves the elements below its count. -/
theorem lane_vslideup (meaning : State → Out) {m k : Nat} {f : Nat → ERes} (hexec : exec j s = meaning s)
    (hmeaning : meaning s = s.vissue n (vslideup d a m k s))
    (hr : r = (n s.h, ((s.h.actives m).filter (fun e => k ≤ e)).map (fun e => (e, f e)))) (hfun : ∀ e, s.h.elOr0 a (e - k) = f e) :
    Lane s (j, r) (s.h.putEls s.h.sew d r.2) := by
  rw [vslideup, Hart.results, List.filter_map] at hmeaning
  exact lane_elements meaning hexec hmeaning hr fun e _ => hfun e

end

section

variable (s : State) (c : BitVec 1) (d a x : BitVec 6) (i : BitVec 5) (m : BitVec 3)

/-- The rows in the order of the table: shifts of strings, funnel shifts, then the bits of an element. -/
theorem lane_bitTable : ∀ e ∈ bitTable s.h c d a x i m, Lane s e (s.h.putEls s.h.sew d.toNat e.2.2) := by
  simp only [bitTable, List.forall_mem_cons]
  exact ⟨lane_bitString (execVbslVx c d a x) rfl rfl rfl, lane_bitString (execVbslVi c d a i) rfl rfl rfl,
    lane_bitString (execVbsrVx c d a x) rfl rfl rfl, lane_bitString (execVbsrVi c d a i) rfl rfl rfl,
    lane_bitString (execVfsl c d a x) rfl rfl rfl, lane_bitString (execVfsr c d a x) rfl rfl rfl,
    lane_ewise (execVpopc c d a m) rfl rfl rfl, lane_ewise (execVclz c d a m) rfl rfl rfl,
    lane_ewise (execVctz c d a m) rfl rfl rfl, lane_ewise (execVbrev c d a m) rfl rfl rfl, List.forall_mem_nil _⟩

/-- The rows in the order of the table: exchanges, slides, slides by one, pulls and the compression. -/
theorem lane_permuteTable (j : BitVec 4) : ∀ e ∈ permuteTable s.h c d a x i j m, Lane s e (s.h.putEls s.h.sew d.toNat e.2.2) := by
  simp only [permuteTable, List.forall_mem_cons]
  refine ⟨lane_elements (execVxchVx c d a x m) rfl rfl rfl fun _ _ => elOr0_eq ..,
    lane_elements (execVxchVi c d a j m) rfl rfl rfl fun _ _ => elOr0_eq ..,
    lane_vslideup (execVslideupVx c d a x m) rfl rfl rfl fun _ => elOr0_eq ..,
    lane_vslideup (execVslideupVi c d a i m) rfl rfl rfl fun _ => elOr0_eq ..,
    lane_elements (execVslidednVx c d a x m) rfl rfl rfl fun _ _ => elOr0_eq ..,
    lane_elements (execVslidednVi c d a i m) rfl rfl rfl fun _ _ => elOr0_eq ..,
    lane_elements (execVslide1up c d a x m) rfl rfl rfl fun e _ => ?up, lane_elements (execVslide1dn c d a x m) rfl rfl rfl fun e he => ?down,
    lane_elements (execVpullVx c d a x m) rfl rfl rfl fun _ _ => elOr0_eq ..,
    lane_elements (execVcompress c d a m) rfl rfl rfl fun _ _ => elOr0_eq ..,
    lane_elements (execVpullVv c d a x m) rfl rfl rfl fun e _ => ?pull, List.forall_mem_nil _⟩
  case up =>
    rw [elOr0_eq]
    rfl
  case down =>
    have hlast : e = s.h.vx.vl - 1 ↔ e + 1 = s.h.vx.vl := by
      have := lt_of_mem_actives he
      omega
    rw [elOr0_eq]
    simp only [hlast]
    rfl
  case pull => exact congrArg (fun y : ERes => { y with bad := y.bad || (s.h.opV x.toNat e).2 }) (elOr0_eq ..)

end

/-! Reductions and scans -/

/-- An accumulator with its poison, folded along elements. -/
theorem foldl_accStep (f : Nat → Nat → Nat) (x : VOpnd) (l : List Nat) (z : Nat × Bool) :
    l.foldl (fun p e => accStep f p (x e)) z = folded f x z l := by
  induction l generalizing z with
  | nil => exact Prod.ext rfl (Bool.or_false _).symm
  | cons e l ih =>
    rw [List.foldl_cons, ih]
    exact Prod.ext rfl (Bool.or_assoc ..)

/-- Of an ascending list, the elements up to one of them are those below it and itself. -/
theorem filter_le_ascending {l : List Nat} (hl : l.Pairwise (· < ·)) {e : Nat} (he : e ∈ l) :
    l.filter (fun j => j < e || j == e) = l.filter (· < e) ++ [e] := by
  obtain ⟨l, r, rfl⟩ := List.append_of_mem he
  obtain ⟨-, hr, hbelow⟩ := List.pairwise_append.mp hl
  have hkept : l.filter (fun j => j < e || j == e) = l :=
    List.filter_eq_self.mpr fun j hj => by simp [hbelow j hj e List.mem_cons_self]
  have hgone : r.filter (fun j => j < e || j == e) = [] := List.filter_eq_nil_iff.mpr fun j hj => by
    have habove : e < j := List.rel_of_pairwise_cons hr hj
    simp [habove.not_gt, habove.ne']
  rw [filter_lt_ascending hl, List.filter_append, hkept, List.filter_cons_of_pos (by simp), hgone]

/-- A scan gives each active element the fold of those before it, and of itself when it includes it. -/
theorem scan_ascending (f : Nat → Nat → Nat) (incl : Bool) (x : VOpnd) (z : Nat × Bool) {l : List Nat} (hl : l.Pairwise (· < ·)) :
    (l.foldl (scanStep f incl x) (z, [])).2.reverse = l.map (fun e =>
      let r := folded f x z (l.filter (fun j => j < e || (incl && j == e)))
      (e, { val := r.1, bad := r.2, fl := 0 })) := by
  have hpass : scanStep f incl x = passStep (fun p e => accStep f p (x e)) (fun p e =>
      let r := if incl then accStep f p (x e) else p
      (e, { val := r.1, bad := r.2, fl := 0 })) := rfl
  rw [hpass, pass_ascending _ _ _ _ hl, List.reverse_reverse]
  refine List.map_congr_left fun e he => ?_
  cases incl with
  | false => simp only [Bool.false_and, Bool.or_false, foldl_accStep]; rfl
  | true => simp only [Bool.true_and, filter_le_ascending hl he, ← foldl_accStep, List.foldl_append]; rfl

section

variable {s : State} {j : Instr} {d a b m : Nat} {r : Need × List (Nat × ERes)}

/-- A word that writes element 0 alone, and nothing with VL = 0. -/
theorem lane_first (meaning : State → Out) {n : Hart → Need} {x : ERes} (hexec : exec j s = meaning s)
    (hmeaning : meaning s = s.vissue n (if s.h.vx.vl = 0 then s.laneDone [] s.h else s.toVec d [(0, x)]))
    (hr : r = (n s.h, if s.h.vx.vl = 0 then [] else [(0, x)])) : Lane s (j, r) (s.h.putEls s.h.sew d r.2) := by
  subst hr
  refine lane_toVec (hexec.trans (hmeaning.trans (congrArg (s.vissue n) ?_)))
  split
  · rfl
  · rfl

/-- A reduction has the row of the fold of its active elements. -/
theorem lane_reduce (meaning : State → Out) {f : Nat → Nat → Nat → Nat} (hexec : exec j s = meaning s)
    (hmeaning : meaning s = reduce f d a b m s)
    (hr : r = (needRed intType d a b s.h, if s.h.vx.vl = 0 then [] else
      [(0, { val := (folded (f s.h.sew) (s.h.opV a) (s.h.opV b 0) (s.h.actives m)).1,
             bad := (folded (f s.h.sew) (s.h.opV a) (s.h.opV b 0) (s.h.actives m)).2, fl := 0 })])) :
    Lane s (j, r) (s.h.putEls s.h.sew d r.2) := by
  simp only [reduce, foldl_accStep] at hmeaning
  exact lane_first meaning hexec hmeaning hr

/-- A scan has the row of the folds up to each active element. -/
theorem lane_scan (meaning : State → Out) {f : Nat → Nat → Nat → Nat} {incl : Bool} (hexec : exec j s = meaning s)
    (hmeaning : meaning s = scan f incl d a b m s)
    (hr : r = (needScan d a b s.h, (s.h.actives m).map (fun e =>
      let z := folded (f s.h.sew) (s.h.opV a) (s.h.opV b 0) ((s.h.actives m).filter (fun j => j < e || (incl && j == e)))
      (e, { val := z.1, bad := z.2, fl := 0 })))) : Lane s (j, r) (s.h.putEls s.h.sew d r.2) := by
  rw [scan, scan_ascending _ _ _ _ (actives_ascending s.h m)] at hmeaning
  exact hr ▸ lane_toVec (hexec.trans hmeaning)

end

theorem valOf_iMaxu (w : Nat) : valOf iMaxu w = max := by
  funext x y
  rw [valOf, iMaxu_eq]

theorem valOf_iMinu (w : Nat) : valOf iMinu w = min := by
  funext x y
  rw [valOf, iMinu_eq]

section

variable (s : State) (c : BitVec 1) (d a b : BitVec 6) (m : BitVec 3)

/-- The rows in the order of the table: sum, extremes, logic, and the saturated sum. -/
theorem lane_reduceTable : ∀ e ∈ reduceTable s.h c d a b m, Lane s e (s.h.putEls s.h.sew d.toNat e.2.2) := by
  simp only [reduceTable, List.forall_mem_cons]
  exact ⟨lane_reduce (execVredsum c d a b m) rfl rfl rfl, lane_reduce (execVredmax c d a b m) rfl rfl rfl,
    lane_reduce (execVredmaxu c d a b m) rfl rfl (by rw [valOf_iMaxu]), lane_reduce (execVredmin c d a b m) rfl rfl rfl,
    lane_reduce (execVredminu c d a b m) rfl rfl (by rw [valOf_iMinu]), lane_reduce (execVredand c d a b m) rfl rfl rfl,
    lane_reduce (execVredor c d a b m) rfl rfl rfl, lane_reduce (execVredxor c d a b m) rfl rfl rfl,
    lane_first (execVredsums c d a b m) rfl rfl (by rw [satS, satTo_eq_saturated]; rfl), List.forall_mem_nil _⟩

/-- The rows in the order of the table: sums, then extremes. -/
theorem lane_scanTable : ∀ e ∈ scanTable s.h c d a b m, Lane s e (s.h.putEls s.h.sew d.toNat e.2.2) := by
  simp only [scanTable, List.forall_mem_cons]
  exact ⟨lane_scan (execVscansum c d a b m) rfl rfl rfl, lane_scan (execVxscansum c d a b m) rfl rfl rfl,
    lane_scan (execVscanmax c d a b m) rfl rfl rfl, lane_scan (execVscanmin c d a b m) rfl rfl rfl,
    lane_scan (execVscanmaxu c d a b m) rfl rfl (by rw [valOf_iMaxu]), lane_scan (execVscanminu c d a b m) rfl rfl (by rw [valOf_iMinu]),
    List.forall_mem_nil _⟩

end

end Sys2Proof.Machine

namespace Sys2Proof.Claims

open Sys2Proof.Machine

/-- Settles O31, table by table. -/
theorem vectorPermutes : Obligations.VectorPermutes := by
  unfold Obligations.VectorPermutes
  exact ⟨fun s c d a x i j m => List.forall_mem_append.mpr ⟨lane_bitTable s c d a x i m, lane_permuteTable s c d a x i m j⟩,
    fun s c d a b m => List.forall_mem_append.mpr ⟨lane_reduceTable s c d a b m, lane_scanTable s c d a b m⟩⟩

end Sys2Proof.Claims
end

section
/-! PROOFS. Words of the lanes that write a scalar-side register (R224, R228), `vrank` (R228) and `vpush` (R223). -/

namespace Sys2Proof.Machine

open Sys2Proof.Claims

/-! Scalar-side destinations -/

/-- What a word with a scalar-side destination does that passes its issue checks: it completes with its value, or traps SPOISON for what it
read. -/
def CodeLane (s : State) (d : Nat) (tval : Word) (e : Instr × Need × Word × Bool) : Prop :=
  s.h.issueOk e.2.1 = true →
    (e.2.2.2 = false → ∃ t, exec e.1 s = .next t ∧ VDone s t (s.h.setCode d e.2.2.1) 0) ∧
    (e.2.2.2 = true → exec e.1 s = .next (s.drainRechecks.vtrap cSPOISON tval 0))

/-- Without votes the value of the first run stands (R431). -/
theorem codeDone_of_no_votes {s : State} (hv : s.h.votes = []) (d : Nat) (v tval : Word) :
    s.codeDone d v tval = .next (s.enqueueRecheck.vdone (s.h.setCode d v) 0) := by
  simp [State.codeDone, Hart.votedCode, hv]

theorem codeLane_codeDone {s : State} (hv : s.h.votes = []) {j : Instr} {n : Hart → Need} {d : Nat} {v tval again : Word} {bad : Bool}
    (hexec : exec j s = s.vissue n (if bad then .next (s.drainRechecks.vtrap cSPOISON tval 0) else s.codeDone d v again)) :
    CodeLane s d tval (j, n s.h, v, bad) := by
  intro hok
  rw [vissue_ok hok, codeDone_of_no_votes hv] at hexec
  refine ⟨?value, ?poisoned⟩
  case value =>
    rintro rfl
    exact ⟨_, hexec, vdone_enqueueRecheck (k := s.h.setCode d v) rfl 0⟩
  case poisoned =>
    rintro rfl
    exact hexec

/-- The rows in the order of the table: counts and finds along a mask, which read no poison, and the extraction of an element. -/
theorem codeLane_codeTable {s : State} (hv : s.h.votes = []) (c : BitVec 1) (f : BitVec 4) (a x : BitVec 6) (k m : BitVec 3) :
    ∀ e ∈ codeTable s.h c f a x k m, CodeLane s f.toNat (s.h.code x.toNat) e := by
  simp only [codeTable, List.forall_mem_cons]
  refine ⟨codeLane_codeDone hv (n := needNone) rfl, codeLane_codeDone hv (n := needNone) rfl, codeLane_codeDone hv (n := needNone) rfl,
    codeLane_codeDone hv (n := needCode a.toNat) (again := s.h.code x.toNat) ?extract, List.forall_mem_nil _⟩
  show execVextr c f a x s = _
  simp only [execVextr, Hart.elOr0]
  split
  · rfl
  · rfl

/-! `vpush` -/

/-- What `vpush` has gathered at its end (R223). -/
abbrev Hart.pushed (h : Hart) (a x m : Nat) : Push := (h.actives m).foldl (h.pushOne a x) { win := [], xc := [], drop := [] }

/-- Every destination element of a push holds the number plus one of a source element below VL. -/
theorem pushed_below {h : Hart} {a b : Nat} {l : List Nat} (hl : ∀ e ∈ l, e < h.vx.vl) {p : Push} (hp : ∀ t ∈ p.win, t.2 - 1 < h.vx.vl) :
    ∀ t ∈ (l.foldl (h.pushOne a b) p).win, t.2 - 1 < h.vx.vl := by
  induction l generalizing p with
  | nil => exact hp
  | cons e l ih =>
    obtain ⟨he, hl⟩ := List.forall_mem_cons.mp hl
    refine ih hl ?_
    unfold Hart.pushOne
    dsimp only
    split
    · exact hp
    · split
      · exact Tab.forall_set (d := 0) (P := fun v => v - 1 < h.vx.vl) (v := e + 1) hp he (h.opV b e).1
      · exact hp

/-- An element below VL reads as itself. -/
theorem elOr0_below {h : Hart} {i : Nat} (hi : i < h.vx.vl) (a : Nat) : h.elOr0 a i = { val := (h.opV a i).1, bad := (h.opV a i).2, fl := 0 } :=
  if_pos hi

theorem markPm_foldl_only (l : List Nat) (h : Hart) (v : VCtx) : { l.foldl Hart.markPm h with vx := v } = { h with vx := v } :=
  foldl_keeps (fun k : Hart => { k with vx := v }) Hart.markPm (fun _ _ => rfl) l h

section

variable (s : State) (c : BitVec 1) (d a x : BitVec 6) (m : BitVec 3)

theorem lane_vpush (hv : s.h.votes = []) :
    let p := s.h.pushed a.toNat x.toNat m.toNat
    Lane s (.vpush c d a x m, need3d anyType d.toNat a.toNat x.toNat s.h,
        p.win.map (fun t => (t.1, { val := 0, bad := false, fl := if p.xc.contains t.1 then flXC else 0 })))
      (p.drop.foldl Hart.markPm (s.h.putEls s.h.sew d.toNat
        (p.win.map (fun t => (t.1, { val := (s.h.opV a.toNat (t.2 - 1)).1, bad := (s.h.opV a.toNat (t.2 - 1)).2, fl := 0 }))))) := by
  intro p
  have hmoved : s.h.voted (p.win.map (fun t => (t.1, s.h.elOr0 a.toNat (t.2 - 1)))) =
      p.win.map (fun t => (t.1, { val := (s.h.opV a.toNat (t.2 - 1)).1, bad := (s.h.opV a.toNat (t.2 - 1)).2, fl := 0 })) := by
    rw [voted_of_no_votes hv]
    have hbelow : ∀ t ∈ p.win, t.2 - 1 < s.h.vx.vl := pushed_below (fun _ => lt_of_mem_actives) (fun _ ht => nomatch ht)
    exact List.map_congr_left fun t ht => by rw [elOr0_below (hbelow t ht)]
  refine lane_laneDone (n := need3d anyType d.toNat a.toNat x.toNat) (k := fun _ => _) ?_ ((markPm_foldl_only ..).trans (putEls_only ..))
  rw [← hmoved]
  rfl

/-- `vrank` writes the ranks that the passes along a mask use. -/
theorem lane_vrank (k : BitVec 3) :
    Lane s (.vrank c d k m, Need.of intType [(d.toNat, s.h.grp)] (.regs d.toNat s.h.grp),
      (s.h.actives m.toNat).map (fun e => (e, { val := setBelow s.h k m e % 2 ^ s.h.sew, bad := false, fl := 0 })))
      (s.h.putEls s.h.sew d.toNat
        ((s.h.actives m.toNat).map (fun e => (e, { val := setBelow s.h k m e % 2 ^ s.h.sew, bad := false, fl := 0 })))) := by
  refine lane_toVec (n := fun h => Need.of intType [(d.toNat, h.grp)] (.regs d.toNat h.grp)) ?_
  show execVrank c d k m s = _
  rw [execVrank, ranks_eq, List.map_map]
  rfl

end

end Sys2Proof.Machine

namespace Sys2Proof.Claims

open Sys2Proof.Machine

/-- Settles O35: the table of scalar-side destinations, then `vrank` and `vpush`. -/
theorem vectorGathers : Obligations.VectorGathers := by
  unfold Obligations.VectorGathers
  exact fun s c f d a x k m hv => ⟨codeLane_codeTable hv c f a x k m, lane_vrank s c d m k, lane_vpush s c d a x m hv⟩

end Sys2Proof.Claims
end

section
/-! PROOFS. Scalar words: integer results (R292-R295), branches and jumps (R296, R297), FOP (R244, R245), `trap` and `brk` (R304), and fences
(R368). -/

namespace Sys2Proof.Machine

open Sys2Proof.Claims

/-! Integer results (R292-R295) -/

theorem truth_decide (p : Prop) [Decidable p] : truth (decide p) = if p then 1 else 0 := by
  simp [truth]

theorem fSltS_eq (x y : Word) : fSltS x y = if x.toInt < y.toInt then 1 else 0 := truth_decide _

theorem fSltU_eq (x y : Word) : fSltU x y = if x.toNat < y.toNat then 1 else 0 := truth_decide _

theorem toInt_sext16 (i : BitVec 16) : (sext16 i).toInt = i.toInt := BitVec.toInt_signExtend_of_le (by decide)

theorem slt_select {α : Type} (x y : Word) (u v : α) : (if x.slt y then u else v) = if x.toInt < y.toInt then u else v := by
  simp [BitVec.slt]

theorem ult_select {α : Type} (x y : Word) (u v : α) : (if x.ult y then u else v) = if x.toNat < y.toNat then u else v := by
  simp [BitVec.ult]

theorem mul_eq_ofInt (x y : Word) : x * y = BitVec.ofInt 64 (x.toInt * y.toInt) := by
  rw [BitVec.ofInt_mul, BitVec.ofInt_toInt, BitVec.ofInt_toInt]

/-- The quotient of natural numbers, taken among the integers or not. -/
theorem fMulhiUu_eq (x y : Word) : fMulhiUu x y = BitVec.ofNat 64 (x.toNat * y.toNat / 2 ^ 64) := by
  rw [fMulhiUu, ← BitVec.ofInt_natCast]
  push_cast
  rfl

/-- An immediate shift amount is below 64 already. -/
theorem shift_imm (n : BitVec 6) : (n.zeroExtend 64).toNat % 64 = n.toNat := by
  simp only [BitVec.truncate_eq_setWidth, BitVec.toNat_setWidth]
  omega

theorem fSll_imm (x : Word) (n : BitVec 6) : fSll x (n.zeroExtend 64) = x <<< n.toNat := by rw [fSll, shift_imm]

theorem fSrl_imm (x : Word) (n : BitVec 6) : fSrl x (n.zeroExtend 64) = x >>> n.toNat := by rw [fSrl, shift_imm]

theorem fSra_imm (x : Word) (n : BitVec 6) : fSra x (n.zeroExtend 64) = x.sshiftRight n.toNat := by rw [fSra, shift_imm]

/-- An instruction that retires with a value spelled in another way. -/
theorem retire_congr {s : State} {d : BitVec 5} {u v : Word} (h : u = v) : (.next (s.retire d u) : Out) = .next (s.retire d v) := h ▸ rfl

/-- Every XOP instruction retires with its value of the table. -/
theorem exec_xopTable (s : State) (d a b : BitVec 5) : ∀ e ∈ xopTable d a b (s.xr a) (s.xr b), exec e.1 s = .next (s.retire d e.2) := by
  simp only [xopTable, List.forall_mem_cons]
  exact ⟨rfl, rfl, rfl, rfl, rfl, rfl, rfl, rfl, retire_congr (fSltS_eq ..), retire_congr (fSltU_eq ..), retire_congr (mul_eq_ofInt ..), rfl,
    retire_congr (fMulhiUu_eq ..), rfl, rfl, rfl, rfl, rfl, retire_congr (slt_select ..), retire_congr (slt_select ..),
    retire_congr (ult_select ..), retire_congr (ult_select ..), nofun⟩

theorem exec_immTable (s : State) (d a : BitVec 5) (i : BitVec 16) (n : BitVec 6) :
    ∀ e ∈ immTable d a i n (s.xr a), exec e.1 s = .next (s.retire d e.2) := by
  have hslti : fSltS (s.xr a) (sext16 i) = if (s.xr a).toInt < i.toInt then 1 else 0 := by rw [fSltS_eq, toInt_sext16]
  simp only [immTable, List.forall_mem_cons]
  exact ⟨rfl, rfl, rfl, rfl, retire_congr hslti, retire_congr (fSltU_eq ..), retire_congr (fSll_imm ..),
    retire_congr (fSrl_imm ..), retire_congr (fSra_imm ..), rfl, nofun⟩

/-! Branches and jumps (R296, R297) -/

theorem wentTo_goto (s : State) (pc : Word) (x : Did) : WentTo s (s.goto pc x) pc :=
  ⟨rfl, fun _ => rfl, rfl, rfl, fun _ => rfl⟩

/-- A word offset counts words of four bytes. -/
theorem shiftLeft_two (x : Word) : x <<< 2 = 4 * x := by bv_omega

theorem not_slt (x y : Word) : (!x.slt y) = decide (y.toInt ≤ x.toInt) := by
  rw [BitVec.slt, ← decide_not, decide_eq_decide, Int.not_lt]

theorem not_ult (x y : Word) : (!x.ult y) = decide (y.toNat ≤ x.toNat) := by
  rw [BitVec.ult, ← decide_not, decide_eq_decide, Nat.not_lt]

theorem branch_goes {s : State} {a b : BitVec 5} {o : BitVec 13} {f : Word → Word → Bool} {v : Bool} (h : f (s.xr a) (s.xr b) = v) :
    ∃ t, branch f a b o s = .next t ∧ WentTo s t (if v then s.h.pc + 4 * o.signExtend 64 else s.h.pc + 4) := by
  refine ⟨_, rfl, ?_⟩
  rw [branchTarget, shiftLeft_two, h]
  exact wentTo_goto ..

/-- An appended field is a field put down. -/
theorem toNat_append_eq_put {m k : Nat} (u : BitVec m) (x : BitVec k) : (u ++ x).toNat = put x u.toNat := by
  rw [BitVec.toNat_append, ← Nat.shiftLeft_add_eq_or_of_lt x.isLt, Nat.shiftLeft_eq, put]

theorem wordOf_branch (a b : BitVec 5) (c : BitVec 3) (o : BitVec 13) :
    wordOf (0 |> put 14#6 |> put a |> put b |> put c |> put o) = 0x0E#6 ++ a ++ b ++ c ++ o := by
  have h : (0x0E#6 ++ a ++ b ++ c ++ o : IWord).toNat = (0 |> put 14#6 |> put a |> put b |> put c |> put o) := by
    simp only [toNat_append_eq_put]
    rfl
  rw [← h]
  exact BitVec.ofNat_toNat ..

/-- The conditions 6 and 7 of a branch name no instruction. -/
theorem opBr_reserved {w : IWord} (h : 6 ≤ (w.extractLsb' 13 3).toNat) : opBr w = none := by
  unfold opBr
  generalize w.extractLsb' 13 3 = c at h
  revert c
  decide

theorem wordFate_branch_reserved {w : IWord} (hm : (w.extractLsb' 26 6).toNat = 0x0E) (h : 6 ≤ (w.extractLsb' 13 3).toNat) :
    wordFate false w = some .illop := by
  have hmajor : w.extractLsb' 26 6 = 14#6 := BitVec.eq_of_toNat_eq hm
  have hop : opOf w = none := by
    rw [opOf, hmajor]
    exact opBr_reserved h
  simp [wordFate, hmajor, hop]

/-! Jumps (R297) and the traps that the scalar words take -/

theorem jump_registers (s : State) (d : BitVec 5) (t : Word) : WroteX (s.jump d t) d (s.h.pc + 4) ∧ OtherX s (s.jump d t) d :=
  retire_registers s d (s.h.pc + 4)

theorem onlyX_jump (s : State) (d : BitVec 5) (t : Word) : OnlyX s.h (s.jump d t).h := retire_only s d (s.h.pc + 4)

theorem Entered.x {h k : Hart} {cause : Nat} {tval tepc : Word} {vs : Bool} (he : Entered h k cause tval tepc vs) : k.x = h.x := by
  obtain ⟨-, -, -, -, -, -, heq⟩ := he
  exact (congrArg Hart.x heq :)

theorem Entered.fxf {h k : Hart} {cause : Nat} {tval tepc : Word} {vs : Bool} (he : Entered h k cause tval tepc vs) : k.fxf = h.fxf := by
  obtain ⟨-, -, -, -, -, -, heq⟩ := he
  exact (congrArg Hart.fxf heq :)

/-- A trap entered leaves the x registers as they were. -/
theorem Entered.xr {s t : State} {cause : Nat} {tval tepc : Word} {vs : Bool} (he : Entered s.h t.h cause tval tepc vs) (r : BitVec 5) :
    t.xr r = s.xr r := congrArg (fun x => if r.toNat = 0 then 0 else Tab.get 0 x r.toNat) he.x

theorem exec_jalr_misaligned {s : State} {d a : BitVec 5} {i : BitVec 16} (h : (s.xr a + i.signExtend 64).toNat % 4 ≠ 0) :
    exec (.jalr d a i) s = .next (s.trap cALIGN (s.xr a + i.signExtend 64)) := if_pos h

theorem exec_jalr_aligned {s : State} {d a : BitVec 5} {i : BitVec 16} (h : (s.xr a + i.signExtend 64).toNat % 4 = 0) :
    exec (.jalr d a i) s = .next (s.jump d (s.xr a + i.signExtend 64)) := if_neg (not_not.mpr h)

theorem exec_jal (s : State) (d : BitVec 5) (o : BitVec 21) : exec (.jal d o) s = .next (s.jump d (s.h.pc + 4 * o.signExtend 64)) := by
  rw [← shiftLeft_two]
  rfl

/-! FOP -/

/-- The result of a FOP without an enabled flag (R245). -/
theorem fopDone_retires {s : State} {d : BitVec 5} {r : Nat × Nat} (h : flTraps (fxfFen s.h.fxf) r.2 = false) :
    ∃ t, s.fopDone d r = .next t ∧ WroteX t d (word r.1) ∧ OtherX s t d ∧ t.h.pc = s.h.pc + 4 ∧ t.h.fxf = orFlags s.h.fxf r.2 ∧
      OnlyX s.h { t.h with fxf := s.h.fxf } ∧ OnlyHart s t ∧ SameBytes s t := by
  let u := s.setH (fun h => { h with fxf := orFlags h.fxf r.2 })
  obtain ⟨hwrote, hother, hpc, honly, hhart, hbytes⟩ := resultX_retire u d (word r.1)
  refine ⟨_, if_neg (by simp [h]), hwrote, hother, hpc, congrArg Hart.fxf honly, ?_, ?_, hbytes⟩
  · exact congrArg (fun k : Hart => { k with fxf := s.h.fxf }) honly
  · exact congrArg (fun k : State => { k with h := s.h }) hhart

theorem fopDone_traps {s : State} {d : BitVec 5} {r : Nat × Nat} (h : flTraps (fxfFen s.h.fxf) r.2 = true) :
    s.fopDone d r = .next (s.trap cFPE (word (r.2 % 32))) := if_pos h

/-- Every FOP ends with the result of its table. -/
theorem exec_fopTable (s : State) (d a b : BitVec 5) (f : BitVec 2) :
    ∀ e ∈ fopTable d a b f (fopFmt f) s.rm (s.fr (fopFmt f) a) (s.fr (fopFmt f) b) (s.fr (fopFmt f) d), exec e.1 s = s.fopDone d e.2 := by
  simp only [fopTable, List.forall_mem_cons]
  exact ⟨rfl, rfl, rfl, rfl, rfl, rfl, rfl, rfl, rfl, rfl, rfl, rfl, rfl, rfl, rfl, nofun⟩

theorem exec_fcvtTable (s : State) (d a : BitVec 5) (f q : BitVec 2) :
    ∀ e ∈ fcvtTable d a f q s.rm (s.fr (fopFmt f) a) (s.fr (fopFmt q) a) (s.xr a).toInt (s.xr a).toNat, exec e.1 s = s.fopDone d e.2 := by
  simp only [fcvtTable, List.forall_mem_cons]
  exact ⟨rfl, rfl, rfl, rfl, rfl, rfl, rfl, nofun⟩

/-! trap and brk -/

/-- A trap at the following word, of another cause than PAGE, is entered at once. -/
theorem trapAfter_eq_enterTrap {s : State} {cause : Nat} (tval : Word) (h : cause ≠ cPAGE) :
    s.trapAfter cause tval = s.enterTrap cause tval (s.h.pc + 4) false := by
  have ht : tablePage cause tval = false := by simp [tablePage, h]
  simp only [State.trapAfter, State.takeTrap, Hart.pageMet, ht, Bool.false_eq_true, if_false, h, decide_false, Bool.false_and, State.setH]

theorem entered_trapAfter {s : State} {cause : Nat} (tval : Word) {pc : Word} (hpc : s.h.pc = pc) (hc : cause ≠ cPAGE)
    (h : s.handlerOk cause = true) : Entered s.h (s.trapAfter cause tval).h cause tval (pc + 4) false := by
  rw [trapAfter_eq_enterTrap tval hc, hpc]
  exact entered_enterTrap tval (pc + 4) false h

theorem exec_trap (s : State) (c : BitVec 12) :
    exec (.trap c) s = .next (((s.count s.h.tid 1 1).setH (fun h => { h.sealAll with wd := 0 })).trapAfter cTRAP (c.zeroExtend 64)) := rfl

end Sys2Proof.Machine

namespace Sys2Proof.Claims

open Sys2Proof.Machine

/-- Settles O1: each instruction retires with the value of its table. -/
theorem xopResults : Obligations.XopResults := by
  unfold Obligations.XopResults
  exact ⟨fun s d a b e he => ⟨_, exec_xopTable s d a b e he, resultX_retire s d e.2⟩,
    fun s d a i n e he => ⟨_, exec_immTable s d a i n e he, resultX_retire s d e.2⟩⟩

/-- Settles O2: where each branch goes, then the fields of its word, and the conditions that name no instruction. -/
theorem branchResults : Obligations.BranchResults := by
  unfold Obligations.BranchResults
  refine ⟨fun s a b o => ?_, fun a b o => ?_, fun w hm h => wordFate_branch_reserved hm h⟩
  · simp only [branchTable, List.forall_mem_cons]
    exact ⟨branch_goes rfl, branch_goes rfl, branch_goes rfl, branch_goes (f := fun x y => !x.slt y) (not_slt ..), branch_goes rfl,
      branch_goes (f := fun x y => !x.ult y) (not_ult ..), nofun⟩
  · simp only [List.forall_mem_cons]
    have h := fun c => congrArg some (wordOf_branch a b c o)
    exact ⟨h _, h _, h _, h _, h _, h _, nofun⟩

/-- Settles O8: every FOP ends as its result does, in `fopDone_retires` or `fopDone_traps`. -/
theorem fopResults : Obligations.FopResults := by
  unfold Obligations.FopResults
  intro s d a b f q e he
  have hexec : exec e.1 s = s.fopDone d e.2 := (List.mem_append.mp he).elim (exec_fopTable s d a b f e) (exec_fcvtTable s d a f q e)
  rw [hexec]
  refine ⟨fopDone_retires, fun htrap => ?_⟩
  rw [fopDone_traps htrap]
  refine ⟨rfl, fun hok => ?_⟩
  have hentered := entered_trap (word (e.2.2 % 32)) rfl (by decide : cFPE ≠ cPAGE) hok
  exact ⟨_, rfl, hentered, hentered.fxf, hentered.xr⟩

/-- Settles O3: `jal` and `jalr` jump, or the misaligned target is the trap of `exec_jalr_misaligned`. -/
theorem jumpResults : Obligations.JumpResults := by
  unfold Obligations.JumpResults
  refine ⟨fun s d a o i => ⟨?_, fun h => ?_⟩, fun s d a i h hok => ?_⟩
  · exact ⟨_, exec_jal s d o, (jump_registers ..).1, (jump_registers ..).2, rfl, onlyX_jump .., rfl, fun _ => rfl⟩
  · exact ⟨_, exec_jalr_aligned h, (jump_registers ..).1, (jump_registers ..).2, rfl, onlyX_jump .., rfl, fun _ => rfl⟩
  · have hentered := entered_trap (s.xr a + i.signExtend 64) rfl (by decide : cALIGN ≠ cPAGE) hok
    exact ⟨_, exec_jalr_misaligned h, hentered, hentered.xr⟩

/-- Settles O12: the completion of `trap` leaves the PC, at whose following word the trap is entered. -/
theorem trapWords : Obligations.TrapWords := by
  unfold Obligations.TrapWords
  intro s c
  have hpc : (s.count s.h.tid 1 1).h.pc = s.h.pc := congrArg Hart.pc (State.h_count ..)
  exact ⟨fun hok => ⟨_, exec_trap s c, entered_trapAfter _ hpc (by decide) hok⟩, fun hok => ⟨_, rfl, entered_trap _ rfl (by decide) hok⟩⟩

/-- Settles O10: the party of a fence decides whether it completes. -/
theorem fenceResults : Obligations.FenceResults := by
  unfold Obligations.FenceResults
  intro s k
  refine ⟨⟨_, rfl, wentTo_retire0 s⟩, fun h => ?_, fun p h => ?_⟩
  · have hwait : fenceWait k s = .next s.retire0 := by rw [fenceWait, h]
    simp only [List.forall_mem_cons]
    exact ⟨⟨_, hwait, wentTo_retire0 s⟩, ⟨_, hwait, wentTo_retire0 s⟩, nofun⟩
  · have hwait : fenceWait k s = .next (s.stall p) := by rw [fenceWait, h]
    simp only [List.forall_mem_cons]
    exact ⟨hwait, hwait, nofun⟩

/-- Settles O51: each register reads its value at reset. -/
theorem resetValues : Obligations.ResetValues := by
  unfold Obligations.ResetValues
  exact ⟨rfl, rfl, fun _ => rfl, rfl, rfl, rfl, rfl, rfl, rfl, rfl, fun _ => ⟨rfl, rfl, rfl, rfl, rfl⟩,
    fun _ => ⟨rfl, fun _ => rfl, fun _ => rfl, fun _ => rfl, fun _ => rfl⟩, fun _ => ⟨rfl, rfl, rfl, rfl⟩, fun _ => rfl, fun _ => rfl, fun _ => rfl⟩

end Sys2Proof.Claims
end

section
/-! PROOFS. Words of the forager that meet the decoupled queue, control registers and traps: `tret` (R399), `tmark` (R445), `cfgrd` (R299-R301),
`vrun` (R306), `rqpop` and `vsync` (R307, R308). -/

namespace Sys2Proof.Machine

open Sys2Proof.Claims

/-! The return from a trap (R399) -/

theorem exec_tret_refused {s : State} (h : s.h.mode = .a ∨ s.h.mode.code < (pmMode s.h.tstat).code) :
    exec .tret s = .next (s.trap cILLOP 0x60001000#64) := if_pos (by simpa using h)

theorem exec_tret_returns {s : State} (hmode : s.h.mode ≠ .a) (hpm : (pmMode s.h.tstat).code ≤ s.h.mode.code) :
    exec .tret s = .next { s with h := s.h.return, did := .retired } := if_neg (by simpa using ⟨hmode, hpm⟩)

theorem return_idle {h : Hart} (hs : h.stop = none) :
    h.return = { h with mode := pmMode h.tstat, iw := none, pageIn := h.pageIn.tail, pc := h.tepc, held := none } := by
  simp only [Hart.return, hs]

theorem return_resumes {h : Hart} (hs : h.stop ≠ none) (hvs : bit h.tstat.toNat 2 = true) :
    h.return = { ({ h with mode := pmMode h.tstat, iw := none, pageIn := h.pageIn.tail } : Hart).resumeVector with
      pc := h.held.getD h.tepc, held := none } := by
  obtain ⟨v, hv⟩ := Option.ne_none_iff_exists'.mp hs
  simp only [Hart.return, hv, hvs, if_true]

theorem return_abandons {h : Hart} (hs : h.stop ≠ none) (hvs : bit h.tstat.toNat 2 = false) :
    h.return = { ({ h with mode := pmMode h.tstat, iw := none, pageIn := h.pageIn.tail } : Hart).abandon with pc := h.tepc, held := none } := by
  obtain ⟨v, hv⟩ := Option.ne_none_iff_exists'.mp hs
  simp only [Hart.return, hv, hvs, Bool.false_eq_true, if_false]

/-- Whatever becomes of the vector side, the mode is that of TSTAT.PM, and the x registers stand. -/
theorem return_mode_x (h : Hart) : h.return.mode = pmMode h.tstat ∧ h.return.x = h.x := by
  by_cases hs : h.stop = none
  · rw [return_idle hs]
    exact ⟨rfl, rfl⟩
  · cases hvs : bit h.tstat.toNat 2 with
    | true => rw [return_resumes hs hvs]; exact ⟨rfl, rfl⟩
    | false => rw [return_abandons hs hvs]; exact ⟨rfl, rfl⟩

/-! Control registers read (R299-R301) -/

section Reads

variable {s : State} {d : BitVec 5} {i : BitVec 12}

theorem exec_cfgrd_unknown (h : cfgKnown i.toNat = false) : exec (.cfgrd d i) s = .next (s.trap cILLOP (cfgWordOf 0 d 0 i)) :=
  if_pos (by simp [h])

theorem exec_cfgrd_refused (hk : cfgKnown i.toNat = true) (hs : cfgReadS i.toNat = true) (hm : s.h.mode = .a) :
    exec (.cfgrd d i) s = .next (s.trap cPROT (word i.toNat)) := (if_neg (by simp [hk])).trans (if_pos (by simp [hs, hm]))

/-- A register that the mode may read; one of the vector context needs its lanes (R404). -/
theorem exec_cfgrd_reads (hk : cfgKnown i.toNat = true) (hs : cfgReadS i.toNat = true → s.h.mode ≠ .a)
    (ho : cfgVector i.toNat = true → s.h.released = false → OwnsLanes s) :
    exec (.cfgrd d i) s = .next (s.retire d (s.cfgValue i.toNat)) := by
  refine (if_neg (by simp [hk])).trans ((if_neg (by simpa using hs)).trans ?_)
  split
  · next h =>
    simp only [Bool.and_eq_true, Bool.not_eq_true'] at h
    exact withLanes_of_ownsLanes (ho h.1 h.2) _ _
  · rfl

end Reads

/-! A stopped vector side that waits for the forager (R397) -/

theorem meetsTrapSD_passes {s : State} (h : s.h.trapWaits = false ∨ s.h.mode = .a) (f : Out) : s.meetsTrapSD f = f :=
  if_neg (by rcases h with h | h <;> simp [h])

theorem meetsTrapSD_meets {s : State} (hs : s.h.stop ≠ none) (hh : s.h.held = none) (hm : s.h.mode ≠ .a) (f : Out) :
    s.meetsTrapSD f = .next s.takeVectorTrap :=
  if_pos (by simp [Hart.trapWaits, hh, hm, Option.isSome_iff_ne_none, hs])

/-! vrun (R306) -/

theorem rawWord_vrun (d a : BitVec 5) : rawWord (.vrun d a) = word (0x12 * 2 ^ 26 + d.toNat * 2 ^ 21 + a.toNat * 2 ^ 16) := by
  have hd := d.isLt
  have ha := a.isLt
  apply BitVec.eq_of_toNat_eq
  simp only [rawWord, encode, Option.getD_some, wordOf, put, word, BitVec.truncate_eq_setWidth, BitVec.toNat_setWidth, BitVec.toNat_ofNat]
  omega

section Run

variable {s : State} {d a : BitVec 5} (hmeets : s.h.trapWaits = false ∨ s.h.mode = .a)
include hmeets

theorem exec_vrun_released (h : s.h.released = true) :
    exec (.vrun d a) s = .next (s.trap cILLOP (word (0x12 * 2 ^ 26 + d.toNat * 2 ^ 21 + a.toNat * 2 ^ 16))) := by
  rw [← rawWord_vrun]
  exact (meetsTrapSD_passes hmeets _).trans (if_pos h)

variable (hl : s.h.released = false)
include hl

theorem exec_vrun_window (hw : window (s.xr a) ≠ 0) : exec (.vrun d a) s = .next (s.trap cSPACE (s.xr a)) :=
  (meetsTrapSD_passes hmeets _).trans ((if_neg (by simp [hl])).trans (if_pos hw))

variable (hw : window (s.xr a) = 0)
include hw

theorem exec_vrun_misaligned (ha : (s.xr a).toNat % 64 ≠ 0) : exec (.vrun d a) s = .next (s.trap cALIGN (s.xr a)) :=
  (meetsTrapSD_passes hmeets _).trans ((if_neg (by simp [hl])).trans ((if_neg (not_not.mpr hw)).trans (if_pos ha)))

variable (ha : (s.xr a).toNat % 64 = 0)
include ha

theorem exec_vrun_checked : exec (.vrun d a) s =
    if 16 ≤ s.h.queue.length then .next (s.stall (partyWord 4 s.h.hid)) else .next (s.queueBlock d (s.xr a)) :=
  (meetsTrapSD_passes hmeets _).trans ((if_neg (by simp [hl])).trans ((if_neg (not_not.mpr hw)).trans (if_neg (not_not.mpr ha))))

end Run

theorem queueBlock_registers (s : State) (d : BitVec 5) (p : Word) :
    WroteX (s.queueBlock d p) d (s.h.bcnt.zeroExtend 64) ∧ OtherX s (s.queueBlock d p) d := retire_registers s d _

theorem onlyX_queueBlock (s : State) (d : BitVec 5) (p : Word) :
    OnlyX s.h { (s.queueBlock d p).h with queue := s.h.queue, bcnt := s.h.bcnt } := by
  unfold State.queueBlock Hart.setX
  dsimp only
  split <;> rfl

/-! rqpop and vsync (R307, R308) -/

/-- An explicit wait that returns at once, over a state whose hart differs from the one before in no register. -/
theorem finishWait_registers {s u : State} (hx : u.h.x = s.h.x) (hpc : u.h.pc = s.h.pc) (d : BitVec 5) (v : Word) :
    WroteX (u.finishWait d v) d v ∧ OtherX s (u.finishWait d v) d ∧ (u.finishWait d v).h.pc = s.h.pc + 4 := by
  have ht : (u.traceHart u.h 5 0 u.h.pc v).h = u.h := State.h_traceHart ..
  obtain ⟨hwrote, hother, hnext, -⟩ := resultX_retireX (u.traceHart u.h 5 0 u.h.pc v) d v
  have hxr : ∀ r : BitVec 5, (u.traceHart u.h 5 0 u.h.pc v).xr r = s.xr r := fun r => by rw [State.xr, ht, Hart.xr, hx]; rfl
  exact ⟨hwrote, fun r hr => (hother r hr).trans (hxr r), hnext.trans (by rw [ht, hpc])⟩

/-- What a retiring wait leaves of the hart beside registers. -/
theorem finishWait_same {α : Type} (f : Hart → α) (hf : ∀ h x pc iw begun, f { h with x := x, pc := pc, iw := iw, begun := begun } = f h)
    (u : State) (d : BitVec 5) (v : Word) : f (u.finishWait d v).h = f u.h :=
  (retireX_same f hf _ d v).trans (congrArg f (State.h_traceHart ..))

section Replies

variable {s : State} {d t : BitVec 5} {r : BitVec 1} (hmeets : s.h.trapWaits = false ∨ s.h.mode = .a)
include hmeets

theorem exec_rqpop_reply {w : Word} {sn : Option Snap} {rest : List (Word × Option Snap)} (h : s.h.replies = (w, sn) :: rest) :
    exec (.rqpop d t r) s = .next (State.finishWait { s with h := { s.h with replies := rest, seen := sn.getD s.h.seen } } d w) := by
  refine (meetsTrapSD_passes hmeets _).trans ?_
  simp only [Hart.popReply, h]

theorem exec_rqpop_empty (h : s.h.replies = []) : exec (.rqpop d t r) s =
    if s.deadline t r ≤ s.gtb then .next (s.finishWait d 1) else .next (s.startWait .rqpop d (s.deadline t r)) := by
  refine (meetsTrapSD_passes hmeets _).trans ?_
  simp only [Hart.popReply, h]

theorem exec_vsync_idle (h : s.h.outstanding = []) : exec (.vsync d t r) s = .next ((s.setH Hart.syncSeen).finishWait d 0) :=
  (meetsTrapSD_passes hmeets _).trans (if_pos (by simp [h]))

theorem exec_vsync_busy (h : s.h.outstanding ≠ []) (hfuture : s.gtb < s.deadline t r) :
    exec (.vsync d t r) s = .next (s.startWait (.vsync (s.h.bcnt - 1)) d (s.deadline t r)) :=
  (meetsTrapSD_passes hmeets _).trans ((if_neg (by simp [h])).trans (if_neg (Nat.not_le.mpr hfuture)))

end Replies

/-! tmark and the trigger that it sends (R304, R445) -/

/-- A state but for what it has sent to peers. -/
def State.unposted (s : State) : State := { s with outbox := [], hub := { s.hub with fabSeq := [] } }

/-- The frames that a trigger sends, one to each peer (R445). -/
def State.toPeers (s : State) (tag group : Nat) (data : List Byte) (l : Tab (Option Nat)) : State :=
  l.foldl (fun t p => t.sendFrame 9 p.1 tag group data) s

theorem sendTrigger_eq (s : State) (tag group : Nat) :
    s.sendTrigger tag group = (s.toPeers tag group (leBytes 8 s.gtb) s.hub.peers).trigger tag group s.hub.hchip (word s.gtb) := rfl

theorem unposted_sendFrame (s : State) (kind dst tag target : Nat) (l : List Byte) : (s.sendFrame kind dst tag target l).unposted = s.unposted := by
  unfold State.sendFrame
  dsimp only
  split <;> rfl

theorem unposted_toPeers (s : State) (tag group : Nat) (data : List Byte) (l : Tab (Option Nat)) :
    (s.toPeers tag group data l).unposted = s.unposted :=
  foldl_keeps State.unposted _ (fun _ _ => unposted_sendFrame ..) l s

/-- What a state without its frames says of the state itself. -/
theorem of_unposted {α : Type} (f : State → α) (hf : ∀ s, f s.unposted = f s) {s t : State} (h : t.unposted = s.unposted) : f t = f s := by
  rw [← hf, h, hf]

theorem store_unposted (s : State) (a : Nat) (l : List Byte) (b : Bool) : s.unposted.store a l b = (s.store a l b).unposted := rfl

theorem store64_unposted (s : State) (a v : Nat) : s.unposted.store64 a v = (s.store64 a v).unposted := rfl

theorem gtb_unposted (s : State) : s.unposted.gtb = s.gtb := rfl

/-- A trace record does not look at what has been sent. -/
theorem trace_unposted (s : State) (tag hid die type code : Nat) (pc v : Word) :
    s.unposted.trace tag hid die type code pc v = (s.trace tag hid die type code pc v).unposted := by
  have hon : s.unposted.traceOn tag type = s.traceOn tag type := rfl
  have hring : s.unposted.traceRing tag = s.traceRing tag := rfl
  have hctl : s.unposted.trctl tag = s.trctl tag := rfl
  have hnum : s.unposted.numAt = s.numAt := by
    funext a n
    exact numAt_congr (s := s) (t := s.unposted) rfl a n
  unfold State.trace
  rw [hon, hring]
  split
  · rfl
  · split
    · rfl
    · dsimp only
      rw [hctl, hnum, gtb_unposted, store64_unposted, store_unposted, store64_unposted]
      split <;> rfl

/-- A frame for each peer, each with the trigger's group and time. -/
theorem toPeers_out {tag group : Nat} {data : List Byte} : ∀ (l : Tab (Option Nat)) {s : State}, s.portsUp = true → (s.tenant tag).replay = false →
    ∃ fs, (s.toPeers tag group data l).outbox = s.outbox ++ fs ∧ fs.map (fun f => f.dst) = l.map (fun p => p.1) ∧
      ∀ f ∈ fs, f.kind = 9 ∧ f.tag = tag ∧ f.target = group ∧ f.data = data
  | [], s, _, _ => ⟨[], (List.append_nil _).symm, rfl, nofun⟩
  | p :: l, s, hup, hr => by
    have hsame := unposted_sendFrame s 9 p.1 tag group data
    obtain ⟨f, hout, hkind, hdst, htag, hgroup, hdata⟩ := sendFrame_out hr hup 9 p.1 group data
    obtain ⟨fs, houts, hdsts, hall⟩ := toPeers_out (tag := tag) (group := group) (data := data) l
      ((of_unposted State.portsUp (fun _ => rfl) hsame).trans hup)
      ((of_unposted (fun u => (u.tenant tag).replay) (fun _ => rfl) hsame).trans hr)
    refine ⟨f :: fs, ?_, ?_, ?_⟩
    · rw [List.append_cons, ← hout]
      exact houts
    · rw [List.map_cons, List.map_cons, hdst, hdsts]
    · exact List.forall_mem_cons.mpr ⟨⟨hkind, htag, hgroup, hdata⟩, hall⟩

section Trigger

variable {s : State} {tag group : Nat} (chip : Nat) (origin : Word) (h63 : bit (s.tenant tag).ftrig.toNat 63 = true)
  (hg : bits (s.tenant tag).ftrig.toNat 32 16 = group)
include h63 hg

/-- A trigger that does not halt leaves its record alone. -/
theorem trigger_records (h62 : bit (s.tenant tag).ftrig.toNat 62 = false) :
    s.trigger tag group chip origin = s.trace tag 0 12 7 chip origin (word group) := by
  simp [State.trigger, h63, hg, h62]

end Trigger

theorem outbox_trace (s : State) (a b c d e : Nat) (p v : Word) : (s.trace a b c d e p v).outbox = s.outbox :=
  (congrArg State.outbox (trace_only s a b c d e p v) :)

theorem h_trace (s : State) (a b c d e : Nat) (p v : Word) : (s.trace a b c d e p v).h = s.h := (congrArg State.h (trace_only s a b c d e p v) :)

theorem pool_trace (s : State) (a b c d e : Nat) (p v : Word) : (s.trace a b c d e p v).pool = s.pool :=
  (congrArg State.pool (trace_only s a b c d e p v) :)

/-- A trigger writes trace records, and halts harts. -/
theorem trigger_only (s : State) (tag group chip : Nat) (origin : Word) : (s.trigger tag group chip origin).outbox = s.outbox ∧
    ((s.trigger tag group chip origin).h = s.h ∨ (s.trigger tag group chip origin).h = haltBound tag s.h) := by
  let s1 := s.trace tag 0 12 7 chip origin (word group)
  let s2 := (s1.harts.filter (Hart.haltable tag)).foldl (fun t h => t.traceHart h 8 4 h.pc 0) s1
  have hout : s2.outbox = s.outbox := (foldl_keeps State.outbox _ (fun _ _ => outbox_trace ..) _ s1).trans (outbox_trace ..)
  have hh : s2.h = s.h := (foldl_keeps State.h _ (fun _ _ => h_trace ..) _ s1).trans (h_trace ..)
  unfold State.trigger
  dsimp only
  split
  · split
    · exact ⟨hout, .inr (congrArg (haltBound tag) hh)⟩
    · exact ⟨outbox_trace .., .inl (h_trace ..)⟩
  · exact ⟨rfl, .inl rfl⟩

/-- A halt writes nothing that a program reads. -/
theorem haltBound_same {α : Type} (f : Hart → α) (hf : ∀ h b v, f { h with halt := b, viw := v } = f h) (tag : Nat) (h : Hart) :
    f (haltBound tag h) = f h := by
  unfold haltBound
  split
  · exact hf ..
  · rfl

/-- What a trigger leaves of the hart that sent it. -/
theorem sendTrigger_hand {α : Type} (f : Hart → α) (hf : ∀ h b v, f { h with halt := b, viw := v } = f h) (s : State) (tag group : Nat) :
    f (s.sendTrigger tag group).h = f s.h := by
  have hh : (s.toPeers tag group (leBytes 8 s.gtb) s.hub.peers).h = s.h :=
    of_unposted State.h (fun _ => rfl) (unposted_toPeers s tag group _ _)
  rw [sendTrigger_eq, ← hh]
  obtain ⟨-, h | h⟩ := trigger_only (s.toPeers tag group (leBytes 8 s.gtb) s.hub.peers) tag group s.hub.hchip (word s.gtb)
  · exact congrArg f h
  · exact (congrArg f h).trans (haltBound_same f hf tag _)

theorem mem_trace_congr {s t : State} (h : t.unposted = s.unposted) (a b c d e : Nat) (p v : Word) :
    (t.trace a b c d e p v).mem = (s.trace a b c d e p v).mem := by
  have htrace : t.unposted.trace a b c d e p v = s.unposted.trace a b c d e p v := by rw [h]
  rw [trace_unposted, trace_unposted] at htrace
  exact (congrArg State.mem htrace :)

/-- A completion moves the PC of the hart in hand. -/
theorem mem_harts_retire0 {s : State} {k : Hart} (h : k ∈ s.retire0.harts) :
    ∃ j ∈ s.harts, k = j ∨ ∃ p w, k = { j with pc := p, iw := w } := by
  cases hlive : s.h.live with
  | true =>
    have hharts : s.harts = s.h :: s.pool := if_pos hlive
    have hafter : s.retire0.harts = s.retire0.h :: s.pool := if_pos hlive
    rw [hafter] at h
    rw [hharts]
    rcases List.mem_cons.mp h with rfl | h
    · exact ⟨s.h, List.mem_cons_self, .inr ⟨_, _, rfl⟩⟩
    · exact ⟨k, List.mem_cons_of_mem _ h, .inl rfl⟩
  | false =>
    have hharts : s.harts = s.pool := if_neg (by simp [hlive])
    have hafter : s.retire0.harts = s.pool := if_neg (by simp [hlive])
    exact ⟨k, by rwa [hharts, ← hafter], .inl rfl⟩

/-- A trigger that FTRIG sends has reached this chip and its peers. -/
theorem triggerSent_sendTrigger {s : State} {tag group : Nat} (h63 : bit (s.tenant tag).ftrig.toNat 63 = true)
    (hg : bits (s.tenant tag).ftrig.toNat 32 16 = group) : TriggerSent s (s.sendTrigger tag group).retire0 tag group := by
  let u := s.toPeers tag group (leBytes 8 s.gtb) s.hub.peers
  have hsame : u.unposted = s.unposted := unposted_toPeers s tag group _ _
  have hftrig : (u.tenant tag).ftrig = (s.tenant tag).ftrig := of_unposted (fun t => (t.tenant tag).ftrig) (fun _ => rfl) hsame
  have hu63 : bit (u.tenant tag).ftrig.toNat 63 = true := by rw [hftrig, h63]
  have hug : bits (u.tenant tag).ftrig.toNat 32 16 = group := by rw [hftrig, hg]
  have hrecord : bit (s.tenant tag).ftrig.toNat 62 = false →
      s.sendTrigger tag group = u.trace tag 0 12 7 s.hub.hchip (word s.gtb) (word group) := fun h62 =>
    trigger_records (s := u) _ _ hu63 hug (by rw [hftrig, h62])
  have hmem : bit (s.tenant tag).ftrig.toNat 62 = false →
      (s.sendTrigger tag group).mem = (s.trace tag 0 12 7 s.hub.hchip (word s.gtb) (word group)).mem := fun h62 => by
    rw [hrecord h62]
    exact mem_trace_congr hsame ..
  refine ⟨fun hup hr => ?_, ?_, fun h62 => ?_, fun hoff h62 => ?_, hmem⟩
  · obtain ⟨fs, hout, hdst, hall⟩ := toPeers_out (tag := tag) (group := group) (data := leBytes 8 s.gtb) s.hub.peers hup hr
    exact ⟨fs, (trigger_only u tag group s.hub.hchip (word s.gtb)).1.trans hout, hdst, hall⟩
  · intro k hk h62 hlive htid hslot
    have hhalts := trigger_halts (s := u) (chip := s.hub.hchip) (origin := word s.gtb) hu63 (by rw [hftrig, h62]) hug
    obtain ⟨j, hj, rfl | ⟨p, w, rfl⟩⟩ := mem_harts_retire0 hk
    · exact hhalts k hj hlive htid hslot
    · exact hhalts j hj hlive htid hslot
  · refine ⟨?_, ?_⟩
    · exact (congrArg State.pool (hrecord h62)).trans ((pool_trace ..).trans (of_unposted State.pool (fun _ => rfl) hsame))
    · have hh : (s.sendTrigger tag group).h = s.h :=
        (congrArg State.h (hrecord h62)).trans ((h_trace ..).trans (of_unposted State.h (fun _ => rfl) hsame))
      exact (congrArg Hart.halt hh :)
  · refine sameBytes_of_mem ((hmem h62).trans ?_)
    rw [State.trace, hoff]
    rfl

/-! The outcome of tmark -/

section Mark

variable (s : State) (a : BitVec 5) (c : BitVec 12)

/-- FTRIG is armed for the code of a mark (R445). -/
def State.marks (s : State) (c : BitVec 12) : Prop :=
  bit (s.tenant s.h.tid).ftrig.toNat 63 = true ∧ bits (s.tenant s.h.tid).ftrig.toNat 0 12 ≤ c.toNat ∧
    c.toNat ≤ bits (s.tenant s.h.tid).ftrig.toNat 16 12

theorem exec_tmark_sends (h : s.marks c) : exec (.tmark a c) s =
    .next ((s.traceHart s.h 1 c.toNat s.h.pc (s.xr a)).sendTrigger s.h.tid (bits (s.tenant s.h.tid).ftrig.toNat 32 16)).retire0 := by
  show execTmark a c s = _
  unfold execTmark
  dsimp only
  rw [if_pos]
  simpa [State.marks, and_assoc] using h

theorem exec_tmark_silent (h : ¬s.marks c) : exec (.tmark a c) s = .next (s.traceHart s.h 1 c.toNat s.h.pc (s.xr a)).retire0 := by
  show execTmark a c s = _
  unfold execTmark
  dsimp only
  rw [if_neg]
  simpa [State.marks, and_assoc] using h

/-- A mark without a trigger completes beside its record. -/
theorem wentTo_tmark_silent : WentTo (s.traceHart s.h 1 c.toNat s.h.pc (s.xr a)) (s.traceHart s.h 1 c.toNat s.h.pc (s.xr a)).retire0 (s.h.pc + 4) := by
  have h := wentTo_retire0 (s.traceHart s.h 1 c.toNat s.h.pc (s.xr a))
  rwa [State.h_traceHart] at h

theorem traceHart_off {k : Hart} {type : Nat} (h : s.traceOn k.tid type = false) (n : Nat) (p v : Word) : s.traceHart k type n p v = s := by
  rw [State.traceHart, State.trace, h]
  rfl

end Mark

end Sys2Proof.Machine

namespace Sys2Proof.Claims

open Sys2Proof.Machine

/-- Settles O13: without a stopped vector side the return is `return_idle`; with one, VS decides between `return_resumes` and `return_abandons`. -/
theorem trapReturn : Obligations.TrapReturn := by
  unfold Obligations.TrapReturn
  refine ⟨fun s hmode hpm => ?_, fun s h => exec_tret_refused h⟩
  obtain ⟨hm, hx⟩ := return_mode_x s.h
  refine ⟨_, exec_tret_returns hmode hpm, rfl, hm, fun r => ?_, fun hs => ?_, fun hs hvs => ?_, fun hs hvs => ?_⟩
  · show s.h.return.xr r.toNat = s.h.xr r.toNat
    rw [Hart.xr, hx, ← Hart.xr]
  · rw [return_idle hs]
    exact ⟨rfl, rfl⟩
  · rw [return_resumes hs hvs]
    exact ⟨rfl, rfl, rfl, rfl, rfl, bits_zero_low .., rfl, rfl⟩
  · rw [return_abandons hs hvs]
    exact ⟨rfl, rfl, rfl, rfl, rfl, rfl⟩

/-- Settles O14: whether FTRIG is armed for the code decides between `exec_tmark_sends` and `exec_tmark_silent`. -/
theorem markResults : Obligations.MarkResults := by
  unfold Obligations.MarkResults
  intro s a c
  let s1 := s.traceHart s.h 1 c.toNat s.h.pc (s.xr a)
  have hh : s1.h = s.h := State.h_traceHart ..
  have hten : s1.tenants = s.tenants := State.tenants_traceHart ..
  refine ⟨?_, fun hsilent hoff => ?_⟩
  · by_cases hsends : s.marks c
    · have hsent := triggerSent_sendTrigger (s := s1) (tag := s.h.tid) (group := bits (s.tenant s.h.tid).ftrig.toNat 32 16)
        (by rw [State.tenant, hten]; exact hsends.1) (by rw [State.tenant, hten]; rfl)
      have hand {α : Type} (f : Hart → α) (hf : ∀ h b v, f { h with halt := b, viw := v } = f h) :
          f (s1.sendTrigger s.h.tid (bits (s.tenant s.h.tid).ftrig.toNat 32 16)).h = f s.h :=
        (sendTrigger_hand f hf s1 _ _).trans (congrArg f hh)
      refine ⟨_, exec_tmark_sends s a c hsends, congrArg (· + 4) (hand Hart.pc fun _ _ _ => rfl),
        fun r => hand (Hart.xr · r.toNat) fun _ _ _ => rfl, hand Hart.vx fun _ _ _ => rfl, hand Hart.queue fun _ _ _ => rfl,
        hand Hart.mode fun _ _ _ => rfl, hand Hart.fxf fun _ _ _ => rfl, fun _ => hsent, fun h => absurd hsends h⟩
    · have hand {α : Type} (f : Hart → α) : f s1.h = f s.h := congrArg f hh
      exact ⟨_, exec_tmark_silent s a c hsends, congrArg (· + 4) (hand Hart.pc), fun r => hand (Hart.xr · r.toNat), hand Hart.vx,
        hand Hart.queue, hand Hart.mode, hand Hart.fxf, fun h => absurd h hsends, fun _ => wentTo_tmark_silent s a c⟩
  · have h := wentTo_tmark_silent s a c
    rw [traceHart_off s hoff] at h
    exact ⟨_, exec_tmark_silent s a c hsilent, by rwa [traceHart_off s hoff]⟩

/-- Settles O15: the index, then the mode, then the lanes decide. -/
theorem controlReads : Obligations.ControlReads := by
  unfold Obligations.ControlReads
  exact fun s d i => ⟨fun hk hs ho => ⟨_, exec_cfgrd_reads hk hs ho, resultX_retire ..⟩, exec_cfgrd_refused, exec_cfgrd_unknown⟩

/-- Settles O17: the checks of `vrun` in their order, and the entry that it appends. -/
theorem runResults : Obligations.RunResults := by
  unfold Obligations.RunResults
  refine ⟨fun s d a hmeets hl hw ha hq => ?_, fun s d a hmeets => ⟨exec_vrun_released hmeets, exec_vrun_window hmeets,
    exec_vrun_misaligned hmeets, fun hl hw ha hq => ?_⟩, fun s d a hs hh hm => meetsTrapSD_meets hs hh hm _⟩
  · have hexec : exec (.vrun d a) s = .next (s.queueBlock d (s.xr a)) := (exec_vrun_checked hmeets hl hw ha).trans (if_neg (by omega))
    obtain ⟨hwrote, hother⟩ := queueBlock_registers s d (s.xr a)
    exact ⟨_, hexec, hwrote, hother, rfl, rfl, onlyX_queueBlock .., rfl, fun _ => rfl, s.h.entry (s.xr a), rfl, rfl, rfl, rfl, rfl, rfl, rfl,
      rfl, rfl, rfl, rfl⟩
  · exact (exec_vrun_checked hmeets hl hw ha).trans (if_pos hq)

/-- Settles O18: a reply is popped, or the wait is `startWait` until the deadline; `vsync` likewise, by the blocks outstanding. -/
theorem replyResults : Obligations.ReplyResults := by
  unfold Obligations.ReplyResults
  refine fun s d t r hmeets => ⟨fun w sn rest h => ?_, fun h hpast => ?_, fun h hfuture => ?_, fun h => ?_, fun h hfuture => ?_⟩
  · let u : State := { s with h := { s.h with replies := rest, seen := sn.getD s.h.seen } }
    obtain ⟨hwrote, hother, hpc⟩ := finishWait_registers (s := s) (u := u) rfl rfl d w
    exact ⟨_, exec_rqpop_reply hmeets h, finishWait_same Hart.replies (fun _ _ _ _ _ => rfl) u d w, hwrote, hother, hpc,
      finishWait_same Hart.seen (fun _ _ _ _ _ => rfl) u d w⟩
  · exact ⟨_, (exec_rqpop_empty hmeets h).trans (if_pos hpast), outcome_finishWait ..⟩
  · exact ⟨_, (exec_rqpop_empty hmeets h).trans (if_neg (Nat.not_le.mpr hfuture)), nowWaits_startWait ..⟩
  · obtain ⟨hwrote, hother, hpc⟩ := finishWait_registers (s := s) (u := s.setH Hart.syncSeen) rfl rfl d 0
    refine ⟨_, exec_vsync_idle hmeets h, hwrote, hother, hpc, ?_⟩
    rw [finishWait_same Hart.replies (fun _ _ _ _ _ => rfl)]
    exact List.length_map _
  · exact ⟨_, exec_vsync_busy hmeets h hfuture, nowWaits_startWait ..⟩

end Sys2Proof.Claims
end

section
/-! PROOFS. Words of the lanes on exact rationals (R252-R258): the loop of R252 by the number of operands that it uses, and the two groups of
`vqdec`. -/

namespace Sys2Proof.Machine

open Sys2Proof.Claims

section

variable {s : State} {j : Instr} {n : Hart → Need} {d m : Nat} {A B : Hart → VOpnd} {r : Need × List (Nat × ERes)}

/-- A word whose meaning ends its run with results has the row of those results. -/
theorem lane_vissue (meaning : State → Out) {l : List (Nat × ERes)} (hexec : exec j s = meaning s)
    (hmeaning : meaning s = s.vissue n (s.toVec d l)) (hr : r = (n s.h, l)) : Lane s (j, r) (s.h.putEls s.h.sew d r.2) :=
  hr ▸ lane_toVec (hexec.trans hmeaning)

/-- A word that ends its run with results when no vote is on them, and writes the vector context alone. -/
theorem lane_of_laneDone (meaning : State → Out) {l : List (Nat × ERes)} {o : Out} {k : Hart} (hexec : exec j s = meaning s)
    (hmeaning : meaning s = s.vissue n o) (ho : s.h.votes = [] → o = s.laneDone l k) (hk : { k with vx := s.h.vx } = s.h) :
    Lane s (j, n s.h, l) k := by
  refine ⟨fun hbad => (hexec.trans hmeaning).trans (if_neg (ne_true_of_eq_false hbad)), fun hok hv => ?_⟩
  have hdone : exec j s = s.laneDone (s.h.voted l) k := by rw [voted_of_no_votes hv, hexec, hmeaning, vissue_ok hok, ho hv]
  exact (lane_laneDone (n := n) (k := fun _ => k) (hdone.trans (vissue_ok hok _).symm) hk).2 hok hv

/-- The ND rule for a function of one operand (R252). -/
def QEnt.one (q : QEnt) (g : Nat → Option Nat) (x : Nat) : Nat × Nat := if q.red x = qND then (qND, 0) else ratRes (g (q.red x))

/-- The ND rule for a function of two operands (R252). -/
def QEnt.two (q : QEnt) (g : Nat → Nat → Option Nat) (x y : Nat) : Nat × Nat :=
  if q.red x = qND ∨ q.red y = qND then (qND, 0) else ratRes (g (q.red x) (q.red y))

/-- The multiplication and addition of R253 under the ND rule. -/
def QEnt.fused (q : QEnt) (x y z : Nat) : Nat :=
  if q.red x = qND ∨ q.red y = qND ∨ q.red z = qND then qND else (q.red x * q.red y + q.red z) % q.m

theorem apply_one {q : QEnt} {f : QEnt → Nat → Nat → Nat → Option Nat} {g : Nat → Option Nat} (hf : f q = fun a _ _ => g a) (x y z : Nat) :
    q.apply false false f x y z = q.one g x := by
  simp only [QEnt.apply, QEnt.one, hf, Bool.false_and, Bool.or_false, decide_eq_true_eq]
  rfl

theorem apply_two {q : QEnt} {f : QEnt → Nat → Nat → Nat → Option Nat} {g : Nat → Nat → Option Nat} (hf : f q = fun a b _ => g a b)
    (x y z : Nat) : q.apply true false f x y z = q.two g x y := by
  simp only [QEnt.apply, QEnt.two, hf, Bool.true_and, Bool.false_and, Bool.or_false, Bool.or_eq_true, decide_eq_true_eq, beq_iff_eq]
  rfl

theorem apply_qMacc (q : QEnt) (x y z : Nat) : q.apply true true qMacc x y z = (q.fused x y z, 0) := by
  simp only [QEnt.apply, QEnt.fused, Bool.true_and, Bool.or_eq_true, decide_eq_true_eq, beq_iff_eq, or_assoc]
  split
  · rfl
  · rfl

/-- A function of one residue. -/
theorem lane_residue (meaning : State → Out) {f : QEnt → Nat → Nat → Nat → Option Nat} {g : Nat → Option Nat} (hexec : exec j s = meaning s)
    (hmeaning : meaning s = qwise n false false f d m A (fun _ => opC 0) s) (hf : f s.h.qent = fun a _ _ => g a)
    (hr : r = (n s.h, s.h.results m (bin (fun x _ => s.h.qent.one g x) (A s.h) (opC 0)))) : Lane s (j, r) (s.h.putEls s.h.sew d r.2) := by
  refine lane_vissue meaning hexec (hmeaning.trans (congrArg (fun l => s.vissue n (s.toVec d (s.h.results m l))) (funext fun e => ?_))) hr
  simp only [apply_one hf, bin, opC, Bool.false_and, Bool.or_false]

/-- A function of two residues. -/
theorem lane_residues (meaning : State → Out) {f : QEnt → Nat → Nat → Nat → Option Nat} {g : Nat → Nat → Option Nat}
    (hexec : exec j s = meaning s) (hmeaning : meaning s = qwise n true false f d m A B s) (hf : f s.h.qent = fun a b _ => g a b)
    (hr : r = (n s.h, s.h.results m (bin (s.h.qent.two g) (A s.h) (B s.h)))) : Lane s (j, r) (s.h.putEls s.h.sew d r.2) := by
  refine lane_vissue meaning hexec (hmeaning.trans (congrArg (fun l => s.vissue n (s.toVec d (s.h.results m l))) (funext fun e => ?_))) hr
  simp only [apply_two hf, bin, Bool.true_and, Bool.false_and, Bool.or_false]

/-- A multiplication and addition of residues. -/
theorem lane_qMacc (meaning : State → Out) (hexec : exec j s = meaning s) (hmeaning : meaning s = qwise n true true qMacc d m A B s)
    (hr : r = (n s.h, s.h.results m (fun e =>
      { val := s.h.qent.fused (A s.h e).1 (B s.h e).1 (s.h.opV d e).1, bad := (A s.h e).2 || (B s.h e).2 || (s.h.opV d e).2, fl := 0 }))) :
    Lane s (j, r) (s.h.putEls s.h.sew d r.2) := by
  refine lane_vissue meaning hexec (hmeaning.trans (congrArg (fun l => s.vissue n (s.toVec d (s.h.results m l))) (funext fun e => ?_))) hr
  simp only [apply_qMacc, Bool.true_and]

theorem lane_qcompare (meaning : State → Out) (hexec : exec j s = meaning s) (hmeaning : meaning s = qcompare n d m A B s)
    (hr : r = (n s.h, s.h.results m (cond (fun x y => (decide (s.h.qent.red x = s.h.qent.red y), 0)) (A s.h) (B s.h)))) :
    Lane s (j, r) (s.h.putMask d r.2) := by
  have hlane := lane_toMask (hexec.trans hmeaning)
  simp only [beq_eq_decide] at hlane
  exact hr ▸ hlane

end

section

variable (s : State) (c : BitVec 1) (d a b : BitVec 6) (m : BitVec 3)

/-- The rows in the order of the table: the field operations, the fused ones, the encodings, and the digits with the valuation. -/
theorem lane_ratTable (i : BitVec 5) : ∀ e ∈ ratTable s.h c d a b i m, Lane s e (s.h.putEls s.h.sew d.toNat e.2.2) := by
  simp only [ratTable, List.forall_mem_cons]
  exact ⟨lane_residues (execVqaddVv c d a b m) rfl rfl rfl rfl, lane_residues (execVqaddVx c d a b m) rfl rfl rfl rfl,
    lane_residues (execVqsubVv c d a b m) rfl rfl rfl rfl, lane_residues (execVqsubVx c d a b m) rfl rfl rfl rfl,
    lane_residues (execVqrsub c d a b m) rfl rfl rfl rfl, lane_residues (execVqmulVv c d a b m) rfl rfl rfl rfl,
    lane_residues (execVqmulVx c d a b m) rfl rfl rfl rfl, lane_residues (execVqdivVv c d a b m) rfl rfl rfl rfl,
    lane_residues (execVqdivVx c d a b m) rfl rfl rfl rfl, lane_residues (execVqrdiv c d a b m) rfl rfl rfl rfl,
    lane_residue (execVqneg c d a m) rfl rfl rfl rfl, lane_residue (execVqinv c d a m) rfl rfl rfl rfl,
    lane_qMacc (execVqmaccVv c d a b m) rfl rfl rfl, lane_qMacc (execVqmaccVx c d a b m) rfl rfl rfl,
    lane_vissue (execVqencVv c d a b m) rfl rfl rfl, lane_vissue (execVqencVx c d a b m) rfl rfl rfl,
    lane_vissue (execVqencVi c d a i m) rfl rfl rfl, lane_residue (execVqdigVx c d a b m) rfl rfl rfl rfl,
    lane_residue (execVqdigVi c d a i m) rfl rfl rfl rfl, lane_residue (execVqval c d a m) rfl rfl rfl rfl, List.forall_mem_nil _⟩

theorem lane_ratEqTable (k : BitVec 3) : ∀ e ∈ ratEqTable s.h c k a b m, Lane s e (s.h.putMask k.toNat e.2.2) := by
  simp only [ratEqTable, List.forall_mem_cons]
  exact ⟨lane_qcompare (execVqeqVv c k a b m) rfl rfl rfl, lane_qcompare (execVqeqVx c k a b m) rfl rfl rfl, List.forall_mem_nil _⟩

/-! The decoding (R257) -/

theorem votedBy_of_no_votes {h : Hart} (hv : h.votes = []) (pick : RunRes → Nat) (l : List (Nat × ERes)) : h.votedBy pick l = l := by
  simp [Hart.votedBy, hv]

theorem lane_vqdec :
    Lane s (.vqdec c d a m, Need.of qType [(d.toNat, 2 * s.h.grp), (a.toNat, s.h.grp)] (.regs d.toNat (2 * s.h.grp)), decResults s.h a m false)
      ((s.h.putEls s.h.sew d.toNat (decResults s.h a m false)).putEls s.h.sew (d.toNat + s.h.grp) (decResults s.h a m true)) := by
  refine lane_of_laneDone (n := fun h => Need.of qType [(d.toNat, 2 * h.grp), (a.toNat, h.grp)] (.regs d.toNat (2 * h.grp)))
    (execVqdec c d a m) rfl rfl (fun hv => ?_) ?_
  · simp only [votedBy_of_no_votes hv]
    rfl
  · exact (congrArg (fun k : Hart => { k with vx := s.h.vx }) (putEls_only ..)).trans (putEls_only ..)

end

end Sys2Proof.Machine

namespace Sys2Proof.Claims

open Sys2Proof.Machine

/-- Settles O34, table by table. -/
theorem vectorRational : Obligations.VectorRational := by
  unfold Obligations.VectorRational
  exact fun s c d a b i k m => ⟨lane_ratTable s c d a b m i, lane_ratEqTable s c a b m k, lane_vqdec s c d a m⟩

end Sys2Proof.Claims
end

section
/-! PROOFS. A floating extreme with no active element (R241): the start value is canonicalised, where the table of O33 takes it as it stands. -/

namespace Sys2Proof.Machine

open Sys2Proof.Claims

/-- The result of `vfredmax`. -/
def fredmaxResult (h : Hart) (a b m : Nat) : ERes :=
  let r := extreme (h.fmt.minmax true) (h.opV b 0).1 ((List.range h.vx.vl).map (fun e => if h.active m e then some (h.opV a e).1 else none))
  { val := r.1, bad := (h.opV b 0).2 || (h.actives m).any (fun e => (h.opV a e).2), fl := r.2 }

theorem lane_vfredmax (s : State) (c : BitVec 1) (d a b : BitVec 6) (m : BitVec 3) :
    Lane s (.vfredmax c d a b m, needRed floatType d.toNat a.toNat b.toNat s.h,
        if s.h.vx.vl = 0 then [] else [(0, fredmaxResult s.h a.toNat b.toNat m.toNat)])
      (s.h.putEls s.h.sew d.toNat (if s.h.vx.vl = 0 then [] else [(0, fredmaxResult s.h a.toNat b.toNat m.toNat)])) :=
  lane_first (n := needRed floatType d.toNat a.toNat b.toNat) (execVfredmax c d a b m) rfl rfl rfl

/-- A hart whose words have one element, of bf16, that mask 1 leaves inactive; element 0 of v6 is a quiet NaN that is not the canonical one. -/
def nanStart : State :=
  { State.reset with
    h := { Hart.blank with vx := { VCtx.dead with vl := 1, vtype := { vill := false, g := 0, ty := 2, sw := 1 }, v := [(6, 0x7FC1)] } } }

/-- The row of the table, which takes the start value itself. -/
theorem nanStart_row : (.vfredmax 0 2 4 6 1, needRed floatType 2 4 6 nanStart.h, [(0, ERes.clean 0x7FC1)]) ∈ fsumTable nanStart.h 0 2 4 6 1 :=
  List.mem_cons_of_mem _ List.mem_cons_self

end Sys2Proof.Machine

namespace Sys2Proof.Claims

open Sys2Proof.Machine

/-- Refutes O33: with no active element `vfredmax` of a NaN writes the canonical one, and not the start value. -/
theorem not_vectorFloat : ¬Obligations.VectorFloat := by
  unfold Obligations.VectorFloat
  intro h
  have hok : nanStart.h.issueOk (needRed floatType 2 4 6 nanStart.h) = true := by decide
  obtain ⟨hrow, -, -⟩ := h nanStart 0 2 4 6 0 0 0 1
  have hclaimed := hrow _ (List.mem_append_right _ nanStart_row)
  obtain ⟨t, ht, ⟨htable, -⟩⟩ := (hclaimed.2 hok rfl).1 rfl
  have hlane := (lane_vfredmax nanStart 0 2 4 6 1).2 hok rfl
  obtain ⟨u, hu, ⟨hmodel, -⟩⟩ := hlane.1 rfl
  obtain rfl := Host.Outcome.next.inj (ht.symm.trans hu)
  have hel := congrArg (fun k : Hart => (k.opV 2 0).1) (htable.symm.trans hmodel)
  exact absurd hel (by decide)

end Sys2Proof.Claims
end

section
/-! PROOFS. Words of the sequencer class: the sequencer operations, `vcfgrd` and VSETL (R184, R317, R318), and the replies and the end of a
block (R283, R316). -/

namespace Sys2Proof.Machine

open Sys2Proof.Claims

/-! Words that change the vector context alone -/

/-- A word that completes with a new vector context. -/
theorem vdone_result {s : State} {j : Instr} {k : Hart} (hexec : exec j s = .next (s.vdone k 0)) (hk : { k with vx := s.h.vx } = s.h) :
    ∃ t, exec j s = .next t ∧ VDone s t k 0 ∧ OnlyHart s t :=
  ⟨_, hexec, vdone_completes hk 0, rfl⟩

theorem setCode_only (h : Hart) (n : Nat) (v : Word) : { h.setCode n v with vx := h.vx } = h := rfl

/-- The sequencer operations, in the order of the table. -/
theorem vdone_seqTable (s : State) (c : BitVec 1) (d : BitVec 4) (a b i : BitVec 6) (j : BitVec 12) :
    ∀ e ∈ seqTable s.h c d a b i j, exec e.1 s = .next (s.vdone (s.h.setCode d.toNat e.2) 0) := by
  simp only [seqTable, List.forall_mem_cons]
  exact ⟨rfl, rfl, rfl, rfl, rfl, rfl, rfl, rfl, rfl, rfl, rfl, rfl, List.forall_mem_nil _⟩

/-! Control registers of the vector side (R318) -/

theorem vcfgValue_of_mem (s : State) : ∀ e ∈ vcfgTable s, s.vcfgValue e.1 = some e.2 := by
  simp only [vcfgTable, List.forall_mem_cons]
  exact ⟨rfl, rfl, rfl, rfl, rfl, rfl, rfl, rfl, rfl, rfl, rfl, rfl, rfl, rfl, List.forall_mem_nil _⟩

theorem fxfNow_eq : Block.fxfNow = fun b => orFlags b.fxf b.flags := rfl

theorem mem_vcfgTable {s : State} {i : Nat} {v : Word} (h : s.vcfgValue i = some v) : (i, v) ∈ vcfgTable s := by
  unfold State.vcfgValue at h
  split at h
  case h_15 => exact nomatch h
  all_goals exact Option.some.inj h ▸ by simp [vcfgTable, fxfNow_eq]

theorem vcfgValue_unlisted {s : State} {i : Nat} (h : ∀ e ∈ vcfgTable s, i ≠ e.1) : s.vcfgValue i = none :=
  Option.eq_none_iff_forall_ne_some.mpr fun _ hv => h _ (mem_vcfgTable hv) rfl

theorem exec_vcfgrd_some {s : State} {r : BitVec 12} {v : Word} (h : s.vcfgValue r.toNat = some v) (c : BitVec 1) (d : BitVec 4) :
    exec (.vcfgrd c d r) s = .next (s.vdone (s.h.setCode d.toNat v) 0) := by
  show execVcfgrd c d r s = _
  rw [execVcfgrd, h]

theorem exec_vcfgrd_none {s : State} {r : BitVec 12} (h : s.vcfgValue r.toNat = none) (c : BitVec 1) (d : BitVec 4) :
    exec (.vcfgrd c d r) s = .next s.villop := by
  show execVcfgrd c d r s = _
  rw [execVcfgrd, h]

/-! Vector lengths (R184) -/

/-- A grant writes the length, the type and the destination. -/
theorem grant_eq (s : State) (d : BitVec 4) (g : BitVec 2) (y sw : BitVec 3) (n : Nat) :
    s.grant d g y sw n = s.vdone (granted s.h d g y sw (min n (longest s.h g sw))) 0 := rfl

theorem granted_only (h : Hart) (d : BitVec 4) (g : BitVec 2) (y sw : BitVec 3) (n : Nat) : { granted h d g y sw n with vx := h.vx } = h := rfl

theorem exec_vsetlMax (s : State) (c : BitVec 1) (d : BitVec 4) (g : BitVec 2) (y sw : BitVec 3) :
    exec (.vsetlMax c d g y sw) s = .next (s.vdone (granted s.h d g y sw (longest s.h g sw)) 0) := by
  show Host.Outcome.next (s.grant d g y sw (longest s.h g sw)) = _
  rw [grant_eq, min_self]

/-! Replies (R283) -/

theorem wakeForager_awake {s : State} (h : s.h.wait = none) : s.wakeForager = s := by rw [State.wakeForager, h]

theorem pushing_room {s : State} (hroom : s.h.replies.length < 16) (hq : (s.core s.h.core).recheck = []) (f : State → Out) :
    s.pushing f = f s := by
  rw [State.pushing, if_neg (by omega), drainRechecks_nil hq]

theorem pushing_full {s : State} (hfull : 16 ≤ s.h.replies.length) (f : State → Out) :
    s.pushing f = .next (s.vstall (partyWord 5 s.h.hid) 0) := if_pos hfull

theorem runSeq_eq {h : Hart} {b : Block} (hb : h.run = some b) : h.runSeq = b.seq := by simp [Hart.runSeq, hb]

theorem exec_vreply_room {s : State} (hroom : s.h.replies.length < 16) (hq : (s.core s.h.core).recheck = []) (hw : s.h.wait = none)
    (c : BitVec 1) (r k : BitVec 6) :
    exec (.vreply c r k) s =
      .next (s.vdone { s.h with replies := s.h.replies ++ [(replyWord 2 s.h.runSeq k.toNat (s.h.code r.toNat).toNat, none)] } 0) := by
  show execVreply c r k s = _
  rw [execVreply, pushing_room hroom hq]
  dsimp only
  rw [wakeForager_awake (by exact hw)]
  rfl

/-- `vend` with no loop open is a push. -/
theorem exec_vend_closed {s : State} (h : s.h.vx.loops = []) (c : BitVec 1) :
    exec (.vend c) s = s.pushing (fun s1 => .next { ({ s1 with h := s1.h.endBlock }).wakeForager with did := .vector }) :=
  if_neg (by simp [h])

theorem exec_vend_room {s : State} (hloops : s.h.vx.loops = []) (hroom : s.h.replies.length < 16) (hq : (s.core s.h.core).recheck = [])
    (hw : s.h.wait = none) (c : BitVec 1) : exec (.vend c) s = .next { s with h := s.h.endBlock, did := .vector } := by
  rw [exec_vend_closed hloops, pushing_room hroom hq, wakeForager_awake (by exact hw)]

end Sys2Proof.Machine

namespace Sys2Proof.Claims

open Sys2Proof.Machine

/-- Settles O37, word by word. -/
theorem sequencerResults : Obligations.SequencerResults := by
  unfold Obligations.SequencerResults
  intro s c d a b i j r g y sw
  refine ⟨fun e he => vdone_result (vdone_seqTable s c d a b i j e he) (setCode_only ..), fun e he hr => ?_, fun hr => ?_, ?_, ?_⟩
  case refine_1 => exact vdone_result (exec_vcfgrd_some (hr ▸ vcfgValue_of_mem s e he) c d) (setCode_only ..)
  case refine_2 => exact exec_vcfgrd_none (vcfgValue_unlisted hr) c d
  case refine_3 => exact ⟨_, congrArg Host.Outcome.next (grant_eq ..), vdone_completes (granted_only ..) 0⟩
  case refine_4 => exact ⟨_, exec_vsetlMax s c d g y sw, vdone_completes (granted_only ..) 0⟩

/-- Settles O39: with room in the reply queue the pushes, with a full one the waits, and ILLOP of an open loop. -/
theorem blockEnd : Obligations.BlockEnd := by
  unfold Obligations.BlockEnd
  intro s c r k b hrun hlive hw hq
  refine ⟨fun hroom => ⟨⟨_, exec_vreply_room hroom hq hw c r k, ?reply, ?replied⟩, fun hloops => ⟨_, exec_vend_room hloops hroom hq hw c, ?ended⟩⟩,
    fun hfull => ⟨show execVreply c r k s = _ from pushing_full hfull _, fun hloops => (exec_vend_closed hloops c).trans (pushing_full hfull _)⟩,
    fun hloops => ?inside⟩
  case reply => exact vdone_completes rfl 0
  case replied => rw [runSeq_eq hrun]; rfl
  case ended =>
    refine ⟨rfl, rfl, rfl, ?_, rfl, rfl, rfl, ?_⟩
    · simp [Hart.endBlock, hrun]
    · simp [Hart.endBlock, replyWord, runSeq_eq hrun]
  case inside => exact if_pos (by simpa using hloops)

end Sys2Proof.Claims
end

section
/-! PROOFS. The matrix engine's words (R265-R271): their checks, the rows of `mmrow`, and the weight slots that `mwld` and `mwclr` change. -/

namespace Sys2Proof.Machine

open Sys2Proof.Claims

/-! Weight slots -/

theorem wslot_setWSlot_same (s : State) (c n : Nat) (f : WSlot → WSlot) : (s.setWSlot c n f).wslot c n = f (s.wslot c n) := by
  rw [State.wslot, State.setWSlot, core_setCore_same]
  exact Tab.get_set_self ..

theorem wslot_setWSlot_other (s : State) (c : Nat) {n j : Nat} (f : WSlot → WSlot) (h : j ≠ n) : (s.setWSlot c n f).wslot c j = s.wslot c j := by
  rw [State.wslot, State.setWSlot, core_setCore_same]
  exact Tab.get_set_other _ _ _ _ _ h

/-- Of the parts of the machine that a matrix word on a slot reads, the end of rechecks changes none (R433). -/
structure Rechecked (s t : State) : Prop where
  h : t.h = s.h
  mem : t.mem = s.mem
  ecc : t.ecc = s.ecc
  wslot : ∀ c n, t.wslot c n = s.wslot c n

theorem Rechecked.refl (s : State) : Rechecked s s := ⟨rfl, rfl, rfl, fun _ _ => rfl⟩

theorem Rechecked.trans {s t u : State} (h1 : Rechecked s t) (h2 : Rechecked t u) : Rechecked s u :=
  ⟨h2.h.trans h1.h, h2.mem.trans h1.mem, h2.ecc.trans h1.ecc, fun c n => (h2.wslot c n).trans (h1.wslot c n)⟩

theorem rechecked_drainOf (s : State) (h : Hart) : Rechecked s (s.drainOf h) := by
  unfold State.drainOf
  dsimp only
  split
  · exact .refl s
  · refine ⟨State.h_count .., mem_count .., (congrArg State.ecc (count_only s h.tid 13 _) :), fun c n => ?_⟩
    refine congrArg (Tab.get WSlot.reset · n) ((core_setCore_keeps Core.slots _ h.core c (by intros; rfl)).trans ?_)
    rw [core_count]

theorem rechecked_drainCore (s : State) (core : Nat) : Rechecked s (s.drainCore core) := by
  unfold State.drainCore
  generalize s.harts.filter (fun h => h.core == core) = l
  induction l generalizing s with
  | nil => exact .refl s
  | cons h l ih => exact (rechecked_drainOf s h).trans (ih _)

/-- The check of a read changes no weight slot. -/
theorem wslot_checkRead (s : State) (tag hid loc n c k : Nat) : (s.checkRead tag hid loc n).wslot c k = s.wslot c k :=
  congrArg (fun t => Tab.get WSlot.reset (Tab.get Core.reset t c).slots k) (congrArg State.cores (found_checkRead s tag hid loc n).rest :)

/-- The read of memory behind the end of rechecks leaves memory but for the records that it makes. -/
theorem sameMemory_checkRead {s t : State} (h : Rechecked s t) (tag hid loc n : Nat) {u : State} (hu : u.mem = (t.checkRead tag hid loc n).mem) :
    SameMemory s u := by
  refine ⟨fun a ha => ?_, fun hecc => sameBytes_of_mem (hu.trans ?_)⟩
  · exact (sameBytes_of_mem hu a).trans ((byteAt_checkRead t tag hid loc n ha).trans (sameBytes_of_mem h.mem a))
  · rw [State.checkRead, if_pos (h.ecc.trans hecc), h.mem]

/-! Checks (R267) -/

section

variable {s : State} {j : Instr} {c : Word → Chk} {o : Out}

theorem matrixWord_ok (hexec : exec j s = s.matrixWord c o) (h : c (s.h.vword.zeroExtend 64) = .ok) : exec j s = o := by
  rw [hexec, State.matrixWord, h]

theorem matrixWord_fails (hexec : exec j s = s.matrixWord c o) :
    (∀ i v, c (s.h.vword.zeroExtend 64) = .trap i v → exec j s = .next (s.vtrap i v 0)) ∧
      (∀ p, c (s.h.vword.zeroExtend 64) = .wait p → exec j s = .next (s.vstall p 0)) := by
  rw [hexec, State.matrixWord]
  exact ⟨fun i v h => by rw [h], fun p h => by rw [h]⟩

end

/-! Rows (R268) -/

theorem rowCheck_passes {s : State} (h : (s.core s.h.core).rowFail = 0) (row : Nat) : s.rowCheck row = (s, false) := by
  simp only [State.rowCheck, h]

section

variable {s : State} {d a : BitVec 6} {k l : BitVec 2} {o : BitVec 5} {f : BitVec 4}

/-- An `mmrow` whose checks pass and whose row meets its checksum ends with the trap of its outputs, or with its outputs in vd. -/
theorem exec_mmrow_passes (c : BitVec 1)
    (hok : s.mmrowCheck (s.h.vword.zeroExtend 64) d.toNat a.toNat k.toNat l.toNat o.toNat f.toNat = .ok) (hrow : (s.core s.h.core).rowFail = 0) :
    exec (.mmrow c d a k l o f) s =
      match s.h.run.bind (fun b => b.arithTrap (s.rowOutputs d.toNat a.toNat k.toNat l.toNat o.toNat f.toNat false)) with
      | some (i, v) => .next (s.vtrap i v 0)
      | none => .next (s.vdone (s.h.putEls (aFmt f.toNat).acc d.toNat (s.rowOutputs d.toNat a.toNat k.toNat l.toNat o.toNat f.toNat false))
          (flagsOf (s.rowOutputs d.toNat a.toNat k.toNat l.toNat o.toNat f.toNat false))) := by
  refine (matrixWord_ok (show exec (.mmrow c d a k l o f) s = execMmrow c d a k l o f s from rfl) hok).trans ?_
  rw [rowCheck_passes hrow] <;> rfl

end

/-! Loaded and freed slots (R271) -/

/-- What `mwld` and `mwclr` leave: a slot of the core changed, and the word completed. -/
theorem slot_changed {s t : State} {h : Hart} (hh : h = s.h) (ht : ∀ j, t.wslot s.h.core j = s.wslot s.h.core j) (n : Nat) (f : WSlot → WSlot) :
    let u := (t.setWSlot s.h.core n f).vdone h 0
    u.h.vx = s.h.vx ∧ u.h.conv = s.h.conv.tail ∧ u.h.vpc = s.h.vaddr + 4 ∧ u.mem = t.mem ∧ u.wslot s.h.core n = f (s.wslot s.h.core n) ∧
      ∀ j, j ≠ n → u.wslot s.h.core j = s.wslot s.h.core j := by
  subst hh
  exact ⟨rfl, rfl, rfl, rfl, (wslot_setWSlot_same ..).trans (congrArg f (ht n)), fun j hj => (wslot_setWSlot_other _ _ f hj).trans (ht j)⟩

end Sys2Proof.Machine

namespace Sys2Proof.Claims

open Sys2Proof.Machine

/-- Settles O41, word by word. -/
theorem matrixResults : Obligations.MatrixResults := by
  unfold Obligations.MatrixResults
  intro s c d a k l o f n
  refine ⟨fun hok hrow => ⟨fun hnone => ⟨_, ?row, vdone_completes (putEls_only ..) _, rfl⟩, fun i v htrap => ?trap⟩, fun hok => ?load,
    fun hok => ?clear, ?fails⟩
  case row => rw [exec_mmrow_passes c hok hrow, hnone]
  case trap => rw [exec_mmrow_passes c hok hrow, htrap]
  case load =>
    have hdrain := rechecked_drainCore s s.h.core
    have hread := still_checkRead (s := s.drainCore s.h.core) s.h.tid s.h.hid (locScratch s.h.core (n.toNat * 65536)) 65536
    have hh := hread.h.trans hdrain.h
    have hexec := matrixWord_ok (show exec (.mwld c n k f) s = execMwld c n k f s from rfl) hok
    obtain ⟨hvx, hconv, hvpc, hmem, hslot, hother⟩ :=
      slot_changed hh (fun j => (wslot_checkRead ..).trans (hdrain.wslot _ j)) k.toNat _
    exact ⟨_, hexec, hvx, hconv, hvpc, sameMemory_checkRead hdrain _ _ _ _ hmem, congrArg WSlot.st hslot, congrArg WSlot.tag hslot,
      congrArg WSlot.fmt hslot, hother⟩
  case clear =>
    have hdrain := rechecked_drainCore s s.h.core
    have hexec := matrixWord_ok (show exec (.mwclr c k) s = execMwclr c k s from rfl) hok
    obtain ⟨hvx, hconv, hvpc, hmem, hslot, hother⟩ := slot_changed rfl (hdrain.wslot _) k.toNat WSlot.clear
    exact ⟨_, hexec, hvx, hconv, hvpc, sameBytes_of_mem (hmem.trans hdrain.mem), congrArg WSlot.st hslot, congrArg WSlot.tag hslot, hother⟩
  case fails =>
    simp only [List.forall_mem_cons]
    exact ⟨matrixWord_fails (show exec (.mmrow c d a k l o f) s = execMmrow c d a k l o f s from rfl),
      matrixWord_fails (show exec (.mwld c n k f) s = execMwld c n k f s from rfl),
      matrixWord_fails (show exec (.mwclr c k) s = execMwclr c k s from rfl), List.forall_mem_nil _⟩

end Sys2Proof.Claims
end

section
/-! PROOFS. Objects made and ended (R341, R342): ONEW and `ofree` at a record's bank. -/

namespace Sys2Proof.Machine

open Sys2Proof.Claims

/-! Operations counted at a bank (R415) -/

section

variable {z t : State} {tid : Nat}

theorem countBank_retired (h : z.did = .retired) : countBank tid (.next z) = .next (z.count tid 7 1) := congrArg Host.Outcome.next (if_pos (by simp [h]))

theorem countBank_waits (h : z.did = .waits) : countBank tid (.next z) = .next (z.count tid 7 1) := congrArg Host.Outcome.next (if_pos (by simp [h]))

theorem countBank_begun (h : z.h.begun ≠ none) : countBank tid (.next z) = .next (z.count tid 7 1) :=
  congrArg Host.Outcome.next (if_pos (by simp [Option.isSome_iff_ne_none, h]))

theorem heldFor_count {pc party : Word} (h : HeldFor z pc party) (i n : Nat) : HeldFor (z.count tid i n) pc party := by
  rw [HeldFor, State.h_count]
  exact h

theorem obj_count (z : State) (tid i n off : Nat) : (z.count tid i n).obj off = z.obj off := congrArg (Tab.get none · off) (State.objs_count ..)

theorem obj_retireWhen (z : State) (l : List Nat) (d : BitVec 5) (v : Word) (what : Begins) (off : Nat) :
    (z.retireWhen l d v what).obj off = z.obj off := by
  unfold State.retireWhen
  split
  · rfl
  · rfl

theorem obj_finishWhen (z : State) (l : List Nat) (d : BitVec 5) (v : Word) (off : Nat) : (z.finishWhen l d v).obj off = z.obj off :=
  (obj_retireWhen ..).trans (congrArg (fun u : State => u.obj off) (unsent_traceHart z z.h 5 0 z.h.pc v) :)

/-- A WAIT instruction whose effect is performed: it returns, or waits for the die that answers last, and leaves its objects as they are. -/
theorem countBank_finishWhen {u : State} (ht : u.h.tid = tid) (l : List Nat) (d : BitVec 5) (v : Word) :
    ∃ t, countBank tid (.next (u.finishWhen l d v)) = .next t ∧ (u.slowest l = none → AtBank u t d v) ∧
      (∀ x, u.slowest l = some x → HeldFor t u.h.pc (partyWord 1 x)) ∧ ∀ off, t.obj off = u.obj off := by
  cases hslow : u.slowest l with
  | none =>
    refine ⟨_, countBank_answered d v ht hslow, fun _ => atBank_bankReturn .., nofun, fun off => (obj_count ..).trans ?_⟩
    rw [← finishWhen_answered hslow, obj_finishWhen]
  | some x =>
    have hheld := heldFor_retireWhen ((slowest_congr (dies_traceHart u u.h 5 0 u.h.pc v) l).trans hslow) d v .stands
    rw [State.h_traceHart] at hheld
    refine ⟨_, countBank_begun (z := u.finishWhen l d v) hheld.2.1, nofun, fun y hy => ?_, fun off => (obj_count ..).trans (obj_finishWhen ..)⟩
    obtain rfl := Option.some.inj hy
    exact heldFor_count hheld 7 1

end

/-! ONEW (R341) -/

/-- A new object, before the instruction that made it returns. -/
def State.newObj (s : State) (off n : Nat) (k : ObjKind) : State := s.setObj off { num := n, tag := s.h.tid, body := k }

theorem obj_newObj (s : State) (off n : Nat) (k : ObjKind) : (s.newObj off n k).obj off = some { num := n, tag := s.h.tid, body := k } :=
  Tab.get_set_self none s.objs off (some { num := n, tag := s.h.tid, body := k })

section

variable {s : State} {d a : BitVec 5} {off : Nat} (hrec : RecordAt s (s.xr a) off)

include hrec

section

variable {n : Nat} (hfree : s.obj off = none) (hroom : s.objCount < 16384) (hn : s.freeNum = some n)
  {valid : List Byte → Bool} (hvalid : valid (s.bytesAt (locComb off) 256) = true) (body : List Byte → ObjKind)

include hfree hroom hn hvalid

theorem onew_makes : onew valid body d a s = countBank s.h.tid (.next
    ((s.newObj off n (body (s.bytesAt (locComb off) 256))).retireWhen [(combHome off).1] d (word (n * 2 ^ 32)) .stands)) := by
  rw [onew, atRecord_at hrec]
  simp only [hfree, hvalid, hroom, hn, Option.isSome_none, Bool.not_true, Bool.false_eq_true, if_false, if_true, onewWord, stOK, Nat.zero_mul,
    Nat.add_zero]
  rfl

/-- ONEW whose record's home answers. -/
theorem onew_returns (hhome : HomeAnswers s off) : onew valid body d a s =
    .next (((s.newObj off n (body (s.bytesAt (locComb off) 256))).retireX d (word (n * 2 ^ 32))).count s.h.tid 7 1) := by
  have hslow : (s.newObj off n (body (s.bytesAt (locComb off) 256))).slowest [(combHome off).1] = none :=
    (slowest_one ..).trans (if_pos hhome)
  rw [onew_makes hrec hfree hroom hn hvalid, retireWhen_none hslow, countBank_retired rfl]

/-- ONEW whose record's home is late: the object is made, and the instruction waits. -/
theorem onew_held (hhome : ¬HomeAnswers s off) : ∃ t, onew valid body d a s = .next t ∧ HeldFor t s.h.pc (partyWord 1 (combHome off).1) ∧
    t.obj off = some { num := n, tag := s.h.tid, body := body (s.bytesAt (locComb off) 256) } := by
  have hheld := heldFor_retireWhen (s := s.newObj off n (body (s.bytesAt (locComb off) 256))) ((slowest_one ..).trans (if_neg hhome)) d
    (word (n * 2 ^ 32)) .stands
  refine ⟨_, (onew_makes hrec hfree hroom hn hvalid body).trans (countBank_begun hheld.2.1), heldFor_count hheld 7 1, ?_⟩
  rw [obj_count, obj_retireWhen, obj_newObj]

end

/-! The end of an object (R342) -/

section

variable {o : Obj} (ho : s.obj off = some o) (ht : o.tag = s.h.tid) (hunnamed : s.named o.tag off o.num = false)

include ho ht hunnamed

theorem exec_ofree_ends : exec (.ofree d a) s =
    countBank s.h.tid (.next ((s.endObject off o).finishWhen [(combHome off).1] d 0xFFF00000#64)) := by
  show execOfree d a s = _
  rw [execOfree, atRecord_at hrec]
  simp only [ho]
  rw [if_neg (not_not.mpr ht), if_neg (ne_true_of_eq_false hunnamed)]
  rfl

end

end

theorem unsent_closeWaits (s : State) (off : Nat) (o : Obj) : (s.closeWaits off o).unsent = s.unsent := by
  unfold State.closeWaits
  split
  · exact (foldl_keeps State.unsent _ (fun t (h : Hart) => unsent_answerIf t h.hid _ _) _ _).trans
      (foldl_keeps State.unsent _ (fun t (x : Nat × Nat) => unsent_fabricResult t o x.1 x.2 _ _) _ _)
  · exact foldl_keeps State.unsent _ (fun t (q : Nat × Nat) => unsent_answerIf t q.1 _ _) _ _
  · exact (foldl_keeps State.unsent _ (fun t r => unsent_answerIf t _ _ _) _ _).trans
      (foldl_keeps State.unsent _ (fun t r => unsent_sendResult t off _ _) _ _)

theorem dies_endObject (s : State) (off : Nat) (o : Obj) : (s.endObject off o).dies = s.dies :=
  (congrArg State.dies (unsent_closeWaits s off o) :)

theorem tid_endObject (s : State) (off : Nat) (o : Obj) : (s.endObject off o).h.tid = s.h.tid :=
  congrArg (fun x : Bool × Nat × List Nat => x.2.1) (tids_endObject s off o)

theorem obj_endObject (s : State) (off : Nat) (o : Obj) : (s.endObject off o).obj off = none :=
  Tab.get_set_self none (s.closeWaits off o).objs off none

theorem slowest_endObject (s : State) (off : Nat) (o : Obj) :
    (s.endObject off o).slowest [(combHome off).1] = if (s.die (combHome off).1).late = 0 then none else some (combHome off).1 :=
  (slowest_congr (dies_endObject s off o) _).trans (slowest_one ..)

end Sys2Proof.Machine

namespace Sys2Proof.Claims

open Sys2Proof.Machine

/-- Every form of ONEW is the model's, with its own image and object. -/
theorem exec_onewTable (s : State) (d a : BitVec 5) (bs : List Byte) : ∀ e ∈ onewTable s d a bs, ∃ valid body,
    exec e.1 s = onew valid body d a s ∧ valid bs = e.2.1 ∧ body bs = e.2.2 := by
  simp only [onewTable, List.forall_mem_cons]
  exact ⟨⟨_, _, rfl, rfl, rfl⟩, ⟨_, _, rfl, rfl, rfl⟩, ⟨_, _, rfl, rfl, rfl⟩, List.forall_mem_nil _⟩

/-- Settles O21: ONEW and `ofree`, each at a home that answers and at a late one. -/
theorem objectResults : Obligations.ObjectResults := by
  unfold Obligations.ObjectResults
  intro s d a off hrec
  have hends := fun o => countBank_finishWhen (tid_endObject s off o) [(combHome off).1] d 0xFFF00000#64
  refine ⟨fun e he hvalid hfree hroom n hn => ?made, fun o ho ht hunnamed => ⟨fun hhome => ?ended, fun hhome => ?kept⟩⟩
  case made =>
    obtain ⟨valid, body, hexec, hv, hb⟩ := exec_onewTable s d a _ e he
    rw [hexec, ← hb]
    rw [← hv] at hvalid
    refine ⟨fun hhome => ?_, onew_held hrec hfree hroom hn hvalid body⟩
    have hresult := resultX_retireX (s.newObj off n (body (s.bytesAt (locComb off) 256))) d (word (n * 2 ^ 32))
    obtain ⟨hwrote, -, hpc, -⟩ := id hresult
    refine ⟨_, _, onew_returns hrec hfree hroom hn hvalid body hhome, ?_, ?_, hresult, rfl⟩
    · rw [WroteX, State.xr, State.h_count]; exact hwrote
    · rw [State.h_count]; exact hpc
  case ended =>
    obtain ⟨t, hexec, hreturned, -, hobj⟩ := hends o
    exact ⟨t, (exec_ofree_ends hrec ho ht hunnamed).trans hexec, hreturned ((slowest_endObject s off o).trans (if_pos hhome)),
      (hobj off).trans (obj_endObject ..)⟩
  case kept =>
    obtain ⟨t, hexec, -, hheld, hobj⟩ := hends o
    exact ⟨t, (exec_ofree_ends hrec ho ht hunnamed).trans hexec, hheld _ ((slowest_endObject s off o).trans (if_neg hhome)),
      (hobj off).trans (obj_endObject ..)⟩

end Sys2Proof.Claims
end

section
/-! PROOFS. Channels (R357): a SEND of a hart that has ended and keeps an instruction begun traps, and its bank counts an operation beside the
trap, which the statement of O24 leaves out. -/

namespace Sys2Proof.Machine

open Sys2Proof.Claims

/-- A hart that has ended, with an instruction begun, whose x1 names a channel of its tenant and x2 a pointer into the hart's own window. -/
def endedSender : State :=
  { State.reset with
    h := { Hart.blank with tid := 1, x := [(1, 0xD000000000000000#64), (2, 0xF000000000000000#64)], begun := some ⟨0, 0, .stands⟩ },
    regions := [(0, some { tag := 1, disc := 5, ty := 0, rule := 0, qent := 0, base := 0, size := 256, obj := 0, jsize := 0, ownk := 0, own := 0,
                           pln := [], flip := [], flipEpi := none, flipBanks := [], flipAbs := 0, journal := [], marks := [] })],
    objs := [(0, some { num := 1, tag := 1,
                        body := .chan { buf := 0, nslot := 1, sz := 64, head := 0, tail := 0, pkind := 0, psw := 0, sil := 0, senders := [],
                                        receivers := [] } })] }

theorem endedSender_record : RecordAt endedSender (endedSender.xr 1) 0 :=
  ⟨by decide, by decide, by decide, _, _, rfl, by decide, rfl⟩

theorem endHart_absent {s : State} {n : Nat} (h : s.hart n = none) : s.endHart n = s := by rw [State.endHart, h]

/-- A trap without a handler leaves a hart that has ended as it is. -/
theorem begun_trap_absent {s : State} {cause : Nat} (hcause : cause ≠ cPAGE) (hok : s.handlerOk cause = false) (hgone : s.hart s.h.hid = none)
    (tval : Word) : (s.trap cause tval).h.begun = s.h.begun := by
  have hsame : (s.mcheck 11 s.h.die s.h.tid s.h.hid s.h.core s.h.pc cause).unrecorded = s.unrecorded := unrecorded_mcheck ..
  rw [trap_eq_enterTrap tval hcause, State.enterTrap, if_neg (ne_true_of_eq_false hok), endHart_absent ((hart_of_unrecorded hsame _).trans hgone)]
  exact (congrArg (fun u : State => u.h.begun) hsame :)

/-- The bank operation is counted all the same. -/
theorem endedSender_send (t : BitVec 5) (r : BitVec 1) :
    exec (.send 2 1 t r) endedSender = .next ((endedSender.trap cSPACE (endedSender.xr 2)).count 1 7 1) := by
  have hwindow : window (endedSender.xr 2) = 1 := by decide
  show execSend 2 1 t r endedSender = _
  rw [execSend, atRecord_at endedSender_record, State.atChan]
  simp only [hwindow]
  refine countBank_begun ?_
  rw [begun_trap_absent (by decide) (by decide) rfl]
  exact Option.some_ne_none _

/-- A counter that advances changes. -/
theorem count_ne (s : State) {tag : Nat} (h : tag ≠ 0) (i : Nat) : s.count tag i 1 ≠ s := by
  intro heq
  have hcnt := congrArg (fun u : State => Tab.get 0 (u.tenant tag).cnt i) heq
  simp only [State.count, if_neg h, State.tenant, State.setTenant, Tab.get_set_self] at hcnt
  exact absurd hcnt (by simp [word])

end Sys2Proof.Machine

namespace Sys2Proof.Claims

open Sys2Proof.Machine

/-- Refutes O24: the SEND through a pointer into the hart's own window of a hart that has ended, and that keeps an
instruction begun, leaves a bank operation counted beside its trap. -/
theorem not_channelResults : ¬Obligations.ChannelResults := by
  unfold Obligations.ChannelResults
  intro h
  obtain ⟨hchan, -⟩ := h endedSender 2 1 0 0
  obtain ⟨hsend, -⟩ := hchan 0 _ _ endedSender [] endedSender_record rfl rfl
  have hexec := hsend (by decide)
  exact count_ne _ one_ne_zero 7 (Host.Outcome.next.inj ((endedSender_send 0 0).symm.trans hexec))

end Sys2Proof.Claims
end

section
/-! PROOFS. What the close of an episode, an arrival and a leave keep (R344-R348): all but the outcomes of the harts that wait, memory, regions,
objects, and frames; and what a close leaves of the swarm. -/

namespace Sys2Proof.Machine

open Sys2Proof.Claims

/-! Harts and the outcomes that they receive -/

/-- A hart without what an outcome may change. -/
def Hart.undecided (h : Hart) : Hart := { h with x := [], pc := 0, wait := none, wd := 0, fxf := 0, holds := [], readyAt := 0 }

theorem undecided_setX (h : Hart) (n : Nat) (v : Word) : (h.setX n v).undecided = h.undecided := (congrArg Hart.undecided (setX_only h n v) :)

theorem undecided_takes (h : Hart) (flags : Nat) (x : Option Holding) : (h.takes flags x).undecided = h.undecided := by
  unfold Hart.takes
  cases x with
  | none => dsimp only; split <;> rfl
  | some x => dsimp only; split <;> rfl

theorem undecided_answer (h : Hart) (time : Nat) (v : Word) : (h.answer time v).undecided = h.undecided := by
  unfold Hart.answer
  split
  · rfl
  · split
    · exact undecided_setX ..
    · rfl

theorem undecided_onHid (n : Nat) {f : Hart → Hart} (hf : ∀ k, (f k).undecided = k.undecided) (h : Hart) : (onHid n f h).undecided = h.undecided := by
  unfold onHid
  split
  · exact hf h
  · rfl

/-- The state without what the closes of episodes may change. -/
def State.unclosed (s : State) : State := { s.unsent with h := s.h.undecided, objs := [], regions := [], grdMarks := [] }

theorem unclosed_of_unsent {s t : State} (h : t.unsent = s.unsent) (hh : t.h.undecided = s.h.undecided) : t.unclosed = s.unclosed := by
  rw [State.unclosed, h, hh, State.unclosed]

section

variable (s : State)

theorem undecided_h_answer (hid : Nat) (v : Word) : (s.answer hid v).h.undecided = s.h.undecided := by
  unfold State.answer
  split
  · rfl
  · next h _ =>
    split
    · have hupd : ((s.traceHart h 5 0 h.pc v).updHart hid (fun k => k.answer s.gtb v)).h.undecided = s.h.undecided :=
        (undecided_onHid hid (fun k => undecided_answer k s.gtb v) _).trans (congrArg Hart.undecided (State.h_traceHart ..))
      dsimp only
      split
      · rw [State.h_count]; exact hupd
      · exact hupd
    · rfl

theorem undecided_h_respond (hid : Nat) (w : Wait) (v : Word) (f : Nat) (x : Option Holding) :
    (s.respond hid w v f x).h.undecided = s.h.undecided := by
  have htakes := (undecided_h_answer (s.updHart hid (fun h => h.takes f x)) hid v).trans
    (undecided_onHid hid (fun k => undecided_takes k f x) s.h)
  unfold State.respond
  split
  · exact htakes
  · split
    · exact htakes
    · split <;> rfl

theorem unclosed_answerTick (hid tick : Nat) (p : WaitKind → Bool) (v : Word) (f : Nat) : (s.answerTick hid tick p v f).unclosed = s.unclosed := by
  refine unclosed_of_unsent (unsent_answerTick ..) ?_
  unfold State.answerTick
  split
  · split
    · exact undecided_h_respond ..
    · rfl
  · rfl

theorem h_sendFrame (kind dst tag target : Nat) (l : List Byte) : (s.sendFrame kind dst tag target l).h = s.h := by
  unfold State.sendFrame
  dsimp only
  split <;> rfl

theorem h_fabricResult (o : Obj) (far tick : Nat) (v : Word) (f : Nat) : (s.fabricResult o far tick v f).h = s.h := by
  unfold State.fabricResult State.fabricReply
  split
  · exact h_sendFrame ..
  · rfl

theorem unclosed_fabricResult (o : Obj) (far tick : Nat) (v : Word) (f : Nat) : (s.fabricResult o far tick v f).unclosed = s.unclosed :=
  unclosed_of_unsent (unsent_fabricResult ..) (congrArg Hart.undecided (h_fabricResult ..))

theorem unclosed_sendStep (off : Nat) (o : Obj) (f : Nat) (e : StepRes) : (s.sendStep off o f e).unclosed = s.unclosed := by
  unfold State.sendStep
  split
  · exact unclosed_fabricResult ..
  · exact unclosed_answerTick ..

theorem unclosed_sendSteps (off : Nat) : (s.sendSteps off).unclosed = s.unclosed := by
  unfold State.sendSteps
  split
  · rfl
  · split
    · rfl
    · next o b _ => exact foldl_keeps State.unclosed _ (fun t e => unclosed_sendStep t off o _ e) _ _

theorem unclosed_closeResult (off : Nat) (o : Obj) (bar stp : Word) (m : Member) : (s.closeResult off o bar stp m).unclosed = s.unclosed := by
  unfold State.closeResult
  split
  · unfold State.keepStep
    split
    · rfl
    · rfl
  · split
    · exact unclosed_fabricResult ..
    · exact unclosed_answerTick ..

theorem unclosed_joinResult (o : Obj) (k : WaitKind → Bool) (j : Join) (w : Word) : (s.joinResult o k j w).unclosed = s.unclosed := by
  unfold State.joinResult
  split
  · exact unclosed_fabricResult ..
  · exact unclosed_answerTick ..

/-! Flips -/

theorem unguarded_countRank (r : Region) (rank : Nat) : (s.countRank r rank).unguarded = s.unguarded := rfl

theorem unguarded_countWriters (r : Region) (ranks : List Nat) (p : PlnWord) : (s.countWriters r ranks p).unguarded = s.unguarded :=
  foldl_keeps State.unguarded _ (fun t (e : Nat × Nat × Bool) => unguarded_countRank t r e.1) _ s

theorem unguarded_store64 (a x : Nat) : (s.store64 a x).unguarded = s.unguarded := rfl

theorem unguarded_flipWord (r : Region) (ranks : List Nat) (e : Nat × PlnWord) : (s.flipWord r ranks e).unguarded = s.unguarded := by
  unfold State.flipWord
  extract_lets v s1
  have hs1 : s1.unguarded = s.unguarded := unguarded_countWriters ..
  split
  · exact (unguarded_store64 s1 _ _).trans hs1
  · exact hs1

theorem unguarded_setRegion (n : Nat) (r : Option Region) : (s.setRegion n r).unguarded = s.unguarded := rfl

theorem unguarded_flipBanks (n : Nat) (banks : List Nat) : (s.flipBanks n banks).unguarded = s.unguarded := by
  unfold State.flipBanks
  split
  · rfl
  · next r _ =>
    exact (unguarded_setRegion ..).trans (foldl_keeps State.unguarded _ (fun t e => unguarded_flipWord t r _ e) _ s)

theorem unguarded_closeRegion (epi n : Nat) : (s.closeRegion epi n).unguarded = s.unguarded := by
  unfold State.closeRegion
  split
  · rfl
  · next r _ =>
    dsimp only
    split
    · rfl
    · exact (unguarded_setRegion ..).trans (foldl_keeps State.unguarded _ (fun t (e : Nat × PlnWord) => unguarded_countWriters t r _ e.2) _ _)

end

section

variable {s t : State} (h : t.unguarded = s.unguarded)

include h

theorem unclosed_of_unguarded : t.unclosed = s.unclosed := (congrArg State.unclosed h :)

theorem swarm_of_unguarded (off : Nat) : t.swarm off = s.swarm off := (congrArg (fun u : State => u.swarm off) h :)

end

/-! The close of an episode -/

section

variable (s : State) (off : Nat)

theorem unguarded_flips : ((s.naming 2 off).foldl (fun t e => t.flipBanks e.1 e.2.flipBanks) s).unguarded = s.unguarded :=
  foldl_keeps State.unguarded _ (fun t (e : Nat × Region) => unguarded_flipBanks t e.1 _) _ s

theorem unclosed_finishFlips : (s.finishFlips off).unclosed = s.unclosed :=
  (unclosed_sendSteps ..).trans (unclosed_of_unguarded (unguarded_flips s off))

theorem unclosed_closeEpisode : (s.closeEpisode off).unclosed = s.unclosed := by
  unfold State.closeEpisode
  dsimp only
  split
  · exact unclosed_finishFlips s off
  · next o b _ =>
    refine (unclosed_sendSteps ..).trans ((foldl_keeps State.unclosed _ (fun t j => unclosed_joinResult t o _ j _) _ _).trans
      ((foldl_keeps State.unclosed _ (fun t m => unclosed_closeResult t off o _ _ m) _ _).trans
        ((foldl_keeps State.unclosed _ (fun t (e : Nat × Region) => unclosed_of_unguarded (unguarded_closeRegion t _ e.1)) _ _).trans
          (unclosed_finishFlips s off))))

theorem unclosed_arriveAt (hid chip dead tick : Nat) (flip : Bool) : (s.arriveAt off hid chip dead tick flip).unclosed = s.unclosed := by
  unfold State.arriveAt
  split
  · rfl
  · dsimp only
    split
    · exact unclosed_closeEpisode ..
    · rfl

theorem unclosed_leaveAt (hid chip : Nat) : (s.leaveAt off hid chip).unclosed = s.unclosed := by
  unfold State.leaveAt
  split
  · rfl
  · dsimp only
    split
    · exact unclosed_closeEpisode ..
    · rfl

theorem unclosed_askHome (o : Obj) (b : Swarm) (op hid rank dead : Nat) : (s.askHome o b op hid rank dead).unclosed = s.unclosed :=
  unclosed_of_unsent (unsent_sendFrame ..) (congrArg Hart.undecided (h_sendFrame ..))

theorem unclosed_leaveOne (hid : Nat) : (s.leaveOne hid off).unclosed = s.unclosed := by
  unfold State.leaveOne
  split
  · split
    · exact unclosed_leaveAt ..
    · exact unclosed_askHome ..
  · rfl

theorem unclosed_leaveAll (hid : Nat) : (s.leaveAll hid).unclosed = s.unclosed :=
  foldl_keeps State.unclosed _ (fun t off => unclosed_leaveOne t off hid) _ s

end

section

variable {s t : State} (h : t.unclosed = s.unclosed)

include h

theorem dies_of_unclosed : t.dies = s.dies := (congrArg State.dies h :)

theorem did_of_unclosed : t.did = s.did := (congrArg State.did h :)

theorem tid_of_unclosed : t.h.tid = s.h.tid := (congrArg (fun u : State => u.h.tid) h :)

theorem hid_of_unclosed : t.h.hid = s.h.hid := (congrArg (fun u : State => u.h.hid) h :)

theorem live_of_unclosed : t.h.live = s.h.live := (congrArg (fun u : State => u.h.live) h :)

end

/-! What a close leaves of the swarm -/

/-- The swarm at an offset is a given one, but for the `step` results that wait for a flip. -/
def SwarmIs (off : Nat) (b : Swarm) (t : State) : Prop := ∃ o l, t.swarm off = some (o, { b with closed := l })

section

variable {off : Nat} {b : Swarm} {s t : State}

theorem SwarmIs.congr (hs : SwarmIs off b s) (h : t.swarm off = s.swarm off) : SwarmIs off b t := by
  obtain ⟨o, l, hl⟩ := hs
  exact ⟨o, l, h.trans hl⟩

theorem swarmIs_setBody (s : State) (off : Nat) (o : Obj) (b : Swarm) : SwarmIs off b (s.setBody off o (.swarm b)) :=
  ⟨_, b.closed, swarm_setBody ..⟩

theorem SwarmIs.closeResult (hs : SwarmIs off b s) (o : Obj) (bar stp : Word) (m : Member) : SwarmIs off b (s.closeResult off o bar stp m) := by
  unfold State.closeResult
  split
  · obtain ⟨o1, l, hl⟩ := hs
    rw [State.keepStep, hl]
    exact swarmIs_setBody s off o1 { b with closed := l ++ [_] }
  · split
    · exact hs.congr (swarm_of_unsent (unsent_fabricResult ..) off)
    · exact hs.congr (swarm_of_unsent (unsent_answerTick ..) off)

theorem SwarmIs.joinResult (hs : SwarmIs off b s) (o : Obj) (k : WaitKind → Bool) (j : Join) (w : Word) :
    SwarmIs off b (s.joinResult o k j w) := by
  unfold State.joinResult
  split
  · exact hs.congr (swarm_of_unsent (unsent_fabricResult ..) off)
  · exact hs.congr (swarm_of_unsent (unsent_answerTick ..) off)

theorem SwarmIs.foldl {β : Type} {f : State → β → State} (hf : ∀ t e, SwarmIs off b t → SwarmIs off b (f t e)) (l : List β)
    (hs : SwarmIs off b s) : SwarmIs off b (l.foldl f s) := by
  induction l generalizing s with
  | nil => exact hs
  | cons e l ih => exact ih (hf s e hs)

theorem SwarmIs.sendSteps (hs : SwarmIs off b s) : SwarmIs off b (s.sendSteps off) := by
  unfold State.sendSteps
  split
  · exact hs
  · obtain ⟨o, l, hl⟩ := hs
    simp only [hl]
    exact SwarmIs.congr (b := b) (swarmIs_setBody s off o { b with closed := [] })
      (swarm_of_unsent (foldl_keeps State.unsent _ (fun _ _ => unsent_sendStep ..) _ _) off)

theorem SwarmIs.named (hs : SwarmIs off b s) {e : BitVec 32} {ms : List Member} (he : b.epi = e) (hj : b.joins = []) (hm : b.members = ms) :
    ∃ o2 b2, s.swarm off = some (o2, b2) ∧ b2.epi = e ∧ b2.joins = [] ∧ b2.members = ms := by
  obtain ⟨o, l, hl⟩ := hs
  exact ⟨o, _, hl, he, hj, hm⟩

/-- The close of an episode opens the next one for the members, those in good standing that have not arrived excepted, and for the pending
joins. -/
def Swarm.reseated (b : Swarm) : List Member :=
  b.joins.foldl seat (b.members.map (fun m => { m with good := m.good && m.arrived, arrived := false }))

theorem closeEpisode_reseats {o : Obj} (hb : s.swarm off = some (o, b)) :
    ∃ o2 b2, (s.closeEpisode off).swarm off = some (o2, b2) ∧ b2.epi = b.epi + 1 ∧ b2.joins = [] ∧ b2.members = b.reseated := by
  have hf : SwarmIs off b (s.finishFlips off) :=
    SwarmIs.sendSteps (SwarmIs.congr ⟨o, b.closed, hb⟩ (swarm_of_unguarded (unguarded_flips s off) off))
  obtain ⟨o1, l, hl⟩ := hf
  unfold State.closeEpisode
  simp only [hl]
  refine SwarmIs.named (SwarmIs.sendSteps (SwarmIs.foldl (fun _ _ ht => ht.joinResult ..) _ (SwarmIs.foldl (fun _ _ ht => ht.closeResult ..) _
    (SwarmIs.foldl (fun _ _ ht => ht.congr (swarm_of_unguarded (unguarded_closeRegion ..) off)) _ (swarmIs_setBody ..))))) ?_ ?_ ?_
  · rfl
  · rfl
  · rfl

end

end Sys2Proof.Machine
end

section
/-! PROOFS. Harts made and ended (R278-R280, R286, R310-R312): `spawn` by the outcome of its record, and `exit`. -/

namespace Sys2Proof.Machine

open Sys2Proof.Claims

/-! The record of a SPAWN -/

section

variable {s u : State} {a d : BitVec 5} {bs : List Byte} (hread : ReadsImage s a u bs)

include hread

/-- The reading of the record moves neither a register nor the PC. -/
theorem readsImage_x_pc : u.h.x = s.h.x ∧ u.h.pc = s.h.pc := by
  obtain ⟨s1, pls, hacc, hpieces⟩ := hread
  have h1 : Aside s (s.accessRun s.h.actor .load (s.xr a) 2).1 := aside_pieces ..
  rw [hacc] at h1
  have h2 : Aside s1 u := by simpa only [hpieces] using aside_readPieces s1 s1.h.actor pls
  exact (h1.trans h2).x_pc

theorem readsImage_xr (r : BitVec 5) : u.xr r = s.xr r := by
  obtain ⟨hx, -⟩ := readsImage_x_pc hread
  simp only [State.xr, Hart.xr, hx]

theorem exec_spawn_read (htrap : s.h.trapWaits = false ∨ s.h.mode = .a) : exec (.spawn d a) s = .next (u.spawn d (imageOf bs)) := by
  obtain ⟨s1, pls, hacc, hpieces⟩ := hread
  refine (meetsTrapSD_passes htrap _).trans ?_
  simp only [hacc, hpieces, Bool.false_eq_true, if_false]

end

/-! The hart that an image makes (R279) -/

/-- The arguments of an image stand in x8 to x15. -/
theorem xr_hartOf (hid tag core cls : Nat) (job : Word) (i : Image) (time : Nat) {n : Nat} (hn : n < 8) :
    (hartOf hid tag core cls job i time).xr (8 + n) = word (i.args.getD n 0) := by
  have hset : ∀ (l : List Nat) (t : Tab Word) (m : Nat), Tab.get 0 (l.foldl (fun t k => Tab.set 0 t (8 + k) (word (i.args.getD k 0))) t) (8 + m) =
      if m ∈ l then word (i.args.getD m 0) else Tab.get 0 t (8 + m) := by
    intro l
    induction l with
    | nil => simp
    | cons k l ih =>
      intro t m
      rw [List.foldl_cons, ih, Tab.get_set]
      by_cases hm : m = k <;> simp [hm]
  rw [Hart.xr, if_neg (by omega)]
  exact (hset (List.range 8) [] n).trans (if_pos (List.mem_range.mpr hn))

theorem xr_spawned (u : State) (i : Image) (hid core : Nat) {n : Nat} (hn : n < 8) :
    (u.spawned i hid core).xr (8 + n) = word (i.args.getD n 0) :=
  xr_hartOf hid u.h.tid core (min i.prio u.h.cls) (u.h.nextJob.getD u.h.job) i u.gtb hn

/-! The outcomes of a record (R280, R310, R311) -/

section

variable {u : State} {d : BitVec 5} {i : Image}

section

variable {hid core : Nat} (hphase : u.hub.phase = 7) (hadm : u.admitImage u.h.tid i = .ok (hid, core))

include hphase hadm

theorem spawn_proxy {o : Obj} {b : Swarm} (hproxy : u.proxySwarm i = some (o, b)) :
    u.spawn d i = (u.createHart (u.spawned i hid core) i o b (u.gtb + u.h.iwl.toNat)).stallBegun d (word hid)
      (.child hid (bits i.swarm 0 28)) b.homeParty := by
  simp only [State.spawn, hphase, if_true, hadm, hproxy]

theorem spawn_late {x : Nat} (hproxy : u.proxySwarm i = none) (hslow : u.slowest i.homes = some x) :
    u.spawn d i = (u.addHart { u.spawned i hid core with created := true } i).stallBegun d (word hid) (.child hid (bits i.swarm 0 28))
      (partyWord 1 x) := by
  simp only [State.spawn, hphase, if_true, hadm, hproxy, hslow]

theorem spawn_prompt (hproxy : u.proxySwarm i = none) (hslow : u.slowest i.homes = none) :
    u.spawn d i = (((u.addHart (u.spawned i hid core) i).jobStart (u.spawned i hid core) u.h.nextJob.isSome).setH
      (fun h => { h with nextJob := none })).retireX d (word hid) := by
  simp only [State.spawn, hphase, if_true, hadm, hproxy, hslow]

end

theorem spawn_refused {c : Refusal310} (hphase : u.hub.phase = 7) (hadm : u.admitImage u.h.tid i = .error c)
    (hanswers : c ≠ .rank ∨ u.slowest i.homes = none) : u.spawn d i = u.retireX d (word (2 ^ 63 + c.code)) := by
  simp only [State.spawn, hphase, if_true, hadm, State.spawnRefused]
  refine retireWhen_none ?_ d _ _
  split
  · next hc => exact hanswers.resolve_left (not_not.mpr hc)
  · rfl

/-- Outside PHASE 7 no id is given (log entry 88). -/
theorem spawn_phase (hphase : u.hub.phase ≠ 7) : u.spawn d i = u.retireX d (word (2 ^ 63 + 4)) := by
  simp only [State.spawn, if_neg hphase]
  exact retireWhen_none rfl d _ _

theorem h_addHart (u : State) (k : Hart) (i : Image) : (u.addHart k i).h = u.h := by
  unfold State.addHart State.enrol
  dsimp only
  split
  · rfl
  · split
    · split <;> rfl
    · rfl

theorem h_createHart (u : State) (k : Hart) (i : Image) (o : Obj) (b : Swarm) (limit : Nat) : (u.createHart k i o b limit).h = u.h :=
  h_sendFrame ..

/-- A SPAWN that waits for a party keeps its place and its registers, and its hart stands in the pool. -/
theorem stallBegun_stands {z : State} {l : List Hart} (h : z.h = u.h) (hpool : z.pool = l) (d : BitVec 5) (v : Word) (what : Begins) (p : Word) :
    HeldFor (z.stallBegun d v what p) u.h.pc p ∧ (∀ r : BitVec 5, (z.stallBegun d v what p).xr r = u.xr r) ∧
      (z.stallBegun d v what p).pool = l := by
  have hheld := heldFor_stallBegun z d v what p
  rw [h] at hheld
  exact ⟨hheld, fun r => (congrArg (fun k : Hart => k.xr r.toNat) h :), hpool⟩

theorem h_jobStart (u : State) (k : Hart) (fresh : Bool) : (u.jobStart k fresh).h = u.h := by
  unfold State.jobStart
  split <;> rfl

theorem pool_jobStart (u : State) (k : Hart) (fresh : Bool) : (u.jobStart k fresh).pool = u.pool := by
  unfold State.jobStart
  split <;> rfl

end

/-! The end of a hart (R286, R312) -/

theorem exec_exit_idle {s : State} (htrap : s.h.trapWaits = false) (hrun : s.h.run = none) (hqueue : s.h.queue = []) :
    exec .exit s =
      match ((s.swarmsOf s.h.hid).map (fun off => (off, s.gtb))).find? (s.leaveAll s.h.hid).leaveOpen with
      | none => .next (s.leaveAll s.h.hid).exitNow
      | some e => .next ((s.leaveAll s.h.hid).stallBegun 0 0 (.exits ((s.swarmsOf s.h.hid).map (fun off => (off, s.gtb))))
          ((s.leaveAll s.h.hid).leaveParty e)) :=
  (if_neg (by simp [htrap])).trans (if_neg (by simp [Hart.vectorBusy, hrun, hqueue]))

theorem hart_exitNow {s : State} {n : Nat} (hlive : s.h.live = true) (hid : s.h.hid = n) : s.exitNow.hart n = none := by
  subst hid
  have hself : (s.count s.h.tid 1 1).hart s.h.hid = some s.h := (hart_count ..).trans (State.hart_self hlive rfl)
  exact (hart_withDid ..).trans (hart_endHart hself).1

end Sys2Proof.Machine

namespace Sys2Proof.Claims

open Sys2Proof.Machine

/-- Settles O20: `spawn` by the outcome of its record, `exit` by whether a home is still to answer. -/
theorem spawnResults : Obligations.SpawnResults := by
  unfold Obligations.SpawnResults
  refine ⟨fun s u d a bs htrap hread => ?spawns, fun s hlive htrap hrun hqueue => ⟨fun hnone => ?ends, fun e he => ?waits⟩⟩
  case spawns =>
    have hexec := exec_spawn_read (d := d) hread htrap
    obtain ⟨-, hpc⟩ := readsImage_x_pc hread
    refine ⟨fun hid core hphase hadm => ⟨fun hproxy hslow => ?made, fun p hp => ?held⟩, fun c hphase hadm hc => ?refused, fun hphase => ?outside⟩
    case made =>
      rw [spawn_prompt hphase hadm hproxy hslow] at hexec
      obtain ⟨hwrote, -, hnext, -⟩ := resultX_retireX (((u.addHart (u.spawned (imageOf bs) hid core) (imageOf bs)).jobStart
        (u.spawned (imageOf bs) hid core) u.h.nextJob.isSome).setH (fun h => { h with nextJob := none })) d (word hid)
      refine ⟨_, u.spawned (imageOf bs) hid core, hexec, hwrote, ?_, (pool_jobStart ..).trans (pool_addHart ..), rfl, rfl, rfl, rfl, rfl, rfl, rfl,
        rfl, fun n hn => xr_spawned u (imageOf bs) hid core hn⟩
      rw [hnext, State.h_setH, h_jobStart, h_addHart, hpc]
    case held =>
      rcases hp with ⟨o, b, hproxy, rfl⟩ | ⟨hproxy, x, hslow, rfl⟩
      · rw [spawn_proxy hphase hadm hproxy] at hexec
        have hpool := pool_createHart u (u.spawned (imageOf bs) hid core) (imageOf bs) o b (u.gtb + u.h.iwl.toNat)
        obtain ⟨hheld, hxr, hpool⟩ := stallBegun_stands (h_createHart ..) hpool d (word hid) (.child hid (bits (imageOf bs).swarm 0 28)) b.homeParty
        rw [hpc] at hheld
        exact ⟨_, _, hexec, hheld, fun r => (hxr r).trans (readsImage_xr hread r), hpool, rfl, rfl⟩
      · rw [spawn_late hphase hadm hproxy hslow] at hexec
        have hpool := pool_addHart u { u.spawned (imageOf bs) hid core with created := true } (imageOf bs)
        obtain ⟨hheld, hxr, hpool⟩ := stallBegun_stands (h_addHart ..) hpool d (word hid) (.child hid (bits (imageOf bs).swarm 0 28))
          (partyWord 1 x)
        rw [hpc] at hheld
        exact ⟨_, _, hexec, hheld, fun r => (hxr r).trans (readsImage_xr hread r), hpool, rfl, rfl⟩
    case refused => exact ⟨_, hexec.trans (congrArg Host.Outcome.next (spawn_refused hphase hadm hc)), resultX_retireX ..⟩
    case outside => exact ⟨_, hexec.trans (congrArg Host.Outcome.next (spawn_phase hphase)), resultX_retireX ..⟩
  case ends =>
    have hexec := exec_exit_idle htrap hrun hqueue
    rw [hnone] at hexec
    have hleft := unclosed_leaveAll s s.h.hid
    exact ⟨_, hexec, hart_exitNow ((live_of_unclosed hleft).trans hlive) (hid_of_unclosed hleft)⟩
  case waits =>
    have hexec := exec_exit_idle htrap hrun hqueue
    rw [he] at hexec
    exact ⟨_, hexec, heldFor_stallBegun ..⟩

end Sys2Proof.Claims
end

section
/-! PROOFS. The result that a close sends to the hart in hand, when it waits at the swarm (R344, R345, R347). -/

namespace Sys2Proof.Machine

open Sys2Proof.Claims

/-! Results sent to another hart -/

theorem onHid_other {h : Hart} {n : Nat} (hn : h.hid ≠ n) (f : Hart → Hart) : onHid n f h = h := if_neg (by simp [hn])

theorem onHid_self {h : Hart} (hlive : h.live = true) (f : Hart → Hart) : onHid h.hid f h = f h := if_pos (by simp [hlive])

section

variable {s : State} {n : Nat} (hn : s.h.hid ≠ n)

include hn

theorem h_answer_other (v : Word) : (s.answer n v).h = s.h := by
  unfold State.answer
  split
  · rfl
  · next k _ =>
    have hupd : ((s.traceHart k 5 0 k.pc v).updHart n (fun j => j.answer s.gtb v)).h = s.h := by
      show onHid n (fun j : Hart => j.answer s.gtb v) (s.traceHart k 5 0 k.pc v).h = s.h
      rw [State.h_traceHart, onHid_other hn]
    split
    · dsimp only
      split
      · exact (State.h_count ..).trans hupd
      · exact hupd
    · rfl

theorem h_respond_other (w : Wait) (v : Word) (f : Nat) (x : Option Holding) : (s.respond n w v f x).h = s.h := by
  have hupd : (s.updHart n (fun h => h.takes f x)).h = s.h := onHid_other hn (fun h => h.takes f x)
  have htakes : ((s.updHart n (fun h => h.takes f x)).answer n v).h = s.h := (h_answer_other (by rw [hupd]; exact hn) v).trans hupd
  unfold State.respond
  split
  · exact htakes
  · split
    · exact htakes
    · split <;> rfl

theorem h_answerTick_other (tick : Nat) (p : WaitKind → Bool) (v : Word) (f : Nat) : (s.answerTick n tick p v f).h = s.h := by
  unfold State.answerTick
  split
  · split
    · exact h_respond_other hn ..
    · rfl
  · rfl

end

/-! Results sent to the hart in hand -/

theorem answerTick_idle {s : State} (hlive : s.h.live = true) (hw : s.h.wait = none) (tick : Nat) (p : WaitKind → Bool) (v : Word) (f : Nat) :
    s.answerTick s.h.hid tick p v f = s := by
  rw [State.answerTick, State.hart_self hlive rfl, Option.bind_some, hw]

/-- A live hart in hand, bound to a slot, waits, and the die that decides its wait answers. -/
structure InWait (s : State) (w : Wait) : Prop where
  live : s.h.live = true
  slot : s.h.slot ≠ none
  near : s.h.hid < 65536
  wait : s.h.wait = some w
  ans : w.ans = none
  now : AnswersNow s w

theorem h_answer_self {s : State} {w : Wait} (hw : InWait s w) (v : Word) : (s.answer s.h.hid v).h = s.h.deliver w.dst v := by
  have hwaiting : s.h.waiting = true := by simp [Hart.waiting, hw.wait, hw.ans]
  have hslot : s.h.slot.isSome = true := Option.isSome_iff_ne_none.mpr hw.slot
  have hdeliver : s.h.answer s.gtb v = s.h.deliver w.dst v := by rw [Hart.answer, hw.wait]; exact if_pos hslot
  have hupd : ((s.traceHart s.h 5 0 s.h.pc v).updHart s.h.hid (fun k => k.answer s.gtb v)).h = s.h.deliver w.dst v := by
    show onHid s.h.hid (fun j : Hart => j.answer s.gtb v) (s.traceHart s.h 5 0 s.h.pc v).h = _
    rw [State.h_traceHart, onHid_self hw.live, hdeliver]
  rw [State.answer, State.hart_self hw.live rfl]
  dsimp only
  rw [if_pos hwaiting, if_pos hslot, State.h_count, hupd]

theorem h_answerTick_self {s : State} {w : Wait} (hw : InWait s w) {p : WaitKind → Bool} (hp : p w.kind = true) (v : Word) :
    (s.answerTick s.h.hid w.issued p v 0).h = s.h.deliver w.dst v := by
  rw [State.answerTick, State.hart_self hw.live rfl, Option.bind_some, hw.wait]
  dsimp only
  rw [if_pos (by simp [hp]), respond_now _ v hw.now]
  exact h_answer_self hw v

theorem deliver_names (h : Hart) (n : Nat) (v : Word) : (h.deliver n v).hid = h.hid ∧ (h.deliver n v).live = h.live ∧ (h.deliver n v).wait = none :=
  ⟨(congrArg Hart.hid (setX_only h n v) :), (congrArg Hart.live (setX_only h n v) :), rfl⟩

/-! Results sent to many harts -/

/-- Results of the hart in hand's request are being sent: its hart has received its own, or waits as it did. -/
structure Served (s : State) (w : Wait) (v : Word) (done : Prop) (t : State) : Prop where
  dies : t.dies = s.dies
  before : ¬done → t.h = s.h
  after : done → t.h = s.h.deliver w.dst v

section

variable {s t : State} {w : Wait} {v : Word} {done : Prop}

theorem Served.mono {p : Prop} (ht : Served s w v done t) (h : done ↔ p) : Served s w v p t :=
  ⟨ht.dies, fun hp => ht.before (fun hd => hp (h.mp hd)), fun hp => ht.after (h.mpr hp)⟩

/-- A change that the hart in hand does not see. -/
theorem Served.unseen {u : State} (ht : Served s w v done t) (hdies : u.dies = t.dies) (hh : u.h = t.h) : Served s w v done u :=
  ⟨hdies.trans ht.dies, fun hd => hh.trans (ht.before hd), fun hd => hh.trans (ht.after hd)⟩

theorem Served.h_hid (ht : Served s w v done t) : t.h.hid = s.h.hid := by
  by_cases hd : done
  · rw [ht.after hd]; exact (deliver_names ..).1
  · rw [ht.before hd]

theorem Served.answerTick_other (ht : Served s w v done t) {n : Nat} (hn : n ≠ s.h.hid) (tick : Nat) (p : WaitKind → Bool) (x : Word) (f : Nat) :
    Served s w v done (t.answerTick n tick p x f) :=
  ht.unseen (dies_of_unclosed (unclosed_answerTick ..)) (h_answerTick_other (by rw [ht.h_hid]; exact Ne.symm hn) ..)

variable (hw : InWait s w)

include hw

theorem Served.answerTick_self (ht : Served s w v done t) {p : WaitKind → Bool} (hp : p w.kind = true) :
    Served s w v True (t.answerTick s.h.hid w.issued p v 0) := by
  refine ⟨(dies_of_unclosed (unclosed_answerTick ..)).trans ht.dies, fun h => absurd trivial h, fun _ => ?_⟩
  by_cases hd : done
  · obtain ⟨hhid, hlive, hwait⟩ := deliver_names s.h w.dst v
    rw [← ht.after hd] at hhid hlive hwait
    rw [← hhid, answerTick_idle (hlive.trans hw.live) hwait, ht.after hd]
  · have hh := ht.before hd
    have hwt : InWait t w := ⟨hh ▸ hw.live, hh ▸ hw.slot, hh ▸ hw.near, hh ▸ hw.wait, hw.ans, fun d hk => by
      rw [State.die, ht.dies]; exact hw.now d hk⟩
    rw [← hh, h_answerTick_self hwt hp]

/-- A result sent to a hart of this chip: the hart in hand receives it if it is its own. -/
theorem Served.answerTick (ht : Served s w v done t) {n tick : Nat} {p : WaitKind → Bool} {x : Word}
    (hown : n = s.h.hid → tick = w.issued ∧ x = v ∧ p w.kind = true) :
    Served s w v (done ∨ n = s.h.hid) (t.answerTick n tick p x 0) := by
  by_cases hn : n = s.h.hid
  · obtain ⟨htick, hx, hp⟩ := hown hn
    subst hn htick hx
    exact (ht.answerTick_self hw hp).mono (by simp)
  · exact (ht.answerTick_other hn ..).mono (by simp [hn])

omit hw in
/-- Results sent one after another. -/
theorem Served.foldl {β : Type} {f : State → β → State} {hit : β → Prop} {l : List β}
    (hf : ∀ e ∈ l, ∀ done t, Served s w v done t → Served s w v (done ∨ hit e) (f t e)) (ht : Served s w v done t) :
    Served s w v (done ∨ ∃ e ∈ l, hit e) (l.foldl f t) := by
  induction l generalizing done t with
  | nil => exact ht.mono (by simp)
  | cons e l ih =>
    have h := ih (fun x hx => hf x (List.mem_cons_of_mem e hx)) (hf e List.mem_cons_self done t ht)
    exact h.mono (by simp [or_assoc])

theorem Served.closeResult (ht : Served s w v done t) {off : Nat} {bar : Word} {m : Member} (o : Obj) (stp : Word)
    (hown : m.hid = s.h.hid → m.flip = false →
      m.chip = 0xFFFF ∧ m.tick = w.issued ∧ bar = v ∧ (w.kind.arrives off && !w.kind.steps off) = true) :
    Served s w v (done ∨ m.hid = s.h.hid ∧ m.flip = false) (t.closeResult off o bar stp m) := by
  unfold State.closeResult
  split
  · next hflip =>
    refine Served.mono (ht.unseen (dies_of_unclosed ?_) ?_) (by simp [hflip])
    · unfold State.keepStep
      split <;> rfl
    · unfold State.keepStep
      split <;> rfl
  · next hflip =>
    have hflip : m.flip = false := by simpa using hflip
    split
    · next hchip =>
      refine Served.mono (ht.unseen (dies_of_unclosed (unclosed_fabricResult ..)) (h_fabricResult ..)) ?_
      simp only [hflip, and_true, iff_self_or]
      exact fun hm => absurd (hown hm hflip).1 hchip
    · exact Served.mono (ht.answerTick hw fun hm => (hown hm hflip).2) (by simp [hflip])

theorem Served.joinResult (ht : Served s w v done t) {off : Nat} {j : Join} {x : Word} (o : Obj)
    (hown : j.hid = s.h.hid → j.tick = w.issued ∧ x = v ∧ w.kind.joins off = true) :
    Served s w v (done ∨ j.hid = s.h.hid) (t.joinResult o (WaitKind.joins off) j x) := by
  have hnear := hw.near
  unfold State.joinResult
  split
  · next hfar =>
    exact Served.mono (ht.unseen (dies_of_unclosed (unclosed_fabricResult ..)) (h_fabricResult ..)) (by simp; omega)
  · exact ht.answerTick hw hown

theorem Served.sendStep (ht : Served s w v done t) {off : Nat} {e : StepRes} (o : Obj)
    (hown : e.hid = s.h.hid → e.tick = w.issued ∧ e.word = v ∧ w.kind.steps off = true) :
    Served s w v (done ∨ e.hid = s.h.hid) (t.sendStep off o 0 e) := by
  have hnear := hw.near
  unfold State.sendStep
  split
  · next hfar =>
    exact Served.mono (ht.unseen (dies_of_unclosed (unclosed_fabricResult ..)) (h_fabricResult ..)) (by simp; omega)
  · exact ht.answerTick hw hown

/-- The `step` results of a swarm without attached regions are all sent. -/
theorem Served.sendSteps (ht : Served s w v done t) {off : Nat} {o : Obj} {b : Swarm} (hn : t.naming 2 off = [])
    (hb : t.swarm off = some (o, b)) (hown : ∀ e ∈ b.closed, e.hid = s.h.hid → e.tick = w.issued ∧ e.word = v ∧ w.kind.steps off = true) :
    Served s w v (done ∨ ∃ e ∈ b.closed, e.hid = s.h.hid) (t.sendSteps off) := by
  have hsteps : t.sendSteps off = b.closed.foldl (fun u e => u.sendStep off o 0 e) (t.setBody off o (.swarm { b with closed := [] })) := by
    simp [State.sendSteps, State.saturated, hn, hb]
  rw [hsteps]
  exact Served.foldl (fun e he _ _ hu => hu.sendStep hw o (hown e he)) (ht.unseen rfl rfl)

end

/-! The `step` results that a close keeps -/

/-- The `step` results of members, as a close keeps them. -/
def keptSteps (stp : Word) (ms : List Member) : List StepRes := (ms.filter (fun m => m.flip)).map (fun m => ⟨m.hid, m.tick, stp⟩)

theorem swarm_closeResults {t : State} {off : Nat} {o : Obj} {b : Swarm} (hb : t.swarm off = some (o, b)) (o1 : Obj) (bar stp : Word)
    (ms : List Member) : ∃ o2, (ms.foldl (fun u m => u.closeResult off o1 bar stp m) t).swarm off =
      some (o2, { b with closed := b.closed ++ keptSteps stp ms }) := by
  induction ms generalizing t o b with
  | nil => exact ⟨o, by simpa [keptSteps] using hb⟩
  | cons m ms ih =>
    rw [List.foldl_cons]
    by_cases hflip : m.flip = true
    · have hkept : (t.closeResult off o1 bar stp m).swarm off =
          some ({ o with body := .swarm { b with closed := b.closed ++ [⟨m.hid, m.tick, stp⟩] } },
            { b with closed := b.closed ++ [⟨m.hid, m.tick, stp⟩] }) := by
        simp only [State.closeResult, hflip, if_true, State.keepStep, hb]
        exact swarm_setBody ..
      obtain ⟨o2, h2⟩ := ih hkept
      exact ⟨o2, by simpa [keptSteps, hflip] using h2⟩
    · have hsame : (t.closeResult off o1 bar stp m).swarm off = some (o, b) := by
        rw [← hb, State.closeResult, if_neg hflip]
        split
        · exact swarm_of_unsent (unsent_fabricResult ..) off
        · exact swarm_of_unsent (unsent_answerTick ..) off
      obtain ⟨o2, h2⟩ := ih hsame
      exact ⟨o2, by simpa [keptSteps, hflip] using h2⟩

theorem unsent_joinResult (s : State) (o : Obj) (k : WaitKind → Bool) (j : Join) (v : Word) : (s.joinResult o k j v).unsent = s.unsent := by
  unfold State.joinResult
  split
  · exact unsent_fabricResult ..
  · exact unsent_answerTick ..

/-! The close of an episode whose swarm has no region attached, and at which no member lapses -/

/-- The members whose arrivals a close answers. -/
def Swarm.present (b : Swarm) : List Member := b.members.filter (fun m => m.good && m.arrived)

/-- The record of a swarm at a close at which no member lapses, once its `step` results are being sent (R344). -/
def Swarm.opened (b : Swarm) (time : Nat) : Swarm := { b.closedAt [] time with members := b.reseated, closed := [] }

/-- The word of a close at which no member lapses (R335, R344). -/
def Swarm.okWord (b : Swarm) : Word := statusWord (b.epi + 1).toNat 0xFFF 0 0

section

variable {s : State} {off : Nat} {o : Obj} {b : Swarm} (hb : s.swarm off = some (o, b)) (hn : s.naming 2 off = []) (hc : b.closed = [])
  (hl : b.lapsing = [])

include hb hn hc hl

theorem closeEpisode_unattached : ∃ z o1 b1, SameParties s z ∧ z.naming 2 off = [] ∧ z.swarm off = some (o1, b1) ∧ b1.closed = [] ∧
    ∃ o2, s.closeEpisode off = (b.joins.foldl (fun t j => t.joinResult o2 (WaitKind.joins off) j b.okWord)
      (b.present.foldl (fun t m => t.closeResult off o2 b.okWord b.okWord m) z)).sendSteps off := by
  have hf : s.finishFlips off = s.setBody off o (.swarm { b with closed := [] }) := by
    simp [State.finishFlips, State.sendSteps, hn, hb, hc]
  have hsw : (s.finishFlips off).swarm off = some ({ o with body := .swarm { b with closed := [] } }, { b with closed := [] }) := by
    rw [hf]; exact swarm_setBody ..
  have hn1 : (s.finishFlips off).naming 2 off = [] := by rw [hf]; exact hn
  have hg : (s.finishFlips off).gtb = s.gtb := by rw [hf]; rfl
  have hlapse : (b.members.filter (fun m => m.good && !m.arrived)).map (fun m => m.rank) = [] := hl
  have hclose : s.closeEpisode off = (b.joins.foldl (fun t j => t.joinResult { o with body := .swarm { b with closed := [] } }
      (WaitKind.joins off) j b.okWord) (b.present.foldl (fun t m =>
        t.closeResult off { o with body := .swarm { b with closed := [] } } b.okWord b.okWord m)
          ((s.finishFlips off).setBody off { o with body := .swarm { b with closed := [] } } (.swarm (b.opened s.gtb))))).sendSteps off := by
    unfold State.closeEpisode
    simp only [hsw, hn1, hlapse, hg, List.foldl_nil, List.any_nil, Bool.false_eq_true, if_false, List.isEmpty_nil, if_true]
    rfl
  have hsame : SameParties s ((s.finishFlips off).setBody off { o with body := .swarm { b with closed := [] } } (.swarm (b.opened s.gtb))) := by
    rw [hf]
    exact ⟨rfl, rfl, rfl, rfl⟩
  exact ⟨_, _, _, hsame, hn1, swarm_setBody .., rfl, _, hclose⟩

/-- The hart in hand, whose arrival or join the close answers, receives the word of the close. -/
theorem h_closeEpisode {w : Wait} (hw : InWait s w)
    (hpresent : ∀ m ∈ b.present, m.hid = s.h.hid → m.tick = w.issued ∧ (m.flip = true → w.kind.steps off = true) ∧
      (m.flip = false → m.chip = 0xFFFF ∧ (w.kind.arrives off && !w.kind.steps off) = true))
    (hjoins : ∀ j ∈ b.joins, j.hid = s.h.hid → j.tick = w.issued ∧ w.kind.joins off = true)
    (hit : (∃ m ∈ b.present, m.hid = s.h.hid) ∨ ∃ j ∈ b.joins, j.hid = s.h.hid) :
    (s.closeEpisode off).h = s.h.deliver w.dst b.okWord := by
  obtain ⟨z, o1, b1, ⟨hh, -, -, hdies⟩, hzn, hzb, hb1, o2, hclose⟩ := closeEpisode_unattached hb hn hc hl
  have hz : Served s w b.okWord False z := ⟨hdies, fun _ => hh, False.elim⟩
  have hresults := Served.foldl (f := fun t m => t.closeResult off o2 b.okWord b.okWord m) (fun m hm _ _ ht =>
    ht.closeResult hw o2 b.okWord fun hhid hflip =>
      ⟨((hpresent m hm hhid).2.2 hflip).1, (hpresent m hm hhid).1, rfl, ((hpresent m hm hhid).2.2 hflip).2⟩) hz
  have hjoined := Served.foldl (f := fun t j => t.joinResult o2 (WaitKind.joins off) j b.okWord) (fun j hj _ _ ht =>
    ht.joinResult hw o2 fun hhid => ⟨(hjoins j hj hhid).1, rfl, (hjoins j hj hhid).2⟩) hresults
  have hunsent := foldl_keeps State.unsent _ (fun t j => unsent_joinResult t o2 (WaitKind.joins off) j b.okWord) b.joins
    (b.present.foldl (fun t m => t.closeResult off o2 b.okWord b.okWord m) z)
  obtain ⟨o3, hkept⟩ := swarm_closeResults hzb o2 b.okWord b.okWord b.present
  obtain ⟨hnaming, -⟩ := (closing_closeResults (b := b1) ⟨hzn, o1, b1.closed, hzb⟩ o2 b.okWord b.okWord b.present).of_unsent hunsent
  have hsteps := hjoined.sendSteps hw hnaming ((swarm_of_unsent hunsent off).trans hkept) fun e he hhid => ?steps
  case steps =>
    simp only [hb1, List.nil_append] at he
    obtain ⟨m, hm, rfl⟩ := List.mem_map.mp he
    obtain ⟨hm, hflip⟩ := List.mem_filter.mp hm
    exact ⟨(hpresent m hm hhid).1, rfl, (hpresent m hm hhid).2.1 hflip⟩
  rw [hclose]
  refine hsteps.after ?_
  rcases hit with ⟨m, hm, hhid⟩ | hjoin
  · cases hflip : m.flip with
    | false => exact .inl (.inl (.inr ⟨m, hm, hhid, hflip⟩))
    | true =>
      refine .inr ⟨⟨m.hid, m.tick, b.okWord⟩, ?_, hhid⟩
      simp only [hb1, List.nil_append]
      exact List.mem_map.mpr ⟨m, List.mem_filter.mpr ⟨hm, hflip⟩, rfl⟩
  · exact .inl (.inr hjoin)

end

end Sys2Proof.Machine
end

section
/-! PROOFS. Swarms (R344-R349): `swjoin`, `swleave`, `swbar` and `step` at the home of a swarm and at a proxy. -/

namespace Sys2Proof.Machine

open Sys2Proof.Claims

/-! The hart in hand after its request -/

/-- The hart that an instruction has set to wait has received its result. -/
theorem returned_of_deliver {s t : State} {k : WaitKind} {d : BitVec 5} {dead : Nat} {v : Word}
    (h : t.h = (s.startWait k d dead).h.deliver d.toNat v) : Returned s t d v := by
  have hxr : ∀ r : BitVec 5, t.xr r = if r.toNat = d.toNat then (if d.toNat = 0 then 0 else v) else s.xr r := fun r => by
    rw [State.xr, h]
    exact xr_setX ..
  refine ⟨?_, fun r hr => ?_, ?_, ?_⟩
  · rw [WroteX, hxr, if_pos rfl]
    simp [← BitVec.toNat_inj]
  · rw [hxr, if_neg (fun he => hr (BitVec.eq_of_toNat_eq he))]
  · rw [h]
    exact congrArg (· + 4) (rfl : (s.startWait k d dead).h.pc = s.h.pc)
  · rw [h]
    rfl

theorem returned_count {s t : State} {d : BitVec 5} {v : Word} (h : Returned s t d v) (tid i n : Nat) : Returned s (t.count tid i n) d v := by
  simpa only [Returned, WroteX, OtherX, State.xr, State.h_count] using h

theorem standsBy_count {s t : State} {k : WaitKind} {d : BitVec 5} {dead : Nat} (h : StandsBy s t k d dead) (tid i n : Nat) :
    StandsBy s (t.count tid i n) k d dead := by
  simpa only [StandsBy, State.xr, State.h_count] using h

theorem swarm_count (s : State) (tid i n off : Nat) : (s.count tid i n).swarm off = s.swarm off := swarm_of_unsent (unsent_count ..) off

theorem standsBy_startWait {s z : State} (hh : z.h = s.h) (hgtb : z.gtb = s.gtb) (k : WaitKind) (d : BitVec 5) (dead : Nat) :
    StandsBy s (z.startWait k d dead) k d dead := by
  refine ⟨?_, (congrArg Hart.pc hh :), fun x => (congrArg (fun h : Hart => h.xr x.toNat) hh :)⟩
  rw [← hgtb]
  rfl

/-- A bound hart whose wait a die that answers decides. -/
theorem inWait_startWait {s : State} (hbound : Bound s) {k : WaitKind} {x : Nat} (hk : k.decidedAt = some x) (hl : (s.die x).late = 0)
    (d : BitVec 5) (dead : Nat) : InWait (s.startWait k d dead) { kind := k, dst := d.toNat, dead := dead, issued := s.gtb, ans := none } := by
  obtain ⟨hlive, hslot, hnear⟩ := hbound
  refine ⟨hlive, hslot, hnear, rfl, rfl, fun y hy => ?_⟩
  obtain rfl := Option.some.inj (hk.symm.trans hy)
  exact hl

/-- Changes that the hart in hand, the time and the dies do not see leave its wait. -/
theorem InWait.congr {s t : State} {w : Wait} (hw : InWait s w) (h : SameParties s t) : InWait t w := by
  obtain ⟨hh, -, -, hdies⟩ := h
  refine ⟨hh ▸ hw.live, hh ▸ hw.slot, hh ▸ hw.near, hh ▸ hw.wait, hw.ans, fun y hy => ?_⟩
  rw [State.die, hdies]
  exact hw.now y hy

/-- A result that a late die keeps. -/
theorem finishAt_kept {s : State} {k : WaitKind} {x : Nat} (hk : k.decidedAt = some x) (hl : (s.die x).late ≠ 0)
    (hnew : s.slow.any (fun r => r.hid == s.h.hid && r.tick == s.gtb) = false) (d : BitVec 5) (dead : Nat) (v : Word) (hold : Option Holding) :
    s.finishAt k d dead v hold = { s.startWait k d dead with slow := s.slow ++ [⟨x, s.h.hid, s.gtb, v, 0, hold⟩] } := by
  have hlate : ((s.startWait k d dead).die x).late ≠ 0 := hl
  simp only [State.finishAt, hk, Option.elim_some, hl, if_false]
  show (s.startWait k d dead).respond s.h.hid _ v 0 hold = _
  rw [State.respond, hk]
  dsimp only
  rw [if_neg hlate]
  exact if_neg (ne_true_of_eq_false hnew)

/-! The records of members -/

theorem memberOf_swarm {s : State} {off : Nat} {o : Obj} {b : Swarm} (hb : s.swarm off = some (o, b)) (hid : Nat) :
    o.memberOf hid = b.members.find? (fun m => m.hid == hid && m.chip == 0xFFFF) := by
  rw [Obj.memberOf, Obj.members, body_of_swarm hb]

theorem memberOf_spec {s : State} {off hid : Nat} {o : Obj} {b : Swarm} {m : Member} (hb : s.swarm off = some (o, b))
    (hm : o.memberOf hid = some m) : m ∈ b.members ∧ m.hid = hid ∧ m.chip = 0xFFFF := by
  rw [memberOf_swarm hb] at hm
  exact ⟨List.mem_of_find?_eq_some hm, by simpa using List.find?_some hm⟩

theorem memberOf_eq_none {s : State} {off : Nat} {o : Obj} {b : Swarm} (hb : s.swarm off = some (o, b)) {hid : Nat}
    (h : ∀ m ∈ b.members, ¬(m.hid = hid ∧ m.chip = 0xFFFF)) : o.memberOf hid = none := by
  rw [memberOf_swarm hb]
  exact List.find?_eq_none.mpr fun m hm => by simpa using h m hm

/-! The leave of a member (R348) -/

theorem leaveAt_leaves {s : State} {off hid chip : Nat} {o : Obj} {b : Swarm} (hb : s.swarm off = some (o, b)) (hj : b.joins = []) :
    ∃ o2 b2, (s.leaveAt off hid chip).swarm off = some (o2, b2) ∧ ∀ m ∈ b2.members, ¬(m.hid = hid ∧ m.chip = chip) := by
  have hleft : ∀ m ∈ b.members.filter (fun m => !(m.hid == hid && m.chip == chip)), ¬(m.hid = hid ∧ m.chip = chip) := fun m hm => by
    simpa only [Bool.not_eq_true', Bool.and_eq_false_iff, beq_eq_false_iff_ne, ne_eq, ← not_and_or] using (List.mem_filter.mp hm).2
  simp only [State.leaveAt, hb]
  split
  · obtain ⟨o2, b2, h2, -, -, hmembers⟩ := closeEpisode_reseats (swarm_setBody s off o
      { b with members := b.members.filter (fun m => !(m.hid == hid && m.chip == chip)) })
    refine ⟨o2, b2, h2, fun m hm => ?_⟩
    rw [hmembers, Swarm.reseated, hj] at hm
    obtain ⟨k, hk, rfl⟩ := List.mem_map.mp hm
    exact hleft k hk
  · exact ⟨_, _, swarm_setBody .., hleft⟩

/-! Joins (R347) -/

theorem chipOf_near {hid : Nat} (h : hid < 65536) : chipOf hid = 0xFFFF := if_pos (by omega)

/-- A swarm without a member in good standing has none to lapse and none present. -/
theorem present_lapsing_of_no_good {b : Swarm} (h : b.members.any (fun m => m.good) = false) : b.present = [] ∧ b.lapsing = [] := by
  have hgood : ∀ m ∈ b.members, m.good = false := by simpa using h
  constructor
  · exact List.filter_eq_nil_iff.mpr fun m hm => by simp [hgood m hm]
  · exact congrArg (List.map _) (List.filter_eq_nil_iff.mpr fun m hm => by simp [hgood m hm])

/-- The members after the only pending join, of no member, at a swarm without one in good standing. -/
theorem reseated_join {b : Swarm} {j : Join} (hj : b.joins = [j]) (h : b.members.any (fun m => m.good) = false)
    (hnew : ∀ m ∈ b.members, m.hid ≠ j.hid) : b.reseated = b.members.map (fun m => { m with arrived := false }) ++
      [{ rank := j.rank, hid := j.hid, chip := chipOf j.hid, good := true, arrived := false, dead := 0, tick := j.tick, flip := false }] := by
  have hgood : ∀ m ∈ b.members, m.good = false := by simpa using h
  have hmap : b.members.map (fun m => { m with good := m.good && m.arrived, arrived := false }) =
      b.members.map (fun m => { m with arrived := false }) :=
    List.map_congr_left fun m hm => by simp [hgood m hm]
  have hany : (b.members.map (fun m => { m with arrived := false })).any (fun m => m.hid == j.hid) = false := by
    simpa using hnew
  rw [Swarm.reseated, hj, hmap, List.foldl_cons, List.foldl_nil, seat, if_neg (ne_true_of_eq_false hany)]

/-! Arrivals (R344, R345) -/

section

variable {b : Swarm} {hid dead tick : Nat} {flip : Bool} {m : Member} (hchip : m.chip = 0xFFFF)
  (honly : ∀ k ∈ b.members, k.hid = hid → k = m) (hall : ∀ k ∈ b.members, k.good = true → k.hid ≠ hid → k.arrived = true)

include hchip honly

/-- The arrival of a member's only entry. -/
theorem arrive_members : (b.arrive hid 0xFFFF dead tick flip).members = b.members.map (fun k =>
    if k.hid = hid then { k with arrived := true, dead := if k.arrived then min k.dead dead else dead, tick := tick, flip := flip } else k) := by
  refine List.map_congr_left fun k hk => ?_
  by_cases hk2 : k.hid = hid
  · have hc : k.chip = 0xFFFF := honly k hk hk2 ▸ hchip
    simp [hk2, hc]
  · simp [hk2]

include hall

theorem arrive_complete : ∀ k ∈ (b.arrive hid 0xFFFF dead tick flip).members, k.good = true → k.arrived = true := by
  rw [arrive_members hchip honly]
  intro k hk hg
  obtain ⟨k0, hk0, rfl⟩ := List.mem_map.mp hk
  by_cases hk2 : k0.hid = hid
  · simp [hk2]
  · simp only [hk2, if_false] at hg ⊢
    exact hall k0 hk0 hg hk2

/-- No member lapses at a close that the arrival of the last one makes. -/
theorem arrive_lapsing : (b.arrive hid 0xFFFF dead tick flip).lapsing = [] :=
  congrArg (List.map _) (List.filter_eq_nil_iff.mpr fun k hk => by
    have h := arrive_complete (dead := dead) (tick := tick) (flip := flip) hchip honly hall k hk
    cases hg : k.good with
    | false => simp
    | true => simp [h hg])

theorem complete_arrive : (b.arrive hid 0xFFFF dead tick flip).complete = true :=
  List.all_eq_true.mpr fun k hk => by
    have h := arrive_complete (dead := dead) (tick := tick) (flip := flip) hchip honly hall k hk
    cases hg : k.good with
    | false => rfl
    | true => simp [h hg]

omit hall in
/-- The arrival as the record keeps it. -/
theorem arrive_own : ∀ k ∈ (b.arrive hid 0xFFFF dead tick flip).members, k.hid = hid → k.tick = tick ∧ k.flip = flip ∧ k.chip = 0xFFFF := by
  rw [arrive_members hchip honly]
  intro k hk hkid
  obtain ⟨k0, hk0, rfl⟩ := List.mem_map.mp hk
  by_cases h0 : k0.hid = hid
  · obtain rfl := honly k0 hk0 h0
    simp [h0, hchip]
  · simp [h0] at hkid

omit hall in
theorem arrive_present (hmem : m ∈ b.members) (hgood : m.good = true) (hhid : m.hid = hid) :
    ∃ k ∈ (b.arrive hid 0xFFFF dead tick flip).present, k.hid = hid := by
  have hmap : { m with arrived := true, dead := if m.arrived then min m.dead dead else dead, tick := tick, flip := flip } ∈
      (b.arrive hid 0xFFFF dead tick flip).members := by
    rw [arrive_members hchip honly]
    exact List.mem_map.mpr ⟨m, hmem, if_pos hhid⟩
  exact ⟨_, List.mem_filter.mpr ⟨hmap, by simp [hgood]⟩, hhid⟩

/-- The members of the next episode, when the arrival closes the open one. -/
theorem reseated_arrive (hj : b.joins = []) (hgood : m.good = true) (hhid : m.hid = hid) :
    (b.arrive hid 0xFFFF dead tick flip).reseated = b.members.map (fun k =>
    if k = m then { k with arrived := false, dead := if m.arrived then min m.dead dead else dead, tick := tick, flip := flip }
    else { k with arrived := false }) := by
  have hmap : (b.arrive hid 0xFFFF dead tick flip).reseated =
      (b.arrive hid 0xFFFF dead tick flip).members.map (fun m => { m with good := m.good && m.arrived, arrived := false }) := by
    rw [Swarm.reseated, show (b.arrive hid 0xFFFF dead tick flip).joins = [] from hj, List.foldl_nil]
  rw [hmap, arrive_members hchip honly, List.map_map]
  refine List.map_congr_left fun k hk => ?_
  by_cases hk2 : k.hid = hid
  · obtain rfl := honly k hk hk2
    simp [hk2, hgood]
  · have hne : k ≠ m := fun he => hk2 (he ▸ hhid)
    have hstays : (k.good && k.arrived) = k.good := by
      cases hg : k.good with
      | false => rfl
      | true => simp [hall k hk hg hk2]
    simp only [Function.comp, hk2, if_false, hne, hstays]

end

/-! Requests that go out to the home chip of a swarm (R340, R349) -/

theorem unsent_askHome (s : State) (o : Obj) (b : Swarm) (op hid rank dead : Nat) : (s.askHome o b op hid rank dead).unsent = s.unsent :=
  unsent_sendFrame ..

theorem h_askHome (s : State) (o : Obj) (b : Swarm) (op hid rank dead : Nat) : (s.askHome o b op hid rank dead).h = s.h := by
  unfold State.askHome State.sendFrame
  split <;> rfl

/-- What a request to the home chip of a swarm leaves: every byte, and one frame more where frames go out. -/
def Asked (s u : State) : Prop :=
  SameBytes s u ∧ ((s.tenant s.h.tid).replay = false → s.portsUp = true → u.outbox.length = s.outbox.length + 1)

theorem asked_askHome {s : State} {o : Obj} (ht : o.tag = s.h.tid) (b : Swarm) (op hid rank dead : Nat) : Asked s (s.askHome o b op hid rank dead) := by
  refine ⟨sameBytes_of_mem ?_, fun hr hup => ?_⟩
  · unfold State.askHome State.sendFrame
    split <;> rfl
  · obtain ⟨x, hx, -⟩ := sendFrame_out (s := s) (tag := o.tag) (ht ▸ hr) hup 5 b.homeChip (bits b.remote.toNat 0 16)
      ([op, hid, rank, dead, s.gtb, (s.swarmsOf hid).length].flatMap (leBytes 8))
    rw [State.askHome, hx, List.length_append, List.length_singleton]

theorem Asked.congr {s u z : State} (h : Asked s u) (hmem : z.mem = u.mem) (hout : z.outbox = u.outbox) : Asked s z := by
  obtain ⟨hbytes, hframe⟩ := h
  exact ⟨fun x => (congrArg (Tab.get 0 · x) hmem).trans (hbytes x), fun hr hup => (congrArg List.length hout).trans (hframe hr hup)⟩

section

variable {s u : State} (h : Asked s u)

include h

theorem Asked.count (tid i n : Nat) : Asked s (u.count tid i n) :=
  h.congr (mem_count u tid i n) (congrArg State.outbox (count_only u tid i n) :)

theorem Asked.startWait (k : WaitKind) (d : BitVec 5) (dead : Nat) : Asked s (u.startWait k d dead) := h.congr rfl rfl

theorem Asked.stallBegun (d : BitVec 5) (v : Word) (what : Begins) (party : Word) : Asked s (u.stallBegun d v what party) := h.congr rfl rfl

end

/-- A request that goes out under a deadline. -/
theorem forward_asks {s : State} {o : Obj} (ht : o.tag = s.h.tid) (b : Swarm) (k : WaitKind) (d : BitVec 5) (op rank dead : Nat) :
    ∃ u, countBank s.h.tid (s.forward o b k d op rank dead) = .next u ∧ StandsBy s u k d dead ∧ Asked s u :=
  ⟨_, countBank_waits rfl, standsBy_count (standsBy_startWait (h_askHome ..) (congrArg State.gtb (unsent_askHome s o b op s.h.hid rank dead) :) ..) ..,
    ((asked_askHome ht b op s.h.hid rank dead).startWait k d dead).count ..⟩

/-! The instructions at the home of a swarm -/

/-- A swarm record of the hart's tenant. -/
theorem atSwarm_own {s : State} {off : Nat} {o : Obj} {b : Swarm} (hb : s.swarm off = some (o, b)) (ht : o.tag = s.h.tid)
    (k : Option (WaitKind × Nat)) (d : BitVec 5) (f : Obj → Swarm → Out) : s.atSwarm k d off f = f o b := by
  simp only [State.atSwarm, hb, ht, if_true]

/-- `swbar` and `step` are the model's arrival. -/
theorem exec_arrivals (s : State) (d a t : BitVec 5) (r : BitVec 1) :
    ∀ e ∈ [(Instr.swbar d a t r, false), (.step d a t r, true)], exec e.1 s = arrival e.2 d a t r s := by
  simp only [List.forall_mem_cons]
  exact ⟨rfl, rfl, List.forall_mem_nil _⟩

section

variable {s : State} {d a : BitVec 5} {off : Nat} {o : Obj} {b : Swarm} (hrec : RecordAt s (s.xr a) off) (hb : s.swarm off = some (o, b))
  (ht : o.tag = s.h.tid)

include hrec hb ht

section

variable {t : BitVec 5} {r : BitVec 1} (hhere : b.remote = 0)

include hhere

theorem arrival_stranger (hnone : o.memberOf s.h.hid = none) (flip : Bool) : arrival flip d a t r s =
    countBank s.h.tid (.next (s.finishAt (.arrive off flip) d (s.deadline t r) (statusWord 0 0xFFF 7 16) none)) := by
  rw [arrival, atRecord_at hrec, atSwarm_own hb ht, if_neg (not_not.mpr hhere), hnone]
  rfl

section

variable {m : Member} (hm : o.memberOf s.h.hid = some m)

include hm

theorem arrival_lapsed (hgood : m.good = false) (flip : Bool) : arrival flip d a t r s =
    countBank s.h.tid (.next (s.finishAt (.arrive off flip) d (s.deadline t r) (statusWord b.epi.toNat b.lowabs b.nabs 2) none)) := by
  rw [arrival, atRecord_at hrec, atSwarm_own hb ht, if_neg (not_not.mpr hhere), hm]
  exact congrArg (countBank _) (if_pos (by simp [hgood]))

/-- A member in good standing arrives (R345). -/
theorem arrival_arrives (hgood : m.good = true) (flip : Bool) : arrival flip d a t r s = .next (((s.startWait (.arrive off flip) d
    (s.deadline t r)).arriveAt off s.h.hid 0xFFFF (s.deadline t r) s.gtb flip).count s.h.tid 7 1) := by
  rw [arrival, atRecord_at hrec, atSwarm_own hb ht, if_neg (not_not.mpr hhere), hm]
  refine (congrArg (countBank _) (if_neg (by simp [hgood]))).trans (countBank_waits ?_)
  exact (did_of_unclosed (unclosed_arriveAt ..)).trans rfl

end

/-- The arrival of a stranger or of a lapsed member has its result at once (R345). -/
theorem arrival_ungranted {v : Word} (hv : (o.memberOf s.h.hid = none ∧ v = statusWord 0 0xFFF 7 16) ∨
      (∃ m, o.memberOf s.h.hid = some m ∧ m.good = false ∧ v = statusWord b.epi.toNat b.lowabs b.nabs 2)) (flip : Bool) :
    arrival flip d a t r s = countBank s.h.tid (.next (s.finishAt (.arrive off flip) d (s.deadline t r) v none)) := by
  obtain ⟨hnone, rfl⟩ | ⟨m, hm, hgood, rfl⟩ := hv
  · exact arrival_stranger hrec hb ht hhere hnone flip
  · exact arrival_lapsed hrec hb ht hhere hm hgood flip

/-- An arrival that must wait for a late home keeps its result there. -/
theorem arrival_kept (hlate : ¬HomeAnswers s off) {v : Word} (hv : (o.memberOf s.h.hid = none ∧ v = statusWord 0 0xFFF 7 16) ∨
      (∃ m, o.memberOf s.h.hid = some m ∧ m.good = false ∧ v = statusWord b.epi.toNat b.lowabs b.nabs 2))
    (hnew : s.slow.any (fun x => x.hid == s.h.hid && x.tick == s.gtb) = false) (flip : Bool) :
    ∃ u, arrival flip d a t r s = .next u ∧ StandsBy s u (.arrive off flip) d (s.deadline t r) ∧
      u.slow = s.slow ++ [⟨(combHome off).1, s.h.hid, s.gtb, v, 0, none⟩] := by
  have hkept := finishAt_kept (k := .arrive off flip) rfl hlate hnew d (s.deadline t r) v none
  refine ⟨_, (arrival_ungranted hrec hb ht hhere hv flip).trans (countBank_waits ?_), standsBy_count ?_ .., ?_⟩
  · rw [hkept]
    rfl
  · rw [hkept]
    exact standsBy_startWait rfl rfl ..
  · rw [hkept]
    exact (congrArg State.slow (count_only ..) :)

/-- An arrival while another member in good standing is awaited (R344). -/
theorem arrival_waits {m : Member} (hm : o.memberOf s.h.hid = some m) (hgood : m.good = true) (hfuture : s.gtb < s.deadline t r)
    (hawaited : ∃ k ∈ b.members, k.good = true ∧ k.arrived = false ∧ k.hid ≠ s.h.hid) (flip : Bool) :
    ∃ u, arrival flip d a t r s = .next u ∧ StandsBy s u (.arrive off flip) d (s.deadline t r) := by
  refine ⟨_, arrival_arrives hrec hb ht hhere hm hgood flip, standsBy_count ?_ ..⟩
  rw [arriveAt_open (s := s.startWait (.arrive off flip) d (s.deadline t r)) hb hfuture hawaited]
  exact standsBy_startWait (z := s) rfl rfl ..

section

variable {m : Member} (hm : o.memberOf s.h.hid = some m) (hgood : m.good = true) (honly : ∀ k ∈ b.members, k.hid = s.h.hid → k = m)
  (hall : ∀ k ∈ b.members, k.good = true → k.hid ≠ s.h.hid → k.arrived = true)

include hm hgood honly hall

/-- The arrival of the last member in good standing closes the episode, at once (R344). -/
theorem arrival_closes (flip : Bool) : arrival flip d a t r s = .next ((((s.startWait (.arrive off flip) d (s.deadline t r)).setBody off o
    (.swarm (b.arrive s.h.hid 0xFFFF (s.deadline t r) s.gtb flip))).closeEpisode off).count s.h.tid 7 1) := by
  obtain ⟨-, -, hchip⟩ := memberOf_spec hb hm
  have hbz : (s.startWait (.arrive off flip) d (s.deadline t r)).swarm off = some (o, b) := hb
  rw [arrival_arrives hrec hb ht hhere hm hgood flip]
  simp only [State.arriveAt, hbz]
  have hcomplete : (b.arrive s.h.hid 0xFFFF (s.deadline t r) s.gtb flip).complete = true := complete_arrive hchip honly hall
  exact congrArg (fun z : State => Host.Outcome.next (z.count s.h.tid 7 1)) (if_pos (by rw [Bool.or_eq_true]; exact .inl hcomplete))

omit hrec ht hhere in
/-- The close answers the arrival that made it (R345). -/
theorem h_arrival_close (hhome : HomeAnswers s off) (hbound : Bound s) (hn : s.naming 2 off = []) (hj : b.joins = []) (hc : b.closed = [])
    (dead : Nat) (flip : Bool) :
    (((s.startWait (.arrive off flip) d dead).setBody off o (.swarm (b.arrive s.h.hid 0xFFFF dead s.gtb flip))).closeEpisode off).h =
      (s.startWait (.arrive off flip) d dead).h.deliver d.toNat b.okWord := by
  obtain ⟨hmem, hhid, hchip⟩ := memberOf_spec hb hm
  have hw := (inWait_startWait hbound (k := .arrive off flip) rfl hhome d dead).congr
    (sameParties_setBody _ off o (.swarm (b.arrive s.h.hid 0xFFFF dead s.gtb flip)))
  refine h_closeEpisode (swarm_setBody (s.startWait (.arrive off flip) d dead) off o (b.arrive s.h.hid 0xFFFF dead s.gtb flip)) hn hc
    (arrive_lapsing hchip honly hall) hw (fun k hk hkid => ?_) (fun j hjoin => ?_) (.inl (arrive_present hchip honly hmem hgood hhid))
  · obtain ⟨htick, hflip, hkchip⟩ := arrive_own hchip honly k (List.mem_of_mem_filter hk) hkid
    refine ⟨htick, fun hf => ?_, fun hf => ⟨hkchip, ?_⟩⟩
    · simp [WaitKind.steps, ← hflip, hf]
    · simp [WaitKind.steps, WaitKind.arrives, ← hflip, hf]
  · simp [Swarm.arrive, hj] at hjoin

theorem arrival_returns (hhome : HomeAnswers s off) (hbound : Bound s) (hn : s.naming 2 off = []) (hj : b.joins = []) (hc : b.closed = [])
    (flip : Bool) : ∃ u o2 b2, arrival flip d a t r s = .next u ∧ Returned s u d (statusWord (b.epi + 1).toNat 0xFFF 0 0) ∧
      u.swarm off = some (o2, b2) ∧ b2.epi = b.epi + 1 ∧ b2.members = b.members.map (fun k =>
        if k = m then { k with arrived := false, dead := if m.arrived then min m.dead (s.deadline t r) else s.deadline t r, tick := s.gtb, flip := flip }
        else { k with arrived := false }) := by
  obtain ⟨-, hhid, hchip⟩ := memberOf_spec hb hm
  have hhart := h_arrival_close (d := d) hb hm hgood honly hall hhome hbound hn hj hc (s.deadline t r) flip
  obtain ⟨o2, b2, hswarm, hepi, -, hmembers⟩ := closeEpisode_reseats (swarm_setBody (s.startWait (.arrive off flip) d (s.deadline t r)) off o
    (b.arrive s.h.hid 0xFFFF (s.deadline t r) s.gtb flip))
  exact ⟨_, o2, b2, arrival_closes hrec hb ht hhere hm hgood honly hall flip, returned_count (returned_of_deliver hhart) ..,
    (swarm_count ..).trans hswarm, hepi, hmembers.trans (reseated_arrive hchip honly hall hj hgood hhid)⟩

end

/-! Joins and leaves -/

section

variable (hnone : o.memberOf s.h.hid = none) (hrank : (s.xr d).toNat < 1024)
  (hfree : b.members.any (fun m => m.rank == (s.xr d).toNat) = false)
  (hunasked : b.joins.any (fun j => j.rank == (s.xr d).toNat && j.hid != s.h.hid) = false) (hroom : (s.swarmsOf s.h.hid).length < 8)

include hnone hrank hfree hunasked hroom

/-- A `swjoin` that passes its checks (R347). -/
theorem exec_swjoin : exec (.swjoin d a t r) s = countBank s.h.tid (s.join off o b d (s.xr d).toNat (s.deadline t r)) := by
  show execSwjoin d a t r s = _
  rw [execSwjoin, atRecord_at hrec, atSwarm_own hb ht, if_neg (not_not.mpr hhere), hnone]
  dsimp only
  rw [if_neg (by simp [hfree, hunasked, hrank]), if_neg (by omega)]

theorem swjoin_pends (hgood : b.members.any (fun m => m.good) = true) (hfuture : s.gtb < s.deadline t r) :
    ∃ u, exec (.swjoin d a t r) s = .next u ∧
      BankWaits (s.pendJoin off o b (s.xr d).toNat (s.deadline t r)) u (.swjoin off (s.xr d).toNat) d (s.deadline t r) := by
  rw [exec_swjoin hrec hb ht hhere hnone hrank hfree hunasked hroom, State.join, if_neg (by simp [hgood]), if_neg (by omega)]
  exact ⟨_, countBank_waits rfl, _, nowWaits_startWait .., rfl⟩

theorem swjoin_expired (hgood : b.members.any (fun m => m.good) = true) (hpast : s.deadline t r ≤ s.gtb) (hhome : HomeAnswers s off) :
    ∃ u, exec (.swjoin d a t r) s = .next u ∧ AtBank s u d (statusWord b.epi.toNat b.lowabs b.nabs 1) := by
  rw [exec_swjoin hrec hb ht hhere hnone hrank hfree hunasked hroom, State.join, if_neg (by simp [hgood]), if_pos hpast,
    finishAt_answered rfl hhome]
  exact ⟨_, countBank_finishWait d _ rfl, atBank_bankReturn ..⟩

/-- A join at a swarm that has no member in good standing closes its episode at once, and is seated (R347). -/
theorem swjoin_seated (hgood : b.members.any (fun m => m.good) = false) (hhome : HomeAnswers s off) (hbound : Bound s)
    (hn : s.naming 2 off = []) (hj : b.joins = []) (hc : b.closed = []) (hnew : ∀ m ∈ b.members, m.hid ≠ s.h.hid) :
    ∃ u o2 b2, exec (.swjoin d a t r) s = .next u ∧ Returned s u d (statusWord (b.epi + 1).toNat 0xFFF 0 0) ∧ u.swarm off = some (o2, b2) ∧
      b2.epi = b.epi + 1 ∧ b2.joins = [] ∧ b2.members = b.members.map (fun m => { m with arrived := false }) ++
        [{ rank := (s.xr d).toNat, hid := s.h.hid, chip := 0xFFFF, good := true, arrived := false, dead := 0, tick := s.gtb, flip := false }] := by
  let j : Join := ⟨s.h.hid, (s.xr d).toNat, s.deadline t r, s.gtb⟩
  let b1 : Swarm := { b with joins := [j] }
  have hpend : s.pendJoin off o b (s.xr d).toNat (s.deadline t r) = s.setBody off o (.swarm b1) := by rw [State.pendJoin, hj]; rfl
  have hw := (inWait_startWait hbound (k := .swjoin off (s.xr d).toNat) rfl hhome d (s.deadline t r)).congr
    (t := (s.setBody off o (.swarm b1)).startWait (.swjoin off (s.xr d).toNat) d (s.deadline t r)) ⟨rfl, rfl, rfl, rfl⟩
  have hsw : ((s.setBody off o (.swarm b1)).startWait (.swjoin off (s.xr d).toNat) d (s.deadline t r)).swarm off =
      some ({ o with body := .swarm b1 }, b1) := swarm_setBody s off o b1
  obtain ⟨hpresent, hlapse⟩ := present_lapsing_of_no_good (b := b1) hgood
  have hhart := h_closeEpisode hsw hn hc hlapse hw (fun m hm => by rw [hpresent] at hm; cases hm)
    (fun i hi _ => by obtain rfl := List.mem_singleton.mp hi; exact ⟨rfl, by simp [WaitKind.joins]⟩) (.inr ⟨j, List.mem_singleton.mpr rfl, rfl⟩)
  obtain ⟨o2, b2, hswarm, hepi, hjoins, hmembers⟩ := closeEpisode_reseats hsw
  rw [exec_swjoin hrec hb ht hhere hnone hrank hfree hunasked hroom, State.join, if_pos (by simp [hgood]), hpend]
  refine ⟨_, o2, b2, countBank_waits ((did_of_unclosed (unclosed_closeEpisode ..)).trans rfl),
    returned_count (returned_of_deliver (k := .swjoin off (s.xr d).toNat) (dead := s.deadline t r) hhart) .., (swarm_count ..).trans hswarm,
    hepi, hjoins, ?_⟩
  obtain ⟨-, -, hnear⟩ := hbound
  rw [hmembers, ← chipOf_near hnear]
  exact reseated_join (b := b1) (j := j) rfl hgood hnew

end

omit hhere in
theorem exec_swleave_here (hhere : b.remote = 0) : exec (.swleave d a) s = countBank s.h.tid (.next (
    if o.memberOf s.h.hid = none then s.finishWhen [(combHome off).1] d (statusWord 0 0xFFF 7 16)
    else (s.leaveAt off s.h.hid 0xFFFF).finishWhen [(combHome off).1] d 0xFFF00000#64)) := by
  show execSwleave d a s = _
  rw [execSwleave, atRecord_at hrec, atSwarm_own hb ht, if_neg (not_not.mpr hhere)]
  cases o.memberOf s.h.hid with
  | none => rfl
  | some m => rfl

omit hhere ht hrec hb in
theorem slowest_leaveAt (s : State) (off hid chip : Nat) : (s.leaveAt off hid chip).slowest [(combHome off).1] =
    if (s.die (combHome off).1).late = 0 then none else some (combHome off).1 :=
  (slowest_congr (dies_of_unclosed (unclosed_leaveAt s off hid chip)) _).trans (slowest_one ..)

/-- `swleave` of a member (R348). -/
theorem swleave_leaves (hmember : (o.memberOf s.h.hid).isSome = true) : ∃ u, exec (.swleave d a) s = .next u ∧
    (HomeAnswers s off → AtBank (s.leaveAt off s.h.hid 0xFFFF) u d 0xFFF00000#64) ∧
    (¬HomeAnswers s off → HeldFor u (s.leaveAt off s.h.hid 0xFFFF).h.pc (partyWord 1 (combHome off).1)) ∧
    (b.joins = [] → ∃ o2 b2, u.swarm off = some (o2, b2) ∧ o2.memberOf s.h.hid = none) := by
  have hexec := exec_swleave_here (d := d) hrec hb ht hhere
  rw [if_neg (Option.isSome_iff_ne_none.mp hmember)] at hexec
  obtain ⟨u, hu, hreturned, hheld, hobj⟩ := countBank_finishWhen (tid_of_unclosed (unclosed_leaveAt s off s.h.hid 0xFFFF)) [(combHome off).1] d
    0xFFF00000#64
  refine ⟨u, hexec.trans hu, fun hhome => hreturned ((slowest_leaveAt ..).trans (if_pos hhome)),
    fun hlate => hheld _ ((slowest_leaveAt ..).trans (if_neg hlate)), fun hj => ?_⟩
  obtain ⟨o2, b2, h2, hnone⟩ := leaveAt_leaves (hid := s.h.hid) (chip := 0xFFFF) hb hj
  have hus : u.swarm off = some (o2, b2) := by rw [← h2, State.swarm, hobj]; rfl
  exact ⟨o2, b2, hus, memberOf_eq_none hus hnone⟩

end

/-! The instructions at a proxy (R340, R349) -/

section

variable (hfar : b.remote ≠ 0)

include hfar

theorem requests_ask (t : BitVec 5) (r : BitVec 1) : ∀ e ∈ [(Instr.swjoin d a t r, WaitKind.swjoin off (s.xr d).toNat),
      (.swbar d a t r, .arrive off false), (.step d a t r, .arrive off true)],
    ∃ u, exec e.1 s = .next u ∧ StandsBy s u e.2 d (s.deadline t r) ∧ Asked s u := by
  have harrives : ∀ flip, arrival flip d a t r s =
      countBank s.h.tid (s.forward o b (.arrive off flip) d (if flip then 5 else 4) 0 (s.deadline t r)) := fun flip => by
    rw [arrival, atRecord_at hrec, atSwarm_own hb ht, if_pos hfar]
  have hjoins : exec (.swjoin d a t r) s = countBank s.h.tid (s.forward o b (.swjoin off (s.xr d).toNat) d 2 (s.xr d).toNat (s.deadline t r)) := by
    show execSwjoin d a t r s = _
    rw [execSwjoin, atRecord_at hrec, atSwarm_own hb ht, if_pos hfar]
  simp only [List.forall_mem_cons]
  refine ⟨?_, ?_, ?_, List.forall_mem_nil _⟩
  · rw [hjoins]
    exact forward_asks ht ..
  · rw [show exec (.swbar d a t r) s = _ from harrives false]
    exact forward_asks ht ..
  · rw [show exec (.step d a t r) s = _ from harrives true]
    exact forward_asks ht ..

/-- `swleave` through a proxy: the home bank's answer is awaited under IWL (R334). -/
theorem swleave_asks : ∃ u, exec (.swleave d a) s = .next u ∧ HeldFor u s.h.pc b.homeParty ∧ Asked s u := by
  have hexec : exec (.swleave d a) s = countBank s.h.tid
      (.next ((s.askHome o b 3 s.h.hid 0 s.gtb).stallBegun d 0 (.leaves [(off, s.gtb)]) b.homeParty)) := by
    show execSwleave d a s = _
    rw [execSwleave, atRecord_at hrec, atSwarm_own hb ht, if_pos hfar]
  have hheld := heldFor_stallBegun (s.askHome o b 3 s.h.hid 0 s.gtb) d 0 (.leaves [(off, s.gtb)]) b.homeParty
  rw [h_askHome] at hheld
  obtain ⟨-, hbegun, -⟩ := id hheld
  exact ⟨_, hexec.trans (countBank_begun hbegun), heldFor_count hheld .., ((asked_askHome ht b 3 s.h.hid 0 s.gtb).stallBegun ..).count ..⟩

end

/-! Requests of a stranger and of a lapsed member, at a home that answers -/

section

variable (hhere : b.remote = 0) (hhome : HomeAnswers s off)

include hhere hhome

theorem arrival_refused {v : Word} (t : BitVec 5) (r : BitVec 1) (hv : (o.memberOf s.h.hid = none ∧ v = statusWord 0 0xFFF 7 16) ∨
      (∃ m, o.memberOf s.h.hid = some m ∧ m.good = false ∧ v = statusWord b.epi.toNat b.lowabs b.nabs 2)) (flip : Bool) :
    ∃ u, arrival flip d a t r s = .next u ∧ AtBank s u d v := by
  refine ⟨_, (arrival_ungranted hrec hb ht hhere hv flip).trans ?_, atBank_bankReturn ..⟩
  rw [finishAt_answered rfl hhome]
  exact countBank_finishWait d _ rfl

theorem swleave_refused (hnone : o.memberOf s.h.hid = none) : ∃ u, exec (.swleave d a) s = .next u ∧ AtBank s u d (statusWord 0 0xFFF 7 16) := by
  have hexec := exec_swleave_here (d := d) hrec hb ht hhere
  rw [if_pos hnone] at hexec
  exact ⟨_, hexec.trans (countBank_answered d _ rfl ((slowest_one ..).trans (if_pos hhome))), atBank_bankReturn ..⟩

theorem strangers_refused (t : BitVec 5) (r : BitVec 1) (hnone : o.memberOf s.h.hid = none) :
    ∀ i ∈ [Instr.swleave d a, .swbar d a t r, .step d a t r], ∃ u, exec i s = .next u ∧ AtBank s u d (statusWord 0 0xFFF 7 16) := by
  have harrives := fun flip => arrival_refused (d := d) hrec hb ht hhere hhome t r (.inl ⟨hnone, rfl⟩) flip
  simp only [List.forall_mem_cons]
  exact ⟨swleave_refused hrec hb ht hhere hhome hnone, harrives false, harrives true, List.forall_mem_nil _⟩

end

end

end Sys2Proof.Machine

namespace Sys2Proof.Claims

open Sys2Proof.Machine

/-- Settles O22: a close seats the joins and answers who is present in it, the hart in hand among them where no die is late; the other requests
return at the bank or stand as waits, and a proxy's go out in a frame. -/
theorem swarmResults : Obligations.SwarmResults := by
  unfold Obligations.SwarmResults
  intro s d a t r off o b hrec hb ht
  refine ⟨fun hhere hnone hrank hfree hunasked hroom => ⟨fun hgood => ⟨fun hfuture => ?_, fun hpast hhome => ?_⟩,
      fun hgood hhome hbound hn hj hc hnew => ?_⟩, fun hhere hmember => swleave_leaves hrec hb ht hhere hmember,
    fun hhere hhome hnone => strangers_refused hrec hb ht hhere hhome t r hnone, fun hhere hlate v hv hnew e he => ?_,
    fun hhere m hm e he => ?_, fun hfar => requests_ask hrec hb ht hfar t r, fun hfar => swleave_asks hrec hb ht hfar⟩
  · exact swjoin_pends hrec hb ht hhere hnone hrank hfree hunasked hroom hgood hfuture
  · exact swjoin_expired hrec hb ht hhere hnone hrank hfree hunasked hroom hgood hpast hhome
  · exact swjoin_seated hrec hb ht hhere hnone hrank hfree hunasked hroom hgood hhome hbound hn hj hc hnew
  · rw [exec_arrivals s d a t r e he]
    exact arrival_kept hrec hb ht hhere hlate hv hnew e.2
  · rw [exec_arrivals s d a t r e he]
    refine ⟨fun hgood => ⟨arrival_arrives hrec hb ht hhere hm hgood e.2, fun hhome hbound hn hj hc _ honly hall => ?_, fun hfuture hawaited => ?_⟩,
      fun hlapsed hhome => ?_⟩
    · exact arrival_returns hrec hb ht hhere hm hgood honly hall hhome hbound hn hj hc e.2
    · exact arrival_waits hrec hb ht hhere hm hgood hfuture hawaited e.2
    · exact arrival_refused hrec hb ht hhere hhome t r (.inr ⟨m, hm, hlapsed, rfl⟩) e.2

end Sys2Proof.Claims
end
